-- ==== Sys2Proof/Word.lean ====
section
/-! DEFINITION. The words of the module: registers are 32 bits wide (00_scope.md R7), polder time, addresses and other
long values 64 bits (02_polder_time.md R40, 01_architecture.md R38), memory is bytes. -/
namespace Sys2Proof

/-- A register word (R7). -/
abbrev Word := BitVec 32

/-- A 64-bit value: polder time, an address, a descriptor field. -/
abbrev DWord := BitVec 64

/-- A byte of a store. -/
abbrev Byte := BitVec 8

/-- The 64-bit value of a LO/HI pair (R8). -/
def joinPair (lo hi : Word) : DWord := hi ++ lo

/-- The low half of a 64-bit value. -/
def loHalf (v : DWord) : Word := v.setWidth 32

/-- The high half of a 64-bit value. -/
def hiHalf (v : DWord) : Word := (v >>> 32).setWidth 32

end Sys2Proof
end

