-- ==== Sys2Proof/Syntax.lean ====
section
/-! DEFINITION. The commands that the block takes: one constructor of `Instr` for each row of spec/opcode_table.json, with the
operands that say which access, frame, time or outside fact it is. Every command stands for one of the part's whole and
indivisible steps (95_what_each_step_holds.md). An operand `t` is the local time of the step in units of 62.5 ps since
power-on: the model's own clock on which every wait of the spec is measured (notes/assumptions/2.md). -/
namespace Sys2Proof

/-- The path of a register access (00_scope.md R7, R8; 14_herds.md R358, R481): the management port, or the fabric path through the
doorbell window of a herd (herd 0 is the steward's). -/
inductive Path where
  | mgmt
  | fabric (herd : Nat)
  deriving DecidableEq, Repr

/-- How a command register is written: by which path, and on which herd page if through an alias (R359). -/
structure Via where
  path : Path
  page : Option Nat
  deriving DecidableEq, Repr

/-- A time frame (02_polder_time.md R46). -/
structure TimeFrame where
  root : Bool
  anchored : Bool
  holdover : Bool
  stopped : Bool
  stepped : Bool
  twoWay : Bool
  depth : Nat
  rootId : Nat
  seq : Nat
  txPrev : DWord
  rxLast : DWord
  txPrevFrac : Nat
  rxLastFrac : Nat
  errPs : Nat
  rxSeq : Nat
  deriving DecidableEq, Repr

/-- A cipher header and the outcome of the tag check (15_cipher.md R372, R373, R376). Whether the tag matches is an outside fact: the
keys and ciphertext stand outside the model. -/
structure CipherHdr where
  srcModule : Nat
  kind : Nat
  channel : Nat
  epoch : Nat
  counter : Nat
  tagOk : Bool
  deriving DecidableEq, Repr

/-- A lode frame (04_lodes_ordering.md R102), its payload in plaintext with trailer or atomic payload. -/
structure LodeFrame where
  first : Bool
  last : Bool
  flag : Bool
  atomic : Bool
  resync : Bool
  dstLode : Nat
  seq : Nat
  frameIdx : Nat
  msgLen : Nat
  window : Nat
  woffset : Nat
  payload : List Byte
  cipher : Option CipherHdr
  deriving DecidableEq, Repr

/-- A piece of a chunk frame (09_collectives.md R244). -/
structure Piece where
  gen : Nat
  step : Nat
  offset : Nat
  crc : Nat
  data : List Byte
  deriving DecidableEq, Repr

/-- A chunk frame (09_collectives.md R244). -/
structure ChunkFrame where
  dynamic : Bool
  back : Bool
  dstLode : Nat
  seq : Nat
  group : Nat
  pieces : List Piece
  token : Nat
  tokenGen : Nat
  credit : Nat
  ack : Nat
  cipher : Option CipherHdr
  deriving DecidableEq, Repr

/-- What a scheduled frame carries. -/
inductive FrameBody where
  | lode (f : LodeFrame)
  | chunk (c : ChunkFrame)
  deriving DecidableEq, Repr

/-- A scheduled frame as it travels (R92, R102): plan epoch, destination, and two outside facts: whether its tail passes the frame checks
(12_ports_mac.md R318) and which copy of a covered frame it is. -/
structure SchedFrame where
  epoch : Nat
  dstModule : Nat
  tailOk : Bool
  shadow : Bool
  body : FrameBody
  deriving DecidableEq, Repr

/-- Kinds of RoCEv2 packet (11_best_effort_transport.md R294). -/
inductive QpOp where
  | send | write | writeImm | readReq | readResp | atomicReq | atomicResp | ack | nak | rnrNak | cnp | other
  deriving DecidableEq, Repr

/-- A packet of a queue pair (R294, R295): the fields of the transport header, of the placement extension where the peer is a module,
and the payload in plaintext. -/
structure QpPacket where
  op : QpOp
  qpn : Nat
  psn : Nat
  first : Bool
  last : Bool
  path : Nat
  flag : Bool
  restart : Bool
  status : Nat
  msn : Nat
  msgLen : Nat
  offset : Nat
  cumPsn : Nat
  sack : Nat
  ceBytes : Nat
  txTime : Nat
  rkey : Nat
  va : Nat
  imm : Option Nat
  payload : List Byte
  syndrome : Nat
  atomicOp : Nat
  operand : Nat
  compare : Nat
  ce : Bool
  cipher : Option CipherHdr
  deriving DecidableEq, Repr

/-- What a best-effort frame carries. -/
inductive BeBody where
  | packet (p : QpPacket)
  | chunk (c : ChunkFrame)
  deriving DecidableEq, Repr

/-- A best-effort frame on a link (13_routing_deadlock.md R336 to R342): EPOCH, 802.1Q priority, the module that its address names (none outside the
polder, R333), PATH, bytes from destination address through FCS, whether it is marked ECN-capable. -/
structure BeFrame where
  epoch : Nat
  pcp : Nat
  dest : Option Nat
  path : Nat
  bytes : Nat
  ect : Bool
  body : BeBody
  deriving DecidableEq, Repr

/-- What a Uanto frame says of its sender (12_ports_mac.md R328). -/
structure UantoSide where
  role : Nat
  gen : Nat
  minor : Nat
  module : Nat
  port : Nat
  caps : List Nat
  deriving DecidableEq, Repr

/-- An ACCESS frame (12_ports_mac.md R321): window, tag, OP (1 WRITE, 2 READ, 3 READ_DATA, 4 NAK, others reserved), entry of the port's context list, bytes
requested by a READ, address, payload. -/
structure AccessFrame where
  window : Nat
  tag : Nat
  op : Nat
  ctx : Nat
  readLen : Nat
  addr : Nat
  payload : List Byte
  deriving DecidableEq, Repr

/-- What a received frame is (12_ports_mac.md R316, R317): a MAC control frame with opcode, enable vector and quanta by priority; a Uanto frame (CONFIRM or
OFFER, SEEN); a best-effort frame; an ACCESS or LANDED frame; a Chaennis frame whose VERSION or TYPE is not accepted; a Chaennis frame of a type that
no port carries as a frame of its own; any other EtherType. -/
inductive RxKind where
  | mac (opcode enable : Nat) (quanta : List Nat)
  | uanto (confirm seen : Bool) (side : UantoSide)
  | be (f : BeFrame)
  | access (f : AccessFrame)
  | landed (tag : Nat)
  | badVersion
  | payloadType
  | foreign
  deriving DecidableEq, Repr

/-- A received frame (12_ports_mac.md R317): whether a PCS block or FEC code word in it is bad, bytes from destination address through FCS, its FCS (0 correct,
1 wrong, 2 the complement of the correct one), destination address (first byte most significant), what it is, and its first bytes. -/
structure RxFrame where
  badCode : Bool
  len : Nat
  fcs : Nat
  dst : Nat
  kind : RxKind
  data : List Byte
  deriving DecidableEq, Repr

/-- What a pass of a user program writes (stream, offset, bytes), the flags it raises and its KRESULT: the microcode is not in the spec, so they come from
outside. -/
structure ProgPass where
  writes : List (Nat × Nat × List Byte)
  flags : Nat
  kresult : Nat
  deriving DecidableEq, Repr

/-- What a cipher engine drops on a second mismatch (15_cipher.md R388): nothing that the module handles, the next frame that a channel (KIND, CHANNEL) sends, or a
Peat access of a sector. -/
inductive CipherLoss where
  | nothing
  | frame (kind channel : Nat)
  | sector (n : Nat)
  deriving DecidableEq, Repr

/-- A port of the configuration image (18_config_firmware.md R433, PORTS). -/
structure ConfigPort where
  role : Nat
  proto : Nat
  rate : Nat
  media : Nat
  enable : Bool
  vid : Nat
  etherType : Nat
  mac : Nat
  deriving DecidableEq, Repr

/-- The TIME record of the configuration image (R433; 02_polder_time.md R483), whose slot fields are 0. -/
structure ConfigTime where
  role : Nat
  hasBackup : Bool
  primaryPort : Nat
  primaryModule : Nat
  backupPort : Nat
  depth : Nat
  backupModule : Nat
  backupDepth : Nat
  deriving DecidableEq, Repr

/-- What the sections of the configuration image say (R433): the spec gives their contents and no layout of their records, so the loader's reading of them comes from
outside (notes/assumptions/40.md). Ports; training sequences by RATE and MEDIA (rate + 4 × media), steps of action, parameter and timeout; time record and asymmetry
corrections in eighths of a unit; fault classes N_DEG, N_SEV, WINDOW, QUIET, LIMIT; words of the response curves; throttle thresholds of levels 1 to 3 and TRIP, hysteresis;
prefixes; reservations of kind (0 plan region, 1 window table, 2 granule table copy, 3 mirror bitmap, 4 journal), first granule and count; pools by port (RTE_POOL, RTE_POOL2)
and origins; base routes; peers of eight words; key digests; register values. -/
structure ConfigImage where
  ports : List ConfigPort
  training : List (Nat × List (Nat × Nat × Nat))
  time : ConfigTime
  asym : List Int
  classes : List (Nat × Nat × Nat × Nat × Nat)
  curves : List Nat
  thermal : Nat × Nat × Nat × Nat × Nat
  ip6 : List Nat
  ip4 : Nat
  reserve : List (Nat × Nat × Nat)
  pools : List (Nat × Nat)
  origin : Nat
  routes : List Nat
  peers : List (List Nat)
  keys : List (BitVec 384)
  regs : List (Nat × Nat)
  deriving DecidableEq, Repr

/-- Outside facts of a boot step: what the sections of the configuration image say; the packages that fail training (10_memory.md R270); whether every keep record verifies
(R280); whether the flash device meets R430, and its size as a power of two. -/
structure BootWork where
  image : ConfigImage
  failed : List Nat
  keepOk : Bool
  sfdpOk : Bool
  sizeLog2 : Nat
  deriving DecidableEq, Repr

/-- The commands of the block, one constructor for each row of spec/opcode_table.json. -/
inductive Instr where
  /-- REGISTER_WRITE (R10): A write to a register field that has no row of its own takes effect by its access type and change class. -/
  | registerWrite (p : Path) (addr : Nat) (value : Word)
  /-- PAIR_LO_READ (R8): A read of the LO half of a 64-bit pair returns LO and latches HI for the following HI read. -/
  | pairLoRead (p : Path) (addr : Nat)
  /-- PAIR_LO_WRITE (R8): A write of LO of a writable pair is held in the path's shadow and changes nothing. -/
  | pairLoWrite (p : Path) (addr : Nat) (value : Word)
  /-- PAIR_HI_WRITE (R8): A write of HI sets both halves of the pair together, taking LO from the shadow or the current LO. -/
  | pairHiWrite (p : Path) (addr : Nat) (value : Word)
  /-- READ_CLEAR_REGISTER (R10): A read of an RC register returns its value and then clears it, clearing both halves of an RC pair on a LO read. -/
  | readClearRegister (p : Path) (addr : Nat)
  /-- MISALIGNED_REGISTER_ACCESS (R7): An access that is not an aligned 32-bit word is dropped, and a read of it returns zero. -/
  | misalignedRegisterAccess (p : Path) (addr size : Nat) (isWrite : Bool) (value : Word)
  /-- UNOCCUPIED_REGISTER_ACCESS (R9): An access to an unoccupied address is dropped or read as zero and captured as a register-access fault. -/
  | unoccupiedRegisterAccess (p : Path) (addr : Nat) (isWrite : Bool) (value : Word)
  /-- TIME_FRAME_TIMER (R45): Before a plan is loaded, a time frame is sent to each child every 1,392,640 ns at the highest best-effort priority. -/
  | timeFrameTimer (t : Nat)
  /-- TIME_FRAME_RECEIVED (R46): A time frame from a parent or child arrives and is timestamped, and the offset, delay exchange and time state are updated. -/
  | timeFrameReceived (t port : Nat) (frac : Nat) (f : TimeFrame)
  /-- PARENT_LOST_TIMEOUT (R58): The third consecutive expected time frame from a parent has not arrived 1 µs after it was due, so the parent is declared lost. -/
  | parentLostTimeout (t : Nat) (backup : Bool)
  /-- HOLD_LIMIT_EXCEEDED (R60): With no plan loaded, ERR_PS exceeds SLU_HOLD_LIMIT and the module enters STOPPED at that instant. -/
  | holdLimitExceeded (t : Nat)
  /-- DELAY_EXCHANGE_TIMEOUT (R47): No reply to a two-way exchange arrives within 10 µs, so the exchange is discarded and run again. -/
  | delayExchangeTimeout (t port : Nat)
  /-- PPS_IN_EDGE (R53): An edge on PPS_IN is captured with its offset from the second boundary, and the root may anchor to it. -/
  | ppsInEdge (t : Nat) (rising : Bool)
  /-- PPS_ANCHOR_TIMEOUT (R55): An anchored root sees no PPS_IN edge for 1.5 s and clears ANCHORED. -/
  | ppsAnchorTimeout (t : Nat)
  /-- PPS_OUT_SECOND (R54): At each second boundary of polder time, PPS_OUT rises if the state allows it. -/
  | ppsOutSecond (t : Nat)
  /-- PPS_OUT_FALL (R471): PPS_OUT falls 100 ms after it rose. -/
  | ppsOutFall (t : Nat)
  /-- TIME_SET (R56): SLU_TIME_CTL.SET loads SLU_TIME_SET into polder time at a ROOT or FREE module with no plan bank in use. -/
  | timeSet (p : Path)
  /-- TIME_CAPTURE (R62): SLU_TIME_CTL.CAPTURE copies polder time into SLU_CAPTURE. -/
  | timeCapture (p : Path)
  /-- PLAN_LOAD (R66): LOAD copies the bank's half of the plan region on die and starts admission checking. -/
  | planLoad (p : Path) (bank : Nat)
  /-- PLAN_CHECK_COMPLETE (R69): The admission checks end, and the bank becomes ADMITTED or REFUSED with a refusal record. -/
  | planCheckComplete (t bank : Nat)
  /-- PLAN_ARM (R68): ARM moves an ADMITTED bank to ARMED when the time state, retiring bank, TIDE_BASE and epoch conditions hold. -/
  | planArm (p : Path) (bank : Nat)
  /-- PLAN_CLEAR (R67): CLEAR empties a REFUSED, ADMITTED or ARMED bank. -/
  | planClear (p : Path) (bank : Nat)
  /-- PLAN_UNLOAD (R67): UNLOAD moves the active bank to RETIRING, so that no slot of it opens after the next tide boundary. -/
  | planUnload (p : Path) (bank : Nat)
  /-- PLAN_ACTIVATE (R92): Polder time reaches TIDE_BASE of an ARMED bank, which becomes ACTIVE while the old bank retires. -/
  | planActivate (t : Nat)
  /-- PLAN_RETIRE (R67): MAX_FLIGHT has passed since a RETIRING bank stopped opening slots, so the bank becomes EMPTY and its route bank is discarded. -/
  | planRetire (t : Nat)
  /-- TIDE_BOUNDARY (R51): Polder time reaches the start of a tide, and Tide-class fields and slack-tide work act. -/
  | tideBoundary (t : Nat)
  /-- SLOT_OPEN (R52): A slot opens on a port, and the port sends what its slot entry names or best-effort frames that fit. -/
  | slotOpen (t port : Nat)
  /-- LODE_FRAME_ACCEPT (R79): A frame that is complete in the lode queue is assigned its next slot or pair, and its deadline is fixed. -/
  | lodeFrameAccept (t l : Nat)
  /-- LODE_DEADLINE_TIMEOUT (R28): A descriptor admitted to a lode that has lost every path completes with REMOTE_TIMEOUT at its deadline. -/
  | lodeDeadlineTimeout (t l : Nat)
  /-- SCHED_FRAME_RECEIVED (R73): The head of a scheduled frame arrives on a port and is held for that port's PAD. -/
  | schedFrameReceived (t p : Nat) (f : SchedFrame)
  /-- SCHED_FRAME_ROUTE (R334): The pad releases a scheduled frame, which is placed locally or matched to a TRANSIT entry in its epoch's bank. -/
  | schedFrameRoute (t p : Nat)
  /-- PLANNED_WAKE (R96): A domain stopped by the plan is started 2 µs before its next planned use. -/
  | plannedWake (t d : Nat)
  /-- PLANNED_DOMAIN_STOP (R96): A domain is stopped when its planned use ends before an idle gap of at least MIN_IDLE. -/
  | plannedDomainStop (t d : Nat)
  /-- LODE_FRAME_RECEIVED (R103): A lode frame reaches its destination and is checked, deduplicated and placed by its window offset. -/
  | lodeFrameReceived (t : Nat)
  /-- LODE_LEASE_LOSS (R105): A lease period passes since the lode's last arrival, so the lowest unplaced frame is declared lost. -/
  | lodeLeaseLoss (t l : Nat)
  /-- HELD_FRAME_RELEASE (R107): A frame held for message order is handed over once the earlier message has resolved. -/
  | heldFrameRelease (t l : Nat)
  /-- MEMORY_WRITE_ACK (R112): The serving memory acknowledges a write as landed at its point of visibility. -/
  | memoryWriteAck (t id : Nat)
  /-- LODE_FLAG_WRITE (R108): The flag of a complete message is written once its data and all earlier messages have landed. -/
  | lodeFlagWrite (t l : Nat)
  /-- LODE_ATOMIC_PERFORM (R110): An atomic whose conditions hold is performed indivisibly at the serving Peat controller. -/
  | lodeAtomicPerform (t l : Nat)
  /-- RECEIPT_SEND (R115): The destination sends a receipt for a span of resolved messages with one outcome. -/
  | receiptSend (t l : Nat)
  /-- RECEIPT_TIMER (R115): 1 µs passes with resolved messages still unreported, so a receipt is sent. -/
  | receiptTimer (t l : Nat)
  /-- RECEIPT_RECEIVED (R116): A receipt arrives at the source, and the lode descriptors it covers become ready to complete. -/
  | receiptReceived (t : Nat)
  /-- RECEIPT_TIMEOUT (R116): No receipt covers a message by its deadline plus the lease period, so the descriptor completes with REMOTE_TIMEOUT. -/
  | receiptTimeout (t l : Nat)
  /-- COMPLETION_WRITE (R146): A completion whose turn in submission order has come writes bytes 8 to 31 of its entry in the CQ. -/
  | completionWrite (t k : Nat)
  /-- COMPLETION_HEADER_WRITE (R132): Once bytes 8 to 31 have landed, bytes 0 to 7 are written with the expected phase. -/
  | completionHeaderWrite (t c : Nat)
  /-- RX_COMPLETION_WRITE (R117): After the flag lands, a receive completion is written for the message of a bound incoming endpoint. -/
  | rxCompletionWrite (t l : Nat)
  /-- WAIT_COUNT_SATISFIED (R121): The named queue's completion count reaches TARGET, and the WAIT_COUNT completes by its failure count. -/
  | waitCountSatisfied (t k : Nat)
  /-- WAIT_COUNT_TIMEOUT (R121): TIMEOUT passes first, so the WAIT_COUNT completes with REMOTE_TIMEOUT and clears its queue's enable. -/
  | waitCountTimeout (t k : Nat)
  /-- SQ_DOORBELL (R135): A write of HERD_SQ_DB sets TAIL and starts a read of the SQ from HEAD. -/
  | sqDoorbell (p : Path) (h q : Nat) (value : Word)
  /-- CQ_DOORBELL (R146): A write of HERD_CQ_DB records the HEAD that software has consumed up to. -/
  | cqDoorbell (p : Path) (h c : Nat) (value : Word)
  /-- EQ_DOORBELL (R149): A write of HERD_EQ_DB records the event ring's consumed HEAD. -/
  | eqDoorbell (p : Path) (h : Nat) (value : Word)
  /-- SQ_READ_COMPLETE (R135): An SQ read returns, and entries with a valid phase are accepted in index order. -/
  | sqReadComplete (t k : Nat) (ext : List Byte)
  /-- SQ_REFETCH_TIMER (R135): REFETCH passes after a read that found an invalid entry, so the entry is read again. -/
  | sqRefetchTimer (t k : Nat)
  /-- STALE_PHASE_TIMEOUT (R136): A claimed entry is still invalid one lease period after the doorbell that claimed it, so it is treated as malformed. -/
  | stalePhaseTimeout (t k : Nat)
  /-- LODE_WRITE (R138): A dispatched LODE_WRITE is checked, its source is translated, and its message is queued on the lode. -/
  | lodeWrite (t k : Nat)
  /-- LODE_ATOMIC (R138): A dispatched LODE_ATOMIC posts a non-fetching 64-bit atomic message to a lode. -/
  | lodeAtomic (t k : Nat)
  /-- QP_SEND (R138): A dispatched QP_SEND sends a SEND message on a queue pair. -/
  | qpSend (t k : Nat)
  /-- QP_WRITE (R138): A dispatched QP_WRITE sends an RDMA WRITE on a queue pair, with an optional flag. -/
  | qpWrite (t k : Nat)
  /-- QP_READ (R138): A dispatched QP_READ reserves reply space and sends an RDMA READ request. -/
  | qpRead (t k : Nat)
  /-- QP_ATOMIC (R138): A dispatched QP_ATOMIC sends a fetch-and-add or compare-and-swap request. -/
  | qpAtomic (t k : Nat)
  /-- QP_RECV (R138): A dispatched QP_RECV posts a receive buffer for arriving SENDs. -/
  | qpRecv (t k : Nat)
  /-- CHURN_LAUNCH (R223): A dispatched CHURN_LAUNCH reads its argument block and checks the launch. -/
  | churnLaunch (t k : Nat)
  /-- WAIT_COUNT (R120): A dispatched WAIT_COUNT holds its queue until the named queue's completion count reaches TARGET. -/
  | waitCount (t k : Nat)
  /-- NOP (R138): A dispatched NOP completes DONE. -/
  | nop (t k : Nat)
  /-- ALL_REDUCE (R243): A COLL_START of ALL_REDUCE starts a generation that reduces and distributes the scaled sum. -/
  | allReduce (t k : Nat)
  /-- REDUCE_SCATTER (R243): A COLL_START of REDUCE_SCATTER starts a generation that leaves each member its own segment of the sum. -/
  | reduceScatter (t k : Nat)
  /-- ALL_GATHER (R243): A COLL_START of ALL_GATHER starts a generation that gathers every rank's data at every member. -/
  | allGather (t k : Nat)
  /-- BROADCAST (R243): A COLL_START of BROADCAST starts a generation that forwards the root's data round the ring. -/
  | broadcast (t k : Nat)
  /-- ALL_REDUCE_LOWRANK (R257): A fused start compresses the gradient to a curd, all-reduces the curds and expands the sum. -/
  | allReduceLowrank (t k : Nat)
  /-- REDUCE_SCATTER_ADAM (R258): A fused start reduce-scatters the gradient and runs ADAM_STEP on the sealed segment. -/
  | reduceScatterAdam (t k : Nat)
  /-- RERUN (R255): A RERUN start runs a revoked generation again from its kept contributions. -/
  | rerun (t k : Nat)
  /-- EVENT_RING_WRITE (R148): A raised event is written into the event ring of each herd it goes to, in two steps. -/
  | eventRingWrite (t : Nat)
  /-- SQ_ENABLE (R147): Setting QE_SQ_CFG.ENABLE binds the SQ to its CQ and resumes fetching at HEAD. -/
  | sqEnable (v : Via) (value : Word)
  /-- SQ_DISABLE (R150): Clearing ENABLE stops dispatch, drops undispatched descriptors and rewinds HEAD. -/
  | sqDisable (v : Via) (value : Word)
  /-- CQ_DISABLE (R151): A clear of QE_CQ_CFG.ENABLE takes effect unless the CQ is still in use, in which case it is dropped. -/
  | cqDisable (p : Path) (value : Word)
  /-- RX_BIND_ENABLE (R147): Setting QE_RX_BIND.ENABLE binds an incoming endpoint to a CQ for receive completions. -/
  | rxBindEnable (p : Path) (value : Word)
  /-- RING_BASE_WRITE (R150): A write of a ring base sets its indices to 0 and its expected phase to 1. -/
  | ringBaseWrite (v : Via) (kind : Nat) (value : Word)
  /-- AS_ENABLE (R154): A write that sets XLT_AS_CFG.ENABLE enables an address space within the herd's share and the pool. -/
  | asEnable (p : Path) (value : Word)
  /-- TRANSFER_TILE_CHECKED (R161): Every page of a transfer tile has been translated and checked before any byte moves, or the first failing page decides the outcome. -/
  | transferTileChecked (t kind n : Nat)
  /-- INVALIDATE_ALL (R164): XLT_INV GO with SCOPE all invalidates every context. -/
  | invalidateAll (v : Via) (value : Word)
  /-- INVALIDATE_CONTEXT (R164): XLT_INV GO with SCOPE context invalidates one context. -/
  | invalidateContext (v : Via) (value : Word)
  /-- INVALIDATE_RANGE (R164): XLT_INV GO with SCOPE range invalidates one context over a range of 4 KiB pages. -/
  | invalidateRange (v : Via) (value : Word)
  /-- INVALIDATE_START (R164): A waiting invalidation starts when the one before it has finished. -/
  | invalidateStart (t : Nat)
  /-- INVALIDATE_DONE (R164): An invalidation has no usable dropped entries and no requests in flight, so INV_DONE is set. -/
  | invalidateDone (t : Nat)
  /-- WINDOW_OPEN (R169): WIN_CMD OPEN makes the staged entry the named window's entry after its checks. -/
  | windowOpen (v : Via) (w : Nat)
  /-- WINDOW_CLOSE (R171): WIN_CMD CLOSE sets STATE to CLOSING and records REV_POINT. -/
  | windowClose (v : Via) (w : Nat)
  /-- WINDOW_READ (R176): WIN_CMD READ copies the window entry to WIN_ENTRY_w. -/
  | windowRead (v : Via) (w : Nat)
  /-- WINDOW_CLOSE_COMPLETE (R172): Every message admitted before REV_POINT has resolved, so the window is freed with GEN incremented. -/
  | windowCloseComplete (t w : Nat)
  /-- WINDOW_CLOSE_TIMEOUT (R172): A lease period passes since CLOSE, so unresolved messages fail with WINDOW_CLOSED and the close completes. -/
  | windowCloseTimeout (t w : Nat)
  /-- DIRTY_HARVEST (R174): XLT_DIRTY_CMD GO starts reading and zeroing bitmap words into XLT_DIRTY_DST. -/
  | dirtyHarvest (p : Path) (value : Word)
  /-- DIRTY_HARVEST_DONE (R174): A harvest completes and sets DIRTY_DONE. -/
  | dirtyHarvestDone (t : Nat)
  /-- SEED_WRITE (R194): A write of CHU_SEED_HI sets the tile's seed and clears its launch counter. -/
  | seedWrite (v : Via) (value : Word)
  /-- CHURN_CHECK_DETECT (R198): A residue, rounding or parity detection in a tile restores the pass state and repeats the pass, or ends the launch on a second detection. -/
  | churnCheckDetect (t tile : Nat)
  /-- LAUNCH_PASS_END (R198): A pass of a launch ends, its outputs are written and state is saved for the next pass. -/
  | launchPassEnd (t n units : Nat) (last : Bool) (user : ProgPass)
  /-- TILE_SRAM_ECC (R202): A tile SRAM single-bit error is corrected, or a double-bit error ends the launch with UNCORRECTABLE. -/
  | tileSramEcc (t tile word : Nat) (double : Bool)
  /-- TILE_SRAM_SCRUB (R204): One word of an idle tile's SRAM is read and corrected every 256 cycles. -/
  | tileSramScrub (t tile bits : Nat)
  /-- TILE_SRAM_CLEAR (R203): A range is cleared to zero before its first use by a herd other than the one that last wrote it. -/
  | tileSramClear (t tile : Nat)
  /-- PROGRAM_LOAD (R213): CHU_PROG_CMD LOAD copies a program image on die and starts its load checks. -/
  | programLoad (v : Via) (value : Word)
  /-- PROGRAM_CHECK_COMPLETE (R215): The load checks end, and the entry becomes LOADED or returns to EMPTY with a reason. -/
  | programCheckComplete (t e : Nat)
  /-- PROGRAM_UNLOAD (R214): CHU_PROG_CMD UNLOAD moves an unnamed entry to DRAINING. -/
  | programUnload (v : Via)
  /-- LAUNCH_ARGS_READ (R223): The argument block has been read, and the launch and stream checks move the launch to READY. -/
  | launchArgsRead (t n : Nat)
  /-- LAUNCH_START_SCHEDULED (R220): An occurrence of the owner's TILE reservation opens and a READY scheduled launch enters RUNNING. -/
  | launchStartScheduled (t n : Nat)
  /-- LAUNCH_START_UNSCHEDULED (R221): Every bound tile is free with room before its next reservation, so an unscheduled launch enters RUNNING. -/
  | launchStartUnscheduled (t n : Nat)
  /-- LAUNCH_BUDGET_EXCEEDED (R222): A launch reaches C + 4,144 cycles and is ended with INTEGRITY. -/
  | launchBudgetExceeded (t n : Nat)
  /-- STREAM_OVERRUN (R208): An access beyond a stream's length ends the launch with XLATE_FAULT. -/
  | streamOverrun (t n stream offset : Nat)
  /-- LAUNCH_COMPLETE (R220): Every issued write of a launch has landed, and it completes with DONE or its failure status. -/
  | launchComplete (t n : Nat)
  /-- DYN_CHUNK_SEND (R245): At a dynamic send opportunity, a frame of ready pieces is sent within the credit. -/
  | dynChunkSend (t g : Nat)
  /-- DYN_CHUNK_RTO (R247): An unacknowledged dynamic chunk frame is retransmitted, and the group aborts at the retransmission limit. -/
  | dynChunkRto (t g : Nat) (back : Bool)
  /-- CHUNK_FRAME_RECEIVED (R246): A chunk frame arrives, its pieces are checked by CRC and used, and its tokens are handled. -/
  | chunkFrameReceived (t : Nat)
  /-- GENERATION_DELIVERED (R251): Every DST byte of a generation has landed, so DONE_PROVISIONAL is written. -/
  | generationDelivered (t g gen : Nat)
  /-- GROUP_TIMEOUT (R259): The group timeout passes with nothing arriving from either neighbour, so the member aborts the group. -/
  | groupTimeout (t g : Nat)
  /-- COLL_CREATE (R238): COLL_CMD CREATE creates a dynamic group from the staged definition. -/
  | collCreate (v : Via)
  /-- COLL_DESTROY (R262): COLL_CMD DESTROY aborts the group's open generations and removes it. -/
  | collDestroy (v : Via)
  /-- COLL_RESET (R260): COLL_CMD RESET clears BROKEN, sets COLL_GEN_NEXT and discards held pieces. -/
  | collReset (v : Via)
  /-- COLL_RELEASE (R255): COLL_CMD RELEASE releases the kept inputs of a revoked generation. -/
  | collRelease (v : Via)
  /-- CREAM_GRANULE_ASSIGN (R264): CRM_GRAN_CMD ASSIGN gives Cream granules to a herd. -/
  | creamGranuleAssign (p : Path) (value : Word)
  /-- CREAM_GRANULE_RELEASE (R264): CRM_GRAN_CMD RELEASE returns Cream granules through clearing. -/
  | creamGranuleRelease (p : Path) (value : Word)
  /-- PEAT_GRANULE_ASSIGN (R274): PEAT_GRAN_CMD ASSIGN gives FREE Peat granules to a herd with ASID, CRYPT and key page. -/
  | peatGranuleAssign (p : Path) (value : Word)
  /-- PEAT_GRANULE_RELEASE (R275): PEAT_GRAN_CMD RELEASE sets granules CLEARING and starts zeroing them. -/
  | peatGranuleRelease (p : Path) (value : Word)
  /-- GRANULE_CLEAR_DONE (R275): A CLEARING granule has been zeroed after its earlier requests, so it becomes FREE. -/
  | granuleClearDone (t : Nat) (cream : Bool) (g : Nat)
  /-- CREAM_ECC (R266): A shared bank corrects a single-bit error, or fails the request on a double-bit error. -/
  | creamEcc (t word : Nat) (double : Bool)
  /-- CREAM_SCRUB (R266): One word of an idle bank is read and corrected every 256 cycles. -/
  | creamScrub (t bits : Nat)
  /-- PEAT_SYMBOL_ERROR (R271): The Peat code corrects a package's symbols in a line, or finds the line uncorrectable. -/
  | peatSymbolError (t line : Nat) (pkgs : List Nat)
  /-- PEAT_SCRUB (R272): The scrubber reads and corrects the next line on unscheduled bandwidth. -/
  | peatScrub (t : Nat) (pkgs : List Nat)
  /-- MIRROR_START (R281): PEAT_MIR_CMD START begins a mirror region as sender or receiver. -/
  | mirrorStart (p : Path)
  /-- MIRROR_SEAL (R283): PEAT_MIR_CMD SEAL numbers an epoch and captures the dirty sector set. -/
  | mirrorSeal (p : Path)
  /-- MIRROR_STOP (R285): PEAT_MIR_CMD STOP stops a mirror region. -/
  | mirrorStop (p : Path)
  /-- MIRROR_ROLLBACK (R285): PEAT_MIR_CMD ROLLBACK restores every journaled sector to the last sealed epoch. -/
  | mirrorRollback (p : Path)
  /-- MIRROR_SECTOR_SHIP (R282): The sender ships its next dirty sector as a SECTOR message and clears its dirty bit. -/
  | mirrorSectorShip (t r : Nat)
  /-- MIRROR_SEAL_SEND (R283): Once the captured set has shipped, the sender sends the SEAL message. -/
  | mirrorSealSend (t r : Nat)
  /-- MIRROR_MESSAGE_RECEIVED (R284): A mirror SEND arrives and is applied in MSEQ order, with old content journaled first. -/
  | mirrorMessageReceived (t : Nat)
  /-- MIRROR_SEAL_APPLY (R284): Once every earlier write has landed, the receiver empties its journal, records the epoch and replies SEALED. -/
  | mirrorSealApply (t r : Nat)
  /-- MIRROR_ORPHAN_TIMEOUT (R285): A receiving region gets no message for one lease period. -/
  | mirrorOrphanTimeout (t r : Nat)
  /-- QP_CREATE (R293): BEQ_QP_CMD CREATE moves a FREE queue pair to READY after its checks. -/
  | qpCreate (v : Via)
  /-- QP_DESTROY (R292): BEQ_QP_CMD DESTROY frees a queue pair that has no descriptor outstanding. -/
  | qpDestroy (v : Via)
  /-- QP_RESET (R292): BEQ_QP_CMD RESET returns a queue pair in ERROR to READY. -/
  | qpReset (v : Via)
  /-- QP_PACKET_RECEIVED (R295): A RoCEv2 packet for a queue pair arrives and is placed, acknowledged or answered. -/
  | qpPacketReceived (t : Nat)
  /-- QP_ACK_TIMER (R299): 2 µs pass after the first unacknowledged packet from a module peer, so an ACK is sent. -/
  | qpAckTimer (t q : Nat)
  /-- QP_ACK_RECEIVED (R299): An ACK or NAK arrives, frees packets, samples RTT and triggers retransmissions. -/
  | qpAckReceived (t : Nat)
  /-- QP_RTO_EXPIRE (R299): A packet has been unacknowledged for RTO, so it is retransmitted. -/
  | qpRtoExpire (t q : Nat)
  /-- QP_RNR_RETRY (R299): 10 µs after an RNR NAK, the SEND is retried. -/
  | qpRnrRetry (t q : Nat)
  /-- QP_LEASE_TIMEOUT (R292): A lease period passes with packets outstanding and nothing received, so the queue pair enters ERROR. -/
  | qpLeaseTimeout (t q : Nat)
  /-- CC_RATE_UPDATE (R302): At each interval, a queue pair's rate is updated from its ECN and RTT response curves. -/
  | ccRateUpdate (t q : Nat)
  /-- BE_FRAME_SEND (R304): In free port time, the scheduler sends the next best-effort frame of the eligible client with the smallest finish tag. -/
  | beFrameSend (t p : Nat)
  /-- RATE_REFILL (R306): At each module-wide refill, credit is added to every limiter and pacer, and Refill changes take effect. -/
  | rateRefill (t : Nat)
  /-- QP_SAMPLE (R307): Every SAMPLE_US, each queue pair's queued bytes and oldest packet age are sampled. -/
  | qpSample (t q : Nat)
  /-- VIOLATION_REPORT_RECEIVED (R485): A violation report arrives, and the writing herd is found from the channel it names. -/
  | violationReportReceived (t : Nat)
  /-- PORT_ENABLE (R313): Setting PORT_CTL.ENABLE starts auto-negotiation and training. -/
  | portEnable (p : Path) (port : Nat) (value : Word)
  /-- PORT_DISABLE (R313): Clearing PORT_CTL.ENABLE takes the port to DISABLED. -/
  | portDisable (p : Path) (port : Nat) (value : Word)
  /-- PORT_RESET (R313): PORT_CTL.RESET retrains the port and keeps its counters and configuration. -/
  | portReset (p : Path) (port : Nat) (value : Word)
  /-- PORT_TRAINED (R313): Every lane has trained and the PCS has aligned, so the port starts Uanto. -/
  | portTrained (t port : Nat)
  /-- PORT_TRAINING_TIMEOUT (R313): Training is still incomplete after 800 ms, so the port enters FAULT. -/
  | portTrainingTimeout (t port : Nat)
  /-- PORT_FAULT_RETRY (R313): One second in FAULT returns the port to TRAINING. -/
  | portFaultRetry (t port : Nat)
  /-- LINK_LOSS (R313): Alignment loss or a remote fault takes an UP port back to TRAINING, and the loss is absorbed. -/
  | linkLoss (t port : Nat)
  /-- UANTO_OFFER_TIMER (R329): Every 10 µs in NEGOTIATING, the port sends an OFFER or a CONFIRM. -/
  | uantoOfferTimer (t port : Nat)
  /-- UANTO_OFFER_RECEIVED (R329): A partner OFFER is checked for generation and role, and the negotiated set is computed. -/
  | uantoOfferReceived (t port : Nat)
  /-- UANTO_CONFIRM_RECEIVED (R329): A partner CONFIRM equal to the local one takes the port to UP; a differing one restarts negotiation. -/
  | uantoConfirmReceived (t port : Nat)
  /-- UANTO_RESTART_TIMEOUT (R329): 20 ms pass without UP, so Uanto restarts, and the tenth restart takes the port to FAULT. -/
  | uantoRestartTimeout (t port : Nat)
  /-- UANTO_SILENT_TIMEOUT (R329): No partner OFFER arrives within 100 ms on a port that may face non-Uanto equipment, so the port enters UP with generation 0. -/
  | uantoSilentTimeout (t port : Nat)
  /-- FEC_UNCORRECTABLE (R314): An uncorrectable FEC code word is counted in the port's fixed window. -/
  | fecUncorrectable (t port : Nat)
  /-- FEC_WINDOW_EXPIRE (R314): The FEC counting window expires and the count returns to 0. -/
  | fecWindowExpire (t port : Nat)
  /-- PORT_FRAME_RECEIVED (R317): A received frame is checked in order and passed to the router or dropped with a reason. -/
  | portFrameReceived (t port : Nat) (f : RxFrame)
  /-- PFC_RECEIVED (R325): A received PAUSE or PFC frame stops or resumes best-effort priorities 0 to 6. -/
  | pfcReceived (t port : Nat)
  /-- PAUSE_QUANTA_EXPIRE (R325): A priority's pause quanta run out and the priority resumes. -/
  | pauseQuantaExpire (t port prio : Nat)
  /-- XOFF_REPEAT (R325): XOFF is repeated every 20 µs while occupancy stays above XON_KIB. -/
  | xoffRepeat (t port prio : Nat)
  /-- PAUSE_WATCHDOG (R326): A priority held, or the port's own XOFF asserted, for PAUSE_WD.MS makes the port disregard pauses or stop XOFF. -/
  | pauseWatchdog (t port prio : Nat)
  /-- ACCESS_FRAME_RECEIVED (R321): An ACCESS frame on a Chaennis accelerator link is served through a window or answered. -/
  | accessFrameReceived (t port : Nat)
  /-- LANDED_RECEIVED (R322): A LANDED frame acknowledges every WRITE up to its tag. -/
  | landedReceived (t port : Nat)
  /-- ACCEL_ACK_TIMEOUT (R322): An accelerator write not acknowledged within the lease period fails with REMOTE_TIMEOUT. -/
  | accelAckTimeout (t port : Nat)
  /-- BE_FRAME_FORWARD (R337): A best-effort frame is routed by its epoch's table to a port of the equal-cost set and a virtual channel. -/
  | beFrameForward (t port : Nat)
  /-- BASE_TABLE_RELEASE (R340): MAX_FLIGHT after a plan became ACTIVE with no bank retiring, the base table is released and its held frames are discarded. -/
  | baseTableRelease (t : Nat)
  /-- TELEMETRY_SNAPSHOT (R351): Polder time reaches TEL_SNAP_AT while armed, so router telemetry is copied and cleared. -/
  | telemetrySnapshot (t : Nat)
  /-- HERD_CREATE (R355): QE_HERD_CMD CREATE makes a FREE herd ACTIVE with staged shares and opens its doorbell window. -/
  | herdCreate (p : Path)
  /-- HERD_SET_SHARE (R354): QE_HERD_CMD SET_SHARE applies new shares within the pool and current use. -/
  | herdSetShare (p : Path)
  /-- HERD_RESET (R364): QE_HERD_CMD RESET stops the herd's queues, flushes undispatched work and moves the herd to RESETTING. -/
  | herdReset (p : Path) (value : Word)
  /-- HERD_DESTROY (R356): QE_HERD_CMD DESTROY moves an unused herd to DESTROYING and closes its doorbell window. -/
  | herdDestroy (p : Path)
  /-- PRIV_GRANT (R362): QE_HERD_CMD GRANT gives a herd the privilege PRIV. -/
  | privGrant (p : Path)
  /-- PRIV_REVOKE (R362): QE_HERD_CMD REVOKE withdraws PRIV. -/
  | privRevoke (p : Path)
  /-- HERD_RESET_DRAIN_TIMEOUT (R365): In DRAIN mode, work not complete one lease period after RESET is squashed. -/
  | herdResetDrainTimeout (t : Nat)
  /-- HERD_RESET_COMPLETE (R366): Every completion condition of a herd reset holds, so the herd returns to ACTIVE with its queues reset. -/
  | herdResetComplete (t : Nat)
  /-- KEY_PAGE_ASSIGN (R379): CIPH_PAGE_CMD ASSIGN gives a key page an owner and a kind. -/
  | keyPageAssign (p : Path) (value : Word)
  /-- KEY_INSTALL (R380): CIPH_PAGE_CMD INSTALL reads a key page image under the owner's context and checks it. -/
  | keyInstall (p : Path) (value : Word)
  /-- KEY_INSTALL_COMPLETE (R380): The image's key bytes have been zeroed and have landed, so the key is taken and DONE is set. -/
  | keyInstallComplete (t : Nat) (p : Path)
  /-- KEY_SWITCH (R382): CIPH_PAGE_CMD SWITCH switches a STAGED page to its next key. -/
  | keySwitch (p : Path)
  /-- KEY_PAGE_RELEASE (R386): CIPH_PAGE_CMD RELEASE frees a page that nothing names and zeroes both slots. -/
  | keyPageRelease (p : Path)
  /-- KEY_RETIRE_TIMEOUT (R382): One lease period after a WIRE page's switch, the retiring key is zeroed. -/
  | keyRetireTimeout (t page : Nat)
  /-- REKEY_WALK_DONE (R385): The re-encryption walk of a STORE page finishes, and the page returns to ACTIVE. -/
  | rekeyWalkDone (t page : Nat)
  /-- CIPHER_MISMATCH (R388): The two datapaths of an engine disagree, and the block is recomputed. -/
  | cipherMismatch (t e : Nat) (again : Bool) (loss : CipherLoss)
  /-- DRBG_RESEED (R390): Every 2^20 requests, the engine's DRBG is reseeded from the entropy source. -/
  | drbgReseed (t e : Nat)
  /-- ENTROPY_TEST_FAIL (R390): A health test of the entropy source fails. -/
  | entropyTestFail (t test : Nat)
  /-- DRBG_BLOCK_LIMIT (R390): An engine that has run 2^32 blocks without a reseed fences itself. -/
  | drbgBlockLimit (t e : Nat)
  /-- FENCE_COMPLETE (R398): The fenced unit holds no request in flight, and the quiet period starts. -/
  | fenceComplete (t src : Nat)
  /-- FAULT_WINDOW_EXPIRE (R396): A source's counting window expires and its count returns to 0. -/
  | faultWindowExpire (t src : Nat)
  /-- QUIET_PERIOD_EXPIRE (R397): QUIET ms pass without an event, so a DEGRADED source returns to NORMAL or a FENCED unit starts its return. -/
  | quietPeriodExpire (t src : Nat)
  /-- UNIT_RETURN_COMPLETE (R399): A unit's return clears its state and passes its built-in check, so it goes back into service. -/
  | unitReturnComplete (t src : Nat) (ok : Bool)
  /-- HANDLING_END (R400): The handling of a source ends, and its state is evaluated once more against counts and FATAL events. -/
  | handlingEnd (t src : Nat)
  /-- FAULT_SOURCE_CLEAR (R397): FLT_SRC_CMD CLEAR resets RECOVERIES and returns the source toward NORMAL. -/
  | faultSourceClear (p : Path)
  /-- FAULT_SOURCE_FENCE (R397): FLT_SRC_CMD FENCE fences the unit into LOCKED. -/
  | faultSourceFence (p : Path)
  /-- FAULT_QUEUE_POP (R402): A write to FLT_Q_POP removes the oldest fault record. -/
  | faultQueuePop (p : Path)
  /-- CRYSTAL_STABLE (R408): 65,536 good crystal cycles arrive, so the sedge domain moves to the crystal and the oscillator is disciplined. -/
  | crystalStable (t : Nat)
  /-- CRYSTAL_START_TIMEOUT (R408): The crystal is not stable within 20 ms, so the boot halts at step 2. -/
  | crystalStartTimeout (t : Nat)
  /-- CRYSTAL_LOST (R409): No crystal edge arrives for 80 ns, so every PLL and the sedge domain move to the oscillator. -/
  | crystalLost (t : Nat)
  /-- OSCILLATOR_LOST (R411): The oscillator leaves its trim range or stops, so the loss is counted and XTAL becomes uncovered. -/
  | oscillatorLost (t : Nat)
  /-- PLL_LOSS (R413): A PLL loses its reference or lock, coasts, and has its domains moved to its alternate. -/
  | pllLoss (t k : Nat) (ref : Bool)
  /-- PLL_LOCK (R412): A PLL locks within 1 ms of its reference becoming valid. -/
  | pllLock (t k : Nat)
  /-- PLL_DOMAIN_RETURN (R415): A returned PLL takes its domains back at the next slack tide, or within 1 ms with no active plan. -/
  | pllDomainReturn (t k : Nat)
  /-- DOMAIN_IDLE_STOP (R418): A domain idle for CLK_IDLE.US with no planned use nearby is stopped. -/
  | domainIdleStop (t d idle : Nat)
  /-- DOMAIN_DEMAND_START (R419): An access to a stopped domain starts it, and the access waits for the start. -/
  | domainDemandStart (t d : Nat)
  /-- THROTTLE_EVALUATE (R422): Each 1 ms, power and die temperature are measured and the throttle level is updated. -/
  | throttleEvaluate (t sensor temp vin pin : Nat) (pkgs : List Nat)
  /-- POWER_ON_RESET (R424): A power-on reset clears everything but a kept Peat store and restarts the boot at step 1. -/
  | powerOnReset (t : Nat)
  /-- WARM_RESET (R424): A warm reset keeps the Peat store and its tables, clears herds and plans, and boots from step 3. -/
  | warmReset (t : Nat)
  /-- RESET_CMD_WARM (R425): CLK_RESET_CMD WARM with the right KEY starts a warm reset. -/
  | resetCmdWarm (p : Path) (value : Word)
  /-- RESET_CMD_POWER_ON (R425): CLK_RESET_CMD POWER_ON with the right KEY starts a power-on reset. -/
  | resetCmdPowerOn (p : Path) (value : Word)
  /-- SYS_RESET_PULSE (R469): A low pulse on SYS_RESET_L is measured, ignored, or starts a warm or power-on reset. -/
  | sysResetPulse (t width : Nat)
  /-- BOOT_STEP_ADVANCE (R426): A boot step's work completes, and the boot moves to the next step. -/
  | bootStepAdvance (t : Nat) (w : BootWork)
  /-- FIRMWARE_COPY_BLOCK (R449): One 64 KiB block of staging is copied to active firmware and its journal bit is programmed. -/
  | firmwareCopyBlock (t : Nat)
  /-- BOOT_STEP_OVERRUN (R427): A boot step overruns its bound, so CLK_BOOT.FAILED is set and the boot continues. -/
  | bootStepOverrun (t : Nat) (w : BootWork)
  /-- SERVICE_LEAVE (R428): A write of CLK_SERVICE.LEAVE ends bring-up service and starts the 800 Gb/s retraining. -/
  | serviceLeave (p : Path) (value : Word)
  /-- CONFIG_DEFAULTS_REPEAT (R436): Every 60 s on defaults, CONFIG_DEFAULTS is raised again. -/
  | configDefaultsRepeat (t : Nat) (w : ConfigImage)
  /-- STAGE_DATA_APPEND (R439): A write of CFG_STAGE_DATA appends an entry to the staged set. -/
  | stageDataAppend (p : Path) (value : Word)
  /-- STAGED_FIELD_WRITE (R439): A direct write that changes a Staged field's shadow value appends an entry. -/
  | stagedFieldWrite (p : Path) (addr : Nat) (value : Word)
  /-- COMMIT (R440): CFG_COMMIT COMMIT sets PENDING, or is refused with CFG_NEEDS_SLACK. -/
  | commit (p : Path)
  /-- DISCARD (R443): CFG_COMMIT DISCARD cancels a pending apply and empties the set. -/
  | discard (p : Path)
  /-- STAGED_SET_APPLY (R442): At the apply point, every entry of the set is written in order and DONE is set. -/
  | stagedSetApply (t : Nat)
  /-- FWU_BEGIN (R444): FWU_CMD BEGIN starts a transfer, erasing the bitmap and writing STAGE RECEIVING. -/
  | fwuBegin (p : Path) (toCfg : Bool)
  /-- FWU_WRITE (R444): FWU_CMD WRITE checks a piece's CRC and starts programming its sector. -/
  | fwuWrite (p : Path) (toCfg fromSrc : Bool)
  /-- FWU_ABORT (R444): FWU_CMD ABORT writes STAGE EMPTY. -/
  | fwuAbort (p : Path)
  /-- FWU_PIECE_WRITTEN (R444): A piece's sector has been programmed and read back, so its bitmap bit is programmed. -/
  | fwuPieceWritten (t : Nat) (ok : Bool)
  /-- IDENTITY_KEY_READY (R451): The identity key has been derived from the unclonable function and checked against the certificate. -/
  | identityKeyReady (t : Nat) (ok : Bool)
  /-- QUOTE_GO (R453): BOOT_QUOTE_CMD GO snapshots every quote field in one step. -/
  | quoteGo (p : Path) (value : Word)
  /-- QUOTE_SIGNED (R453): The quote snapshot has been signed with the identity key, and DONE is set. -/
  | quoteSigned (t : Nat)
  /-- INPUT_LOSS (R465): The input-loss signal drops PWR_GOOD, and the module runs the peat keep path or stops. -/
  | inputLoss (t : Nat)
  /-- HIGH_INPUT_EVENT (R463): While VIN lies between 60 and 66 V, one event per second is counted against POWER. -/
  | highInputEvent (t : Nat)
  /-- STANDBY_RAIL_LOSS (R467): The standby rail fails in STANDBY and the module goes OFF. -/
  | standbyRailLoss (t : Nat)
  /-- STANDBY_SENSE_VALID (R467): STBY_OK_L has been low for 100 ms, so the standby rail counts as present. -/
  | standbySenseValid (t : Nat)
  /-- SMBUS_BLOCK_READ (R473): An SMBus Block Read returns the four bytes of the named register with PEC. -/
  | smbusBlockRead (t straps addr cmd : Nat)
  /-- BYPASS (R478): The test access port runs the BYPASS instruction. -/
  | bypass (t : Nat) (tdi : List Bool)
  /-- SAMPLE_PRELOAD (R478): The test access port runs SAMPLE/PRELOAD. -/
  | samplePreload (t : Nat) (pins tdi : List Bool)
  /-- IDCODE (R478): The test access port returns the IDCODE of the part. -/
  | idcode (t : Nat)
  /-- EXTEST (R478): EXTEST drives the pins while SYS_RESET_L is held low, and otherwise acts as BYPASS. -/
  | extest (t : Nat) (low : Bool) (tdi : List Bool)
  /-- EXTEST_PULSE (R478): EXTEST_PULSE tests J2 and J3 lanes under IEEE 1149.6 while in reset. -/
  | extestPulse (t : Nat) (low : Bool) (tdi : List Bool)
  /-- EXTEST_TRAIN (R478): EXTEST_TRAIN tests J2 and J3 lanes under IEEE 1149.6 while in reset. -/
  | extestTrain (t : Nat) (low : Bool) (tdi : List Bool)
  /-- PAUSE_WATCHDOG_END (R326): The PAUSE_WD.MS period that follows a watchdog event runs out. The port then honours received pauses for that priority again, or resumes sending XOFF for it. -/
  | pauseWatchdogEnd (t port prio : Nat)
  /-- ENTROPY_SOURCE_PASS (R390): The on-die entropy source passes its health tests again. ENTROPY_OK is set, and engines that fenced themselves after 2^32 blocks may run again. -/
  | entropySourcePass (t : Nat)
  /-- DOMAIN_START_COMPLETE (R419): A started clock domain begins running within 2 µs. Accesses waiting on it proceed, and a woken port group sends XON. -/
  | domainStartComplete (t d : Nat)
  /-- STANDBY_SENSE_LOST (R467): STBY_OK_L is released while input power is present. The standby rail stops counting as present, so KEEP_READY clears and peat keep would no longer apply. -/
  | standbySenseLost (t : Nat)
  /-- MIRROR_ROLLBACK_DONE (R285): The restore of every journaled sector finishes on unscheduled bandwidth. The region then holds its last sealed epoch, PEAT_MIR_STATUS.DONE is set, and the owning herd may write the region. -/
  | mirrorRollbackDone (t r : Nat)
  deriving DecidableEq, Repr

end Sys2Proof
end

