-- ==== Sys2Proof/Config.lean ====
section
/-! DEFINITION. What the spec leaves open. Every constant here is opaque: no proof can see a value of it, so a claim about
the model holds whatever the value is. `free` is read at the counter `Mach.freeCtr`, which each reading advances, so that
two open values need not be equal. -/
namespace Sys2Proof.Config

/-- A value on which the spec is silent (notes/assumptions/3.md): unsigned, 64 bits, fresh at each index. -/
opaque free : Nat → BitVec 64

/-- Whether a 2-way outcome that the spec leaves open goes the one way or the other, fresh at each index. -/
opaque freeBit : Nat → Bool

/-- SHA-384 of a byte string, its 48 bytes read as a little-endian number (outside standard named by R435 and R213; its text is not in the spec). -/
opaque sha384 : List (BitVec 8) → BitVec 384

/-- Whether RSASSA-PSS verification accepts a signature block for a message (18_config_firmware.md R435: RFC 8017, whose text is not in the spec). -/
opaque pssVerify : List (BitVec 8) → List (BitVec 8) → Bool

/-- The check value of a key (15_cipher.md R381): the first 4 bytes of AES-256 under KEY1, given as a little-endian number, of a zero block. AES is an outside
standard whose text is not in the spec. -/
opaque keyCheck : Nat → BitVec 32

/-- The weight that MOE_GATE gives a rank from the FP32 codes of a token's chosen logits, in rank order (08_churn_programs.md R229): the softmax runs on the
exponential of the library's tables, which the spec does not print, and its order of operations is not given either. -/
opaque softmax : List Nat → Nat → BitVec 32

/-- The row of the expert outputs that MOE_COMBINE takes for an index, token and rank (R229): the spec does not say how expert outputs are laid out. -/
opaque expertRow : Nat → Nat → Nat → Nat

/-- The SHA-384 digests of the two firmware keys in the boot ROM, by slot (18_config_firmware.md R447). -/
opaque romKey : Nat → BitVec 384

/-- The digest of the boot ROM, fixed in the ROM (R452). -/
opaque romDigest : BitVec 384

end Sys2Proof.Config
end

