-- ==== Sys2Proof/Machine/State.lean ====
section
/-! DEFINITION. The state of the block as plain data. `State` is the queue of waiting commands beside `Mach`, which holds every
register and every piece of unit state that the spec gives the module (INVENTORY.md, State). Registers live in one register
file (`Mach.regs`), keyed by address and selected element; what is no register (queues, messages, timers, stores) lives in
one structure per unit. Times are local times in units of 62.5 ps since power-on. -/
namespace Sys2Proof.Machine

/-- The order codes (00_scope.md R2). -/
inductive Variant where
  | zw960a | zw960b | zw940a | zw920a
  deriving DecidableEq, Repr

/-- Access types of register fields (00_scope.md R10). -/
inductive Acc where
  | ro | rw | wo | w1c | rc
  deriving DecidableEq, Repr

/-- Change classes of register fields (00_scope.md R12); `none` for a field that software cannot write. -/
inductive Chg where
  | none | live | refill | tide | staged | frozen
  deriving DecidableEq, Repr

/-- Whether a register is a half of a 64-bit pair (R8). -/
inductive PairKind where
  | none | lo | hi
  deriving DecidableEq, Repr

/-- A field of a register: bits, access type, reset value and change class. -/
structure RField where
  hi : Nat
  lo : Nat
  acc : Acc
  reset : Nat
  chg : Chg
  deriving DecidableEq, Repr

/-- A row of the register table: the registers at `base + i * step + j * step2` for `i < count`, `j < count2`; the address of
the selection register through which they are reached, if any; whether each path holds its own copy. -/
structure RegInfo where
  base : Nat
  count : Nat
  step : Nat
  count2 : Nat
  step2 : Nat
  sel : Option Nat
  perPath : Bool
  pair : PairKind
  fields : List RField
  deriving DecidableEq, Repr

/-- A named field of a register: address, lowest bit, width, and the step of the register's index. -/
structure Fld where
  addr : Nat
  lo : Nat
  wd : Nat
  step : Nat
  deriving DecidableEq, Repr

/-- The register file: values that differ from reset or were written, by key, in rising order of key. -/
abbrev RegFile := List (Nat × Word)

/-- A byte store in canonical form: rising addresses, no zero byte listed; an unlisted byte reads 0
(10_memory.md R280; notes/assumptions/4.md). -/
abbrev Memory := List Host.Cell

/-- The byte stores of the module: Peat (R267), the shared Cream banks (R263), the tile SRAMs (R177) and the flash (R431), whose store holds the
complement of each byte, so that an erased byte, 0xFF, is not listed. -/
inductive Store where
  | peat | cream | tsram | flash
  deriving DecidableEq, Repr

/-- A change of a store: bytes written from an address up, or a range set to zero. -/
inductive MemOp where
  | bytes (st : Store) (addr : Nat) (data : List Byte)
  | zero (st : Store) (lo len : Nat)
  deriving DecidableEq, Repr

/-- An event raised and not yet written to the ring of its recipient (05_queues_descriptors.md R148, 16_faults.md R404). -/
structure Event where
  code : Nat
  source : Nat
  herd : Nat
  dest : Nat
  info0 : DWord
  info1 : DWord
  time : DWord
  deriving DecidableEq, Repr

/-- What the collector is handling for a source (16_faults.md R400). -/
inductive Handling where
  | none | degraded | fence | return
  deriving DecidableEq, Repr

/-- The part of a fault source that FLT_SRC_STATUS does not show (16_faults.md R396 to R400): what is being handled, when its
counting window ends, its last event, the completion of its fence, a FATAL event received while it was handled, a command
(1 CLEAR, 2 FENCE) that waits for the end of handling, and whether the running return was started by CLEAR. -/
structure FltSrc where
  handling : Handling
  windowEnd : Option Nat
  lastEvent : Nat
  fenceDone : Option Nat
  fatalMeanwhile : Bool
  pendingCmd : Nat
  clearReturn : Bool
  deriving DecidableEq, Repr

/-- The fault collector: its sources, its queue of 32-byte records, whether FAULT_OVERFLOW was raised since the queue was
last empty (R402), and the sources whose reaction waits because sixteen are being handled (R400). -/
structure FltSt where
  src : List (Nat × FltSrc)
  queue : List (List Word)
  overflowRaised : Bool
  waiting : List Nat
  deriving DecidableEq, Repr

/-- A hop of a lode's path (03_sluice_plans.md R76). -/
structure Hop where
  module : Nat
  outPort : Nat
  inPort : Nat
  deriving DecidableEq, Repr

/-- A LINK record (R72). -/
structure LinkRec where
  port : Nat
  peerPort : Nat
  peerModule : Nat
  cable : Nat
  pad : Nat
  phase : Nat
  peerPhase : Nat
  deriving DecidableEq, Repr

/-- A slot-table entry that is not FREE (R71): 1 LODE, 2 SHADOW, 3 TRANSIT, 4 TIME; any other kind is reserved. -/
structure SlotRec where
  port : Nat
  slot : Nat
  kind : Nat
  ref : Nat
  deriving DecidableEq, Repr

/-- A LODE_OUT record (R76), its lists read out of the image. -/
structure LodeOut where
  lode : Nat
  herd : Nat
  covered : Bool
  encrypted : Bool
  coll : Bool
  dstModule : Nat
  hops : Nat
  shadowHops : Nat
  dstLode : Nat
  port : Nat
  shadowPort : Nat
  slots : Nat
  keyPage : Nat
  latency : Nat
  shadowLatency : Nat
  slotList : List Nat
  shadowList : List Nat
  path : List Hop
  shadowPath : List Hop
  deriving DecidableEq, Repr

/-- A LODE_IN record (R76). -/
structure LodeIn where
  lode : Nat
  srcModule : Nat
  covered : Bool
  encrypted : Bool
  srcLode : Nat
  herd : Nat
  keyPage : Nat
  deriving DecidableEq, Repr

/-- A reservation record (R88): 1 ROUTER_BUF, 2 TILE, 3 CREAM, 4 TILE_SRAM, 5 PEAT, 6 CIPHER. -/
structure Resv where
  type : Nat
  rversion : Nat
  herd : Nat
  units : Nat
  start : Nat
  length : Nat
  period : Nat
  tphase : Nat
  amount : Nat
  owner : Nat
  deriving DecidableEq, Repr

/-- A TIME_TREE record (02_polder_time.md R483): role 0 follower, 1 grand master, 2 standby grand master. -/
structure TimeRec where
  role : Nat
  hasBackup : Bool
  primaryPort : Nat
  primaryModule : Nat
  backupPort : Nat
  depth : Nat
  backupModule : Nat
  backupDepth : Nat
  primarySlots : List Nat
  backupSlots : List Nat
  deriving DecidableEq, Repr

/-- A COLL_GROUP record (09_collectives.md R236), also the definition of a dynamic group (R256). -/
structure GroupRec where
  group : Nat
  herd : Nat
  inPlace : Bool
  members : Nat
  rank : Nat
  predModule : Nat
  succModule : Nat
  fwdLode : Nat
  backLode : Nat
  credits : Nat
  timeoutMs : Nat
  hop : Nat
  maxBytes : Nat
  keepBase : Nat
  keepAsid : Nat
  owner : Nat
  deriving DecidableEq, Repr

/-- A PROGRAM record (08_churn_programs.md R217). -/
structure ProgRec where
  owner : Nat
  herd : Nat
  library : Nat
  tiles : Nat
  shapeMax : List Nat
  digest : BitVec 384
  deriving DecidableEq, Repr

/-- A plan image as its header and sections say (R64). -/
structure Plan where
  module : Nat
  modules : Nat
  planId : Nat
  tideBase : Nat
  tideLen : Nat
  maxFlight : Nat
  slackPeriod : Nat
  slackPhase : Nat
  grandMaster : Nat
  standbyGm : Nat
  stagedOk : Bool
  ppsAnchor : Bool
  epoch : Nat
  capReq : List Nat
  links : List LinkRec
  slots : List SlotRec
  lodesOut : List LodeOut
  lodesIn : List LodeIn
  resvs : List Resv
  tree : List TimeRec
  groups : List GroupRec
  progs : List ProgRec
  routes : List Nat
  proof : List Byte
  deriving DecidableEq, Repr

/-- A plan bank (R66, R67): the bytes copied at LOAD, the plan from ADMITTED onward, and for a RETIRING bank the polder time at
which it stopped opening slots. Its state stands in SLU_BANK_STATUS. -/
structure Bank where
  image : List Byte
  plan : Option Plan
  stopAt : Option DWord
  unload : Bool
  deriving DecidableEq, Repr

/-- The schedule engine: its banks; the tide that began last, with the epoch drops of each input port in it (R95); ports out of
scheduled use until the tide after their partner stops sending STOPPED (R61); whether a STOPPED module waits for a tide
boundary to resume (R61); whether a LOAD has come since bring-up (12_ports_mac.md R312); the polder time at which a plan became
ACTIVE with no bank RETIRING (13_routing_deadlock.md R339); the ports out of scheduled use, each with the number of the rule
that took it out (R36, R48, R60 for a STOPPED neighbour, R95, R330; R314 stands in PORT_STATUS); the slot used last on each
port, and the slot opened last. -/
structure PlanSt where
  bank0 : Bank
  bank1 : Bank
  tideNo : Nat
  drops : List (Nat × Nat)
  schedStopped : Bool
  loadSeen : Bool
  baseHoldEnd : Option DWord
  outPorts : List (Nat × Nat)
  lastSlot : List (Nat × DWord)
  opened : List (Nat × DWord)
  deriving DecidableEq, Repr

/-- What the time function knows of a parent (02_polder_time.md R46, R58): whether it has delivered a frame and is not lost, the local
time of its last frame, its consecutive good frames, and what its last frame said. -/
structure ParentSt where
  port : Option Nat
  valid : Bool
  lastLocal : Nat
  lastPolder : DWord
  good : Nat
  errPs : Nat
  depth : Nat
  holdover : Bool
  rootId : Nat
  deriving DecidableEq, Repr

/-- Two-way measurement and time-frame stamps of one link (R46, R47), stamps in eighths of a unit. -/
structure LinkTime where
  txSeq : Nat
  txLast : Nat
  rxSeq : Option Nat
  rxLast : Nat
  measuring : Bool
  done : Nat
  discarded : Nat
  sum : Int
  began : Option Nat
  prevSample : Option Int
  prevRx : Nat
  asym : Int
  deriving DecidableEq, Repr

/-- The time function: the tree of the configuration image, whether it is known (`none` under defaults, R436), the two parents,
the ERR_PS estimate (exact: numerator over 2 × (16 × 10⁹)² ps, and the local time since which it grows, R59), the STEPPED
frames still to send (R56), HOLDOVER entered at a plan switch with the frames seen since (R43), the parent held when last
LOCKED, the root followed, PPS pins and edges (R53 to R55), and the next time frame before a plan (R45). -/
structure TimeSt where
  tree : Option TimeRec
  parent0 : ParentSt
  parent1 : ParentSt
  links : List (Nat × LinkTime)
  errBase : Nat
  errSince : Option Nat
  stepped : Nat
  atSwitch : Option Nat
  lockedParent : Nat
  rootId : Nat
  lastEdge : Nat
  ppsOut : Bool
  ppsRise : Nat
  ppsSecond : Nat
  nextFrame : Nat
  lastMeasureTide : Nat
  deriving DecidableEq, Repr

/-- A translation cache entry (06_translation_windows.md R163): context, level, the address bits above the level, the entry. -/
structure XltEntry where
  herd : Nat
  asid : Nat
  level : Nat
  tag : Nat
  entry : Nat
  deriving DecidableEq, Repr

/-- A translated piece of a transfer: target 0 Peat, 1 accelerator behind a port, 2 Cream (R157), address there, fabric virtual
address, bytes. -/
structure Seg where
  target : Nat
  port : Nat
  addr : Nat
  va : Nat
  len : Nat
  deriving DecidableEq, Repr

/-- An invalidation that waits or runs (R164), with the herd page that issued it, and the requests in flight that were translated with an entry that it
drops (kind, channel, number). -/
structure InvReq where
  page : Option Nat
  scope : Nat
  herd : Nat
  asid : Nat
  va : Nat
  pages : Nat
  running : Bool
  blockers : List (Nat × Nat × Nat)
  deriving DecidableEq, Repr

/-- The translation unit: cache, pinned leaf entries by window (R170), invalidations in GO order, and a running harvest with its
next word, words left and destination (R174). -/
structure XltSt where
  cache : List XltEntry
  pins : List (Nat × List XltEntry)
  inv : List InvReq
  harvest : Option (Nat × Nat × Nat)
  deriving DecidableEq, Repr

/-- A window in CLOSING (R171, R172): when and by which access it was closed; whether the steward closed it or commanded the
herd reset that closed it; whether a herd reset or DESTROY closed it. -/
structure WinClose where
  window : Nat
  since : Nat
  via : Option Via
  steward : Bool
  deriving DecidableEq, Repr

/-- A write handed to a serving memory and not yet acknowledged as landed (04_lodes_ordering.md R112): who waits for it. Kinds of
owner: 1 incoming lode, 2 queue pair, 3 completion ring, 4 event ring, 5 launch, 6 key page, 7 collective group, 8 mirror region. -/
structure WriteRec where
  id : Nat
  kind : Nat
  chan : Nat
  msg : Nat
  target : Nat
  port : Nat
  deriving DecidableEq, Repr

/-- A granule command that waits for clearing (10_memory.md R274, R275): granules from `lo` up to `hi`, whether it stopped at a refusal, and whether the
granules become ASSIGNED (encrypted zeros written) instead of FREE. -/
structure GranJob where
  lo : Nat
  hi : Nat
  refused : Bool
  assign : Bool
  deriving DecidableEq, Repr

/-- A mirror region beyond its registers (10_memory.md R281 to R285): dirty and captured sectors as intervals, captured sectors
overwritten before they were shipped with their old content, the journal, the local time of the last message, the number of
the epoch being sealed, the size of its captured set, whether it is torn, whether its SEAL message is sent, a SEAL received and
not yet applied, whether a rollback runs, and the last epoch sealed. -/
structure Mirror where
  dirty : List (Nat × Nat)
  captured : List (Nat × Nat)
  snaps : List (Nat × List Byte)
  journal : List (Nat × List Byte)
  lastMsg : Nat
  sealing : Nat
  setSize : Nat
  torn : Bool
  sealSent : Bool
  sealGot : Option Nat
  rolling : Bool
  sealedNo : Option Nat
  deriving DecidableEq, Repr

/-- The memory controllers: Peat lines and Cream words that hold errors the code cannot correct, writes not yet acknowledged,
the granule commands that run, the mirror regions, mirror messages that arrived with their queue pair, the next line and word to scrub, and
the first granule of the copy of the granule ownership table (R276). -/
structure MemSt where
  badLines : List Nat
  badWords : List Nat
  writes : List WriteRec
  nextWrite : Nat
  peatJob : Option GranJob
  crmJob : Option GranJob
  mirrors : List (Nat × Mirror)
  mirIn : List (Nat × List Byte)
  scrubLine : Nat
  scrubWord : Nat
  granCopy : Option Nat
  deriving DecidableEq, Repr

/-- A completion as R144 and R145 of 05_queues_descriptors.md give it. -/
structure Comp where
  status : Nat
  bytes : Nat
  deadline : Bool
  time : Nat
  detail : Nat
  deriving DecidableEq, Repr

/-- An accepted descriptor that awaits dispatch: its SQ index and eight 64-bit words (R137). -/
structure Desc where
  index : Nat
  words : List Nat
  deriving DecidableEq, Repr

/-- A dispatched descriptor whose completion is not yet written, in submission order: a number of its own, and its completion once
known. -/
structure OutDesc where
  uid : Nat
  index : Nat
  tag : Nat
  opcode : Nat
  comp : Option Comp
  deriving DecidableEq, Repr

/-- A WAIT_COUNT that holds its queue (04_lodes_ordering.md R120). -/
structure WaitRec where
  uid : Nat
  queue : Nat
  target : Nat
  failBase : Nat
  expires : Nat
  deriving DecidableEq, Repr

/-- A submission queue beyond its registers (R135, R136): accepted descriptors; dispatched ones; a ring read under way with its first
index, entries and whether a timer started it; the local time of the next timed refetch; doorbells that claim entries not yet
accepted, with their TAIL and local time; a waiting WAIT_COUNT; whether fetching paused at 32 accepted descriptors. -/
structure Sq where
  fetched : List Desc
  out : List OutDesc
  reading : Option (Nat × Nat × Bool)
  refetchAt : Option Nat
  claims : List (Nat × Nat)
  wait : Option WaitRec
  paused : Bool
  flush : List Desc
  deriving DecidableEq, Repr

/-- The part of a ring entry still to be written: index, bytes 0 to 7, the SQ whose completion it is (none for a receive completion),
and its status. -/
structure Header where
  index : Nat
  bytes : List Byte
  sq : Option Nat
  status : Nat
  deriving DecidableEq, Repr

/-- A completion ring beyond its registers: entries whose bytes 8 to 31 are written, whether CQ_OVERRUN was raised (R147). -/
structure Cq where
  headers : List Header
  overrun : Bool
  deriving DecidableEq, Repr

/-- The queue engine: queues and rings by number, events lost of each event ring since its last EVENTS_LOST (R149), the arbiter's
credits, last visited SQ and burst left (R143), the local time of the last dispatch, and the next descriptor number. -/
structure QeSt where
  sqs : List (Nat × Sq)
  cqs : List (Nat × Cq)
  lost : List (Nat × Nat)
  credits : List (Nat × Nat)
  lastSq : Option Nat
  burst : Nat
  lastDispatch : Nat
  nextUid : Nat
  deriving DecidableEq, Repr

/-- A message on an outgoing lode (04_lodes_ordering.md R100): the descriptor it serves, its translated source, data bytes, window and
offset, flag, atomic, RESYNC, frames accepted so far and the SEQ of the first. -/
structure LodeMsg where
  sq : Nat
  uid : Nat
  segs : List Seg
  len : Nat
  window : Nat
  woffset : Nat
  flag : Option (Nat × Nat × Nat)
  atomic : Option (Nat × Nat)
  resync : Bool
  done : Nat
  firstSeq : Nat
  deriving DecidableEq, Repr

/-- A frame accepted onto a lode (03_sluice_plans.md R79, R82): epoch and absolute slot on each port, whether each copy has left. -/
structure AccFrame where
  epoch : Nat
  slot : Nat
  shadowSlot : Option Nat
  sent : Bool
  shadowSent : Bool
  frame : LodeFrame
  deriving DecidableEq, Repr

/-- A lode descriptor that awaits its receipt (R116), with the lease period of its wait (14_herds.md R367). -/
structure Awaited where
  sq : Nat
  uid : Nat
  bytes : Nat
  window : Nat
  firstSeq : Nat
  lastSeq : Nat
  deadline : DWord
  lease : Nat
  deriving DecidableEq, Repr

/-- An outgoing endpoint: next SEQ (R101), messages not wholly accepted, accepted frames, descriptors that await receipts, last slot
assigned with its epoch, counter of the cipher channel (15_cipher.md R373). -/
structure LodeTx where
  seq : Nat
  queue : List LodeMsg
  frames : List AccFrame
  awaited : List Awaited
  lastSlot : Option (Nat × Nat)
  counter : Nat
  deriving DecidableEq, Repr

/-- A message at an incoming endpoint: SEQ of its first frame and of its last once known; arrival number and window (06_translation_windows.md
R171); its translated range and the offset of its first byte; trailer or atomic once arrived; frames placed; failure; whether it is
resolved, its flag or atomic performed (or absent), its receipt sent, its receive completion written; when it resolved. -/
structure RxMsg where
  first : Nat
  last : Option Nat
  len : Nat
  arrival : Nat
  window : Nat
  base : Nat
  herd : Nat
  asid : Nat
  segs : List Seg
  flag : Option (List Seg × Nat × Nat × Nat)
  atomic : Option (Nat × Nat × Nat)
  fail : Option Nat
  resolved : Bool
  done : Bool
  reported : Bool
  rxDone : Bool
  when' : DWord
  since : Nat
  deriving DecidableEq, Repr

/-- An incoming endpoint: lowest SEQ not yet resolved, SEQs above it placed, frames held for message order, messages, the failure and
first SEQ that broke it (R118), the local time of the last arrival, frames each path delivered since the other path last
delivered one (R85), highest SEQ each path delivered, SEQs whose first copy failed authentication (R84). -/
structure LodeRx where
  lowest : Nat
  placed : List Nat
  lost : List Nat
  held : List LodeFrame
  msgs : List RxMsg
  broken : Option (Nat × Nat)
  lastArrival : Nat
  run : Nat × Nat
  uncovered : Option Nat
  top : Option Nat × Option Nat
  badCopy : List Nat
  deriving DecidableEq, Repr

/-- A scheduled frame held for its port's pad, or placed to leave or to be handled here (03_sluice_plans.md R73, R74). -/
structure Padded where
  port : Nat
  at' : Nat
  frame : SchedFrame
  deriving DecidableEq, Repr

/-- Lodes and the scheduled path through the router: endpoints, frames in the pads, frames for TRANSIT slots by output port, frames for
this module, chunk frames of covered lodes whose other copy has yet to leave (09_collectives.md R247): lode, epoch, absolute slot of that copy. -/
structure LodeSt where
  tx : List (Nat × LodeTx)
  rx : List (Nat × LodeRx)
  pads : List Padded
  transit : List (Nat × Padded)
  here : List Padded
  copies : List (Nat × Nat × Nat × ChunkFrame)
  deriving DecidableEq, Repr

/-- Kinds of message that a queue pair sends. -/
inductive QpKind where
  | send | write | read | atomic | control | mirror
  deriving DecidableEq, Repr

/-- A message that a queue pair sends (11_best_effort_transport.md R294, R295): the descriptor it serves (none for control and mirror
messages), its source or destination pieces once its tile is checked (06_translation_windows.md R161), its data where the module
makes it, target, flag, immediate, atomic operation; the PSNs it was cut into, how far; for a flag to a foreign peer the part it
has come to (R296); reply data received; the mirror region and sector it carries. -/
structure QpMsg where
  msn : Nat
  kind : QpKind
  sq : Option (Nat × Nat)
  va : Nat
  asid : Nat
  len : Nat
  segs : Option (List Seg)
  data : List Byte
  window : Nat
  woffset : Nat
  flag : Option (Nat × Nat × Nat)
  imm : Option Nat
  atomicOp : Nat
  operand : Nat
  compare : Nat
  cut : Nat
  wholly : Bool
  firstPsn : Nat
  lastPsn : Nat
  part : Nat
  got : List (Nat × Nat)
  result : Option Nat
  rnr : Nat
  rnrAt : Option Nat
  mirror : Option (Nat × Nat)
  deriving DecidableEq, Repr

/-- A packet sent and not yet acknowledged. -/
structure QpSent where
  packet : QpPacket
  msn : Nat
  port : Nat
  at' : Nat
  tries : Nat
  deriving DecidableEq, Repr

/-- A receive buffer posted by QP_RECV: descriptor, pieces once checked. -/
structure QpBuf where
  sq : Nat
  uid : Nat
  va : Nat
  asid : Nat
  len : Nat
  segs : Option (List Seg)
  deriving DecidableEq, Repr

/-- A message that a queue pair receives: its kind, its length once known, and where its bytes go: a window's checked range or a receive buffer
(its range is checked at the first packet, R162), a herd page (14_herds.md R357), or a store of its own for a control connection or a
mirror. Bytes received, as intervals; the flag's pieces, value and context; failure; packets kept for message order (R119). -/
structure QpIn where
  msn : Nat
  op : QpOp
  len : Option Nat
  window : Nat
  base : Nat
  arrival : Nat
  herd : Nat
  asid : Nat
  segs : List Seg
  buf : Option QpBuf
  own : Bool
  data : List Byte
  got : List (Nat × Nat)
  flag : Option (List Seg × Nat × Nat × Nat)
  flagDone : Bool
  imm : Option Nat
  fail : Option Nat
  held : List (Nat × List Byte)
  deriving DecidableEq, Repr

/-- A queue pair beyond its registers. Sender: messages in order, unacknowledged packets, next PSN and MSN, retransmissions that wait, smoothed
round trip and its variation in units, acknowledged and CE-marked bytes and CNPs of the interval, smallest round trip of this interval and of the last
64, the newest, path rotation, pacer credit (in 1/8,000 of a byte), start tag of the scheduler, counter of the cipher channel, local time of the last
packet heard, whether RESTART goes on the next packet. Receiver: next PSN expected, PSNs received above it, packets since the last ACK and when the
first of them came, newest TX_TIME, CE bytes since the last ACK, messages in progress, the lowest unresolved, results kept (R298), packets of the reply
class that wait to leave, receive buffers, when the last CNP went, when the rate was updated and a sample taken, when the oldest message was queued. -/
structure Qp where
  msgs : List QpMsg
  sent : List QpSent
  psn : Nat
  msn : Nat
  resend : List QpSent
  srtt : Nat
  rttvar : Nat
  acked : Nat
  ceAcked : Nat
  cnps : Nat
  low : Option Nat
  lows : List (Option Nat)
  newest : Option Nat
  turn : Nat
  pacer : Int
  tag : Option Nat
  counter : Nat
  heard : Nat
  restart : Bool
  expect : Nat
  above : List Nat
  unacked : Nat
  ackSince : Option Nat
  txEcho : Nat
  ceSince : Nat
  rx : List QpIn
  rxMsn : Nat
  results : List (Nat × Nat)
  replies : List QpPacket
  bufs : List QpBuf
  cnpAt : Option Nat
  rateAt : Nat
  sampleAt : Nat
  queuedSince : Nat
  deriving DecidableEq, Repr

/-- A receipt or violation report that arrived over a control connection and awaits its step: the module it came from, its payload. -/
structure CtlMsg where
  src : Nat
  bytes : List Byte
  deriving DecidableEq, Repr

/-- The best-effort engine: queue pairs by number (65,536 + m is the control connection to module m); messages from control connections; chunk frames of
dynamic groups that wait at their origin, with their destination module; by port and client (port × 512 + client; 256 the dynamic collectives) the start
tags of backlogged clients and the rate-limiter credits (in 1/8,000 of a byte); by port, and by port and herd, the virtual times (R304); by port
the client served last in token mode; violation reports already delivered (R290); the next refill and the interval in force (R306). -/
structure BeqSt where
  qps : List (Nat × Qp)
  ctl : List CtlMsg
  dyn : List (Nat × ChunkFrame)
  tags : List (Nat × Nat)
  credit : List (Nat × Int)
  vtime : List (Nat × Nat)
  vherd : List (Nat × Nat)
  last : List (Nat × Nat)
  reports : List (Nat × Nat)
  refillAt : Nat
  interval : Nat
  deriving DecidableEq, Repr

/-- A best-effort frame in a pool of an input port (13_routing_deadlock.md R337 to R342): class (0 request, 1 dynamic collective, 2 reply, 3 control),
virtual channel of its lane, output port, virtual channel on which it leaves, and the table that chose it (0 base, 1 and 2 the banks). -/
structure Held where
  inPort : Nat
  cls : Nat
  vc : Nat
  out : Nat
  vcOut : Nat
  table : Nat
  frame : BeFrame
  deriving DecidableEq, Repr

/-- The router: best-effort frames accepted and not yet routed, by input port; frames in forwarded lanes; frames placed here; by port the credits of the
forwarded lanes and of the origin scheduler and the input port served last (R347). -/
structure RteSt where
  arrived : List (Nat × BeFrame)
  held : List Held
  here : List (Nat × BeFrame)
  turn : List (Nat × Int × Int × Nat)
  deriving DecidableEq, Repr

/-- A port beyond its registers (12_ports_mac.md): when it entered its state; Uanto (R329): start of step 1, restarts, whether a partner OFFER came, SEEN
sent and received, the partner's offer, the negotiated generation, minor version and set, when the last frame went; the FEC window (R314); by priority the end
of the partner's pause, since when it holds, until when pauses are disregarded; by priority the XOFF this port asserts, since when and when it was repeated,
until when it sends none (R325, R326); the last diagnostic entry (R319); the next TAG and the writes of an ACCEL port that await their acknowledgement (R322);
whether the port retrains for R312; until when a best-effort frame occupies the line; frames that passed the checks of R317 and await their own step; since when any
priority has been held, with the part of a µs not yet counted in PORT_PAUSED_US; the phase of the diagnostic ring (R129); frames that wait in the receive buffer of a
stopped port group (17_clocks_power_reset.md R420). -/
structure PortSt where
  since : Nat
  stepOne : Nat
  restarts : Nat
  offerGot : Bool
  seenSent : Bool
  seenGot : Bool
  confirmSent : Bool
  partner : Option UantoSide
  agreed : Option (Nat × Nat × List Nat)
  lastUanto : Option Nat
  fecEnd : Option Nat
  fecCount : Nat
  paused : List (Nat × Nat)
  heldSince : List (Nat × Nat)
  ignore : List (Nat × Nat)
  xoff : List (Nat × Nat × Nat)
  mute : List (Nat × Nat)
  diagAt : Option Nat
  txTag : Nat
  writes : List (Nat × Nat × Nat)
  retrain : Bool
  busyUntil : Nat
  inq : List RxKind
  anySince : Option Nat
  pausedRem : Nat
  diagPhase : Nat
  rxWait : List RxFrame
  deriving DecidableEq, Repr

/-- A register access that arrived through a doorbell window (14_herds.md R357): herd, page address, bytes, value written (none: a read), and the reply that the
read's value goes into: a queue pair's READ response, or an ACCESS READ_DATA frame of a port with its tag. -/
structure FabricOp where
  herd : Nat
  addr : Nat
  len : Nat
  value : Option Nat
  qp : Option (Nat × QpPacket)
  access : Option (Nat × Nat)
  deriving DecidableEq, Repr

/-- A key page beyond its registers (15_cipher.md R379 to R387): the current key and the other slot (KEY1, KEY2), the local time of the
last switch, the record kept across resets: owner, EPOCH, both check values and the walk address. -/
structure KeyPage where
  cur : Option (Nat × Nat)
  other : Option (Nat × Nat)
  switchAt : Nat
  record : Option (Nat × Nat × Nat × Nat × Nat)
  deriving DecidableEq, Repr

/-- An INSTALL that was taken and whose image is being overwritten with zeros (15_cipher.md R380): path of the command, page, slot (0 CURRENT, 1 NEXT,
2 PREVIOUS), key, LIMIT_LOG2 and EPOCH of the image. -/
structure KeyInstall where
  path : Path
  page : Nat
  slot : Nat
  key : Nat × Nat
  limit : Nat
  epoch : Nat
  deriving DecidableEq, Repr

/-- The cipher block: key pages by number, INSTALLs under way, channels (KIND, CHANNEL) whose next frame an engine dropped and sectors whose next access fails
after a second mismatch (R388), engines that fenced themselves without entropy (R390). -/
structure CiphSt where
  pages : List (Nat × KeyPage)
  installs : List KeyInstall
  frames : List (Nat × Nat)
  sectors : List Nat
  selfFenced : List Nat
  deriving DecidableEq, Repr

/-- Clocks, power, reset and boot beyond their registers (17_clocks_power_reset.md, 19_module_hardware.md): domains whose start runs, with the local time at which it
began (R418, R419); the local time of boot step 1; whether the crystal was lost since the last reset (R409); boot steps that overran (R427); the throttle level that the
die temperature gives, and whether the input power adds one (R422); whether STANDBY was entered at TRIP (R423); PWR_GOOD (R472); whether the module is OFF (R421);
whether the standby rail counts as present (R467); the reservations kept with valid keep records (R280) or through a warm reset (R438); the local time of the last high-input
event (R463); whether a port has reached UP since the reset (13_routing_deadlock.md R350); the test access port's instruction register, bypass register and boundary register, and the last
toggle of TCK (R478, R479); whether the input is in range (R463); whether the granule table on die is current; whether this boot began with a warm reset (R426), the time that the
copy of staging has added to its bounds, and when that copy began; the local time at which the step in force was reached. -/
structure ClkSt where
  starting : List (Nat × Nat)
  bootAt : Nat
  xtalLost : Bool
  overran : List Nat
  tempLevel : Nat
  powerOver : Bool
  trip : Bool
  pwrGood : Bool
  off : Bool
  stby : Bool
  kept : Option (List (Nat × Nat × Nat))
  highAt : Option Nat
  routerOn : Bool
  tap : Nat
  bypassBit : Bool
  boundary : List Bool
  tck : Option Nat
  input : Bool
  onDie : Bool
  warmBoot : Bool
  extra : Nat
  copyAt : Nat
  reached : Nat
  deriving DecidableEq, Repr
/-- A user entry of the program table (08_churn_programs.md R211 to R214): owner, state (1 CHECKING, 2 LOADED, 3 DRAINING), the image copied on
die, and the status of a copy that failed. -/
structure ProgEnt where
  herd : Nat
  state : Nat
  image : List Byte
  bad : Option Nat
  deriving DecidableEq, Repr

/-- A launch (08_churn_programs.md R216 to R227): the descriptor it serves, context, program entry, TILE_MASK; the argument block's pieces, then its bytes;
its state (0 DISPATCHED, 1 READY, 2 RUNNING, 3 WRITING); a tile mask bound; the pieces and length of each stream; cost; seed and counter latched per
logical tile; polder time at which it became READY; local time at which it started; stream bytes staged at the start of the pass; units done; flags and
KRESULT gathered; whether a pass was repeated; failure, with its DETAIL. -/
structure Launch where
  uid : Nat
  sq : Nat
  herd : Nat
  asid : Nat
  entry : Nat
  sched : Bool
  argSegs : List Seg
  args : List Byte
  state : Nat
  mask : Nat
  owner : Nat
  streams : List (List Seg × Nat)
  cost : Nat
  seeds : List (Nat × Nat)
  readyAt : DWord
  since : Nat
  staged : List (List Byte)
  done : Nat
  flags : Nat
  kres : Nat
  again : Bool
  fail : Option (Nat × Nat)
  deriving DecidableEq, Repr

/-- Churn beyond its registers: user programs by entry, launches in dispatch order, ranges of tile SRAM (tile, first byte, length) with the herd that last wrote
them, ranges being cleared (R203), and the next word of each tile to scrub. -/
structure ChuSt where
  progs : List (Nat × ProgEnt)
  launches : List Launch
  sram : List (Nat × Nat × Nat × Nat)
  clears : List (Nat × Nat × Nat)
  scrub : List (Nat × Nat)
  deriving DecidableEq, Repr

/-- A generation of a collective group at this member (09_collectives.md R250 to R258): number, operation, formats, mode, SCALE, bytes per member, root; the generation
that it reruns; the descriptor; its state (0 WAITING, 1 RUNNING, 2 DELIVERED, 3 CHECKED, 4 REVOKED, 5 sealed with ADAM_STEP's writes landing); whether its completion was
given; its kept contribution (pieces, or the curd it computed) and destination; the fused argument blocks; data ready to be sent (step, offset, bytes); bytes of pieces
used and due; whether CONFIRM came; when it began; whether a pass of its arithmetic was repeated. -/
structure Gen where
  gen : Nat
  op : Nat
  dtype : Nat
  wire : Nat
  mode : Nat
  scale : Nat
  len : Nat
  root : Nat
  rerun : Option Nat
  sq : Nat
  uid : Nat
  asid : Nat
  state : Nat
  given : Bool
  src : List Seg
  curd : Option (List Byte)
  whey : Option (List Seg × List Byte)
  dst : List Seg
  out : List Seg
  args : List Byte
  streams : List (List Seg × Nat)
  avail : List (Nat × Nat × List Byte)
  recv : Nat
  need : Nat
  expanded : Bool
  confirm : Bool
  began : Nat
  again : Bool
  deriving DecidableEq, Repr

/-- The link of a dynamic group to a ring neighbour (R247): next SEQ, frames sent and not acknowledged with local time and tries, next SEQ expected, SEQs received above
it. -/
structure CollLink where
  tx : Nat
  unacked : List (ChunkFrame × Nat × Nat)
  rx : Nat
  above : List Nat
  deriving DecidableEq, Repr

/-- A collective group (R235 to R238, R245 to R247, R259): its definition; dynamic, with its weight; BROKEN; generations in order; pieces of generations not yet started,
with the frame that brought them; frames whose pieces are not all used; frames freed; CREDIT last received and the frames sent beyond it, each with the generations of its
pieces; tokens to send forward and back; local time of the last frame from a neighbour; links of a dynamic group; generations revoked before they started; bytes sent in the
dynamic class; whether the credit is to be returned. -/
structure Grp where
  def' : GroupRec
  dynamic : Bool
  weight : Nat
  broken : Bool
  gens : List Gen
  held : List (Nat × Piece)
  frames : List (Nat × Nat)
  nextFrame : Nat
  freed : Nat
  credit : Nat
  outst : List (List Nat)
  fwdTokens : List (Nat × Nat)
  backTokens : List (Nat × Nat)
  heard : Nat
  succ : CollLink
  pred : CollLink
  early : List Nat
  bytes : Nat
  due : Bool
  deriving DecidableEq, Repr

/-- The collective engine: its groups by number. -/
structure CollSt where
  groups : List (Nat × Grp)
  deriving DecidableEq, Repr


/-- An entry of the staged set (18_config_firmware.md R439): the register's address and value, the path that staged it, for a direct write the key of the register then
selected (its Staged fields alone are carried), and for an append none (it applies to the register selected at that point of the set). -/
structure StageEntry where
  addr : Nat
  value : Word
  path : Path
  key : Option Nat
  deriving DecidableEq, Repr

/-- Configuration, firmware update and attestation beyond their registers (18_config_firmware.md): toolchain key digests of the configuration image (R435); the staged
set and, while PENDING, the polder time of its COMMIT (R439, R440); the throttle curve: thresholds of levels 1 to 3 and TRIP, and hysteresis (R422); the training sequences
(R433); the reservations in force; whether every other granule is held (R437); the local time of the last CONFIG_DEFAULTS (R436); TARGET of the transfer (R444) and the
piece being programmed, with its bytes; the open copy journal: digest and blocks done (R449); the copy under way: blocks in all and the LAST code it reports; blocks done; the
quote being made: path, snapshot (R453); the RESERVE section of the image read at this boot; the reservations of a preserved store on which defaults run (R437). -/
structure CfgSt where
  keys : List (BitVec 384)
  set : List StageEntry
  commitAt : Option DWord
  thermal : Nat × Nat × Nat × Nat × Nat
  training : List (Nat × List (Nat × Nat × Nat))
  reserve : List (Nat × Nat × Nat)
  hold : Bool
  defaultsAt : Nat
  fwTarget : Option Bool
  piece : Option (Nat × List Byte)
  journal : Option (List Byte × Nat)
  copy : Option (Nat × Nat)
  quote : Option (Path × List Byte)
  want : Option (List (Nat × Nat × Nat))
  under : Option (List (Nat × Nat × Nat))
  deriving DecidableEq, Repr

/-- A herd reset under way (14_herds.md R364 to R366): herd, whether in SQUASH, the local time of RESET, windows whose closes it started. -/
structure HerdReset where
  herd : Nat
  squash : Bool
  since : Nat
  windows : List Nat
  deriving DecidableEq, Repr
/-- What the module has sent, oldest first: the model's own record of its output. -/
inductive Out where
  | time (port : Nat) (f : TimeFrame)
  /-- A write to the memory of an accelerator (06_translation_windows.md R157, TARGET 0x1). -/
  | accelWrite (port addr : Nat) (data : List Byte)
  /-- A scheduled frame in a slot. -/
  | sched (port : Nat) (f : SchedFrame)
  /-- A best-effort frame of this module or in transit. -/
  | be (port : Nat) (f : BeFrame)
  /-- A MAC control frame of a port: quanta for a priority (12_ports_mac.md R325). -/
  | pause (port prio quanta : Nat)
  /-- A Uanto frame: 1 OFFER, 2 CONFIRM (R328). -/
  | uanto (port kind : Nat) (seen : Bool) (gen minor : Nat) (caps : List Nat)
  /-- The answer of the SMBus to a Block Read: bytes sent, or none where the command is not acknowledged (19_module_hardware.md R473). -/
  | smbus (bytes : Option (List Byte))
  /-- Bits shifted out of TDO, first bit first (R478). -/
  | tdo (bits : List Bool)
  /-- The pins driven from the boundary register: 0 EXTEST, 1 EXTEST_PULSE, 2 EXTEST_TRAIN (R478). -/
  | pins (kind : Nat) (cells : List Bool)
  /-- An ACCESS frame to an accelerator: 1 WRITE, 2 READ, 3 READ_DATA, 4 NAK (R321). -/
  | access (port op tag status : Nat) (data : List Byte)
  deriving DecidableEq, Repr

/-- Everything the module holds but the queue of waiting commands. -/
structure Mach where
  /-- Order code, fixed at manufacture (R2, R32). -/
  variant : Variant
  /-- Local time since power-on, in units of 62.5 ps. -/
  now : Nat
  /-- Polder time (02_polder_time.md R40). -/
  polder : DWord
  /-- Rate correction of the servo in parts per 10^9 (R41, R46), and the remainder of the corrections so far. -/
  rate : Int
  rateRem : Int
  /-- Index of the next free value: the model's own field (notes/assumptions/3.md). -/
  freeCtr : Nat
  regs : RegFile
  /-- In-force values of Tide-class and Refill-class registers that were written since the last boundary or refill (R12, R13). -/
  tideOld : RegFile
  refillOld : RegFile
  /-- HI halves latched by a LO read, and LO halves written and not yet taken, per path and pair (R8). -/
  latch : RegFile
  shadow : RegFile
  /-- Value that the last register read returned: the model's record of an answer. -/
  answer : Word
  peat : Memory
  cream : Memory
  tsram : Memory
  /-- The complement of the flash's bytes (18_config_firmware.md R431). -/
  flash : Memory
  /-- Changes of the stores made by the running command, newest first; empty between commands. -/
  wr : List MemOp
  /-- Events raised and not yet written (R148), oldest first. -/
  evq : List Event
  /-- The fault collector (16_faults.md). -/
  flt : FltSt
  /-- Whether the boot is halted with the fault line asserted (17_clocks_power_reset.md R408, R427). -/
  halted : Bool
  /-- The schedule engine (03_sluice_plans.md). -/
  plan : PlanSt
  /-- The time function (02_polder_time.md). -/
  tm : TimeSt
  /-- What has left the module, oldest first: the model's own record. -/
  sent : List Out
  /-- Whether the module runs on the frozen oscillator (17_clocks_power_reset.md R409, R410). -/
  onOscillator : Bool
  /-- The translation unit (06_translation_windows.md). -/
  xlt : XltSt
  /-- Windows in CLOSING (06_translation_windows.md R171). -/
  winCloses : List WinClose
  /-- The memory controllers (10_memory.md). -/
  mem : MemSt
  /-- The queue engine (05_queues_descriptors.md). -/
  qe : QeSt
  /-- Lodes and scheduled frames in the module (04_lodes_ordering.md, 03_sluice_plans.md R73). -/
  lode : LodeSt
  /-- The cipher block (15_cipher.md). -/
  ciph : CiphSt
  /-- The best-effort engine (11_best_effort_transport.md). -/
  beq : BeqSt
  /-- The router's best-effort frames (13_routing_deadlock.md). -/
  rte : RteSt
  /-- The ports beyond their registers (12_ports_mac.md). -/
  ports : List (Nat × PortSt)
  /-- Register accesses through doorbell windows that the running command performs; empty between commands. -/
  fabric : List FabricOp
  /-- Clocks, power, reset and boot beyond their registers (17_clocks_power_reset.md). -/
  clk : ClkSt
  /-- Ports that left UP during the running command, and whose loss is absorbed at its end; empty between commands. -/
  downs : List Nat
  /-- Tiles that were fenced during the running command; empty between commands. -/
  tileDowns : List Nat
  /-- Churn (07_churn_arithmetic.md, 08_churn_programs.md). -/
  chu : ChuSt
  /-- Configuration, firmware update and attestation (18_config_firmware.md). -/
  cfg : CfgSt
  /-- Collective groups (09_collectives.md). -/
  coll : CollSt
  /-- A herd reset under way (14_herds.md R364). -/
  herdReset : Option HerdReset
  /-- Changes of QE_LEASE.MS, oldest first: local time, and the lease period until then in units (14_herds.md R367). -/
  leases : List (Nat × Nat)
  deriving DecidableEq, Repr

/-- The state: the commands that wait, first in, first out, and the module. -/
structure State where
  pending : List Instr
  m : Mach
  deriving DecidableEq, Repr

/-- The ways a step could stop with a fault. There is none: the spec describes what every command does, down to the accesses
that it drops (R7, R9), so no command stops the block. -/
inductive Fault where
  deriving DecidableEq, Repr

/-- The ways a step can be refused. -/
inductive Refusal where
  /-- Raised by `exec` for a command that has no meaning in the model. Safe: nothing is claimed of it. -/
  | notModelled (mnemonic : String)
  deriving DecidableEq, Repr

/-- The module right after a power-on reset with input power just valid: every register at the reset value of its table (an
empty register file), stores and queues empty, the boot at step 1. -/
def Mach.reset : Mach where
  variant := .zw960a
  now := 0
  polder := 0
  rate := 0
  rateRem := 0
  freeCtr := 0
  regs := []
  tideOld := []
  refillOld := []
  latch := []
  shadow := []
  answer := 0
  peat := []
  cream := []
  tsram := []
  flash := []
  wr := []
  evq := []
  flt := { src := [], queue := [], overflowRaised := false, waiting := [] }
  halted := false
  plan := { bank0 := { image := [], plan := none, stopAt := none, unload := false }, bank1 := { image := [], plan := none, stopAt := none, unload := false }, tideNo := 0, drops := [], schedStopped := false, loadSeen := false, baseHoldEnd := none, outPorts := [], lastSlot := [], opened := [] }
  tm := { tree := none, parent0 := { port := none, valid := false, lastLocal := 0, lastPolder := 0, good := 0, errPs := 0, depth := 0, holdover := false, rootId := 0 }, parent1 := { port := none, valid := false, lastLocal := 0, lastPolder := 0, good := 0, errPs := 0, depth := 0, holdover := false, rootId := 0 }, links := [], errBase := 0, errSince := none, stepped := 0, atSwitch := none, lockedParent := 0, rootId := 0, lastEdge := 0, ppsOut := false, ppsRise := 0, ppsSecond := 0, nextFrame := 0, lastMeasureTide := 0 }
  sent := []
  onOscillator := false
  xlt := { cache := [], pins := [], inv := [], harvest := none }
  winCloses := []
  mem := { badLines := [], badWords := [], writes := [], nextWrite := 0, peatJob := none, crmJob := none, mirrors := [], mirIn := [], scrubLine := 0, scrubWord := 0, granCopy := none }
  qe := { sqs := [], cqs := [], lost := [], credits := [], lastSq := none, burst := 0, lastDispatch := 0, nextUid := 0 }
  lode := { tx := [], rx := [], pads := [], transit := [], here := [], copies := [] }
  ciph := { pages := [], installs := [], frames := [], sectors := [], selfFenced := [] }
  beq := { qps := [], ctl := [], dyn := [], tags := [], credit := [], vtime := [], vherd := [], last := [], reports := [], refillAt := 0, interval := 0 }
  rte := { arrived := [], held := [], here := [], turn := [] }
  ports := []
  fabric := []
  clk := { starting := [], bootAt := 0, xtalLost := false, overran := [], tempLevel := 0, powerOver := false, trip := false, pwrGood := true, off := false, stby := false, kept := none, highAt := none, routerOn := false, tap := 0, bypassBit := false, boundary := [], tck := none, input := true, onDie := false, warmBoot := false, extra := 0, copyAt := 0, reached := 0 }
  downs := []
  tileDowns := []
  chu := { progs := [], launches := [], sram := [], clears := [], scrub := [] }
  cfg := { keys := [], set := [], commitAt := none, thermal := (95, 100, 105, 110, 3), training := [], reserve := [], hold := false, defaultsAt := 0, fwTarget := none, piece := none, journal := none, copy := none, quote := none, want := none, under := none }
  coll := { groups := [] }
  herdReset := none
  leases := []

/-- The state right after reset: no command waits. -/
def State.reset : State := { pending := [], m := Mach.reset }

end Sys2Proof.Machine
end

