-- ==== Sys2Proof/Machine/Fields.lean ====
section
/-! DEFINITION. The named fields of the registers, each as the address of its register, its lowest bit, its width and the step
of its register's index (bits and addresses from the register tables of the spec and 20_register_index.md). A field that
fills its register bears the register's name. -/
namespace Sys2Proof.Machine.F

abbrev ID_PART_STEPPING : Fld := ⟨0x00000000, 24, 8, 0x0⟩
abbrev ID_PART_VARIANT : Fld := ⟨0x00000000, 16, 8, 0x0⟩
abbrev ID_PART_PART : Fld := ⟨0x00000000, 0, 16, 0x0⟩
abbrev ID_GEN_MINOR : Fld := ⟨0x00000004, 8, 8, 0x0⟩
abbrev ID_GEN_GENERATION : Fld := ⟨0x00000004, 0, 8, 0x0⟩
abbrev ID_CAP0_MIRROR : Fld := ⟨0x00000010, 12, 1, 0x0⟩
abbrev ID_CAP0_PEAT_KEEP : Fld := ⟨0x00000010, 11, 1, 0x0⟩
abbrev ID_CAP0_PPS : Fld := ⟨0x00000010, 10, 1, 0x0⟩
abbrev ID_CAP0_DENSE_XFORM : Fld := ⟨0x00000010, 9, 1, 0x0⟩
abbrev ID_CAP0_LOWRANK : Fld := ⟨0x00000010, 8, 1, 0x0⟩
abbrev ID_CAP0_CHURN_MATRIX : Fld := ⟨0x00000010, 7, 1, 0x0⟩
abbrev ID_CAP0_CHURN_VECTOR : Fld := ⟨0x00000010, 6, 1, 0x0⟩
abbrev ID_CAP0_PEAT_CRYPT : Fld := ⟨0x00000010, 5, 1, 0x0⟩
abbrev ID_CAP0_WIRE_CRYPT : Fld := ⟨0x00000010, 4, 1, 0x0⟩
abbrev ID_CAP0_CIPHER_ENGINES : Fld := ⟨0x00000010, 0, 4, 0x0⟩
abbrev ID_CAP1_PEAT_PKGS : Fld := ⟨0x00000014, 16, 5, 0x0⟩
abbrev ID_CAP1_PEAT_PKG_GIB : Fld := ⟨0x00000014, 8, 8, 0x0⟩
abbrev ID_CAP1_CHURN_TILES : Fld := ⟨0x00000014, 0, 7, 0x0⟩
abbrev ID_CAP2_RND_STOCH : Fld := ⟨0x00000018, 12, 1, 0x0⟩
abbrev ID_CAP2_RND_RTZ : Fld := ⟨0x00000018, 11, 1, 0x0⟩
abbrev ID_CAP2_RND_RNE : Fld := ⟨0x00000018, 10, 1, 0x0⟩
abbrev ID_CAP2_FMT : Fld := ⟨0x00000018, 0, 10, 0x0⟩
abbrev ID_CAP3_DIRTY_LOG : Fld := ⟨0x0000001C, 10, 1, 0x0⟩
abbrev ID_CAP3_ATOMIC64 : Fld := ⟨0x0000001C, 9, 1, 0x0⟩
abbrev ID_CAP3_RATES : Fld := ⟨0x0000001C, 5, 4, 0x0⟩
abbrev ID_CAP3_COLL_FUSED : Fld := ⟨0x0000001C, 4, 1, 0x0⟩
abbrev ID_CAP3_COLL : Fld := ⟨0x0000001C, 3, 1, 0x0⟩
abbrev ID_CAP3_SHADOW : Fld := ⟨0x0000001C, 2, 1, 0x0⟩
abbrev ID_CAP3_ROCEV2_RC : Fld := ⟨0x0000001C, 1, 1, 0x0⟩
abbrev ID_CAP3_LODES : Fld := ⟨0x0000001C, 0, 1, 0x0⟩
abbrev SLU_TIME_LO : Fld := ⟨0x00300400, 0, 32, 0x0⟩
abbrev SLU_TIME_HI : Fld := ⟨0x00300404, 0, 32, 0x0⟩
abbrev SLU_TIME_CTL_CAPTURE : Fld := ⟨0x00300408, 4, 1, 0x0⟩
abbrev SLU_TIME_CTL_PPS_IN_EDGE : Fld := ⟨0x00300408, 3, 1, 0x0⟩
abbrev SLU_TIME_CTL_PPS_OUT_EN : Fld := ⟨0x00300408, 2, 1, 0x0⟩
abbrev SLU_TIME_CTL_PPS_ANCHOR_EN : Fld := ⟨0x00300408, 1, 1, 0x0⟩
abbrev SLU_TIME_CTL_SET : Fld := ⟨0x00300408, 0, 1, 0x0⟩
abbrev SLU_TIME_STATUS_DEPTH : Fld := ⟨0x0030040C, 16, 8, 0x0⟩
abbrev SLU_TIME_STATUS_PARENT : Fld := ⟨0x0030040C, 7, 1, 0x0⟩
abbrev SLU_TIME_STATUS_ANCHORED : Fld := ⟨0x0030040C, 6, 1, 0x0⟩
abbrev SLU_TIME_STATUS_SET_REFUSED : Fld := ⟨0x0030040C, 5, 1, 0x0⟩
abbrev SLU_TIME_STATUS_DELAY_TOL : Fld := ⟨0x0030040C, 4, 1, 0x0⟩
abbrev SLU_TIME_STATUS_STATE : Fld := ⟨0x0030040C, 0, 4, 0x0⟩
abbrev SLU_TIME_ERR_ERR_PS : Fld := ⟨0x00300410, 0, 16, 0x0⟩
abbrev SLU_HOLD_LIMIT_LIMIT_PS : Fld := ⟨0x00300414, 0, 16, 0x0⟩
abbrev SLU_HOLD_COEF_W : Fld := ⟨0x00300418, 16, 16, 0x0⟩
abbrev SLU_HOLD_COEF_UF : Fld := ⟨0x00300418, 0, 16, 0x0⟩
abbrev SLU_HOLD_COUNT_STOPS : Fld := ⟨0x0030041C, 16, 16, 0x0⟩
abbrev SLU_HOLD_COUNT_ENTRIES : Fld := ⟨0x0030041C, 0, 16, 0x0⟩
abbrev SLU_TIME_SET_LO : Fld := ⟨0x00300420, 0, 32, 0x0⟩
abbrev SLU_TIME_SET_HI : Fld := ⟨0x00300424, 0, 32, 0x0⟩
abbrev SLU_CAPTURE_LO : Fld := ⟨0x00300428, 0, 32, 0x0⟩
abbrev SLU_CAPTURE_HI : Fld := ⟨0x0030042C, 0, 32, 0x0⟩
abbrev SLU_PPS_CAP_LO : Fld := ⟨0x00300430, 0, 32, 0x0⟩
abbrev SLU_PPS_CAP_HI : Fld := ⟨0x00300434, 0, 32, 0x0⟩
abbrev SLU_PPS_OFFSET : Fld := ⟨0x00300438, 0, 32, 0x0⟩
abbrev SLU_LINK_DELAY_VALID : Fld := ⟨0x00300500, 31, 1, 0x4⟩
abbrev SLU_LINK_DELAY_OUT_OF_TOL : Fld := ⟨0x00300500, 30, 1, 0x4⟩
abbrev SLU_LINK_DELAY_DELAY : Fld := ⟨0x00300500, 0, 24, 0x4⟩
abbrev SLU_PLAN_REGION_LO : Fld := ⟨0x00300000, 0, 32, 0x0⟩
abbrev SLU_PLAN_REGION_HI : Fld := ⟨0x00300004, 0, 32, 0x0⟩
abbrev SLU_PLAN_CMD_BANK : Fld := ⟨0x00300008, 8, 1, 0x0⟩
abbrev SLU_PLAN_CMD_UNLOAD : Fld := ⟨0x00300008, 3, 1, 0x0⟩
abbrev SLU_PLAN_CMD_CLEAR : Fld := ⟨0x00300008, 2, 1, 0x0⟩
abbrev SLU_PLAN_CMD_ARM : Fld := ⟨0x00300008, 1, 1, 0x0⟩
abbrev SLU_PLAN_CMD_LOAD : Fld := ⟨0x00300008, 0, 1, 0x0⟩
abbrev SLU_BANK_STATUS_SWITCHED : Fld := ⟨0x0030000C, 18, 1, 0x0⟩
abbrev SLU_BANK_STATUS_ARM_REFUSED : Fld := ⟨0x0030000C, 17, 1, 0x0⟩
abbrev SLU_BANK_STATUS_CMD_DROPPED : Fld := ⟨0x0030000C, 16, 1, 0x0⟩
abbrev SLU_BANK_STATUS_EPOCH : Fld := ⟨0x0030000C, 9, 1, 0x0⟩
abbrev SLU_BANK_STATUS_ACTIVE_BANK : Fld := ⟨0x0030000C, 8, 1, 0x0⟩
abbrev SLU_BANK_STATUS_BANK1 : Fld := ⟨0x0030000C, 4, 4, 0x0⟩
abbrev SLU_BANK_STATUS_BANK0 : Fld := ⟨0x0030000C, 0, 4, 0x0⟩
abbrev SLU_PLAN_ID0_LO : Fld := ⟨0x00300010, 0, 32, 0x0⟩
abbrev SLU_PLAN_ID0_HI : Fld := ⟨0x00300014, 0, 32, 0x0⟩
abbrev SLU_PLAN_ID1_LO : Fld := ⟨0x00300018, 0, 32, 0x0⟩
abbrev SLU_PLAN_ID1_HI : Fld := ⟨0x0030001C, 0, 32, 0x0⟩
abbrev SLU_REFUSE_CODE_BANK : Fld := ⟨0x00300020, 24, 1, 0x0⟩
abbrev SLU_REFUSE_CODE_SECTION : Fld := ⟨0x00300020, 8, 16, 0x0⟩
abbrev SLU_REFUSE_CODE_CODE : Fld := ⟨0x00300020, 0, 8, 0x0⟩
abbrev SLU_REFUSE_WHERE_KIND : Fld := ⟨0x00300024, 28, 4, 0x0⟩
abbrev SLU_REFUSE_WHERE_INDEX : Fld := ⟨0x00300024, 0, 28, 0x0⟩
abbrev SLU_REFUSE_SLOT_VALID : Fld := ⟨0x00300028, 16, 1, 0x0⟩
abbrev SLU_REFUSE_SLOT_SLOT : Fld := ⟨0x00300028, 0, 16, 0x0⟩
abbrev SLU_REFUSE_NEED : Fld := ⟨0x0030002C, 0, 32, 0x0⟩
abbrev SLU_REFUSE_HAVE : Fld := ⟨0x00300030, 0, 32, 0x0⟩
abbrev SLU_TIDE_LO : Fld := ⟨0x00300038, 0, 32, 0x0⟩
abbrev SLU_TIDE_HI : Fld := ⟨0x0030003C, 0, 32, 0x0⟩
abbrev SLU_SLACK_NEXT_LO : Fld := ⟨0x00300040, 0, 32, 0x0⟩
abbrev SLU_SLACK_NEXT_HI : Fld := ⟨0x00300044, 0, 32, 0x0⟩
abbrev SLU_MAX_FLIGHT : Fld := ⟨0x00300048, 0, 32, 0x0⟩
abbrev SLU_EPOCH_DROP : Fld := ⟨0x0030004C, 0, 32, 0x0⟩
abbrev SLU_WAKE_CTL_PLAN_WAKE : Fld := ⟨0x00300050, 16, 1, 0x0⟩
abbrev SLU_WAKE_CTL_MIN_IDLE : Fld := ⟨0x00300050, 0, 16, 0x0⟩
abbrev SLU_LODE_SEL_DIR : Fld := ⟨0x00300600, 31, 1, 0x0⟩
abbrev SLU_LODE_SEL_ENDPOINT : Fld := ⟨0x00300600, 0, 14, 0x0⟩
abbrev SLU_LODE_STATUS_VALID : Fld := ⟨0x00300604, 31, 1, 0x0⟩
abbrev SLU_LODE_STATUS_BROKEN : Fld := ⟨0x00300604, 30, 1, 0x0⟩
abbrev SLU_LODE_STATUS_UNCOVERED : Fld := ⟨0x00300604, 29, 1, 0x0⟩
abbrev SLU_LODE_STATUS_HOLDING : Fld := ⟨0x00300604, 28, 1, 0x0⟩
abbrev SLU_LODE_STATUS_WAITING : Fld := ⟨0x00300604, 0, 16, 0x0⟩
abbrev SLU_LODE_SEQ : Fld := ⟨0x00300608, 0, 32, 0x0⟩
abbrev SLU_LODE_UNKNOWN : Fld := ⟨0x0030060C, 0, 32, 0x0⟩
abbrev SLU_LODE_DUP : Fld := ⟨0x00300610, 0, 32, 0x0⟩
abbrev SLU_LODE_LOST : Fld := ⟨0x00300614, 0, 32, 0x0⟩
abbrev SLU_LODE_REFUSED : Fld := ⟨0x00300618, 0, 32, 0x0⟩
abbrev QE_CTL_REFETCH : Fld := ⟨0x00400000, 8, 8, 0x0⟩
abbrev QE_CTL_PREFETCH : Fld := ⟨0x00400000, 0, 5, 0x0⟩
abbrev QE_STATUS_BIND_REFUSED : Fld := ⟨0x00400004, 2, 1, 0x0⟩
abbrev QE_STATUS_DB_FOREIGN : Fld := ⟨0x00400004, 1, 1, 0x0⟩
abbrev QE_STATUS_FAIL_STOP : Fld := ⟨0x00400004, 0, 1, 0x0⟩
abbrev QE_MAL_CAP_VALID : Fld := ⟨0x00400008, 31, 1, 0x0⟩
abbrev QE_MAL_CAP_QUEUE : Fld := ⟨0x00400008, 16, 12, 0x0⟩
abbrev QE_MAL_CAP_REASON : Fld := ⟨0x00400008, 8, 8, 0x0⟩
abbrev QE_MAL_CAP_HERD : Fld := ⟨0x00400008, 0, 8, 0x0⟩
abbrev QE_MAL_INDEX_INDEX : Fld := ⟨0x0040000C, 0, 16, 0x0⟩
abbrev QE_HALT : Fld := ⟨0x00400020, 0, 32, 0x4⟩
abbrev QE_SQ_SEL_INDEX : Fld := ⟨0x00400100, 0, 14, 0x0⟩
abbrev QE_CQ_SEL_INDEX : Fld := ⟨0x00400200, 0, 14, 0x0⟩
abbrev QE_EQ_SEL_INDEX : Fld := ⟨0x00400300, 0, 14, 0x0⟩
abbrev QE_RX_SEL_INDEX : Fld := ⟨0x00400400, 0, 14, 0x0⟩
abbrev QE_SQ_BASE_LO : Fld := ⟨0x00400104, 0, 32, 0x0⟩
abbrev QE_SQ_BASE_HI : Fld := ⟨0x00400108, 0, 32, 0x0⟩
abbrev QE_CQ_BASE_LO : Fld := ⟨0x00400204, 0, 32, 0x0⟩
abbrev QE_CQ_BASE_HI : Fld := ⟨0x00400208, 0, 32, 0x0⟩
abbrev QE_EQ_BASE_LO : Fld := ⟨0x00400304, 0, 32, 0x0⟩
abbrev QE_EQ_BASE_HI : Fld := ⟨0x00400308, 0, 32, 0x0⟩
abbrev QE_SQ_CFG_ENABLE : Fld := ⟨0x0040010C, 31, 1, 0x0⟩
abbrev QE_SQ_CFG_SIZE_LOG2 : Fld := ⟨0x0040010C, 24, 5, 0x0⟩
abbrev QE_SQ_CFG_ASID : Fld := ⟨0x0040010C, 16, 8, 0x0⟩
abbrev QE_SQ_CFG_HERD : Fld := ⟨0x0040010C, 8, 8, 0x0⟩
abbrev QE_CQ_CFG_ENABLE : Fld := ⟨0x0040020C, 31, 1, 0x0⟩
abbrev QE_CQ_CFG_SIZE_LOG2 : Fld := ⟨0x0040020C, 24, 5, 0x0⟩
abbrev QE_CQ_CFG_ASID : Fld := ⟨0x0040020C, 16, 8, 0x0⟩
abbrev QE_CQ_CFG_HERD : Fld := ⟨0x0040020C, 8, 8, 0x0⟩
abbrev QE_EQ_CFG_ENABLE : Fld := ⟨0x0040030C, 31, 1, 0x0⟩
abbrev QE_EQ_CFG_SIZE_LOG2 : Fld := ⟨0x0040030C, 24, 5, 0x0⟩
abbrev QE_EQ_CFG_ASID : Fld := ⟨0x0040030C, 16, 8, 0x0⟩
abbrev QE_EQ_CFG_HERD : Fld := ⟨0x0040030C, 8, 8, 0x0⟩
abbrev QE_SQ_CQ_CQ : Fld := ⟨0x00400110, 0, 12, 0x0⟩
abbrev QE_SQ_ARB_BURST_M1 : Fld := ⟨0x00400114, 8, 6, 0x0⟩
abbrev QE_SQ_ARB_WEIGHT : Fld := ⟨0x00400114, 0, 8, 0x0⟩
abbrev QE_SQ_STATUS_IDLE : Fld := ⟨0x00400118, 31, 1, 0x0⟩
abbrev QE_SQ_STATUS_HALTED : Fld := ⟨0x00400118, 30, 1, 0x0⟩
abbrev QE_SQ_STATUS_WAITING : Fld := ⟨0x00400118, 29, 1, 0x0⟩
abbrev QE_SQ_STATUS_RING_FAULT : Fld := ⟨0x00400118, 28, 1, 0x0⟩
abbrev QE_SQ_STATUS_PHASE : Fld := ⟨0x00400118, 27, 1, 0x0⟩
abbrev QE_SQ_STATUS_LAST_FAIL : Fld := ⟨0x00400118, 16, 8, 0x0⟩
abbrev QE_SQ_PTR_OTHER : Fld := ⟨0x0040011C, 16, 16, 0x0⟩
abbrev QE_SQ_PTR_OWN : Fld := ⟨0x0040011C, 0, 16, 0x0⟩
abbrev QE_CQ_PTR_OTHER : Fld := ⟨0x00400210, 16, 16, 0x0⟩
abbrev QE_CQ_PTR_OWN : Fld := ⟨0x00400210, 0, 16, 0x0⟩
abbrev QE_EQ_PTR_OTHER : Fld := ⟨0x00400310, 16, 16, 0x0⟩
abbrev QE_EQ_PTR_OWN : Fld := ⟨0x00400310, 0, 16, 0x0⟩
abbrev QE_SQ_COUNT : Fld := ⟨0x00400120, 0, 32, 0x0⟩
abbrev QE_SQ_FAIL : Fld := ⟨0x00400124, 0, 32, 0x0⟩
abbrev QE_CQ_STATUS_FULL : Fld := ⟨0x00400214, 31, 1, 0x0⟩
abbrev QE_CQ_STATUS_RING_FAULT : Fld := ⟨0x00400214, 30, 1, 0x0⟩
abbrev QE_CQ_STATUS_PHASE : Fld := ⟨0x00400214, 29, 1, 0x0⟩
abbrev QE_EQ_STATUS_FULL : Fld := ⟨0x00400314, 31, 1, 0x0⟩
abbrev QE_EQ_STATUS_RING_FAULT : Fld := ⟨0x00400314, 30, 1, 0x0⟩
abbrev QE_EQ_STATUS_PHASE : Fld := ⟨0x00400314, 29, 1, 0x0⟩
abbrev QE_CQ_DROP : Fld := ⟨0x00400218, 0, 32, 0x0⟩
abbrev QE_EQ_LOST : Fld := ⟨0x00400318, 0, 32, 0x0⟩
abbrev QE_RX_BIND_ENABLE : Fld := ⟨0x00400404, 31, 1, 0x0⟩
abbrev QE_RX_BIND_CQ : Fld := ⟨0x00400404, 0, 12, 0x0⟩
abbrev QE_LEASE_MS : Fld := ⟨0x00401000, 0, 16, 0x0⟩
abbrev QE_HERD_SEL_HERD : Fld := ⟨0x00401004, 0, 8, 0x0⟩
abbrev QE_HERD_CMD_OP : Fld := ⟨0x00401008, 28, 4, 0x0⟩
abbrev QE_HERD_CMD_WINDOWS : Fld := ⟨0x00401008, 1, 1, 0x0⟩
abbrev QE_HERD_CMD_MODE : Fld := ⟨0x00401008, 0, 1, 0x0⟩
abbrev QE_HERD_CMD_STATUS_BUSY : Fld := ⟨0x0040100C, 31, 1, 0x0⟩
abbrev QE_HERD_CMD_STATUS_DONE : Fld := ⟨0x0040100C, 30, 1, 0x0⟩
abbrev QE_HERD_CMD_STATUS_REFUSED : Fld := ⟨0x0040100C, 29, 1, 0x0⟩
abbrev QE_HERD_CMD_STATUS_REASON : Fld := ⟨0x0040100C, 0, 8, 0x0⟩
abbrev QE_HERD_SHARE : Fld := ⟨0x00401010, 0, 32, 0x4⟩
abbrev QE_HERD_USE : Fld := ⟨0x00401030, 0, 32, 0x4⟩
abbrev QE_HERD_STATUS_STATE : Fld := ⟨0x00401050, 28, 4, 0x0⟩
abbrev QE_HERD_STATUS_PRIV : Fld := ⟨0x00401050, 27, 1, 0x0⟩
abbrev QE_HERD_STATUS_DB_GEN : Fld := ⟨0x00401050, 0, 16, 0x0⟩
abbrev QE_HERD_BE_WEIGHT : Fld := ⟨0x00401054, 24, 8, 0x0⟩
abbrev QE_HERD_BE_BURST_KIB : Fld := ⟨0x00401054, 16, 8, 0x0⟩
abbrev QE_HERD_BE_RATE : Fld := ⟨0x00401054, 0, 16, 0x0⟩
abbrev QE_HERD_DB_PEER_PEER : Fld := ⟨0x00401058, 0, 16, 0x0⟩
abbrev QE_PRIV_COUNT : Fld := ⟨0x0040105C, 0, 16, 0x0⟩
abbrev HERD_SQ_DB_INDEX : Fld := ⟨0x00800000, 0, 16, 0x10000⟩
abbrev HERD_CQ_DB_INDEX : Fld := ⟨0x00804000, 0, 16, 0x10000⟩
abbrev HERD_EQ_DB_INDEX : Fld := ⟨0x00808000, 0, 16, 0x10000⟩
abbrev HERD_Q_SEL_QUEUE : Fld := ⟨0x00808010, 0, 12, 0x10000⟩
abbrev HERD_Q_CTL_ENABLE : Fld := ⟨0x00808014, 0, 1, 0x10000⟩
abbrev HERD_Q_STATUS : Fld := ⟨0x00808018, 0, 32, 0x10000⟩
abbrev HERD_Q_COUNT : Fld := ⟨0x0080801C, 0, 32, 0x10000⟩
abbrev HERD_Q_FAIL : Fld := ⟨0x00808020, 0, 32, 0x10000⟩
abbrev HERD_INFO_STATE : Fld := ⟨0x00809000, 28, 4, 0x10000⟩
abbrev HERD_INFO_PRIV : Fld := ⟨0x00809000, 27, 1, 0x10000⟩
abbrev HERD_INFO_HERD : Fld := ⟨0x00809000, 0, 8, 0x10000⟩
abbrev HERD_STATUS_FOREIGN : Fld := ⟨0x00809004, 0, 1, 0x10000⟩
abbrev HERD_SHARE : Fld := ⟨0x00809010, 0, 32, 0x10000⟩
abbrev HERD_USE : Fld := ⟨0x00809030, 0, 32, 0x10000⟩
abbrev XLT_AS_SEL_HERD : Fld := ⟨0x02000000, 8, 8, 0x0⟩
abbrev XLT_AS_SEL_ASID : Fld := ⟨0x02000000, 0, 8, 0x0⟩
abbrev XLT_AS_CFG_ENABLE : Fld := ⟨0x02000004, 31, 1, 0x0⟩
abbrev XLT_AS_CFG_ROOT_LOG2 : Fld := ⟨0x02000004, 16, 5, 0x0⟩
abbrev XLT_AS_CFG_DIRTY_EN : Fld := ⟨0x02000004, 0, 1, 0x0⟩
abbrev XLT_AS_ROOT_LO : Fld := ⟨0x02000008, 0, 32, 0x0⟩
abbrev XLT_AS_ROOT_HI : Fld := ⟨0x0200000C, 0, 32, 0x0⟩
abbrev XLT_DIRTY_BASE_LO : Fld := ⟨0x02000010, 0, 32, 0x0⟩
abbrev XLT_DIRTY_BASE_HI : Fld := ⟨0x02000014, 0, 32, 0x0⟩
abbrev XLT_DIRTY_VA_LO : Fld := ⟨0x02000018, 0, 32, 0x0⟩
abbrev XLT_DIRTY_VA_HI : Fld := ⟨0x0200001C, 0, 32, 0x0⟩
abbrev XLT_DIRTY_PAGES : Fld := ⟨0x02000020, 0, 32, 0x0⟩
abbrev XLT_DIRTY_MISS : Fld := ⟨0x02000024, 0, 32, 0x0⟩
abbrev XLT_HIT : Fld := ⟨0x02000090, 0, 32, 0x0⟩
abbrev XLT_MISS : Fld := ⟨0x02000094, 0, 32, 0x0⟩
abbrev XLT_INV_GO : Fld := ⟨0x02000040, 31, 1, 0x0⟩
abbrev XLT_INV_SCOPE : Fld := ⟨0x02000040, 28, 2, 0x0⟩
abbrev XLT_INV_HERD : Fld := ⟨0x02000040, 8, 8, 0x0⟩
abbrev XLT_INV_ASID : Fld := ⟨0x02000040, 0, 8, 0x0⟩
abbrev XLT_INV_VA_LO : Fld := ⟨0x02000044, 0, 32, 0x0⟩
abbrev XLT_INV_VA_HI : Fld := ⟨0x02000048, 0, 32, 0x0⟩
abbrev XLT_INV_PAGES : Fld := ⟨0x0200004C, 0, 32, 0x0⟩
abbrev XLT_DIRTY_CMD_GO : Fld := ⟨0x02000050, 31, 1, 0x0⟩
abbrev XLT_DIRTY_CMD_VALUE : Fld := ⟨0x02000050, 0, 24, 0x0⟩
abbrev XLT_DIRTY_FROM : Fld := ⟨0x02000054, 0, 32, 0x0⟩
abbrev XLT_DIRTY_DST_LO : Fld := ⟨0x02000058, 0, 32, 0x0⟩
abbrev XLT_DIRTY_DST_HI : Fld := ⟨0x0200005C, 0, 32, 0x0⟩
abbrev XLT_STATUS_PINNED_K : Fld := ⟨0x02000060, 16, 5, 0x0⟩
abbrev XLT_STATUS_AS_REFUSED : Fld := ⟨0x02000060, 5, 1, 0x0⟩
abbrev XLT_STATUS_CMD_DROPPED : Fld := ⟨0x02000060, 4, 1, 0x0⟩
abbrev XLT_STATUS_DIRTY_DONE : Fld := ⟨0x02000060, 3, 1, 0x0⟩
abbrev XLT_STATUS_DIRTY_BUSY : Fld := ⟨0x02000060, 2, 1, 0x0⟩
abbrev XLT_STATUS_INV_DONE : Fld := ⟨0x02000060, 1, 1, 0x0⟩
abbrev XLT_STATUS_INV_BUSY : Fld := ⟨0x02000060, 0, 1, 0x0⟩
abbrev XLT_FAULT_INFO_VALID : Fld := ⟨0x02000080, 31, 1, 0x0⟩
abbrev XLT_FAULT_INFO_REASON : Fld := ⟨0x02000080, 24, 4, 0x0⟩
abbrev XLT_FAULT_INFO_LEVEL : Fld := ⟨0x02000080, 20, 4, 0x0⟩
abbrev XLT_FAULT_INFO_ACCESS : Fld := ⟨0x02000080, 16, 4, 0x0⟩
abbrev XLT_FAULT_INFO_HERD : Fld := ⟨0x02000080, 8, 8, 0x0⟩
abbrev XLT_FAULT_INFO_ASID : Fld := ⟨0x02000080, 0, 8, 0x0⟩
abbrev XLT_FAULT_ADDR_LO : Fld := ⟨0x02000084, 0, 32, 0x0⟩
abbrev XLT_FAULT_ADDR_HI : Fld := ⟨0x02000088, 0, 32, 0x0⟩
abbrev WIN_TABLE_LO : Fld := ⟨0x02100000, 0, 32, 0x0⟩
abbrev WIN_TABLE_HI : Fld := ⟨0x02100004, 0, 32, 0x0⟩
abbrev WIN_CMD_OP : Fld := ⟨0x02100008, 28, 4, 0x0⟩
abbrev WIN_CMD_WINDOW : Fld := ⟨0x02100008, 0, 20, 0x0⟩
abbrev WIN_CMD_STATUS_BUSY : Fld := ⟨0x0210000C, 31, 1, 0x0⟩
abbrev WIN_CMD_STATUS_DONE : Fld := ⟨0x0210000C, 30, 1, 0x0⟩
abbrev WIN_CMD_STATUS_REFUSED : Fld := ⟨0x0210000C, 29, 1, 0x0⟩
abbrev WIN_CMD_STATUS_REASON : Fld := ⟨0x0210000C, 0, 8, 0x0⟩
abbrev WIN_ENTRY : Fld := ⟨0x02100020, 0, 32, 0x4⟩
abbrev WIN_ARRIVAL_LO : Fld := ⟨0x02100040, 0, 32, 0x0⟩
abbrev WIN_ARRIVAL_HI : Fld := ⟨0x02100044, 0, 32, 0x0⟩
abbrev WIN_STATUS_PINNED : Fld := ⟨0x02100048, 16, 16, 0x0⟩
abbrev WIN_STATUS_CLOSING : Fld := ⟨0x02100048, 0, 16, 0x0⟩
abbrev WIN_REFUSE_CLOSED : Fld := ⟨0x02100050, 0, 32, 0x0⟩
abbrev WIN_REFUSE_CONTEXT : Fld := ⟨0x02100054, 0, 32, 0x0⟩
abbrev WIN_REFUSE_BOUNDS : Fld := ⟨0x02100058, 0, 32, 0x0⟩
abbrev CHU_CTL_EXC_EVENT : Fld := ⟨0x03000000, 1, 1, 0x0⟩
abbrev CHU_CTL_SCRUB_EN : Fld := ⟨0x03000000, 0, 1, 0x0⟩
abbrev CHU_STATUS_FENCED : Fld := ⟨0x03000004, 8, 7, 0x0⟩
abbrev CHU_STATUS_BUSY : Fld := ⟨0x03000004, 0, 7, 0x0⟩
abbrev CHU_TILE_SEL_TILE : Fld := ⟨0x03000010, 0, 6, 0x0⟩
abbrev CHU_TILE_STATUS_FENCED : Fld := ⟨0x03000014, 31, 1, 0x0⟩
abbrev CHU_TILE_STATUS_BUSY : Fld := ⟨0x03000014, 30, 1, 0x0⟩
abbrev CHU_TILE_STATUS_RECOMPUTING : Fld := ⟨0x03000014, 29, 1, 0x0⟩
abbrev CHU_TILE_STATUS_CLEARING : Fld := ⟨0x03000014, 28, 1, 0x0⟩
abbrev CHU_TILE_STATUS_HERD : Fld := ⟨0x03000014, 8, 8, 0x0⟩
abbrev CHU_SEED_LO : Fld := ⟨0x03000018, 0, 32, 0x0⟩
abbrev CHU_SEED_HI : Fld := ⟨0x0300001C, 0, 32, 0x0⟩
abbrev CHU_LAUNCH_CTR_L : Fld := ⟨0x03000020, 0, 24, 0x0⟩
abbrev CHU_EXC_NAN_BLOCK : Fld := ⟨0x03000024, 5, 1, 0x0⟩
abbrev CHU_EXC_INT_WRAP : Fld := ⟨0x03000024, 4, 1, 0x0⟩
abbrev CHU_EXC_NAN_IN : Fld := ⟨0x03000024, 3, 1, 0x0⟩
abbrev CHU_EXC_UNDERFLOW : Fld := ⟨0x03000024, 2, 1, 0x0⟩
abbrev CHU_EXC_OVERFLOW : Fld := ⟨0x03000024, 1, 1, 0x0⟩
abbrev CHU_EXC_INVALID : Fld := ⟨0x03000024, 0, 1, 0x0⟩
abbrev CHU_RESIDUE_FAILED : Fld := ⟨0x03000028, 16, 16, 0x0⟩
abbrev CHU_RESIDUE_RECOMPUTED : Fld := ⟨0x03000028, 0, 16, 0x0⟩
abbrev CHU_ECC_UNCORRECTED : Fld := ⟨0x0300002C, 16, 16, 0x0⟩
abbrev CHU_ECC_CORRECTED : Fld := ⟨0x0300002C, 0, 16, 0x0⟩
abbrev CHU_PROG_SEL_PROGRAM : Fld := ⟨0x03000100, 0, 10, 0x0⟩
abbrev CHU_PROG_CMD_OP : Fld := ⟨0x03000104, 28, 4, 0x0⟩
abbrev CHU_PROG_CMD_HERD : Fld := ⟨0x03000104, 8, 8, 0x0⟩
abbrev CHU_PROG_CMD_ASID : Fld := ⟨0x03000104, 0, 8, 0x0⟩
abbrev CHU_PROG_ADDR_LO : Fld := ⟨0x03000108, 0, 32, 0x0⟩
abbrev CHU_PROG_ADDR_HI : Fld := ⟨0x0300010C, 0, 32, 0x0⟩
abbrev CHU_PROG_STATUS_BUSY : Fld := ⟨0x03000110, 31, 1, 0x0⟩
abbrev CHU_PROG_STATUS_DONE : Fld := ⟨0x03000110, 30, 1, 0x0⟩
abbrev CHU_PROG_STATUS_REFUSED : Fld := ⟨0x03000110, 29, 1, 0x0⟩
abbrev CHU_PROG_STATUS_STATE : Fld := ⟨0x03000110, 26, 3, 0x0⟩
abbrev CHU_PROG_STATUS_STATUS : Fld := ⟨0x03000110, 16, 8, 0x0⟩
abbrev CHU_PROG_STATUS_REASON : Fld := ⟨0x03000110, 8, 8, 0x0⟩
abbrev CHU_PROG_INFO_HERD : Fld := ⟨0x03000114, 24, 8, 0x0⟩
abbrev CHU_PROG_INFO_TILES_MAX : Fld := ⟨0x03000114, 16, 8, 0x0⟩
abbrev CHU_PROG_INFO_LIBRARY : Fld := ⟨0x03000114, 15, 1, 0x0⟩
abbrev CHU_PROG_INFO_MATCH : Fld := ⟨0x03000114, 0, 10, 0x0⟩
abbrev CHU_STORE_FREE_KIB : Fld := ⟨0x03000118, 16, 16, 0x0⟩
abbrev CHU_STORE_LOADED : Fld := ⟨0x03000118, 0, 10, 0x0⟩
abbrev CHU_LAUNCH_REFUSE_VALID : Fld := ⟨0x0300011C, 31, 1, 0x0⟩
abbrev CHU_LAUNCH_REFUSE_PROGRAM : Fld := ⟨0x0300011C, 16, 10, 0x0⟩
abbrev CHU_LAUNCH_REFUSE_REASON : Fld := ⟨0x0300011C, 8, 8, 0x0⟩
abbrev CHU_LAUNCH_REFUSE_HERD : Fld := ⟨0x0300011C, 0, 8, 0x0⟩
abbrev CHU_PROG_DIGEST : Fld := ⟨0x03000120, 0, 32, 0x4⟩
abbrev CHU_BUDGET_OVER : Fld := ⟨0x03000150, 0, 32, 0x0⟩
abbrev CHU_LAUNCHES : Fld := ⟨0x03000154, 0, 32, 0x0⟩
abbrev COLL_CTL_TIMEOUT_MS : Fld := ⟨0x03B00000, 0, 16, 0x0⟩
abbrev COLL_STATUS_BROKEN : Fld := ⟨0x03B00004, 8, 8, 0x0⟩
abbrev COLL_STATUS_GROUPS : Fld := ⟨0x03B00004, 0, 8, 0x0⟩
abbrev COLL_SEL_GROUP : Fld := ⟨0x03B00010, 0, 12, 0x0⟩
abbrev COLL_CMD_OP : Fld := ⟨0x03B00014, 28, 4, 0x0⟩
abbrev COLL_CMD_STATUS_BUSY : Fld := ⟨0x03B00018, 31, 1, 0x0⟩
abbrev COLL_CMD_STATUS_DONE : Fld := ⟨0x03B00018, 30, 1, 0x0⟩
abbrev COLL_CMD_STATUS_REFUSED : Fld := ⟨0x03B00018, 29, 1, 0x0⟩
abbrev COLL_CMD_STATUS_REASON : Fld := ⟨0x03B00018, 0, 8, 0x0⟩
abbrev COLL_DYN : Fld := ⟨0x03B00020, 0, 32, 0x4⟩
abbrev COLL_GEN_ARG : Fld := ⟨0x03B00040, 0, 32, 0x0⟩
abbrev COLL_GROUP_STATUS_VALID : Fld := ⟨0x03B00044, 31, 1, 0x0⟩
abbrev COLL_GROUP_STATUS_DYNAMIC : Fld := ⟨0x03B00044, 30, 1, 0x0⟩
abbrev COLL_GROUP_STATUS_BROKEN : Fld := ⟨0x03B00044, 29, 1, 0x0⟩
abbrev COLL_GROUP_STATUS_OPEN : Fld := ⟨0x03B00044, 24, 4, 0x0⟩
abbrev COLL_GROUP_STATUS_HERD : Fld := ⟨0x03B00044, 16, 8, 0x0⟩
abbrev COLL_GROUP_STATUS_RANK : Fld := ⟨0x03B00044, 0, 10, 0x0⟩
abbrev COLL_GEN_NEXT : Fld := ⟨0x03B00048, 0, 32, 0x0⟩
abbrev COLL_GEN_SEALED : Fld := ⟨0x03B0004C, 0, 32, 0x0⟩
abbrev COLL_CRC_FAIL : Fld := ⟨0x03B00050, 0, 32, 0x0⟩
abbrev COLL_REVOKES : Fld := ⟨0x03B00054, 0, 32, 0x0⟩
abbrev COLL_ABORTS : Fld := ⟨0x03B00058, 0, 32, 0x0⟩
abbrev COLL_CREDIT_STALL : Fld := ⟨0x03B0005C, 0, 32, 0x0⟩
abbrev CRM_CTL_SCRUB_EN : Fld := ⟨0x03800000, 0, 1, 0x0⟩
abbrev CRM_GRAN_SEL_GRANULE : Fld := ⟨0x03800010, 0, 12, 0x0⟩
abbrev CRM_GRAN_STATE : Fld := ⟨0x03800014, 30, 2, 0x0⟩
abbrev CRM_GRAN_PLAN : Fld := ⟨0x03800014, 29, 1, 0x0⟩
abbrev CRM_GRAN_HERD : Fld := ⟨0x03800014, 0, 8, 0x0⟩
abbrev CRM_GRAN_CMD_OP : Fld := ⟨0x03800018, 28, 4, 0x0⟩
abbrev CRM_GRAN_CMD_HERD : Fld := ⟨0x03800018, 20, 8, 0x0⟩
abbrev CRM_GRAN_CMD_COUNT : Fld := ⟨0x03800018, 0, 12, 0x0⟩
abbrev CRM_CMD_STATUS_BUSY : Fld := ⟨0x0380001C, 31, 1, 0x0⟩
abbrev CRM_CMD_STATUS_DONE : Fld := ⟨0x0380001C, 30, 1, 0x0⟩
abbrev CRM_CMD_STATUS_REFUSED : Fld := ⟨0x0380001C, 29, 1, 0x0⟩
abbrev CRM_CMD_STATUS_AT : Fld := ⟨0x0380001C, 8, 19, 0x0⟩
abbrev CRM_CMD_STATUS_REASON : Fld := ⟨0x0380001C, 0, 8, 0x0⟩
abbrev CRM_ECC_UNCORRECTED : Fld := ⟨0x03800020, 16, 16, 0x0⟩
abbrev CRM_ECC_CORRECTED : Fld := ⟨0x03800020, 0, 16, 0x0⟩
abbrev PEAT_CMD_STATUS_BUSY : Fld := ⟨0x03980020, 31, 1, 0x0⟩
abbrev PEAT_CMD_STATUS_DONE : Fld := ⟨0x03980020, 30, 1, 0x0⟩
abbrev PEAT_CMD_STATUS_REFUSED : Fld := ⟨0x03980020, 29, 1, 0x0⟩
abbrev PEAT_CMD_STATUS_AT : Fld := ⟨0x03980020, 8, 19, 0x0⟩
abbrev PEAT_CMD_STATUS_REASON : Fld := ⟨0x03980020, 0, 8, 0x0⟩
abbrev PEAT_C_STATUS_TRAINED : Fld := ⟨0x03900000, 31, 1, 0x1000⟩
abbrev PEAT_C_STATUS_SELF_REFRESH : Fld := ⟨0x03900000, 30, 1, 0x1000⟩
abbrev PEAT_C_STATUS_ERASED : Fld := ⟨0x03900000, 29, 1, 0x1000⟩
abbrev PEAT_C_STATUS_TEMP : Fld := ⟨0x03900000, 0, 8, 0x1000⟩
abbrev PEAT_C_SYMERR : Fld := ⟨0x03900004, 0, 32, 0x1000⟩
abbrev PEAT_STATUS_ERASED_PKG : Fld := ⟨0x03980000, 16, 5, 0x0⟩
abbrev PEAT_STATUS_ERASED : Fld := ⟨0x03980000, 15, 1, 0x0⟩
abbrev PEAT_STATUS_KEEP_READY : Fld := ⟨0x03980000, 2, 1, 0x0⟩
abbrev PEAT_STATUS_PRESERVED : Fld := ⟨0x03980000, 1, 1, 0x0⟩
abbrev PEAT_STATUS_TRAINED : Fld := ⟨0x03980000, 0, 1, 0x0⟩
abbrev PEAT_CTL_SCRUB_HOURS : Fld := ⟨0x03980004, 8, 8, 0x0⟩
abbrev PEAT_CTL_KEEP_EN : Fld := ⟨0x03980004, 1, 1, 0x0⟩
abbrev PEAT_CTL_SCRUB_EN : Fld := ⟨0x03980004, 0, 1, 0x0⟩
abbrev PEAT_GRAN_SEL_GRANULE : Fld := ⟨0x03980010, 0, 19, 0x0⟩
abbrev PEAT_GRAN : Fld := ⟨0x03980014, 0, 32, 0x0⟩
abbrev PEAT_GRAN_STAGE : Fld := ⟨0x03980018, 0, 32, 0x0⟩
abbrev PEAT_GRAN_CMD_OP : Fld := ⟨0x0398001C, 28, 4, 0x0⟩
abbrev PEAT_GRAN_CMD_COUNT : Fld := ⟨0x0398001C, 0, 19, 0x0⟩
abbrev PEAT_CORR : Fld := ⟨0x03980030, 0, 32, 0x0⟩
abbrev PEAT_UNCORR : Fld := ⟨0x03980034, 0, 32, 0x0⟩
abbrev PEAT_MIR_SEL_REGION : Fld := ⟨0x03980100, 0, 6, 0x0⟩
abbrev PEAT_MIR_CMD_OP : Fld := ⟨0x03980104, 28, 4, 0x0⟩
abbrev PEAT_MIR_STATUS_STATE : Fld := ⟨0x03980108, 28, 4, 0x0⟩
abbrev PEAT_MIR_STATUS_TORN : Fld := ⟨0x03980108, 27, 1, 0x0⟩
abbrev PEAT_MIR_STATUS_JOURNAL_FULL : Fld := ⟨0x03980108, 26, 1, 0x0⟩
abbrev PEAT_MIR_STATUS_DONE : Fld := ⟨0x03980108, 25, 1, 0x0⟩
abbrev PEAT_MIR_STATUS_REFUSED : Fld := ⟨0x03980108, 24, 1, 0x0⟩
abbrev PEAT_MIR_STATUS_REASON : Fld := ⟨0x03980108, 0, 8, 0x0⟩
abbrev PEAT_MIR_CFG : Fld := ⟨0x03980120, 0, 32, 0x4⟩
abbrev PEAT_MIR_SEQ_LO : Fld := ⟨0x03980110, 0, 32, 0x0⟩
abbrev PEAT_MIR_SEQ_HI : Fld := ⟨0x03980114, 0, 32, 0x0⟩
abbrev PEAT_MIR_EPOCH : Fld := ⟨0x03980118, 0, 32, 0x0⟩
abbrev PEAT_MIR_PENDING : Fld := ⟨0x0398011C, 0, 32, 0x0⟩
abbrev BEQ_CTL_SAMPLE_US : Fld := ⟨0x02200000, 8, 8, 0x0⟩
abbrev BEQ_CTL_HWM : Fld := ⟨0x02200000, 0, 1, 0x0⟩
abbrev BEQ_STATUS_QPS : Fld := ⟨0x02200004, 0, 17, 0x0⟩
abbrev BEQ_CC_CTL_INTERVAL : Fld := ⟨0x02200010, 8, 8, 0x0⟩
abbrev BEQ_CC_RATE_START : Fld := ⟨0x02200014, 16, 16, 0x0⟩
abbrev BEQ_CC_RATE_MIN : Fld := ⟨0x02200014, 0, 16, 0x0⟩
abbrev BEQ_RTX_RNR_RETRY : Fld := ⟨0x02200018, 24, 8, 0x0⟩
abbrev BEQ_RTX_RETRY : Fld := ⟨0x02200018, 16, 8, 0x0⟩
abbrev BEQ_RTX_RTO_MIN : Fld := ⟨0x02200018, 0, 16, 0x0⟩
abbrev BEQ_REFILL_INTERVAL_NS : Fld := ⟨0x0220001C, 0, 16, 0x0⟩
abbrev BEQ_DROP : Fld := ⟨0x02200020, 0, 32, 0x0⟩
abbrev BEQ_DUP : Fld := ⟨0x02200024, 0, 32, 0x0⟩
abbrev BEQ_CURVE_ECN_ADD : Fld := ⟨0x02200100, 16, 16, 0x4⟩
abbrev BEQ_CURVE_ECN_FACTOR : Fld := ⟨0x02200100, 0, 16, 0x4⟩
abbrev BEQ_CURVE_RTT_ADD : Fld := ⟨0x02200180, 16, 16, 0x4⟩
abbrev BEQ_CURVE_RTT_FACTOR : Fld := ⟨0x02200180, 0, 16, 0x4⟩
abbrev BEQ_PORT_SCHED_COLL_WEIGHT : Fld := ⟨0x02200200, 16, 8, 0x4⟩
abbrev BEQ_PORT_SCHED_OVERHEAD : Fld := ⟨0x02200200, 8, 8, 0x4⟩
abbrev BEQ_PORT_SCHED_TOKEN : Fld := ⟨0x02200200, 0, 1, 0x4⟩
abbrev BEQ_PEER_SEL_PEER : Fld := ⟨0x02200400, 0, 8, 0x0⟩
abbrev BEQ_PEER : Fld := ⟨0x02200404, 0, 32, 0x4⟩
abbrev BEQ_QP_SEL_QP : Fld := ⟨0x02201000, 0, 16, 0x0⟩
abbrev BEQ_QP_CFG : Fld := ⟨0x02201004, 0, 32, 0x4⟩
abbrev BEQ_QP_CMD_OP : Fld := ⟨0x02201024, 28, 4, 0x0⟩
abbrev BEQ_QP_STATUS_STATE : Fld := ⟨0x02201028, 30, 2, 0x0⟩
abbrev BEQ_QP_STATUS_DONE : Fld := ⟨0x02201028, 29, 1, 0x0⟩
abbrev BEQ_QP_STATUS_REFUSED : Fld := ⟨0x02201028, 28, 1, 0x0⟩
abbrev BEQ_QP_STATUS_REASON : Fld := ⟨0x02201028, 24, 4, 0x0⟩
abbrev BEQ_QP_STATUS_ERR_STATUS : Fld := ⟨0x02201028, 16, 8, 0x0⟩
abbrev BEQ_QP_STATUS_OUT : Fld := ⟨0x02201028, 0, 15, 0x0⟩
abbrev BEQ_QP_RATE : Fld := ⟨0x0220102C, 0, 32, 0x0⟩
abbrev BEQ_QP_RTT_BASE : Fld := ⟨0x02201030, 16, 16, 0x0⟩
abbrev BEQ_QP_RTT_LAST : Fld := ⟨0x02201030, 0, 16, 0x0⟩
abbrev BEQ_QP_SAMPLE_AGE : Fld := ⟨0x02201034, 16, 16, 0x0⟩
abbrev BEQ_QP_SAMPLE_DEPTH : Fld := ⟨0x02201034, 0, 16, 0x0⟩
abbrev BEQ_QP_HWM_AGE : Fld := ⟨0x02201038, 16, 16, 0x0⟩
abbrev BEQ_QP_HWM_DEPTH : Fld := ⟨0x02201038, 0, 16, 0x0⟩
abbrev BEQ_QP_RETX : Fld := ⟨0x0220103C, 0, 32, 0x0⟩
abbrev BEQ_QP_CE : Fld := ⟨0x02201040, 0, 32, 0x0⟩
abbrev PORT_CTL_MEDIA : Fld := ⟨0x00100000, 6, 1, 0x4000⟩
abbrev PORT_CTL_RATE : Fld := ⟨0x00100000, 4, 2, 0x4000⟩
abbrev PORT_CTL_BCAST_EN : Fld := ⟨0x00100000, 3, 1, 0x4000⟩
abbrev PORT_CTL_DIAG : Fld := ⟨0x00100000, 2, 1, 0x4000⟩
abbrev PORT_CTL_RESET : Fld := ⟨0x00100000, 1, 1, 0x4000⟩
abbrev PORT_CTL_ENABLE : Fld := ⟨0x00100000, 0, 1, 0x4000⟩
abbrev PORT_STATUS_NOT_SCHED : Fld := ⟨0x00100004, 17, 1, 0x4000⟩
abbrev PORT_STATUS_SCHED_OUT : Fld := ⟨0x00100004, 16, 1, 0x4000⟩
abbrev PORT_STATUS_PAUSED : Fld := ⟨0x00100004, 8, 8, 0x4000⟩
abbrev PORT_STATUS_RATE : Fld := ⟨0x00100004, 4, 2, 0x4000⟩
abbrev PORT_STATUS_STATE : Fld := ⟨0x00100004, 0, 3, 0x4000⟩
abbrev PORT_ROLE_VID : Fld := ⟨0x00100008, 16, 12, 0x4000⟩
abbrev PORT_ROLE_PROTO : Fld := ⟨0x00100008, 4, 1, 0x4000⟩
abbrev PORT_ROLE_ROLE : Fld := ⟨0x00100008, 0, 2, 0x4000⟩
abbrev PORT_ETHERTYPE_TYPE : Fld := ⟨0x0010000C, 0, 16, 0x4000⟩
abbrev PORT_MAC_LO : Fld := ⟨0x00100010, 0, 32, 0x4000⟩
abbrev PORT_MAC_HI : Fld := ⟨0x00100014, 0, 32, 0x4000⟩
abbrev PORT_FC_PFC_EN : Fld := ⟨0x00100018, 8, 7, 0x4000⟩
abbrev PORT_FC_MODE : Fld := ⟨0x00100018, 0, 2, 0x4000⟩
abbrev PORT_PFC_THRESH_XOFF_KIB : Fld := ⟨0x0010001C, 16, 16, 0x4000⟩
abbrev PORT_PFC_THRESH_XON_KIB : Fld := ⟨0x0010001C, 0, 16, 0x4000⟩
abbrev PORT_PAUSE_WD_MS : Fld := ⟨0x00100020, 0, 16, 0x4000⟩
abbrev PORT_FEC_LIMIT_WINDOW_US : Fld := ⟨0x00100024, 16, 16, 0x4000⟩
abbrev PORT_FEC_LIMIT_COUNT : Fld := ⟨0x00100024, 0, 16, 0x4000⟩
abbrev PORT_CTX_VALID : Fld := ⟨0x00100040, 31, 1, 0x4000⟩
abbrev PORT_CTX_CONTEXT : Fld := ⟨0x00100040, 0, 16, 0x4000⟩
abbrev PORT_CTX_RKEY : Fld := ⟨0x00100044, 0, 32, 0x4000⟩
abbrev PORT_HASH : Fld := ⟨0x00100100, 0, 32, 0x4000⟩
abbrev PORT_UANTO_RES_MINOR : Fld := ⟨0x00100140, 16, 16, 0x4000⟩
abbrev PORT_UANTO_RES_GEN : Fld := ⟨0x00100140, 0, 16, 0x4000⟩
abbrev PORT_UANTO_PEER_MODULE : Fld := ⟨0x00100144, 16, 16, 0x4000⟩
abbrev PORT_UANTO_PEER_PORT_ROLE : Fld := ⟨0x00100144, 0, 16, 0x4000⟩
abbrev PORT_UANTO_CAP : Fld := ⟨0x00100150, 0, 32, 0x4000⟩
abbrev PORT_UANTO_PCAP : Fld := ⟨0x00100160, 0, 32, 0x4000⟩
abbrev PORT_DIAG_BASE_LO : Fld := ⟨0x00100180, 0, 32, 0x4000⟩
abbrev PORT_DIAG_BASE_HI : Fld := ⟨0x00100184, 0, 32, 0x4000⟩
abbrev PORT_DIAG_CFG : Fld := ⟨0x00100188, 0, 32, 0x4000⟩
abbrev PORT_DIAG_PTR : Fld := ⟨0x0010018C, 0, 32, 0x4000⟩
abbrev PORT_RX_FRAMES_LO : Fld := ⟨0x00100200, 0, 32, 0x4000⟩
abbrev PORT_RX_FRAMES_HI : Fld := ⟨0x00100204, 0, 32, 0x4000⟩
abbrev PORT_RX_BYTES_LO : Fld := ⟨0x00100208, 0, 32, 0x4000⟩
abbrev PORT_RX_BYTES_HI : Fld := ⟨0x0010020C, 0, 32, 0x4000⟩
abbrev PORT_TX_FRAMES_LO : Fld := ⟨0x00100210, 0, 32, 0x4000⟩
abbrev PORT_TX_FRAMES_HI : Fld := ⟨0x00100214, 0, 32, 0x4000⟩
abbrev PORT_TX_BYTES_LO : Fld := ⟨0x00100218, 0, 32, 0x4000⟩
abbrev PORT_TX_BYTES_HI : Fld := ⟨0x0010021C, 0, 32, 0x4000⟩
abbrev PORT_FEC_CORR : Fld := ⟨0x00100220, 0, 32, 0x4000⟩
abbrev PORT_FEC_UNCORR : Fld := ⟨0x00100224, 0, 32, 0x4000⟩
abbrev PORT_BAD : Fld := ⟨0x00100244, 0, 32, 0x4000⟩
abbrev PORT_PAUSE_WD_COUNT : Fld := ⟨0x00100280, 0, 32, 0x4000⟩
abbrev PORT_PAUSED_US : Fld := ⟨0x00100284, 0, 32, 0x4000⟩
abbrev PORT_DIAG_LOST : Fld := ⟨0x00100288, 0, 32, 0x4000⟩
abbrev RTE_MODULE_MODULE : Fld := ⟨0x00200000, 0, 10, 0x0⟩
abbrev RTE_ARB_FWD_WEIGHT : Fld := ⟨0x00200004, 8, 8, 0x0⟩
abbrev RTE_ARB_LOCAL_WEIGHT : Fld := ⟨0x00200004, 0, 8, 0x0⟩
abbrev RTE_ECN_THRESH_KIB : Fld := ⟨0x00200008, 0, 16, 0x0⟩
abbrev RTE_STATUS_POOL_OVER : Fld := ⟨0x0020000C, 3, 1, 0x0⟩
abbrev RTE_STATUS_BASE_HELD : Fld := ⟨0x0020000C, 2, 1, 0x0⟩
abbrev RTE_STATUS_TABLE : Fld := ⟨0x0020000C, 0, 2, 0x0⟩
abbrev RTE_IP6 : Fld := ⟨0x00200010, 0, 32, 0x4⟩
abbrev RTE_IP4 : Fld := ⟨0x00200020, 0, 32, 0x0⟩
abbrev RTE_ENTRY_SEL_TABLE : Fld := ⟨0x00200030, 16, 2, 0x0⟩
abbrev RTE_ENTRY_SEL_DEST : Fld := ⟨0x00200030, 0, 10, 0x0⟩
abbrev RTE_ENTRY_LO : Fld := ⟨0x00200034, 0, 32, 0x0⟩
abbrev RTE_ENTRY_HI : Fld := ⟨0x00200038, 0, 32, 0x0⟩
abbrev RTE_POOL_ORIGIN_REQUEST : Fld := ⟨0x00200040, 16, 8, 0x0⟩
abbrev RTE_POOL_ORIGIN_REPLY : Fld := ⟨0x00200040, 8, 8, 0x0⟩
abbrev RTE_POOL_ORIGIN_DYNCOLL : Fld := ⟨0x00200040, 0, 8, 0x0⟩
abbrev RTE_POOL_SCHED_KIB : Fld := ⟨0x00200100, 16, 16, 0x8⟩
abbrev RTE_POOL_LANE_KIB : Fld := ⟨0x00200100, 0, 16, 0x8⟩
abbrev RTE_POOL2_SCHED_KIB : Fld := ⟨0x00200104, 16, 16, 0x8⟩
abbrev RTE_POOL2_LANE_KIB : Fld := ⟨0x00200104, 0, 16, 0x8⟩
abbrev RTE_SCHED_DROP : Fld := ⟨0x00200050, 0, 32, 0x0⟩
abbrev RTE_NO_ROUTE : Fld := ⟨0x00200054, 0, 32, 0x0⟩
abbrev RTE_EPOCH_DROP : Fld := ⟨0x00200058, 0, 32, 0x0⟩
abbrev RTE_EJECT_DROP : Fld := ⟨0x0020005C, 0, 32, 0x0⟩
abbrev RTE_CONTROL_DROP : Fld := ⟨0x00200060, 0, 32, 0x0⟩
abbrev RTE_P_DEPTH : Fld := ⟨0x00201000, 0, 32, 0x40⟩
abbrev RTE_P_DEPTH_HWM : Fld := ⟨0x00201004, 0, 32, 0x40⟩
abbrev RTE_P_FWD_FRAMES_LO : Fld := ⟨0x00201008, 0, 32, 0x40⟩
abbrev RTE_P_FWD_FRAMES_HI : Fld := ⟨0x0020100C, 0, 32, 0x40⟩
abbrev RTE_P_FWD_BYTES_LO : Fld := ⟨0x00201010, 0, 32, 0x40⟩
abbrev RTE_P_FWD_BYTES_HI : Fld := ⟨0x00201014, 0, 32, 0x40⟩
abbrev RTE_P_TRANSIT : Fld := ⟨0x00201018, 0, 32, 0x40⟩
abbrev RTE_P_STALL_PAUSE : Fld := ⟨0x0020101C, 0, 32, 0x40⟩
abbrev RTE_P_STALL_SLOT : Fld := ⟨0x00201020, 0, 32, 0x40⟩
abbrev RTE_P_CE : Fld := ⟨0x00201024, 0, 32, 0x40⟩
abbrev RTE_P_LANE_HIGH : Fld := ⟨0x00201028, 16, 16, 0x40⟩
abbrev RTE_P_LANE_LOW : Fld := ⟨0x00201028, 0, 16, 0x40⟩
abbrev TEL_CTL_DONE : Fld := ⟨0x03C00000, 1, 1, 0x0⟩
abbrev TEL_CTL_ARM : Fld := ⟨0x03C00000, 0, 1, 0x0⟩
abbrev TEL_SNAP_AT_LO : Fld := ⟨0x03C00008, 0, 32, 0x0⟩
abbrev TEL_SNAP_AT_HI : Fld := ⟨0x03C0000C, 0, 32, 0x0⟩
abbrev TEL_SNAP_TIME_LO : Fld := ⟨0x03C00010, 0, 32, 0x0⟩
abbrev TEL_SNAP_TIME_HI : Fld := ⟨0x03C00014, 0, 32, 0x0⟩
abbrev TEL_RTE_P_DEPTH : Fld := ⟨0x03C01000, 0, 32, 0x40⟩
abbrev TEL_RTE_P_DEPTH_HWM : Fld := ⟨0x03C01004, 0, 32, 0x40⟩
abbrev TEL_RTE_P_FWD_FRAMES_LO : Fld := ⟨0x03C01008, 0, 32, 0x40⟩
abbrev TEL_RTE_P_FWD_FRAMES_HI : Fld := ⟨0x03C0100C, 0, 32, 0x40⟩
abbrev TEL_RTE_P_FWD_BYTES_LO : Fld := ⟨0x03C01010, 0, 32, 0x40⟩
abbrev TEL_RTE_P_FWD_BYTES_HI : Fld := ⟨0x03C01014, 0, 32, 0x40⟩
abbrev TEL_RTE_P_TRANSIT : Fld := ⟨0x03C01018, 0, 32, 0x40⟩
abbrev TEL_RTE_P_STALL_PAUSE : Fld := ⟨0x03C0101C, 0, 32, 0x40⟩
abbrev TEL_RTE_P_STALL_SLOT : Fld := ⟨0x03C01020, 0, 32, 0x40⟩
abbrev TEL_RTE_P_CE : Fld := ⟨0x03C01024, 0, 32, 0x40⟩
abbrev TEL_RTE_P_LANE_HIGH : Fld := ⟨0x03C01028, 16, 16, 0x40⟩
abbrev TEL_RTE_P_LANE_LOW : Fld := ⟨0x03C01028, 0, 16, 0x40⟩
abbrev CIPH_STATUS_ENTROPY_OK : Fld := ⟨0x03A00000, 8, 1, 0x0⟩
abbrev CIPH_STATUS_FENCED : Fld := ⟨0x03A00000, 4, 4, 0x0⟩
abbrev CIPH_STATUS_PRESENT : Fld := ⟨0x03A00000, 0, 4, 0x0⟩
abbrev CIPH_AUTH_FAIL : Fld := ⟨0x03A00004, 0, 32, 0x0⟩
abbrev CIPH_EPOCH_DROP : Fld := ⟨0x03A00008, 0, 32, 0x0⟩
abbrev CIPH_PAGE_SEL_PAGE : Fld := ⟨0x03A00010, 0, 10, 0x0⟩
abbrev CIPH_PAGE_CMD_OP : Fld := ⟨0x03A00014, 28, 4, 0x0⟩
abbrev CIPH_PAGE_CMD_KIND : Fld := ⟨0x03A00014, 24, 4, 0x0⟩
abbrev CIPH_PAGE_CMD_HERD : Fld := ⟨0x03A00014, 8, 8, 0x0⟩
abbrev CIPH_PAGE_CMD_ASID : Fld := ⟨0x03A00014, 0, 8, 0x0⟩
abbrev CIPH_PAGE_ADDR_LO : Fld := ⟨0x03A00018, 0, 32, 0x0⟩
abbrev CIPH_PAGE_ADDR_HI : Fld := ⟨0x03A0001C, 0, 32, 0x0⟩
abbrev CIPH_CMD_STATUS_BUSY : Fld := ⟨0x03A00020, 31, 1, 0x0⟩
abbrev CIPH_CMD_STATUS_DONE : Fld := ⟨0x03A00020, 30, 1, 0x0⟩
abbrev CIPH_CMD_STATUS_REFUSED : Fld := ⟨0x03A00020, 29, 1, 0x0⟩
abbrev CIPH_CMD_STATUS_REASON : Fld := ⟨0x03A00020, 0, 8, 0x0⟩
abbrev CIPH_PAGE_STATUS_STATE : Fld := ⟨0x03A00024, 29, 3, 0x0⟩
abbrev CIPH_PAGE_STATUS_KIND : Fld := ⟨0x03A00024, 27, 2, 0x0⟩
abbrev CIPH_PAGE_STATUS_HELD : Fld := ⟨0x03A00024, 26, 1, 0x0⟩
abbrev CIPH_PAGE_STATUS_RECORDED : Fld := ⟨0x03A00024, 25, 1, 0x0⟩
abbrev CIPH_PAGE_STATUS_NEEDS_PREV : Fld := ⟨0x03A00024, 24, 1, 0x0⟩
abbrev CIPH_PAGE_STATUS_HERD : Fld := ⟨0x03A00024, 16, 8, 0x0⟩
abbrev CIPH_PAGE_STATUS_EPOCH : Fld := ⟨0x03A00024, 0, 16, 0x0⟩
abbrev CIPH_PAGE_USED_LO : Fld := ⟨0x03A00028, 0, 32, 0x0⟩
abbrev CIPH_PAGE_USED_HI : Fld := ⟨0x03A0002C, 0, 32, 0x0⟩
abbrev CIPH_PAGE_LIMIT_LIMIT_LOG2 : Fld := ⟨0x03A00030, 0, 6, 0x0⟩
abbrev CIPH_PAGE_CHECK_CUR : Fld := ⟨0x03A00034, 0, 32, 0x0⟩
abbrev CIPH_PAGE_CHECK_OTHER : Fld := ⟨0x03A00038, 0, 32, 0x0⟩
abbrev CIPH_PAGE_REKEY_LO : Fld := ⟨0x03A00040, 0, 32, 0x0⟩
abbrev CIPH_PAGE_REKEY_HI : Fld := ⟨0x03A00044, 0, 32, 0x0⟩
abbrev CIPH_ENG_STATUS_FENCED : Fld := ⟨0x03A00100, 0, 1, 0x10⟩
abbrev CIPH_ENG_STATUS_DRBG_ONLY : Fld := ⟨0x03A00100, 1, 1, 0x10⟩
abbrev CIPH_ENG_RECOMPUTED : Fld := ⟨0x03A00104, 0, 32, 0x10⟩
abbrev CIPH_ENG_FENCES : Fld := ⟨0x03A00108, 0, 32, 0x10⟩
abbrev FLT_CTL_LINE_EN : Fld := ⟨0x00030000, 1, 1, 0x0⟩
abbrev FLT_CTL_STEWARD_COPY : Fld := ⟨0x00030000, 0, 1, 0x0⟩
abbrev FLT_STATUS_QUEUED : Fld := ⟨0x00030004, 16, 10, 0x0⟩
abbrev FLT_STATUS_NOT_NORMAL : Fld := ⟨0x00030004, 0, 9, 0x0⟩
abbrev FLT_FLAGS_LINE : Fld := ⟨0x00030008, 2, 1, 0x0⟩
abbrev FLT_FLAGS_SELF_ERR : Fld := ⟨0x00030008, 1, 1, 0x0⟩
abbrev FLT_FLAGS_OVERFLOW : Fld := ⟨0x00030008, 0, 1, 0x0⟩
abbrev FLT_LINE_MASK_OVERFLOW : Fld := ⟨0x0003000C, 3, 1, 0x0⟩
abbrev FLT_LINE_MASK_DEGRADED : Fld := ⟨0x0003000C, 2, 1, 0x0⟩
abbrev FLT_LINE_MASK_LOCKED : Fld := ⟨0x0003000C, 1, 1, 0x0⟩
abbrev FLT_LINE_MASK_FENCED : Fld := ⟨0x0003000C, 0, 1, 0x0⟩
abbrev FLT_Q_DATA : Fld := ⟨0x00030010, 0, 32, 0x4⟩
abbrev FLT_Q_POP : Fld := ⟨0x00030030, 0, 32, 0x0⟩
abbrev FLT_VIOL_COUNT : Fld := ⟨0x00030034, 0, 32, 0x0⟩
abbrev FLT_SRC_SEL_SOURCE : Fld := ⟨0x00030040, 0, 9, 0x0⟩
abbrev FLT_SRC_STATUS_STATE : Fld := ⟨0x00030044, 28, 4, 0x0⟩
abbrev FLT_SRC_STATUS_UNCOVERED : Fld := ⟨0x00030044, 27, 1, 0x0⟩
abbrev FLT_SRC_STATUS_HANDLING : Fld := ⟨0x00030044, 26, 1, 0x0⟩
abbrev FLT_SRC_STATUS_RETURNING : Fld := ⟨0x00030044, 25, 1, 0x0⟩
abbrev FLT_SRC_STATUS_RECOVERIES : Fld := ⟨0x00030044, 16, 8, 0x0⟩
abbrev FLT_SRC_STATUS_COUNT : Fld := ⟨0x00030044, 0, 16, 0x0⟩
abbrev FLT_CLASS_N_N_SEV : Fld := ⟨0x00030048, 16, 16, 0x0⟩
abbrev FLT_CLASS_N_N_DEG : Fld := ⟨0x00030048, 0, 16, 0x0⟩
abbrev FLT_CLASS_WINDOW : Fld := ⟨0x0003004C, 0, 32, 0x0⟩
abbrev FLT_CLASS_QUIET_LIMIT : Fld := ⟨0x00030050, 24, 8, 0x0⟩
abbrev FLT_CLASS_QUIET_QUIET_MS : Fld := ⟨0x00030050, 0, 24, 0x0⟩
abbrev FLT_SRC_CMD_OP : Fld := ⟨0x00030054, 28, 4, 0x0⟩
abbrev FLT_SRC_OVF : Fld := ⟨0x00030058, 0, 32, 0x0⟩
abbrev FLT_SRC_EVENTS : Fld := ⟨0x0003005C, 0, 32, 0x0⟩
abbrev FLT_CAP : Fld := ⟨0x00030060, 0, 32, 0x4⟩
abbrev FLT_CAP_VALID_VALID : Fld := ⟨0x00030080, 0, 1, 0x0⟩
abbrev FLT_SUMMARY : Fld := ⟨0x00030100, 0, 32, 0x4⟩
abbrev CLK_STATUS_THROTTLE : Fld := ⟨0x00010000, 8, 4, 0x0⟩
abbrev CLK_STATUS_POWER_STATE : Fld := ⟨0x00010000, 4, 2, 0x0⟩
abbrev CLK_STATUS_OSC_DISC : Fld := ⟨0x00010000, 3, 1, 0x0⟩
abbrev CLK_STATUS_OSC_OK : Fld := ⟨0x00010000, 2, 1, 0x0⟩
abbrev CLK_STATUS_XTAL_OK : Fld := ⟨0x00010000, 1, 1, 0x0⟩
abbrev CLK_STATUS_REF : Fld := ⟨0x00010000, 0, 1, 0x0⟩
abbrev CLK_PLL_DOMAINS : Fld := ⟨0x00010010, 8, 8, 0x4⟩
abbrev CLK_PLL_CARRYING : Fld := ⟨0x00010010, 3, 1, 0x4⟩
abbrev CLK_PLL_COAST : Fld := ⟨0x00010010, 2, 1, 0x4⟩
abbrev CLK_PLL_LOCKED : Fld := ⟨0x00010010, 1, 1, 0x4⟩
abbrev CLK_PLL_REF : Fld := ⟨0x00010010, 0, 1, 0x4⟩
abbrev CLK_DOM_SEL_DOMAIN : Fld := ⟨0x00010040, 0, 6, 0x0⟩
abbrev CLK_DOM_STATUS_RUNNING : Fld := ⟨0x00010044, 31, 1, 0x0⟩
abbrev CLK_DOM_STATUS_PLANNED : Fld := ⟨0x00010044, 30, 1, 0x0⟩
abbrev CLK_DOM_STATUS_ON_ALT : Fld := ⟨0x00010044, 29, 1, 0x0⟩
abbrev CLK_DOM_STATUS_PLL : Fld := ⟨0x00010044, 0, 4, 0x0⟩
abbrev CLK_DOM_STARTS : Fld := ⟨0x00010048, 0, 32, 0x0⟩
abbrev CLK_IDLE_US : Fld := ⟨0x00010050, 0, 16, 0x0⟩
abbrev CLK_OSC_HOLD_W : Fld := ⟨0x00010054, 16, 16, 0x0⟩
abbrev CLK_OSC_HOLD_UF : Fld := ⟨0x00010054, 0, 16, 0x0⟩
abbrev CLK_TEMP_SENSOR : Fld := ⟨0x00010060, 8, 8, 0x0⟩
abbrev CLK_TEMP_DIE_MAX : Fld := ⟨0x00010060, 0, 8, 0x0⟩
abbrev CLK_PWR_VIN : Fld := ⟨0x00010064, 16, 16, 0x0⟩
abbrev CLK_PWR_PIN : Fld := ⟨0x00010064, 0, 16, 0x0⟩
abbrev CLK_PWR_LIMIT_WATTS : Fld := ⟨0x00010068, 0, 16, 0x0⟩
abbrev CLK_SERVICE_LEAVE : Fld := ⟨0x0001006C, 0, 1, 0x0⟩
abbrev CLK_RESET_CMD_OP : Fld := ⟨0x00010080, 28, 4, 0x0⟩
abbrev CLK_RESET_CMD_KEY : Fld := ⟨0x00010080, 0, 16, 0x0⟩
abbrev CLK_RESET_CAUSE_FAIL_STOP : Fld := ⟨0x00010084, 6, 1, 0x0⟩
abbrev CLK_RESET_CAUSE_TRIP : Fld := ⟨0x00010084, 5, 1, 0x0⟩
abbrev CLK_RESET_CAUSE_CMD_WARM : Fld := ⟨0x00010084, 4, 1, 0x0⟩
abbrev CLK_RESET_CAUSE_CMD_POR : Fld := ⟨0x00010084, 3, 1, 0x0⟩
abbrev CLK_RESET_CAUSE_PIN_WARM : Fld := ⟨0x00010084, 2, 1, 0x0⟩
abbrev CLK_RESET_CAUSE_PIN_POR : Fld := ⟨0x00010084, 1, 1, 0x0⟩
abbrev CLK_RESET_CAUSE_INPUT : Fld := ⟨0x00010084, 0, 1, 0x0⟩
abbrev CLK_BOOT_FAILED : Fld := ⟨0x00010088, 31, 1, 0x0⟩
abbrev CLK_BOOT_ELAPSED_MS : Fld := ⟨0x00010088, 8, 16, 0x0⟩
abbrev CLK_BOOT_STEP : Fld := ⟨0x00010088, 0, 4, 0x0⟩
abbrev CFG_STATUS_ENTRIES : Fld := ⟨0x00040000, 10, 11, 0x0⟩
abbrev CFG_STATUS_RESERVE_HELD : Fld := ⟨0x00040000, 9, 1, 0x0⟩
abbrev CFG_STATUS_DEFAULTS : Fld := ⟨0x00040000, 8, 1, 0x0⟩
abbrev CFG_STATUS_PENDING : Fld := ⟨0x00040000, 7, 1, 0x0⟩
abbrev CFG_STATUS_PENDING_WRITE : Fld := ⟨0x00040000, 6, 1, 0x0⟩
abbrev CFG_STATUS_FROZEN_WRITE : Fld := ⟨0x00040000, 5, 1, 0x0⟩
abbrev CFG_STATUS_REFUSED : Fld := ⟨0x00040000, 4, 1, 0x0⟩
abbrev CFG_STATUS_DONE : Fld := ⟨0x00040000, 3, 1, 0x0⟩
abbrev CFG_STATUS_REASON : Fld := ⟨0x00040000, 0, 3, 0x0⟩
abbrev CFG_COMMIT_OP : Fld := ⟨0x00040004, 28, 4, 0x0⟩
abbrev CFG_STAGE_ADDR : Fld := ⟨0x00040008, 0, 32, 0x0⟩
abbrev CFG_STAGE_DATA : Fld := ⟨0x0004000C, 0, 32, 0x0⟩
abbrev CFG_SHADOW_ADDR : Fld := ⟨0x00040010, 0, 32, 0x0⟩
abbrev CFG_SHADOW_DATA : Fld := ⟨0x00040014, 0, 32, 0x0⟩
abbrev CFG_REFUSE_ADDR : Fld := ⟨0x00040018, 0, 32, 0x0⟩
abbrev CFG_FROZEN_ADDR : Fld := ⟨0x0004001C, 0, 32, 0x0⟩
abbrev CFG_COMMITS : Fld := ⟨0x00040020, 0, 32, 0x0⟩
abbrev CFG_IMAGE_FOUND : Fld := ⟨0x00040024, 16, 16, 0x0⟩
abbrev CFG_IMAGE_MIN : Fld := ⟨0x00040024, 8, 8, 0x0⟩
abbrev CFG_IMAGE_MAX : Fld := ⟨0x00040024, 0, 8, 0x0⟩
abbrev FWU_CMD_OP : Fld := ⟨0x03D00000, 28, 4, 0x0⟩
abbrev FWU_CMD_SOURCE : Fld := ⟨0x03D00000, 9, 1, 0x0⟩
abbrev FWU_CMD_TARGET : Fld := ⟨0x03D00000, 8, 1, 0x0⟩
abbrev FWU_PIECES : Fld := ⟨0x03D00004, 0, 32, 0x0⟩
abbrev FWU_INDEX : Fld := ⟨0x03D00008, 0, 32, 0x0⟩
abbrev FWU_CRC : Fld := ⟨0x03D0000C, 0, 32, 0x0⟩
abbrev FWU_SRC_LO : Fld := ⟨0x03D00010, 0, 32, 0x0⟩
abbrev FWU_SRC_HI : Fld := ⟨0x03D00014, 0, 32, 0x0⟩
abbrev FWU_STATUS_BUSY : Fld := ⟨0x03D00018, 31, 1, 0x0⟩
abbrev FWU_STATUS_DONE : Fld := ⟨0x03D00018, 30, 1, 0x0⟩
abbrev FWU_STATUS_REFUSED : Fld := ⟨0x03D00018, 29, 1, 0x0⟩
abbrev FWU_STATUS_COMPLETE : Fld := ⟨0x03D00018, 28, 1, 0x0⟩
abbrev FWU_STATUS_TARGET : Fld := ⟨0x03D00018, 27, 1, 0x0⟩
abbrev FWU_STATUS_REASON : Fld := ⟨0x03D00018, 16, 8, 0x0⟩
abbrev FWU_STATUS_RECEIVED : Fld := ⟨0x03D00018, 0, 14, 0x0⟩
abbrev FWU_NEXT_MISSING : Fld := ⟨0x03D0001C, 0, 32, 0x0⟩
abbrev FWU_CRC_FAIL : Fld := ⟨0x03D00020, 0, 32, 0x0⟩
abbrev FWU_BUF : Fld := ⟨0x03D01000, 0, 32, 0x4⟩
abbrev BOOT_STATUS_LAST : Fld := ⟨0x00020000, 28, 4, 0x0⟩
abbrev BOOT_STATUS_REFUSE : Fld := ⟨0x00020000, 24, 4, 0x0⟩
abbrev BOOT_STATUS_IDENTITY_READY : Fld := ⟨0x00020000, 3, 1, 0x0⟩
abbrev BOOT_STATUS_IDENTITY_FAIL : Fld := ⟨0x00020000, 2, 1, 0x0⟩
abbrev BOOT_STATUS_STAGE : Fld := ⟨0x00020000, 0, 2, 0x0⟩
abbrev BOOT_FW_VERSION : Fld := ⟨0x00020004, 0, 32, 0x0⟩
abbrev BOOT_SEC_VERSION : Fld := ⟨0x00020008, 0, 32, 0x0⟩
abbrev BOOT_SEC_FLOOR : Fld := ⟨0x0002000C, 0, 32, 0x0⟩
abbrev BOOT_FLASH_INFO_SIZE_LOG2 : Fld := ⟨0x00020010, 16, 8, 0x0⟩
abbrev BOOT_FLASH_INFO_SFDP_OK : Fld := ⟨0x00020010, 0, 1, 0x0⟩
abbrev BOOT_FW_DIGEST : Fld := ⟨0x00020040, 0, 32, 0x4⟩
abbrev BOOT_CFG_DIGEST : Fld := ⟨0x00020080, 0, 32, 0x4⟩
abbrev BOOT_QUOTE_CMD_GO : Fld := ⟨0x00020100, 0, 1, 0x0⟩
abbrev BOOT_QUOTE_STATUS_BUSY : Fld := ⟨0x00020104, 31, 1, 0x0⟩
abbrev BOOT_QUOTE_STATUS_DONE : Fld := ⟨0x00020104, 30, 1, 0x0⟩
abbrev BOOT_QUOTE_STATUS_REFUSED : Fld := ⟨0x00020104, 29, 1, 0x0⟩
abbrev BOOT_QUOTE_STATUS_REASON : Fld := ⟨0x00020104, 0, 8, 0x0⟩
abbrev BOOT_NONCE : Fld := ⟨0x00020110, 0, 32, 0x4⟩
abbrev BOOT_QUOTE : Fld := ⟨0x00020400, 0, 32, 0x4⟩
abbrev DBG_TAP_STATUS_EXTEST : Fld := ⟨0x03F00000, 1, 1, 0x0⟩
abbrev DBG_TAP_STATUS_TCK_ACTIVE : Fld := ⟨0x03F00000, 0, 1, 0x0⟩

end Sys2Proof.Machine.F
end

