-- ==== Sys2Proof/Machine/Regs.lean ====
section
/-! DEFINITION. The register table: one row per register of the spec's register tables and register index (20_register_index.md
R480; the rules named beside each block), with the access type, reset value and change class of every field that is not
reserved (R5, R10, R12). A reset value that the spec takes from a table of its own, from configuration or from flash stands
as 0 here and is supplied by `specialReset` or by the command that loads it. -/
namespace Sys2Proof.Machine

/-- Registers of the ID block (R32). -/
def regsId : List RegInfo := [
  -- ID_PART
  ⟨0x00000000, 1, 0x4, 1, 0x0, none, false, .none, [⟨31, 24, .ro, 0x1, .none⟩, ⟨23, 16, .ro, 0x0, .none⟩, ⟨15, 0, .ro, 0x0, .none⟩]⟩,
  -- ID_GEN
  ⟨0x00000004, 1, 0x4, 1, 0x0, none, false, .none, [⟨15, 8, .ro, 0x0, .none⟩, ⟨7, 0, .ro, 0x1, .none⟩]⟩,
  -- ID_CAP0
  ⟨0x00000010, 1, 0x4, 1, 0x0, none, false, .none, [⟨12, 12, .ro, 0x0, .none⟩, ⟨11, 11, .ro, 0x0, .none⟩, ⟨10, 10, .ro, 0x0, .none⟩, ⟨9, 9, .ro, 0x0, .none⟩, ⟨8, 8, .ro, 0x0, .none⟩, ⟨7, 7, .ro, 0x0, .none⟩, ⟨6, 6, .ro, 0x0, .none⟩, ⟨5, 5, .ro, 0x0, .none⟩, ⟨4, 4, .ro, 0x0, .none⟩, ⟨3, 0, .ro, 0x0, .none⟩]⟩,
  -- ID_CAP1
  ⟨0x00000014, 1, 0x4, 1, 0x0, none, false, .none, [⟨20, 16, .ro, 0x18, .none⟩, ⟨15, 8, .ro, 0x0, .none⟩, ⟨6, 0, .ro, 0x40, .none⟩]⟩,
  -- ID_CAP2
  ⟨0x00000018, 1, 0x4, 1, 0x0, none, false, .none, [⟨12, 12, .ro, 0x1, .none⟩, ⟨11, 11, .ro, 0x1, .none⟩, ⟨10, 10, .ro, 0x1, .none⟩, ⟨9, 0, .ro, 0x3FF, .none⟩]⟩,
  -- ID_CAP3
  ⟨0x0000001C, 1, 0x4, 1, 0x0, none, false, .none, [⟨10, 10, .ro, 0x1, .none⟩, ⟨9, 9, .ro, 0x1, .none⟩, ⟨8, 5, .ro, 0xF, .none⟩, ⟨4, 4, .ro, 0x1, .none⟩, ⟨3, 3, .ro, 0x1, .none⟩, ⟨2, 2, .ro, 0x1, .none⟩, ⟨1, 1, .ro, 0x1, .none⟩, ⟨0, 0, .ro, 0x1, .none⟩]⟩]

/-- Registers of the SLU block (R62, R98, R125). -/
def regsSlu : List RegInfo := [
  -- SLU_TIME_LO
  ⟨0x00300400, 1, 0x4, 1, 0x0, none, false, .lo, [⟨31, 0, .ro, 0x0, .none⟩]⟩,
  -- SLU_TIME_HI
  ⟨0x00300404, 1, 0x4, 1, 0x0, none, false, .hi, [⟨31, 0, .ro, 0x0, .none⟩]⟩,
  -- SLU_TIME_CTL
  ⟨0x00300408, 1, 0x4, 1, 0x0, none, false, .none, [⟨4, 4, .wo, 0x0, .live⟩, ⟨3, 3, .rw, 0x0, .frozen⟩, ⟨2, 2, .rw, 0x1, .live⟩, ⟨1, 1, .rw, 0x0, .staged⟩, ⟨0, 0, .wo, 0x0, .live⟩]⟩,
  -- SLU_TIME_STATUS
  ⟨0x0030040C, 1, 0x4, 1, 0x0, none, false, .none, [⟨23, 16, .ro, 0x0, .none⟩, ⟨7, 7, .ro, 0x0, .none⟩, ⟨6, 6, .ro, 0x0, .none⟩, ⟨5, 5, .w1c, 0x0, .live⟩, ⟨4, 4, .w1c, 0x0, .live⟩, ⟨3, 0, .ro, 0x0, .none⟩]⟩,
  -- SLU_TIME_ERR
  ⟨0x00300410, 1, 0x4, 1, 0x0, none, false, .none, [⟨15, 0, .ro, 0xFFFF, .none⟩]⟩,
  -- SLU_HOLD_LIMIT
  ⟨0x00300414, 1, 0x4, 1, 0x0, none, false, .none, [⟨15, 0, .rw, 0x4B0, .staged⟩]⟩,
  -- SLU_HOLD_COEF
  ⟨0x00300418, 1, 0x4, 1, 0x0, none, false, .none, [⟨31, 16, .rw, 0xC8, .staged⟩, ⟨15, 0, .rw, 0xC8, .staged⟩]⟩,
  -- SLU_HOLD_COUNT
  ⟨0x0030041C, 1, 0x4, 1, 0x0, none, false, .none, [⟨31, 16, .rc, 0x0, .none⟩, ⟨15, 0, .rc, 0x0, .none⟩]⟩,
  -- SLU_TIME_SET_LO
  ⟨0x00300420, 1, 0x4, 1, 0x0, none, false, .lo, [⟨31, 0, .rw, 0x0, .live⟩]⟩,
  -- SLU_TIME_SET_HI
  ⟨0x00300424, 1, 0x4, 1, 0x0, none, false, .hi, [⟨31, 0, .rw, 0x0, .live⟩]⟩,
  -- SLU_CAPTURE_LO
  ⟨0x00300428, 1, 0x4, 1, 0x0, none, false, .lo, [⟨31, 0, .ro, 0x0, .none⟩]⟩,
  -- SLU_CAPTURE_HI
  ⟨0x0030042C, 1, 0x4, 1, 0x0, none, false, .hi, [⟨31, 0, .ro, 0x0, .none⟩]⟩,
  -- SLU_PPS_CAP_LO
  ⟨0x00300430, 1, 0x4, 1, 0x0, none, false, .lo, [⟨31, 0, .ro, 0x0, .none⟩]⟩,
  -- SLU_PPS_CAP_HI
  ⟨0x00300434, 1, 0x4, 1, 0x0, none, false, .hi, [⟨31, 0, .ro, 0x0, .none⟩]⟩,
  -- SLU_PPS_OFFSET
  ⟨0x00300438, 1, 0x4, 1, 0x0, none, false, .none, [⟨31, 0, .ro, 0x0, .none⟩]⟩,
  -- SLU_LINK_DELAY_n
  ⟨0x00300500, 32, 0x4, 1, 0x0, none, false, .none, [⟨31, 31, .ro, 0x0, .none⟩, ⟨30, 30, .ro, 0x0, .none⟩, ⟨23, 0, .ro, 0x0, .none⟩]⟩,
  -- SLU_PLAN_REGION_LO
  ⟨0x00300000, 1, 0x4, 1, 0x0, none, false, .lo, [⟨31, 0, .ro, 0x0, .none⟩]⟩,
  -- SLU_PLAN_REGION_HI
  ⟨0x00300004, 1, 0x4, 1, 0x0, none, false, .hi, [⟨31, 0, .ro, 0x0, .none⟩]⟩,
  -- SLU_PLAN_CMD
  ⟨0x00300008, 1, 0x4, 1, 0x0, none, false, .none, [⟨8, 8, .rw, 0x0, .live⟩, ⟨3, 3, .wo, 0x0, .live⟩, ⟨2, 2, .wo, 0x0, .live⟩, ⟨1, 1, .wo, 0x0, .live⟩, ⟨0, 0, .wo, 0x0, .live⟩]⟩,
  -- SLU_BANK_STATUS
  ⟨0x0030000C, 1, 0x4, 1, 0x0, none, false, .none, [⟨18, 18, .w1c, 0x0, .live⟩, ⟨17, 17, .w1c, 0x0, .live⟩, ⟨16, 16, .w1c, 0x0, .live⟩, ⟨9, 9, .ro, 0x0, .none⟩, ⟨8, 8, .ro, 0x0, .none⟩, ⟨7, 4, .ro, 0x0, .none⟩, ⟨3, 0, .ro, 0x0, .none⟩]⟩,
  -- SLU_PLAN_ID0_LO
  ⟨0x00300010, 1, 0x4, 1, 0x0, none, false, .lo, [⟨31, 0, .ro, 0x0, .none⟩]⟩,
  -- SLU_PLAN_ID0_HI
  ⟨0x00300014, 1, 0x4, 1, 0x0, none, false, .hi, [⟨31, 0, .ro, 0x0, .none⟩]⟩,
  -- SLU_PLAN_ID1_LO
  ⟨0x00300018, 1, 0x4, 1, 0x0, none, false, .lo, [⟨31, 0, .ro, 0x0, .none⟩]⟩,
  -- SLU_PLAN_ID1_HI
  ⟨0x0030001C, 1, 0x4, 1, 0x0, none, false, .hi, [⟨31, 0, .ro, 0x0, .none⟩]⟩]

/-- Registers of the SLU block (R62, R98, R125). -/
def regsSlu2 : List RegInfo := [
  -- SLU_REFUSE_CODE
  ⟨0x00300020, 1, 0x4, 1, 0x0, none, false, .none, [⟨24, 24, .ro, 0x0, .none⟩, ⟨23, 8, .ro, 0x0, .none⟩, ⟨7, 0, .ro, 0x0, .none⟩]⟩,
  -- SLU_REFUSE_WHERE
  ⟨0x00300024, 1, 0x4, 1, 0x0, none, false, .none, [⟨31, 28, .ro, 0x0, .none⟩, ⟨27, 0, .ro, 0x0, .none⟩]⟩,
  -- SLU_REFUSE_SLOT
  ⟨0x00300028, 1, 0x4, 1, 0x0, none, false, .none, [⟨16, 16, .ro, 0x0, .none⟩, ⟨15, 0, .ro, 0x0, .none⟩]⟩,
  -- SLU_REFUSE_NEED
  ⟨0x0030002C, 1, 0x4, 1, 0x0, none, false, .none, [⟨31, 0, .ro, 0x0, .none⟩]⟩,
  -- SLU_REFUSE_HAVE
  ⟨0x00300030, 1, 0x4, 1, 0x0, none, false, .none, [⟨31, 0, .ro, 0x0, .none⟩]⟩,
  -- SLU_TIDE_LO
  ⟨0x00300038, 1, 0x4, 1, 0x0, none, false, .lo, [⟨31, 0, .ro, 0x0, .none⟩]⟩,
  -- SLU_TIDE_HI
  ⟨0x0030003C, 1, 0x4, 1, 0x0, none, false, .hi, [⟨31, 0, .ro, 0x0, .none⟩]⟩,
  -- SLU_SLACK_NEXT_LO
  ⟨0x00300040, 1, 0x4, 1, 0x0, none, false, .lo, [⟨31, 0, .ro, 0xFFFFFFFF, .none⟩]⟩,
  -- SLU_SLACK_NEXT_HI
  ⟨0x00300044, 1, 0x4, 1, 0x0, none, false, .hi, [⟨31, 0, .ro, 0xFFFFFFFF, .none⟩]⟩,
  -- SLU_MAX_FLIGHT
  ⟨0x00300048, 1, 0x4, 1, 0x0, none, false, .none, [⟨31, 0, .ro, 0x0, .none⟩]⟩,
  -- SLU_EPOCH_DROP
  ⟨0x0030004C, 1, 0x4, 1, 0x0, none, false, .none, [⟨31, 0, .rc, 0x0, .none⟩]⟩,
  -- SLU_WAKE_CTL
  ⟨0x00300050, 1, 0x4, 1, 0x0, none, false, .none, [⟨16, 16, .rw, 0x1, .tide⟩, ⟨15, 0, .rw, 0x14, .tide⟩]⟩,
  -- SLU_LODE_SEL
  ⟨0x00300600, 1, 0x4, 1, 0x0, none, false, .none, [⟨31, 31, .rw, 0x0, .live⟩, ⟨13, 0, .rw, 0x0, .live⟩]⟩,
  -- SLU_LODE_STATUS
  ⟨0x00300604, 1, 0x4, 1, 0x0, some 0x00300600, false, .none, [⟨31, 31, .ro, 0x0, .none⟩, ⟨30, 30, .ro, 0x0, .none⟩, ⟨29, 29, .ro, 0x0, .none⟩, ⟨28, 28, .ro, 0x0, .none⟩, ⟨15, 0, .ro, 0x0, .none⟩]⟩,
  -- SLU_LODE_SEQ
  ⟨0x00300608, 1, 0x4, 1, 0x0, some 0x00300600, false, .none, [⟨31, 0, .ro, 0x0, .none⟩]⟩,
  -- SLU_LODE_UNKNOWN
  ⟨0x0030060C, 1, 0x4, 1, 0x0, none, false, .none, [⟨31, 0, .rc, 0x0, .none⟩]⟩,
  -- SLU_LODE_DUP
  ⟨0x00300610, 1, 0x4, 1, 0x0, none, false, .none, [⟨31, 0, .rc, 0x0, .none⟩]⟩,
  -- SLU_LODE_LOST
  ⟨0x00300614, 1, 0x4, 1, 0x0, none, false, .none, [⟨31, 0, .rc, 0x0, .none⟩]⟩,
  -- SLU_LODE_REFUSED
  ⟨0x00300618, 1, 0x4, 1, 0x0, none, false, .none, [⟨31, 0, .rc, 0x0, .none⟩]⟩]

/-- Registers of the QE block (R152, R368). -/
def regsQe : List RegInfo := [
  -- QE_CTL
  ⟨0x00400000, 1, 0x4, 1, 0x0, none, false, .none, [⟨15, 8, .rw, 0x2, .live⟩, ⟨4, 0, .rw, 0x10, .live⟩]⟩,
  -- QE_STATUS
  ⟨0x00400004, 1, 0x4, 1, 0x0, none, false, .none, [⟨2, 2, .w1c, 0x0, .live⟩, ⟨1, 1, .w1c, 0x0, .live⟩, ⟨0, 0, .ro, 0x0, .none⟩]⟩,
  -- QE_MAL_CAP
  ⟨0x00400008, 1, 0x4, 1, 0x0, none, false, .none, [⟨31, 31, .w1c, 0x0, .live⟩, ⟨27, 16, .ro, 0x0, .none⟩, ⟨15, 8, .ro, 0x0, .none⟩, ⟨7, 0, .ro, 0x0, .none⟩]⟩,
  -- QE_MAL_INDEX
  ⟨0x0040000C, 1, 0x4, 1, 0x0, none, false, .none, [⟨15, 0, .ro, 0x0, .none⟩]⟩,
  -- QE_HALT_i
  ⟨0x00400020, 8, 0x4, 1, 0x0, none, false, .none, [⟨31, 0, .ro, 0x0, .none⟩]⟩,
  -- QE_SQ_SEL
  ⟨0x00400100, 1, 0x4, 1, 0x0, none, true, .none, [⟨13, 0, .rw, 0x0, .live⟩]⟩,
  -- QE_CQ_SEL
  ⟨0x00400200, 1, 0x4, 1, 0x0, none, true, .none, [⟨13, 0, .rw, 0x0, .live⟩]⟩,
  -- QE_EQ_SEL
  ⟨0x00400300, 1, 0x4, 1, 0x0, none, true, .none, [⟨13, 0, .rw, 0x0, .live⟩]⟩,
  -- QE_RX_SEL
  ⟨0x00400400, 1, 0x4, 1, 0x0, none, true, .none, [⟨13, 0, .rw, 0x0, .live⟩]⟩,
  -- QE_SQ_BASE_LO
  ⟨0x00400104, 1, 0x4, 1, 0x0, some 0x00400100, false, .lo, [⟨31, 12, .rw, 0x0, .frozen⟩]⟩,
  -- QE_SQ_BASE_HI
  ⟨0x00400108, 1, 0x4, 1, 0x0, some 0x00400100, false, .hi, [⟨31, 0, .rw, 0x0, .frozen⟩]⟩,
  -- QE_CQ_BASE_LO
  ⟨0x00400204, 1, 0x4, 1, 0x0, some 0x00400200, false, .lo, [⟨31, 12, .rw, 0x0, .frozen⟩]⟩,
  -- QE_CQ_BASE_HI
  ⟨0x00400208, 1, 0x4, 1, 0x0, some 0x00400200, false, .hi, [⟨31, 0, .rw, 0x0, .frozen⟩]⟩,
  -- QE_EQ_BASE_LO
  ⟨0x00400304, 1, 0x4, 1, 0x0, some 0x00400300, false, .lo, [⟨31, 12, .rw, 0x0, .frozen⟩]⟩,
  -- QE_EQ_BASE_HI
  ⟨0x00400308, 1, 0x4, 1, 0x0, some 0x00400300, false, .hi, [⟨31, 0, .rw, 0x0, .frozen⟩]⟩,
  -- QE_SQ_CFG
  ⟨0x0040010C, 1, 0x4, 1, 0x0, some 0x00400100, false, .none, [⟨31, 31, .rw, 0x0, .live⟩, ⟨28, 24, .rw, 0x6, .frozen⟩, ⟨23, 16, .rw, 0x0, .frozen⟩, ⟨15, 8, .rw, 0x0, .frozen⟩]⟩,
  -- QE_CQ_CFG
  ⟨0x0040020C, 1, 0x4, 1, 0x0, some 0x00400200, false, .none, [⟨31, 31, .rw, 0x0, .live⟩, ⟨28, 24, .rw, 0x6, .frozen⟩, ⟨23, 16, .rw, 0x0, .frozen⟩, ⟨15, 8, .rw, 0x0, .frozen⟩]⟩,
  -- QE_EQ_CFG
  ⟨0x0040030C, 1, 0x4, 1, 0x0, some 0x00400300, false, .none, [⟨31, 31, .rw, 0x0, .live⟩, ⟨28, 24, .rw, 0x6, .frozen⟩, ⟨23, 16, .rw, 0x0, .frozen⟩, ⟨15, 8, .rw, 0x0, .frozen⟩]⟩,
  -- QE_SQ_CQ
  ⟨0x00400110, 1, 0x4, 1, 0x0, some 0x00400100, false, .none, [⟨11, 0, .rw, 0x0, .frozen⟩]⟩,
  -- QE_SQ_ARB
  ⟨0x00400114, 1, 0x4, 1, 0x0, some 0x00400100, false, .none, [⟨13, 8, .rw, 0x0, .live⟩, ⟨7, 0, .rw, 0x1, .live⟩]⟩,
  -- QE_SQ_STATUS
  ⟨0x00400118, 1, 0x4, 1, 0x0, some 0x00400100, false, .none, [⟨31, 31, .ro, 0x1, .none⟩, ⟨30, 30, .ro, 0x0, .none⟩, ⟨29, 29, .ro, 0x0, .none⟩, ⟨28, 28, .w1c, 0x0, .live⟩, ⟨27, 27, .ro, 0x1, .none⟩, ⟨23, 16, .ro, 0x0, .none⟩]⟩,
  -- QE_SQ_PTR
  ⟨0x0040011C, 1, 0x4, 1, 0x0, some 0x00400100, false, .none, [⟨31, 16, .ro, 0x0, .none⟩, ⟨15, 0, .ro, 0x0, .none⟩]⟩,
  -- QE_CQ_PTR
  ⟨0x00400210, 1, 0x4, 1, 0x0, some 0x00400200, false, .none, [⟨31, 16, .ro, 0x0, .none⟩, ⟨15, 0, .ro, 0x0, .none⟩]⟩,
  -- QE_EQ_PTR
  ⟨0x00400310, 1, 0x4, 1, 0x0, some 0x00400300, false, .none, [⟨31, 16, .ro, 0x0, .none⟩, ⟨15, 0, .ro, 0x0, .none⟩]⟩]

/-- Registers of the QE block (R152, R368). -/
def regsQe2 : List RegInfo := [
  -- QE_SQ_COUNT
  ⟨0x00400120, 1, 0x4, 1, 0x0, some 0x00400100, false, .none, [⟨31, 0, .ro, 0x0, .none⟩]⟩,
  -- QE_SQ_FAIL
  ⟨0x00400124, 1, 0x4, 1, 0x0, some 0x00400100, false, .none, [⟨31, 0, .ro, 0x0, .none⟩]⟩,
  -- QE_CQ_STATUS
  ⟨0x00400214, 1, 0x4, 1, 0x0, some 0x00400200, false, .none, [⟨31, 31, .ro, 0x0, .none⟩, ⟨30, 30, .w1c, 0x0, .live⟩, ⟨29, 29, .ro, 0x1, .none⟩]⟩,
  -- QE_EQ_STATUS
  ⟨0x00400314, 1, 0x4, 1, 0x0, some 0x00400300, false, .none, [⟨31, 31, .ro, 0x0, .none⟩, ⟨30, 30, .w1c, 0x0, .live⟩, ⟨29, 29, .ro, 0x1, .none⟩]⟩,
  -- QE_CQ_DROP
  ⟨0x00400218, 1, 0x4, 1, 0x0, some 0x00400200, false, .none, [⟨31, 0, .rc, 0x0, .none⟩]⟩,
  -- QE_EQ_LOST
  ⟨0x00400318, 1, 0x4, 1, 0x0, some 0x00400300, false, .none, [⟨31, 0, .rc, 0x0, .none⟩]⟩,
  -- QE_RX_BIND
  ⟨0x00400404, 1, 0x4, 1, 0x0, some 0x00400400, false, .none, [⟨31, 31, .rw, 0x0, .live⟩, ⟨11, 0, .rw, 0x0, .frozen⟩]⟩,
  -- QE_LEASE
  ⟨0x00401000, 1, 0x4, 1, 0x0, none, false, .none, [⟨15, 0, .rw, 0x64, .live⟩]⟩,
  -- QE_HERD_SEL
  ⟨0x00401004, 1, 0x4, 1, 0x0, none, true, .none, [⟨7, 0, .rw, 0x0, .live⟩]⟩,
  -- QE_HERD_CMD
  ⟨0x00401008, 1, 0x4, 1, 0x0, none, false, .none, [⟨31, 28, .wo, 0x0, .live⟩, ⟨1, 1, .wo, 0x0, .live⟩, ⟨0, 0, .wo, 0x0, .live⟩]⟩,
  -- QE_HERD_CMD_STATUS
  ⟨0x0040100C, 1, 0x4, 1, 0x0, none, false, .none, [⟨31, 31, .ro, 0x0, .none⟩, ⟨30, 30, .w1c, 0x0, .live⟩, ⟨29, 29, .w1c, 0x0, .live⟩, ⟨7, 0, .ro, 0x0, .none⟩]⟩,
  -- QE_HERD_SHARE_w
  ⟨0x00401010, 8, 0x4, 1, 0x0, none, true, .none, [⟨31, 0, .rw, 0x0, .live⟩]⟩,
  -- QE_HERD_USE_w
  ⟨0x00401030, 8, 0x4, 1, 0x0, some 0x00401004, false, .none, [⟨31, 0, .ro, 0x0, .none⟩]⟩,
  -- QE_HERD_STATUS
  ⟨0x00401050, 1, 0x4, 1, 0x0, some 0x00401004, false, .none, [⟨31, 28, .ro, 0x0, .none⟩, ⟨27, 27, .ro, 0x0, .none⟩, ⟨15, 0, .ro, 0x0, .none⟩]⟩,
  -- QE_HERD_BE
  ⟨0x00401054, 1, 0x4, 1, 0x0, some 0x00401004, false, .none, [⟨31, 24, .rw, 0x10, .refill⟩, ⟨23, 16, .rw, 0x40, .refill⟩, ⟨15, 0, .rw, 0x0, .refill⟩]⟩,
  -- QE_HERD_DB_PEER
  ⟨0x00401058, 1, 0x4, 1, 0x0, none, true, .none, [⟨15, 0, .rw, 0xFFFF, .live⟩]⟩,
  -- QE_PRIV
  ⟨0x0040105C, 1, 0x4, 1, 0x0, none, false, .none, [⟨15, 0, .ro, 0x0, .none⟩]⟩]

/-- Registers of the HERD block (R153, R368). -/
def regsHerd : List RegInfo := [
  -- HERD_SQ_DB_q
  ⟨0x00800000, 4096, 0x4, 256, 0x10000, none, false, .none, [⟨15, 0, .wo, 0x0, .live⟩]⟩,
  -- HERD_CQ_DB_c
  ⟨0x00804000, 4096, 0x4, 256, 0x10000, none, false, .none, [⟨15, 0, .wo, 0x0, .live⟩]⟩,
  -- HERD_EQ_DB
  ⟨0x00808000, 1, 0x4, 256, 0x10000, none, false, .none, [⟨15, 0, .wo, 0x0, .live⟩]⟩,
  -- HERD_Q_SEL
  ⟨0x00808010, 1, 0x4, 256, 0x10000, none, true, .none, [⟨11, 0, .rw, 0x0, .live⟩]⟩,
  -- HERD_Q_CTL
  ⟨0x00808014, 1, 0x4, 256, 0x10000, none, false, .none, [⟨0, 0, .rw, 0x0, .live⟩]⟩,
  -- HERD_Q_STATUS
  ⟨0x00808018, 1, 0x4, 256, 0x10000, none, false, .none, [⟨31, 0, .ro, 0x0, .none⟩]⟩,
  -- HERD_Q_COUNT
  ⟨0x0080801C, 1, 0x4, 256, 0x10000, none, false, .none, [⟨31, 0, .ro, 0x0, .none⟩]⟩,
  -- HERD_Q_FAIL
  ⟨0x00808020, 1, 0x4, 256, 0x10000, none, false, .none, [⟨31, 0, .ro, 0x0, .none⟩]⟩,
  -- HERD_INFO
  ⟨0x00809000, 1, 0x4, 256, 0x10000, none, false, .none, [⟨31, 28, .ro, 0x0, .none⟩, ⟨27, 27, .ro, 0x0, .none⟩, ⟨7, 0, .ro, 0x0, .none⟩]⟩,
  -- HERD_STATUS
  ⟨0x00809004, 1, 0x4, 256, 0x10000, none, false, .none, [⟨0, 0, .w1c, 0x0, .live⟩]⟩,
  -- HERD_SHARE_w
  ⟨0x00809010, 8, 0x4, 256, 0x10000, none, false, .none, [⟨31, 0, .ro, 0x0, .none⟩]⟩,
  -- HERD_USE_w
  ⟨0x00809030, 8, 0x4, 256, 0x10000, none, false, .none, [⟨31, 0, .ro, 0x0, .none⟩]⟩]

/-- Registers of the XLT block (R175). -/
def regsXlt : List RegInfo := [
  -- XLT_AS_SEL
  ⟨0x02000000, 1, 0x4, 1, 0x0, none, true, .none, [⟨15, 8, .rw, 0x0, .live⟩, ⟨7, 0, .rw, 0x0, .live⟩]⟩,
  -- XLT_AS_CFG
  ⟨0x02000004, 1, 0x4, 1, 0x0, some 0x02000000, false, .none, [⟨31, 31, .rw, 0x0, .live⟩, ⟨20, 16, .rw, 0x9, .frozen⟩, ⟨0, 0, .rw, 0x0, .live⟩]⟩,
  -- XLT_AS_ROOT_LO
  ⟨0x02000008, 1, 0x4, 1, 0x0, some 0x02000000, false, .lo, [⟨31, 12, .rw, 0x0, .frozen⟩]⟩,
  -- XLT_AS_ROOT_HI
  ⟨0x0200000C, 1, 0x4, 1, 0x0, some 0x02000000, false, .hi, [⟨31, 0, .rw, 0x0, .frozen⟩]⟩,
  -- XLT_DIRTY_BASE_LO
  ⟨0x02000010, 1, 0x4, 1, 0x0, some 0x02000000, false, .lo, [⟨31, 0, .rw, 0x0, .frozen⟩]⟩,
  -- XLT_DIRTY_BASE_HI
  ⟨0x02000014, 1, 0x4, 1, 0x0, some 0x02000000, false, .hi, [⟨31, 0, .rw, 0x0, .frozen⟩]⟩,
  -- XLT_DIRTY_VA_LO
  ⟨0x02000018, 1, 0x4, 1, 0x0, some 0x02000000, false, .lo, [⟨31, 0, .rw, 0x0, .frozen⟩]⟩,
  -- XLT_DIRTY_VA_HI
  ⟨0x0200001C, 1, 0x4, 1, 0x0, some 0x02000000, false, .hi, [⟨31, 0, .rw, 0x0, .frozen⟩]⟩,
  -- XLT_DIRTY_PAGES
  ⟨0x02000020, 1, 0x4, 1, 0x0, some 0x02000000, false, .none, [⟨31, 0, .rw, 0x0, .frozen⟩]⟩,
  -- XLT_DIRTY_MISS
  ⟨0x02000024, 1, 0x4, 1, 0x0, some 0x02000000, false, .none, [⟨31, 0, .rc, 0x0, .none⟩]⟩,
  -- XLT_HIT
  ⟨0x02000090, 1, 0x4, 1, 0x0, none, false, .none, [⟨31, 0, .rc, 0x0, .none⟩]⟩,
  -- XLT_MISS
  ⟨0x02000094, 1, 0x4, 1, 0x0, none, false, .none, [⟨31, 0, .rc, 0x0, .none⟩]⟩,
  -- XLT_INV
  ⟨0x02000040, 1, 0x4, 1, 0x0, none, false, .none, [⟨31, 31, .wo, 0x0, .live⟩, ⟨29, 28, .rw, 0x0, .live⟩, ⟨15, 8, .rw, 0x0, .live⟩, ⟨7, 0, .rw, 0x0, .live⟩]⟩,
  -- XLT_INV_VA_LO
  ⟨0x02000044, 1, 0x4, 1, 0x0, none, false, .lo, [⟨31, 12, .rw, 0x0, .live⟩]⟩,
  -- XLT_INV_VA_HI
  ⟨0x02000048, 1, 0x4, 1, 0x0, none, false, .hi, [⟨31, 0, .rw, 0x0, .live⟩]⟩,
  -- XLT_INV_PAGES
  ⟨0x0200004C, 1, 0x4, 1, 0x0, none, false, .none, [⟨31, 0, .rw, 0x0, .live⟩]⟩,
  -- XLT_DIRTY_CMD
  ⟨0x02000050, 1, 0x4, 1, 0x0, none, false, .none, [⟨31, 31, .wo, 0x0, .live⟩, ⟨23, 0, .rw, 0x0, .live⟩]⟩,
  -- XLT_DIRTY_FROM
  ⟨0x02000054, 1, 0x4, 1, 0x0, none, false, .none, [⟨31, 0, .rw, 0x0, .live⟩]⟩,
  -- XLT_DIRTY_DST_LO
  ⟨0x02000058, 1, 0x4, 1, 0x0, none, false, .lo, [⟨31, 0, .rw, 0x0, .live⟩]⟩,
  -- XLT_DIRTY_DST_HI
  ⟨0x0200005C, 1, 0x4, 1, 0x0, none, false, .hi, [⟨31, 0, .rw, 0x0, .live⟩]⟩,
  -- XLT_STATUS
  ⟨0x02000060, 1, 0x4, 1, 0x0, none, false, .none, [⟨20, 16, .ro, 0x0, .none⟩, ⟨5, 5, .w1c, 0x0, .live⟩, ⟨4, 4, .w1c, 0x0, .live⟩, ⟨3, 3, .w1c, 0x0, .live⟩, ⟨2, 2, .ro, 0x0, .none⟩, ⟨1, 1, .w1c, 0x0, .live⟩, ⟨0, 0, .ro, 0x0, .none⟩]⟩,
  -- XLT_FAULT_INFO
  ⟨0x02000080, 1, 0x4, 1, 0x0, none, false, .none, [⟨31, 31, .w1c, 0x0, .live⟩, ⟨27, 24, .ro, 0x0, .none⟩, ⟨23, 20, .ro, 0x0, .none⟩, ⟨19, 16, .ro, 0x0, .none⟩, ⟨15, 8, .ro, 0x0, .none⟩, ⟨7, 0, .ro, 0x0, .none⟩]⟩,
  -- XLT_FAULT_ADDR_LO
  ⟨0x02000084, 1, 0x4, 1, 0x0, none, false, .lo, [⟨31, 0, .ro, 0x0, .none⟩]⟩,
  -- XLT_FAULT_ADDR_HI
  ⟨0x02000088, 1, 0x4, 1, 0x0, none, false, .hi, [⟨31, 0, .ro, 0x0, .none⟩]⟩]

/-- Registers of the WIN block (R176). -/
def regsWin : List RegInfo := [
  -- WIN_TABLE_LO
  ⟨0x02100000, 1, 0x4, 1, 0x0, none, false, .lo, [⟨31, 0, .ro, 0x0, .none⟩]⟩,
  -- WIN_TABLE_HI
  ⟨0x02100004, 1, 0x4, 1, 0x0, none, false, .hi, [⟨31, 0, .ro, 0x0, .none⟩]⟩,
  -- WIN_CMD
  ⟨0x02100008, 1, 0x4, 1, 0x0, none, true, .none, [⟨31, 28, .wo, 0x0, .live⟩, ⟨19, 0, .wo, 0x0, .live⟩]⟩,
  -- WIN_CMD_STATUS
  ⟨0x0210000C, 1, 0x4, 1, 0x0, none, true, .none, [⟨31, 31, .ro, 0x0, .none⟩, ⟨30, 30, .w1c, 0x0, .live⟩, ⟨29, 29, .w1c, 0x0, .live⟩, ⟨7, 0, .ro, 0x0, .none⟩]⟩,
  -- WIN_ENTRY_w
  ⟨0x02100020, 8, 0x4, 1, 0x0, none, true, .none, [⟨31, 0, .rw, 0x0, .live⟩]⟩,
  -- WIN_ARRIVAL_LO
  ⟨0x02100040, 1, 0x4, 1, 0x0, none, false, .lo, [⟨31, 0, .ro, 0x0, .none⟩]⟩,
  -- WIN_ARRIVAL_HI
  ⟨0x02100044, 1, 0x4, 1, 0x0, none, false, .hi, [⟨31, 0, .ro, 0x0, .none⟩]⟩,
  -- WIN_STATUS
  ⟨0x02100048, 1, 0x4, 1, 0x0, none, false, .none, [⟨31, 16, .ro, 0x0, .none⟩, ⟨15, 0, .ro, 0x0, .none⟩]⟩,
  -- WIN_REFUSE_CLOSED
  ⟨0x02100050, 1, 0x4, 1, 0x0, none, false, .none, [⟨31, 0, .rc, 0x0, .none⟩]⟩,
  -- WIN_REFUSE_CONTEXT
  ⟨0x02100054, 1, 0x4, 1, 0x0, none, false, .none, [⟨31, 0, .rc, 0x0, .none⟩]⟩,
  -- WIN_REFUSE_BOUNDS
  ⟨0x02100058, 1, 0x4, 1, 0x0, none, false, .none, [⟨31, 0, .rc, 0x0, .none⟩]⟩]

/-- Registers of the CHU block (R204, R234). -/
def regsChu : List RegInfo := [
  -- CHU_CTL
  ⟨0x03000000, 1, 0x4, 1, 0x0, none, false, .none, [⟨1, 1, .rw, 0x0, .live⟩, ⟨0, 0, .rw, 0x1, .live⟩]⟩,
  -- CHU_STATUS
  ⟨0x03000004, 1, 0x4, 1, 0x0, none, false, .none, [⟨14, 8, .ro, 0x0, .none⟩, ⟨6, 0, .ro, 0x0, .none⟩]⟩,
  -- CHU_TILE_SEL
  ⟨0x03000010, 1, 0x4, 1, 0x0, none, true, .none, [⟨5, 0, .rw, 0x0, .live⟩]⟩,
  -- CHU_TILE_STATUS
  ⟨0x03000014, 1, 0x4, 1, 0x0, some 0x03000010, false, .none, [⟨31, 31, .ro, 0x0, .none⟩, ⟨30, 30, .ro, 0x0, .none⟩, ⟨29, 29, .ro, 0x0, .none⟩, ⟨28, 28, .ro, 0x0, .none⟩, ⟨15, 8, .ro, 0x0, .none⟩]⟩,
  -- CHU_SEED_LO
  ⟨0x03000018, 1, 0x4, 1, 0x0, some 0x03000010, false, .lo, [⟨31, 0, .rw, 0x0, .live⟩]⟩,
  -- CHU_SEED_HI
  ⟨0x0300001C, 1, 0x4, 1, 0x0, some 0x03000010, false, .hi, [⟨31, 0, .rw, 0x0, .live⟩]⟩,
  -- CHU_LAUNCH_CTR
  ⟨0x03000020, 1, 0x4, 1, 0x0, some 0x03000010, false, .none, [⟨23, 0, .ro, 0x0, .none⟩]⟩,
  -- CHU_EXC
  ⟨0x03000024, 1, 0x4, 1, 0x0, some 0x03000010, false, .none, [⟨5, 5, .w1c, 0x0, .live⟩, ⟨4, 4, .w1c, 0x0, .live⟩, ⟨3, 3, .w1c, 0x0, .live⟩, ⟨2, 2, .w1c, 0x0, .live⟩, ⟨1, 1, .w1c, 0x0, .live⟩, ⟨0, 0, .w1c, 0x0, .live⟩]⟩,
  -- CHU_RESIDUE
  ⟨0x03000028, 1, 0x4, 1, 0x0, some 0x03000010, false, .none, [⟨31, 16, .rc, 0x0, .none⟩, ⟨15, 0, .rc, 0x0, .none⟩]⟩,
  -- CHU_ECC
  ⟨0x0300002C, 1, 0x4, 1, 0x0, some 0x03000010, false, .none, [⟨31, 16, .rc, 0x0, .none⟩, ⟨15, 0, .rc, 0x0, .none⟩]⟩,
  -- CHU_PROG_SEL
  ⟨0x03000100, 1, 0x4, 1, 0x0, none, true, .none, [⟨9, 0, .rw, 0x0, .live⟩]⟩,
  -- CHU_PROG_CMD
  ⟨0x03000104, 1, 0x4, 1, 0x0, none, false, .none, [⟨31, 28, .wo, 0x0, .live⟩, ⟨15, 8, .wo, 0x0, .live⟩, ⟨7, 0, .wo, 0x0, .live⟩]⟩,
  -- CHU_PROG_ADDR_LO
  ⟨0x03000108, 1, 0x4, 1, 0x0, none, false, .lo, [⟨31, 12, .rw, 0x0, .live⟩]⟩,
  -- CHU_PROG_ADDR_HI
  ⟨0x0300010C, 1, 0x4, 1, 0x0, none, false, .hi, [⟨31, 0, .rw, 0x0, .live⟩]⟩,
  -- CHU_PROG_STATUS
  ⟨0x03000110, 1, 0x4, 1, 0x0, some 0x03000100, false, .none, [⟨31, 31, .ro, 0x0, .none⟩, ⟨30, 30, .w1c, 0x0, .live⟩, ⟨29, 29, .w1c, 0x0, .live⟩, ⟨28, 26, .ro, 0x0, .none⟩, ⟨23, 16, .ro, 0x0, .none⟩, ⟨15, 8, .ro, 0x0, .none⟩]⟩,
  -- CHU_PROG_INFO
  ⟨0x03000114, 1, 0x4, 1, 0x0, some 0x03000100, false, .none, [⟨31, 24, .ro, 0x0, .none⟩, ⟨23, 16, .ro, 0x0, .none⟩, ⟨15, 15, .ro, 0x0, .none⟩, ⟨9, 0, .ro, 0x0, .none⟩]⟩,
  -- CHU_STORE
  ⟨0x03000118, 1, 0x4, 1, 0x0, none, false, .none, [⟨31, 16, .ro, 0x400, .none⟩, ⟨9, 0, .ro, 0xB, .none⟩]⟩,
  -- CHU_LAUNCH_REFUSE
  ⟨0x0300011C, 1, 0x4, 1, 0x0, none, false, .none, [⟨31, 31, .w1c, 0x0, .live⟩, ⟨25, 16, .ro, 0x0, .none⟩, ⟨15, 8, .ro, 0x0, .none⟩, ⟨7, 0, .ro, 0x0, .none⟩]⟩,
  -- CHU_PROG_DIGEST_w
  ⟨0x03000120, 12, 0x4, 1, 0x0, some 0x03000100, false, .none, [⟨31, 0, .ro, 0x0, .none⟩]⟩,
  -- CHU_BUDGET_OVER
  ⟨0x03000150, 1, 0x4, 1, 0x0, none, false, .none, [⟨31, 0, .rc, 0x0, .none⟩]⟩,
  -- CHU_LAUNCHES
  ⟨0x03000154, 1, 0x4, 1, 0x0, none, false, .none, [⟨31, 0, .rc, 0x0, .none⟩]⟩]

/-- Registers of the COLL block (R262). -/
def regsColl : List RegInfo := [
  -- COLL_CTL
  ⟨0x03B00000, 1, 0x4, 1, 0x0, none, false, .none, [⟨15, 0, .rw, 0x32, .live⟩]⟩,
  -- COLL_STATUS
  ⟨0x03B00004, 1, 0x4, 1, 0x0, none, false, .none, [⟨15, 8, .ro, 0x0, .none⟩, ⟨7, 0, .ro, 0x0, .none⟩]⟩,
  -- COLL_SEL
  ⟨0x03B00010, 1, 0x4, 1, 0x0, none, true, .none, [⟨11, 0, .rw, 0x0, .live⟩]⟩,
  -- COLL_CMD
  ⟨0x03B00014, 1, 0x4, 1, 0x0, none, false, .none, [⟨31, 28, .wo, 0x0, .live⟩]⟩,
  -- COLL_CMD_STATUS
  ⟨0x03B00018, 1, 0x4, 1, 0x0, none, true, .none, [⟨31, 31, .ro, 0x0, .none⟩, ⟨30, 30, .w1c, 0x0, .live⟩, ⟨29, 29, .w1c, 0x0, .live⟩, ⟨7, 0, .ro, 0x0, .none⟩]⟩,
  -- COLL_DYN_w
  ⟨0x03B00020, 8, 0x4, 1, 0x0, none, true, .none, [⟨31, 0, .rw, 0x0, .live⟩]⟩,
  -- COLL_GEN_ARG
  ⟨0x03B00040, 1, 0x4, 1, 0x0, none, true, .none, [⟨31, 0, .rw, 0x0, .live⟩]⟩,
  -- COLL_GROUP_STATUS
  ⟨0x03B00044, 1, 0x4, 1, 0x0, some 0x03B00010, false, .none, [⟨31, 31, .ro, 0x0, .none⟩, ⟨30, 30, .ro, 0x0, .none⟩, ⟨29, 29, .ro, 0x0, .none⟩, ⟨27, 24, .ro, 0x0, .none⟩, ⟨23, 16, .ro, 0x0, .none⟩, ⟨9, 0, .ro, 0x0, .none⟩]⟩,
  -- COLL_GEN_NEXT
  ⟨0x03B00048, 1, 0x4, 1, 0x0, some 0x03B00010, false, .none, [⟨31, 0, .ro, 0x0, .none⟩]⟩,
  -- COLL_GEN_SEALED
  ⟨0x03B0004C, 1, 0x4, 1, 0x0, some 0x03B00010, false, .none, [⟨31, 0, .ro, 0x0, .none⟩]⟩,
  -- COLL_CRC_FAIL
  ⟨0x03B00050, 1, 0x4, 1, 0x0, some 0x03B00010, false, .none, [⟨31, 0, .rc, 0x0, .none⟩]⟩,
  -- COLL_REVOKES
  ⟨0x03B00054, 1, 0x4, 1, 0x0, some 0x03B00010, false, .none, [⟨31, 0, .rc, 0x0, .none⟩]⟩,
  -- COLL_ABORTS
  ⟨0x03B00058, 1, 0x4, 1, 0x0, some 0x03B00010, false, .none, [⟨31, 0, .rc, 0x0, .none⟩]⟩,
  -- COLL_CREDIT_STALL
  ⟨0x03B0005C, 1, 0x4, 1, 0x0, some 0x03B00010, false, .none, [⟨31, 0, .rc, 0x0, .none⟩]⟩]

/-- Registers of the CRM block (R287). -/
def regsCrm : List RegInfo := [
  -- CRM_CTL
  ⟨0x03800000, 1, 0x4, 1, 0x0, none, false, .none, [⟨0, 0, .rw, 0x1, .live⟩]⟩,
  -- CRM_GRAN_SEL
  ⟨0x03800010, 1, 0x4, 1, 0x0, none, true, .none, [⟨11, 0, .rw, 0x0, .live⟩]⟩,
  -- CRM_GRAN
  ⟨0x03800014, 1, 0x4, 1, 0x0, some 0x03800010, false, .none, [⟨31, 30, .ro, 0x0, .none⟩, ⟨29, 29, .ro, 0x0, .none⟩, ⟨7, 0, .ro, 0x0, .none⟩]⟩,
  -- CRM_GRAN_CMD
  ⟨0x03800018, 1, 0x4, 1, 0x0, none, false, .none, [⟨31, 28, .wo, 0x0, .live⟩, ⟨27, 20, .wo, 0x0, .live⟩, ⟨11, 0, .wo, 0x0, .live⟩]⟩,
  -- CRM_CMD_STATUS
  ⟨0x0380001C, 1, 0x4, 1, 0x0, none, false, .none, [⟨31, 31, .ro, 0x0, .none⟩, ⟨30, 30, .w1c, 0x0, .live⟩, ⟨29, 29, .w1c, 0x0, .live⟩, ⟨26, 8, .ro, 0x0, .none⟩, ⟨7, 0, .ro, 0x0, .none⟩]⟩,
  -- CRM_ECC
  ⟨0x03800020, 1, 0x4, 1, 0x0, none, false, .none, [⟨31, 16, .rc, 0x0, .none⟩, ⟨15, 0, .rc, 0x0, .none⟩]⟩]

/-- Registers of the PEAT block (R287, R288). -/
def regsPeat : List RegInfo := [
  -- PEAT_CMD_STATUS
  ⟨0x03980020, 1, 0x4, 1, 0x0, none, false, .none, [⟨31, 31, .ro, 0x0, .none⟩, ⟨30, 30, .w1c, 0x0, .live⟩, ⟨29, 29, .w1c, 0x0, .live⟩, ⟨26, 8, .ro, 0x0, .none⟩, ⟨7, 0, .ro, 0x0, .none⟩]⟩,
  -- PEAT_C_STATUS
  ⟨0x03900000, 24, 0x1000, 1, 0x0, none, false, .none, [⟨31, 31, .ro, 0x0, .none⟩, ⟨30, 30, .ro, 0x0, .none⟩, ⟨29, 29, .ro, 0x0, .none⟩, ⟨7, 0, .ro, 0x0, .none⟩]⟩,
  -- PEAT_C_SYMERR
  ⟨0x03900004, 24, 0x1000, 1, 0x0, none, false, .none, [⟨31, 0, .rc, 0x0, .none⟩]⟩,
  -- PEAT_STATUS
  ⟨0x03980000, 1, 0x4, 1, 0x0, none, false, .none, [⟨20, 16, .ro, 0x0, .none⟩, ⟨15, 15, .ro, 0x0, .none⟩, ⟨2, 2, .ro, 0x0, .none⟩, ⟨1, 1, .ro, 0x0, .none⟩, ⟨0, 0, .ro, 0x0, .none⟩]⟩,
  -- PEAT_CTL
  ⟨0x03980004, 1, 0x4, 1, 0x0, none, false, .none, [⟨15, 8, .rw, 0x8, .live⟩, ⟨1, 1, .rw, 0x1, .staged⟩, ⟨0, 0, .rw, 0x1, .live⟩]⟩,
  -- PEAT_GRAN_SEL
  ⟨0x03980010, 1, 0x4, 1, 0x0, none, true, .none, [⟨18, 0, .rw, 0x0, .live⟩]⟩,
  -- PEAT_GRAN
  ⟨0x03980014, 1, 0x4, 1, 0x0, some 0x03980010, false, .none, [⟨31, 0, .ro, 0x0, .none⟩]⟩,
  -- PEAT_GRAN_STAGE
  ⟨0x03980018, 1, 0x4, 1, 0x0, none, true, .none, [⟨31, 0, .rw, 0x0, .live⟩]⟩,
  -- PEAT_GRAN_CMD
  ⟨0x0398001C, 1, 0x4, 1, 0x0, none, false, .none, [⟨31, 28, .wo, 0x0, .live⟩, ⟨18, 0, .wo, 0x0, .live⟩]⟩,
  -- PEAT_CORR
  ⟨0x03980030, 1, 0x4, 1, 0x0, none, false, .none, [⟨31, 0, .rc, 0x0, .none⟩]⟩,
  -- PEAT_UNCORR
  ⟨0x03980034, 1, 0x4, 1, 0x0, none, false, .none, [⟨31, 0, .rc, 0x0, .none⟩]⟩,
  -- PEAT_MIR_SEL
  ⟨0x03980100, 1, 0x4, 1, 0x0, none, true, .none, [⟨5, 0, .rw, 0x0, .live⟩]⟩,
  -- PEAT_MIR_CMD
  ⟨0x03980104, 1, 0x4, 1, 0x0, none, false, .none, [⟨31, 28, .wo, 0x0, .live⟩]⟩,
  -- PEAT_MIR_STATUS
  ⟨0x03980108, 1, 0x4, 1, 0x0, some 0x03980100, false, .none, [⟨31, 28, .ro, 0x0, .none⟩, ⟨27, 27, .w1c, 0x0, .live⟩, ⟨26, 26, .ro, 0x0, .none⟩, ⟨25, 25, .w1c, 0x0, .live⟩, ⟨24, 24, .w1c, 0x0, .live⟩, ⟨7, 0, .ro, 0x0, .none⟩]⟩,
  -- PEAT_MIR_CFG_w
  ⟨0x03980120, 8, 0x4, 1, 0x0, some 0x03980100, false, .none, [⟨31, 0, .rw, 0x0, .frozen⟩]⟩,
  -- PEAT_MIR_SEQ_LO
  ⟨0x03980110, 1, 0x4, 1, 0x0, some 0x03980100, false, .lo, [⟨31, 0, .ro, 0x0, .none⟩]⟩,
  -- PEAT_MIR_SEQ_HI
  ⟨0x03980114, 1, 0x4, 1, 0x0, some 0x03980100, false, .hi, [⟨31, 0, .ro, 0x0, .none⟩]⟩,
  -- PEAT_MIR_EPOCH
  ⟨0x03980118, 1, 0x4, 1, 0x0, some 0x03980100, false, .none, [⟨31, 0, .ro, 0xFFFFFFFF, .none⟩]⟩,
  -- PEAT_MIR_PENDING
  ⟨0x0398011C, 1, 0x4, 1, 0x0, some 0x03980100, false, .none, [⟨31, 0, .ro, 0x0, .none⟩]⟩]

/-- Registers of the BEQ block (R308). -/
def regsBeq : List RegInfo := [
  -- BEQ_CTL
  ⟨0x02200000, 1, 0x4, 1, 0x0, none, false, .none, [⟨15, 8, .rw, 0x64, .live⟩, ⟨0, 0, .rw, 0x0, .live⟩]⟩,
  -- BEQ_STATUS
  ⟨0x02200004, 1, 0x4, 1, 0x0, none, false, .none, [⟨16, 0, .ro, 0x0, .none⟩]⟩,
  -- BEQ_CC_CTL
  ⟨0x02200010, 1, 0x4, 1, 0x0, none, false, .none, [⟨15, 8, .rw, 0xA, .live⟩]⟩,
  -- BEQ_CC_RATE
  ⟨0x02200014, 1, 0x4, 1, 0x0, none, false, .none, [⟨31, 16, .rw, 0x64, .refill⟩, ⟨15, 0, .rw, 0xA, .refill⟩]⟩,
  -- BEQ_RTX
  ⟨0x02200018, 1, 0x4, 1, 0x0, none, false, .none, [⟨31, 24, .rw, 0x7, .live⟩, ⟨23, 16, .rw, 0x7, .live⟩, ⟨15, 0, .rw, 0x64, .live⟩]⟩,
  -- BEQ_REFILL
  ⟨0x0220001C, 1, 0x4, 1, 0x0, none, false, .none, [⟨15, 0, .rw, 0x3E8, .refill⟩]⟩,
  -- BEQ_DROP
  ⟨0x02200020, 1, 0x4, 1, 0x0, none, false, .none, [⟨31, 0, .rc, 0x0, .none⟩]⟩,
  -- BEQ_DUP
  ⟨0x02200024, 1, 0x4, 1, 0x0, none, false, .none, [⟨31, 0, .rc, 0x0, .none⟩]⟩,
  -- BEQ_CURVE_ECN_i
  ⟨0x02200100, 32, 0x4, 1, 0x0, none, false, .none, [⟨31, 16, .rw, 0x0, .live⟩, ⟨15, 0, .rw, 0x0, .live⟩]⟩,
  -- BEQ_CURVE_RTT_j
  ⟨0x02200180, 32, 0x4, 1, 0x0, none, false, .none, [⟨31, 16, .rw, 0x0, .live⟩, ⟨15, 0, .rw, 0x0, .live⟩]⟩,
  -- BEQ_PORT_SCHED_p
  ⟨0x02200200, 32, 0x4, 1, 0x0, none, false, .none, [⟨23, 16, .rw, 0x10, .refill⟩, ⟨15, 8, .rw, 0x14, .refill⟩, ⟨0, 0, .rw, 0x0, .refill⟩]⟩,
  -- BEQ_PEER_SEL
  ⟨0x02200400, 1, 0x4, 1, 0x0, none, true, .none, [⟨7, 0, .rw, 0x0, .live⟩]⟩,
  -- BEQ_PEER_0
  ⟨0x02200404, 1, 0x4, 1, 0x0, some 0x02200400, false, .none, [⟨31, 1, .rw, 0x0, .frozen⟩, ⟨0, 0, .rw, 0x0, .live⟩]⟩,
  -- BEQ_PEER_w, w = 1..7
  ⟨0x02200408, 7, 0x4, 1, 0x0, some 0x02200400, false, .none, [⟨31, 0, .rw, 0x0, .frozen⟩]⟩,
  -- BEQ_QP_SEL
  ⟨0x02201000, 1, 0x4, 1, 0x0, none, true, .none, [⟨15, 0, .rw, 0x0, .live⟩]⟩,
  -- BEQ_QP_CFG_w
  ⟨0x02201004, 8, 0x4, 1, 0x0, some 0x02201000, false, .none, [⟨31, 0, .rw, 0x0, .frozen⟩]⟩,
  -- BEQ_QP_CMD
  ⟨0x02201024, 1, 0x4, 1, 0x0, none, false, .none, [⟨31, 28, .wo, 0x0, .live⟩]⟩,
  -- BEQ_QP_STATUS
  ⟨0x02201028, 1, 0x4, 1, 0x0, some 0x02201000, false, .none, [⟨31, 30, .ro, 0x0, .none⟩, ⟨29, 29, .w1c, 0x0, .live⟩, ⟨28, 28, .w1c, 0x0, .live⟩, ⟨27, 24, .ro, 0x0, .none⟩, ⟨23, 16, .ro, 0x0, .none⟩, ⟨14, 0, .ro, 0x0, .none⟩]⟩,
  -- BEQ_QP_RATE
  ⟨0x0220102C, 1, 0x4, 1, 0x0, some 0x02201000, false, .none, [⟨31, 0, .ro, 0x0, .none⟩]⟩,
  -- BEQ_QP_RTT
  ⟨0x02201030, 1, 0x4, 1, 0x0, some 0x02201000, false, .none, [⟨31, 16, .ro, 0x0, .none⟩, ⟨15, 0, .ro, 0x0, .none⟩]⟩,
  -- BEQ_QP_SAMPLE
  ⟨0x02201034, 1, 0x4, 1, 0x0, some 0x02201000, false, .none, [⟨31, 16, .ro, 0x0, .none⟩, ⟨15, 0, .ro, 0x0, .none⟩]⟩,
  -- BEQ_QP_HWM
  ⟨0x02201038, 1, 0x4, 1, 0x0, some 0x02201000, false, .none, [⟨31, 16, .rc, 0x0, .none⟩, ⟨15, 0, .rc, 0x0, .none⟩]⟩,
  -- BEQ_QP_RETX
  ⟨0x0220103C, 1, 0x4, 1, 0x0, some 0x02201000, false, .none, [⟨31, 0, .rc, 0x0, .none⟩]⟩,
  -- BEQ_QP_CE
  ⟨0x02201040, 1, 0x4, 1, 0x0, some 0x02201000, false, .none, [⟨31, 0, .rc, 0x0, .none⟩]⟩]

/-- Registers of the PORT block (R331). -/
def regsPort : List RegInfo := [
  -- PORT_CTL
  ⟨0x00100000, 1, 0x4, 32, 0x4000, none, false, .none, [⟨6, 6, .rw, 0x0, .frozen⟩, ⟨5, 4, .rw, 0x0, .frozen⟩, ⟨3, 3, .rw, 0x0, .live⟩, ⟨2, 2, .rw, 0x0, .live⟩, ⟨1, 1, .wo, 0x0, .live⟩, ⟨0, 0, .rw, 0x0, .live⟩]⟩,
  -- PORT_STATUS
  ⟨0x00100004, 1, 0x4, 32, 0x4000, none, false, .none, [⟨17, 17, .ro, 0x0, .none⟩, ⟨16, 16, .ro, 0x0, .none⟩, ⟨15, 8, .ro, 0x0, .none⟩, ⟨5, 4, .ro, 0x0, .none⟩, ⟨2, 0, .ro, 0x0, .none⟩]⟩,
  -- PORT_ROLE
  ⟨0x00100008, 1, 0x4, 32, 0x4000, none, false, .none, [⟨27, 16, .rw, 0x0, .frozen⟩, ⟨4, 4, .rw, 0x0, .frozen⟩, ⟨1, 0, .rw, 0x0, .frozen⟩]⟩,
  -- PORT_ETHERTYPE
  ⟨0x0010000C, 1, 0x4, 32, 0x4000, none, false, .none, [⟨15, 0, .rw, 0x88B5, .frozen⟩]⟩,
  -- PORT_MAC_LO
  ⟨0x00100010, 1, 0x4, 32, 0x4000, none, false, .lo, [⟨31, 0, .rw, 0x0, .frozen⟩]⟩,
  -- PORT_MAC_HI
  ⟨0x00100014, 1, 0x4, 32, 0x4000, none, false, .hi, [⟨15, 0, .rw, 0x0, .frozen⟩]⟩,
  -- PORT_FC
  ⟨0x00100018, 1, 0x4, 32, 0x4000, none, false, .none, [⟨14, 8, .rw, 0x7F, .refill⟩, ⟨1, 0, .rw, 0x1, .refill⟩]⟩,
  -- PORT_PFC_THRESH
  ⟨0x0010001C, 1, 0x4, 32, 0x4000, none, false, .none, [⟨31, 16, .rw, 0xC0, .refill⟩, ⟨15, 0, .rw, 0x80, .refill⟩]⟩,
  -- PORT_PAUSE_WD
  ⟨0x00100020, 1, 0x4, 32, 0x4000, none, false, .none, [⟨15, 0, .rw, 0xA, .live⟩]⟩,
  -- PORT_FEC_LIMIT
  ⟨0x00100024, 1, 0x4, 32, 0x4000, none, false, .none, [⟨31, 16, .rw, 0x3E8, .live⟩, ⟨15, 0, .rw, 0x8, .live⟩]⟩,
  -- PORT_CTX_i
  ⟨0x00100040, 16, 0x8, 32, 0x4000, none, false, .none, [⟨31, 31, .rw, 0x0, .live⟩, ⟨15, 0, .rw, 0x0, .frozen⟩]⟩,
  -- PORT_CTX_RKEY_i
  ⟨0x00100044, 16, 0x8, 32, 0x4000, none, false, .none, [⟨31, 0, .rw, 0x0, .frozen⟩]⟩,
  -- PORT_HASH_w
  ⟨0x00100100, 16, 0x4, 32, 0x4000, none, false, .none, [⟨31, 0, .rw, 0x0, .live⟩]⟩,
  -- PORT_UANTO_RES
  ⟨0x00100140, 1, 0x4, 32, 0x4000, none, false, .none, [⟨31, 16, .ro, 0x0, .none⟩, ⟨15, 0, .ro, 0x0, .none⟩]⟩,
  -- PORT_UANTO_PEER
  ⟨0x00100144, 1, 0x4, 32, 0x4000, none, false, .none, [⟨31, 16, .ro, 0x0, .none⟩, ⟨15, 0, .ro, 0x0, .none⟩]⟩,
  -- PORT_UANTO_CAPw
  ⟨0x00100150, 4, 0x4, 32, 0x4000, none, false, .none, [⟨31, 0, .ro, 0x0, .none⟩]⟩,
  -- PORT_UANTO_PCAPw
  ⟨0x00100160, 4, 0x4, 32, 0x4000, none, false, .none, [⟨31, 0, .ro, 0x0, .none⟩]⟩,
  -- PORT_DIAG_BASE_LO
  ⟨0x00100180, 1, 0x4, 32, 0x4000, none, false, .lo, [⟨31, 0, .rw, 0x0, .frozen⟩]⟩,
  -- PORT_DIAG_BASE_HI
  ⟨0x00100184, 1, 0x4, 32, 0x4000, none, false, .hi, [⟨31, 0, .rw, 0x0, .frozen⟩]⟩,
  -- PORT_DIAG_CFG
  ⟨0x00100188, 1, 0x4, 32, 0x4000, none, false, .none, [⟨3, 0, .rw, 0x0, .frozen⟩]⟩,
  -- PORT_DIAG_PTR
  ⟨0x0010018C, 1, 0x4, 32, 0x4000, none, false, .none, [⟨31, 16, .rw, 0x0, .live⟩, ⟨15, 0, .ro, 0x0, .none⟩]⟩,
  -- PORT_RX_FRAMES_LO
  ⟨0x00100200, 1, 0x4, 32, 0x4000, none, false, .lo, [⟨31, 0, .rc, 0x0, .none⟩]⟩,
  -- PORT_RX_FRAMES_HI
  ⟨0x00100204, 1, 0x4, 32, 0x4000, none, false, .hi, [⟨31, 0, .rc, 0x0, .none⟩]⟩,
  -- PORT_RX_BYTES_LO
  ⟨0x00100208, 1, 0x4, 32, 0x4000, none, false, .lo, [⟨31, 0, .rc, 0x0, .none⟩]⟩]

/-- Registers of the PORT block (R331). -/
def regsPort2 : List RegInfo := [
  -- PORT_RX_BYTES_HI
  ⟨0x0010020C, 1, 0x4, 32, 0x4000, none, false, .hi, [⟨31, 0, .rc, 0x0, .none⟩]⟩,
  -- PORT_TX_FRAMES_LO
  ⟨0x00100210, 1, 0x4, 32, 0x4000, none, false, .lo, [⟨31, 0, .rc, 0x0, .none⟩]⟩,
  -- PORT_TX_FRAMES_HI
  ⟨0x00100214, 1, 0x4, 32, 0x4000, none, false, .hi, [⟨31, 0, .rc, 0x0, .none⟩]⟩,
  -- PORT_TX_BYTES_LO
  ⟨0x00100218, 1, 0x4, 32, 0x4000, none, false, .lo, [⟨31, 0, .rc, 0x0, .none⟩]⟩,
  -- PORT_TX_BYTES_HI
  ⟨0x0010021C, 1, 0x4, 32, 0x4000, none, false, .hi, [⟨31, 0, .rc, 0x0, .none⟩]⟩,
  -- PORT_FEC_CORR
  ⟨0x00100220, 1, 0x4, 32, 0x4000, none, false, .none, [⟨31, 0, .rc, 0x0, .none⟩]⟩,
  -- PORT_FEC_UNCORR
  ⟨0x00100224, 1, 0x4, 32, 0x4000, none, false, .none, [⟨31, 0, .rc, 0x0, .none⟩]⟩,
  -- PORT_BAD_r
  ⟨0x00100244, 11, 0x4, 32, 0x4000, none, false, .none, [⟨31, 0, .rc, 0x0, .none⟩]⟩,
  -- PORT_PAUSE_WD_COUNT
  ⟨0x00100280, 1, 0x4, 32, 0x4000, none, false, .none, [⟨31, 0, .rc, 0x0, .none⟩]⟩,
  -- PORT_PAUSED_US
  ⟨0x00100284, 1, 0x4, 32, 0x4000, none, false, .none, [⟨31, 0, .rc, 0x0, .none⟩]⟩,
  -- PORT_DIAG_LOST
  ⟨0x00100288, 1, 0x4, 32, 0x4000, none, false, .none, [⟨31, 0, .rc, 0x0, .none⟩]⟩]

/-- Registers of the RTE block (R350). -/
def regsRte : List RegInfo := [
  -- RTE_MODULE
  ⟨0x00200000, 1, 0x4, 1, 0x0, none, false, .none, [⟨9, 0, .ro, 0x0, .none⟩]⟩,
  -- RTE_ARB
  ⟨0x00200004, 1, 0x4, 1, 0x0, none, false, .none, [⟨15, 8, .rw, 0x1, .refill⟩, ⟨7, 0, .rw, 0x1, .refill⟩]⟩,
  -- RTE_ECN
  ⟨0x00200008, 1, 0x4, 1, 0x0, none, false, .none, [⟨15, 0, .rw, 0x80, .live⟩]⟩,
  -- RTE_STATUS
  ⟨0x0020000C, 1, 0x4, 1, 0x0, none, false, .none, [⟨3, 3, .w1c, 0x0, .live⟩, ⟨2, 2, .ro, 0x0, .none⟩, ⟨1, 0, .ro, 0x0, .none⟩]⟩,
  -- RTE_IP6_w
  ⟨0x00200010, 4, 0x4, 1, 0x0, none, false, .none, [⟨31, 0, .rw, 0x0, .staged⟩]⟩,
  -- RTE_IP4
  ⟨0x00200020, 1, 0x4, 1, 0x0, none, false, .none, [⟨31, 0, .rw, 0x0, .staged⟩]⟩,
  -- RTE_ENTRY_SEL
  ⟨0x00200030, 1, 0x4, 1, 0x0, none, true, .none, [⟨17, 16, .rw, 0x0, .live⟩, ⟨9, 0, .rw, 0x0, .live⟩]⟩,
  -- RTE_ENTRY_LO
  ⟨0x00200034, 1, 0x4, 1, 0x0, some 0x00200030, false, .lo, [⟨31, 0, .rw, 0x0, .staged⟩]⟩,
  -- RTE_ENTRY_HI
  ⟨0x00200038, 1, 0x4, 1, 0x0, some 0x00200030, false, .hi, [⟨31, 0, .rw, 0x0, .staged⟩]⟩,
  -- RTE_POOL_ORIGIN
  ⟨0x00200040, 1, 0x4, 1, 0x0, none, false, .none, [⟨23, 16, .rw, 0x30, .frozen⟩, ⟨15, 8, .rw, 0x20, .frozen⟩, ⟨7, 0, .rw, 0x10, .frozen⟩]⟩,
  -- RTE_POOL_p
  ⟨0x00200100, 32, 0x8, 1, 0x0, none, false, .none, [⟨31, 16, .rw, 0x0, .frozen⟩, ⟨15, 0, .rw, 0x0, .frozen⟩]⟩,
  -- RTE_POOL2_p
  ⟨0x00200104, 32, 0x8, 1, 0x0, none, false, .none, [⟨15, 0, .rw, 0x0, .frozen⟩]⟩,
  -- RTE_SCHED_DROP
  ⟨0x00200050, 1, 0x4, 1, 0x0, none, false, .none, [⟨31, 0, .rc, 0x0, .none⟩]⟩,
  -- RTE_NO_ROUTE
  ⟨0x00200054, 1, 0x4, 1, 0x0, none, false, .none, [⟨31, 0, .rc, 0x0, .none⟩]⟩,
  -- RTE_EPOCH_DROP
  ⟨0x00200058, 1, 0x4, 1, 0x0, none, false, .none, [⟨31, 0, .rc, 0x0, .none⟩]⟩,
  -- RTE_EJECT_DROP
  ⟨0x0020005C, 1, 0x4, 1, 0x0, none, false, .none, [⟨31, 0, .rc, 0x0, .none⟩]⟩,
  -- RTE_CONTROL_DROP
  ⟨0x00200060, 1, 0x4, 1, 0x0, none, false, .none, [⟨31, 0, .rc, 0x0, .none⟩]⟩,
  -- RTE_P_DEPTH
  ⟨0x00201000, 1, 0x4, 32, 0x40, none, false, .none, [⟨31, 0, .ro, 0x0, .none⟩]⟩,
  -- RTE_P_DEPTH_HWM
  ⟨0x00201004, 1, 0x4, 32, 0x40, none, false, .none, [⟨31, 0, .rc, 0x0, .none⟩]⟩,
  -- RTE_P_FWD_FRAMES_LO
  ⟨0x00201008, 1, 0x4, 32, 0x40, none, false, .lo, [⟨31, 0, .rc, 0x0, .none⟩]⟩,
  -- RTE_P_FWD_FRAMES_HI
  ⟨0x0020100C, 1, 0x4, 32, 0x40, none, false, .hi, [⟨31, 0, .rc, 0x0, .none⟩]⟩,
  -- RTE_P_FWD_BYTES_LO
  ⟨0x00201010, 1, 0x4, 32, 0x40, none, false, .lo, [⟨31, 0, .rc, 0x0, .none⟩]⟩,
  -- RTE_P_FWD_BYTES_HI
  ⟨0x00201014, 1, 0x4, 32, 0x40, none, false, .hi, [⟨31, 0, .rc, 0x0, .none⟩]⟩,
  -- RTE_P_TRANSIT
  ⟨0x00201018, 1, 0x4, 32, 0x40, none, false, .none, [⟨31, 0, .rc, 0x0, .none⟩]⟩]

/-- Registers of the RTE block (R350). -/
def regsRte2 : List RegInfo := [
  -- RTE_P_STALL_PAUSE
  ⟨0x0020101C, 1, 0x4, 32, 0x40, none, false, .none, [⟨31, 0, .rc, 0x0, .none⟩]⟩,
  -- RTE_P_STALL_SLOT
  ⟨0x00201020, 1, 0x4, 32, 0x40, none, false, .none, [⟨31, 0, .rc, 0x0, .none⟩]⟩,
  -- RTE_P_CE
  ⟨0x00201024, 1, 0x4, 32, 0x40, none, false, .none, [⟨31, 0, .rc, 0x0, .none⟩]⟩,
  -- RTE_P_LANE_w
  ⟨0x00201028, 4, 0x4, 32, 0x40, none, false, .none, [⟨31, 16, .ro, 0x0, .none⟩, ⟨15, 0, .ro, 0x0, .none⟩]⟩]

/-- Registers of the TEL block (R351). -/
def regsTel : List RegInfo := [
  -- TEL_CTL
  ⟨0x03C00000, 1, 0x4, 1, 0x0, none, false, .none, [⟨1, 1, .w1c, 0x0, .live⟩, ⟨0, 0, .rw, 0x0, .live⟩]⟩,
  -- TEL_SNAP_AT_LO
  ⟨0x03C00008, 1, 0x4, 1, 0x0, none, false, .lo, [⟨31, 0, .rw, 0x0, .live⟩]⟩,
  -- TEL_SNAP_AT_HI
  ⟨0x03C0000C, 1, 0x4, 1, 0x0, none, false, .hi, [⟨31, 0, .rw, 0x0, .live⟩]⟩,
  -- TEL_SNAP_TIME_LO
  ⟨0x03C00010, 1, 0x4, 1, 0x0, none, false, .lo, [⟨31, 0, .ro, 0x0, .none⟩]⟩,
  -- TEL_SNAP_TIME_HI
  ⟨0x03C00014, 1, 0x4, 1, 0x0, none, false, .hi, [⟨31, 0, .ro, 0x0, .none⟩]⟩,
  -- TEL_RTE_P_DEPTH
  ⟨0x03C01000, 1, 0x4, 32, 0x40, none, false, .none, [⟨31, 0, .ro, 0x0, .none⟩]⟩,
  -- TEL_RTE_P_DEPTH_HWM
  ⟨0x03C01004, 1, 0x4, 32, 0x40, none, false, .none, [⟨31, 0, .ro, 0x0, .none⟩]⟩,
  -- TEL_RTE_P_FWD_FRAMES_LO
  ⟨0x03C01008, 1, 0x4, 32, 0x40, none, false, .lo, [⟨31, 0, .ro, 0x0, .none⟩]⟩,
  -- TEL_RTE_P_FWD_FRAMES_HI
  ⟨0x03C0100C, 1, 0x4, 32, 0x40, none, false, .hi, [⟨31, 0, .ro, 0x0, .none⟩]⟩,
  -- TEL_RTE_P_FWD_BYTES_LO
  ⟨0x03C01010, 1, 0x4, 32, 0x40, none, false, .lo, [⟨31, 0, .ro, 0x0, .none⟩]⟩,
  -- TEL_RTE_P_FWD_BYTES_HI
  ⟨0x03C01014, 1, 0x4, 32, 0x40, none, false, .hi, [⟨31, 0, .ro, 0x0, .none⟩]⟩,
  -- TEL_RTE_P_TRANSIT
  ⟨0x03C01018, 1, 0x4, 32, 0x40, none, false, .none, [⟨31, 0, .ro, 0x0, .none⟩]⟩,
  -- TEL_RTE_P_STALL_PAUSE
  ⟨0x03C0101C, 1, 0x4, 32, 0x40, none, false, .none, [⟨31, 0, .ro, 0x0, .none⟩]⟩,
  -- TEL_RTE_P_STALL_SLOT
  ⟨0x03C01020, 1, 0x4, 32, 0x40, none, false, .none, [⟨31, 0, .ro, 0x0, .none⟩]⟩,
  -- TEL_RTE_P_CE
  ⟨0x03C01024, 1, 0x4, 32, 0x40, none, false, .none, [⟨31, 0, .ro, 0x0, .none⟩]⟩,
  -- TEL_RTE_P_LANE_w
  ⟨0x03C01028, 4, 0x4, 32, 0x40, none, false, .none, [⟨31, 16, .ro, 0x0, .none⟩, ⟨15, 0, .ro, 0x0, .none⟩]⟩]

/-- Registers of the CIPH block (R391). -/
def regsCiph : List RegInfo := [
  -- CIPH_STATUS
  ⟨0x03A00000, 1, 0x4, 1, 0x0, none, false, .none, [⟨8, 8, .ro, 0x0, .none⟩, ⟨7, 4, .ro, 0x0, .none⟩, ⟨3, 0, .ro, 0xF, .none⟩]⟩,
  -- CIPH_AUTH_FAIL
  ⟨0x03A00004, 1, 0x4, 1, 0x0, none, false, .none, [⟨31, 0, .rc, 0x0, .none⟩]⟩,
  -- CIPH_EPOCH_DROP
  ⟨0x03A00008, 1, 0x4, 1, 0x0, none, false, .none, [⟨31, 0, .rc, 0x0, .none⟩]⟩,
  -- CIPH_PAGE_SEL
  ⟨0x03A00010, 1, 0x4, 1, 0x0, none, true, .none, [⟨9, 0, .rw, 0x0, .live⟩]⟩,
  -- CIPH_PAGE_CMD
  ⟨0x03A00014, 1, 0x4, 1, 0x0, none, true, .none, [⟨31, 28, .wo, 0x0, .live⟩, ⟨27, 24, .wo, 0x0, .live⟩, ⟨15, 8, .wo, 0x0, .live⟩, ⟨7, 0, .wo, 0x0, .live⟩]⟩,
  -- CIPH_PAGE_ADDR_LO
  ⟨0x03A00018, 1, 0x4, 1, 0x0, none, true, .lo, [⟨31, 7, .rw, 0x0, .live⟩]⟩,
  -- CIPH_PAGE_ADDR_HI
  ⟨0x03A0001C, 1, 0x4, 1, 0x0, none, true, .hi, [⟨31, 0, .rw, 0x0, .live⟩]⟩,
  -- CIPH_CMD_STATUS
  ⟨0x03A00020, 1, 0x4, 1, 0x0, none, true, .none, [⟨31, 31, .ro, 0x0, .none⟩, ⟨30, 30, .w1c, 0x0, .live⟩, ⟨29, 29, .w1c, 0x0, .live⟩, ⟨7, 0, .ro, 0x0, .none⟩]⟩,
  -- CIPH_PAGE_STATUS
  ⟨0x03A00024, 1, 0x4, 1, 0x0, some 0x03A00010, false, .none, [⟨31, 29, .ro, 0x0, .none⟩, ⟨28, 27, .ro, 0x0, .none⟩, ⟨26, 26, .ro, 0x0, .none⟩, ⟨25, 25, .ro, 0x0, .none⟩, ⟨24, 24, .ro, 0x0, .none⟩, ⟨23, 16, .ro, 0x0, .none⟩, ⟨15, 0, .ro, 0x0, .none⟩]⟩,
  -- CIPH_PAGE_USED_LO
  ⟨0x03A00028, 1, 0x4, 1, 0x0, some 0x03A00010, false, .lo, [⟨31, 0, .ro, 0x0, .none⟩]⟩,
  -- CIPH_PAGE_USED_HI
  ⟨0x03A0002C, 1, 0x4, 1, 0x0, some 0x03A00010, false, .hi, [⟨31, 0, .ro, 0x0, .none⟩]⟩,
  -- CIPH_PAGE_LIMIT
  ⟨0x03A00030, 1, 0x4, 1, 0x0, some 0x03A00010, false, .none, [⟨5, 0, .ro, 0x24, .none⟩]⟩,
  -- CIPH_PAGE_CHECK_CUR
  ⟨0x03A00034, 1, 0x4, 1, 0x0, some 0x03A00010, false, .none, [⟨31, 0, .ro, 0x0, .none⟩]⟩,
  -- CIPH_PAGE_CHECK_OTHER
  ⟨0x03A00038, 1, 0x4, 1, 0x0, some 0x03A00010, false, .none, [⟨31, 0, .ro, 0x0, .none⟩]⟩,
  -- CIPH_PAGE_REKEY_LO
  ⟨0x03A00040, 1, 0x4, 1, 0x0, some 0x03A00010, false, .lo, [⟨31, 0, .ro, 0x0, .none⟩]⟩,
  -- CIPH_PAGE_REKEY_HI
  ⟨0x03A00044, 1, 0x4, 1, 0x0, some 0x03A00010, false, .hi, [⟨31, 0, .ro, 0x0, .none⟩]⟩,
  -- CIPH_ENG_STATUS_e
  ⟨0x03A00100, 4, 0x10, 1, 0x0, none, false, .none, [⟨0, 0, .ro, 0x0, .none⟩, ⟨1, 1, .ro, 0x0, .none⟩]⟩,
  -- CIPH_ENG_RECOMPUTED_e
  ⟨0x03A00104, 4, 0x10, 1, 0x0, none, false, .none, [⟨31, 0, .rc, 0x0, .none⟩]⟩,
  -- CIPH_ENG_FENCES_e
  ⟨0x03A00108, 4, 0x10, 1, 0x0, none, false, .none, [⟨31, 0, .rc, 0x0, .none⟩]⟩]

/-- Registers of the FLT block (R406). -/
def regsFlt : List RegInfo := [
  -- FLT_CTL
  ⟨0x00030000, 1, 0x4, 1, 0x0, none, false, .none, [⟨1, 1, .rw, 0x1, .live⟩, ⟨0, 0, .rw, 0x0, .live⟩]⟩,
  -- FLT_STATUS
  ⟨0x00030004, 1, 0x4, 1, 0x0, none, false, .none, [⟨25, 16, .ro, 0x0, .none⟩, ⟨8, 0, .ro, 0x0, .none⟩]⟩,
  -- FLT_FLAGS
  ⟨0x00030008, 1, 0x4, 1, 0x0, none, false, .none, [⟨2, 2, .ro, 0x0, .none⟩, ⟨1, 1, .w1c, 0x0, .live⟩, ⟨0, 0, .w1c, 0x0, .live⟩]⟩,
  -- FLT_LINE_MASK
  ⟨0x0003000C, 1, 0x4, 1, 0x0, none, false, .none, [⟨3, 3, .rw, 0x0, .live⟩, ⟨2, 2, .rw, 0x0, .live⟩, ⟨1, 1, .rw, 0x1, .live⟩, ⟨0, 0, .rw, 0x1, .live⟩]⟩,
  -- FLT_Q_DATA_w
  ⟨0x00030010, 8, 0x4, 1, 0x0, none, false, .none, [⟨31, 0, .ro, 0x0, .none⟩]⟩,
  -- FLT_Q_POP
  ⟨0x00030030, 1, 0x4, 1, 0x0, none, false, .none, [⟨31, 0, .wo, 0x0, .live⟩]⟩,
  -- FLT_VIOL_COUNT
  ⟨0x00030034, 1, 0x4, 1, 0x0, none, false, .none, [⟨31, 0, .rc, 0x0, .none⟩]⟩,
  -- FLT_SRC_SEL
  ⟨0x00030040, 1, 0x4, 1, 0x0, none, true, .none, [⟨8, 0, .rw, 0x0, .live⟩]⟩,
  -- FLT_SRC_STATUS
  ⟨0x00030044, 1, 0x4, 1, 0x0, some 0x00030040, false, .none, [⟨31, 28, .ro, 0x0, .none⟩, ⟨27, 27, .ro, 0x0, .none⟩, ⟨26, 26, .ro, 0x0, .none⟩, ⟨25, 25, .ro, 0x0, .none⟩, ⟨23, 16, .ro, 0x0, .none⟩, ⟨15, 0, .ro, 0x0, .none⟩]⟩,
  -- FLT_CLASS_N
  ⟨0x00030048, 1, 0x4, 1, 0x0, some 0x00030040, false, .none, [⟨31, 16, .rw, 0x0, .staged⟩, ⟨15, 0, .rw, 0x0, .staged⟩]⟩,
  -- FLT_CLASS_WINDOW
  ⟨0x0003004C, 1, 0x4, 1, 0x0, some 0x00030040, false, .none, [⟨31, 0, .rw, 0x0, .staged⟩]⟩,
  -- FLT_CLASS_QUIET
  ⟨0x00030050, 1, 0x4, 1, 0x0, some 0x00030040, false, .none, [⟨31, 24, .rw, 0x0, .staged⟩, ⟨23, 0, .rw, 0x0, .staged⟩]⟩,
  -- FLT_SRC_CMD
  ⟨0x00030054, 1, 0x4, 1, 0x0, none, false, .none, [⟨31, 28, .wo, 0x0, .live⟩]⟩,
  -- FLT_SRC_OVF
  ⟨0x00030058, 1, 0x4, 1, 0x0, some 0x00030040, false, .none, [⟨31, 0, .rc, 0x0, .none⟩]⟩,
  -- FLT_SRC_EVENTS
  ⟨0x0003005C, 1, 0x4, 1, 0x0, some 0x00030040, false, .none, [⟨31, 0, .rc, 0x0, .none⟩]⟩,
  -- FLT_CAP_w
  ⟨0x00030060, 8, 0x4, 1, 0x0, some 0x00030040, false, .none, [⟨31, 0, .ro, 0x0, .none⟩]⟩,
  -- FLT_CAP_VALID
  ⟨0x00030080, 1, 0x4, 1, 0x0, some 0x00030040, false, .none, [⟨0, 0, .w1c, 0x0, .live⟩]⟩,
  -- FLT_SUMMARY_i
  ⟨0x00030100, 10, 0x4, 1, 0x0, none, false, .none, [⟨31, 0, .ro, 0x0, .none⟩]⟩]

/-- Registers of the CLK block (R429). -/
def regsClk : List RegInfo := [
  -- CLK_STATUS
  ⟨0x00010000, 1, 0x4, 1, 0x0, none, false, .none, [⟨11, 8, .ro, 0x0, .none⟩, ⟨5, 4, .ro, 0x1, .none⟩, ⟨3, 3, .ro, 0x0, .none⟩, ⟨2, 2, .ro, 0x1, .none⟩, ⟨1, 1, .ro, 0x0, .none⟩, ⟨0, 0, .ro, 0x1, .none⟩]⟩,
  -- CLK_PLL_k
  ⟨0x00010010, 8, 0x4, 1, 0x0, none, false, .none, [⟨15, 8, .ro, 0x0, .none⟩, ⟨3, 3, .ro, 0x0, .none⟩, ⟨2, 2, .ro, 0x0, .none⟩, ⟨1, 1, .ro, 0x0, .none⟩, ⟨0, 0, .ro, 0x0, .none⟩]⟩,
  -- CLK_DOM_SEL
  ⟨0x00010040, 1, 0x4, 1, 0x0, none, true, .none, [⟨5, 0, .rw, 0x0, .live⟩]⟩,
  -- CLK_DOM_STATUS
  ⟨0x00010044, 1, 0x4, 1, 0x0, some 0x00010040, false, .none, [⟨31, 31, .ro, 0x0, .none⟩, ⟨30, 30, .ro, 0x0, .none⟩, ⟨29, 29, .ro, 0x0, .none⟩, ⟨3, 0, .ro, 0xF, .none⟩]⟩,
  -- CLK_DOM_STARTS
  ⟨0x00010048, 1, 0x4, 1, 0x0, some 0x00010040, false, .none, [⟨31, 0, .rc, 0x0, .none⟩]⟩,
  -- CLK_IDLE
  ⟨0x00010050, 1, 0x4, 1, 0x0, none, false, .none, [⟨15, 0, .rw, 0x32, .live⟩]⟩,
  -- CLK_OSC_HOLD
  ⟨0x00010054, 1, 0x4, 1, 0x0, none, false, .none, [⟨31, 16, .rw, 0x4E20, .staged⟩, ⟨15, 0, .rw, 0x7D0, .staged⟩]⟩,
  -- CLK_TEMP
  ⟨0x00010060, 1, 0x4, 1, 0x0, none, false, .none, [⟨15, 8, .ro, 0x0, .none⟩, ⟨7, 0, .ro, 0x0, .none⟩]⟩,
  -- CLK_PWR
  ⟨0x00010064, 1, 0x4, 1, 0x0, none, false, .none, [⟨31, 16, .ro, 0x0, .none⟩, ⟨15, 0, .ro, 0x0, .none⟩]⟩,
  -- CLK_PWR_LIMIT
  ⟨0x00010068, 1, 0x4, 1, 0x0, none, false, .none, [⟨15, 0, .rw, 0x352, .live⟩]⟩,
  -- CLK_SERVICE
  ⟨0x0001006C, 1, 0x4, 1, 0x0, none, false, .none, [⟨0, 0, .wo, 0x0, .live⟩]⟩,
  -- CLK_RESET_CMD
  ⟨0x00010080, 1, 0x4, 1, 0x0, none, false, .none, [⟨31, 28, .wo, 0x0, .live⟩, ⟨15, 0, .wo, 0x0, .live⟩]⟩,
  -- CLK_RESET_CAUSE
  ⟨0x00010084, 1, 0x4, 1, 0x0, none, false, .none, [⟨6, 6, .ro, 0x0, .none⟩, ⟨5, 5, .ro, 0x0, .none⟩, ⟨4, 4, .ro, 0x0, .none⟩, ⟨3, 3, .ro, 0x0, .none⟩, ⟨2, 2, .ro, 0x0, .none⟩, ⟨1, 1, .ro, 0x0, .none⟩, ⟨0, 0, .ro, 0x0, .none⟩]⟩,
  -- CLK_BOOT
  ⟨0x00010088, 1, 0x4, 1, 0x0, none, false, .none, [⟨31, 31, .ro, 0x0, .none⟩, ⟨23, 8, .ro, 0x0, .none⟩, ⟨3, 0, .ro, 0x1, .none⟩]⟩]

/-- Registers of the CFG block (R454). -/
def regsCfg : List RegInfo := [
  -- CFG_STATUS
  ⟨0x00040000, 1, 0x4, 1, 0x0, none, false, .none, [⟨20, 10, .ro, 0x0, .none⟩, ⟨9, 9, .ro, 0x0, .none⟩, ⟨8, 8, .ro, 0x0, .none⟩, ⟨7, 7, .ro, 0x0, .none⟩, ⟨6, 6, .w1c, 0x0, .live⟩, ⟨5, 5, .w1c, 0x0, .live⟩, ⟨4, 4, .w1c, 0x0, .live⟩, ⟨3, 3, .w1c, 0x0, .live⟩, ⟨2, 0, .ro, 0x0, .none⟩]⟩,
  -- CFG_COMMIT
  ⟨0x00040004, 1, 0x4, 1, 0x0, none, false, .none, [⟨31, 28, .wo, 0x0, .live⟩]⟩,
  -- CFG_STAGE_ADDR
  ⟨0x00040008, 1, 0x4, 1, 0x0, none, false, .none, [⟨31, 0, .rw, 0x0, .live⟩]⟩,
  -- CFG_STAGE_DATA
  ⟨0x0004000C, 1, 0x4, 1, 0x0, none, false, .none, [⟨31, 0, .wo, 0x0, .live⟩]⟩,
  -- CFG_SHADOW_ADDR
  ⟨0x00040010, 1, 0x4, 1, 0x0, none, false, .none, [⟨31, 0, .rw, 0x0, .live⟩]⟩,
  -- CFG_SHADOW_DATA
  ⟨0x00040014, 1, 0x4, 1, 0x0, none, false, .none, [⟨31, 0, .ro, 0x0, .none⟩]⟩,
  -- CFG_REFUSE_ADDR
  ⟨0x00040018, 1, 0x4, 1, 0x0, none, false, .none, [⟨31, 0, .ro, 0x0, .none⟩]⟩,
  -- CFG_FROZEN_ADDR
  ⟨0x0004001C, 1, 0x4, 1, 0x0, none, false, .none, [⟨31, 0, .ro, 0x0, .none⟩]⟩,
  -- CFG_COMMITS
  ⟨0x00040020, 1, 0x4, 1, 0x0, none, false, .none, [⟨31, 0, .ro, 0x0, .none⟩]⟩,
  -- CFG_IMAGE
  ⟨0x00040024, 1, 0x4, 1, 0x0, none, false, .none, [⟨31, 16, .ro, 0x0, .none⟩, ⟨15, 8, .ro, 0x1, .none⟩, ⟨7, 0, .ro, 0x1, .none⟩]⟩]

/-- Registers of the FWU block (R455). -/
def regsFwu : List RegInfo := [
  -- FWU_CMD
  ⟨0x03D00000, 1, 0x4, 1, 0x0, none, false, .none, [⟨31, 28, .wo, 0x0, .live⟩, ⟨9, 9, .wo, 0x0, .live⟩, ⟨8, 8, .wo, 0x0, .live⟩]⟩,
  -- FWU_PIECES
  ⟨0x03D00004, 1, 0x4, 1, 0x0, none, false, .none, [⟨31, 0, .rw, 0x0, .live⟩]⟩,
  -- FWU_INDEX
  ⟨0x03D00008, 1, 0x4, 1, 0x0, none, false, .none, [⟨31, 0, .rw, 0x0, .live⟩]⟩,
  -- FWU_CRC
  ⟨0x03D0000C, 1, 0x4, 1, 0x0, none, false, .none, [⟨31, 0, .rw, 0x0, .live⟩]⟩,
  -- FWU_SRC_LO
  ⟨0x03D00010, 1, 0x4, 1, 0x0, none, false, .lo, [⟨31, 0, .rw, 0x0, .live⟩]⟩,
  -- FWU_SRC_HI
  ⟨0x03D00014, 1, 0x4, 1, 0x0, none, false, .hi, [⟨31, 0, .rw, 0x0, .live⟩]⟩,
  -- FWU_STATUS
  ⟨0x03D00018, 1, 0x4, 1, 0x0, none, false, .none, [⟨31, 31, .ro, 0x0, .none⟩, ⟨30, 30, .w1c, 0x0, .live⟩, ⟨29, 29, .w1c, 0x0, .live⟩, ⟨28, 28, .ro, 0x0, .none⟩, ⟨27, 27, .ro, 0x0, .none⟩, ⟨23, 16, .ro, 0x0, .none⟩, ⟨13, 0, .ro, 0x0, .none⟩]⟩,
  -- FWU_NEXT_MISSING
  ⟨0x03D0001C, 1, 0x4, 1, 0x0, none, false, .none, [⟨31, 0, .ro, 0x0, .none⟩]⟩,
  -- FWU_CRC_FAIL
  ⟨0x03D00020, 1, 0x4, 1, 0x0, none, false, .none, [⟨31, 0, .rc, 0x0, .none⟩]⟩,
  -- FWU_BUF_w
  ⟨0x03D01000, 1024, 0x4, 1, 0x0, none, true, .none, [⟨31, 0, .rw, 0x0, .live⟩]⟩]

/-- Registers of the BOOT block (R456). -/
def regsBoot : List RegInfo := [
  -- BOOT_STATUS
  ⟨0x00020000, 1, 0x4, 1, 0x0, none, false, .none, [⟨31, 28, .ro, 0x0, .none⟩, ⟨27, 24, .ro, 0x0, .none⟩, ⟨3, 3, .ro, 0x0, .none⟩, ⟨2, 2, .ro, 0x0, .none⟩, ⟨1, 0, .ro, 0x0, .none⟩]⟩,
  -- BOOT_FW_VERSION
  ⟨0x00020004, 1, 0x4, 1, 0x0, none, false, .none, [⟨31, 0, .ro, 0x0, .none⟩]⟩,
  -- BOOT_SEC_VERSION
  ⟨0x00020008, 1, 0x4, 1, 0x0, none, false, .none, [⟨31, 0, .ro, 0x0, .none⟩]⟩,
  -- BOOT_SEC_FLOOR
  ⟨0x0002000C, 1, 0x4, 1, 0x0, none, false, .none, [⟨31, 0, .ro, 0x0, .none⟩]⟩,
  -- BOOT_FLASH_INFO
  ⟨0x00020010, 1, 0x4, 1, 0x0, none, false, .none, [⟨23, 16, .ro, 0x0, .none⟩, ⟨0, 0, .ro, 0x0, .none⟩]⟩,
  -- BOOT_FW_DIGEST_w
  ⟨0x00020040, 12, 0x4, 1, 0x0, none, false, .none, [⟨31, 0, .ro, 0x0, .none⟩]⟩,
  -- BOOT_CFG_DIGEST_w
  ⟨0x00020080, 12, 0x4, 1, 0x0, none, false, .none, [⟨31, 0, .ro, 0x0, .none⟩]⟩,
  -- BOOT_QUOTE_CMD
  ⟨0x00020100, 1, 0x4, 1, 0x0, none, false, .none, [⟨0, 0, .wo, 0x0, .live⟩]⟩,
  -- BOOT_QUOTE_STATUS
  ⟨0x00020104, 1, 0x4, 1, 0x0, none, false, .none, [⟨31, 31, .ro, 0x0, .none⟩, ⟨30, 30, .w1c, 0x0, .live⟩, ⟨29, 29, .w1c, 0x0, .live⟩, ⟨7, 0, .ro, 0x0, .none⟩]⟩,
  -- BOOT_NONCE_w
  ⟨0x00020110, 8, 0x4, 1, 0x0, none, true, .none, [⟨31, 0, .rw, 0x0, .live⟩]⟩,
  -- BOOT_QUOTE_w
  ⟨0x00020400, 192, 0x4, 1, 0x0, none, true, .none, [⟨31, 0, .ro, 0x0, .none⟩]⟩]

/-- Registers of the DBG block (R479). -/
def regsDbg : List RegInfo := [
  -- DBG_TAP_STATUS
  ⟨0x03F00000, 1, 0x4, 1, 0x0, none, false, .none, [⟨1, 1, .ro, 0x0, .none⟩, ⟨0, 0, .ro, 0x0, .none⟩]⟩]

/-- The rows of the block in which an address lies (block map, 20_register_index.md R480). -/
def blockRegs (a : Nat) : List RegInfo :=
  if a < 0x00010000 then regsId
  else if a < 0x00020000 then regsClk
  else if a < 0x00030000 then regsBoot
  else if a < 0x00040000 then regsFlt
  else if a < 0x00100000 then regsCfg
  else if a < 0x00180000 then regsPort ++ regsPort2
  else if a < 0x00300000 then regsRte ++ regsRte2
  else if a < 0x00400000 then regsSlu ++ regsSlu2
  else if a < 0x00800000 then regsQe ++ regsQe2
  else if a < 0x01800000 then regsHerd
  else if a < 0x02100000 then regsXlt
  else if a < 0x02200000 then regsWin
  else if a < 0x03000000 then regsBeq
  else if a < 0x03800000 then regsChu
  else if a < 0x03900000 then regsCrm
  else if a < 0x03A00000 then regsPeat
  else if a < 0x03B00000 then regsCiph
  else if a < 0x03C00000 then regsColl
  else if a < 0x03D00000 then regsTel
  else if a < 0x03F00000 then regsFwu
  else if a < 0x04000000 then regsDbg
  else []

end Sys2Proof.Machine
end

