-- ==== Sys2Proof/Machine/Ops.lean ====
section
/-! DEFINITION. Named operations over the register file, the stores, time, free values and events, shared by every meaning. -/
namespace Sys2Proof.Machine

/-! ## Tables keyed by a number -/

/-- The value at a key. -/
def alGet {α : Type} : List (Nat × α) → Nat → Option α
  | [], _ => none
  | (k, v) :: r, a => if a = k then some v else alGet r a

/-- Sets the value at a key, keeping the keys in rising order. -/
def alPut {α : Type} : List (Nat × α) → Nat → α → List (Nat × α)
  | [], a, v => [(a, v)]
  | (k, w) :: r, a, v => if a = k then (a, v) :: r else if a < k then (a, v) :: (k, w) :: r else (k, w) :: alPut r a v

/-- Removes a key. -/
def alDel {α : Type} (l : List (Nat × α)) (a : Nat) : List (Nat × α) := l.filter (fun p => p.1 != a)

/-- The value at an index of a list, or the default. -/
def nthD {α : Type} (l : List α) (i : Nat) (d : α) : α := l.getD i d

/-! ## Named updates -/

namespace Mach

/-- Sets polder time. -/
def putPolder (m : Mach) (x : DWord) : Mach := { m with polder := x }

/-- Sets the rate correction. -/
def putRate (m : Mach) (x : Int) : Mach := { m with rate := x }

/-- Sets the index of the next free value. -/
def putFreeCtr (m : Mach) (x : Nat) : Mach := { m with freeCtr := x }

/-- Sets the register file. -/
def putRegs (m : Mach) (x : RegFile) : Mach := { m with regs := x }

/-- Sets the in-force values of Tide-class registers. -/
def putTideOld (m : Mach) (x : RegFile) : Mach := { m with tideOld := x }

/-- Sets the in-force values of Refill-class registers. -/
def putRefillOld (m : Mach) (x : RegFile) : Mach := { m with refillOld := x }

/-- Sets the latched HI halves. -/
def putLatch (m : Mach) (x : RegFile) : Mach := { m with latch := x }

/-- Sets the LO halves written. -/
def putShadow (m : Mach) (x : RegFile) : Mach := { m with shadow := x }

/-- Sets the value that the last read returned. -/
def putAnswer (m : Mach) (x : Word) : Mach := { m with answer := x }

/-- Sets the events not yet written. -/
def putEvq (m : Mach) (x : List Event) : Mach := { m with evq := x }

/-- Sets the fault collector. -/
def putFlt (m : Mach) (x : FltSt) : Mach := { m with flt := x }

/-- Sets whether the boot is halted. -/
def putHalted (m : Mach) (x : Bool) : Mach := { m with halted := x }

/-- Sets the schedule engine. -/
def putPlan (m : Mach) (x : PlanSt) : Mach := { m with plan := x }

/-- Sets the time function. -/
def putTm (m : Mach) (x : TimeSt) : Mach := { m with tm := x }

/-- Sets what has left the module. -/
def putSent (m : Mach) (x : List Out) : Mach := { m with sent := x }

/-- Sets whether the module runs on the frozen oscillator. -/
def putOnOscillator (m : Mach) (x : Bool) : Mach := { m with onOscillator := x }

/-- Sets the translation unit. -/
def putXlt (m : Mach) (x : XltSt) : Mach := { m with xlt := x }

/-- Sets the windows in CLOSING. -/
def putWinCloses (m : Mach) (x : List WinClose) : Mach := { m with winCloses := x }

/-- Sets the memory controllers. -/
def putMem (m : Mach) (x : MemSt) : Mach := { m with mem := x }

/-- Sets the queue engine. -/
def putQe (m : Mach) (x : QeSt) : Mach := { m with qe := x }

/-- Sets lodes. -/
def putLode (m : Mach) (x : LodeSt) : Mach := { m with lode := x }

/-- Sets the cipher block. -/
def putCiph (m : Mach) (x : CiphSt) : Mach := { m with ciph := x }

/-- Sets the best-effort engine. -/
def putBeq (m : Mach) (x : BeqSt) : Mach := { m with beq := x }

/-- Sets the router. -/
def putRte (m : Mach) (x : RteSt) : Mach := { m with rte := x }

/-- Sets the ports beyond their registers. -/
def putPorts (m : Mach) (x : List (Nat × PortSt)) : Mach := { m with ports := x }

/-- Sets the pending accesses through doorbell windows. -/
def putFabric (m : Mach) (x : List FabricOp) : Mach := { m with fabric := x }

/-- Sets clocks, power, reset and boot. -/
def putClk (m : Mach) (x : ClkSt) : Mach := { m with clk := x }

/-- Sets the ports that left UP. -/
def putDowns (m : Mach) (x : List Nat) : Mach := { m with downs := x }

/-- Sets the tiles fenced. -/
def putTileDowns (m : Mach) (x : List Nat) : Mach := { m with tileDowns := x }

/-- Sets Churn. -/
def putChu (m : Mach) (x : ChuSt) : Mach := { m with chu := x }

/-- Sets configuration, firmware update and attestation. -/
def putCfg (m : Mach) (x : CfgSt) : Mach := { m with cfg := x }

/-- Sets the collective groups. -/
def putColl (m : Mach) (x : CollSt) : Mach := { m with coll := x }

/-- Sets the herd reset under way. -/
def putHerdReset (m : Mach) (x : Option HerdReset) : Mach := { m with herdReset := x }

end Mach

/-! ## Register keys and reset values -/

/-- Span of the register space (00_scope.md R7: 64 MiB). -/
def regSpan : Nat := 0x04000000

/-- Key of the register at address `a` for selected element `s`. -/
def regKey (a s : Nat) : Nat := a + regSpan * s

/-- Distance between the management-port copy and the fabric-path copy of a register held separately for each path. -/
def fabricCopy : Nat := 2 ^ 70

/-- The row of the register table that an address belongs to, with the two indexes of the register. -/
def regInfo (a : Nat) : Option (RegInfo × Nat × Nat) :=
  (blockRegs a).findSome? fun r =>
    if a < r.base then none
    else
      let d := a - r.base
      let j := if r.count2 ≤ 1 then 0 else d / r.step2
      let e := if r.count2 ≤ 1 then d else d % r.step2
      let i := e / r.step
      if j < r.count2 ∧ i < r.count ∧ e % r.step = 0 then some (r, i, j) else none

/-- Default response curves of 11_best_effort_transport.md R303: ADD in bits 31..16, FACTOR in units of 1/32,768. -/
def curveReset (k : Nat) (rtt : Bool) : Nat :=
  if k = 0 ∨ (rtt ∧ k = 1) then 400 * 0x10000 + 0x8000
  else if rtt then (64 - (k - 1)) * 512 else (64 - k) * 512

/-- ID_PART, ID_CAP0 and ID_CAP1 of each order code (01_architecture.md R32). -/
def idReset (v : Variant) (a : Nat) : Option Nat :=
  match a, v with
  | 0x00, .zw960a => some 0x01410960
  | 0x00, .zw960b => some 0x01420960
  | 0x00, .zw940a => some 0x01410940
  | 0x00, .zw920a => some 0x01410920
  | 0x10, .zw960a => some 0x00001FF4
  | 0x10, .zw960b => some 0x00001FF4
  | 0x10, .zw940a => some 0x00001C74
  | 0x10, .zw920a => some 0x00001FC0
  | 0x14, .zw960b => some 0x00181040
  | 0x14, _ => some 0x00182040
  | _, _ => none

/-- Fault source class entry of 16_faults.md R398: N_DEG, N_SEV, WINDOW in ms, QUIET in ms, LIMIT. -/
def classReset (s : Nat) : Nat × Nat × Nat × Nat × Nat :=
  if s < 64 then (1, 8, 1000, 10000, 4)
  else if s < 128 then (4, 16, 1000, 10000, 3)
  else if s < 192 then (64, 256, 3600000, 10000, 3)
  else if s < 256 then (64, 256, 3600000, 600000, 2)
  else if s < 280 then (256, 4096, 3600000, 0, 0)
  else if s < 284 then (1, 8, 1000, 10000, 3)
  else if s < 292 then (1, 4, 3600000, 10000, 3)
  else if s < 300 then (1, 1, 1000, 10000, 4)
  else (1, 16, 1000, 10000, 255)

/-- Reset values that the spec takes from a table of its own: the curves of R303, the default pools of 13_routing_deadlock.md
R343 (for the role map of the defaults, 32 FABRIC ports, R436) and the classes of R398. -/
def specialReset (a s : Nat) : Option Nat :=
  if 0x02200100 ≤ a ∧ a < 0x02200180 then some (curveReset ((a - 0x02200100) / 4) false)
  else if 0x02200180 ≤ a ∧ a < 0x02200200 then some (curveReset ((a - 0x02200180) / 4) true)
  else if 0x00200100 ≤ a ∧ a < 0x00200200 then some (if a % 8 = 0 then 256 * 0x10000 + 96 else 64)
  else if a = 0x00030048 then some ((classReset s).2.1 * 0x10000 + (classReset s).1)
  else if a = 0x0003004C then some (classReset s).2.2.1
  else if a = 0x00030050 then some ((classReset s).2.2.2.2 * 0x1000000 + (classReset s).2.2.2.1)
  else if a = 0x03980118 then some 0xFFFFFFFF
  else none

/-- Reset value of the register at an address for a selected element: its fields' reset values in their places (R10, R32). -/
def regReset (v : Variant) (key : Nat) : Word :=
  let k := key % fabricCopy
  let a := k % regSpan
  let s := k / regSpan
  match idReset v a with
  | some n => BitVec.ofNat 32 n
  | none =>
    match specialReset a s with
    | some n => BitVec.ofNat 32 n
    | none =>
      match regInfo a with
      | some (r, _, _) => BitVec.ofNat 32 (r.fields.foldl (fun n f => n + f.reset * 2 ^ f.lo) 0)
      | none => 0

/-! ## Fields -/

/-- Bits `lo` up, `wd` of them, of a number. -/
def getBits (n lo wd : Nat) : Nat := n / 2 ^ lo % 2 ^ wd

/-- A number with bits `lo` up, `wd` of them, replaced. -/
def putBits (n lo wd v : Nat) : Nat :=
  2 ^ (lo + wd) * (n / 2 ^ (lo + wd)) + (2 ^ lo * (v % 2 ^ wd) + n % 2 ^ lo)

namespace Mach

/-- Value of the register at a key. -/
def reg (m : Mach) (key : Nat) : Word := (alGet m.regs key).getD (regReset m.variant key)

/-- Sets the register at a key. -/
def setReg (m : Mach) (key : Nat) (w : Word) : Mach := { m with regs := alPut m.regs key w }

/-- Key of a field's register: index `i` of an indexed register, selected element `s`. -/
def fkey (f : Fld) (i s : Nat) : Nat := regKey (f.addr + f.step * i) s

/-- Value of a field. -/
def get (m : Mach) (f : Fld) (i : Nat := 0) (s : Nat := 0) : Nat := getBits (m.reg (fkey f i s)).toNat f.lo f.wd

/-- Sets a field. A value too large for the field keeps its low bits. -/
def set (m : Mach) (f : Fld) (v : Nat) (i : Nat := 0) (s : Nat := 0) : Mach :=
  m.setReg (fkey f i s) (BitVec.ofNat 32 (putBits (m.reg (fkey f i s)).toNat f.lo f.wd v))

/-- Whether a one-bit field is set. -/
def bit (m : Mach) (f : Fld) (i : Nat := 0) (s : Nat := 0) : Bool := m.get f i s != 0

/-- Counts up in a field, stopping at the field's largest value. -/
def inc (m : Mach) (f : Fld) (by' : Nat := 1) (i : Nat := 0) (s : Nat := 0) : Mach :=
  m.set f (min (m.get f i s + by') (2 ^ f.wd - 1)) i s

/-- The 64-bit value of the pair whose LO half is a given field. -/
def get64 (m : Mach) (f : Fld) (i : Nat := 0) (s : Nat := 0) : Nat :=
  (m.reg (fkey f i s)).toNat + 2 ^ 32 * (m.reg (fkey f i s + 4)).toNat

/-- Sets both halves of a pair. -/
def set64 (m : Mach) (f : Fld) (v : Nat) (i : Nat := 0) (s : Nat := 0) : Mach :=
  (m.setReg (fkey f i s) (BitVec.ofNat 32 v)).setReg (fkey f i s + 4) (BitVec.ofNat 32 (v / 2 ^ 32))

/-- Counts up in a 64-bit pair, stopping at its largest value. -/
def inc64 (m : Mach) (f : Fld) (by' : Nat) (i : Nat := 0) (s : Nat := 0) : Mach :=
  m.set64 f (min (m.get64 f i s + by') (2 ^ 64 - 1)) i s

end Mach

/-- Offset of the keys of a path's own copies (R8). -/
def pathOff : Path → Nat
  | .mgmt => 0
  | .fabric _ => fabricCopy

/-- Value of a register that each path holds for itself, seen by a path. -/
def Mach.getP (m : Mach) (p : Path) (f : Fld) (i : Nat := 0) : Nat :=
  getBits (m.reg (pathOff p + Mach.fkey f i 0)).toNat f.lo f.wd

/-- Sets a field of a register that each path holds for itself. -/
def Mach.setP (m : Mach) (p : Path) (f : Fld) (v : Nat) (i : Nat := 0) : Mach :=
  let k := pathOff p + Mach.fkey f i 0
  m.setReg k (BitVec.ofNat 32 (putBits (m.reg k).toNat f.lo f.wd v))

/-- Base address of the herd page of a herd (20_register_index.md, HERD h). -/
def herdPage (h : Nat) : Nat := 0x00800000 + 0x10000 * h

/-- The alias of a block register on herd pages (14_herds.md R359): page offset of the alias of the register at an address. -/
def aliasOff (a : Nat) : Nat :=
  if 0x02000000 ≤ a ∧ a < 0x02100000 then 0x9100 + (a - 0x02000000)
  else if 0x02100000 ≤ a ∧ a < 0x02200000 then 0x9200 + (a - 0x02100000)
  else if 0x03000000 ≤ a ∧ a < 0x03000100 then 0x9300 + (a - 0x03000000)
  else if 0x03000100 ≤ a ∧ a < 0x03800000 then 0x9400 + (a - 0x03000100)
  else if 0x03B00000 ≤ a ∧ a < 0x03C00000 then 0x9500 + (a - 0x03B00000)
  else if 0x02200000 ≤ a ∧ a < 0x03000000 then 0x9600 + (a - 0x02201000)
  else 0x9700 + (a - 0x00400300)

/-- Key of a register that each path and each herd page holds for itself (R358, R359). -/
def viaKey (v : Via) (f : Fld) (i : Nat := 0) : Nat :=
  match v.page with
  | none => pathOff v.path + Mach.fkey f i 0
  | some h => pathOff v.path + (herdPage h + aliasOff (f.addr + f.step * i))

/-- Value of a register held per path and page, as an access sees it. -/
def Mach.getV (m : Mach) (v : Via) (f : Fld) (i : Nat := 0) : Nat :=
  getBits (m.reg (viaKey v f i)).toNat f.lo f.wd

/-- Sets a field of a register held per path and page. -/
def Mach.setV (m : Mach) (v : Via) (f : Fld) (n : Nat) (i : Nat := 0) : Mach :=
  m.setReg (viaKey v f i) (BitVec.ofNat 32 (putBits (m.reg (viaKey v f i)).toNat f.lo f.wd n))

/-! ## Time -/

/-- Local units in a nanosecond, a microsecond and a millisecond (R40: 62.5 ps a unit). -/
def ns : Nat := 16
def us : Nat := 16000
def ms : Nat := 16000000

/-- Local time moves to `t`, if that is later; polder time moves with it at the corrected rate (R41). -/
def Mach.advance (m : Mach) (t : Nat) : Mach :=
  let dt := t - m.now
  let acc := m.rateRem + (dt : Int) * m.rate
  { m with
    now := m.now + dt
    polder := m.polder + BitVec.ofInt 64 ((dt : Int) + acc / 1000000000)
    rateRem := acc % 1000000000 }

/-- The lease period in units (14_herds.md R367: QE_LEASE.MS, 0 acts as 1). -/
def Mach.lease (m : Mach) : Nat := max 1 (m.get F.QE_LEASE_MS) * ms

/-- The lease period of a wait that began at a local time: what QE_LEASE held then (14_herds.md R367). -/
def Mach.leaseAt (m : Mach) (since : Nat) : Nat :=
  match m.leases.find? (fun p => since < p.1) with
  | some p => p.2
  | none => m.lease

/-! ## Free values -/

/-- Takes the next free value. -/
def Mach.fresh (m : Mach) : BitVec 64 × Mach := (Config.free m.freeCtr, m.putFreeCtr (m.freeCtr + 1))

/-- Takes the next free two-way outcome. -/
def Mach.freshBit (m : Mach) : Bool × Mach := (Config.freeBit m.freeCtr, m.putFreeCtr (m.freeCtr + 1))

/-! ## Stores -/

/-- A byte of a store. -/
def memGet (mem : Memory) (a : Nat) : Byte := (alGet mem a).getD 0

/-- Writes a byte, keeping the canonical form: a zero byte is not listed. -/
def memPut : Memory → Nat → Byte → Memory
  | [], a, b => if b = 0 then [] else [(a, b)]
  | (k, w) :: r, a, b =>
    if a < k then if b = 0 then (k, w) :: r else (a, b) :: (k, w) :: r
    else if a = k then if b = 0 then r else (a, b) :: r
    else (k, w) :: memPut r a b

/-- Writes bytes from an address up. -/
def memWrite (mem : Memory) (a : Nat) : List Byte → Memory
  | [] => mem
  | b :: bs => memWrite (memPut mem a b) (a + 1) bs

/-- Sets a range to zero. -/
def memZero (mem : Memory) (lo len : Nat) : Memory := mem.filter (fun c => c.1 < lo || lo + len ≤ c.1)

/-- The canonical form: addresses strictly rising and no zero byte listed. -/
def Memory.wf : Memory → Bool
  | [] => true
  | [(_, b)] => b != 0
  | (a, b) :: (c, d) :: r => a < c && b != 0 && Memory.wf ((c, d) :: r)

/-- Applies a change to the store it names. -/
def MemOp.apply (st : Store) (mem : Memory) (op : MemOp) : Memory :=
  match op with
  | .bytes s a d => if s = st then memWrite mem a d else mem
  | .zero s lo len => if s = st then memZero mem lo len else mem

/-- The byte that a change puts at an address, if it reaches it. -/
def MemOp.at (op : MemOp) (st : Store) (a : Nat) : Option Byte :=
  match op with
  | .bytes s lo d => if s = st ∧ lo ≤ a then d[a - lo]? else none
  | .zero s lo len => if s = st ∧ lo ≤ a ∧ a < lo + len then some 0 else none

namespace Mach

/-- A store as it stood when the command began. -/
def base (m : Mach) : Store → Memory
  | .peat => m.peat
  | .cream => m.cream
  | .tsram => m.tsram
  | .flash => m.flash

/-- A byte of a store, with the running command's own changes seen. -/
def rd (m : Mach) (st : Store) (a : Nat) : Byte :=
  (m.wr.findSome? (fun op => op.at st a)).getD (memGet (m.base st) a)

/-- Bytes of a store. -/
def rdBytes (m : Mach) (st : Store) (a n : Nat) : List Byte := (List.range n).map (fun i => m.rd st (a + i))

/-- Writes bytes to a store. -/
def wrBytes (m : Mach) (st : Store) (a : Nat) (d : List Byte) : Mach := { m with wr := .bytes st a d :: m.wr }

/-- Sets a range of a store to zero. -/
def wrZero (m : Mach) (st : Store) (lo len : Nat) : Mach := { m with wr := .zero st lo len :: m.wr }

end Mach

/-- A number from bytes, least significant first (00_scope.md: little-endian). -/
def leNat : List Byte → Nat
  | [] => 0
  | b :: r => b.toNat + 256 * leNat r

/-- The `n` low bytes of a number, least significant first. -/
def leBytes : Nat → Nat → List Byte
  | 0, _ => []
  | n + 1, v => BitVec.ofNat 8 v :: leBytes n (v / 256)

/-- A number from bytes, most significant first. -/
def beNat (l : List Byte) : Nat := leNat l.reverse

/-- Little-endian number of `n` bytes in a list at an offset; absent bytes read 0. -/
def leAt (l : List Byte) (off n : Nat) : Nat := leNat ((l.drop off).take n)

/-! ## Checksums -/

/-- One byte of a reflected CRC-32 with a generator polynomial given in reflected form. -/
def crcByte (poly c b : Nat) : Nat :=
  (List.range 8).foldl (fun c _ => if c % 2 = 1 then (c / 2) ^^^ poly else c / 2) (c ^^^ b)

/-- A CRC-32 with initial value all ones and final complement, as the FCS of IEEE 802.3 is computed (12_ports_mac.md R327). -/
def crcOf (poly : Nat) (d : List Byte) : Nat := (d.foldl (fun c b => crcByte poly c b.toNat) 0xFFFFFFFF) ^^^ 0xFFFFFFFF

/-- The polynomials of IEEE 802.3 and of CRC-32C, reflected. -/
def polyEthernet : Nat := 0xEDB88320
def polyCastagnoli : Nat := 0x82F63B78

/-! ## Events -/

/-- The selected elements of the register at an address that stand in the register file, with their values; every other
element holds the reset value. -/
def Mach.listed (m : Mach) (a : Nat) : List (Nat × Word) :=
  m.regs.filterMap (fun p => if p.1 < fabricCopy ∧ p.1 % regSpan = a then some (p.1 / regSpan, p.2) else none)

/-- Herds to which an event for every tenant goes: those ACTIVE, HALTED or RESETTING (R404); herd 0 is always ACTIVE (R355). -/
def Mach.liveHerds (m : Mach) : List Nat :=
  0 :: (m.listed 0x00401050).filterMap (fun p =>
    let st := getBits p.2.toNat 28 4
    if p.1 ≠ 0 ∧ (st = 1 ∨ st = 2 ∨ st = 3) then some p.1 else none)

/-- Raises an event to the rings of the herds listed, and to the steward's as FLT_CTL.STEWARD_COPY says (R404). -/
def Mach.raise (m : Mach) (code source herd : Nat) (dest : List Nat) (info0 info1 : Nat) : Mach :=
  let extra := if m.bit F.FLT_CTL_STEWARD_COPY ∧ ¬ 0 ∈ dest ∧ dest ≠ [] then [0] else []
  let evs := (dest.eraseDups ++ extra).map (fun h =>
    { code := code, source := source, herd := herd, dest := h,
      info0 := BitVec.ofNat 64 info0, info1 := BitVec.ofNat 64 info1, time := m.polder : Event })
  { m with evq := m.evq ++ evs }

/-! ## The frame of a meaning -/

/-- What a command leaves: the outcome `m'` of its effect on `m`, with the order code as it was (R32) and the stores changed
exactly by the changes listed in `m'.wr`, oldest first. -/
def settle (m m' : Mach) : Mach :=
  { m' with
    variant := m.variant
    peat := m'.wr.foldr (fun op mem => op.apply .peat mem) m.peat
    cream := m'.wr.foldr (fun op mem => op.apply .cream mem) m.cream
    tsram := m'.wr.foldr (fun op mem => op.apply .tsram mem) m.tsram
    flash := m'.wr.foldr (fun op mem => op.apply .flash mem) m.flash
    wr := []
    fabric := []
    downs := []
    tileDowns := [] }

end Sys2Proof.Machine
end

