-- ==== Sys2Proof/Machine/Arith.lean ====
section
/-! DEFINITION. Churn arithmetic (07_churn_arithmetic.md R180 to R195): encodings, rounding, special values, block scales, the order of sums,
and random bits. Every result is formed exactly, as a rational number, and rounded at the points that the rules name. -/
namespace Sys2Proof.Machine

/-! ## Formats -/

/-- An encoding of R180: exponent and mantissa bits, bias, code of the largest finite value, code of infinity, and canonical NaN. -/
structure Fmt where
  ebits : Nat
  mbits : Nat
  bias : Nat
  maxCode : Nat
  inf : Option Nat
  nan : Option Nat
  deriving DecidableEq, Repr

/-- Bits of a code. -/
def Fmt.bits (f : Fmt) : Nat := 1 + f.ebits + f.mbits

/-- Format numbers of ID_CAP2.FMT (01_architecture.md R32). -/
def dFp64 : Nat := 0
def dFp32 : Nat := 1
def dBf16 : Nat := 2
def dFp16 : Nat := 3
def dE4m3 : Nat := 4
def dE5m2 : Nat := 5
def dFp6 : Nat := 6
def dFp4 : Nat := 7
def dInt8 : Nat := 8
def dInt32 : Nat := 9

/-- The floating-point formats by number; an integer or reserved number reads as FP32 here and is told apart by `isInt`. -/
def fmtOf (d : Nat) : Fmt :=
  match d with
  | 0 => { ebits := 11, mbits := 52, bias := 1023, maxCode := 0x7FEFFFFFFFFFFFFF, inf := some 0x7FF0000000000000, nan := some 0x7FF8000000000000 }
  | 2 => { ebits := 8, mbits := 7, bias := 127, maxCode := 0x7F7F, inf := some 0x7F80, nan := some 0x7FC0 }
  | 3 => { ebits := 5, mbits := 10, bias := 15, maxCode := 0x7BFF, inf := some 0x7C00, nan := some 0x7E00 }
  | 4 => { ebits := 4, mbits := 3, bias := 7, maxCode := 0x7E, inf := none, nan := some 0x7F }
  | 5 => { ebits := 5, mbits := 2, bias := 15, maxCode := 0x7B, inf := some 0x7C, nan := some 0x7E }
  | 6 => { ebits := 3, mbits := 2, bias := 3, maxCode := 0x1F, inf := none, nan := none }
  | 7 => { ebits := 2, mbits := 1, bias := 1, maxCode := 0x7, inf := none, nan := none }
  | _ => { ebits := 8, mbits := 23, bias := 127, maxCode := 0x7F7FFFFF, inf := some 0x7F800000, nan := some 0x7FC00000 }

/-- Whether a format number is an integer format. -/
def isInt (d : Nat) : Bool := d == 8 || d == 9

/-- Whether a format is block-scaled (R181). -/
def isBlock (d : Nat) : Bool := d == 6 || d == 7

/-- Bits of an element of a format. -/
def fmtBits (d : Nat) : Nat := if d = 8 then 8 else if d = 9 then 32 else (fmtOf d).bits

/-- Exact value: NaN, an infinity, or a signed magnitude num / den; zero keeps its sign. -/
inductive Num where
  | nan
  | inf (neg : Bool)
  | fin (neg : Bool) (num den : Nat)
  deriving DecidableEq, Repr, Inhabited

/-- The quotient of 0 / 0, ∞ / ∞ and a finite value over zero, which the rules do not state (notes/assumptions/24.md): a free value of the
operands, rounded by the lane as any quotient is. -/
opaque Config.divCorner : Num → Num → Num

/-- The flags, in the bit positions of CHU_EXC, that such a quotient raises (notes/assumptions/24.md). -/
opaque Config.divFlags : Num → Num → BitVec 6

/-- Flags in the bit positions of CHU_EXC (R204). -/
def exInvalid : Nat := 1
def exOverflow : Nat := 2
def exUnderflow : Nat := 4
def exNanIn : Nat := 8
def exWrap : Nat := 16
def exNanBlock : Nat := 32

/-- A value with the flags raised in forming it. -/
structure Flg (α : Type) where
  val : α
  flags : Nat
  deriving DecidableEq, Repr

/-- A power of two with a signed exponent, as numerator and denominator. -/
def pow2 (k : Int) : Nat × Nat := if 0 ≤ k then (2 ^ k.toNat, 1) else (1, 2 ^ (-k).toNat)

/-- A magnitude times a power of two. -/
def scale2 (num den : Nat) (k : Int) : Nat × Nat := (num * (pow2 k).1, den * (pow2 k).2)

/-- The exact value that a code stands for (R180, R181: FP6 and FP4 without their scale). -/
def decodeF (f : Fmt) (code : Nat) : Num :=
  let neg := code / 2 ^ (f.ebits + f.mbits) % 2 == 1
  let e := code / 2 ^ f.mbits % 2 ^ f.ebits
  let man := code % 2 ^ f.mbits
  let mag := code % 2 ^ (f.ebits + f.mbits)
  if f.inf = some mag then .inf neg
  else if f.maxCode < mag then .nan
  else
    let (m, x) : Nat × Int := if e = 0 then (man, 1 - (f.bias : Int) - f.mbits) else (2 ^ f.mbits + man, (e : Int) - f.bias - f.mbits)
    let (n, d) := scale2 m 1 x
    .fin neg n d

/-- Two's complement value of a code of a width. -/
def decodeI (wd code : Nat) : Num :=
  let c := code % 2 ^ wd
  if c < 2 ^ (wd - 1) then .fin false c 1 else .fin true (2 ^ wd - c) 1

/-- The value of an element code of a format. -/
def decodeD (d code : Nat) : Num := if d = 8 then decodeI 8 code else if d = 9 then decodeI 32 code else decodeF (fmtOf d) code

/-- floor(log₂(num / den)) for a positive value (R189: exact). -/
def floorLog2 (num den : Nat) : Int :=
  let k : Int := (Nat.log2 num : Int) - Nat.log2 den
  let (a, b) := scale2 num den (-k)
  if b ≤ a then k else k - 1

/-! ## Rounding -/

/-- The rounding modes of R183: 0 nearest even, 1 toward zero, 2 stochastic; and whether a finite overflow saturates. -/
structure Mode where
  round : Nat
  sat : Bool
  fit : Bool
  deriving DecidableEq, Repr

/-- A mode byte (R183). -/
def modeOf (b : Nat) : Mode := { round := b % 4, sat := b / 4 % 2 == 1, fit := b / 8 % 2 == 1 }

/-- Whether a mode byte holds a reserved code (R183). -/
def modeReserved (b : Nat) : Bool := b % 4 == 3

/-- Rounds num / den to a whole number (R184, R185): `u` are the sixteen random bits of stochastic rounding. -/
def roundNat (round u num den : Nat) : Nat :=
  let q := num / den
  let r := num % den
  if round = 0 then
    if den < 2 * r ∨ (2 * r = den ∧ q % 2 = 1) then q + 1 else q
  else if round = 1 then q
  else if 65536 ≤ r * 65536 / den + u then q + 1 else q

/-- Magnitude code of a positive value in a format with its exponent unbounded, before overflow (R184): codes above `maxCode` lie beyond the
largest finite value. -/
def roundMag (f : Fmt) (round u num den : Nat) : Nat :=
  let e := max (floorLog2 num den) (1 - (f.bias : Int))
  let (n, d) := scale2 num den ((f.mbits : Int) - e)
  let v := roundNat round u n d
  ((e + f.bias - 1).toNat) * 2 ^ f.mbits + v

/-- The sign bit of a code. -/
def signBit (f : Fmt) (neg : Bool) : Nat := neg.toNat * 2 ^ (f.ebits + f.mbits)

/-- A value rounded into a floating-point format (R184 to R188). A format without NaN is written through its block (R189). -/
def encodeF (f : Fmt) (md : Mode) (u : Nat) : Num → Flg Nat
  | .nan => { val := f.nan.getD 0, flags := exNanIn }
  | .inf neg =>
    match f.inf with
    | some c => { val := c + signBit f neg, flags := 0 }
    | none => { val := f.nan.getD 0, flags := 0 }
  | .fin neg 0 _ => { val := signBit f neg, flags := 0 }
  | .fin neg num den =>
    let c := roundMag f md.round u num den
    if c = 0 then { val := signBit f neg, flags := exUnderflow }
    else if c ≤ f.maxCode then { val := c + signBit f neg, flags := 0 }
    else
      match f.inf with
      | some i => { val := (if md.sat ∨ md.round = 1 then f.maxCode else i) + signBit f neg, flags := exOverflow }
      | none => { val := f.maxCode + signBit f neg, flags := exOverflow }

/-- A value converted to an integer format of a width (R188): rounded by ROUND, saturated; NaN gives 0 and INVALID. -/
def encodeI (wd : Nat) (md : Mode) (u : Nat) : Num → Flg Nat
  | .nan => { val := 0, flags := exInvalid ||| exNanIn }
  | .inf neg => { val := if neg then 2 ^ (wd - 1) else 2 ^ (wd - 1) - 1, flags := exOverflow }
  | .fin neg num den =>
    let v := roundNat md.round u num (max 1 den)
    let uf := if v = 0 ∧ num ≠ 0 then exUnderflow else 0
    if neg then
      if 2 ^ (wd - 1) < v then { val := 2 ^ (wd - 1), flags := exOverflow } else { val := (2 ^ wd - v) % 2 ^ wd, flags := uf }
    else if 2 ^ (wd - 1) - 1 < v then { val := 2 ^ (wd - 1) - 1, flags := exOverflow }
    else { val := v, flags := uf }

/-- A value converted to an element of a format that has no block scale. -/
def encodeD (d : Nat) (md : Mode) (u : Nat) (x : Num) : Flg Nat :=
  if d = 8 then encodeI 8 md u x else if d = 9 then encodeI 32 md u x else encodeF (fmtOf d) md u x

/-- Round to nearest even, with the saturation of a mode: how every operation inside the units rounds (R191, R193). -/
def Mode.near (md : Mode) : Mode := { md with round := 0 }

/-- A value rounded to a lane format, as a value again. -/
def lane (f : Fmt) (md : Mode) (x : Num) : Flg Num :=
  let c := encodeF f md.near 0 x
  { val := decodeF f c.val, flags := c.flags }

/-! ## Exact operations -/

/-- The sign of a value. -/
def Num.neg? : Num → Bool
  | .nan => false
  | .inf n => n
  | .fin n _ _ => n

/-- A value with its sign turned. -/
def Num.negate : Num → Num
  | .nan => .nan
  | .inf n => .inf (!n)
  | .fin n a b => .fin (!n) a b

/-- Whether a value is a NaN. -/
def Num.isNan : Num → Bool
  | .nan => true
  | _ => false

/-- Whether a value is finite. -/
def Num.isFin : Num → Bool
  | .fin .. => true
  | _ => false

/-- An exact sum (R187, R188): a zero formed from operands of opposite sign is +0. -/
def addX : Num → Num → Flg Num
  | .nan, _ => ⟨.nan, exNanIn⟩
  | _, .nan => ⟨.nan, exNanIn⟩
  | .inf a, .inf b => if a = b then ⟨.inf a, 0⟩ else ⟨.nan, exInvalid⟩
  | .inf a, _ => ⟨.inf a, 0⟩
  | _, .inf b => ⟨.inf b, 0⟩
  | .fin s a b, .fin t c d =>
    let x := a * d
    let y := c * b
    if s = t then ⟨.fin s (x + y) (b * d), 0⟩
    else if x = y then ⟨.fin false 0 1, 0⟩
    else if y < x then ⟨.fin s (x - y) (b * d), 0⟩
    else ⟨.fin t (y - x) (b * d), 0⟩

/-- An exact product (R188: 0 × ∞ is invalid). -/
def mulX : Num → Num → Flg Num
  | .nan, _ => ⟨.nan, exNanIn⟩
  | _, .nan => ⟨.nan, exNanIn⟩
  | .inf s, .inf t => ⟨.inf (s != t), 0⟩
  | .inf s, .fin t c _ => if c = 0 then ⟨.nan, exInvalid⟩ else ⟨.inf (s != t), 0⟩
  | .fin s a _, .inf t => if a = 0 then ⟨.nan, exInvalid⟩ else ⟨.inf (s != t), 0⟩
  | .fin s a b, .fin t c d => ⟨.fin (s != t) (a * c) (b * d), 0⟩

/-- An exact quotient (R193). The rules state none for 0 / 0, ∞ / ∞ and a finite value over zero, so those are free
(notes/assumptions/24.md). -/
def divX : Num → Num → Flg Num
  | .nan, _ => ⟨.nan, exNanIn⟩
  | _, .nan => ⟨.nan, exNanIn⟩
  | .inf s, .inf t => ⟨Config.divCorner (.inf s) (.inf t), (Config.divFlags (.inf s) (.inf t)).toNat⟩
  | .inf s, .fin t _ _ => ⟨.inf (s != t), 0⟩
  | .fin s _ _, .inf t => ⟨.fin (s != t) 0 1, 0⟩
  | .fin s a b, .fin t c d =>
    if c = 0 then ⟨Config.divCorner (.fin s a b) (.fin t c d), (Config.divFlags (.fin s a b) (.fin t c d)).toNat⟩
    else ⟨.fin (s != t) (a * d) (b * c), 0⟩

/-- Square root of a value to more bits than any format keeps, with a sticky bit below them, so that one rounding of it is the correctly
rounded root (R193). The root of a negative number is invalid (R188). -/
def sqrtX : Num → Flg Num
  | .nan => ⟨.nan, exNanIn⟩
  | .inf s => if s then ⟨.nan, exInvalid⟩ else ⟨.inf false, 0⟩
  | .fin s 0 d => ⟨.fin s 0 d, 0⟩
  | .fin true _ _ => ⟨.nan, exInvalid⟩
  | .fin false n d =>
    -- √(n/d) = √(n·d)/d; 2^k·√(n·d) as a whole number with a sticky bit
    let k := 128
    let q := Nat.sqrt (n * d * 2 ^ (2 * k))
    if q * q = n * d * 2 ^ (2 * k) then ⟨.fin false q (d * 2 ^ k), 0⟩ else ⟨.fin false (2 * q + 1) (2 * d * 2 ^ k), 0⟩

/-- An operation of a lane: exact, then rounded once (R193). -/
def op1 (f : Fmt) (md : Mode) (x : Flg Num) : Flg Num :=
  let r := lane f md x.val
  -- the canonical NaN of an invalid operation is no NaN operand
  { val := r.val, flags := x.flags ||| (if x.val.isNan then 0 else r.flags) }

/-- Lane operations on values that carry their flags. -/
def fAdd (f : Fmt) (md : Mode) (x y : Flg Num) : Flg Num :=
  let r := op1 f md (addX x.val y.val)
  { r with flags := x.flags ||| y.flags ||| r.flags }
def fMul (f : Fmt) (md : Mode) (x y : Flg Num) : Flg Num :=
  let r := op1 f md (mulX x.val y.val)
  { r with flags := x.flags ||| y.flags ||| r.flags }
def fDiv (f : Fmt) (md : Mode) (x y : Flg Num) : Flg Num :=
  let r := op1 f md (divX x.val y.val)
  { r with flags := x.flags ||| y.flags ||| r.flags }
def fSqrt (f : Fmt) (md : Mode) (x : Flg Num) : Flg Num :=
  let r := op1 f md (sqrtX x.val)
  { r with flags := x.flags ||| r.flags }

/-- Multiply and add with one rounding (R193). -/
def fFma (f : Fmt) (md : Mode) (x y z : Flg Num) : Flg Num :=
  let p := mulX x.val y.val
  let s := if p.flags = exInvalid then p else addX p.val z.val
  let r := op1 f md { s with flags := p.flags ||| s.flags }
  { r with flags := x.flags ||| y.flags ||| z.flags ||| r.flags }

/-- An INT32 sum (R192): wraps modulo 2³² and sets INT_WRAP. -/
def iAdd (x y : Flg Num) : Flg Num :=
  let i := fun (v : Num) => match v with | .fin s a b => if s then -((a / max 1 b : Nat) : Int) else ((a / max 1 b : Nat) : Int) | _ => (0 : Int)
  let s := i x.val + i y.val
  let c := (s % 2 ^ 32).toNat
  let w := if s < -2147483648 ∨ 2147483647 < s then exWrap else 0
  { val := decodeI 32 c, flags := x.flags ||| y.flags ||| w }

/-- The lane format of a computation on a format (R193). -/
def laneFmt (d : Nat) : Fmt := if d = 0 then fmtOf 0 else fmtOf 1

/-- The pairwise lane sum of R193, over a list whose length is a power of two: `w` steps of pairing. -/
def laneSum (f : Fmt) (md : Mode) : Nat → List (Flg Num) → List (Flg Num)
  | 0, l => l
  | n + 1, l =>
    let rec pair : List (Flg Num) → List (Flg Num)
      | a :: b :: r => fAdd f md a b :: pair r
      | l => l
    laneSum f md n (pair l)

/-! ## Matrix accumulation -/

/-- The sum of one group of products (R191): exact, scaled by the blocks' scales, rounded once to FP32. A NaN block on either side makes it a
NaN, which is no NaN operand of its own (R190). -/
def groupSum (md : Mode) (ab : List (Flg Num × Flg Num)) : Flg Num :=
  let s := ab.foldl (fun acc x =>
    let p := mulX x.1.val x.2.val
    let r := addX acc.val p.val
    let fl := if acc.val.isNan ∨ p.val.isNan then 0 else r.flags
    { val := r.val, flags := acc.flags ||| x.1.flags ||| x.2.flags ||| p.flags ||| fl }) (⟨.fin false 0 1, 0⟩ : Flg Num)
  op1 (fmtOf 1) md s

/-- Cuts a list into groups of four (R191). -/
def groups4 {α : Type} : Nat → List α → List (List α)
  | 0, _ => []
  | n + 1, l => if l.isEmpty then [] else l.take 4 :: groups4 n (l.drop 4)

/-- Σ A[k] × B[k] in groups of four, added in ascending order to C₀ (R190, R191). -/
def dotX (md : Mode) (c0 : Flg Num) (ab : List (Flg Num × Flg Num)) : Flg Num :=
  (groups4 ab.length ab).foldl (fun c g => fAdd (fmtOf 1) md c (groupSum md g)) c0

/-! ## Random bits -/

/-- The finalising hash of R194. -/
def mix (z : BitVec 64) : BitVec 64 :=
  let z := z + 0x9E3779B97F4A7C15
  let z := (z ^^^ (z >>> 30)) * 0xBF58476D1CE4E5B9
  let z := (z ^^^ (z >>> 27)) * 0x94D049BB133111EB
  z ^^^ (z >>> 31)

/-- The sixteen random bits of rounding `element` of a stream under a seed and launch counter (R194). -/
def draw (seed ctr stream element : Nat) : Nat :=
  (mix (BitVec.ofNat 64 seed ^^^ BitVec.ofNat 64 (ctr * 2 ^ 40) ^^^ BitVec.ofNat 64 (stream * 2 ^ 32 + element))).toNat / 2 ^ 48

/-! ## Block scales -/

/-- ceil(log₂(num / den)) for a positive value. -/
def ceilLog2 (num den : Nat) : Int :=
  let k := floorLog2 num den
  let (a, b) := scale2 num den (-k)
  if a = b then k else k + 1

/-- A block written in FP6 or FP4 (R189): scale byte, element codes, flags, and whether X was clamped. -/
structure BlockOut where
  x : Nat
  codes : List Nat
  flags : Nat
  clamped : Bool
  deriving DecidableEq, Repr

/-- The magnitude of the larger of two finite values, as num and den. -/
def maxMag (a b : Nat × Nat) : Nat × Nat := if a.1 * b.2 < b.1 * a.2 then b else a

/-- Writes a block (R189). `u i` are the random bits of its element i. -/
def blockWrite (d : Nat) (md : Mode) (u : Nat → Nat) (vals : List (Flg Num)) : BlockOut :=
  let f := fmtOf d
  let base := (vals.map (fun v => v.flags)).foldl (· ||| ·) 0
  if vals.any (fun v => !v.val.isFin) then
    { x := 0xFF, codes := vals.map (fun _ => 0), clamped := false
      flags := base ||| exNanBlock ||| (if vals.any (fun v => v.val.isNan) then exNanIn else 0) }
  else
    let mag := fun (v : Flg Num) => match v.val with | .fin _ a b => (a, b) | _ => (0, 1)
    let amax := (vals.map mag).foldl maxMag (0, 1)
    if amax.1 = 0 then
      { x := 0, codes := vals.map (fun v => signBit f v.val.neg?), flags := base, clamped := false }
    else
      let emax : Int := if d = 7 then 2 else 4
      let maxf : Nat := if d = 7 then 6 else 28
      let x0 : Int := if md.fit then ceilLog2 amax.1 (amax.2 * maxf) + 127 else floorLog2 amax.1 amax.2 - emax + 127
      let x : Int := min 254 (max 0 x0)
      let outs := vals.zipIdx.map (fun v =>
        match v.1.val with
        | .fin s a b =>
          let (n, dn) := scale2 a b (127 - x)
          encodeF f md (u v.2) (.fin s n dn)
        | _ => (⟨0, 0⟩ : Flg Nat))
      { x := x.toNat, codes := outs.map (fun c => c.val), flags := outs.foldl (fun a c => a ||| c.flags) base, clamped := x0 != x }

/-! ## Elements in bytes -/

/-- Bytes that a run of elements takes: block-scaled elements are packed, 32 to a block (R182). -/
def packedBytes (d n : Nat) : Nat := if isBlock d then (n + 31) / 32 * (if d = 7 then 16 else 24) else n * fmtBits d / 8

/-- Code of element `i` of a packed run of bytes (R182). -/
def codeAt (d : Nat) (b : List Byte) (i : Nat) : Nat :=
  if d = 7 then (leAt b (i / 2) 1) / 2 ^ (4 * (i % 2)) % 16
  else if d = 6 then (leAt b (i / 4 * 3) 3) / 2 ^ (6 * (i % 4)) % 64
  else leAt b (i * (fmtBits d / 8)) (fmtBits d / 8)

/-- Packs the codes of a block into bytes (R182). -/
def packCodes (d : Nat) (codes : List Nat) : List Byte :=
  if d = 7 then (List.range 16).map (fun i => BitVec.ofNat 8 (nthD codes (2 * i) 0 % 16 + nthD codes (2 * i + 1) 0 % 16 * 16))
  else if d = 6 then (List.range 8).flatMap (fun i =>
    leBytes 3 ((List.range 4).foldl (fun n j => n + nthD codes (4 * i + j) 0 % 64 * 2 ^ (6 * j)) 0))
  else codes.flatMap (fun c => leBytes (fmtBits d / 8) c)

/-- A value read from an element code and, for a block-scaled format, its scale byte (R181). -/
def loadNum (d code x : Nat) : Flg Num :=
  let v := if isBlock d then
      (if x = 0xFF then Num.nan
       else match decodeD d code with
         | .fin s a b => let (n, dn) := scale2 a b ((x : Int) - 127); .fin s n dn
         | v => v)
    else decodeD d code
  { val := v, flags := if v.isNan then exNanIn else 0 }

end Sys2Proof.Machine
end

