-- ==== Sys2Proof/Machine/Kernels.lean ====
section
/-! DEFINITION. The kernel library (08_churn_programs.md R226 to R230): parameters, costs and results of kernels 0x01 to 0x0B. A kernel's work is cut
into units, each of which reads its streams and writes its results by itself; a pass of a launch carries out some of them. -/
namespace Sys2Proof.Machine

/-- ⌈a / b⌉. -/
def ceilDiv (a b : Nat) : Nat := (a + b - 1) / max 1 b

/-! ## Parameters -/

/-- Scalars of a kernel before its streams, 8 bytes each, in the order of the kernel table (R226, R228). -/
def kScalars (k : Nat) : Nat :=
  match k with
  | 1 => 5 | 2 => 5 | 3 => 6 | 4 => 6 | 5 => 12 | 6 => 4 | 7 => 5 | 8 => 5 | 9 => 3 | 10 => 4 | 11 => 2 | _ => 0

/-- Streams of a kernel: whether each is a memory stream, an input, a result (R228). REDUCE_SCALE has as many inputs as N says. -/
def kStreams (k n : Nat) : List (Bool × Bool × Bool) :=
  let cin := (false, true, false)
  let cout := (false, false, true)
  let pin := (true, true, false)
  let pio := (true, true, true)
  match k with
  | 1 => List.replicate n cin ++ [cout]
  | 2 => [cin, cout, cout, (false, true, true)]
  | 3 => [cin, pin, pio, cout]
  | 4 => [cin, pin, cout]
  | 5 => [cin, pio, pio, pio, (true, false, true)]
  | 6 => [cin, pin, cout, cout]
  | 7 => [cin, cin, cout, cout]
  | 8 => [cin, cin, cin, cout]
  | 9 => [cin, cin, (true, false, true)]
  | 10 => [cin, pin, cin, cout]
  | 11 => [cin]
  | _ => []

/-- The scalars that are shape parameters, with the range that the kernel table gives each (R228, R206). -/
def kShapes (k : Nat) : List (Nat × Nat × Nat) :=
  let any := 2 ^ 32 - 1
  match k with
  | 1 => [(0, 2, 16), (1, 0, any)]
  | 2 => [(0, 0, any)]
  | 3 => [(0, 0, any), (1, 0, any), (2, 4, 256)]
  | 4 => [(0, 0, any), (1, 0, any), (2, 4, 256)]
  | 5 => [(0, 0, any)]
  | 6 => [(0, 0, any), (1, 0, any), (2, 0, 256), (3, 1, 8)]
  | 7 => [(0, 0, any), (1, 0, any), (2, 0, any), (3, 0, any), (4, 0, any)]
  | 8 => [(0, 0, any), (1, 0, any), (2, 0, any)]
  | 9 => [(0, 0, any), (1, 0, any), (2, 0, any)]
  | 10 => [(0, 0, any), (1, 4096, 2097152)]
  | 11 => [(0, 0, any)]
  | _ => []

/-- The scalars that are format numbers. -/
def kFormats (k : Nat) : List Nat :=
  match k with
  | 1 => [2, 3] | 2 => [1, 2] | 3 => [3, 4] | 4 => [3, 4] | 5 => [1] | 8 => [3, 4] | 10 => [2, 3] | _ => []

/-- A scalar whose value the table narrows further: r a multiple of 4, PAGE a power of two (R228). -/
def kScalarOk (k i v : Nat) : Bool :=
  if (k = 3 ∨ k = 4) ∧ i = 2 then v % 4 == 0
  else if k = 10 ∧ i = 1 then v == 2 ^ Nat.log2 v
  else true

/-- Units a kernel needs beyond the vector unit (R228): bits of ID_CAP0, told by name. 1 matrix, 2 low rank, 3 dense transforms. -/
def kNeeds (k : Nat) : List Nat :=
  match k with
  | 3 => [1, 2] | 4 => [1, 2] | 6 => [1, 3] | _ => []

/-! ## Costs -/

/-- sz(D) of R228 in units of 1/32 byte. -/
def sz32 (d : Nat) : Nat := if d = 6 then 25 else if d = 7 then 17 else fmtBits d * 4

/-- Ct of a library kernel: cycles per logical tile (R228). `a i` is scalar i. -/
def kCt (k t : Nat) (a : Nat → Nat) : Nat :=
  match k with
  | 1 => 256 + ceilDiv (a 0 * a 1) ((if a 2 = 0 then 32 else 128) * t)
  | 2 => 256 + ceilDiv (4 * a 0) (128 * t)
  | 3 => 512 + ceilDiv (2 * a 0 * a 1 * a 2) (1024 * t)
  | 4 => 512 + ceilDiv (a 0 * a 1 * a 2) (1024 * t)
  | 5 => 512 + ceilDiv (48 * a 0) (128 * t)
  | 6 => 512 + ceilDiv (a 0 * a 1 * a 2) (1024 * t) + ceilDiv (8 * a 0 * a 2) (128 * t)
  | 7 => 256
  | 8 => 256 + ceilDiv (a 0 * a 1 * a 2) (128 * t)
  | 9 => 256
  | 10 => 256
  | 11 => 64 + ceilDiv (a 0) (64 * t)
  | _ => 0

/-- Cs of a library kernel: bytes per logical tile, rounded up (R228). -/
def kCs (k t : Nat) (a : Nat → Nat) : Nat :=
  let q := fun (n : Nat) => ceilDiv n (32 * t)
  match k with
  | 1 => q (a 1 * (a 0 * sz32 (a 2) + sz32 (a 3)))
  | 2 => q (a 0 * (sz32 (a 1) + sz32 (a 2) + 256 * a 4))
  | 3 => q (a 0 * a 1 * (sz32 (a 3) + 256) + a 0 * a 2 * sz32 (a 4)) + 2 * a 1 * a 2
  | 4 => q (a 0 * a 1 * sz32 (a 4) + a 0 * a 2 * sz32 (a 3)) + 2 * a 1 * a 2
  | 5 => q (a 0 * (576 + sz32 (a 1)))
  | 6 => ceilDiv (2 * a 0 * a 1 + 5 * a 0 * a 3) t + 2 * a 1 * a 2
  | 7 => ceilDiv (2 * a 0 * a 1 * a 3) t
  | 8 => q (a 0 * a 2 * (a 1 * sz32 (a 3) + sz32 (a 4)))
  | 9 => ceilDiv (2 * a 0 * a 1) t
  | 10 => ceilDiv (a 0 * a 1 * (sz32 (a 2) + sz32 (a 3))) (sz32 (a 2) * t)
  | 11 => ceilDiv (a 0) t
  | _ => 0

/-- PEAT_BYTES of a library kernel (R228). -/
def kPeat (k : Nat) (a : Nat → Nat) : Nat :=
  match k with
  | 3 => 8 * a 0 * a 1 + 2 * a 1 * a 2
  | 4 => 2 * a 1 * a 2
  | 5 => 18 * a 0
  | 6 => 2 * a 1 * a 2
  | 9 => a 0 * a 1
  | 10 => a 0 * a 1
  | _ => 0

/-- The cost C of R210 from Ct, Cs and the Peat term Cp. -/
def costOf (ct cs cp : Nat) : Nat := max ct (max (ceilDiv cs 64) cp)

/-- Cp of a scheduled launch (R210): bytes over the grant of a slot, in slots of 425 cycles. -/
def peatCycles (bytes amount units : Nat) : Nat := if bytes = 0 then 0 else ceilDiv bytes (amount * units) * 425

/-! ## What a unit of a kernel does -/

/-- A kernel's surroundings: number, mode, logical tiles, the seed and launch counter latched for each, scalars, and its streams as bytes read and
lengths. -/
structure KIn where
  kernel : Nat
  mode : Mode
  tiles : Nat
  seeds : List (Nat × Nat)
  scalars : List Nat
  streams : List (List Byte × Nat)
  deriving DecidableEq, Repr

/-- Results of a unit: writes (stream, offset, bytes), flags, and what it adds to KRESULT. -/
structure KOut where
  writes : List (Nat × Nat × List Byte)
  flags : Nat
  k : Nat
  deriving DecidableEq, Repr

/-- Results of two units together. -/
def KOut.add (a b : KOut) : KOut := { writes := a.writes ++ b.writes, flags := a.flags ||| b.flags, k := a.k + b.k }

/-- Nothing. -/
def KOut.nil : KOut := { writes := [], flags := 0, k := 0 }

/-- How a unit ends: its results, or the stream and offset of an access beyond a stream's length (R208). -/
abbrev KRes := Except (Nat × Nat) KOut

namespace KIn

/-- A scalar. -/
def a (x : KIn) (i : Nat) : Nat := nthD x.scalars i 0

/-- An FP32 scalar. -/
def f (x : KIn) (i : Nat) : Flg Num := loadNum 1 (x.a i % 2 ^ 32) 0

/-- Bytes of a stream. -/
def rd (x : KIn) (s off n : Nat) : Except (Nat × Nat) (List Byte) :=
  let (d, len) := nthD x.streams s ([], 0)
  if off + n ≤ len then .ok ((d.drop off).take n ++ List.replicate (n - ((d.drop off).take n).length) 0) else .error (s, max off len)

/-- A write of a unit, refused beyond the stream's length. -/
def wr (x : KIn) (s off : Nat) (d : List Byte) : Except (Nat × Nat) (List (Nat × Nat × List Byte)) :=
  let len := (nthD x.streams s ([], 0)).2
  if off + d.length ≤ len then .ok [(s, off, d)] else .error (s, max off len)

/-- Random bits of element `e` of a result stream with `total` elements (R194, R229: contiguous ranges of ⌈E / T⌉ elements). -/
def u (x : KIn) (stream total e : Nat) : Nat :=
  let (s, l) := nthD x.seeds (e / max 1 (ceilDiv total x.tiles)) (0, 0)
  draw s l stream e

/-- Element (row, column) of a tensor with `cols` columns in a stream (R181, R182). A block-scaled tensor whose kernel gives no stream for its scales
holds them behind its elements (notes/assumptions/25.md). -/
def ld (x : KIn) (s d rows cols r c : Nat) : Except (Nat × Nat) (Flg Num) :=
  if isBlock d then do
    let bb := if d = 7 then 16 else 24
    let per := (cols + 31) / 32
    let b := r * per + c / 32
    let blk ← x.rd s (b * bb) bb
    let sc ← x.rd s (rows * per * bb + b) 1
    return loadNum d (codeAt d blk (c % 32)) (leNat sc)
  else do
    let n := fmtBits d / 8
    let v ← x.rd s ((r * cols + c) * n) n
    return loadNum d (leNat v) 0

/-- Writes a run of at most 32 values that begins at column `c` of row `r`, a block of a block-scaled format; the values as they read back come with
the results. `stream` is the result stream's number (R207), `sep` the stream of the scales where the kernel has one. -/
def st (x : KIn) (md : Mode) (s stream d rows cols r c : Nat) (sep : Option Nat) (vals : List (Flg Num)) :
    Except (Nat × Nat) (KOut × List (Flg Num)) :=
  let u := fun i => x.u stream (rows * cols) (r * cols + c + i)
  if isBlock d then do
    let bb := if d = 7 then 16 else 24
    let per := (cols + 31) / 32
    let b := r * per + c / 32
    let o := blockWrite d md u vals
    let w1 ← x.wr s (b * bb) (packCodes d o.codes)
    let w2 ← match sep with
      | some q => x.wr q b [BitVec.ofNat 8 o.x]
      | none => x.wr s (rows * per * bb + b) [BitVec.ofNat 8 o.x]
    return ({ writes := w1 ++ w2, flags := o.flags, k := o.clamped.toNat }, o.codes.map (fun q => loadNum d q o.x))
  else do
    let outs := vals.zipIdx.map (fun v => let e := encodeD d md (u v.2) v.1.val; ({ e with flags := v.1.flags ||| e.flags } : Flg Nat))
    let w ← x.wr s ((r * cols + c) * (fmtBits d / 8)) (packCodes d (outs.map (fun e => e.val)))
    return ({ writes := w, flags := outs.foldl (fun n e => n ||| e.flags) 0, k := 0 }, outs.map (fun e => loadNum d e.val 0))

/-- Values of a run of columns. -/
def lds (x : KIn) (s d rows cols r c n : Nat) : Except (Nat × Nat) (List (Flg Num)) :=
  (List.range n).mapM (fun i => x.ld s d rows cols r (c + i))

/-- REDUCE_SCALE, elements 32i to 32i + 31 (R229). -/
def reduceScale (x : KIn) (i : Nat) : KRes := do
  let n := x.a 0
  let e := x.a 1
  let din := x.a 2
  let cnt := min 32 (e - 32 * i)
  let f := laneFmt din
  let ins ← (List.range n).mapM (fun s => x.lds s din 1 e 0 (32 * i) cnt)
  let acc := (List.range cnt).map (fun j =>
    let col := ins.map (fun l => nthD l j ⟨.nan, 0⟩)
    match col with
    | [] => (⟨.nan, 0⟩ : Flg Num)
    | v :: r => r.foldl (fun p q => if isInt din then iAdd p q else fAdd f x.mode p q) v)
  -- an integer sum is scaled exactly and rounded once, into its output format (R188)
  let scaled := acc.map (fun v =>
    if isInt din then let p := mulX v.val (x.f 4).val; { p with flags := p.flags ||| v.flags } else fMul f x.mode v (x.f 4))
  return (← x.st x.mode n 0 (x.a 3) 1 e 0 (32 * i) none scaled).1

/-- REQUANT, elements 32i to 32i + 31 (R229). -/
def requant (x : KIn) (i : Nat) : KRes := do
  let e := x.a 0
  let cnt := min 32 (e - 32 * i)
  let ef := x.a 4 % 2 = 1
  let f := fmtOf 1
  let xs ← x.lds 0 (x.a 1) 1 e 0 (32 * i) cnt
  let ws ← if ef then x.lds 3 1 1 e 0 (32 * i) cnt else pure []
  let vs := xs.map (fun v => fMul f x.mode v (x.f 3))
  let vs := if ef then (vs.zip ws).map (fun p => fAdd f x.mode p.1 p.2) else vs
  let (o, back) ← x.st x.mode 1 0 (x.a 2) 1 e 0 (32 * i) (some 2) vs
  if ef then
    let new := (vs.zip back).map (fun p => fAdd f x.mode p.1 { p.2 with val := p.2.val.negate })
    let (w, _) ← x.st x.mode.near 3 1 1 1 e 0 (32 * i) none new
    return o.add { w with k := 0 }
  else return o

/-- LOWRANK_COMPRESS, row i (R229): G' = G + whey, P = G'·Q × PSCALE in DP, new whey G' − value(P)·Qᵀ / PSCALE. Streams of the input whey, the output whey and
the curd are given. -/
def compress (x : KIn) (win wout curd i : Nat) : KRes := do
  let m := x.a 0
  let n := x.a 1
  let r := x.a 2
  let f := fmtOf 1
  let g ← x.lds 0 (x.a 3) m n i 0 n
  let w ← x.lds win 1 m n i 0 n
  let gp := (g.zip w).map (fun p => fAdd f x.mode p.1 p.2)
  let q ← (List.range n).mapM (fun c => x.lds 1 2 n r c 0 r)
  let row := (List.range r).map (fun c =>
    fMul f x.mode (dotX x.mode ⟨.fin false 0 1, 0⟩ (gp.zip (q.map (fun l => nthD l c ⟨.nan, 0⟩)))) (x.f 5))
  let runs ← (List.range ((r + 31) / 32)).mapM (fun b =>
    x.st x.mode curd 0 (x.a 4) m r i (32 * b) none ((row.drop (32 * b)).take 32))
  let back := (runs.flatMap (·.2)).take r
  let new := ((gp.zip q).map (fun p =>
    let s := dotX x.mode ⟨.fin false 0 1, 0⟩ (back.zip p.2)
    let t := fDiv f x.mode s (x.f 5)
    fAdd f x.mode p.1 { t with val := t.val.negate }))
  let (o, _) ← x.st x.mode.near wout 1 1 m n i 0 none new
  return (runs.map (·.1)).foldl KOut.add { o with k := 0 }

/-- LOWRANK_EXPAND, row i (R229): SCALE × value(P)·Qᵀ by MODE. -/
def expand (x : KIn) (i : Nat) : KRes := do
  let m := x.a 0
  let n := x.a 1
  let r := x.a 2
  let p ← x.lds 0 (x.a 3) m r i 0 r
  let q ← (List.range n).mapM (fun c => x.lds 1 2 n r c 0 r)
  let row := q.map (fun l => fMul (fmtOf 1) x.mode (x.f 5) (dotX x.mode ⟨.fin false 0 1, 0⟩ (p.zip l)))
  let runs ← (List.range ((n + 31) / 32)).mapM (fun b =>
    x.st x.mode 2 0 (x.a 4) m n i (32 * b) none ((row.drop (32 * b)).take 32))
  return { (runs.map (·.1)).foldl KOut.add KOut.nil with k := 0 }

/-- ADAM_STEP, parameter i (R229). SKIP_NONFINITE is bit 0 of FLAGS and DECOUPLED bit 1 (notes/assumptions/26.md). -/
def adam (x : KIn) (i : Nat) : KRes := do
  let p := x.a 0
  let f := fmtOf 1
  let md := x.mode
  let one : Flg Num := ⟨.fin false 1 1, 0⟩
  let sub := fun (y z : Flg Num) => fAdd f md y { z with val := z.val.negate }
  let grad ← x.ld 0 (x.a 1) 1 p 0 i
  let w32 ← x.ld 1 1 1 p 0 i
  let min' ← x.ld 2 2 1 p 0 i
  let vin ← x.ld 3 2 1 p 0 i
  let g := fMul f md grad (x.f 9)
  if g.val.isFin = false ∧ x.a 11 % 2 = 1 then return { writes := [], flags := g.flags, k := 1 }
  else
    let mm := fFma f md (x.f 3) min' (fMul f md (sub one (x.f 3)) g)
    let vv := fFma f md (x.f 4) vin (fMul f md (fMul f md (sub one (x.f 4)) g) g)
    let u := fDiv f md (fMul f md mm (x.f 7)) (fAdd f md (fSqrt f md (fMul f md vv (x.f 8))) (x.f 5))
    let u := if x.a 11 / 2 % 2 = 1 then fFma f md (x.f 6) w32 u else u
    let w := fFma f md { (x.f 2) with val := (x.f 2).val.negate } u w32
    let (o1, _) ← x.st md.near 1 3 1 1 p 0 i none [w]
    let (o2, _) ← x.st md 2 0 2 1 p 0 i none [mm]
    let (o3, _) ← x.st md 3 1 2 1 p 0 i none [vv]
    let (o4, _) ← x.st { md with sat := true } 4 2 4 1 p 0 i none [fMul f md w (x.f 10)]
    return { ((o1.add o2).add o3).add o4 with k := 0 }

/-- Whether a logit comes before another: larger, or equal with the lower index; a NaN comes last. -/
def before (a b : Flg Num × Nat) : Bool :=
  match a.1.val, b.1.val with
  | .nan, .nan => decide (a.2 < b.2)
  | .nan, _ => false
  | _, .nan => true
  | v, w =>
    match (addX v w.negate).val with
    | .fin s n _ => if n = 0 then decide (a.2 < b.2) else !s
    | .inf s => !s
    | .nan => decide (a.2 < b.2)

/-- The first of a list by `before`. -/
def best : List (Flg Num × Nat) → Option (Flg Num × Nat)
  | [] => none
  | y :: r => some (r.foldl (fun p q => if before q p then q else p) y)

/-- The first k of a list by `before`, in order. -/
def topK : Nat → List (Flg Num × Nat) → List (Flg Num × Nat)
  | 0, _ => []
  | k + 1, l => match best l with
    | none => []
    | some y => y :: topK k (l.filter (fun z => z.2 != y.2))

/-- MOE_GATE, token i (R229): logits, the top k with the lower index winning ties, and their weights. An index takes one byte and a weight four, as the 5
bytes of the cost formula say. -/
def moeGate (x : KIn) (i : Nat) : KRes := do
  let t := x.a 0
  let d := x.a 1
  let e := x.a 2
  let k := x.a 3
  let xs ← x.lds 0 2 t d i 0 d
  let logits ← (List.range e).mapM (fun c => do
    let col ← (List.range d).mapM (fun r => x.ld 1 2 d e r c)
    return dotX x.mode ⟨.fin false 0 1, 0⟩ (xs.zip col))
  let top := topK k logits.zipIdx
  let codes := top.map (fun z => (encodeF (fmtOf 1) x.mode.near 0 z.1.val).val)
  let w1 ← x.wr 2 (i * k) (top.map (fun z => BitVec.ofNat 8 z.2))
  let w2 ← x.wr 3 (i * k * 4) ((List.range top.length).flatMap (fun j => leBytes 4 (Config.softmax codes j).toNat))
  return { writes := w1 ++ w2, flags := logits.foldl (fun n z => n ||| z.flags) 0, k := 0 }

/-- Experts that selections 0 to n − 1 name, in order: one byte each. -/
def experts (x : KIn) (s n : Nat) : Except (Nat × Nat) (List Nat) := do
  let b ← x.rd s 0 n
  return b.map (fun c => c.toNat)

/-- MOE_DISPATCH, token i (R229): its row goes to each of its experts' buckets behind the rows already there; a row that finds its bucket full is dropped
and counted. The last token writes the counts, four bytes an expert (notes/assumptions/27.md). -/
def moeDispatch (x : KIn) (i : Nat) : KRes := do
  let t := x.a 0
  let k := x.a 1
  let e := x.a 2
  let w := x.a 3
  let c := x.a 4
  let row ← x.rd 0 (i * w) w
  let prior ← x.experts 1 ((i + 1) * k)
  let outs ← (List.range k).mapM (fun (s : Nat) => do
    let j := i * k + s
    let ex := nthD prior j 0
    let held := ((prior.take j).filter (fun y => y == ex)).length
    if c ≤ held then return ({ writes := [], flags := 0, k := 1 } : KOut)
    else
      let o ← x.wr 2 ((ex * c + held) * w) row
      return ({ writes := o, flags := 0, k := 0 } : KOut))
  let counts ← if i + 1 = t then
      x.wr 3 0 ((List.range e).flatMap (fun ex => leBytes 4 (min c ((prior.filter (fun y => y == ex)).length))))
    else pure []
  return outs.foldl KOut.add { writes := counts, flags := 0, k := 0 }

/-- MOE_COMBINE, token i (R229): Σ weight × y over its selections in ascending rank. -/
def moeCombine (x : KIn) (i : Nat) : KRes := do
  let t := x.a 0
  let k := x.a 1
  let d := x.a 2
  let f := fmtOf 1
  let idx ← x.rd 1 (i * k) k
  let ws ← (List.range k).mapM (fun s => x.ld 2 1 t k i s)
  let ys ← (List.range k).mapM (fun s =>
    x.lds 0 (x.a 3) (t * k) d (Config.expertRow (nthD idx s 0).toNat i s % max 1 (t * k)) 0 d)
  let vals := (List.range d).map (fun c =>
    let prods := (ws.zip ys).map (fun p => fMul f x.mode p.1 (nthD p.2 c ⟨.nan, 0⟩))
    match prods with
    | [] => (⟨.fin false 0 1, 0⟩ : Flg Num)
    | v :: r => r.foldl (fAdd f x.mode) v)
  let runs ← (List.range ((d + 31) / 32)).mapM (fun b =>
    x.st x.mode 3 0 (x.a 4) t d i (32 * b) none ((vals.drop (32 * b)).take 32))
  return { (runs.map (·.1)).foldl KOut.add KOut.nil with k := 0 }

/-- KV_APPEND, token i (R229): its row goes to its place in the page that the page table names; entries of page table and page list are four bytes. A page is
counted as opened by the token at its offset 0. -/
def kvAppend (x : KIn) (i : Nat) : KRes := do
  let b := x.a 1
  let per := max 1 (x.a 2 / max 1 b)
  let ent ← x.rd 0 (i / per * 4) 4
  let row ← x.rd 1 (i * b) b
  let w ← x.wr 2 (leNat ent * x.a 2 + i % per * b) row
  return { writes := w, flags := 0, k := if i % per = 0 then 1 else 0 }

/-- KV_GATHER, entry i of the page list (R229): the page is copied in list order; from E4M3 into BF16 each element is multiplied by its page's FP32 scale. -/
def kvGather (x : KIn) (i : Nat) : KRes := do
  let page := x.a 1
  let din := x.a 2
  let dout := x.a 3
  let ent ← x.rd 0 (i * 4) 4
  let src ← x.rd 1 (leNat ent * page) page
  if din = dout then
    let w ← x.wr 3 (i * page) src
    return { writes := w, flags := 0, k := 1 }
  else
    let cnt := page * 8 / max 1 (fmtBits din)
    let scale ← if din = 4 ∧ dout = 2 then x.ld 2 1 1 (x.a 0) 0 i else pure ⟨.fin false 1 1, 0⟩
    let vals := (List.range cnt).map (fun j => fMul (fmtOf 1) x.mode (loadNum din (codeAt din src j) 127) scale)
    let runs ← (List.range ((cnt + 31) / 32)).mapM (fun c =>
      x.st x.mode 3 0 dout (x.a 0) cnt i (32 * c) none ((vals.drop (32 * c)).take 32))
    return { (runs.map (·.1)).foldl KOut.add KOut.nil with k := 1 }

/-- CRC32C over data followed by GEN as 8 little-endian bytes: SEAL (R229), and the CRC of a piece (09_collectives.md R244). -/
def sealCrc (d : List Byte) (gen : Nat) : Nat := crcOf polyCastagnoli (d ++ leBytes 8 gen)

/-- SEAL (R229): one unit, whose KRESULT is the CRC. -/
def sealUnit (x : KIn) : KRes := do
  let d ← x.rd 0 0 (x.a 0)
  return { writes := [], flags := 0, k := sealCrc d (x.a 1) }

/-- Units of a kernel. -/
def units (x : KIn) : Nat :=
  match x.kernel with
  | 1 => (x.a 1 + 31) / 32
  | 2 => (x.a 0 + 31) / 32
  | 11 => 1
  | _ => x.a 0

/-- Unit i of a kernel. -/
def unit (x : KIn) (i : Nat) : KRes :=
  match x.kernel with
  | 1 => x.reduceScale i
  | 2 => x.requant i
  | 3 => x.compress 2 2 3 i
  | 4 => x.expand i
  | 5 => x.adam i
  | 6 => x.moeGate i
  | 7 => x.moeDispatch i
  | 8 => x.moeCombine i
  | 9 => x.kvAppend i
  | 10 => x.kvGather i
  | 11 => x.sealUnit
  | _ => .ok KOut.nil

/-- Units `lo` up, `n` of them, in order: the results up to the first access beyond a stream, and that access. -/
def run (x : KIn) (lo : Nat) : Nat → KOut × Option (Nat × Nat)
  | 0 => (KOut.nil, none)
  | n + 1 =>
    match run x lo n with
    | (o, some e) => (o, some e)
    | (o, none) => match x.unit (lo + n) with
      | .ok p => (o.add p, none)
      | .error e => (o, some e)

end KIn
end Sys2Proof.Machine
end

