-- ==== Sys2Proof/Machine/FaultOps.lean ====
section
/-! DEFINITION. The fault collector's shared operations (16_faults.md R392 to R405): one fault event is counted, recorded,
captured and classified here, whichever unit reports it. -/
namespace Sys2Proof.Machine

/-- Fault sources with a number of their own (R392). -/
def srcPort (n : Nat) : Nat := n
def srcRte (n : Nat) : Nat := 32 + n
def srcTile (t : Nat) : Nat := 64 + t
def srcTsram (t : Nat) : Nat := 128 + t
def srcCream (b : Nat) : Nat := 192 + b
def srcPeat (c : Nat) : Nat := 256 + c
def srcCiph (e : Nat) : Nat := 280 + e
def srcArray (a : Nat) : Nat := 284 + a
def srcPll (k : Nat) : Nat := 292 + k
def srcSlu : Nat := 300
def srcTime : Nat := 301
def srcQe : Nat := 302
def srcXlt : Nat := 303
def srcWin : Nat := 304
def srcBeq : Nat := 305
def srcColl : Nat := 306
def srcRegMgmt : Nat := 308
def srcRegFabric : Nat := 309
def srcEntropy : Nat := 310
def srcXtal : Nat := 311
def srcOsc : Nat := 312
def srcThermal : Nat := 313
def srcPower : Nat := 314
def srcConfig : Nat := 315
def srcFwu : Nat := 316
def srcFlash : Nat := 317

/-- Kinds of fault event (R393) and of record (R394). -/
def kCorrected : Nat := 1
def kFailed : Nat := 2
def kFatal : Nat := 3

/-- What a fault event says beyond its source and kind (R394). -/
structure FltInfo where
  access : Nat := 0
  status : Nat := 0
  unit : Nat := 0x1FF
  herd : Nat := 0
  addr : Nat := 0
  detail : Nat := 0

/-- The 32-byte record as eight words (R394). -/
def fltRecord (m : Mach) (s kind state count : Nat) (x : FltInfo) : List Word :=
  let w := fun n => BitVec.ofNat 32 n
  [w (1 + kind * 16 + s * 256 + x.access * 2 ^ 17 + state * 2 ^ 20 + x.status * 2 ^ 24),
   w (x.unit + x.herd * 2 ^ 16), w x.addr, w (x.addr / 2 ^ 32),
   loHalf m.polder, hiHalf m.polder, w count, w x.detail]

/-- A port that has just been reset. -/
def freshPort : PortSt :=
  { since := 0, stepOne := 0, restarts := 0, offerGot := false, seenSent := false, seenGot := false, confirmSent := false, partner := none,
    agreed := none, lastUanto := none, fecEnd := none, fecCount := 0, paused := [], heldSince := [], ignore := [], xoff := [], mute := [],
    diagAt := none, txTag := 0, writes := [], retrain := false, busyUntil := 0, inq := [], anySince := none, pausedRem := 0, diagPhase := 1,
    rxWait := [] }

namespace Mach

/-- A port beyond its registers. -/
def pt (m : Mach) (p : Nat) : PortSt := (alGet m.ports p).getD freshPort

/-- Sets a port. -/
def setPt (m : Mach) (p : Nat) (x : PortSt) : Mach := (m.putPorts (alPut m.ports p x))

/-- A source that has had no event. -/
def freshSrc : FltSrc :=
  { handling := .none, windowEnd := none, lastEvent := 0, fenceDone := none, fatalMeanwhile := false, pendingCmd := 0,
    clearReturn := false }

/-- The collector's state for a source. -/
def src (m : Mach) (s : Nat) : FltSrc := (alGet m.flt.src s).getD freshSrc

/-- Sets the collector's state for a source. -/
def setSrc (m : Mach) (s : Nat) (x : FltSrc) : Mach :=
  (m.putFlt { m.flt with src := alPut m.flt.src s x })

/-- FLT_SRC_STATUS.STATE: 0 NORMAL, 1 DEGRADED, 2 FENCED, 3 LOCKED. -/
def srcState (m : Mach) (s : Nat) : Nat := m.get F.FLT_SRC_STATUS_STATE 0 s

/-- Sets what is handled for a source, with FLT_SRC_STATUS.HANDLING as its mirror (R400). -/
def setHandling (m : Mach) (s : Nat) (h : Handling) : Mach :=
  (m.setSrc s { m.src s with handling := h }).set F.FLT_SRC_STATUS_HANDLING (if h = .none then 0 else 1) 0 s

/-- Puts a record in the fault queue, or counts it as lost (R402). -/
def fltQueue (m : Mach) (s : Nat) (rec : List Word) : Mach :=
  if m.flt.queue.length < 512 then (m.putFlt { m.flt with queue := m.flt.queue ++ [rec] })
  else
    let m := (m.inc F.FLT_SRC_OVF 1 0 s).set F.FLT_FLAGS_OVERFLOW 1
    if m.flt.overflowRaised then m
    else (m.putFlt { m.flt with overflowRaised := true }).raise 0x0014 s 0 [0] s 0

/-- Closes the counting window of a source (R396, R397). -/
def closeWindow (m : Mach) (s : Nat) : Mach :=
  (m.setSrc s { m.src s with windowEnd := none }).set F.FLT_SRC_STATUS_COUNT 0 0 s

/-- Changes the state of a source and writes the TRANSITION record (R394). -/
def srcMove (m : Mach) (s new : Nat) : Mach :=
  let old := m.srcState s
  let m := m.set F.FLT_SRC_STATUS_STATE new 0 s
  m.fltQueue s (fltRecord m s 4 new (m.get F.FLT_SRC_STATUS_RECOVERIES 0 s) { unit := s, detail := old })

/-- The source becomes DEGRADED (R397): TRANSITION record, UNIT_DEGRADED to the steward, and handling until both are written. -/
def degrade (m : Mach) (s : Nat) : Mach :=
  ((m.srcMove s 1).raise 0x0010 s 0 [0] s (m.get F.FLT_SRC_STATUS_COUNT 0 s)).setHandling s .degraded

/-- The number of sources under handling (R400). -/
def handlingCount (m : Mach) : Nat := (m.flt.src.filter (fun p => p.2.handling ≠ .none)).length

/-- The unit of a source begins or ends to run without coverage (R27, R397). -/
def setUncovered (m : Mach) (s : Nat) (b : Bool) : Mach :=
  let m := m.set F.FLT_SRC_STATUS_UNCOVERED b.toNat 0 s
  if b ∧ m.srcState s = 0 ∧ (m.src s).handling = .none then m.degrade s else m

/-- Marks a Peat package erased, if none is (10_memory.md R271, R398). -/
def erasePackage (m : Mach) (c : Nat) : Mach :=
  if m.bit F.PEAT_STATUS_ERASED then m
  else ((m.set F.PEAT_STATUS_ERASED 1).set F.PEAT_STATUS_ERASED_PKG c).set F.PEAT_C_STATUS_ERASED 1 c

/-- The alternate PLL that feeds the same group of domains (17_clocks_power_reset.md, PLL table): 1 and 2, 3 and 4, 5 and 6 back
each other, 0 and 7 back each other. -/
def pllAlternate (k : Nat) : Nat :=
  if k = 0 then 7 else if k = 7 then 0 else if k % 2 = 1 then k + 1 else k - 1

/-- Moves every domain that a PLL feeds to its alternate, each losing 16 cycles (17_clocks_power_reset.md R413, R414). The
polder timebase, domain 57, adds its 256 lost units to its count, so polder time is as without the move. -/
def pllMoveDomains (m : Mach) (k : Nat) : Mach :=
  let a := pllAlternate k
  (List.range 60).foldl (fun m d =>
    if m.get F.CLK_DOM_STATUS_PLL 0 d = k ∧ m.bit F.CLK_DOM_STATUS_RUNNING 0 d then
      ((m.set F.CLK_DOM_STATUS_PLL a 0 d).set F.CLK_DOM_STATUS_ON_ALT 1 0 d).set F.CLK_PLL_CARRYING 1 a
    else m) m

/-- A tile goes out of service (07_churn_arithmetic.md R200); its running launches end when the command settles (`Mach.absorb`). -/
def fenceTile (m : Mach) (t : Nat) : Mach :=
  let m := m.set F.CHU_TILE_STATUS_FENCED 1 0 t
  (m.putTileDowns (m.tileDowns ++ [t]))

/-- A port leaves its link state for another than UP, with LINK_DOWN if it was UP (12_ports_mac.md R313); the loss of the link is absorbed when the command
settles (`Mach.absorb`). -/
def portDown (m : Mach) (p dest : Nat) : Mach :=
  let st := m.get F.PORT_STATUS_STATE p
  let m := m.setPt p { m.pt p with since := m.now }
  let m := if st = 3 then ((m.putDowns (m.downs ++ [p])).raise 0x0901 (srcPort p) 0 m.liveHerds p st) else m
  m.set F.PORT_STATUS_STATE dest p

/-- A cipher engine goes out of service (15_cipher.md R389). -/
def cipherFence (m : Mach) (e : Nat) : Mach :=
  ((m.set F.CIPH_ENG_STATUS_FENCED 1 e).set F.CIPH_STATUS_FENCED (m.get F.CIPH_STATUS_FENCED ||| 2 ^ e)).inc F.CIPH_ENG_FENCES 1 e

/-- The fence action of a source (R398). -/
def fenceUnit (m : Mach) (s : Nat) : Mach :=
  if s < 64 then m.portDown (s % 32) 0
  else if s < 192 then m.fenceTile (s % 64)
  else if s < 256 then m
  else if s < 280 then m.erasePackage (s - 256)
  else if s < 284 then
    m.cipherFence (s - 280)
  else if s < 292 then (List.range 8).foldl (fun m i => m.fenceTile ((s - 284) * 8 + i)) m
  else if s < 300 then
    ((m.set F.CLK_PLL_COAST 1 (s - 292)).pllMoveDomains (s - 292)).setUncovered (srcPll (pllAlternate (s - 292))) true
  else m

/-- The fence of a source begins: FENCED, or LOCKED where it has returned LIMIT times or the steward fences it (R397, R398).
A Peat source enters LOCKED only by the steward's FENCE (R398). -/
def fenceStart (m : Mach) (s : Nat) (byFence : Bool) : Mach :=
  let rec' := m.get F.FLT_SRC_STATUS_RECOVERIES 0 s
  let isPeat : Bool := 256 ≤ s && s < 280
  let new := if byFence ∨ (isPeat = false ∧ m.get F.FLT_CLASS_QUIET_LIMIT 0 s ≤ rec') then 3 else 2
  let m := (m.srcMove s new).fenceUnit s
  let m := m.raise (if new = 3 then 0x0013 else 0x0011) s 0 m.liveHerds s rec'
  let m := m.set F.FLT_SRC_STATUS_RETURNING 0 0 s
  let m := m.setHandling s .fence
  m.setSrc s { m.src s with fenceDone := none, fatalMeanwhile := false }

/-- Whether the count of a source has reached N_SEV (R396: 0 never). -/
def severe (m : Mach) (s : Nat) : Bool :=
  let n := m.get F.FLT_CLASS_N_N_SEV 0 s
  n != 0 && decide (n ≤ m.get F.FLT_SRC_STATUS_COUNT 0 s)

/-- Whether the count of a source has reached N_DEG, or its unit runs without coverage. -/
def degraded (m : Mach) (s : Nat) : Bool :=
  let n := m.get F.FLT_CLASS_N_N_DEG 0 s
  (n != 0 && decide (n ≤ m.get F.FLT_SRC_STATUS_COUNT 0 s)) || m.bit F.FLT_SRC_STATUS_UNCOVERED 0 s

/-- One evaluation of a source against its count and a FATAL event: at most one transition (R397, R400). A reaction waits
while sixteen sources are handled. -/
def evalSource (m : Mach) (s : Nat) (fatal : Bool) : Mach :=
  let st := m.srcState s
  if ¬ (st = 0 ∨ st = 1) then m
  else
    let sev := fatal || m.severe s
    if sev = false ∧ ¬ (st = 0 ∧ m.degraded s = true) then m
    else if 16 ≤ m.handlingCount then
      let m := m.setSrc s { m.src s with fatalMeanwhile := fatal || (m.src s).fatalMeanwhile }
      (m.putFlt { m.flt with waiting := m.flt.waiting ++ [s] })
    else if sev then m.fenceStart s false
    else m.degrade s

/-- One fault event of a source (R392): counted in its window, recorded in the queue, captured if a capture is armed, and
classified. While the source is handled it starts no second reaction, but for the two exceptions of R400. -/
def fault (m : Mach) (s kind : Nat) (x : FltInfo := {}) : Mach :=
  let y := m.src s
  let isOpen : Bool := match y.windowEnd with | some e => decide (m.now < e) | none => false
  let count := if isOpen then min (m.get F.FLT_SRC_STATUS_COUNT 0 s + 1) 65535 else 1
  let wend := if isOpen then y.windowEnd else some (m.now + max 1 (m.get F.FLT_CLASS_WINDOW 0 s) * ms)
  let fatal := kind == kFatal
  let m := m.setSrc s { y with windowEnd := wend, lastEvent := m.now }
  let m := (m.set F.FLT_SRC_STATUS_COUNT count 0 s).inc F.FLT_SRC_EVENTS 1 0 s
  let st := m.srcState s
  let sev := fatal || m.severe s
  let reacts : Bool := match y.handling with
    | .none => decide (st = 0) || decide (st = 1)
    | .degraded => sev
    | .return => sev
    | .fence => false
  let fences := reacts && sev
  let limit := decide (m.get F.FLT_CLASS_QUIET_LIMIT 0 s ≤ m.get F.FLT_SRC_STATUS_RECOVERIES 0 s) &&
    !(decide (256 ≤ s) && decide (s < 280))
  let after := if fences then (if limit then 3 else 2)
    else if reacts && decide (st = 0) && m.degraded s then 1 else st
  let r := fltRecord m s kind after count x
  let m := m.fltQueue s r
  let m := if m.bit F.FLT_CAP_VALID_VALID 0 s then m
    else (List.range 8).foldl (fun m i => m.set F.FLT_CAP (nthD r i 0).toNat i s) (m.set F.FLT_CAP_VALID_VALID 1 0 s)
  if reacts && y.handling == .none then m.evalSource s fatal
  else if fences then m.fenceStart s false
  else if y.handling = .fence then m.setSrc s { m.src s with fatalMeanwhile := fatal || (m.src s).fatalMeanwhile }
  else m

/-- The fault line of connector J4 (R405): in fail-stop always, else as FLT_LINE_MASK and LINE_EN select. The line is also
asserted while the boot is halted (17_clocks_power_reset.md R408, R427). -/
def faultLine (m : Mach) : Bool :=
  let any := fun (n : Nat) => (m.listed 0x00030044).any (fun p => getBits p.2.toNat 28 4 == n)
  m.bit F.QE_STATUS_FAIL_STOP || m.halted ||
  (m.bit F.FLT_CTL_LINE_EN &&
    ((m.bit F.FLT_LINE_MASK_FENCED && any 2) || (m.bit F.FLT_LINE_MASK_LOCKED && any 3) ||
     (m.bit F.FLT_LINE_MASK_DEGRADED && any 1) || (m.bit F.FLT_LINE_MASK_OVERFLOW && m.bit F.FLT_FLAGS_OVERFLOW)))

end Mach
end Sys2Proof.Machine
end

