-- ==== Sys2Proof/Machine/PlanOps.lean ====
section
/-! DEFINITION. Reading the plan in force: banks and their states, tides, slots and the ports in scheduled use
(02_polder_time.md R51, R52; 03_sluice_plans.md R67, R71 to R86). -/
namespace Sys2Proof.Machine

/-- Units in a slot (01_architecture.md R25). -/
def slotUnits : Nat := 2720

/-- Slots of an hour of polder time wrap with it: a difference of polder times, as a signed number of units (R40). -/
def timeDiff (a b : DWord) : Int := (a - b).toInt

/-- Whether polder time `a` has reached `b`, modulo 2^64 (R40). -/
def reached (a b : DWord) : Bool := decide (0 ≤ timeDiff a b)

namespace Mach

/-- A plan bank. -/
def bank (m : Mach) (b : Nat) : Bank := if b = 0 then m.plan.bank0 else m.plan.bank1

/-- Sets a plan bank. -/
def setBank (m : Mach) (b : Nat) (x : Bank) : Mach :=
  if b = 0 then (m.putPlan { m.plan with bank0 := x }) else (m.putPlan { m.plan with bank1 := x })

/-- State of a bank: 0 EMPTY, 1 CHECKING, 2 REFUSED, 3 ADMITTED, 4 ARMED, 5 ACTIVE, 6 RETIRING (R98). -/
def bankState (m : Mach) (b : Nat) : Nat :=
  if b = 0 then m.get F.SLU_BANK_STATUS_BANK0 else m.get F.SLU_BANK_STATUS_BANK1

/-- Sets the state of a bank. -/
def setBankState (m : Mach) (b st : Nat) : Mach :=
  if b = 0 then m.set F.SLU_BANK_STATUS_BANK0 st else m.set F.SLU_BANK_STATUS_BANK1 st

/-- The bank in a given state that holds a plan, if any, with its plan. -/
def bankIn (m : Mach) (st : Nat) : Option (Nat × Plan) :=
  if m.bankState 0 = st then m.plan.bank0.plan.map (fun p => (0, p))
  else if m.bankState 1 = st then m.plan.bank1.plan.map (fun p => (1, p))
  else none

/-- Plans of the banks in state ADMITTED, ARMED, ACTIVE or RETIRING, with their banks. -/
def heldPlans (m : Mach) : List (Nat × Plan) :=
  [0, 1].filterMap (fun b => if 3 ≤ m.bankState b then (m.bank b).plan.map (fun p => (b, p)) else none)

/-- The ACTIVE bank and its plan. -/
def active (m : Mach) : Option (Nat × Plan) := m.bankIn 5

/-- The RETIRING bank and its plan. -/
def retiring (m : Mach) : Option (Nat × Plan) := m.bankIn 6

/-- The RETIRING bank whose UNLOAD waits for the next tide boundary: until then its slots open (R67). -/
def unloading (m : Mach) : Option (Nat × Plan) := m.retiring.filter (fun b => (m.bank b.1).unload)

/-- The plan in force. -/
def plan? (m : Mach) : Option Plan := (m.active <|> m.unloading).map (·.2)

/-- The plans whose frames the module handles: the ACTIVE one, then the RETIRING one (R92). -/
def livePlans (m : Mach) : List Plan := (m.active.map (·.2)).toList ++ (m.retiring.map (·.2)).toList

/-- Whether some bank is ARMED, ACTIVE or RETIRING (02_polder_time.md R41, R56). -/
def planBound (m : Mach) : Bool :=
  [0, 1].any (fun b => m.bankState b == 4 || m.bankState b == 5 || m.bankState b == 6)

/-- EPOCH with which frames leave: that of the ACTIVE bank, or 0 (R92; 13_routing_deadlock.md, Tables and epochs). -/
def epoch (m : Mach) : Nat := (m.active.map (·.2.epoch)).getD 0

end Mach

/-- LINK record of a port in a plan (R72). -/
def Plan.link (p : Plan) (port : Nat) : Option LinkRec := p.links.find? (fun l => l.port == port)

/-- Phase of a port (R72). -/
def Plan.phase (p : Plan) (port : Nat) : Nat := ((p.link port).map (·.phase)).getD 0

/-- Slot entry of a port: kind and reference; FREE where nothing is listed (R71). -/
def Plan.slotAt (p : Plan) (port slot : Nat) : Nat × Nat :=
  ((p.slots.find? (fun x => x.port == port && x.slot == slot)).map (fun x => (x.kind, x.ref))).getD (0, 0)

/-- Whether tide `k` is a slack tide (R86). -/
def Plan.isSlack (p : Plan) (k : Nat) : Bool := p.slackPeriod != 0 && k % p.slackPeriod == p.slackPhase

/-- Units since tide 0 began, on the time line of a port of phase `ph`; `none` before it (R51). -/
def Plan.rel (p : Plan) (t : DWord) (ph : Nat) : Option Nat :=
  let d := timeDiff t (BitVec.ofNat 64 (p.tideBase + ph))
  if 0 ≤ d then some d.toNat else none

/-- Tide number at a polder time (R51). -/
def Plan.tideAt (p : Plan) (t : DWord) : Option Nat := (p.rel t 0).map (fun r => r / (p.tideLen * slotUnits))

/-- Slots since tide 0 on a port at a polder time: tide × TIDE_LEN + slot (R51, the chapter's pseudocode). -/
def Plan.absSlot (p : Plan) (t : DWord) (port : Nat) : Option Nat := (p.rel t (p.phase port)).map (fun r => r / slotUnits)

/-- Polder time at which absolute slot `n` opens on a port (R51). -/
def Plan.opening (p : Plan) (port n : Nat) : DWord := BitVec.ofNat 64 (p.tideBase + n * slotUnits + p.phase port)

/-- The kind a slot acts as: in a slack tide only TIME entries are used (R86). -/
def Plan.kindIn (p : Plan) (port n : Nat) : Nat × Nat :=
  let e := p.slotAt port (n % p.tideLen)
  if p.isSlack (n / p.tideLen) && e.1 != 4 then (0, 0) else e

/-- What the plan needs of a link's negotiated set, as bits of ID_CAP3 (01_architecture.md R36): LODES for scheduled entries, SHADOW for shadow copies. -/
def Plan.linkNeeds (p : Plan) (port : Nat) : Nat :=
  (if p.slots.any (fun e => e.port == port && (e.kind == 1 || e.kind == 2 || e.kind == 3)) then 1 else 0) +
  (if p.slots.any (fun e => e.port == port && e.kind == 2) then 4 else 0)

/-- Outgoing record of a lode. -/
def Plan.out (p : Plan) (lode : Nat) : Option LodeOut := p.lodesOut.find? (fun l => l.lode == lode)

/-- Incoming record of a lode. -/
def Plan.inc (p : Plan) (lode : Nat) : Option LodeIn := p.lodesIn.find? (fun l => l.lode == lode)

/-- Whether a port has any entry other than FREE (R75). -/
def Plan.usesPort (p : Plan) (port : Nat) : Bool := p.slots.any (fun x => x.port == port)

namespace Mach

/-- Marks a port out of scheduled use under a rule. -/
def schedOut (m : Mach) (port rule : Nat) : Mach :=
  if m.plan.outPorts.contains (port, rule) then m
  else (m.putPlan { m.plan with outPorts := m.plan.outPorts ++ [(port, rule)] })

/-- Clears a reason for which a port is out of scheduled use. -/
def schedIn (m : Mach) (port rule : Nat) : Mach :=
  (m.putPlan { m.plan with outPorts := m.plan.outPorts.filter (fun x => x != (port, rule)) })

/-- Whether a port is out of scheduled use for any reason (12_ports_mac.md R314, NOT_SCHED): R36, R48, R60 (its own stop or a STOPPED
neighbour), R75, R95, R314 or R330. -/
def notSched (m : Mach) (port : Nat) : Bool :=
  m.plan.outPorts.any (fun x => x.1 == port) || m.bit F.PORT_STATUS_SCHED_OUT port || m.plan.schedStopped ||
  (m.get F.PORT_STATUS_STATE port == 3 && m.get F.PORT_STATUS_RATE port != 0 &&
    (m.livePlans.any (fun p => p.usesPort port)))

/-- Whether a port serves scheduled frames: UP and in scheduled use. -/
def schedUp (m : Mach) (port : Nat) : Bool := m.get F.PORT_STATUS_STATE port == 3 && !m.notSched port

/-- Whether a lode has a path (01_architecture.md R28; an encrypted lode also needs its cipher engine, 15_cipher.md R389). -/
def lodeHasPath (m : Mach) (l : LodeOut) : Bool :=
  let eng := fun (p : Nat) => !l.encrypted || !m.bit F.CIPH_ENG_STATUS_FENCED (p % 4)
  (m.schedUp l.port && eng l.port) || (l.covered && m.schedUp l.shadowPort && eng l.shadowPort)

end Mach
end Sys2Proof.Machine
end

