-- ==== Sys2Proof/Machine/PlanImage.lean ====
section
/-! DEFINITION. Reading a plan image out of its bytes (03_sluice_plans.md R64, R71, R72, R76, R88; 02_polder_time.md R483;
09_collectives.md R236; 08_churn_programs.md R217; 13_routing_deadlock.md R336). -/
namespace Sys2Proof.Machine

/-- A section directory entry (R64). -/
structure Section where
  type : Nat
  sversion : Nat
  isOptional : Bool
  offset : Nat
  length : Nat
  count : Nat
  deriving DecidableEq, Repr

/-- Entries of a section directory: 16 bytes each. -/
def sectionsOf (img : List Byte) (n off : Nat) : List Section :=
  (List.range n).map (fun i =>
    let e := (img.drop (off + 16 * i)).take 16
    { type := leAt e 0 2, sversion := leAt e 2 2 % 0x8000, isOptional := 0x8000 ≤ leAt e 2 2
      offset := leAt e 4 4, length := leAt e 8 4, count := leAt e 12 4 })

/-- The directory of a plan image. -/
def planSections (img : List Byte) : List Section := sectionsOf img (leAt img 0x48 4) (leAt img 0x4C 4)

/-- The records of a section type, `size` bytes each, in order over every section of that type. -/
def records (img : List Byte) (secs : List Section) (type size : Nat) : List (List Byte) :=
  (secs.filter (fun s => s.type == type)).flatMap (fun s =>
    (List.range (s.length / size)).map (fun i => (img.drop (s.offset + size * i)).take size))

/-- `n` 32-bit words at an offset. -/
def words32 (img : List Byte) (off n : Nat) : List Nat := (List.range n).map (fun i => leAt img (off + 4 * i) 4)

/-- A TIME_TREE record (R483). -/
def timeRecOf (img r : List Byte) : TimeRec :=
  { role := leAt r 0 1 % 4, hasBackup := leAt r 0 1 / 4 % 2 == 1, primaryPort := leAt r 1 1, primaryModule := leAt r 2 2
    backupPort := leAt r 4 1, depth := leAt r 5 1, backupModule := leAt r 6 2, backupDepth := leAt r 8 1
    primarySlots := words32 img (leAt r 0x10 4) (leAt r 0x0C 2)
    backupSlots := words32 img (leAt r 0x14 4) (leAt r 0x0E 2) }

/-- A hop entry (R76, PATH). -/
def hopOf (w : Nat) : Hop := { module := w % 65536, outPort := w / 65536 % 256, inPort := w / 16777216 }

/-- A LODE_OUT record (R76). -/
def lodeOutOf (img r : List Byte) : LodeOut :=
  let fl := leAt r 6 2
  let n := leAt r 0x12 2
  { lode := leAt r 0 4, herd := leAt r 4 2, covered := fl % 2 == 1, encrypted := fl / 2 % 2 == 1, coll := fl / 4 % 2 == 1
    dstModule := leAt r 8 2, hops := leAt r 0x0A 1, shadowHops := leAt r 0x0B 1, dstLode := leAt r 0x0C 4
    port := leAt r 0x10 1, shadowPort := leAt r 0x11 1, slots := n, keyPage := leAt r 0x14 2
    latency := leAt r 0x18 4, shadowLatency := leAt r 0x1C 4
    slotList := words32 img (leAt r 0x20 4) n
    shadowList := if fl % 2 == 1 then words32 img (leAt r 0x24 4) n else []
    path := (words32 img (leAt r 0x28 4) (leAt r 0x0A 1)).map hopOf
    shadowPath := if fl % 2 == 1 then (words32 img (leAt r 0x2C 4) (leAt r 0x0B 1)).map hopOf else [] }

/-- A LODE_IN record (R76). -/
def lodeInOf (r : List Byte) : LodeIn :=
  { lode := leAt r 0 4, srcModule := leAt r 4 2, covered := leAt r 6 2 % 2 == 1, encrypted := leAt r 6 2 / 2 % 2 == 1
    srcLode := leAt r 8 4, herd := leAt r 0x0C 2, keyPage := leAt r 0x0E 2 }

/-- A LINK record (R72). -/
def linkOf (r : List Byte) : LinkRec :=
  { port := leAt r 0 1, peerPort := leAt r 1 1, peerModule := leAt r 2 2, cable := leAt r 4 4, pad := leAt r 8 2
    phase := leAt r 0x0A 2, peerPhase := leAt r 0x0C 2 }

/-- A reservation record (R88). -/
def resvOf (r : List Byte) : Resv :=
  { type := leAt r 0 1, rversion := leAt r 1 1, herd := leAt r 2 2, units := leAt r 4 8, start := leAt r 0x0C 4
    length := leAt r 0x10 4, period := leAt r 0x14 2, tphase := leAt r 0x16 2, amount := leAt r 0x18 4, owner := leAt r 0x1C 4 }

/-- A COLL_GROUP record (09_collectives.md R236). -/
def groupOf (r : List Byte) : GroupRec :=
  { group := leAt r 0 2, herd := leAt r 2 1, inPlace := leAt r 3 1 % 2 == 1, members := leAt r 4 2, rank := leAt r 6 2
    predModule := leAt r 8 2, succModule := leAt r 0x0A 2, fwdLode := leAt r 0x0C 4, backLode := leAt r 0x10 4
    credits := leAt r 0x14 2, timeoutMs := leAt r 0x16 2, hop := leAt r 0x18 4, maxBytes := leAt r 0x1C 4
    keepBase := leAt r 0x20 8, keepAsid := leAt r 0x28 1, owner := leAt r 0x2C 4 }

/-- A PROGRAM record (08_churn_programs.md R217). -/
def progOf (r : List Byte) : ProgRec :=
  { owner := leAt r 0 4, herd := leAt r 4 1, library := leAt r 6 2, tiles := leAt r 8 8
    shapeMax := words32 r 0x10 8, digest := BitVec.ofNat 384 (leAt r 0x30 48) }

/-- The slot-table entries that are not FREE (R71): entry p × TIDE_LEN + s of the SLOT section. -/
def slotsOf (img : List Byte) (secs : List Section) (tideLen : Nat) : List SlotRec :=
  ((records img secs 2 4).zipIdx).filterMap (fun x =>
    let w := leAt x.1 0 4
    if w / 2 ^ 28 = 0 then none
    else some { port := x.2 / tideLen, slot := x.2 % tideLen, kind := w / 2 ^ 28, ref := w % 2 ^ 28 })

/-- The plan that an image spells. -/
def planOf (img : List Byte) : Plan :=
  let secs := planSections img
  let fl := leAt img 0x30 4
  { module := leAt img 0x0C 2, modules := leAt img 0x0E 2, planId := leAt img 0x10 8, tideBase := leAt img 0x18 8
    tideLen := leAt img 0x20 4, maxFlight := leAt img 0x24 4, slackPeriod := leAt img 0x28 2, slackPhase := leAt img 0x2A 2
    grandMaster := leAt img 0x2C 2, standbyGm := leAt img 0x2E 2, stagedOk := fl % 2 == 1, ppsAnchor := fl / 2 % 2 == 1
    epoch := leAt img 0x34 4 % 2, capReq := words32 img 0x38 4
    links := (records img secs 1 16).map linkOf, slots := slotsOf img secs (leAt img 0x20 4)
    lodesOut := (records img secs 3 64).map (lodeOutOf img), lodesIn := (records img secs 4 32).map lodeInOf
    resvs := (records img secs 5 32).map resvOf, tree := (records img secs 6 32).map (timeRecOf img)
    groups := (records img secs 7 64).map groupOf, progs := (records img secs 8 128).map progOf
    routes := (records img secs 0x0A 8).map (fun r => leAt r 0 8)
    proof := (records img secs 9 1).flatten }

/-- Bytes of one record of a section type whose records have a fixed size (R64, Section types). -/
def recordSize (type : Nat) : Option Nat :=
  match type with
  | 1 => some 16 | 2 => some 4 | 3 => some 64 | 4 => some 32 | 5 => some 32 | 6 => some 32 | 7 => some 64 | 8 => some 128
  | 0x0A => some 8
  | _ => none

/-- The image with its DIGEST field as zero, up to the signature block: what DIGEST is taken over (R64). -/
def digestInput (img : List Byte) (off upTo : Nat) : List Byte :=
  (img.take off ++ List.replicate 48 0 ++ img.drop (off + 48)).take upTo

end Sys2Proof.Machine
end

