-- ==== Sys2Proof/Machine/Codes.lean ====
section
/-! DEFINITION. Completion status codes (00_scope.md R16, completion status table). -/
namespace Sys2Proof.Machine

def stDone : Nat := 0x00
def stProvisional : Nat := 0x01
def stXlate : Nat := 0x10
def stContext : Nat := 0x11
def stClosed : Nat := 0x12
def stBounds : Nat := 0x13
def stBudget : Nat := 0x20
def stPlanAbsent : Nat := 0x21
def stRemoteTimeout : Nat := 0x30
def stRetryExhausted : Nat := 0x31
def stAborted : Nat := 0x40
def stRevoked : Nat := 0x41
def stFlushed : Nat := 0x50
def stMalformed : Nat := 0x60
def stKeyExhausted : Nat := 0x70
def stIntegrity : Nat := 0x71
def stUncorrectable : Nat := 0x80
def stUnsupported : Nat := 0xF0

end Sys2Proof.Machine
end

