-- ==== Sys2Proof/Machine/KeyBase.lean ====
section
/-! DEFINITION. Key pages: their two slots and the switch of keys (15_cipher.md R373, R382, R385, R387). -/
namespace Sys2Proof.Machine
namespace Mach

/-- A key page beyond its registers. -/
def keyPage (m : Mach) (p : Nat) : KeyPage :=
  (alGet m.ciph.pages p).getD { cur := none, other := none, switchAt := 0, record := none }

/-- Sets a key page. -/
def setKeyPage (m : Mach) (p : Nat) (x : KeyPage) : Mach := (m.putCiph { m.ciph with pages := alPut m.ciph.pages p x })

/-- State of a key page: 0 FREE, 1 EMPTY, 2 ACTIVE, 3 STAGED, 4 RETIRING (R382). -/
def keyState (m : Mach) (p : Nat) : Nat := m.get F.CIPH_PAGE_STATUS_STATE 0 p

/-- Key page that an outgoing lode names, if it is encrypted, in a live plan (R371). -/
def lodeKey (m : Mach) (l : Nat) : Option Nat :=
  (m.livePlans.findSome? (fun p => p.out l)).bind (fun r => if r.encrypted then some r.keyPage else none)

/-- Whether a queue pair is encrypted, and its key page (BEQ_QP_CFG words 0 and 4). -/
def qpKey (m : Mach) (q : Nat) : Option Nat :=
  if getBits (m.get F.BEQ_QP_CFG 0 q) 9 1 = 1 ∧ q < 65536 then some (getBits (m.get F.BEQ_QP_CFG 4 q) 0 16) else none

/-- Every channel that encrypts under a page starts its counter at 0 (R373). -/
def zeroCounters (m : Mach) (p : Nat) : Mach :=
  let tx := m.lode.tx.map (fun x => if m.lodeKey x.1 = some p then (x.1, { x.2 with counter := 0 }) else x)
  let qps := m.beq.qps.map (fun x => if m.qpKey x.1 = some p then (x.1, { x.2 with counter := 0 }) else x)
  ((m.putLode { m.lode with tx := tx }).putBeq { m.beq with qps := qps })

/-- The page record of a STORE page is rewritten at each switch and after each granule of a walk (R387). -/
def keyRecord (m : Mach) (p : Nat) : Mach :=
  m.setKeyPage p { m.keyPage p with
    record := some (m.get F.CIPH_PAGE_STATUS_HERD 0 p, m.get F.CIPH_PAGE_STATUS_EPOCH 0 p, m.get F.CIPH_PAGE_CHECK_CUR 0 p,
      m.get F.CIPH_PAGE_CHECK_OTHER 0 p, m.get64 F.CIPH_PAGE_REKEY_LO 0 p) }

/-- The switch of a page's keys (R382): current to the other slot as retiring, next to current, EPOCH + 1, counts and counters 0, HELD clear,
KEY_SWITCHED. A STORE page starts its walk (R385). -/
def keySwitch (m : Mach) (p : Nat) : Mach :=
  let x := m.keyPage p
  let e := (m.get F.CIPH_PAGE_STATUS_EPOCH 0 p + 1) % 65536
  let c := m.get F.CIPH_PAGE_CHECK_CUR 0 p
  let o := m.get F.CIPH_PAGE_CHECK_OTHER 0 p
  let own := m.get F.CIPH_PAGE_STATUS_HERD 0 p
  let m := m.setKeyPage p { x with cur := x.other, other := x.cur, switchAt := m.now }
  let m := ((((m.set F.CIPH_PAGE_STATUS_STATE 4 0 p).set F.CIPH_PAGE_STATUS_EPOCH e 0 p).set F.CIPH_PAGE_STATUS_HELD 0 0 p).set
    F.CIPH_PAGE_CHECK_CUR o 0 p).set F.CIPH_PAGE_CHECK_OTHER c 0 p
  let m := (m.set64 F.CIPH_PAGE_USED_LO 0 0 p).zeroCounters p
  let m := if m.get F.CIPH_PAGE_STATUS_KIND 0 p = 2 then (m.set64 F.CIPH_PAGE_REKEY_LO 0 0 p).keyRecord p else m
  m.raise 0x0A00 0x1FF own [own] p e

end Mach
end Sys2Proof.Machine
end

