-- ==== Sys2Proof/Machine/RegOps.lean ====
section
/-! DEFINITION. Shared operations of register writes: access faults (00_scope.md R7, R9), access types and change classes (R10 to R14),
and the gates of herd pages and the fabric path (14_herds.md R358, R481). -/
namespace Sys2Proof.Machine
namespace Mach

/-- A register-access fault, with address and requesting path (R9, R392: REG_MGMT or REG_FABRIC; R484: FAILED). -/
def regFault (m : Mach) (p : Path) (addr : Nat) (isWrite : Bool) : Mach :=
  let x : FltInfo := { access := if isWrite then 6 else 5, addr := addr }
  match p with
  | .mgmt => m.fault srcRegMgmt kFailed x
  | .fabric h => m.fault srcRegFabric kFailed { x with herd := h }

/-- Whether the module answers only on the SMBus: in STANDBY and OFF (17_clocks_power_reset.md R421). -/
def asleep (m : Mach) : Bool := m.get F.CLK_STATUS_POWER_STATE == 0

/-- Whether registers at an address are served: nowhere in STANDBY and while the boot is halted, but for FLT and CLK by the management port in the halt of step 7
(17_clocks_power_reset.md R408, R427, 18_config_firmware.md R448). -/
def served (m : Mach) (p : Path) (addr : Nat) : Bool :=
  !m.asleep && (!m.halted || (m.get F.CLK_BOOT_STEP == 7 && decide (p = .mgmt) && (addr / 0x10000 == 1 || addr / 0x10000 == 3)))

/-- A dropped Frozen write (R12): CFG_STATUS.FROZEN_WRITE, and its address. -/
def frozenDrop (m : Mach) (addr : Nat) : Mach :=
  if m.bit F.CFG_STATUS_FROZEN_WRITE then m else (m.set F.CFG_STATUS_FROZEN_WRITE 1).set F.CFG_FROZEN_ADDR addr

/-- Whether a plan is loaded: tide boundaries exist (R14). -/
def planLoaded (m : Mach) : Bool := m.get F.SLU_BANK_STATUS_BANK0 == 5 || m.get F.SLU_BANK_STATUS_BANK1 == 5

/-- One field of a register takes a written value by its access type and change class (R10, R12, R13). Staged fields go through the
staged set (18_config_firmware.md R439) and are left alone here. -/
def putField (m : Mach) (key addr value : Nat) (enabled : Bool) (f : RField) : Mach :=
  let wd := f.hi - f.lo + 1
  let old := getBits (m.reg key).toNat f.lo wd
  let new := getBits value f.lo wd
  let store := fun (m : Mach) (v : Nat) => m.setReg key (BitVec.ofNat 32 (putBits (m.reg key).toNat f.lo wd v))
  match f.acc with
  | .w1c => store m (old &&& (old ^^^ new))
  | .rw =>
    match f.chg with
    | .frozen => if enabled then (if old = new then m else m.frozenDrop addr) else store m new
    | .staged => m
    | .tide =>
      let m := if m.planLoaded ∧ old ≠ new ∧ (alGet m.tideOld key).isNone
        then (m.putTideOld (alPut m.tideOld key (m.reg key))) else m
      store m new
    | .refill =>
      let m := if old ≠ new ∧ (alGet m.refillOld key).isNone then (m.putRefillOld (alPut m.refillOld key (m.reg key))) else m
      store m new
    | _ => store m new
  | _ => m

/-- A register takes a written value, field by field. -/
def putFields (m : Mach) (key addr value : Nat) (enabled : Bool) : Mach :=
  match regInfo addr with
  | some (r, _, _) => r.fields.foldl (fun m f => m.putField key addr value enabled f) m
  | none => m

/-- Value of a Tide-class field in force: what it held before the writes that wait for the boundary (R12). -/
def inForce (m : Mach) (f : Fld) (i : Nat := 0) (s : Nat := 0) : Nat :=
  getBits ((alGet m.tideOld (Mach.fkey f i s)).getD (m.reg (Mach.fkey f i s))).toNat f.lo f.wd

/-- Value of a Refill-class field in force. -/
def refilled (m : Mach) (f : Fld) (i : Nat := 0) (s : Nat := 0) : Nat :=
  getBits ((alGet m.refillOld (Mach.fkey f i s)).getD (m.reg (Mach.fkey f i s))).toNat f.lo f.wd

/-- A command register of a block is written: the steward reaches every block, a herd only its own page (R481). Dropped accesses are
captured (R358, R9). In fail-stop only the management port is served (05_queues_descriptors.md R142). -/
def gate (m : Mach) (v : Via) (addr : Nat) (f : Mach → Mach) : Mach :=
  let ok := match v.path, v.page with
    | .mgmt, _ => true
    | .fabric _, _ => !m.bit F.QE_STATUS_FAIL_STOP
  let own := match v.path, v.page with
    | .mgmt, _ => true
    | .fabric h, none => h == 0
    | .fabric h, some g => h == g
  let target := match v.page with
    | none => addr
    | some g => herdPage g + aliasOff addr
  -- a herd in DESTROYING accepts no herd-page write (14_herds.md R356)
  let alive := match v.page with
    | some g => g == 0 || m.get F.QE_HERD_STATUS_STATE 0 g != 4
    | none => true
  if m.served v.path addr = false then m
  else if ok && own && alive then f m else m.regFault v.path target true

/-- A steward-only command register (R481). -/
def stewardGate (m : Mach) (p : Path) (addr : Nat) (f : Mach → Mach) : Mach := m.gate { path := p, page := none } addr f

/-- A write through a herd page's alias that names what the herd does not own (14_herds.md R358): dropped, FOREIGN set, captured. -/
def pageForeign (m : Mach) (v : Via) (addr : Nat) : Mach :=
  let h := v.page.getD 0
  (m.setReg (herdPage h + 0x9004) 1).regFault v.path (herdPage h + aliasOff addr) true

/-- KiB of all pools for given pool registers (13_routing_deadlock.md R338, R343): `size p` the two pool registers of a port, `origin` RTE_POOL_ORIGIN in units of 16 KiB. -/
def poolSum (m : Mach) (size : Nat → Nat × Nat) (origin : Nat) : Nat :=
  ((List.range 32).map (fun p =>
    let r := m.get F.PORT_ROLE_ROLE p
    let (a, b) := size p
    if r = 1 then a / 65536 + 6 * (a % 65536) + b % 65536 else if r = 0 then 0 else a % 65536)).sum +
    16 * (getBits origin 0 8 + getBits origin 8 8 + getBits origin 16 8)

/-- Pool registers of a port, as they stand. -/
def poolRegs (m : Mach) (p : Nat) : Nat × Nat := ((m.reg (0x00200100 + 8 * p)).toNat, (m.reg (0x00200104 + 8 * p)).toNat)

/-- Whether a write of a pool register would bring the total above 32 MiB (R343). -/
def poolsOver (m : Mach) (addr value : Nat) : Bool :=
  if addr = 0x00200040 then decide (32768 < m.poolSum m.poolRegs value)
  else if 0x00200100 ≤ addr ∧ addr < 0x00200200 then
    let p := (addr - 0x00200100) / 8
    decide (32768 < m.poolSum (fun q => if q = p then (if addr % 8 = 0 then (value, (m.poolRegs p).2) else ((m.poolRegs p).1, value)) else m.poolRegs q)
      (m.reg 0x00200040).toNat)
  else false

/-- The last command of a command register completed: DONE, and REFUSED no longer (each register table's DONE and REFUSED). -/
def cmdDone (m : Mach) (done refused : Fld) (s : Nat := 0) : Mach := (m.set done 1 0 s).set refused 0 0 s

/-- The last command was refused, for a reason. -/
def cmdRefused (m : Mach) (done refused reason : Fld) (r : Nat) (s : Nat := 0) : Mach :=
  ((m.set done 0 0 s).set refused 1 0 s).set reason r 0 s

end Mach

/-- The herd for which an access acts: the page's, or herd 0 for the steward's access to a block. -/
def viaHerd (v : Via) : Nat := v.page.getD 0

end Sys2Proof.Machine
end

