-- ==== Sys2Proof/Machine/ShareOps.lean ====
section
/-! DEFINITION. Pools, shares and current use of each herd (14_herds.md R352, R353). The granted share stands in HERD_SHARE_w of the
herd page, the current use in QE_HERD_USE_w of the herd. -/
namespace Sys2Proof.Machine

/-- A pooled resource: its word and bits in the share registers. -/
structure Res where
  word : Nat
  lo : Nat
  wd : Nat

def resSqs : Res := ⟨0, 0, 13⟩
def resCqs : Res := ⟨0, 16, 13⟩
def resQps : Res := ⟨1, 0, 17⟩
def resGroups : Res := ⟨1, 24, 8⟩
def resWindows : Res := ⟨2, 0, 21⟩
def resLodes : Res := ⟨3, 0, 15⟩
def resKeys : Res := ⟨3, 16, 11⟩
def resPeat : Res := ⟨4, 0, 19⟩
def resCream : Res := ⟨5, 0, 13⟩
def resProgs : Res := ⟨5, 16, 10⟩
def resAsids : Res := ⟨5, 27, 5⟩
def resTile : Res := ⟨6, 0, 13⟩
def resCipher : Res := ⟨6, 16, 13⟩
def resPeatBw : Res := ⟨7, 0, 13⟩

/-- Every pooled resource. -/
def allRes : List Res :=
  [resSqs, resCqs, resQps, resGroups, resWindows, resLodes, resKeys, resPeat, resCream, resProgs, resAsids, resTile, resCipher,
   resPeatBw]

namespace Mach

/-- Peat capacity in bytes (10_memory.md R267: PEAT_PKGS × PEAT_PKG_GIB of ID_CAP1). -/
def peatCap (m : Mach) : Nat := m.get F.ID_CAP1_PEAT_PKGS * m.get F.ID_CAP1_PEAT_PKG_GIB * 2 ^ 30

/-- Peat granules of 2 MiB. -/
def peatGranules (m : Mach) : Nat := m.peatCap / 2 ^ 21

/-- Size of a pool (R352). -/
def pool (m : Mach) (r : Res) : Nat :=
  match r.word, r.lo with
  | 1, 0 => 65536
  | 1, _ => 128
  | 2, _ => 1048320
  | 3, 0 => 16384
  | 3, _ => 1024
  | 4, _ => m.peatGranules
  | 5, 16 => 960
  | 5, 27 => 1024
  | _, _ => 4096

/-- Share granted to a herd. -/
def granted (m : Mach) (h : Nat) (r : Res) : Nat :=
  getBits (m.reg (herdPage h + 0x9010 + r.word * 4)).toNat r.lo r.wd

/-- Sets the share granted to a herd. -/
def setGranted (m : Mach) (h : Nat) (r : Res) (n : Nat) : Mach :=
  let k := herdPage h + 0x9010 + r.word * 4
  m.setReg k (BitVec.ofNat 32 (putBits (m.reg k).toNat r.lo r.wd n))

/-- Current use of a herd. Herd 0 is the herd of every ring that was never assigned; it holds the rings of its own that are enabled (notes/assumptions/32.md). -/
def used (m : Mach) (h : Nat) (r : Res) : Nat :=
  if h = 0 ∧ r.word = 0 then
    if r.lo = 0 then ((m.listed 0x0040010C).filter (fun p => getBits p.2.toNat 31 1 == 1 && m.get F.QE_SQ_CFG_HERD 0 p.1 == 0)).length
    else ((m.listed 0x0040020C).filter (fun p => getBits p.2.toNat 31 1 == 1 && m.get F.QE_CQ_CFG_HERD 0 p.1 == 0)).length
  else getBits (m.reg (F.QE_HERD_USE.addr + 4 * r.word + regSpan * h)).toNat r.lo r.wd

/-- Sets the current use of a herd. -/
def setUsed (m : Mach) (h : Nat) (r : Res) (n : Nat) : Mach :=
  let k := F.QE_HERD_USE.addr + 4 * r.word + regSpan * h
  m.setReg k (BitVec.ofNat 32 (putBits (m.reg k).toNat r.lo r.wd n))

/-- The herds other than 0 that hold some share: those whose page lists a share register. -/
def sharers (m : Mach) : List Nat :=
  ((m.regs.filterMap (fun p =>
    if 0x00800000 ≤ p.1 ∧ p.1 < 0x01800000 ∧ 0x9010 ≤ p.1 % 0x10000 ∧ p.1 % 0x10000 < 0x9030
    then some ((p.1 - 0x00800000) / 0x10000) else none)).filter (fun h => h != 0)).eraseDups

/-- Sum of the shares of all herds other than 0. -/
def sharesOthers (m : Mach) (r : Res) : Nat := (m.sharers.map (fun h => m.granted h r)).foldl (· + ·) 0

/-- Whether a herd may take `n` more of a resource: within its share, or for herd 0 within what the pool has not granted (R353). -/
def roomFor (m : Mach) (h : Nat) (r : Res) (n : Nat) : Bool :=
  if h = 0 then decide (m.sharesOthers r + m.used 0 r + n ≤ m.pool r) else decide (m.used h r + n ≤ m.granted h r)

/-- Counts `n` more of a resource against a herd. -/
def take (m : Mach) (h : Nat) (r : Res) (n : Nat) : Mach := m.setUsed h r (m.used h r + n)

/-- Returns `n` of a resource. -/
def giveBack (m : Mach) (h : Nat) (r : Res) (n : Nat) : Mach := m.setUsed h r (m.used h r - n)

end Mach
end Sys2Proof.Machine
end

