-- ==== Sys2Proof/Machine/XltOps.lean ====
section
/-! DEFINITION. Translation and the checks at the serving memory (06_translation_windows.md R154 to R163, R173), reads and writes
of a translated range, dirty logs, and the bookkeeping of writes not yet landed (04_lodes_ordering.md R112). -/
namespace Sys2Proof.Machine

/-! ## Sets of numbers as rising disjoint intervals -/

/-- Whether a number lies in a set of intervals, low end included, high end not. -/
def ivMem (l : List (Nat × Nat)) (n : Nat) : Bool := l.any (fun p => decide (p.1 ≤ n) && decide (n < p.2))

/-- Removes a number. -/
def ivDel (l : List (Nat × Nat)) (n : Nat) : List (Nat × Nat) :=
  l.flatMap (fun p =>
    if p.1 ≤ n ∧ n < p.2 then ([(p.1, n), (n + 1, p.2)] : List (Nat × Nat)).filter (fun q => decide (q.1 < q.2)) else [p])

/-- Adds a number, joining neighbours. -/
def ivAdd : List (Nat × Nat) → Nat → List (Nat × Nat)
  | [], n => [(n, n + 1)]
  | (a, b) :: r, n =>
    if n + 1 < a then (n, n + 1) :: (a, b) :: r
    else if n + 1 = a then (n, b) :: r
    else if n < b then (a, b) :: r
    else if n = b then
      match r with
      | (c, d) :: r' => if c = n + 1 then (a, d) :: r' else (a, n + 1) :: r
      | [] => [(a, n + 1)]
    else (a, b) :: ivAdd r n

/-- Numbers in a set. -/
def ivCount (l : List (Nat × Nat)) : Nat := (l.map (fun p => p.2 - p.1)).foldl (· + ·) 0

/-- Lowest number of a set. -/
def ivFirst (l : List (Nat × Nat)) : Option Nat := l.head?.map (·.1)

/-! ## Walks -/

/-- Kinds of access (XLT_FAULT_INFO.ACCESS). -/
def accRead : Nat := 1
def accWrite : Nat := 2
def accAtomic : Nat := 3
def accTable : Nat := 4

/-- How a walk ends: a leaf entry and its level, or a failure with status, reason, level and access (R158). -/
inductive WalkRes where
  | leaf (entry level : Nat)
  | fail (status reason level access : Nat)
  deriving DecidableEq, Repr

/-- Whether a port faces an accelerator (12_ports_mac.md, PORT_ROLE: 1 fabric, 2 accelerator, 3 long-haul). -/
def Mach.isAccel (m : Mach) (p : Nat) : Bool := decide (p < 32) && m.get F.PORT_ROLE_ROLE p == 2

/-- Whether a store key page serves: it holds a current key and waits for no previous one (15_cipher.md R280, R387). -/
def Mach.keyServes (m : Mach) (page : Nat) : Bool :=
  decide (2 ≤ m.get F.CIPH_PAGE_STATUS_STATE 0 page) && !m.bit F.CIPH_PAGE_STATUS_NEEDS_PREV 0 page

/-- Whether a Cream offset is mapped (10_memory.md R263). -/
def creamMapped (off : Nat) : Bool := decide (off < 64 * 0x400000) && decide (off % 0x400000 < 0x300000)

/-- Cream granule of a mapped offset (R264). -/
def creamGranule (off : Nat) : Nat := off / 0x400000 * 48 + off % 0x400000 / 0x10000

/-- First Cream offset of a granule. -/
def creamBase (g : Nat) : Nat := g / 48 * 0x400000 + g % 48 * 0x10000

/-- Fields of a Peat granule entry (R273). -/
structure Gran where
  state : Nat
  resv : Bool
  mirror : Bool
  crypt : Bool
  keyPage : Nat
  asid : Nat
  herd : Nat
  deriving DecidableEq, Repr

/-- A granule entry from its word. -/
def granOf (w : Nat) : Gran :=
  { state := getBits w 30 2, resv := getBits w 29 1 == 1, mirror := getBits w 28 1 == 1, crypt := getBits w 27 1 == 1
    keyPage := getBits w 16 10, asid := getBits w 8 5, herd := getBits w 0 8 }

/-- The word of a granule entry. -/
def granWord (g : Gran) : Nat :=
  g.state * 2 ^ 30 + g.resv.toNat * 2 ^ 29 + g.mirror.toNat * 2 ^ 28 + g.crypt.toNat * 2 ^ 27 + g.keyPage % 1024 * 2 ^ 16 +
    g.asid % 32 * 2 ^ 8 + g.herd % 256

namespace Mach

/-- The ownership entry of a granule. Under defaults every granule of a kept store that the defaults do not reserve is held: RESV, owned by herd 0, never
assigned (18_config_firmware.md R437). -/
def gran (m : Mach) (g : Nat) : Gran :=
  let x := granOf (m.get F.PEAT_GRAN 0 g)
  if m.cfg.hold ∧ g + 17 < m.peatGranules then { granOf 0 with resv := true } else x

/-- Sets the ownership entry of a granule, written through to the copy of the table in Peat (R276), entry g at byte 4g of it. -/
def setGran (m : Mach) (g : Nat) (x : Gran) : Mach :=
  let m := m.set F.PEAT_GRAN (granWord x) 0 g
  match m.mem.granCopy with
  | some c => m.wrBytes .peat (c * 2 ^ 21 + 4 * g) (leBytes 4 (granWord x))
  | none => m

/-- Whether the Peat check passes for a context (R160). -/
def peatOwned (m : Mach) (h a addr : Nat) : Bool :=
  let g := m.gran (addr / 2 ^ 21)
  g.state == 1 && g.herd == h && (g.asid == a || g.asid == 0x1F)

/-- Reads a page table entry at an address under the context walked, or says how the read fails (R158). -/
def tableRead (m : Mach) (h a addr : Nat) : Except (Nat × Nat) Nat :=
  if m.peatCap < addr + 8 then .error (stXlate, 3)
  else if m.peatOwned h a addr = false then .error (stContext, 7)
  else if m.mem.badLines.contains (addr / 768) then .error (stUncorrectable, 7)
  else
    let g := m.gran (addr / 2 ^ 21)
    if g.crypt && !m.keyServes g.keyPage then .error (stKeyExhausted, 7)
    else .ok (leNat (m.rdBytes .peat addr 8))

/-- Checks an entry at a level in the order of R158: `none` if it is sound, else status and reason. -/
def entryFault (m : Mach) (e lvl : Nat) : Option (Nat × Nat) :=
  let leaf := getBits e 1 1 == 1
  let target := getBits e 6 2
  let addr := getBits e 12 36 * 4096
  if e % 2 = 0 then some (stXlate, 1)
  else if getBits e 8 4 ≠ 1 then some (stUnsupported, 8)
  else if leaf then
    if lvl = 3 then some (stXlate, 4)
    else if target = 3 then some (stXlate, 4)
    else if target = 1 ∧ m.isAccel (getBits e 48 5) = false then some (stXlate, 4)
    else if target = 2 ∧ lvl ≠ 0 then some (stXlate, 4)
    else if target = 2 ∧ creamMapped addr = false then some (stXlate, 3)
    else if addr % 2 ^ (12 + 9 * lvl) ≠ 0 then some (stXlate, 5)
    else none
  else if lvl = 0 then some (stXlate, 4)
  else if target ≠ 0 then some (stXlate, 4)
  else none

/-- Puts an entry in the translation cache, oldest out beyond 32,768 (R163). -/
def cachePut (m : Mach) (e : XltEntry) : Mach :=
  (m.putXlt { m.xlt with cache := (m.xlt.cache ++ [e]).drop (m.xlt.cache.length + 1 - 32768) })

/-- Looks an entry up in the translation cache. An entry that was cached may have been evicted since: the spec gives no rule of
replacement, so a free outcome decides. -/
def cacheGet (m : Mach) (h a lvl tag : Nat) : Mach × Option Nat :=
  match m.xlt.cache.find? (fun x => x.herd == h && x.asid == a && x.level == lvl && x.tag == tag) with
  | none => (m, none)
  | some x =>
    let (kept, m) := m.freshBit
    if kept then (m, some x.entry) else ((m.putXlt { m.xlt with cache := m.xlt.cache.erase x }), none)

/-- Bits of a virtual address above the span of an entry at a level: what its cache tag compares (R163). -/
def tagOf (va lvl : Nat) : Nat := va / 2 ^ (12 + 9 * lvl)

/-- Index of the entry that translates an address in a table of a level; the root table takes every bit above it (R156). -/
def walkIndex (va lvl : Nat) : Nat := if lvl = 3 then va / 2 ^ 39 else va / 2 ^ (12 + 9 * lvl) % 512

/-- The entry of a level that translates an address, from the cache or read from its table, counted as hit or miss: whether it was cached, and the entry or how the
read fails. -/
def walkEntry (m : Mach) (h a va lvl table : Nat) : Mach × Bool × Except (Nat × Nat) Nat :=
  match m.cacheGet h a lvl (tagOf va lvl) with
  | (m, some e) => (m.inc F.XLT_HIT, true, .ok e)
  | (m, none) => (m.inc F.XLT_MISS, false, m.tableRead h a (table + 8 * walkIndex va lvl))

/-- Walks from a table at a level down (R156 to R158). -/
def walkFrom (m : Mach) (h a va acc : Nat) : Nat → Nat → Mach × WalkRes
  | lvl, table =>
    match m.walkEntry h a va lvl table with
    | (m, _, .error (st, r)) => (m, .fail st r lvl accTable)
    | (m, hit, .ok e) =>
      match m.entryFault e lvl with
      | some (st, r) => (m, .fail st r lvl acc)
      | none =>
        let m := if hit then m else m.cachePut { herd := h, asid := a, level := lvl, tag := tagOf va lvl, entry := e }
        if getBits e 1 1 = 1 then (m, .leaf e lvl)
        else
          match lvl with
          | 0 => (m, .fail stXlate 4 0 acc)
          | l + 1 => walkFrom m h a va acc l (4096 * getBits e 12 36)

/-- Selected element of an address space: HERD and ASID of XLT_AS_SEL. -/
def asSel (h a : Nat) : Nat := h * 256 + a

/-- Whether an address space is enabled; ASIDs above 15 select nothing (R154). -/
def asEnabled (m : Mach) (h a : Nat) : Bool := decide (a < 16) && m.bit F.XLT_AS_CFG_ENABLE 0 (asSel h a)

/-- The pinned leaf entry that maps an address, if any (R170): pinned entries are never evicted. -/
def pinOf (m : Mach) (h a va : Nat) : Option XltEntry :=
  (m.xlt.pins.flatMap (·.2)).find? (fun x => x.herd == h && x.asid == a && x.tag == tagOf va x.level)

/-- Resolves an address of a context to a leaf (R156, R159). An address beyond the root gives NOT_VALID or RANGE: the spec calls
it unmapped and names no reason, so a free outcome decides. -/
def walk (m : Mach) (h a va acc : Nat) : Mach × WalkRes :=
  let s := asSel h a
  let k := min 18 (max 9 (m.get F.XLT_AS_CFG_ROOT_LOG2 0 s))
  let root := m.get64 F.XLT_AS_ROOT_LO 0 s
  if m.asEnabled h a = false then (m, .fail stXlate 6 3 acc)
  else if 2 ^ (39 + k) ≤ va then
    let (b, m) := m.freshBit
    (m, .fail stXlate (if b then 1 else 3) 3 acc)
  else if root % (2 ^ k * 8) ≠ 0 then (m, .fail stXlate 5 3 acc)
  else
    let res := match m.pinOf h a va with
      | some x => (m.inc F.XLT_HIT, WalkRes.leaf x.entry x.level)
      | none => m.walkFrom h a va acc 3 root
    match res with
    | (m, .leaf e lvl) =>
      let r := getBits e 2 1 == 1
      let w := getBits e 3 1 == 1
      let ok := if acc = accRead then r else if acc = accWrite then w else r && w
      if ok then (m, .leaf e lvl) else (m, .fail stXlate 2 lvl acc)
    | other => other

/-- Captures a failed walk in XLT_FAULT_INFO while no capture is held, and reports it to source XLT (R158, R392). -/
def walkFail (m : Mach) (h a va unit status reason lvl acc : Nat) : Mach :=
  let m := if m.bit F.XLT_FAULT_INFO_VALID then m
    else
      (((((((m.set F.XLT_FAULT_INFO_VALID 1).set F.XLT_FAULT_INFO_REASON reason).set F.XLT_FAULT_INFO_LEVEL lvl).set
        F.XLT_FAULT_INFO_ACCESS acc).set F.XLT_FAULT_INFO_HERD h).set F.XLT_FAULT_INFO_ASID a).set64 F.XLT_FAULT_ADDR_LO va)
  m.fault srcXlt kFailed { access := acc, status := status, unit := unit, herd := h, addr := va }

/-! ## Checks at the serving memory -/

/-- A mirror region beyond its registers. -/
def mirror (m : Mach) (r : Nat) : Mirror :=
  (alGet m.mem.mirrors r).getD
    { dirty := [], captured := [], snaps := [], journal := [], lastMsg := 0, sealing := 0xFFFFFFFF, setSize := 0, torn := false,
      sealSent := false, sealGot := none, rolling := false, sealedNo := none }

/-- Sets a mirror region. -/
def setMirror (m : Mach) (r : Nat) (x : Mirror) : Mach := (m.putMem { m.mem with mirrors := alPut m.mem.mirrors r x })

/-- State of a mirror region (R285): 0 OFF, 1 RUNNING, 2 SEALING, 3 RECEIVING, 4 ORPHANED, 5 STOPPED. -/
def mirState (m : Mach) (r : Nat) : Nat := m.get F.PEAT_MIR_STATUS_STATE 0 r

/-- Configuration of a mirror region (PEAT_MIR_CFG_w). -/
def mirCfg (m : Mach) (r w : Nat) : Nat := m.get F.PEAT_MIR_CFG w r
def mirReceives (m : Mach) (r : Nat) : Bool := getBits (m.mirCfg r 0) 8 1 == 1
def mirHerd (m : Mach) (r : Nat) : Nat := getBits (m.mirCfg r 0) 0 8
def mirPeer (m : Mach) (r : Nat) : Nat := getBits (m.mirCfg r 0) 16 16
def mirPeerRegion (m : Mach) (r : Nat) : Nat := getBits (m.mirCfg r 1) 0 6
def mirQp (m : Mach) (r : Nat) : Nat := getBits (m.mirCfg r 2) 0 16
def mirFirst (m : Mach) (r : Nat) : Nat := getBits (m.mirCfg r 3) 0 19
def mirCount (m : Mach) (r : Nat) : Nat := getBits (m.mirCfg r 4) 0 19
def mirAux (m : Mach) (r : Nat) : Nat := getBits (m.mirCfg r 5) 0 19
def mirJournal (m : Mach) (r : Nat) : Nat := getBits (m.mirCfg r 6) 0 19

/-- The mirror region that holds a granule, among those not OFF. -/
def mirrorOf (m : Mach) (g : Nat) : Option Nat :=
  (List.range 64).find? (fun r => m.mirState r != 0 && decide (m.mirFirst r ≤ g) && decide (g < m.mirFirst r + m.mirCount r))

/-- Whether herd writes to a granule are barred because it belongs to a receiving mirror that has not been rolled back (R284, R285). -/
def mirrorBars (m : Mach) (g : Nat) : Bool :=
  (m.gran g).mirror && ((m.mirrorOf g).map (fun r => m.mirReceives r)).getD false

/-- Whether a port's list holds a context (R160, 12_ports_mac.md PORT_CTX). -/
def ctxListed (m : Mach) (p h a : Nat) : Bool :=
  (List.range 16).any (fun i =>
    let k := F.PORT_CTX_VALID.addr + p * 0x4000 + i * 8
    getBits (m.reg k).toNat 31 1 == 1 && getBits (m.reg k).toNat 0 16 == h * 256 + a)

/-- The check of R160 at the memory that serves `len` bytes from `addr` on, all in one granule, with what else bars the access there:
a store key that does not serve (R280), bytes the code cannot correct on a read (R266, R271), a fenced bank (16_faults.md R398), a receiving mirror (R284). On failure the
status and the offset of the first failing byte. -/
def serveCheck (m : Mach) (h a target port addr len acc : Nat) : Option (Nat × Nat) :=
  if target = 0 then
    let g := m.gran (addr / 2 ^ 21)
    if m.peatCap < addr + len then some (stXlate, m.peatCap - addr)
    else if m.peatOwned h a addr = false then some (stContext, 0)
    else if acc ≠ accRead ∧ m.mirrorBars (addr / 2 ^ 21) then some (stContext, 0)
    else if g.crypt ∧ m.keyServes g.keyPage = false then some (stKeyExhausted, 0)
    else if acc ≠ accRead ∧ g.crypt ∧ 2 ^ 36 ≤ m.get64 F.CIPH_PAGE_USED_LO 0 g.keyPage then some (stKeyExhausted, 0)
    else if acc = accWrite then none
    else
      (m.mem.badLines.filter (fun l => decide (l * 768 < addr + len) && decide (addr < l * 768 + 768))).head?.map
        (fun l => (stUncorrectable, l * 768 - addr))
  else if target = 2 then
    if creamMapped addr = false then some (stXlate, 0)
    else if m.get F.CRM_GRAN_STATE 0 (creamGranule addr) ≠ 1 ∨ m.get F.CRM_GRAN_HERD 0 (creamGranule addr) ≠ h then some (stContext, 0)
    else if m.srcState (srcCream (addr / 0x400000)) = 2 ∨ m.srcState (srcCream (addr / 0x400000)) = 3 then some (stUncorrectable, 0)
    else if acc = accWrite then none
    else
      (m.mem.badWords.filter (fun w => decide (w * 8 < addr + len) && decide (addr < w * 8 + 8))).head?.map
        (fun w => (stUncorrectable, w * 8 - addr))
  else if m.ctxListed port h a then none
  else some (stContext, 0)

/-- A sector of an encrypted granule that an engine dropped on a second mismatch and that a Peat access touches (15_cipher.md R388). -/
def cipherFails (m : Mach) (addr len : Nat) : Option Nat :=
  if (m.gran (addr / 2 ^ 21)).crypt then m.ciph.sectors.find? (fun x => decide (x * 4096 < addr + len) && decide (addr < x * 4096 + 4096)) else none

/-- That access fails; the next one of the sector does not. -/
def cipherFailed (m : Mach) (x : Nat) : Mach := (m.putCiph { m.ciph with sectors := m.ciph.sectors.erase x })

/-- The piece of a range that one leaf entry serves: it ends with the page, with the granule of Peat, or with the Cream page. -/
def leafSeg (e lvl va len : Nat) : Seg :=
  let target := getBits e 6 2
  let span := min (2 ^ (12 + 9 * lvl)) (if target = 2 then 4096 else 2 ^ 21)
  { target := target, port := getBits e 48 5, addr := 4096 * getBits e 12 36 + va % 2 ^ (12 + 9 * lvl), va := va, len := min len (span - va % span) }

/-- The checks of one piece at its serving memory (R160), with what a failure counts and captures: status and first failing address. -/
def leafCheck (m : Mach) (h a acc unit lvl : Nat) (s : Seg) : Mach × Option (Nat × Nat) :=
  match m.serveCheck h a s.target s.port s.addr s.len acc with
  | some (st, off) =>
    let m := if st = stXlate then m.walkFail h a (s.va + off) unit st 3 lvl acc else m
    (if st = stUncorrectable ∧ s.target = 0 then m.inc F.PEAT_UNCORR else m, some (st, s.va + off))
  | none =>
    match (if s.target = 0 then m.cipherFails s.addr s.len else none) with
    | some x => (m.cipherFailed x, some (stIntegrity, s.va + (x * 4096 - s.addr)))
    | none => (m, none)

/-- Translates and checks a range page by page in ascending order (R161): the pieces of the range, or the status and the first failing
address. Pages larger than a granule are checked granule by granule. `fuel` bounds the pages. -/
def tilePages (m : Mach) (h a acc unit : Nat) : Nat → Nat → Nat → Mach × Except (Nat × Nat) (List Seg)
  | 0, _, _ => (m, .ok [])
  | fuel + 1, va, len =>
    if len = 0 then (m, .ok [])
    else
      match m.walk h a va acc with
      | (m, .fail st r lvl acc') => (m.walkFail h a va unit st r lvl acc', .error (st, va))
      | (m, .leaf e lvl) =>
        let s := leafSeg e lvl va len
        match m.leafCheck h a acc unit lvl s with
        | (m, some err) => (m, .error err)
        | (m, none) =>
          match tilePages m h a acc unit fuel (va + s.len) (len - s.len) with
          | (m, .ok r) => (m, .ok (s :: r))
          | err => err

/-- A transfer tile: the whole range of one side of one descriptor, translated and checked before its first byte moves (R161). -/
def tile (m : Mach) (h a acc unit va len : Nat) : Mach × Except (Nat × Nat) (List Seg) :=
  m.tilePages h a acc unit (len / 4096 + 2) va len

/-! ## Reading and writing translated ranges -/

/-- Bytes that come from outside the module: free. -/
def freshBytes (m : Mach) (n : Nat) : Mach × List Byte :=
  ((m.putFreeCtr (m.freeCtr + n)), (List.range n).map (fun i => (Config.free (m.freeCtr + i)).setWidth 8))

/-- Reads the bytes of one translated piece. -/
def readSeg (m : Mach) (s : Seg) : Mach × List Byte :=
  if s.target = 0 then (m, m.rdBytes .peat s.addr s.len) else if s.target = 2 then (m, m.rdBytes .cream s.addr s.len) else m.freshBytes s.len

/-- Reads the bytes of translated pieces. Accelerator memory is outside the module, so its bytes are free. -/
def readSegs (m : Mach) : List Seg → Mach × List Byte
  | [] => (m, [])
  | s :: r =>
    match m.readSeg s with
    | (m, d) => match readSegs m r with
      | (m, rest) => (m, d ++ rest)

/-- The sub-range of translated pieces from a byte offset, for a number of bytes. -/
def subSegs : List Seg → Nat → Nat → List Seg
  | [], _, _ => []
  | s :: r, off, n =>
    if n = 0 then []
    else if s.len ≤ off then subSegs r (off - s.len) n
    else
      let k := min n (s.len - off)
      { s with addr := s.addr + off, va := s.va + off, len := k } :: subSegs r 0 (n - k)

/-- Logs a write through an address space with dirty logging (R173): one bit for each 4 KiB page touched. -/
def dirtyLog (m : Mach) (h a va len : Nat) : Mach :=
  let s := asSel h a
  if m.bit F.XLT_AS_CFG_DIRTY_EN 0 s = false ∨ len = 0 then m
  else
    let base := m.get64 F.XLT_DIRTY_BASE_LO 0 s
    let va0 := m.get64 F.XLT_DIRTY_VA_LO 0 s
    let pages := m.get F.XLT_DIRTY_PAGES 0 s
    let first := va / 4096
    let last := (va + len - 1) / 4096
    (List.range (last + 1 - first)).foldl (fun m i =>
      let p := first + i
      if va0 / 4096 ≤ p ∧ p - va0 / 4096 < pages then
        let j := p - va0 / 4096
        m.wrBytes .peat (base + j / 8) [m.rd .peat (base + j / 8) ||| BitVec.ofNat 8 (2 ^ (j % 8))]
      else m.inc F.XLT_DIRTY_MISS 1 0 s) m

/-- A write of Peat bytes reaches the mirror region of its granule, if a sender runs it (R282, R283): its sectors become dirty; a captured
sector that has not shipped keeps its old content for shipping, and a scheduled write to it marks the epoch torn. -/
def mirrorLog (m : Mach) (addr len : Nat) (sched : Bool) : Mach :=
  match m.mirrorOf (addr / 2 ^ 21) with
  | none => m
  | some r =>
    if m.mirState r ≠ 1 ∧ m.mirState r ≠ 2 then m
    else
      let first := (addr - m.mirFirst r * 2 ^ 21) / 4096
      let last := (addr + len - 1 - m.mirFirst r * 2 ^ 21) / 4096
      (List.range (last + 1 - first)).foldl (fun m i =>
        let q := first + i
        let x := m.mirror r
        if ivMem x.captured q ∧ sched then
          m.setMirror r { x with torn := true, dirty := ivAdd x.dirty q }
        else if ivMem x.captured q ∧ (alGet x.snaps q).isNone then
          let old := m.rdBytes .peat (m.mirFirst r * 2 ^ 21 + q * 4096) 4096
          m.setMirror r { x with snaps := alPut x.snaps q old, dirty := ivAdd x.dirty q }
        else m.setMirror r { x with dirty := ivAdd x.dirty q }) m

/-- Sectors written under a store key count once each (15_cipher.md R378); at the switch point with no next key the page sets HELD and
raises KEY_EXHAUSTED (R384), and with one the keys switch (R382). -/
def storeKeyCount (m : Mach) (addr len : Nat) : Mach :=
  let g := m.gran (addr / 2 ^ 21)
  if g.crypt = false ∨ len = 0 then m
  else
    let p := g.keyPage
    let n := (addr + len - 1) / 4096 + 1 - addr / 4096
    let m := m.inc64 F.CIPH_PAGE_USED_LO n 0 p
    if 2 ^ 36 - 2 ^ 20 ≤ m.get64 F.CIPH_PAGE_USED_LO 0 p ∧ m.keyState p = 3 then m.keySwitch p
    else if 2 ^ 36 - 2 ^ 20 ≤ m.get64 F.CIPH_PAGE_USED_LO 0 p ∧ m.keyState p = 2 ∧
        m.bit F.CIPH_PAGE_STATUS_HELD 0 p = false then
      let o := m.get F.CIPH_PAGE_STATUS_HERD 0 p
      (m.set F.CIPH_PAGE_STATUS_HELD 1 0 p).raise 0x0A02 0x1FF o [o] p (m.get64 F.CIPH_PAGE_USED_LO 0 p)
    else m

/-- Notes a write handed to a serving memory until it is acknowledged as landed (R112). -/
def handOver (m : Mach) (kind chan msg target port : Nat) : Mach :=
  (m.putMem { m.mem with
      writes := m.mem.writes ++ [{ id := m.mem.nextWrite, kind := kind, chan := chan, msg := msg, target := target, port := port }]
      nextWrite := m.mem.nextWrite + 1 })

/-- Whether every write of an owner for messages up to `msg` has landed. -/
def landed (m : Mach) (kind chan msg : Nat) : Bool :=
  m.mem.writes.all (fun w => !(w.kind == kind && w.chan == chan && decide (w.msg ≤ msg)))

/-- Writes to Peat at a local address: a line wholly written is sound again (R271). -/
def peatWrite (m : Mach) (addr : Nat) (d : List Byte) (sched : Bool) : Mach :=
  let m := (m.mirrorLog addr d.length sched).storeKeyCount addr d.length
  let m := m.wrBytes .peat addr d
  let left := m.mem.badLines.filter (fun l => !(decide (addr ≤ l * 768) && decide (l * 768 + 768 ≤ addr + d.length)))
  (m.putMem { m.mem with badLines := left })

/-- Channel that encrypted a frame of this module: KIND and CHANNEL (15_cipher.md R373). -/
def outChannel (m : Mach) (o : Out) : Option (Nat × Nat) :=
  let mine := fun (c : Option CipherHdr) => (c.filter (fun x => x.srcModule == m.get F.RTE_MODULE_MODULE)).map (fun x => (x.kind, x.channel))
  match o with
  | .sched _ f => (match f.body with | .lode x => mine x.cipher | .chunk x => mine x.cipher)
  | .be _ f => (match f.body with | .packet x => mine x.cipher | .chunk x => mine x.cipher)
  | _ => none

/-- Records what leaves the module. -/
def emitOut (m : Mach) (o : Out) : Mach := (m.putSent (m.sent ++ [o]))

/-- Whether a cipher engine dropped this frame on a second mismatch, by its channel (15_cipher.md R388). -/
def cipherDrops (m : Mach) (o : Out) : Option (Nat × Nat) := (m.outChannel o).filter (fun c => m.ciph.frames.contains c)

/-- The frame that an engine dropped is never sent, and neither is its other copy (R374, R388). -/
def cipherDropped (m : Mach) (c : Nat × Nat) (o : Out) : Mach :=
  let m := (m.putCiph { m.ciph with frames := m.ciph.frames.erase c })
  match o with
  | .sched _ f =>
    (match f.body with
    | .lode x => (m.putLode { m.lode with tx := m.lode.tx.map (fun y => (y.1, { y.2 with frames := y.2.frames.filter (fun a => a.frame != x) })) })
    | .chunk x => (m.putLode { m.lode with copies := m.lode.copies.filter (fun y => y.2.2.2 != x) }))
  | _ => m

/-- Writes to Cream: a word wholly written is sound again (R266). -/
def creamWrite (m : Mach) (addr : Nat) (d : List Byte) : Mach :=
  let left := m.mem.badWords.filter (fun w => !(decide (addr ≤ w * 8) && decide (w * 8 + 8 ≤ addr + d.length)))
  (m.wrBytes .cream addr d).putMem { m.mem with badWords := left }

/-- Writes to the memory of an accelerator: one WRITE frame for each 16,384 bytes, tagged in turn (12_ports_mac.md R322, R323). -/
def accelWrite (m : Mach) (port addr : Nat) (d : List Byte) : Mach :=
  let x := m.pt port
  let tag := (x.txTag + max 1 ((d.length + 16383) / 16384)) % 2 ^ 32
  (m.setPt port { x with txTag := tag, writes := x.writes ++ [((tag + 2 ^ 32 - 1) % 2 ^ 32, m.now, m.mem.nextWrite)] }).emitOut (.accelWrite port addr d)

/-- Writes the bytes of one translated piece. -/
def writeSeg (m : Mach) (s : Seg) (d : List Byte) (sched : Bool) : Mach :=
  if s.target = 0 then m.peatWrite s.addr d sched else if s.target = 2 then m.creamWrite s.addr d else m.accelWrite s.port s.addr d

/-- Writes data to translated pieces for an owner, logging it (R173) and handing it to the serving memories. -/
def writeSegs (m : Mach) (h a kind chan msg : Nat) (sched : Bool) : List Seg → List Byte → Mach
  | [], _ => m
  | s :: r, d =>
    let m := (m.dirtyLog h a s.va (d.take s.len).length).writeSeg s (d.take s.len) sched
    writeSegs (m.handOver kind chan msg s.target s.port) h a kind chan msg sched r (d.drop s.len)

/-- Translates, checks and writes a range in one go. -/
def writeVa (m : Mach) (h a unit kind chan msg va : Nat) (d : List Byte) : Mach × Option (Nat × Nat) :=
  match m.tile h a accWrite unit va d.length with
  | (m, .error e) => (m, some e)
  | (m, .ok segs) => (m.writeSegs h a kind chan msg false segs d, none)

/-- Translates, checks and reads a range in one go. -/
def readVa (m : Mach) (h a unit va n : Nat) : Mach × Except (Nat × Nat) (List Byte) :=
  match m.tile h a accRead unit va n with
  | (m, .error e) => (m, .error e)
  | (m, .ok segs) => let (m, d) := m.readSegs segs; (m, .ok d)

/-! ## Pins -/

/-- Leaf entries that map a range (R170), or `none` if some part does not translate. -/
def leavesOf (m : Mach) (h a acc : Nat) : Nat → Nat → Nat → Mach × Option (List XltEntry)
  | 0, _, _ => (m, some [])
  | fuel + 1, va, len =>
    if len = 0 then (m, some [])
    else
      match m.walk h a va acc with
      | (m, .fail ..) => (m, none)
      | (m, .leaf e lvl) =>
        let span := 2 ^ (12 + 9 * lvl)
        let n := min len (span - va % span)
        match leavesOf m h a acc fuel (va + n) (len - n) with
        | (m, some r) => (m, some ({ herd := h, asid := a, level := lvl, tag := tagOf va lvl, entry := e } :: r))
        | (m, none) => (m, none)

/-- Number of pinned leaf entries. -/
def pinned (m : Mach) : Nat := (m.xlt.pins.map (fun p => p.2.length)).foldl (· + ·) 0

/-- Keeps the pin counts of XLT_STATUS and WIN_STATUS in step. -/
def pinCounts (m : Mach) : Mach :=
  (m.set F.XLT_STATUS_PINNED_K (m.pinned / 1000)).set F.WIN_STATUS_PINNED m.xlt.pins.length

end Mach
end Sys2Proof.Machine
end

