-- ==== Sys2Proof/Machine/QueueOps.lean ====
section
/-! DEFINITION. The queue engine's shared operations (05_queues_descriptors.md R126 to R151): rings, fetching, completions, malformed
descriptors, arbitration and the descriptor checks. -/
namespace Sys2Proof.Machine

/-- Entries of a ring: a SIZE_LOG2 outside 6 to 16 acts as the nearer bound (R127). -/
def ringSize (log2 : Nat) : Nat := 2 ^ min 16 (max 6 log2)

/-- Distance from one ring index up to another. -/
def ringDist (n a b : Nat) : Nat := (b + n - a % n) % n

/-- A field of a descriptor word. -/
def Desc.bits (d : Desc) (w lo wd : Nat) : Nat := getBits (nthD d.words w 0) lo wd

def Desc.opcode (d : Desc) : Nat := d.bits 0 8 8
def Desc.tag (d : Desc) : Nat := d.bits 0 32 16
def Desc.asid (d : Desc) : Nat := d.bits 0 24 8
def Desc.target (d : Desc) : Nat := d.bits 1 0 32
def Desc.length (d : Desc) : Nat := d.bits 1 32 32
def Desc.flag (d : Desc) : Bool := d.bits 0 16 1 == 1
def Desc.resync (d : Desc) : Bool := d.bits 0 17 1 == 1
def Desc.fence (d : Desc) : Bool := d.bits 0 18 1 == 1

namespace Mach

/-- A submission queue beyond its registers. -/
def sq (m : Mach) (k : Nat) : Sq :=
  (alGet m.qe.sqs k).getD
    { fetched := [], out := [], reading := none, refetchAt := none, claims := [], wait := none, paused := false, flush := [] }

/-- Sets a submission queue. -/
def setSq (m : Mach) (k : Nat) (x : Sq) : Mach := (m.putQe { m.qe with sqs := alPut m.qe.sqs k x })

/-- A completion ring beyond its registers. -/
def cq (m : Mach) (c : Nat) : Cq := (alGet m.qe.cqs c).getD { headers := [], overrun := false }

/-- Sets a completion ring. -/
def setCq (m : Mach) (c : Nat) (x : Cq) : Mach := (m.putQe { m.qe with cqs := alPut m.qe.cqs c x })

/-- Sizes, owners and indices of the rings. -/
def sqSize (m : Mach) (k : Nat) : Nat := ringSize (m.get F.QE_SQ_CFG_SIZE_LOG2 0 k)
def cqSize (m : Mach) (c : Nat) : Nat := ringSize (m.get F.QE_CQ_CFG_SIZE_LOG2 0 c)
def eqSize (m : Mach) (h : Nat) : Nat := ringSize (m.get F.QE_EQ_CFG_SIZE_LOG2 0 h)
def sqHerd (m : Mach) (k : Nat) : Nat := m.get F.QE_SQ_CFG_HERD 0 k
def cqHerd (m : Mach) (c : Nat) : Nat := m.get F.QE_CQ_CFG_HERD 0 c
def sqHead (m : Mach) (k : Nat) : Nat := m.get F.QE_SQ_PTR_OWN 0 k
def sqTail (m : Mach) (k : Nat) : Nat := m.get F.QE_SQ_PTR_OTHER 0 k

/-- Base of a ring: bits [11:0] are reserved (QE_SQ_BASE). -/
def ringBase (m : Mach) (f : Fld) (k : Nat) : Nat := m.get64 f 0 k / 4096 * 4096

/-- Whether a herd is halted (R141). -/
def herdHalted (m : Mach) (h : Nat) : Bool := getBits (m.get F.QE_HALT (h / 32)) (h % 32) 1 == 1

/-- Whether the module is in fail-stop (R142). -/
def failStop (m : Mach) : Bool := m.bit F.QE_STATUS_FAIL_STOP

/-- The engines stand still in fail-stop (R142), while the boot is halted (17_clocks_power_reset.md R408, R427) and in STANDBY (R423, R465): what they would do does not
happen. -/
def engines (m : Mach) (f : Mach → Mach) : Mach := if m.failStop || m.halted || m.asleep then m else f m

/-- State of a herd (14_herds.md R355): 0 FREE, 1 ACTIVE, 2 HALTED, 3 RESETTING, 4 DESTROYING; herd 0 is ACTIVE. -/
def herdState (m : Mach) (h : Nat) : Nat := if h = 0 then 1 else m.get F.QE_HERD_STATUS_STATE 0 h

/-- The SQs whose configuration names a herd. -/
def sqsOf (m : Mach) (h : Nat) : List Nat :=
  ((m.listed 0x0040010C).map (·.1)).filter (fun k => m.sqHerd k == h)

/-- IDLE reads 1 when ENABLE is 0 and every dispatched descriptor's completion has been written (R150). -/
def sqIdle (m : Mach) (k : Nat) : Mach :=
  m.set F.QE_SQ_STATUS_IDLE ((!m.bit F.QE_SQ_CFG_ENABLE 0 k && (m.sq k).out.isEmpty).toNat) 0 k

/-- Accepted but undispatched descriptors are dropped without completions and HEAD goes back to the first of them (R128, R141, R150). -/
def dropFetched (m : Mach) (k : Nat) : Mach :=
  let x := m.sq k
  let m := m.setSq k { x with fetched := [], reading := none, refetchAt := none, paused := false }
  match x.fetched with
  | [] => m
  | d :: _ =>
    let m := if m.sqHead k < d.index then m.set F.QE_SQ_STATUS_PHASE (1 - m.get F.QE_SQ_STATUS_PHASE 0 k) 0 k else m
    m.set F.QE_SQ_PTR_OWN d.index 0 k

/-- Clears the enable of an SQ (R150). -/
def sqDisable (m : Mach) (k : Nat) : Mach := ((m.set F.QE_SQ_CFG_ENABLE 0 0 k).dropFetched k).sqIdle k

/-- A ring access fails (R128): kind 0 SQ, 1 CQ, 2 EQ. -/
def ringFault (m : Mach) (kind n herd status addr : Nat) : Mach :=
  let m := m.fault srcQe kFailed { status := status, unit := srcQe, herd := herd, addr := addr, detail := n }
  let m := if kind = 0 then (m.set F.QE_SQ_STATUS_RING_FAULT 1 0 n).sqDisable n
    else if kind = 1 then m.set F.QE_CQ_STATUS_RING_FAULT 1 0 n
    else m.set F.QE_EQ_STATUS_RING_FAULT 1 0 n
  m.raise 0x0100 srcQe herd [if kind = 2 then 0 else herd] (n + kind * 2 ^ 16) addr

/-! ## Fetching -/

/-- Starts a read of an SQ from HEAD through TAIL − 1 + PREFETCH (R135), unless one runs, fetching is paused, or the queue holds a waiting
WAIT_COUNT (04_lodes_ordering.md R120). -/
def startRead (m : Mach) (k : Nat) (timed : Bool) : Mach :=
  let x := m.sq k
  let n := m.sqSize k
  let pre := min 16 (m.get F.QE_CTL_PREFETCH)
  let head := m.sqHead k
  let count := if x.claims.isEmpty then pre - ringDist n (m.sqTail k) head else min n (ringDist n head (m.sqTail k) + pre)
  if m.bit F.QE_SQ_CFG_ENABLE 0 k = false ∨ m.herdHalted (m.sqHerd k) ∨ m.herdState (m.sqHerd k) = 3 ∨ m.failStop then m
  else if 32 ≤ x.fetched.length then m.setSq k { x with paused := true }
  else if x.reading.isSome ∨ x.wait.isSome ∨ count = 0 then m
  else m.setSq k { x with reading := some (head, count, timed), refetchAt := none }

/-- HEAD passes the entry at it, which is accepted (R135). -/
def acceptEntry (m : Mach) (k : Nat) (words : List Nat) : Mach :=
  let x := m.sq k
  let n := m.sqSize k
  let i := m.sqHead k
  let j := (i + 1) % n
  let m := m.setSq k { x with fetched := x.fetched ++ [{ index := i, words := words }], claims := x.claims.filter (fun c => c.1 % n != j) }
  let m := if j = 0 then m.set F.QE_SQ_STATUS_PHASE (1 - m.get F.QE_SQ_STATUS_PHASE 0 k) 0 k else m
  m.set F.QE_SQ_PTR_OWN j 0 k

/-- Reads the bytes of translated pieces; those in accelerator memory come from outside, in order. -/
def readExt (m : Mach) : List Seg → List Byte → List Byte × List Byte
  | [], ext => ([], ext)
  | s :: r, ext =>
    if s.target = 1 then
      let (d, rest) := readExt m r (ext.drop s.len)
      (ext.take s.len ++ d, rest)
    else
      let (d, rest) := readExt m r ext
      (m.rdBytes (if s.target = 0 then .peat else .cream) s.addr s.len ++ d, rest)

/-- How a ring read went: a failed access with status and address, the claimed or speculative entry found invalid (and whether it was the
first of the read), a full fetch buffer, or the end of the range. -/
inductive ReadEnd where
  | failed (status addr : Nat)
  | invalid (first : Bool)
  | full
  | done
  deriving DecidableEq, Repr

/-- Accepts the entries of a read in index order while their phase is valid (R129, R130, R135). -/
def acceptLoop (m : Mach) (k : Nat) (isFirst : Bool) : Nat → List Byte → Mach × ReadEnd
  | 0, _ => (m, .done)
  | fuel + 1, ext =>
    if 32 ≤ (m.sq k).fetched.length then (m, .full)
    else
      let h := m.sqHerd k
      let va := m.ringBase F.QE_SQ_BASE_LO k + 64 * m.sqHead k
      match m.tile h (m.get F.QE_SQ_CFG_ASID 0 k) accRead srcQe va 64 with
      | (m, .error (st, a)) => (m, .failed st a)
      | (m, .ok segs) =>
        let (d, ext) := m.readExt segs ext
        let words := (List.range 8).map (fun i => leAt d (8 * i) 8)
        if getBits (nthD words 0 0) 4 1 = m.get F.QE_SQ_STATUS_PHASE 0 k then
          acceptLoop (m.acceptEntry k words) k false fuel ext
        else (m, .invalid isFirst)

/-- An SQ read returns (R135). -/
def sqReadComplete (m : Mach) (k : Nat) (ext : List Byte) : Mach :=
  match (m.sq k).reading with
  | none => m
  | some (_, count, timed) =>
    let m := m.setSq k { m.sq k with reading := none }
    match m.acceptLoop k true count ext with
    | (m, .failed st a) => m.ringFault 0 k (m.sqHerd k) st a
    | (m, .full) => m.setSq k { m.sq k with paused := true }
    | (m, .done) => if (m.sq k).claims.isEmpty then m else m.startRead k false
    | (m, .invalid first) =>
      if timed ∧ first ∧ (m.sq k).claims.isEmpty then m
      else m.setSq k { m.sq k with refetchAt := some (m.now + max 1 (m.get F.QE_CTL_REFETCH) * us) }

/-- A doorbell sets TAIL, notes which entries it claims first (R136), and starts a read (R134, R135). -/
def sqDoorbell (m : Mach) (k tail : Nat) : Mach :=
  let n := m.sqSize k
  let x := m.sq k
  let old := m.sqTail k
  let head := m.sqHead k
  let lead := if x.claims.isEmpty then ringDist n old head else 0
  let t := tail % n
  let m := m.set F.QE_SQ_PTR_OTHER t 0 k
  let m := if ringDist n old t ≤ lead then m else m.setSq k { x with claims := x.claims ++ [(t, m.now)] }
  m.startRead k false

/-! ## Completions -/

/-- The outcome of a dispatched descriptor becomes known; a second outcome is ignored. -/
def finish (m : Mach) (k uid : Nat) (c : Comp) : Mach :=
  let x := m.sq k
  m.setSq k { x with out := x.out.map (fun o => if o.uid == uid && o.comp.isNone then { o with comp := some c } else o) }

/-- Completes a descriptor with a status, DEADLINE 0 and the polder time at which the completion is generated (R145). -/
def complete (m : Mach) (k uid status bytes detail : Nat) : Mach :=
  m.finish k uid { status := status, bytes := bytes, deadline := false, time := m.polder.toNat, detail := detail }

/-- Whether a descriptor is still without an outcome. -/
def openDesc (m : Mach) (k uid : Nat) : Bool := (m.sq k).out.any (fun o => o.uid == uid && o.comp.isNone)

/-- SQs that name a CQ and are enabled or not idle (R147). -/
def sqsServed (m : Mach) (c : Nat) : List Nat :=
  ((m.listed 0x0040010C).map (·.1)).filter (fun k =>
    m.get F.QE_SQ_CQ_CQ 0 k == c && (m.bit F.QE_SQ_CFG_ENABLE 0 k || !m.bit F.QE_SQ_STATUS_IDLE 0 k))

/-- Incoming endpoints whose enabled receive binding names a CQ. -/
def bindingsOn (m : Mach) (c : Nat) : List Nat :=
  ((m.listed 0x00400404).filter (fun p => getBits p.2.toNat 31 1 == 1 && getBits p.2.toNat 0 12 == c)).map (·.1)

/-- Unconsumed entries of a CQ. -/
def cqUnconsumed (m : Mach) (c : Nat) : Nat := ringDist (m.cqSize c) (m.get F.QE_CQ_PTR_OTHER 0 c) (m.get F.QE_CQ_PTR_OWN 0 c)

/-- Entries reserved in a CQ by dispatched descriptors whose completions are not yet written (R146). -/
def cqReserved (m : Mach) (c : Nat) : Nat := ((m.sqsServed c).map (fun k => (m.sq k).out.length)).foldl (· + ·) 0

/-- Whether an entry can be reserved: a CQ of N entries never holds more than N − 1 unconsumed completions (R146). -/
def cqRoom (m : Mach) (c : Nat) : Bool := decide (m.cqUnconsumed c + m.cqReserved c + 1 < m.cqSize c)

/-- Keeps QE_CQ_STATUS.FULL and PHASE views. -/
def cqFull (m : Mach) (c : Nat) : Mach :=
  m.set F.QE_CQ_STATUS_FULL (if m.cqUnconsumed c + 1 < m.cqSize c then 0 else 1) 0 c

/-- The 32 bytes of a completion entry (R144). -/
def compBytes (phase : Nat) (rx : Bool) (source index tag : Nat) (c : Comp) : List Byte :=
  leBytes 8 (1 + phase * 16 + (if c.status = stProvisional then 32 else 0) + rx.toNat * 64 + c.deadline.toNat * 128 +
    c.status * 2 ^ 8 + source * 2 ^ 16 + index * 2 ^ 32 + tag * 2 ^ 48) ++
  leBytes 4 c.bytes ++ leBytes 4 0 ++ leBytes 8 c.time ++ leBytes 8 c.detail

/-- Index and phase of the entry of a CQ that is written next, behind the entries whose header is still to come. -/
def cqNext (m : Mach) (c : Nat) : Nat × Nat :=
  let n := m.cqSize c
  let own := m.get F.QE_CQ_PTR_OWN 0 c + (m.cq c).headers.length
  (own % n, if own < n then m.get F.QE_CQ_STATUS_PHASE 0 c else 1 - m.get F.QE_CQ_STATUS_PHASE 0 c)

/-- Writes bytes 8 to 31 of the next entry of a CQ and keeps its header (R132). -/
def cqBody (m : Mach) (c : Nat) (sq : Option Nat) (rx : Bool) (source index tag : Nat) (x : Comp) : Mach :=
  let (i, ph) := m.cqNext c
  let b := compBytes ph rx source index tag x
  let h := m.cqHerd c
  match m.writeVa h (m.get F.QE_CQ_CFG_ASID 0 c) srcQe 3 (c * 65536 + i) 0 (m.ringBase F.QE_CQ_BASE_LO c + 32 * i + 8) (b.drop 8) with
  | (m, some (st, a)) => m.ringFault 1 c h st a
  | (m, none) =>
    m.setCq c { m.cq c with headers := (m.cq c).headers ++ [{ index := i, bytes := b.take 8, sq := sq, status := x.status }] }

/-- Gives a descriptor its place in submission order. -/
def place (m : Mach) (k index tag opcode : Nat) : Mach × Nat :=
  let u := m.qe.nextUid
  let m := (m.putQe { m.qe with nextUid := u + 1 })
  ((m.setSq k { m.sq k with out := (m.sq k).out ++ [{ uid := u, index := index, tag := tag, opcode := opcode, comp := none }] }).sqIdle k, u)

/-- A descriptor that a herd reset flushed before its dispatch completes behind those dispatched, as its CQ has room (14_herds.md R364). -/
def flushedWrite (m : Mach) (k : Nat) : Mach :=
  let c := m.get F.QE_SQ_CQ_CQ 0 k
  match (m.sq k).flush with
  | [] => m
  | d :: rest =>
    if m.cqRoom c = false ∨ m.bit F.QE_CQ_STATUS_RING_FAULT 0 c ∨ m.bit F.QE_CQ_CFG_ENABLE 0 c = false then m
    else
      let (m, u) := (m.setSq k { m.sq k with flush := rest }).place k d.index d.tag d.opcode
      let x : Comp := { status := stFlushed, bytes := 0, deadline := false, time := m.polder.toNat, detail := 0 }
      (m.finish k u x).cqBody c (some k) false k d.index d.tag x

/-- COMPLETION_WRITE (R116, R146): the oldest completion of an SQ whose entry is not begun is written, if its outcome is known. -/
def completionWrite (m : Mach) (k : Nat) : Mach :=
  let c := m.get F.QE_SQ_CQ_CQ 0 k
  let begun := ((m.cq c).headers.filter (fun h => h.sq == some k)).length
  match (m.sq k).out[begun]? with
  | some o =>
    match o.comp with
    | some x =>
      if m.bit F.QE_CQ_STATUS_RING_FAULT 0 c ∨ m.bit F.QE_CQ_CFG_ENABLE 0 c = false then m
      else m.cqBody c (some k) false k o.index o.tag x
    | none => m
  | none => m.flushedWrite k

/-- COMPLETION_HEADER_WRITE (R132, R146): once bytes 8 to 31 have landed, bytes 0 to 7 are written with the expected phase; the SQ counts
the completion. -/
def completionHeader (m : Mach) (c : Nat) : Mach :=
  match (m.cq c).headers with
  | [] => m
  | h :: rest =>
    if m.landed 3 (c * 65536 + h.index) 0 = false then m
    else
      let herd := m.cqHerd c
      match m.writeVa herd (m.get F.QE_CQ_CFG_ASID 0 c) srcQe 3 (c * 65536 + h.index) 1 (m.ringBase F.QE_CQ_BASE_LO c + 32 * h.index) h.bytes with
      | (m, some (st, a)) => m.ringFault 1 c herd st a
      | (m, none) =>
        let m := m.setCq c { m.cq c with headers := rest }
        let j := (h.index + 1) % m.cqSize c
        let m := if j = 0 then m.set F.QE_CQ_STATUS_PHASE (1 - m.get F.QE_CQ_STATUS_PHASE 0 c) 0 c else m
        let m := (m.set F.QE_CQ_PTR_OWN j 0 c).cqFull c
        match h.sq with
        | none => m
        | some k =>
          let m := m.setSq k { m.sq k with out := (m.sq k).out.drop 1 }
          let m := m.set F.QE_SQ_COUNT ((m.get F.QE_SQ_COUNT 0 k + 1) % 2 ^ 32) 0 k
          let m := if h.status = stDone ∨ h.status = stProvisional then m
            else (m.set F.QE_SQ_FAIL ((m.get F.QE_SQ_FAIL 0 k + 1) % 2 ^ 32) 0 k).set F.QE_SQ_STATUS_LAST_FAIL h.status 0 k
          m.sqIdle k

/-- A receive completion is written for a bound endpoint, or dropped and counted where there is no usable entry (R117, R147). -/
def rxCompletion (m : Mach) (endpoint : Nat) (x : Comp) : Mach :=
  if m.bit F.QE_RX_BIND_ENABLE 0 endpoint = false then m
  else
    let c := m.get F.QE_RX_BIND_CQ 0 endpoint
    let usable := m.bit F.QE_CQ_CFG_ENABLE 0 c && !m.bit F.QE_CQ_STATUS_RING_FAULT 0 c &&
      decide (m.cqUnconsumed c + (m.cq c).headers.length + 1 < m.cqSize c)
    if usable then (m.setCq c { m.cq c with overrun := false }).cqBody c none true endpoint 0 0 x
    else
      let m := m.inc F.QE_CQ_DROP 1 0 c
      if (m.cq c).overrun then m
      else (m.setCq c { m.cq c with overrun := true }).raise 0x0102 srcQe (m.cqHerd c) [m.cqHerd c] c endpoint

/-! ## Malformed descriptors -/

/-- Halts a herd (R141): nothing more is dispatched from its SQs. -/
def haltHerd (m : Mach) (h : Nat) : Mach :=
  let m := m.set F.QE_HALT (m.get F.QE_HALT (h / 32) ||| 2 ^ (h % 32)) (h / 32)
  let m := if m.herdState h = 1 then m.set F.QE_HERD_STATUS_STATE 2 0 h else m
  (m.sqsOf h).foldl (fun m k => (m.set F.QE_SQ_STATUS_HALTED 1 0 k).dropFetched k) m

/-- Fail-stop (R142): the engines stop and every port goes down. -/
def enterFailStop (m : Mach) : Mach :=
  let m := m.set F.QE_STATUS_FAIL_STOP 1
  (List.range 32).foldl (fun m p => m.portDown p 0) m

/-- A malformed descriptor of an SQ, already given its place as descriptor `uid` (R141, R142). -/
def malformed (m : Mach) (k index uid reason : Nat) : Mach :=
  let h := m.sqHerd k
  let m := m.complete k uid stMalformed 0 reason
  let m := if m.bit F.QE_MAL_CAP_VALID then m
    else ((((m.set F.QE_MAL_CAP_VALID 1).set F.QE_MAL_CAP_QUEUE k).set F.QE_MAL_CAP_REASON reason).set F.QE_MAL_CAP_HERD h).set
      F.QE_MAL_INDEX_INDEX index
  let m := m.fault srcQe kFailed { status := stMalformed, unit := srcQe, herd := h, detail := k }
  if h = 0 then m.enterFailStop
  else (m.haltHerd h).raise 0x0101 srcQe h [h, 0] k (reason + index * 2 ^ 16)

/-- A claimed entry stayed invalid for a lease period (R136): it is malformed with STALE_PHASE. Its tag was never written, so the tag of its
completion is free. -/
def stalePhase (m : Mach) (k : Nat) : Mach :=
  match (m.sq k).claims with
  | [] => m
  | (_, since) :: _ =>
    if since + m.leaseAt since ≤ m.now ∧ (m.sq k).refetchAt.isSome ∧ m.bit F.QE_SQ_CFG_ENABLE 0 k then
      let i := m.sqHead k
      let (v, m) := m.fresh
      let m := m.acceptEntry k []
      let m := m.setSq k { m.sq k with fetched := (m.sq k).fetched.dropLast }
      let (m, u) := m.place k i (v.toNat % 65536) 0
      m.malformed k i u 6
    else m

/-! ## Arbitration -/

/-- Whether an SQ is eligible for dispatch (R143). -/
def eligible (m : Mach) (k : Nat) : Bool :=
  let x := m.sq k
  let c := m.get F.QE_SQ_CQ_CQ 0 k
  m.bit F.QE_SQ_CFG_ENABLE 0 k && !m.bit F.QE_SQ_STATUS_HALTED 0 k && x.wait.isNone &&
  (match x.fetched with | [] => false | d :: _ => !d.fence || x.out.isEmpty) &&
  m.cqRoom c && !m.bit F.QE_CQ_STATUS_RING_FAULT 0 c

/-- The SQs eligible for dispatch, in ascending number. -/
def eligibleSqs (m : Mach) : List Nat := (m.qe.sqs.map (·.1)).filter (fun k => m.eligible k)

/-- Weight and burst of an SQ (QE_SQ_ARB). -/
def sqWeight (m : Mach) (k : Nat) : Nat := max 1 (m.get F.QE_SQ_ARB_WEIGHT 0 k)
def sqBurst (m : Mach) (k : Nat) : Nat := m.get F.QE_SQ_ARB_BURST_M1 0 k + 1

/-- The SQ that the arbiter serves next, with the arbiter's state after the choice (R143). A round starts at the lowest eligible SQ, as the
worked example's second round shows, and goes on after the one visited last (notes/assumptions/7.md). -/
def arbPick (m : Mach) : Option (Nat × Mach) :=
  let el := m.eligibleSqs
  let credit := fun (q : QeSt) k => (alGet q.credits k).getD 0
  let visit := fun (q : QeSt) (k : Nat) =>
    let burst := min (m.sqBurst k) (credit q k)
    some (k, (m.putQe { q with lastSq := some k, burst := burst - 1, credits := alPut q.credits k (credit q k - 1) }))
  let stay := match m.qe.lastSq with
    | some k => if m.qe.burst ≠ 0 ∧ credit m.qe k ≠ 0 ∧ el.contains k then some k else none
    | none => none
  match stay with
  | some k => some (k, (m.putQe { m.qe with burst := m.qe.burst - 1, credits := alPut m.qe.credits k (credit m.qe k - 1) }))
  | none =>
    let withCredit := el.filter (fun k => credit m.qe k != 0)
    let after := match m.qe.lastSq with
      | some l => (withCredit.filter (fun k => decide (l < k))) ++ (withCredit.filter (fun k => decide (k ≤ l)))
      | none => withCredit
    match after, el with
    | k :: _, _ => visit m.qe k
    | [], k :: _ => visit { m.qe with credits := el.map (fun j => (j, m.sqWeight j)), lastSq := none } k
    | [], [] => none

/-! ## Descriptor checks -/

/-- Opcodes of the opcode table (R138). -/
def opcodes : List Nat := [0x01, 0x02, 0x10, 0x11, 0x12, 0x13, 0x14, 0x20, 0x28, 0x30, 0x3F]

/-- Reserved code points of operand fields fail at check 2 (R139): atomic operations and COLL_OP, DTYPE. -/
def operandListed (d : Desc) : Bool :=
  match d.opcode with
  | 0x02 => decide (1 ≤ d.bits 2 0 8) && decide (d.bits 2 0 8 ≤ 6)
  | 0x13 => decide (1 ≤ d.bits 2 0 8) && decide (d.bits 2 0 8 ≤ 2)
  | 0x20 => [1, 2, 3, 4, 0x10, 0x11, 0x7F].contains (d.bits 4 0 8)
  | _ => true

/-- Whether the units of the Needs column are present (R4, R138). -/
def unitsPresent (m : Mach) (d : Desc) : Bool :=
  match d.opcode with
  | 0x01 => m.bit F.ID_CAP3_LODES
  | 0x02 => m.bit F.ID_CAP3_LODES && m.bit F.ID_CAP3_ATOMIC64
  | 0x10 => m.bit F.ID_CAP3_ROCEV2_RC
  | 0x11 => m.bit F.ID_CAP3_ROCEV2_RC
  | 0x12 => m.bit F.ID_CAP3_ROCEV2_RC
  | 0x13 => m.bit F.ID_CAP3_ROCEV2_RC && m.bit F.ID_CAP3_ATOMIC64
  | 0x14 => m.bit F.ID_CAP3_ROCEV2_RC
  | 0x20 => m.bit F.ID_CAP3_COLL
  | 0x28 => m.bit F.ID_CAP0_CHURN_VECTOR
  | _ => true

/-- Identifiers within generation-1 counts (01_architecture.md R39); a window that the descriptor does not use is not named. -/
def idsInRange (d : Desc) : Bool :=
  let win := decide (d.bits 3 0 32 < 2 ^ 20)
  let fwin := decide (d.bits 5 0 32 < 2 ^ 20)
  match d.opcode with
  | 0x01 => decide (d.target < 16384) && (decide (d.length = 0) || win) && (!d.flag || fwin)
  | 0x02 => decide (d.target < 16384) && win
  | 0x10 => decide (d.target < 65536)
  | 0x11 => decide (d.target < 65536)
  | 0x12 => decide (d.target < 65536)
  | 0x13 => decide (d.target < 65536)
  | 0x14 => decide (d.target < 65536)
  | 0x20 => decide (d.target < 4096)
  | 0x28 => decide (d.target < 1024)
  | 0x30 => decide (d.target < 4096)
  | _ => true

/-- Checks 1 to 4 (R139). -/
def formatChecks (m : Mach) (d : Desc) : Bool :=
  d.bits 0 0 4 == 1 && opcodes.contains d.opcode && operandListed d && m.unitsPresent d && idsInRange d

/-- Check 5 (R139, R140): the malformed reason of a descriptor, given whether its target is owned by another herd. -/
def malformedReason (m : Mach) (k : Nat) (d : Desc) (foreign : Bool) : Option Nat :=
  let op := d.opcode
  let dataOp : Bool := [0x01, 0x10, 0x11, 0x12, 0x14, 0x20].contains op
  if (dataOp ∧ 16777216 < d.length) ∨ (op = 0x01 ∧ d.length = 0 ∧ d.flag = false) ∨ (op = 0x28 ∧ (d.length = 0 ∨ 4096 < d.length)) then some 1
  else if ((op = 0x01 ∨ op = 0x11) ∧ d.flag ∧ d.bits 6 0 48 % 8 ≠ 0) ∨ ((op = 0x02 ∨ op = 0x13) ∧ d.bits 4 0 48 % 8 ≠ 0) then some 2
  else if foreign then some 3
  else if m.asEnabled (m.sqHerd k) d.asid = false then some 4
  else if (d.flag ∧ op ≠ 0x01 ∧ op ≠ 0x11) ∨ (d.resync ∧ op ≠ 0x01 ∧ op ≠ 0x02) then some 5
  else none

/-- A dispatch (R139, R143): the arbiter's choice must be the queue named and its head descriptor one that the row dispatches; a descriptor
whose version or opcode is not listed goes with any row. The descriptor gets its place, passes checks 1 to 5, and runs. At most one
descriptor leaves every 2 ns. -/
def dispatch (m : Mach) (k : Nat) (row : Desc → Bool) (foreign : Mach → Desc → Bool) (run : Mach → Desc → Nat → Mach) : Mach :=
  if m.failStop ∨ m.halted ∨ m.asleep ∨ m.now < m.qe.lastDispatch + 2 * ns then m
  else
    match m.arbPick with
    | none => m
    | some (j, m') =>
      match (m.sq k).fetched with
      | [] => m
      | d :: rest =>
        if j ≠ k ∨ (row d = false ∧ d.bits 0 0 4 = 1 ∧ opcodes.contains d.opcode ∧ operandListed d) then m
        else
          let m := (m'.putQe { m'.qe with lastDispatch := m.now })
          let paused := (m.sq k).paused
          let m := m.setSq k { m.sq k with fetched := rest, paused := false }
          let m := if paused then m.startRead k false else m
          let (m, u) := m.place k d.index d.tag d.opcode
          if m.formatChecks d = false then m.complete k u stUnsupported 0 0
          else
            match m.malformedReason k d (foreign m d) with
            | some r => m.malformed k d.index u r
            | none => run m d u

/-! ## Event rings -/

/-- Free entries of an event ring (R149). -/
def eqFree (m : Mach) (h : Nat) : Nat :=
  m.eqSize h - ringDist (m.eqSize h) (m.get F.QE_EQ_PTR_OTHER 0 h) (m.get F.QE_EQ_PTR_OWN 0 h)

/-- Keeps QE_EQ_STATUS.FULL. -/
def eqFull (m : Mach) (h : Nat) : Mach := m.set F.QE_EQ_STATUS_FULL (if m.eqFree h < 2 then 1 else 0) 0 h

/-- Counts an event as lost (R128, R149). -/
def eqLose (m : Mach) (h : Nat) : Mach :=
  let m := m.inc F.QE_EQ_LOST 1 0 h
  (m.putQe { m.qe with lost := alPut m.qe.lost h ((alGet m.qe.lost h).getD 0 + 1) })

/-- Writes one entry of an event ring in its two steps (R132, R148). -/
def eqWrite (m : Mach) (h code source herd time info0 info1 : Nat) : Mach :=
  let i := m.get F.QE_EQ_PTR_OWN 0 h
  let ph := m.get F.QE_EQ_STATUS_PHASE 0 h
  let b := leBytes 8 (1 + ph * 16 + code * 2 ^ 16 + source * 2 ^ 32 + herd * 2 ^ 48) ++ leBytes 8 time ++ leBytes 8 info0 ++ leBytes 8 info1
  let a := m.get F.QE_EQ_CFG_ASID 0 h
  let va := m.ringBase F.QE_EQ_BASE_LO h + 32 * i
  match m.writeVa h a srcQe 4 h i (va + 8) (b.drop 8) with
  | (m, some (st, x)) => (m.ringFault 2 h h st x).eqLose h
  | (m, none) =>
    match m.writeVa h a srcQe 4 h i va (b.take 8) with
    | (m, some (st, x)) => (m.ringFault 2 h h st x).eqLose h
    | (m, none) =>
      let j := (i + 1) % m.eqSize h
      let m := if j = 0 then m.set F.QE_EQ_STATUS_PHASE (1 - ph) 0 h else m
      (m.set F.QE_EQ_PTR_OWN j 0 h).eqFull h

/-- Whether an event ring takes entries. An event for a ring that is disabled or stopped is counted as lost (R128,
14_herds.md R363). -/
def eqOpen (m : Mach) (h : Nat) : Bool := m.bit F.QE_EQ_CFG_ENABLE 0 h && !m.bit F.QE_EQ_STATUS_RING_FAULT 0 h

/-- Writes EVENTS_LOST once two entries are free again (R149). -/
def eqLostEntry (m : Mach) (h : Nat) : Mach :=
  let n := (alGet m.qe.lost h).getD 0
  if n = 0 ∨ m.eqOpen h = false ∨ m.eqFree h < 2 then m
  else (m.putQe { m.qe with lost := alDel m.qe.lost h }).eqWrite h 0x0001 0x1FF h m.polder.toNat n 0

/-- EVENT_RING_WRITE (R148, R149): the oldest event raised is written into its ring, or lost. -/
def eventWrite (m : Mach) : Mach :=
  match m.evq with
  | [] => m
  | e :: rest =>
    let m := (m.putEvq rest).eqLostEntry e.dest
    if m.eqOpen e.dest = false ∨ m.eqFree e.dest < 2 then m.eqLose e.dest
    else m.eqWrite e.dest e.code e.source e.herd e.time.toNat e.info0.toNat e.info1.toNat

end Mach
end Sys2Proof.Machine
end

