-- ==== Sys2Proof/Machine/ChurnOps.lean ====
section
/-! DEFINITION. Churn's shared operations (07_churn_arithmetic.md R194 to R204, 08_churn_programs.md R206 to R233): program images, their load
checks, costs, launches and tile SRAM. -/
namespace Sys2Proof.Machine

/-- A tile cycle is 0.4 ns: 32 units in 5 cycles (R177: 2.5 GHz). -/
def cycleUnits (c : Nat) : Nat := ceilDiv (c * 32) 5

/-- Cycles of one recompute (R199). -/
def recomputeCycles : Nat := 4144

/-! ## Program images -/

/-- A stream record (R207). -/
structure StreamRec where
  kind : Nat
  argOffset : Nat
  maxLen : Nat
  deriving DecidableEq, Repr

/-- A cost record (R209). -/
structure CostRec where
  resource : Nat
  divT : Bool
  idx : List Nat
  coef : Nat
  base' : Nat
  deriving DecidableEq, Repr

def streamOf (r : List Byte) : StreamRec := { kind := leAt r 0 1, argOffset := leAt r 2 2, maxLen := leAt r 4 4 }

def costRecOf (r : List Byte) : CostRec :=
  let w := leAt r 0 4
  { resource := w % 16, divT := w / 16 % 2 == 1, idx := [w / 2 ^ 8 % 256, w / 2 ^ 16 % 256, w / 2 ^ 24], coef := leAt r 4 4, base' := leAt r 8 4 }

/-- Sections of a program image, whose directory has the layout of a plan's (R206). -/
def progSections (img : List Byte) : List Section := sectionsOf img (leAt img 0x38 4) (leAt img 0x3C 4)

/-- Streams, cost records and mode bytes of an image. -/
def progStreams (img : List Byte) : List StreamRec := (records img (progSections img) 3 8).map streamOf
def progCosts (img : List Byte) : List CostRec := (records img (progSections img) 4 16).map costRecOf
def progModes (img : List Byte) : List Nat := (records img (progSections img) 5 1).map (fun b => leAt b 0 1)

/-- Header fields of an image (R206). -/
def progTilesMin (img : List Byte) : Nat := leAt img 0x28 1
def progTilesMax (img : List Byte) : Nat := leAt img 0x29 1
def progShapes (img : List Byte) : Nat := leAt img 0x2A 1
def progSram (img : List Byte) : Nat := leAt img 0x2C 4
def progCream (img : List Byte) : Nat := leAt img 0x30 4
def progArgsLen (img : List Byte) : Nat := leAt img 0x34 2
def progDigest (img : List Byte) : BitVec 384 := BitVec.ofNat 384 (leAt img 0x80 48)

/-- ARG_OFFSET and MAX of shape i (R206). -/
def progShape (img : List Byte) (i : Nat) : Nat × Nat := (leAt img (0x40 + 8 * i) 2, leAt img (0x44 + 8 * i) 4)

/-- Bytes of CODE and TABLE. -/
def progCode (img : List Byte) : Nat :=
  (((progSections img).filter (fun s => s.type == 1 || s.type == 2)).map (fun s => s.length)).foldl (· + ·) 0

/-- KiB of program store that CODE and TABLE take. -/
def progKib (img : List Byte) : Nat := (progCode img + 1023) / 1024

/-- Value of a resource of a user program at given shapes (R209). -/
def resourceOf (img : List Byte) (res t : Nat) (shape : Nat → Nat) : Nat :=
  (((progCosts img).filter (fun c => c.resource == res)).map (fun c =>
    let s := c.idx.foldl (fun n i => n * (if i = 0xFF then 1 else shape i)) 1
    c.base' + ceilDiv (c.coef * s) (65536 * (if c.divT then max 1 t else 1)))).foldl (· + ·) 0

/-- Whether two ranges overlap. -/
def overlaps (a n b m : Nat) : Bool := decide (a < b + m) && decide (b < a + n)

/-- Whether some two of a list of ranges overlap. -/
def anyOverlap : List (Nat × Nat) → Bool
  | [] => false
  | x :: r => r.any (fun y => overlaps x.1 x.2 y.1 y.2) || anyOverlap r

/-- Whether a capability profile needs a bit that ID_CAP0 to ID_CAP3 report absent (R4). Word 1 holds counts, not units, and is compared as numbers. -/
def Mach.capMissing (m : Mach) (req : List Nat) : Bool :=
  let has := fun (i : Nat) => (m.reg (regKey (0x10 + 4 * i) 0)).toNat
  [0, 2, 3].any (fun i => nthD req i 0 &&& (nthD req i 0 ^^^ has i) != 0 && (nthD req i 0 &&& has i) != nthD req i 0) ||
  ([(0, 8), (8, 8), (16, 8), (24, 8)] : List (Nat × Nat)).any (fun f => decide (getBits (has 1) f.1 f.2 < getBits (nthD req 1 0) f.1 f.2))

/-- Whether a signature block is accepted for a message (18_config_firmware.md R435). -/
def Mach.signed (m : Mach) (block msg : List Byte) : Bool :=
  m.cfg.keys.contains (Config.sha384 (block.take 388)) && Config.pssVerify block msg

namespace Mach

/-- Whether the module is in bring-up service (17_clocks_power_reset.md R428): boot step 9. -/
def bringUpService (m : Mach) : Bool := decide (m.get F.CLK_BOOT_STEP ≤ 9)

/-- A user entry of the program table. -/
def prog (m : Mach) (e : Nat) : Option ProgEnt := alGet m.chu.progs e

/-- Sets a user entry. -/
def setProg (m : Mach) (e : Nat) (x : ProgEnt) : Mach := (m.putChu { m.chu with progs := alPut m.chu.progs e x })

/-- Free program store in KiB, and entries LOADED, as CHU_STORE shows them. -/
def storeFree (m : Mach) : Nat := 1024 - ((m.chu.progs.filter (fun p => p.2.state != 1)).map (fun p => progKib p.2.image)).foldl (· + ·) 0
def storeSync (m : Mach) : Mach :=
  (m.set F.CHU_STORE_FREE_KIB m.storeFree).set F.CHU_STORE_LOADED (11 + (m.chu.progs.filter (fun p => p.2.state == 2)).length)

/-- Cream bytes allocated to a herd (10_memory.md R264). -/
def creamAlloc (m : Mach) (h : Nat) : Nat :=
  (((m.listed F.CRM_GRAN_STATE.addr).map (·.1)).filter (fun g => m.get F.CRM_GRAN_STATE 0 g == 1 && m.get F.CRM_GRAN_HERD 0 g == h)).length * 65536

/-- The load checks of R215, in order: reason and status of the first that fails. A section of a reserved type that is not OPTIONAL fails VERSION, as an image
of another generation (R206, R6). -/
def loadCheck (m : Mach) (e : Nat) (x : ProgEnt) : Option (Nat × Nat) :=
  let img := x.image
  let len := leAt img 8 4
  let secs := progSections img
  let inside := fun (s : Section) => decide (s.offset + s.length ≤ len - 1024)
  let has := fun (t : Nat) => secs.any (fun s => s.type == t)
  let streams := progStreams img
  let costs := progCosts img
  let shapes := progShapes img
  let args := (List.range shapes).map (fun i => ((progShape img i).1, 8)) ++ streams.map (fun s => (s.argOffset, 16))
  match x.bad with
  | some st => some (1, st)
  | none =>
    if leAt img 0 4 ≠ 0x4E524843 ∨ leAt img 6 2 ≠ 256 ∨ len ≠ img.length ∨ len % 4096 ≠ 0 ∨ len = 0 ∨ 4194304 < len ∨
        len - 1024 < leAt img 0x3C 4 + 16 * leAt img 0x38 4 ∨ (secs.any (fun s => !inside s)) ∨
        (has 1 && has 3 && has 4 && has 5) = false then some (1, stMalformed)
    else if leAt img 4 2 ≠ 1 ∨ secs.any (fun s => (s.sversion != 1 || s.type == 0 || decide (5 < s.type)) && !(s.isOptional && (s.type == 0 || decide (5 < s.type))))
      then some (2, stUnsupported)
    else if Config.sha384 (digestInput img 0x80 (len - 1024)) ≠ progDigest img ∨
        m.signed (img.drop (len - 1024)) ((img.drop 0x80).take 48) = false then some (3, stIntegrity)
    else if m.capMissing (words32 img 0x18 4) then some (4, stUnsupported)
    else if (progModes img).any (fun b => b != 0xFF && modeReserved b) ∨ leAt img 0x0C 1 ≠ 2 then some (5, stUnsupported)
    else if leAt img 0x0E 2 ≠ streams.length ∨ streams.length = 0 ∨ 256 < streams.length ∨ progTilesMin img = 0 ∨ 64 < progTilesMax img ∨
        progTilesMax img < progTilesMin img ∨ 8 < shapes ∨ progSram img % 4096 ≠ 0 ∨ 2 ^ 20 < progSram img ∨ progCream img % 4096 ≠ 0 ∨
        progArgsLen img < 16 ∨ 4096 < progArgsLen img ∨ 2 ^ 18 < progCode img ∨
        streams.any (fun s => s.kind == 0 || decide (4 < s.kind) || decide (16777216 < s.maxLen)) ∨
        costs.any (fun c => c.resource == 0 || decide (3 < c.resource) || c.idx.any (fun i => i != 0xFF && decide (shapes ≤ i))) ∨
        (List.range shapes).any (fun i => (progShape img i).1 % 8 != 0) ∨
        args.any (fun a => decide (4096 < a.1 + a.2)) ∨ anyOverlap args then some (6, stUnsupported)
    else if m.creamAlloc x.herd < progSram img * progTilesMin img + progCream img ∨ m.roomFor x.herd resProgs 1 = false then some (7, stUnsupported)
    else if m.storeFree < progKib img then some (8, stUnsupported)
    else if m.chu.progs.any (fun p => p.1 != e && p.2.herd == x.herd && p.2.state != 1 && progDigest p.2.image == progDigest img) then some (9, stDone)
    else if m.bringUpService then some (10, stUnsupported)
    else none

/-- Empties an entry: its store is freed and its use returned. -/
def progEmpty (m : Mach) (e : Nat) : Mach :=
  let m := match m.prog e with
    | some x => if x.state = 1 then m else m.giveBack x.herd resProgs 1
    | none => m
  let m := (m.putChu { m.chu with progs := alDel m.chu.progs e })
  (((m.set F.CHU_PROG_STATUS_STATE 0 0 e).set F.CHU_PROG_INFO_HERD 0 0 e).set F.CHU_PROG_INFO_TILES_MAX 0 0 e).storeSync

/-- A program command is refused (R214): REFUSED, with REASON and STATUS. -/
def progRefuse (m : Mach) (e reason status : Nat) : Mach :=
  (m.cmdRefused F.CHU_PROG_STATUS_DONE F.CHU_PROG_STATUS_REFUSED F.CHU_PROG_STATUS_REASON reason e).set F.CHU_PROG_STATUS_STATUS status 0 e

/-- Whether some entry is CHECKING: BUSY. -/
def progBusy (m : Mach) : Bool := m.chu.progs.any (fun p => p.2.state == 1)

/-- Whether a plan bank names a user entry (R213, R218). -/
def progNamed (m : Mach) (e : Nat) : Bool :=
  match m.prog e with
  | some x => m.heldPlans.any (fun p => p.2.progs.any (fun r => r.library == 0 && r.herd == x.herd && r.digest == progDigest x.image))
  | none => false

/-- State of an entry of the program table: library entries 1 to 11 are always LOADED (R211). -/
def progState (m : Mach) (e : Nat) : Nat :=
  if 1 ≤ e ∧ e ≤ 11 then 2 else ((m.prog e).map (fun x => x.state)).getD 0

/-- LOAD of an entry for herd `h` (R213): the image is copied through the context of herd `ctx` (0 for the steward) and the check begins. A copy that fails to
translate fails the first check with the status of the translation (notes/assumptions/28.md). -/
def progLoad (m : Mach) (e h ctx asid va : Nat) : Mach :=
  if e < 64 then m.progRefuse e 0x0C stUnsupported
  else if m.progBusy ∨ m.progState e ≠ 0 then m.progRefuse e 0x0B stUnsupported
  else
    let (m, img, bad) : Mach × List Byte × Option Nat := match m.readVa ctx asid srcQe va 256 with
      | (m, .error (st, _)) => (m, [], some st)
      | (m, .ok hd) =>
        let len := leAt hd 8 4
        if len = 0 ∨ 4194304 < len then (m, hd, none)
        else match m.readVa ctx asid srcQe va len with
          | (m, .error (st, _)) => (m, [], some st)
          | (m, .ok d) => (m, d, none)
    let m := m.setProg e { herd := h, state := 1, image := img, bad := bad }
    m.set F.CHU_PROG_STATUS_STATE 1 0 e

/-- The load checks end (R213, R215). -/
def progChecked (m : Mach) (e : Nat) : Mach :=
  match m.prog e with
  | none => m
  | some x =>
    if x.state ≠ 1 then m
    else
      match m.loadCheck e x with
      | some (r, st) =>
        let m := if r = 9 then
            m.set F.CHU_PROG_INFO_MATCH
              (((m.chu.progs.find? (fun p => p.1 != e && p.2.herd == x.herd && p.2.state != 1 && progDigest p.2.image == progDigest x.image)).map (·.1)).getD 0) 0 e
          else m
        (m.progEmpty e).progRefuse e r st
      | none =>
        let m := (m.setProg e { x with state := 2 }).take x.herd resProgs 1
        let m := ((m.set F.CHU_PROG_STATUS_STATE 2 0 e).set F.CHU_PROG_INFO_HERD x.herd 0 e).set F.CHU_PROG_INFO_TILES_MAX (progTilesMax x.image) 0 e
        (m.cmdDone F.CHU_PROG_STATUS_DONE F.CHU_PROG_STATUS_REFUSED e).storeSync

/-- Whether a launch of an entry is dispatched and not complete. -/
def progRuns (m : Mach) (e : Nat) : Bool := m.chu.launches.any (fun l => l.entry == e)

/-- A DRAINING entry whose last launch has completed becomes EMPTY (R213). -/
def progDrained (m : Mach) (e : Nat) : Mach := if m.progState e = 3 ∧ m.progRuns e = false then m.progEmpty e else m

/-- UNLOAD (R213, R214). -/
def progUnload (m : Mach) (e : Nat) : Mach :=
  if e < 64 then m.progRefuse e (if 1 ≤ e ∧ e ≤ 11 then 0x0C else 0x0B) stUnsupported
  else if m.progBusy ∨ m.progState e ≠ 2 then m.progRefuse e 0x0B stUnsupported
  else if m.progNamed e then m.progRefuse e 0x0C stUnsupported
  else
    match m.prog e with
    | none => m
    | some x =>
      let m := (m.setProg e { x with state := 3 }).set F.CHU_PROG_STATUS_STATE 3 0 e
      ((m.cmdDone F.CHU_PROG_STATUS_DONE F.CHU_PROG_STATUS_REFUSED e).storeSync).progDrained e

/-! ## Tile SRAM -/

/-- A range of tile SRAM begins to be cleared (R203). -/
def sramClear (m : Mach) (t lo len : Nat) : Mach :=
  if len = 0 then m
  else
    (m.putChu { m.chu with clears := m.chu.clears ++ [(t, lo, len)] }).set F.CHU_TILE_STATUS_CLEARING 1 0 t

/-- Whether a range of a tile was last written by another herd. -/
def sramForeign (m : Mach) (t lo len h : Nat) : Bool :=
  m.chu.sram.any (fun r => r.1 == t && r.2.2.2 != h && overlaps r.2.1 r.2.2.1 lo len)

/-- Whether a clear of a tile runs. -/
def sramClearing (m : Mach) (t : Nat) : Bool := m.chu.clears.any (fun c => c.1 == t)

/-- The parts of a range that lie outside another. -/
def rangeMinus (lo len a n : Nat) : List (Nat × Nat) :=
  (if lo < a then [(lo, min len (a - lo))] else []) ++
  (if a + n < lo + len then [(max lo (a + n), lo + len - max lo (a + n))] else [])

/-- TILE_SRAM_CLEAR (R203): the oldest clear of a tile ends; its bytes are zero and belong to no herd. -/
def sramCleared (m : Mach) (t : Nat) : Mach :=
  match m.chu.clears.find? (fun c => c.1 == t) with
  | none => m
  | some c =>
    let m := m.wrZero .tsram (t * 2 ^ 20 + c.2.1) c.2.2
    let left := m.chu.sram.flatMap (fun r =>
      if r.1 = t ∧ overlaps r.2.1 r.2.2.1 c.2.1 c.2.2 then (rangeMinus r.2.1 r.2.2.1 c.2.1 c.2.2).map (fun q => (t, q.1, q.2, r.2.2.2)) else [r])
    let m := (m.putChu { m.chu with clears := m.chu.clears.erase c, sram := left })
    if m.sramClearing t then m else m.set F.CHU_TILE_STATUS_CLEARING 0 0 t

/-- Every range of tile SRAM that a herd wrote begins to be cleared (R203, R232). -/
def sramRelease (m : Mach) (h : Nat) : Mach :=
  (m.chu.sram.filter (fun r => r.2.2.2 == h)).foldl (fun m r => m.sramClear r.1 r.2.1 r.2.2.1) m

/-- A plan switch (R203): ranges that the plan gives to an owner of another herd than the one that last wrote them are cleared. -/
def sramSwitch (m : Mach) (p : Plan) : Mach :=
  (p.resvs.filter (fun r => r.type == 4)).foldl (fun m r =>
    (List.range 64).foldl (fun m t =>
      if getBits r.units t 1 = 1 ∧ m.sramForeign t r.start r.length r.herd then m.sramClear t r.start r.length else m) m) m

/-! ## Launches -/

/-- A launch by its number. -/
def launch? (m : Mach) (u : Nat) : Option Launch := m.chu.launches.find? (fun l => l.uid == u)

/-- Sets a launch. -/
def setLaunch (m : Mach) (x : Launch) : Mach :=
  (m.putChu { m.chu with launches := m.chu.launches.map (fun l => if l.uid == x.uid then x else l) })

/-- Removes a launch. -/
def dropLaunch (m : Mach) (u : Nat) : Mach := (m.putChu { m.chu with launches := m.chu.launches.filter (fun l => l.uid != u) })

/-- Tiles of a mask, in ascending order: logical tile i is the i-th (R216). -/
def tilesOf (mask : Nat) : List Nat := (List.range 64).filter (fun t => getBits mask t 1 == 1)

/-- Tiles that run a launch, as CHU_STATUS.BUSY and FENCED count them. -/
def chuSync (m : Mach) : Mach :=
  let busy := ((m.listed F.CHU_TILE_STATUS_BUSY.addr).filter (fun p => getBits p.2.toNat 30 1 == 1)).length
  let fenced := ((m.listed F.CHU_TILE_STATUS_BUSY.addr).filter (fun p => getBits p.2.toNat 31 1 == 1)).length
  (m.set F.CHU_STATUS_BUSY busy).set F.CHU_STATUS_FENCED fenced

/-- The first refusal of a launch is captured (R223), and the launch completes with its status. -/
def launchRefuse (m : Mach) (l : Launch) (reason status : Nat) : Mach :=
  let m := if m.bit F.CHU_LAUNCH_REFUSE_VALID then m
    else (((m.set F.CHU_LAUNCH_REFUSE_VALID 1).set F.CHU_LAUNCH_REFUSE_PROGRAM l.entry).set F.CHU_LAUNCH_REFUSE_REASON reason).set
      F.CHU_LAUNCH_REFUSE_HERD l.herd
  ((m.dropLaunch l.uid).complete l.sq l.uid status 0 0).progDrained l.entry

/-- The plan record that binds a launch's program in the ACTIVE plan (R216, R217). -/
def bindingOf (m : Mach) (l : Launch) : Option ProgRec :=
  m.plan?.bind (fun p => p.progs.find? (fun r =>
    if l.entry < 64 then r.library == l.entry && r.herd == l.herd
    else r.library == 0 && r.herd == l.herd && ((m.prog l.entry).map (fun x => progDigest x.image == r.digest)).getD false))

/-- A reservation of a program's OWNER, by type. -/
def ownerResv (p : Plan) (owner type : Nat) : Option Resv := p.resvs.find? (fun r => r.type == type && r.owner == owner)

/-- Scalar i of an argument block of a library kernel (R226: 8 bytes each behind the 16-byte header). -/
def argScalar (args : List Byte) (i : Nat) : Nat := leAt args (16 + 8 * i) 8

/-- The scalars of a kernel's argument block: counts and FP32 values stand in the low 32 bits (R226); GEN of SEAL takes all 64. -/
def argScalars (k : Nat) (args : List Byte) : List Nat :=
  (List.range (kScalars k)).map (fun i => if k = 11 ∧ i = 1 then argScalar args i else argScalar args i % 2 ^ 32)

/-- Streams of a launch: memory stream, input, result, address, length, MAX_LEN. -/
def launchStreams (m : Mach) (e : Nat) (args : List Byte) : List (Bool × Bool × Bool × Nat × Nat × Nat) :=
  if e < 64 then
    (kStreams e (argScalar args 0 % 2 ^ 32)).zipIdx.map (fun s =>
      let o := 16 + 8 * kScalars e + 16 * s.2
      (s.1.1, s.1.2.1, s.1.2.2, leAt args o 8, leAt args (o + 8) 8, 16777216))
  else
    (((m.prog e).map (fun x => progStreams x.image)).getD []).map (fun s =>
      (decide (s.kind ≤ 2), s.kind % 2 == 1, s.kind % 2 == 0, leAt args s.argOffset 8, leAt args (s.argOffset + 8) 8, s.maxLen))

/-- Shapes of a launch as the argument block gives them. -/
def launchShapes (m : Mach) (e : Nat) (args : List Byte) : List Nat :=
  if e < 64 then (kShapes e).map (fun s => argScalar args s.1 % 2 ^ 32)
  else match m.prog e with
    | some x => (List.range (progShapes x.image)).map (fun i => leAt args (progShape x.image i).1 4)
    | none => []

/-- Ct, Cs and PEAT_BYTES of a launch at its actual shapes on `t` tiles (R209, R228). -/
def launchTerms (m : Mach) (e t : Nat) (args : List Byte) : Nat × Nat × Nat :=
  if e < 64 then
    let a := fun i => nthD (argScalars e args) i 0
    (kCt e t a, kCs e t a, kPeat e a)
  else match m.prog e with
    | some x =>
      let s := fun i => nthD (m.launchShapes e args) i 0
      (resourceOf x.image 1 t s, resourceOf x.image 2 t s, resourceOf x.image 3 t s)
    | none => (0, 0, 0)

/-- Check 0x04 of R223: a shape above its image maximum or outside the range of the kernel table, a reserved format number, or above the plan maximum. -/
def shapeBad (m : Mach) (l : Launch) (args : List Byte) (rec' : Option ProgRec) : Bool :=
  let sh := m.launchShapes l.entry args
  let beyond := if l.entry < 64 then
      ((kShapes l.entry).zip sh).any (fun s => decide (s.2 < s.1.2.1) || decide (s.1.2.2 < s.2) || !kScalarOk l.entry s.1.1 s.2) ||
      (kFormats l.entry).any (fun i => decide (9 < argScalar args i % 2 ^ 32))
    else match m.prog l.entry with
      | some x => sh.zipIdx.any (fun s => decide ((progShape x.image s.2).2 < s.1))
      | none => false
  let planOver := match rec' with
    | some r => sh.zipIdx.any (fun s => nthD r.shapeMax s.2 0 != 0 && decide (nthD r.shapeMax s.2 0 < s.1))
    | none => false
  beyond || (l.sched && planOver)

/-- Whether a kernel needs a unit that the module reports absent (R4, R228). -/
def kernelAbsent (m : Mach) (k : Nat) : Bool :=
  (kNeeds k).any (fun n => !(if n = 1 then m.bit F.ID_CAP0_CHURN_MATRIX else if n = 2 then m.bit F.ID_CAP0_LOWRANK else m.bit F.ID_CAP0_DENSE_XFORM))

/-- Check 0x07 of R223 (R231, R233): what bring-up service launches. -/
def bringUpBars (m : Mach) (e : Nat) (args : List Byte) : Bool :=
  m.bringUpService && !(e == 11 || (e == 1 && [2, 3].all (fun i =>
    argScalar args i % 2 ^ 32 == dFp32 || argScalar args i % 2 ^ 32 == dBf16)))

/-- The first failing check of R223 from 0x01 to 0x07, with the binding mask and the plan record of a scheduled launch. -/
def launchCheck (m : Mach) (l : Launch) (argsLen : Nat) (args : List Byte) : Except (Nat × Nat) (Nat × Option ProgRec) :=
  let e := l.entry
  let lib : Bool := e < 64
  let img := ((m.prog e).map (fun x => x.image)).getD []
  let rec' := m.bindingOf l
  let need := if lib then 16 + 8 * kScalars e + 16 * (kStreams e (argScalar args 0 % 2 ^ 32)).length else progArgsLen img
  let usesMode := lib || (progModes img).contains 0xFF
  let mask := if l.sched then (rec'.map (fun r => r.tiles)).getD 0 else l.mask
  let t := (tilesOf mask).length
  let (tmin, tmax) := if lib then (1, 64) else (progTilesMin img, progTilesMax img)
  if lib ∧ m.kernelAbsent e then .error (1, stUnsupported)
  else if argsLen < need ∨ leAt args 0 1 ≠ 1 then .error (2, stUnsupported)
  else if usesMode ∧ modeReserved (leAt args 1 1) then .error (3, stUnsupported)
  else if m.shapeBad l args rec' then .error (4, stUnsupported)
  else if (l.sched ∧ rec'.isNone) ∨ t < tmin ∨ tmax < t then .error (5, stUnsupported)
  else if (tilesOf mask).any (fun i => m.bit F.CHU_TILE_STATUS_FENCED 0 i) then .error (6, stIntegrity)
  else if m.bringUpBars e args then .error (7, stUnsupported)
  else .ok (mask, if l.sched then rec' else none)

/-- Cream ranges that the CREAM reservations of a herd in the ACTIVE plan cover. -/
def creamInResv (m : Mach) (h off len : Nat) : Bool :=
  match m.plan? with
  | none => false
  | some p => p.resvs.any (fun r => r.type == 3 && r.herd == h && getBits r.units (off / 2 ^ 22) 1 == 1 &&
      decide (r.start ≤ off % 2 ^ 22) && decide (off % 2 ^ 22 + len ≤ r.start + r.length))

/-- A Cream stream checked against the Cream allocation of the herd (R224). -/
def creamTile (m : Mach) (h off len : Nat) : Except (Nat × Nat) (List Seg) :=
  let gs := (List.range ((off + max 1 len - 1) / 0x10000 + 1 - off / 0x10000)).map (fun i => off / 0x10000 + i)
  match gs.find? (fun g =>
      let a := g * 0x10000
      creamMapped a = false ∨ m.get F.CRM_GRAN_STATE 0 (creamGranule a) ≠ 1 ∨ m.get F.CRM_GRAN_HERD 0 (creamGranule a) ≠ h) with
  | some g => .error (stContext, max off (g * 0x10000))
  | none => .ok [{ target := 2, port := 0, addr := off, va := off, len := len }]

/-- Translates and checks the streams in order (R224): pieces and lengths, or the first failure with its address. -/
def streamChecks (m : Mach) (h asid unit : Nat) : List (Bool × Bool × Bool × Nat × Nat × Nat) → Mach × Except (Nat × Nat) (List (List Seg × Nat))
  | [] => (m, .ok [])
  | s :: r =>
    let (mem, inp, _, va, len, maxLen) := s
    if maxLen < len then (m, .error (stUnsupported, 0))
    else
      let res : Mach × Except (Nat × Nat) (List Seg) :=
        if mem then
          match m.tile h asid (if inp then accRead else accWrite) unit va len with
          | (m, .error e) => (m, .error e)
          | (m, .ok segs) =>
            -- a stream both read and written is checked for writing too
            if inp ∧ s.2.2.1 then
              match m.tile h asid accWrite unit va len with
              | (m, .error e) => (m, .error e)
              | (m, .ok _) => (m, .ok segs)
            else (m, .ok segs)
        else (m, m.creamTile h va len)
      match res with
      | (m, .error e) => (m, .error e)
      | (m, .ok segs) =>
        match streamChecks m h asid unit r with
        | (m, .ok rest) => (m, .ok ((segs, len) :: rest))
        | (m, .error e) => (m, .error e)

/-- Peat bytes that a stream takes from each controller (10_memory.md R269): 32 for a line, 64 for one written in part. -/
def spreadOf (segs : List Seg) (inp out : Bool) : Nat :=
  (segs.map (fun s =>
    let first := s.addr / 768
    let last := (s.addr + max 1 s.len - 1) / 768
    let lines := last + 1 - first
    let part := (if s.addr % 768 = 0 then 0 else 1) + (if (s.addr + s.len) % 768 = 0 ∨ (last = first ∧ s.addr % 768 ≠ 0) then 0 else 1)
    (if inp then 32 * lines else 0) + (if out then 32 * (lines + min lines part) else 0))).foldl (· + ·) 0

/-- CHURN_LAUNCH (R216, R223): the argument block is translated for reading, and a launch of an entry that is not LOADED is refused. -/
def launchBegin (m : Mach) (k : Nat) (d : Desc) (u : Nat) : Mach :=
  let h := m.sqHerd k
  match m.tile h d.asid accRead srcQe (d.bits 2 0 64) d.length with
  | (m, .error (st, a)) => m.complete k u st 0 a
  | (m, .ok segs) =>
    let l : Launch :=
      { uid := u, sq := k, herd := h, asid := d.asid, entry := d.target, sched := d.bits 3 0 64 == 0, argSegs := segs, args := [], state := 0
        mask := d.bits 3 0 64, owner := 0, streams := [], cost := 0, seeds := [], readyAt := 0, since := 0, staged := [], done := 0, flags := 0
        kres := 0, again := false, fail := none }
    if m.progState d.target ≠ 2 then m.launchRefuse l 1 stUnsupported
    else (m.putChu { m.chu with launches := m.chu.launches ++ [l] })

/-- Whether a descriptor names a user program of another herd (05_queues_descriptors.md R140). -/
def progForeign (m : Mach) (k : Nat) (d : Desc) : Bool := ((m.prog d.target).map (fun x => x.herd != m.sqHerd k)).getD false

/-- LAUNCH_ARGS_READ (R223, R224): the argument block is read, every check is made, and the launch becomes READY. -/
def launchArgs (m : Mach) (l : Launch) : Mach :=
  let (m, args) := m.readSegs l.argSegs
  match m.launchCheck l args.length args with
  | .error (r, st) => m.launchRefuse l r st
  | .ok (mask, rec') =>
    let ss := m.launchStreams l.entry args
    match m.streamChecks l.herd l.asid (srcTile ((tilesOf mask).headD 0)) ss with
    | (m, .error (st, a)) => (((m.dropLaunch l.uid).complete l.sq l.uid st 0 (if st = stUnsupported then 0 else a))).progDrained l.entry
    | (m, .ok streams) =>
      let owner := (rec'.map (fun r => r.owner)).getD 0
      let t := (tilesOf mask).length
      let (ct, cs, pb) := m.launchTerms l.entry t args
      let peat := m.plan?.bind (fun p => ownerResv p owner 5)
      let cp := match l.sched, peat with
        | true, some r => peatCycles pb r.amount ((tilesOf r.units).length)
        | _, _ => 0
      let outside : Bool := l.sched && (ss.zip streams).any (fun s =>
        if s.1.1 then s.2.1.any (fun g => g.target != 0) else !m.creamInResv l.herd s.1.2.2.2.1 s.2.2)
      let take : Nat := ((ss.zip streams).filter (fun s => s.1.1)).map (fun s => spreadOf s.2.1 s.1.2.1 s.1.2.2.1) |>.foldl (· + ·) 0
      let grant : Nat := (peat.map (fun r => r.amount * (r.length - 10))).getD 0
      if outside then m.launchRefuse l 8 stUnsupported
      else if l.sched ∧ grant < take then m.launchRefuse l 9 stUnsupported
      else
        m.setLaunch { l with
          args := args, state := 1, mask := mask, owner := owner, streams := streams, cost := costOf ct cs cp, readyAt := m.polder }

/-! ### Reserved tile time -/

/-- The occurrence of a reservation in tide `k`, as absolute slots, if the tide is one of its own and no slack tide (03_sluice_plans.md R86, R88). -/
def occurrence (p : Plan) (r : Resv) (k : Nat) : Option (Nat × Nat) :=
  if p.isSlack k ∨ (r.period ≠ 0 ∧ k % r.period ≠ r.tphase) then none
  else some (k * p.tideLen + r.start, k * p.tideLen + r.start + r.length)

/-- Whether an occurrence of a reservation overlaps the next `units` of polder time. -/
def resvWithin (p : Plan) (r : Resv) (now : DWord) (units : Nat) : Bool :=
  match p.rel now 0 with
  | none => false
  | some a =>
    let k0 := a / (p.tideLen * slotUnits)
    let n := units / max 1 (p.tideLen * slotUnits) + 2
    (List.range n).any (fun i => match occurrence p r (k0 + i) with
      | some (lo, hi) => decide (lo * slotUnits < a + units) && decide (a < hi * slotUnits)
      | none => false)

/-- Whether the reservations of the plans in force leave a tile free for so long (R201, R220). A plan not yet at its TIDE_BASE reserves nothing before it. -/
def tileUnreserved (m : Mach) (t units : Nat) : Bool :=
  m.livePlans.all (fun p => p.resvs.all (fun r => !(r.type == 2 && getBits r.units t 1 == 1 && resvWithin p r m.polder units)))

/-- Whether an occurrence of a launch's TILE reservation opens now: the first slot of one, opened after the launch became READY (R220). -/
def occurrenceOpens (m : Mach) (l : Launch) : Bool :=
  match m.plan? with
  | none => false
  | some p =>
    match ownerResv p l.owner 2, p.rel m.polder 0 with
    | some r, some a =>
      let n := a / slotUnits
      match occurrence p r (n / p.tideLen) with
      | some (lo, _) => n == lo && decide (0 < timeDiff (p.opening 32 lo) l.readyAt)
      | none => false
    | _, _ => false

/-- Reserved tile SRAM of an owner on a tile, or scratch at the lowest place that no reservation covers (R201). -/
def sramPlace (m : Mach) (l : Launch) (t need : Nat) : Option (Nat × Nat) :=
  let own := m.plan?.bind (fun p => p.resvs.find? (fun r => r.type == 4 && r.owner == l.owner && getBits r.units t 1 == 1))
  if l.sched then some ((own.map (fun r => (r.start, r.length))).getD (0, 0))
  else
    let taken := (m.livePlans.flatMap (fun p => p.resvs.filter (fun r => r.type == 4 && getBits r.units t 1 == 1))).map (fun r => (r.start, r.length))
    if need = 0 then some (0, 0)
    else ((List.range 256).map (fun i => i * 4096)).find? (fun a => decide (a + need ≤ 2 ^ 20) && taken.all (fun r => !overlaps r.1 r.2 a need)) |>.map
      (fun a => (a, need))

/-- Tile SRAM that a launch's program needs on each logical tile. The library's needs are not stated and count as none. -/
def sramNeed (m : Mach) (l : Launch) : Nat := if l.entry < 64 then 0 else ((m.prog l.entry).map (fun x => progSram x.image)).getD 0

/-- Stages the memory streams that a pass reads (R219), and the Cream streams with them. -/
def stage (m : Mach) (l : Launch) : Mach :=
  let ss := m.launchStreams l.entry l.args
  let (m, st) := (ss.zip l.streams).foldl (fun (acc : Mach × List (List Byte)) s =>
    if s.1.2.1 then
      let (m, d) := acc.1.readSegs s.2.1
      (m, acc.2 ++ [d])
    else (acc.1, acc.2 ++ [[]])) (m, [])
  m.setLaunch { (m.launch? l.uid).getD l with staged := st }

/-- A launch enters RUNNING on all its tiles together (R220, R221): seed and counter latched, counter incremented (R194), streams staged. Tiles whose SRAM
must first be cleared, or whose array sleeps, begin that instead. -/
def launchStart (m : Mach) (l : Launch) : Mach :=
  let ts := tilesOf l.mask
  let need := m.sramNeed l
  let places := ts.map (fun t => (t, m.sramPlace l t need))
  let asleep := (ts.map (fun t => 3 + t / 8)).eraseDups.filter (fun d => !m.bit F.CLK_DOM_STATUS_RUNNING 0 d)
  let foreign := places.filter (fun p => match p.2 with | some (a, n) => m.sramForeign p.1 a n l.herd | none => false)
  if asleep ≠ [] then asleep.foldl (fun m d => if (alGet m.clk.starting d).isSome then m else (m.putClk { m.clk with starting := alPut m.clk.starting d m.now })) m
  else if places.any (fun p => p.2.isNone) ∨ ts.any (fun t => m.sramClearing t) then m
  else if foreign ≠ [] then foreign.foldl (fun m p => match p.2 with | some (a, n) => m.sramClear p.1 a n | none => m) m
  else
    let seeds := ts.map (fun t => (m.get64 F.CHU_SEED_LO 0 t, m.get F.CHU_LAUNCH_CTR_L 0 t))
    let m := ts.foldl (fun m t =>
      ((m.set F.CHU_LAUNCH_CTR_L ((m.get F.CHU_LAUNCH_CTR_L 0 t + 1) % 2 ^ 24) 0 t).set F.CHU_TILE_STATUS_BUSY 1 0 t).set F.CHU_TILE_STATUS_HERD l.herd 0 t) m
    let held := places.filterMap (fun p => match p.2 with | some (a, n) => if n = 0 then none else some (p.1, a, n, l.herd) | none => none)
    let m := (m.putChu { m.chu with sram := held ++ m.chu.sram.filter (fun r => !held.contains r) })
    let m := (m.inc F.CHU_LAUNCHES).chuSync
    let m := m.setLaunch { l with state := 2, seeds := seeds, since := m.now }
    m.stage l

/-- Whether tiles are free: none runs a launch. -/
def tilesFree (m : Mach) (mask : Nat) : Bool := (tilesOf mask).all (fun t => !m.bit F.CHU_TILE_STATUS_BUSY 0 t)

/-- LAUNCH_START_SCHEDULED (R220): the oldest READY launch of its program, at an opening of its OWNER's reservation. -/
def startScheduled (m : Mach) (l : Launch) : Mach :=
  let first := (m.chu.launches.find? (fun x => x.sched && x.state == 1 && x.owner == l.owner && x.entry == l.entry)).map (fun x => x.uid)
  if l.state = 1 ∧ l.sched ∧ first = some l.uid ∧ m.tilesFree l.mask ∧ m.occurrenceOpens l then m.launchStart l else m

/-- LAUNCH_START_UNSCHEDULED (R220, R221): every bound tile free, no launch dispatched before it waiting for one of them, and room before the next reserved
interval of each; at throttle levels 3 and 4 unscheduled launches are held (17_clocks_power_reset.md R422). -/
def startUnscheduled (m : Mach) (l : Launch) : Mach :=
  let earlier := m.chu.launches.takeWhile (fun x => x.uid != l.uid)
  let behind := earlier.any (fun x => !x.sched && x.state == 1 && (x.mask &&& l.mask) != 0)
  if m.get F.CLK_STATUS_THROTTLE < 3 ∧ l.state = 1 ∧ l.sched = false ∧ behind = false ∧ m.tilesFree l.mask ∧
      (tilesOf l.mask).all (fun t => m.tileUnreserved t (cycleUnits (l.cost + recomputeCycles))) then m.launchStart l else m

/-- A launch issues no further writes: it waits for those issued to land (R220). Its tiles are free; the scratch of an unscheduled launch is cleared (R203). -/
def launchEnd (m : Mach) (l : Launch) (fail : Option (Nat × Nat)) : Mach :=
  let m := m.setLaunch { l with state := 3, fail := if l.fail.isSome then l.fail else fail }
  let ts := tilesOf l.mask
  let m := ts.foldl (fun m t => (m.set F.CHU_TILE_STATUS_BUSY 0 0 t).set F.CHU_TILE_STATUS_RECOMPUTING 0 0 t) m
  let m := if l.sched then m else ts.foldl (fun m t =>
    match m.sramPlace l t (m.sramNeed l) with
    | some (a, n) => m.sramClear t a n
    | none => m) m
  m.chuSync

/-- The outputs of a launch that ends with INTEGRITY are undefined (R198): every byte of its result ranges is free. -/
def spoil (m : Mach) (l : Launch) : Mach :=
  let ss := m.launchStreams l.entry l.args
  (ss.zip l.streams).foldl (fun m s =>
    if s.1.2.2.1 then
      s.2.1.foldl (fun (m : Mach) g =>
        let (m, d) := m.freshBytes g.len
        if g.target = 0 then m.peatWrite g.addr d l.sched else if g.target = 2 then m.wrBytes .cream g.addr d else m) m
    else m) m

/-- An access at or beyond a stream's length (R208): the launch ends with XLATE_FAULT, the first such address captured. -/
def launchOverrun (m : Mach) (l : Launch) (s off : Nat) : Mach :=
  let a := (nthD (m.launchStreams l.entry l.args) s (false, false, false, 0, 0, 0)).2.2.2.1 + off
  let m := if m.bit F.XLT_FAULT_INFO_VALID then m
    else (((m.set F.XLT_FAULT_INFO_VALID 1).set F.XLT_FAULT_INFO_HERD l.herd).set F.XLT_FAULT_INFO_ASID l.asid).set64 F.XLT_FAULT_ADDR_LO a
  let m := m.fault srcXlt kFailed { access := if (nthD (m.launchStreams l.entry l.args) s (false, false, false, 0, 0, 0)).2.1 then accRead else accWrite,
                                    status := stXlate, unit := srcXlt, herd := l.herd, addr := a }
  m.launchEnd l (some (stXlate, a))

/-- The surroundings of a library kernel's unit. -/
def kernelIn (l : Launch) : KIn :=
  { kernel := l.entry, mode := modeOf (leAt l.args 1 1), tiles := (tilesOf l.mask).length, seeds := l.seeds, scalars := argScalars l.entry l.args,
    streams := (l.staged.zip (l.streams.map (·.2))) }

/-- Writes that a pass issues: each goes to its stream's pieces, and is handed to the serving memory. -/
def launchWrites (m : Mach) (l : Launch) (ws : List (Nat × Nat × List Byte)) : Mach :=
  ws.foldl (fun m w =>
    let segs := (nthD l.streams w.1 ([], 0)).1
    m.writeSegs l.herd l.asid 5 l.uid 0 l.sched (subSegs segs w.2.1 w.2.2.length) w.2.2) m

/-- The flags of a pass stick in CHU_EXC of the tiles (R204). -/
def excSet (m : Mach) (l : Launch) (flags : Nat) : Mach :=
  (tilesOf l.mask).foldl (fun m t =>
    let k := fkey F.CHU_EXC_INVALID 0 t
    m.setReg k (m.reg k ||| BitVec.ofNat 32 (flags % 64))) m

/-- LAUNCH_PASS_END (R198, R219, R220): the outputs of the pass are written and the next pass stages its inputs; after the last one the launch waits for its
writes. A library kernel carries out `units` more of its units, all that remain in the last pass; what a user program writes, its flags and its KRESULT
come with the command, since the spec does not give the microcode. -/
def passEnd (m : Mach) (l : Launch) (units : Nat) (last : Bool) (user : ProgPass) : Mach :=
  let m := (tilesOf l.mask).foldl (fun m t => m.set F.CHU_TILE_STATUS_RECOMPUTING 0 0 t) m
  if l.entry < 64 then
    let x := kernelIn l
    let n := if last then x.units - l.done else min units (x.units - l.done)
    let (o, beyond) := x.run l.done n
    let m := (m.launchWrites l o.writes).excSet l o.flags
    let l := { l with done := l.done + n, flags := l.flags ||| o.flags, kres := l.kres + o.k }
    match beyond with
    | some (s, off) => m.launchOverrun l s off
    | none => if last then m.launchEnd l none else (m.setLaunch l).stage l
  else
    let ss := m.launchStreams l.entry l.args
    let ok := fun (w : Nat × Nat × List Byte) => (nthD ss w.1 (false, false, false, 0, 0, 0)).2.2.1 && decide (w.2.1 + w.2.2.length ≤ (nthD l.streams w.1 ([], 0)).2)
    let m := (m.launchWrites l (user.writes.filter ok)).excSet l user.flags
    let l := { l with flags := l.flags ||| user.flags % 64, kres := user.kresult }
    match user.writes.find? (fun w => !ok w) with
    | some w => m.launchOverrun l w.1 (max w.2.1 (nthD l.streams w.1 ([], 0)).2)
    | none => if last then m.launchEnd l none else (m.setLaunch l).stage l

/-- The RUNNING launch of a tile. -/
def launchOn (m : Mach) (t : Nat) : Option Launch := m.chu.launches.find? (fun l => l.state == 2 && getBits l.mask t 1 == 1)

/-- A detection of R197 in a tile (R198): the pass is executed again, or at the second detection of a launch the launch ends with INTEGRITY. -/
def churnDetect (m : Mach) (t : Nat) : Mach :=
  match m.launchOn t with
  | none => m
  | some l =>
    if l.again = false then
      let m := (m.inc F.CHU_RESIDUE_RECOMPUTED 1 0 t).set F.CHU_TILE_STATUS_RECOMPUTING 1 0 t
      (m.setLaunch { l with again := true }).fault (srcTile t) kCorrected { unit := srcTile t, herd := l.herd, detail := t }
    else
      let m := m.inc F.CHU_RESIDUE_FAILED 1 0 t
      let m := (m.spoil l).launchEnd l (some (stIntegrity, 0))
      m.fault (srcTile t) kFailed { status := stIntegrity, unit := srcTile t, herd := l.herd, detail := t }

/-- LAUNCH_BUDGET_EXCEEDED (R222): C + 4,144 cycles have passed since the start. -/
def budgetExceeded (m : Mach) (l : Launch) : Mach :=
  if l.state = 2 ∧ l.since + cycleUnits (l.cost + recomputeCycles) ≤ m.now then
    let t := (tilesOf l.mask).headD 0
    let m := (m.inc F.CHU_BUDGET_OVER).launchEnd l (some (stIntegrity, 0))
    m.fault (srcTile t) kFailed { status := stIntegrity, unit := srcTile t, herd := l.herd, detail := t }
  else m

/-- LAUNCH_COMPLETE (R220, R227): every issued write has landed. -/
def launchComplete (m : Mach) (l : Launch) : Mach :=
  if l.state ≠ 3 ∨ m.landed 5 l.uid 0 = false then m
  else
    let m := m.dropLaunch l.uid
    let m := match l.fail with
      | some (st, d) => m.complete l.sq l.uid st 0 d
      | none => m.complete l.sq l.uid stDone 0 (l.flags + (if l.again then 256 else 0) + l.kres % 2 ^ 32 * 2 ^ 32)
    let m := if m.bit F.CHU_CTL_EXC_EVENT ∧ l.flags &&& 33 ≠ 0 then m.raise 0x0600 0x1FF l.herd [l.herd] l.entry l.flags else m
    m.progDrained l.entry

/-- A fenced tile ends its launch at once with INTEGRITY (R200). -/
def tileLost (m : Mach) (t : Nat) : Mach :=
  let m := m.chuSync
  match m.launchOn t with
  | some l => m.launchEnd l (some (stIntegrity, 0))
  | none => m

/-- A double-bit error in a tile's SRAM (R202): the launch ends with UNCORRECTABLE. -/
def tileSramError (m : Mach) (t word : Nat) (double : Bool) : Mach :=
  let h := ((m.launchOn t).map (fun l => l.herd)).getD (m.get F.CHU_TILE_STATUS_HERD 0 t)
  if double then
    let m := m.inc F.CHU_ECC_UNCORRECTED 1 0 t
    let m := match m.launchOn t with
      | some l => m.launchEnd l (some (stUncorrectable, 0))
      | none => m
    m.fault (srcTsram t) kFailed { status := stUncorrectable, unit := srcTsram t, herd := h, addr := word * 8, detail := t }
  else
    (m.inc F.CHU_ECC_CORRECTED 1 0 t).fault (srcTsram t) kCorrected { unit := srcTsram t, herd := h, addr := word * 8, detail := t }

/-- One word of an idle tile is scrubbed (R204): `bits` of it were wrong. -/
def tileScrub (m : Mach) (t bits : Nat) : Mach :=
  if 64 ≤ t ∨ m.bit F.CHU_CTL_SCRUB_EN = false ∨ m.bit F.CHU_TILE_STATUS_BUSY 0 t then m
  else
    let w := (alGet m.chu.scrub t).getD 0
    let m := (m.putChu { m.chu with scrub := alPut m.chu.scrub t ((w + 1) % 131072) })
    if bits = 0 then m else m.tileSramError t w (decide (2 ≤ bits))

/-- A write of CHU_SEED_HI (R194): the seed is set and the counter cleared. -/
def seedWrite (m : Mach) (t lo hi : Nat) : Mach := (m.set64 F.CHU_SEED_LO (lo + hi * 2 ^ 32) 0 t).set F.CHU_LAUNCH_CTR_L 0 0 t

/-- Whether a TILE reservation of the ACTIVE plan gives a tile to a herd (14_herds.md R359). -/
def tileOwned (m : Mach) (h t : Nat) : Bool :=
  match m.plan? with
  | some p => p.resvs.any (fun r => r.type == 2 && r.herd == h && getBits r.units t 1 == 1)
  | none => false

end Mach
end Sys2Proof.Machine
end

