-- ==== Sys2Proof/Machine/WinOps.lean ====
section
/-! DEFINITION. Windows and the base of the queue pairs: window entries in their table (06_translation_windows.md R165), the checks of a message
(R167, R168), violations and their reports (14_herds.md R361, R485), and posting to a control connection (11_best_effort_transport.md R289). -/
namespace Sys2Proof.Machine

/-- A window entry (R165): state 0 FREE, 1 OPEN, 2 CLOSING. -/
structure WinEntry where
  version : Nat
  state : Nat
  sched : Bool
  r : Bool
  w : Bool
  atomic : Bool
  gen : Nat
  ownerHerd : Nat
  ownerAsid : Nat
  peer : Nat
  base : Nat
  limit : Nat
  rev : Nat
  deriving DecidableEq, Repr

/-- A window entry from its 32 bytes. -/
def winOf (b : List Byte) : WinEntry :=
  let w0 := leAt b 0 4
  { version := getBits w0 0 4, state := getBits w0 4 2, sched := getBits w0 6 1 == 1, r := getBits w0 7 1 == 1, w := getBits w0 8 1 == 1
    atomic := getBits w0 9 1 == 1, gen := getBits w0 16 16, ownerHerd := leAt b 4 1, ownerAsid := leAt b 5 1, peer := leAt b 6 2
    base := leAt b 8 8, limit := leAt b 16 8, rev := leAt b 24 8 }

/-- The 32 bytes of a window entry. -/
def winBytes (x : WinEntry) : List Byte :=
  leBytes 4 (x.version + x.state * 16 + x.sched.toNat * 64 + x.r.toNat * 128 + x.w.toNat * 256 + x.atomic.toNat * 512 + x.gen * 65536) ++
  leBytes 4 (x.ownerHerd + x.ownerAsid * 256 + x.peer * 65536) ++ leBytes 8 x.base ++ leBytes 8 x.limit ++ leBytes 8 x.rev

/-- First doorbell window (R169). -/
def doorbellBase : Nat := 0xFFF00

/-- The queue pair number of the control connection to a module (11_best_effort_transport.md R289): QPN 0x02_0000 + m is 0x01_0000 + q for it. -/
def ctlQp (mod : Nat) : Nat := 65536 + mod

/-- Who sends through a channel (R155): the herd of the receiving channel, the source module if it is of this polder, and how a report
names the channel at the writer: 1 lode or 2 queue pair, and its number; 0 an accelerator of this module (12_ports_mac.md R321). -/
structure Chan where
  herd : Nat
  src : Option Nat
  kind : Nat
  number : Nat

/-- A window check that passed: the context and pieces of the range, and the message's arrival number. -/
structure WinOk where
  herd : Nat
  asid : Nat
  arrival : Nat
  segs : List Seg

/-- The Chaennis header's common word of a control payload, with 28 reserved bytes (14_herds.md R485, 04_lodes_ordering.md R115). -/
def ctlHeader (type dst : Nat) : List Byte := leBytes 4 (1 + type * 16 + dst * 65536) ++ List.replicate 28 0

/-- DETAIL of a status that a window check gives: window and refusing module (05_queues_descriptors.md R145). -/
def winDetail (w mod : Nat) : Nat := w + mod * 2 ^ 32

/-- A queue pair that has carried nothing. -/
def freshQp : Qp :=
  { msgs := [], sent := [], psn := 0, msn := 0, resend := [], srtt := 0, rttvar := 0, acked := 0, ceAcked := 0, cnps := 0, low := none, lows := [],
    newest := none, turn := 0, pacer := 0, tag := none, counter := 0, heard := 0, restart := false, expect := 0, above := [], unacked := 0,
    ackSince := none, txEcho := 0, ceSince := 0, rx := [], rxMsn := 0, results := [], replies := [], bufs := [], cnpAt := none, rateAt := 0,
    sampleAt := 0, queuedSince := 0 }

/-- A message with nothing in it. -/
def blankMsg : QpMsg :=
  { msn := 0, kind := .send, sq := none, va := 0, asid := 0, len := 0, segs := none, data := [], window := 0, woffset := 0, flag := none,
    imm := none, atomicOp := 0, operand := 0, compare := 0, cut := 0, wholly := false, firstPsn := 0, lastPsn := 0, part := 0, got := [],
    result := none, rnr := 0, rnrAt := none, mirror := none }

namespace Mach

/-- A queue pair beyond its registers. -/
def qp (m : Mach) (q : Nat) : Qp := (alGet m.beq.qps q).getD freshQp

/-- Sets a queue pair. -/
def setQp (m : Mach) (q : Nat) (x : Qp) : Mach := (m.putBeq { m.beq with qps := alPut m.beq.qps q x })

/-- Posts a message to a queue pair. -/
def qpPost (m : Mach) (q : Nat) (x : QpMsg) : Mach :=
  let p := m.qp q
  let since := if p.msgs.isEmpty then m.now else p.queuedSince
  m.setQp q { p with msgs := p.msgs ++ [x], queuedSince := since }

/-- Posts a payload to the control connection to a module, created at first use (R289). -/
def ctlPost (m : Mach) (mod : Nat) (payload : List Byte) : Mach :=
  m.qpPost (ctlQp mod) { blankMsg with kind := .control, len := payload.length, data := payload, segs := some [] }

/-- Address of a window's entry in the window table. -/
def winAddr (m : Mach) (w : Nat) : Nat := m.get64 F.WIN_TABLE_LO + 32 * w

/-- Entry of a window. -/
def win (m : Mach) (w : Nat) : WinEntry := winOf (m.rdBytes .peat (m.winAddr w) 32)

/-- Sets the entry of a window. -/
def setWin (m : Mach) (w : Nat) (x : WinEntry) : Mach := m.wrBytes .peat (m.winAddr w) (winBytes x)

/-- A violation (14_herds.md R361): fault record, ACCESS_VIOLATION to the owner and the steward, and a report to a writer in this polder. -/
def violation (m : Mach) (ch : Chan) (owner w acc status va : Nat) : Mach :=
  let m := m.fault srcWin kFailed { access := acc, status := status, unit := 0x1FF, herd := ch.herd, addr := va, detail := w }
  let m := m.raise 0x0501 srcWin owner [owner, 0] w (ch.src.getD 0xFFFF)
  -- an access of this module's own accelerators has no channel that a report could name
  match (if ch.kind = 0 then none else ch.src) with
  | none => m
  | some mod =>
    m.ctlPost mod (ctlHeader 8 mod ++
      leBytes 4 (1 + ch.kind * 256 + acc * 4096 + status * 65536) ++ leBytes 4 ch.number ++ leBytes 4 w ++ leBytes 4 0 ++
      leBytes 8 va ++ leBytes 8 m.polder.toNat)

/-- Herd that owns a window: a doorbell window's herd, or the entry's (R169). -/
def winOwner (x : WinEntry) (w : Nat) : Nat := if doorbellBase ≤ w then w - doorbellBase else x.ownerHerd

/-- A message's number: the one it was admitted with, or the next arrival (R167). -/
def winArrive (m : Mach) (arrival : Option Nat) : Mach × Nat :=
  match arrival with
  | some a => (m, a)
  | none => (m.set64 F.WIN_ARRIVAL_LO (m.get64 F.WIN_ARRIVAL_LO + 1), m.get64 F.WIN_ARRIVAL_LO + 1)

/-- A message refused for the context of its channel or for the bounds or rights of the window, with the violation (R361). -/
def winContext (m : Mach) (ch : Chan) (owner w acc va : Nat) : Mach := (m.inc F.WIN_REFUSE_CONTEXT).violation ch owner w acc stContext va
def winBounds (m : Mach) (ch : Chan) (owner w acc va : Nat) : Mach := (m.inc F.WIN_REFUSE_BOUNDS).violation ch owner w acc stBounds va

/-- Whether an access lies outside the limit of a window or its rights. -/
def winOutside (x : WinEntry) (off len acc : Nat) (sched : Bool) : Bool :=
  decide (x.limit < off + len) || (acc == accRead && !x.r) || (acc == accWrite && !x.w) || (acc == accAtomic && !x.atomic) || (sched && !x.sched)

/-- The range of a window, translated and checked under its owner's context (R168). -/
def winTile (m : Mach) (ch : Chan) (x : WinEntry) (w acc va len n : Nat) : Mach × Except Nat WinOk :=
  match m.tile x.ownerHerd x.ownerAsid acc srcWin va len with
  | (m, .ok segs) => (m, .ok { herd := x.ownerHerd, asid := x.ownerAsid, arrival := n, segs := segs })
  | (m, .error (st, a)) => (if st = stContext then m.winContext ch x.ownerHerd w acc a else m, .error st)

/-- The window checks of a message (R167) over `len` bytes from the offset in `woff`, for an access. `arrival` is the message's number if it
is already admitted. Doorbell windows are for reads and writes of a herd page, which have their own operation (14_herds.md R357). -/
def windowCheck (m : Mach) (ch : Chan) (w woff len acc : Nat) (sched : Bool) (arrival : Option Nat) : Mach × Except Nat WinOk :=
  let x := m.win w
  if 2 ^ 20 ≤ w ∨ x.state = 0 then (m.inc F.WIN_REFUSE_CLOSED, .error stClosed)
  else
    match m.winArrive arrival with
    | (m, n) =>
      let va := x.base + woff % 2 ^ 48
      if woff / 2 ^ 48 ≠ x.gen ∨ (x.state = 2 ∧ x.rev < n) then (m.inc F.WIN_REFUSE_CLOSED, .error stClosed)
      else if winOwner x w ≠ ch.herd ∨ ¬ (x.peer = 0xFFFF ∨ ch.src = some x.peer) then (m.winContext ch (winOwner x w) w acc va, .error stContext)
      else if winOutside x (woff % 2 ^ 48) len acc sched then (m.winBounds ch (winOwner x w) w acc va, .error stBounds)
      else if doorbellBase ≤ w then (m, .ok { herd := w - doorbellBase, asid := 0, arrival := n, segs := [] })
      else m.winTile ch x w acc va len n

/-- Number of windows in CLOSING, kept in WIN_STATUS. -/
def closingCount (m : Mach) : Mach := m.set F.WIN_STATUS_CLOSING (min 0xFFFF m.winCloses.length)

/-- Closes an OPEN window (R171): CLOSING, with the arrival sequence as it stands. -/
def closeWin (m : Mach) (w : Nat) (via : Option Via) (steward : Bool) : Mach :=
  let x := m.win w
  let m := m.setWin w { x with state := 2, rev := m.get64 F.WIN_ARRIVAL_LO }
  let c : WinClose := { window := w, since := m.now, via := via, steward := steward }
  let m : Mach := (m.putWinCloses (m.winCloses ++ [c]))
  m.closingCount

end Mach
end Sys2Proof.Machine
end

