-- ==== Sys2Proof/Machine/KeyOps.lean ====
section
/-! DEFINITION. Key pages in use (15_cipher.md R373 to R384): counting frames under a key, and the key of an arriving frame. -/
namespace Sys2Proof.Machine
namespace Mach

/-- One frame is encrypted under a WIRE page's current key (R384): at the switch point the next key takes over, or the page is HELD. -/
def wireCount (m : Mach) (p : Nat) : Mach :=
  let m := m.inc64 F.CIPH_PAGE_USED_LO 1 0 p
  let u := m.get64 F.CIPH_PAGE_USED_LO 0 p
  let own := m.get F.CIPH_PAGE_STATUS_HERD 0 p
  if u < 2 ^ m.get F.CIPH_PAGE_LIMIT_LIMIT_LOG2 0 p - 2 ^ 20 then m
  else if m.keyState p = 3 then m.keySwitch p
  else if m.keyState p = 2 ∧ m.bit F.CIPH_PAGE_STATUS_HELD 0 p = false then
    (m.set F.CIPH_PAGE_STATUS_HELD 1 0 p).raise 0x0A02 0x1FF own [own] p u
  else m

/-- Whether a page serves new frames: it has a current key and is not HELD (R384). -/
def keyOpen (m : Mach) (p : Nat) : Bool := decide (2 ≤ m.keyState p) && !m.bit F.CIPH_PAGE_STATUS_HELD 0 p

/-- The cipher header of a frame that a channel encrypts (R373). -/
def cipherHdr (m : Mach) (p kind channel counter : Nat) : CipherHdr :=
  { srcModule := m.get F.RTE_MODULE_MODULE, kind := kind, channel := channel, epoch := m.get F.CIPH_PAGE_STATUS_EPOCH 0 p % 16,
    counter := counter, tagOk := true }

/-- Decrypts an arriving frame (R376, R383): whether some key of the page matches its EPOCH and its tag holds. A frame that authenticates under
the next key of a WIRE page switches keys (R382). -/
def openFrame (m : Mach) (p : Nat) (c : CipherHdr) : Mach × Bool :=
  let e := m.get F.CIPH_PAGE_STATUS_EPOCH 0 p
  let cur := decide (2 ≤ m.keyState p) && c.epoch == e % 16
  let next := m.keyState p == 3 && c.epoch == (e + 1) % 16
  let prev := m.keyState p == 4 && c.epoch == (e + 15) % 16
  if !cur && !next && !prev then (m.inc F.CIPH_EPOCH_DROP, false)
  else if c.tagOk = false then (m.inc F.CIPH_AUTH_FAIL, false)
  else if next && !cur then (m.keySwitch p, true)
  else (m, true)

end Mach
end Sys2Proof.Machine
end

