-- ==== Sys2Proof/Machine/TimeOps.lean ====
section
/-! DEFINITION. The time function's shared operations (02_polder_time.md R40 to R61): the tree in force, ERR_PS, changes of
state, loss of a parent, and building a time frame. -/
namespace Sys2Proof.Machine

/-- States of the time function (R62, SLU_TIME_STATUS.STATE). -/
def tFree : Nat := 0
def tAcquire : Nat := 1
def tLocked : Nat := 2
def tHoldover : Nat := 3
def tStopped : Nat := 4
def tRoot : Nat := 5

/-- Units in a second of polder time (R40). -/
def secondUnits : Nat := 16000000000

/-- Interval of time frames before a plan is loaded: 1,392,640 ns (R45). -/
def frameInterval : Nat := 1392640 * ns

/-- Denominator of the exact ERR_PS: with times in units, ½ × W × t² of R59 has denominator 2 × (16 × 10⁹)². -/
def errDen : Nat := 2 * secondUnits * secondUnits

namespace Mach

/-- The time tree in force: the plan's while a plan is ACTIVE, else the configuration image's (R43). -/
def tree (m : Mach) : Option TimeRec :=
  match m.plan? with
  | some p => p.tree.head?
  | none => m.tm.tree

/-- State of the time function. -/
def tState (m : Mach) : Nat := m.get F.SLU_TIME_STATUS_STATE

/-- Changes the state; PPS_OUT is low outside LOCKED, HOLDOVER and ROOT (R54). -/
def setTState (m : Mach) (st : Nat) : Mach :=
  let m := m.set F.SLU_TIME_STATUS_STATE st
  if st = 2 ∨ st = 3 ∨ st = 5 then m else (m.putTm { m.tm with ppsOut := false })

/-- What the module knows of its primary (0) or backup (1) parent. -/
def parent (m : Mach) (i : Nat) : ParentSt := if i = 0 then m.tm.parent0 else m.tm.parent1

/-- Sets what the module knows of a parent. -/
def setParent (m : Mach) (i : Nat) (x : ParentSt) : Mach :=
  if i = 0 then (m.putTm { m.tm with parent0 := x }) else (m.putTm { m.tm with parent1 := x })

/-- Port of the link to a parent; under defaults the FABRIC ports that delivered the first frames serve (18_config_firmware.md R436). -/
def parentPort (m : Mach) (i : Nat) : Option Nat :=
  match m.tree with
  | some r => if r.role = 1 then none else if i = 0 then some r.primaryPort else if r.hasBackup then some r.backupPort else none
  | none => (m.parent i).port

/-- The parent now followed. -/
def followed (m : Mach) : Nat := m.get F.SLU_TIME_STATUS_PARENT

/-- ERR_PS exactly, over `errDen` (R59): E₀ + UF × t + ½ × W × t², with the oscillator's coefficients while the module runs on the
frozen oscillator (17_clocks_power_reset.md R410). -/
def errExact (m : Mach) : Nat :=
  match m.tm.errSince with
  | none => m.tm.errBase
  | some t0 =>
    let t := m.now - t0
    let uf := if m.onOscillator then m.get F.CLK_OSC_HOLD_UF else m.get F.SLU_HOLD_COEF_UF
    let w := if m.onOscillator then m.get F.CLK_OSC_HOLD_W else m.get F.SLU_HOLD_COEF_W
    m.tm.errBase + uf * t * (2 * secondUnits) + w * t * t

/-- ERR_PS as registers and frames show it: 0xFFFF in FREE and ACQUIRE, 0 in ROOT, else rounded up and saturating (R59). -/
def errShown (m : Mach) : Nat :=
  if m.tState = tFree ∨ m.tState = tAcquire then 0xFFFF
  else if m.tState = tRoot then 0
  else min 0xFFFF ((m.errExact + errDen - 1) / errDen)

/-- Whether ERR_PS exceeds SLU_HOLD_LIMIT; a limit above 1,200 acts as 1,200 (R60). -/
def errOverLimit (m : Mach) : Bool :=
  decide (min 1200 (m.get F.SLU_HOLD_LIMIT_LIMIT_PS) * errDen < m.errExact)

/-- Sets the estimate to a value, growing since a local time or standing. -/
def setErr (m : Mach) (base : Nat) (since : Option Nat) : Mach :=
  (m.putTm { m.tm with errBase := base, errSince := since })

/-- Clears the counts of consecutive good frames; they start again on entry to ACQUIRE or HOLDOVER (R58). -/
def clearGood (m : Mach) : Mach :=
  (m.putTm { m.tm with parent0 := { m.tm.parent0 with good := 0 }, parent1 := { m.tm.parent1 with good := 0 } })

/-- Enters ACQUIRE, following a parent. -/
def enterAcquire (m : Mach) (i : Nat) : Mach :=
  (((m.setTState tAcquire).set F.SLU_TIME_STATUS_PARENT i).clearGood).setErr 0 none

/-- Enters LOCKED with the estimate and depth of the frame from the followed parent (R59). -/
def enterLocked (m : Mach) : Mach :=
  let x := m.parent m.followed
  let m := (m.setTState tLocked).set F.SLU_TIME_STATUS_DEPTH (x.depth + 1)
  let m := m.setErr (min 0xFFFF (x.errPs + 25) * errDen) none
  (m.putTm { m.tm with lockedParent := m.followed, rootId := x.rootId, atSwitch := none })

/-- Whether a parent has delivered a valid frame in the last three intervals (state table, LOCKED to HOLDOVER). -/
def parentFresh (m : Mach) (i : Nat) : Bool :=
  let x := m.parent i
  (m.parentPort i).isSome && x.valid && decide (m.now ≤ x.lastLocal + 3 * frameInterval + us)

/-- Enters HOLDOVER from LOCKED (state table): TIME_HOLDOVER, E₀ as at the last good frame, and the other parent selected if it
is fresh (R57, R59). -/
def enterHoldover (m : Mach) : Mach :=
  let i := m.followed
  let x := m.parent i
  let m := ((m.setTState tHoldover).setErr m.tm.errBase (some (m.tm.errSince.getD x.lastLocal))).inc F.SLU_HOLD_COUNT_ENTRIES
  let m := m.fault srcTime kCorrected
  let m := m.raise 0x0201 srcTime 0 [0] ((m.parentPort i).getD 0) m.errShown
  let m := if m.parentFresh (1 - i) then m.set F.SLU_TIME_STATUS_PARENT (1 - i) else m
  m.clearGood

/-- Enters STOPPED (R60): TIME_STOPPED to every tenant, the estimate goes on, scheduled service stops. -/
def enterStopped (m : Mach) : Mach :=
  let m := (m.setErr m.tm.errBase (some (m.tm.errSince.getD m.now))).setTState tStopped
  let m := (m.inc F.SLU_HOLD_COUNT_STOPS).fault srcTime kFailed
  let m := m.raise 0x0204 srcTime 0 m.liveHerds 0 m.errShown
  (m.putPlan { m.plan with schedStopped := true })

/-- Enters ROOT (R57). -/
def enterRoot (m : Mach) : Mach :=
  (((m.setTState tRoot).set F.SLU_TIME_STATUS_DEPTH 0).set F.SLU_TIME_STATUS_PARENT 0).setErr 0 none

/-- A parent is lost (R58). -/
def parentLost (m : Mach) (i : Nat) : Mach :=
  let x := m.parent i
  let m := m.setParent i { x with valid := false, good := 0 }
  let other := m.parent (1 - i)
  let otherOk := (m.parentPort (1 - i)).isSome && other.valid
  let standby := (m.tree.map (fun r => r.role == 2)).getD false
  let st := m.tState
  if st = tLocked then
    if standby && !otherOk && i == m.followed then
      (m.enterRoot).raise 0x0203 srcTime 0 [0] 0 0
    else if i = m.followed then m.enterHoldover else m
  else if st = tAcquire ∧ i = m.followed then
    if otherOk then (m.enterAcquire (1 - i)) else (m.setTState tFree).setErr 0 none
  else if st = tHoldover ∧ i = m.followed then
    let m := (m.putTm { m.tm with atSwitch := none })
    if otherOk then (m.set F.SLU_TIME_STATUS_PARENT (1 - i)).clearGood else m
  else m

/-- The loss of a link as a time input (R58). -/
def timeLinkDown (m : Mach) (port : Nat) : Mach :=
  let m := if m.parentPort 0 = some port ∧ m.tm.parent0.valid then m.parentLost 0 else m
  if m.parentPort 1 = some port ∧ m.tm.parent1.valid then m.parentLost 1 else m

/-- The state of a link's stamps and measurement. -/
def ltime (m : Mach) (port : Nat) : LinkTime :=
  (alGet m.tm.links port).getD
    { txSeq := 0, txLast := 0, rxSeq := none, rxLast := 0, measuring := false, done := 0, discarded := 0, sum := 0,
      began := none, prevSample := none, prevRx := 0, asym := 0 }

/-- Sets the state of a link's stamps. -/
def setLtime (m : Mach) (port : Nat) (x : LinkTime) : Mach :=
  (m.putTm { m.tm with links := alPut m.tm.links port x })

/-- Records what leaves the module. -/
def emit (m : Mach) (o : Out) : Mach := (m.putSent (m.sent ++ [o]))

/-- Sends a time frame on a port (R45, R46, R56); its SEQ and transmit time are kept for the next frame. -/
def sendTime (m : Mach) (port : Nat) (twoWay : Bool) : Mach :=
  let x := m.ltime port
  let st := m.tState
  let f : TimeFrame :=
    { root := st == tRoot, anchored := m.bit F.SLU_TIME_STATUS_ANCHORED
      holdover := st == tHoldover || st == tAcquire, stopped := st == tStopped
      stepped := decide (m.tm.stepped ≠ 0) && !twoWay, twoWay := twoWay
      depth := m.get F.SLU_TIME_STATUS_DEPTH
      rootId := if st = tRoot then m.get F.RTE_MODULE_MODULE else m.tm.rootId
      seq := (x.txSeq + 1) % 65536
      txPrev := BitVec.ofNat 64 (x.txLast / 8), rxLast := BitVec.ofNat 64 (x.rxLast / 8)
      txPrevFrac := x.txLast % 8, rxLastFrac := x.rxLast % 8
      errPs := m.errShown, rxSeq := x.rxSeq.getD 0 }
  let m := m.setLtime port { x with txSeq := (x.txSeq + 1) % 65536, txLast := m.polder.toNat * 8 }
  let m := if f.stepped then (m.putTm { m.tm with stepped := m.tm.stepped - 1 }) else m
  let m := (m.inc64 F.PORT_TX_FRAMES_LO 1 port).inc64 F.PORT_TX_BYTES_LO 82 port
  m.emit (.time port f)

/-- A two-way exchange begins on a link (R47). -/
def beginExchange (m : Mach) (port : Nat) : Mach :=
  let m := m.sendTime port true
  m.setLtime port { m.ltime port with began := some m.now }

/-- The measurement of a link's delay begins: 64 exchanges (R47). -/
def beginMeasure (m : Mach) (port : Nat) : Mach :=
  let m := m.setLtime port
    { m.ltime port with measuring := true, done := 0, discarded := 0, sum := 0, prevSample := none }
  m.beginExchange port

/-- The 64 exchanges of a link are complete (R47): the delay is their mean, and a plan's CABLE is compared with it (R48). -/
def endMeasure (m : Mach) (port : Nat) : Mach :=
  let x := m.ltime port
  let delay := (x.sum / 128).toNat
  let m := m.setLtime port { x with measuring := false, began := none }
  let m := (m.set F.SLU_LINK_DELAY_VALID 1 port).set F.SLU_LINK_DELAY_DELAY (min delay 0xFFFFFF) port
  let m := m.set F.SLU_LINK_DELAY_OUT_OF_TOL 0 port
  match m.plan?.bind (fun p => p.link port) with
  | none => m
  | some l =>
    let diff : Int := (delay : Int) - (l.cable * 8 : Nat)
    if diff.natAbs ≤ 64 then m.schedIn port 48
    else
      let m := ((m.set F.SLU_LINK_DELAY_OUT_OF_TOL 1 port).set F.SLU_TIME_STATUS_DELAY_TOL 1).schedOut port 48
      let m := m.fault srcTime kCorrected { detail := port }
      m.raise 0x0206 srcTime 0 [0] port delay

/-- The FREE module that its tree names grand master enters ROOT (R57). -/
def timeStart (m : Mach) : Mach :=
  if m.tState = tFree ∧ (m.tree.map (fun r => r.role == 1)).getD false then m.enterRoot else m

/-- At a plan switch the module takes its new role or parent without a step (R43): `old` is the tree in force before. -/
def timeSwitch (m : Mach) (old : Option TimeRec) : Mach :=
  let st := m.tState
  match m.tree with
  | none => m
  | some r =>
    if r.role = 1 then if st = tLocked ∨ st = tHoldover then m.enterRoot else m
    else
      let oldPort : Option Nat := match old with
        | none => (m.parent m.followed).port
        | some o => if o.role = 1 then none else some (if m.followed = 0 then o.primaryPort else o.backupPort)
      let changed := st == tRoot || (oldPort != some (if m.followed = 0 then r.primaryPort else r.backupPort)) ||
        (m.followed == 1 && !r.hasBackup)
      if (st = tRoot ∨ st = tLocked ∨ st = tHoldover) ∧ changed then
        let e := if st = tRoot then 0 else m.errExact
        let m := ((m.setTState tHoldover).set F.SLU_TIME_STATUS_PARENT 0).setErr e (some m.now)
        let z : ParentSt :=
          { port := some r.primaryPort, valid := true, lastLocal := m.now, lastPolder := m.polder, good := 0
            errPs := 0, depth := 0, holdover := false, rootId := 0 }
        let m := (m.setParent 0 z).setParent 1 { z with port := (if r.hasBackup then some r.backupPort else none), valid := r.hasBackup }
        (m.putTm { m.tm with atSwitch := some 0 })
      else m

end Mach
end Sys2Proof.Machine
end

