-- ==== Sys2Proof/Machine/PortBase.lean ====
section
/-! DEFINITION. Counting frames on ports (12_ports_mac.md R317, R319, R332) and the bytes of frames (R315). -/
namespace Sys2Proof.Machine

/-- Bytes of a Chaennis frame from destination address through FCS: 14 of Ethernet header, 32 of Chaennis header, the payload, 4 of FCS,
and 32 more for cipher header and tag (R315, 15_cipher.md R372). -/
def chaennisBytes (payload : Nat) (enc : Bool) : Nat := max 64 (14 + 32 + payload + 4 + if enc then 32 else 0)

/-- Payload bytes of a chunk frame: each piece behind its 16-byte header, padded to 16 (09_collectives.md R244). -/
def chunkPayload (c : ChunkFrame) : Nat := (c.pieces.map (fun p => 16 + (p.data.length + 15) / 16 * 16)).foldl (· + ·) 0

/-- Bytes of a scheduled frame. -/
def schedBytes (f : SchedFrame) : Nat :=
  match f.body with
  | .lode x => chaennisBytes x.payload.length x.cipher.isSome
  | .chunk c => chaennisBytes (chunkPayload c) c.cipher.isSome

/-- Bytes of a RoCEv2 packet over IPv6: Ethernet 14, IPv6 40, UDP 8, BTH 12, a further 16 for RETH, AETH or AtomicETH where present, the
placement extension of 32, payload, ICRC 4, FCS 4, and cipher header and tag. -/
def packetBytes (p : QpPacket) : Nat := max 64 (14 + 40 + 8 + 12 + 16 + 32 + p.payload.length + 4 + 4 + if p.cipher.isSome then 32 else 0)

namespace Mach

/-- Drops a frame for a bad-frame reason (R319). -/
def badFrame (m : Mach) (p r : Nat) : Mach :=
  let k := 0x00100240 + p * 0x4000 + r * 4
  m.setReg k (BitVec.ofNat 32 (min ((m.reg k).toNat + 1) (2 ^ 32 - 1)))

/-- Counts a frame sent on a port. -/
def countTx (m : Mach) (p bytes : Nat) : Mach := (m.inc64 F.PORT_TX_FRAMES_LO 1 p).inc64 F.PORT_TX_BYTES_LO bytes p

/-- Counts a frame accepted on a port. -/
def countRx (m : Mach) (p bytes : Nat) : Mach := (m.inc64 F.PORT_RX_FRAMES_LO 1 p).inc64 F.PORT_RX_BYTES_LO bytes p

/-- Sends a frame of a number of bytes on a port, counted there. -/
def sendOut (m : Mach) (p bytes : Nat) (o : Out) : Mach :=
  match m.cipherDrops o with
  | some c => m.cipherDropped c o
  | none => (m.countTx p bytes).emitOut o

/-- Sends a scheduled frame in a slot. -/
def sendSched (m : Mach) (p : Nat) (f : SchedFrame) : Mach := m.sendOut p (schedBytes f) (.sched p f)

/-- This module's number (RTE_MODULE). -/
def self (m : Mach) : Nat := m.get F.RTE_MODULE_MODULE

end Mach
end Sys2Proof.Machine
end

