-- ==== Sys2Proof/Machine/LodeOps.lean ====
section
/-! DEFINITION. Lodes (04_lodes_ordering.md R99 to R118; 03_sluice_plans.md R76 to R85): posting and accepting frames at the source, placing and
ordering at the destination, flags, atomics and receipts. -/
namespace Sys2Proof.Machine

/-- Payload bytes of a full frame (R100). -/
def frameMax : Nat := 16384

/-- Lode bytes of a message (R100). -/
def lodeBytes (len : Nat) (flag atomic : Bool) : Nat := if atomic then 16 else len + if flag then 24 else 0

/-- Frames of a message (R100). -/
def lodeFrames (len : Nat) (flag atomic : Bool) : Nat := max 1 ((lodeBytes len flag atomic + frameMax - 1) / frameMax)

/-- The 24-byte flag trailer (R102). -/
def trailer (f : Nat × Nat × Nat) : List Byte := leBytes 4 f.1 ++ leBytes 4 0 ++ leBytes 8 f.2.1 ++ leBytes 8 f.2.2

/-- Result of a lode atomic: 1 ADD, 2 OR, 3 AND, 4 XOR, 5 UMAX, 6 UMIN (R102). -/
def atomicOp (op : Nat) (old operand : DWord) : DWord :=
  if op = 1 then old + operand
  else if op = 2 then old ||| operand
  else if op = 3 then old &&& operand
  else if op = 4 then old ^^^ operand
  else if op = 5 then (if old.toNat < operand.toNat then operand else old)
  else if op = 6 then (if old.toNat < operand.toNat then old else operand)
  else old

/-- SEQ arithmetic wraps modulo 2³² (R101): distance from one SEQ up to another, and whether the second lies at or ahead of the first. -/
def seqDist (a b : Nat) : Nat := (b + 2 ^ 32 - a % 2 ^ 32) % 2 ^ 32
def seqLe (a b : Nat) : Bool := decide (seqDist a b < 2 ^ 31)
def seqNext (a : Nat) : Nat := (a + 1) % 2 ^ 32

/-- An endpoint that has carried nothing. -/
def freshTx : LodeTx := { seq := 0, queue := [], frames := [], awaited := [], lastSlot := none, counter := 0 }
def freshRx : LodeRx :=
  { lowest := 0, placed := [], lost := [], held := [], msgs := [], broken := none, lastArrival := 0, run := (0, 0), uncovered := none,
    top := (none, none), badCopy := [] }

namespace Mach

def ltx (m : Mach) (l : Nat) : LodeTx := (alGet m.lode.tx l).getD freshTx
def setLtx (m : Mach) (l : Nat) (x : LodeTx) : Mach := (m.putLode { m.lode with tx := alPut m.lode.tx l x })
def lrx (m : Mach) (l : Nat) : LodeRx := (alGet m.lode.rx l).getD freshRx
def setLrx (m : Mach) (l : Nat) (x : LodeRx) : Mach := (m.putLode { m.lode with rx := alPut m.lode.rx l x })

/-- Outgoing record of a lode in the active plan. -/
def outRec (m : Mach) (l : Nat) : Option LodeOut := m.plan?.bind (fun p => p.out l)

/-- Incoming record of a lode in the active or retiring plan (R103). -/
def inRec (m : Mach) (l : Nat) : Option LodeIn := m.livePlans.findSome? (fun p => p.inc l)

/-! ## The source -/

/-- Whether a lode descriptor names an endpoint owned by another herd (R140). -/
def lodeForeign (m : Mach) (k : Nat) (d : Desc) : Bool :=
  match m.outRec d.target with
  | some r => r.herd != m.sqHerd k
  | none => false

/-- Check 6 and the queueing of a lode descriptor (R23, R78, R94, R123, R139): the plan and the lode, the lode capacity, the source range
(06_translation_windows.md R161), then the message joins the lode's queue. -/
def lodePost (m : Mach) (k : Nat) (d : Desc) (u : Nat) (atomic : Bool) : Mach :=
  match m.outRec d.target with
  | none => m.complete k u stPlanAbsent 0 0
  | some r =>
    let len := if atomic then 0 else d.length
    let cap := r.slots * frameMax
    if cap < lodeBytes len d.flag atomic then m.complete k u stBudget 0 cap
    else
      let src := if atomic ∨ len = 0 then (m, .ok []) else m.tile (m.sqHerd k) d.asid accRead srcQe (d.bits 2 0 64) len
      match src with
      | (m, .error (st, a)) => m.complete k u st 0 a
      | (m, .ok segs) =>
        let x := m.ltx d.target
        m.setLtx d.target { x with
          queue := x.queue ++ [{ sq := k, uid := u, segs := segs, len := len, window := d.bits 3 0 32, woffset := d.bits 4 0 64
                                 flag := if d.flag then some (d.bits 5 0 32, d.bits 6 0 64, d.bits 7 0 64) else none
                                 atomic := if atomic then some (d.bits 2 0 8, d.bits 5 0 64) else none
                                 resync := d.resync, done := 0, firstSeq := 0 }] }

/-- The lode's next primary slot that has not opened and lies behind the last one assigned, slack tides excepted; for a covered lode the next pair
of which neither slot has opened (R79, R82). -/
def nextSlot (m : Mach) (p : Plan) (r : LodeOut) (last : Option Nat) : Option (Nat × Option Nat) :=
  let k0 := max ((p.tideAt m.polder).getD 0) ((last.map (fun n => n / p.tideLen)).getD 0)
  let k0 := if (p.tideAt m.polder).isNone then 0 else k0 - 1
  let tides := ((List.range 5).map (fun i => k0 + i)).filter (fun k => !p.isSlack k)
  let notOpen := fun (port n : Nat) => decide (0 < timeDiff (p.opening port n) m.polder)
  let fits := fun (k i : Nat) =>
    let n := k * p.tideLen + nthD r.slotList i 0
    let sh := if r.covered then some (k * p.tideLen + nthD r.shadowList i 0) else none
    let later := match last with | some l => decide (l < n) | none => true
    if later && notOpen r.port n && (match sh with | some s => notOpen r.shadowPort s | none => true) then some (n, sh) else none
  tides.findSome? (fun k => (List.range r.slotList.length).findSome? (fun i => fits k i))

/-- LODE_FRAME_ACCEPT (R79, R81, R101): the next frame of the lode's oldest message is complete and takes the next slot. -/
def frameAccept (m : Mach) (l : Nat) : Mach :=
  match m.plan?, m.outRec l, (m.ltx l).queue with
  | some p, some r, g :: rest =>
    let x := m.ltx l
    let last := match x.lastSlot with | some (e, n) => if e = p.epoch then some n else none | none => none
    let held := r.encrypted && !m.keyOpen r.keyPage
    match m.nextSlot p r last with
    | none => m
    | some (n, sh) =>
      if held then m
      else
        let i := g.done
        let cnt := lodeFrames g.len g.flag.isSome g.atomic.isSome
        let isLast := i + 1 == cnt
        let off := i * frameMax
        let (m, data) := m.readSegs (subSegs g.segs off (min frameMax (g.len - off)))
        let payload := match g.atomic with
          | some (op, v) => leBytes 4 op ++ leBytes 4 0 ++ leBytes 8 v
          | none => data ++ (match g.flag with | some f => if isLast then trailer f else [] | none => [])
        let cipher := if r.encrypted then some (m.cipherHdr r.keyPage 0 l x.counter) else none
        let f : LodeFrame :=
          { first := i == 0, last := isLast, flag := isLast && g.flag.isSome, atomic := g.atomic.isSome, resync := i == 0 && g.resync
            dstLode := r.dstLode, seq := x.seq, frameIdx := i, msgLen := g.len, window := g.window, woffset := g.woffset + off
            payload := payload, cipher := cipher }
        let a : AccFrame := { epoch := p.epoch, slot := n, shadowSlot := sh, sent := false, shadowSent := sh.isNone, frame := f }
        let first := if i = 0 then x.seq else g.firstSeq
        let deadline := p.opening r.port n + BitVec.ofNat 64 (slotUnits + r.latency)
        let x := { x with seq := seqNext x.seq, frames := x.frames ++ [a], lastSlot := some (p.epoch, n), counter := x.counter + 1 }
        let x := if isLast then
            { x with
              queue := rest
              awaited := x.awaited ++ [{ sq := g.sq, uid := g.uid, bytes := g.len, window := if g.len = 0 then (g.flag.map (·.1)).getD g.window else g.window, firstSeq := first, lastSeq := f.seq, deadline := deadline, lease := m.lease }] }
          else { x with queue := { g with done := i + 1, firstSeq := first } :: rest }
        let m := m.setLtx l x
        if r.encrypted then m.wireCount r.keyPage else m
  | _, _, _ => m

/-- The completion of a lode descriptor whose frames were accepted: DEADLINE 1 and the deadline as its time (R116, R145). -/
def lodeComplete (m : Mach) (l : Nat) (w : Awaited) (status detail : Nat) : Mach :=
  let x := m.ltx l
  let m := m.setLtx l { x with awaited := x.awaited.filter (fun y => y.uid != w.uid) }
  m.finish w.sq w.uid { status := status, bytes := w.bytes, deadline := true, time := w.deadline.toNat, detail := detail }

/-- LODE_DEADLINE_TIMEOUT (01_architecture.md R28): a descriptor on a lode that has lost every path completes at its deadline. -/
def deadlineTimeout (m : Mach) (l : Nat) : Mach :=
  match m.outRec l, (m.ltx l).awaited with
  | some r, w :: _ => if m.lodeHasPath r = false ∧ reached m.polder w.deadline then m.lodeComplete l w stRemoteTimeout 0 else m
  | _, _ => m

/-- RECEIPT_TIMEOUT (R116): the deadline plus this module's lease period. -/
def receiptTimeout (m : Mach) (l : Nat) : Mach :=
  match (m.ltx l).awaited with
  | w :: _ => if reached m.polder (w.deadline + BitVec.ofNat 64 w.lease) then m.lodeComplete l w stRemoteTimeout 0 else m
  | [] => m

/-- A receipt completes the descriptors whose messages its span covers (R116); a span that failed completes each message that it touches. For a
status that a window check gives, DETAIL holds the window and the refusing module (R145); UNCORRECTABLE may also stand for a lost frame, which has
no such detail and which the receipt does not tell apart. -/
def receiptTake (m : Mach) (src : Nat) (b : List Byte) : Mach :=
  let status := leAt b 1 1
  let l := leAt b 4 4
  let lo := leAt b 8 4
  let hi := leAt b 12 4
  let hit := (m.ltx l).awaited.filter (fun w =>
    if status = stDone then seqLe lo w.firstSeq && seqLe w.lastSeq hi else seqLe lo w.lastSeq && seqLe w.firstSeq hi)
  hit.foldl (fun m w =>
    let (b, m) := m.freshBit
    let named := [stXlate, stContext, stClosed, stBounds, stUnsupported].contains status || (status == stUncorrectable && b)
    m.lodeComplete l w status (if named then winDetail w.window src else 0)) m

/-! ## The destination -/

/-- Message that a SEQ belongs to, by the frame's own index (R102). -/
def rxFind (x : LodeRx) (first : Nat) : Option RxMsg := x.msgs.find? (fun g => g.first == first)

/-- Replaces a message in its list, which stays in SEQ order. -/
def rxPut (x : LodeRx) (g : RxMsg) : LodeRx :=
  if x.msgs.any (fun y => y.first == g.first) then { x with msgs := x.msgs.map (fun y => if y.first == g.first then g else y) }
  else
    { x with msgs := (x.msgs.filter (fun y => seqDist x.lowest y.first < seqDist x.lowest g.first)) ++
        g :: (x.msgs.filter (fun y => !(seqDist x.lowest y.first < seqDist x.lowest g.first))) }

/-- Whether every SEQ of a message is placed. -/
def rxWhole (x : LodeRx) (g : RxMsg) : Bool :=
  match g.last with
  | none => false
  | some l => (List.range (seqDist g.first l + 1)).all (fun i => x.placed.contains ((g.first + i) % 2 ^ 32))

/-- Moves past resolved messages: the lowest SEQ not yet resolved, and SEQs no longer tracked (R104, R106). A message is complete when every
frame of it is placed and none of them is held. -/
def rxAdvance (m : Mach) (l : Nat) : Nat → Mach
  | 0 => m
  | fuel + 1 =>
    let x := m.lrx l
    let upTo := fun (x : LodeRx) (low : Nat) =>
      { x with lowest := low, placed := x.placed.filter (fun s => seqLe low s), lost := x.lost.filter (fun s => seqLe low s) : LodeRx }
    match x.msgs.find? (fun g => seqLe g.first x.lowest && (match g.last with | some e => seqLe x.lowest e | none => true)) with
    | none => m
    | some g =>
      if g.fail.isSome then
        match g.last with
        | some e => (m.setLrx l (upTo x (seqNext e))).rxAdvance l fuel
        | none =>
          if x.placed.contains x.lowest ∨ x.lost.contains x.lowest then (m.setLrx l (upTo x (seqNext x.lowest))).rxAdvance l fuel else m
      else if rxWhole x g && !x.held.any (fun f => (f.seq + 2 ^ 32 - f.frameIdx) % 2 ^ 32 == g.first) then
        let g := { g with resolved := true, when' := m.polder, since := m.now, done := g.flag.isNone && g.atomic.isNone }
        (m.setLrx l (upTo (rxPut x g) (seqNext (g.last.getD g.first)))).rxAdvance l fuel
      else m

/-- A message of which nothing is known but the SEQ of its first frame. -/
def newRx (m : Mach) (first : Nat) : RxMsg :=
  { first := first, last := none, len := 0, arrival := 0, window := 0, base := 0, herd := 0, asid := 0, segs := [], flag := none,
    atomic := none, fail := none, resolved := false, done := false, reported := false, rxDone := false, when' := m.polder,
    since := m.now }

/-- A message fails (R106, R118): it is resolved, counted, and the endpoint is broken from it on; the first failure is raised. -/
def rxFail (m : Mach) (l : Nat) (rec : LodeIn) (first status seq : Nat) : Mach :=
  let x := m.lrx l
  let g : RxMsg := (rxFind x first).getD (m.newRx first)
  let m := if g.fail.isSome then m else m.inc F.SLU_LODE_REFUSED
  let g := if g.fail.isSome then g else { g with fail := some status, resolved := true, done := true, when' := m.polder, since := m.now }
  let x := rxPut x g
  let x := { x with held := x.held.filter (fun f => (f.seq + 2 ^ 32 - f.frameIdx) % 2 ^ 32 != first) }
  match x.broken with
  | some _ => m.setLrx l x
  | none => (m.setLrx l { x with broken := some (status, first) }).raise 0x0401 0x1FF rec.herd [rec.herd] l (status + seq * 2 ^ 32)

/-- Hands the bytes of a placed frame to the serving memory (R107). -/
def handFrame (m : Mach) (l : Nat) (g : RxMsg) (f : LodeFrame) : Mach :=
  let n := f.payload.length - if f.flag then 24 else if f.atomic then 16 else 0
  let off := f.woffset % 2 ^ 48 - g.base
  m.writeSegs g.herd g.asid 1 l g.first true (subSegs g.segs off n) (f.payload.take n)

/-- Whether every message ahead of one is resolved (R107): the lowest unresolved SEQ has come to it. -/
def rxTurn (x : LodeRx) (first : Nat) : Bool := seqLe first x.lowest

/-- Takes the trailer or atomic of a frame and checks it against its own window (R110, R168): the message's flag or atomic, or the failure. -/
def takeTail (m : Mach) (ch : Chan) (g : RxMsg) (f : LodeFrame) : Mach × Except Nat RxMsg :=
  if f.atomic then
    let op := leAt f.payload 0 1
    let v := leAt f.payload 8 8
    match g.segs.head? with
    | some s => if s.target = 0 then (m, .ok { g with atomic := some (s.addr, op, v) }) else (m, .error stUnsupported)
    | none => (m, .error stUnsupported)
  else if f.flag then
    let t := f.payload.drop (f.payload.length - 24)
    let w := leAt t 0 4
    match m.windowCheck ch w (leAt t 8 8) 8 accWrite true (some g.arrival) with
    | (m, .error st) => (m, .error st)
    | (m, .ok k) => (m, .ok { g with flag := some (k.segs, leAt t 16 8, k.herd, k.asid) })
  else (m, .ok g)

/-- The path counts of a covered lode (R85): a path that delivered none of the 16 most recent frames of the other is reported. -/
def coverCount (m : Mach) (l : Nat) (rec : LodeIn) (shadow : Bool) : Mach :=
  if rec.covered = false then m
  else
    let x := m.lrx l
    let run := if shadow then (0, x.run.2 + 1) else (x.run.1 + 1, 0)
    let silent := if shadow then 0 else 1
    let n := if shadow then run.2 else run.1
    let back := match x.uncovered with | some s => decide (s ≠ silent) | none => false
    let m := m.setLrx l { x with run := run, uncovered := if back then none else x.uncovered }
    if n = 16 ∧ (m.lrx l).uncovered.isNone then
      (m.setLrx l { m.lrx l with uncovered := some silent }).raise 0x0400 0x1FF rec.herd [rec.herd, 0] l silent
    else m

/-- Declares the frame at the lowest unplaced SEQ lost while a condition of R105 holds for it (`lease` for the fourth). -/
def lossScan (m : Mach) (l : Nat) (rec : LodeIn) (lease : Bool) : Nat → Mach
  | 0 => m
  | fuel + 1 =>
    let x := m.lrx l
    let s? := ((List.range 64).map (fun i => (x.lowest + i) % 2 ^ 32)).find? (fun s => !x.placed.contains s && !x.lost.contains s)
    match s? with
    | none => m
    | some s =>
      let ahead := fun (t : Option Nat) => match t with | some v => decide (v ≠ s) && seqLe s v | none => false
      let any := ahead x.top.1 || ahead x.top.2
      let gone := if rec.covered then
          any && (ahead x.top.1 || x.uncovered == some 0) && (ahead x.top.2 || x.uncovered == some 1)
        else any
      let far := (match x.top.1 with | some v => decide (64 ≤ seqDist s v) && seqLe s v | none => false) ||
        (match x.top.2 with | some v => decide (64 ≤ seqDist s v) && seqLe s v | none => false)
      if gone || far || lease then
        let m := m.inc F.SLU_LODE_LOST
        let m := m.setLrx l { x with lost := s :: x.lost }
        -- the message it belongs to: one begun and not ended before it, else one of its own
        let owner := (x.msgs.filter (fun g => seqLe g.first s && (match g.last with | none => true | some e => seqLe s e) && !g.resolved)).getLast?
        let first := (owner.map (·.first)).getD s
        let m := m.rxFail l rec first stUncorrectable s
        let x := m.lrx l
        let m := match rxFind x first with
          | some g => if g.last.isNone then m.setLrx l (rxPut x { g with last := some s }) else m
          | none => m
        lossScan (m.rxAdvance l 66) l rec false fuel
      else m

/-- A lode frame at its destination (R103 to R107, R118, R376): unknown endpoint, later copy, authentication, RESYNC, broken endpoint, window check
at the first frame of its message, then placed and handed over in message order or held. -/
def lodeReceive (m : Mach) (f : LodeFrame) (shadow : Bool) : Mach :=
  match m.inRec f.dstLode with
  | none => m.inc F.SLU_LODE_UNKNOWN
  | some rec =>
    let l := f.dstLode
    let x := m.lrx l
    let m := m.setLrx l { x with
      lastArrival := m.now
      top := if shadow then (x.top.1, some f.seq) else (some f.seq, x.top.2) }
    let m := m.coverCount l rec shadow
    let x := m.lrx l
    if x.placed.contains f.seq ∨ x.lost.contains f.seq ∨ seqLe x.lowest f.seq = false then m.inc F.SLU_LODE_DUP
    else
      let (m, auth) := if rec.encrypted then
          (match f.cipher with | some c => m.openFrame rec.keyPage c | none => (m, false))
        else (m, true)
      let first := (f.seq + 2 ^ 32 - f.frameIdx % 2 ^ 32) % 2 ^ 32
      if auth = false then
        -- the other copy may still serve; both copies bad fail the message (R84)
        if rec.covered = false ∨ x.badCopy.contains f.seq then ((m.rxFail l rec first stIntegrity f.seq).rxAdvance l 66)
        else m.setLrx l { m.lrx l with badCopy := f.seq :: (m.lrx l).badCopy }
      else
        let m := if f.resync then m.setLrx l { m.lrx l with broken := none } else m
        let x := m.lrx l
        let ch : Chan := { herd := rec.herd, src := some rec.srcModule, kind := 1, number := rec.srcLode }
        let len := if f.atomic then 8 else f.msgLen
        let last? := if f.last then some f.seq else none
        let base := f.woffset % 2 ^ 48 - f.frameIdx * frameMax
        match x.broken, decide ((x.broken.map (fun b => seqLe b.2 first)).getD false) with
        | some (st, _), true =>
          let m := m.rxFail l rec first st f.seq
          let x := m.lrx l
          let x := match rxFind x first with
            | some g => rxPut x { g with last := if g.last.isSome then g.last else last? }
            | none => x
          (m.setLrx l { x with placed := f.seq :: x.placed }).rxAdvance l 66
        | _, _ =>
          -- the window check over the message's whole range, at its first arriving frame
          let chk : Mach × Except Nat RxMsg := match rxFind x first with
            | some g => (m, .ok g)
            | none =>
              let wacc := if f.atomic then accAtomic else accWrite
              let g0 : RxMsg := { m.newRx first with len := len, window := f.window, base := base }
              let go := fun (m : Mach) (segs : List Seg) (arr h a : Nat) =>
                (m, Except.ok { g0 with segs := segs, arrival := arr, herd := h, asid := a })
              if len = 0 then go m [] 0 rec.herd 0
              else
                match m.windowCheck ch f.window (f.woffset / 2 ^ 48 * 2 ^ 48 + base) len wacc true none with
                | (m, .error st) => (m, .error st)
                | (m, .ok k) => go m k.segs k.arrival k.herd k.asid
          match chk with
          | (m, .error st) =>
            let m := m.rxFail l rec first st f.seq
            let x := m.lrx l
            let x := match rxFind x first with | some g => rxPut x { g with last := last? } | none => x
            (m.setLrx l { x with placed := f.seq :: x.placed }).rxAdvance l 66
          | (m, .ok g) =>
            let g := { g with last := if g.last.isSome then g.last else last? }
            let tail := m.takeTail ch g f
            match tail with
            | (m, .error st) =>
              let m := m.setLrx l (rxPut (m.lrx l) g)
              let m := m.rxFail l rec first st f.seq
              (m.setLrx l { m.lrx l with placed := f.seq :: (m.lrx l).placed }).rxAdvance l 66
            | (m, .ok g) =>
              let x := rxPut (m.lrx l) g
              let m := m.setLrx l { x with placed := f.seq :: x.placed }
              let m := if rxTurn (m.lrx l) first then m.handFrame l g f
                else m.setLrx l { m.lrx l with held := (m.lrx l).held ++ [f] }
              let m := if (m.lrx l).held.contains f then m else m.rxAdvance l 66
              m.lossScan l rec false 64

/-- HELD_FRAME_RELEASE (R107): a held frame whose turn has come is handed over. -/
def heldRelease (m : Mach) (l : Nat) : Mach :=
  let x := m.lrx l
  match x.held.find? (fun f => rxTurn x ((f.seq + 2 ^ 32 - f.frameIdx) % 2 ^ 32)) with
  | none => m
  | some f =>
    let m := m.setLrx l { x with held := x.held.filter (fun y => y.seq != f.seq) }
    match rxFind x ((f.seq + 2 ^ 32 - f.frameIdx) % 2 ^ 32) with
    | none => m
    | some g =>
      let m := if g.fail.isSome then m else m.handFrame l g f
      if (m.lrx l).held.any (fun y => (y.seq + 2 ^ 32 - y.frameIdx) % 2 ^ 32 == g.first) then m else m.rxAdvance l 66

/-- The oldest message that waits to write its flag or perform its atomic, with the conditions of R108: complete, every earlier message resolved,
every byte of it and of earlier messages landed. -/
def flagReady (m : Mach) (l : Nat) : Option RxMsg :=
  let x := m.lrx l
  match x.msgs.find? (fun g => g.resolved && !g.done && g.fail.isNone) with
  | none => none
  | some g =>
    let earlier := x.msgs.takeWhile (fun y => y.first != g.first)
    if earlier.all (fun y => y.resolved) ∧
        m.mem.writes.all (fun w => !(w.kind == 1 && w.chan == l && seqLe w.msg g.first)) then some g else none

/-- LODE_FLAG_WRITE (R108): one aligned 8-byte write. -/
def flagWrite (m : Mach) (l : Nat) : Mach :=
  match m.flagReady l with
  | some g =>
    match g.flag with
    | some (segs, v, h, a) =>
      let m := m.writeSegs h a 1 l g.first true segs (leBytes 8 v)
      m.setLrx l (rxPut (m.lrx l) { g with done := true })
    | none => m
  | none => m

/-- LODE_ATOMIC_PERFORM (R109, R110). -/
def atomicPerform (m : Mach) (l : Nat) : Mach :=
  match m.flagReady l with
  | some g =>
    match g.atomic with
    | some (addr, op, v) =>
      let old := BitVec.ofNat 64 (leNat (m.rdBytes .peat addr 8))
      let va := (g.segs.head?.map (·.va)).getD 0
      let m := (m.dirtyLog g.herd g.asid va 8).peatWrite addr (leBytes 8 (atomicOp op old (BitVec.ofNat 64 v)).toNat) true
      let m := m.handOver 1 l g.first 0 0
      m.setLrx l (rxPut (m.lrx l) { g with done := true })
    | none => m
  | none => m

/-- A message can be reported once its flag or atomic has itself landed (R115). -/
def reportable (m : Mach) (l : Nat) (g : RxMsg) : Bool :=
  g.resolved && g.done && m.mem.writes.all (fun w => !(w.kind == 1 && w.chan == l && w.msg == g.first))

/-- Sends one receipt for the oldest unreported messages of one outcome (R115). -/
def receiptSend (m : Mach) (l : Nat) : Mach :=
  match m.inRec l with
  | none => m
  | some rec =>
    let x := m.lrx l
    match x.msgs.filter (fun g => !g.reported) with
    | [] => m
    | g :: rest =>
      if m.reportable l g = false then m
      else
        let st := g.fail.getD 0
        let span := g :: rest.takeWhile (fun y => m.reportable l y && y.fail.getD 0 == st)
        let upto := (span.getLast?.bind (·.last)).getD g.first
        let m := m.ctlPost rec.srcModule (ctlHeader 3 rec.srcModule ++ leBytes 4 (1 + st * 256) ++ leBytes 4 rec.srcLode ++ leBytes 4 g.first ++ leBytes 4 upto)
        let bound := m.bit F.QE_RX_BIND_ENABLE 0 l
        let marked := x.msgs.map (fun y => if span.any (fun s => s.first == y.first) then { y with reported := true, rxDone := y.rxDone || !bound } else y)
        m.setLrx l { m.lrx l with msgs := marked.filter (fun y => !(y.reported && y.rxDone)) }

/-- RECEIPT_TIMER (R115): resolved messages have stood unreported for 1 µs. -/
def receiptTimer (m : Mach) (l : Nat) : Mach :=
  match (m.lrx l).msgs.find? (fun g => !g.reported) with
  | some g => if g.resolved ∧ g.since + us ≤ m.now then m.receiptSend l else m
  | none => m

/-- RX_COMPLETION_WRITE (R117): one per message, in message order, after the flag has landed. -/
def rxCompletionWrite (m : Mach) (l : Nat) : Mach :=
  let x := m.lrx l
  match x.msgs.find? (fun g => !g.rxDone) with
  | none => m
  | some g =>
    if m.reportable l g = false then m
    else
      let m := m.rxCompletion l { status := g.fail.getD 0, bytes := if g.atomic.isSome then 0 else g.len, deadline := false, time := g.when'.toNat, detail := 0 }
      let x := m.lrx l
      let marked := x.msgs.map (fun y => if y.first == g.first then { y with rxDone := true } else y)
      m.setLrx l { x with msgs := marked.filter (fun y => !(y.reported && y.rxDone)) }

/-! ## Scheduled frames through the module -/

/-- SCHED_FRAME_RECEIVED (03_sluice_plans.md R73): the head is held for the port's PAD. -/
def schedReceived (m : Mach) (p : Nat) (f : SchedFrame) : Mach :=
  if m.get F.PORT_STATUS_STATE p ≠ 3 then m.badFrame p 0xB
  else
    let pl := m.livePlans.find? (fun x => x.epoch == f.epoch)
    let pad := ((pl.bind (fun x => x.link p)).map (·.pad)).getD 0
    let m := if f.tailOk then m.countRx p (schedBytes f) else m.badFrame p 1
    (m.putLode { m.lode with pads := m.lode.pads ++ [{ port := p, at' := m.now + pad, frame := f }] })

/-- A frame whose epoch names no ACTIVE or RETIRING bank (R95). -/
def epochDrop (m : Mach) (p : Nat) : Mach :=
  let n := (alGet m.plan.drops p).getD 0 + 1
  let m := m.inc F.SLU_EPOCH_DROP
  let m := (m.putPlan { m.plan with drops := alPut m.plan.drops p n })
  if n = 16 then
    (((m.fault srcSlu kCorrected { detail := p }).raise 0x0304 srcSlu 0 [0] p n).schedOut p 95)
  else m

/-- SCHED_FRAME_ROUTE (R334, R335): placed here, or matched to the TRANSIT entry of a slot opening 400 ns later, or dropped. -/
def schedRoute (m : Mach) (p : Nat) : Mach :=
  match m.lode.pads.find? (fun x => x.port == p && decide (x.at' ≤ m.now)) with
  | none => m
  | some x =>
    let m := (m.putLode { m.lode with pads := m.lode.pads.erase x })
    match m.livePlans.find? (fun pl => pl.epoch == x.frame.epoch) with
    | none => m.epochDrop p
    | some pl =>
      if x.frame.dstModule = m.self then
        if x.frame.tailOk then (m.putLode { m.lode with here := m.lode.here ++ [x] }) else m
      else
        let due := m.polder + 6400
        let hit := (List.range 32).findSome? (fun q =>
          match pl.rel (due + 44) (pl.phase q) with
          | none => none
          | some r =>
            let n := r / slotUnits
            if (timeDiff (pl.opening q n) due).natAbs ≤ 44 ∧ pl.kindIn q n = (3, p) then some (q, n) else none)
        match hit with
        | some (q, n) =>
          if m.schedUp q then (m.putLode { m.lode with transit := m.lode.transit ++ [(q, { x with at' := n })] })
          else m.inc F.RTE_SCHED_DROP
        | none => m.inc F.RTE_SCHED_DROP

end Mach
end Sys2Proof.Machine
end

