-- ==== Sys2Proof/Machine/RouteOps.lean ====
section
/-! DEFINITION. Best-effort routes, lanes, pauses and port time (13_routing_deadlock.md R336 to R348, 12_ports_mac.md R324 to R326, 01_architecture.md
R22). -/
namespace Sys2Proof.Machine

/-- Rate code of a port in Mb/s (R310). -/
def rateMbps (code : Nat) : Nat := 800000 / 2 ^ code

/-- Class of a best-effort frame (R301): 0 request, 1 dynamic collective, 2 reply, 3 control. -/
def beClass (f : BeFrame) : Nat :=
  match f.body with
  | .chunk _ => 1
  | .packet p =>
    if 0x20000 ≤ p.qpn then 3
    else
      match p.op with
      | .readResp => 2
      | .atomicResp => 2
      | .ack => 2
      | .nak => 2
      | .rnrNak => 2
      | .cnp => 2
      | _ => 0

/-- Class that a PCP names on a FABRIC link, with its virtual channel (R342). -/
def pcpLane (pcp : Nat) : Nat × Nat := if pcp = 7 then (3, 0) else (pcp / 2, pcp % 2)

/-- COUNT, ports and dateline bits of a route entry (R336). -/
def routeCount (w : Nat) : Nat := w % 8
def routePort (w k : Nat) : Nat := w / 2 ^ (8 + 8 * k) % 256
def routeDl (w k : Nat) : Nat := w / 2 ^ (4 + k) % 2

/-- PCP with which a forwarded frame leaves on a FABRIC link (R342). -/
def Held.pcpOut (h : Held) : Nat := if h.cls = 3 then 7 else 2 * h.cls + h.vcOut

namespace Mach

/-- Whether a port is UP. -/
def portUp (m : Mach) (p : Nat) : Bool := decide (p < 32) && m.get F.PORT_STATUS_STATE p == 3

/-! ## Routes -/

/-- The table by which a frame of an epoch is forwarded (R339): 0 the base table, 1 and 2 the banks; none where no row applies. -/
def tableFor (m : Mach) (epoch : Nat) : Option Nat :=
  let hit := [0, 1].find? (fun b => (m.bankState b == 5 || m.bankState b == 6) && (((m.bank b).plan.map (·.epoch)).getD 2 == epoch % 2))
  match hit with
  | some b => some (b + 1)
  | none =>
    if m.active.isNone then some 0
    else
      match m.plan.baseHoldEnd with
      | some e => if reached m.polder e then none else some 0
      | none => none

/-- Route entry of a destination in a table; 0 where it has none (R336). -/
def routeWord (m : Mach) (table dest : Nat) : Nat :=
  if 1024 ≤ dest then 0
  else if table = 0 then m.get64 F.RTE_ENTRY_LO 0 dest
  else ((m.bank (table - 1)).plan.map (fun p => nthD p.routes dest 0)).getD 0

/-- Port of an entry for a PATH, the next in rotation that is UP, with its dateline bit (R337 steps 1 and 2). -/
def routePick (m : Mach) (w path : Nat) : Option (Nat × Nat) :=
  let n := routeCount w
  if n = 0 ∨ 4 < n then none
  else ((List.range n).map (fun i => (path + i) % n)).findSome? (fun k => if m.portUp (routePort w k) then some (routePort w k, routeDl w k) else none)

/-- Port and dateline bit of a frame of this module for a destination module (R337, R339). -/
def originRoute (m : Mach) (dest path : Nat) : Option (Nat × Nat) :=
  (m.tableFor m.epoch).bind (fun t => m.routePick (m.routeWord t dest) path)

/-! ## Peers -/

/-- Words of a queue pair's configuration. -/
def qpCfg (m : Mach) (q w : Nat) : Nat := m.get F.BEQ_QP_CFG w q

/-- Whether a queue pair number is a control connection's (11_best_effort_transport.md R289). -/
def isCtl (q : Nat) : Bool := decide (65536 ≤ q)

/-- Owner of a queue pair: herd 0 for a control connection. -/
def qpHerd (m : Mach) (q : Nat) : Nat := if isCtl q then 0 else getBits (m.qpCfg q 0) 0 8

/-- Whether the peer is named by a peer-table entry, and the entry. -/
def qpPeerTable (m : Mach) (q : Nat) : Bool := !isCtl q && getBits (m.qpCfg q 0) 10 1 == 1
def qpPeer (m : Mach) (q : Nat) : Nat := if isCtl q then q - 65536 else getBits (m.qpCfg q 0) 16 16
def peerWord (m : Mach) (e w : Nat) : Nat := m.get F.BEQ_PEER w (e % 256)

/-- Whether the peer is a module (R291). -/
def qpModulePeer (m : Mach) (q : Nat) : Bool := !m.qpPeerTable q || getBits (m.peerWord (m.qpPeer q) 0) 1 1 == 1

/-- Spray width: 0 acts as 1; control connections use one path. -/
def qpSpray (m : Mach) (q : Nat) : Nat := if isCtl q then 1 else max 1 (min 4 (getBits (m.qpCfg q 3) 24 3))

/-- Whether packets of a queue pair can leave on a port: it is UP, and the cipher engine that an encrypted packet needs is in service (15_cipher.md R369,
R389). -/
def qpPortUp (m : Mach) (q p : Nat) : Bool := m.portUp p && ((m.qpKey q).isNone || !m.bit F.CIPH_ENG_STATUS_FENCED (p % 4))

/-- Port and dateline bit of a path of a queue pair (R300, R333). -/
def qpRoute (m : Mach) (q path : Nat) : Option (Nat × Nat) :=
  if m.qpPeerTable q then
    let w0 := m.peerWord (m.qpPeer q) 0
    let n := max 1 (getBits w0 8 3)
    ((List.range n).map (fun i => (path + i) % n)).findSome? (fun k =>
      let p := getBits (m.peerWord (m.qpPeer q) 1) (8 * k) 8
      if m.qpPortUp q p then some (p, 0) else none)
  else (m.originRoute (m.qpPeer q) path).filter (fun r => m.qpPortUp q r.1)

/-- The port that a path of a queue pair leaves on while it is UP: the path's own port, without rotation (R300). -/
def qpPathUp (m : Mach) (q path : Nat) : Bool :=
  if m.qpPeerTable q then
    let n := max 1 (getBits (m.peerWord (m.qpPeer q) 0) 8 3)
    m.qpPortUp q (getBits (m.peerWord (m.qpPeer q) 1) (8 * (path % n)) 8)
  else
    match m.tableFor m.epoch with
    | none => false
    | some t =>
      let w := m.routeWord t (m.qpPeer q)
      let n := routeCount w
      decide (n ≠ 0) && m.qpPortUp q (routePort w (path % n))

/-- The path of the next packet: round robin over the spray, a path whose port is down is skipped (R300). -/
def qpNextPath (m : Mach) (q : Nat) : Nat :=
  let s := m.qpSpray q
  let x := m.qp q
  (((List.range s).map (fun i => (x.turn + i) % s)).find? (fun k => m.qpPathUp q k)).getD (x.turn % s)

/-! ## Lanes -/

/-- Bytes held for an output port (RTE_P_DEPTH). -/
def depthOf (m : Mach) (p : Nat) : Nat := ((m.rte.held.filter (fun h => h.out == p)).map (fun h => h.frame.bytes)).foldl (· + ·) 0

/-- Bytes in an input port's pools for a class and channel. -/
def laneOf (m : Mach) (p cls vc : Nat) : Nat :=
  ((m.rte.held.filter (fun h => h.inPort == p && h.cls == cls && h.vc == vc)).map (fun h => h.frame.bytes)).foldl (· + ·) 0 +
  ((m.rte.arrived.filter (fun a => a.1 == p && pcpLane a.2.pcp == (cls, vc))).map (fun a => a.2.bytes)).foldl (· + ·) 0

/-- Receive occupancy of a priority in bytes: its lane on a FABRIC port, else its part of the ingress pool (R342, 12_ports_mac.md R325). -/
def prioOf (m : Mach) (p prio : Nat) : Nat :=
  ((m.rte.arrived.filter (fun a => a.1 == p && a.2.pcp == prio)).map (fun a => a.2.bytes)).foldl (· + ·) 0 +
  ((m.rte.held.filter (fun h => h.inPort == p && h.frame.pcp == prio)).map (fun h => h.frame.bytes)).foldl (· + ·) 0

def kib (bytes : Nat) : Nat := (bytes + 1023) / 1024

/-- Keeps the per-port occupancy registers in step (13_routing_deadlock.md, per-port telemetry). -/
def depthSync (m : Mach) (p : Nat) : Mach :=
  let d := kib (m.depthOf p)
  let m := m.set F.RTE_P_DEPTH d p
  let m := if m.get F.RTE_P_DEPTH_HWM p < d then m.set F.RTE_P_DEPTH_HWM d p else m
  let lane := fun (m : Mach) (w : Nat) =>
    let base := 0x00201000 + p * 0x40 + 0x28 + w * 4
    let (hi, lo) := if w = 3 then (m.laneOf p 3 0, ((m.lode.pads.filter (fun x => x.port == p)).map (fun x => schedBytes x.frame)).foldl (· + ·) 0)
      else (m.laneOf p w 0, m.laneOf p w 1)
    m.setReg base (BitVec.ofNat 32 (kib hi % 65536 * 65536 + kib lo % 65536))
  if m.get F.PORT_ROLE_ROLE p = 2 ∨ m.get F.PORT_ROLE_ROLE p = 3 then
    m.setReg (0x00201000 + p * 0x40 + 0x28) (BitVec.ofNat 32 (kib ((List.range 8).map (fun i => m.prioOf p i)).sum % 65536))
  else (List.range 4).foldl lane m

/-! ## Pauses -/

/-- XOFF_KIB and XON_KIB in force for a priority of a port (R344). -/
def xoffKib (m : Mach) (p : Nat) : Nat := min (m.refilled F.PORT_PFC_THRESH_XOFF_KIB p) (m.get F.RTE_POOL_LANE_KIB p - 48)
def xonKib (m : Mach) (p : Nat) : Nat := min (m.refilled F.PORT_PFC_THRESH_XON_KIB p) (m.xoffKib p)

/-- Whether a port sends XOFF for a priority (R325): PFC, or PAUSE, which acts as PFC except on LONG_HAUL ports. -/
def pfcOn (m : Mach) (p prio : Nat) : Bool :=
  let mode := m.refilled F.PORT_FC_MODE p
  decide (prio < 7) && (mode == 1 || mode == 2) && getBits (m.refilled F.PORT_FC_PFC_EN p) prio 1 == 1

/-- XOFF is asserted where the occupancy has reached XOFF_KIB, and ends where it has fallen to XON_KIB (R325); the watchdog mutes it (R326). -/
def xoffSync (m : Mach) (p prio : Nat) : Mach :=
  let x := m.pt p
  let occ := kib (m.prioOf p prio)
  match alGet x.xoff prio with
  | none =>
    let muted := match alGet x.mute prio with | some e => decide (m.now < e) | none => false
    if m.pfcOn p prio ∧ m.xoffKib p ≤ occ ∧ muted = false then
      (m.setPt p { x with xoff := alPut x.xoff prio (m.now, m.now) }).emitOut (.pause p prio 0xFFFF)
    else m
  | some _ =>
    if occ ≤ m.xonKib p then (m.setPt p { x with xoff := alDel x.xoff prio }).emitOut (.pause p prio 0) else m

/-- Whether the partner holds a priority of a port (R324 to R326). -/
def heldBy (m : Mach) (p prio : Nat) : Bool :=
  let x := m.pt p
  decide (prio < 7) && (match alGet x.paused prio with | some e => decide (m.now < e) | none => false) &&
  !(match alGet x.ignore prio with | some e => decide (m.now < e) | none => false)

/-! ## Port time -/

/-- Time on the line of a frame with preamble and gap (20 bytes), in units, rounded up. -/
def lineUnits (m : Mach) (p bytes : Nat) : Nat :=
  let r := rateMbps (m.get F.PORT_STATUS_RATE p)
  ((bytes + 20) * 128000 + r - 1) / r

/-- Whether a best-effort frame that begins now leaves every slot of a plan to its owner (R22): a slot whose owner has sent is not free, an unused one
is free to its end, and the frame ends before the next slot that is not FREE. -/
def freeUnder (m : Mach) (pl : Plan) (p units : Nat) : Bool :=
  match pl.absSlot m.polder p with
  | none => true
  | some n =>
    let stop := m.polder + BitVec.ofNat 64 units
    let next := pl.opening p (n + 1)
    let cur := pl.kindIn p n
    let done := (m.plan.lastSlot.find? (fun x => x.1 == p)).any (fun x => x.2 == pl.opening p n)
    if cur.1 ≠ 0 then !done && reached next stop
    else (List.range 20).all (fun i => (pl.kindIn p (n + 1 + i)).1 == 0 || reached (pl.opening p (n + 1 + i)) stop)

/-- Whether port time is free for a best-effort frame of a length (R22). -/
def freeTime (m : Mach) (p bytes : Nat) : Bool :=
  decide ((m.pt p).busyUntil ≤ m.now) && m.livePlans.all (fun pl => m.freeUnder pl p (m.lineUnits p bytes))

/-- Sends a best-effort frame: marked CE where the egress queue is deep (R348), counted, the line occupied for its length. -/
def sendBe (m : Mach) (p : Nat) (f : BeFrame) : Mach :=
  let mark := f.ect && decide (m.get F.RTE_ECN_THRESH_KIB * 1024 < m.depthOf p)
  let f := match f.body with
    | .packet k => if mark then { f with body := .packet { k with ce := true } } else f
    | .chunk _ => f
  let m := if mark then m.inc F.RTE_P_CE 1 p else m
  let m := m.setPt p { m.pt p with busyUntil := m.now + m.lineUnits p f.bytes }
  m.sendOut p f.bytes (.be p f)

/-- Charged length of a frame (R304). -/
def charged (m : Mach) (p bytes : Nat) : Nat := bytes + m.refilled F.BEQ_PORT_SCHED_OVERHEAD p

/-- A frame in a forwarded lane of an input port leaves on its output port. -/
def forwardHeld (m : Mach) (h : Held) : Mach :=
  let m := (m.putRte { m.rte with held := m.rte.held.erase h })
  let m := ((m.inc64 F.RTE_P_FWD_FRAMES_LO 1 h.out).inc64 F.RTE_P_FWD_BYTES_LO h.frame.bytes h.out)
  let m := m.sendBe h.out { h.frame with pcp := h.pcpOut }
  ((m.depthSync h.out).depthSync h.inPort).xoffSync h.inPort h.frame.pcp

end Mach
end Sys2Proof.Machine
end

