-- ==== Sys2Proof/Machine/CollOps.lean ====
section
/-! DEFINITION. Collective groups (09_collectives.md R235 to R262): starts, the ring, provisional results, seal, revocation and abort. -/
namespace Sys2Proof.Machine

/-- COLL_OP codes (R239). -/
def opAllReduce : Nat := 1
def opReduceScatter : Nat := 2
def opAllGather : Nat := 3
def opBroadcast : Nat := 4
def opLowrank : Nat := 0x10
def opAdam : Nat := 0x11
def opRerun : Nat := 0x7F

/-- Tokens (R244). -/
def tokConfirm : Nat := 1
def tokSealed : Nat := 2
def tokRevoke : Nat := 3
def tokAbort : Nat := 4

/-- Whether an operation reduces, and whether its final segments go round (R243). -/
def reduces (op : Nat) : Bool := op == 1 || op == 2 || op == 0x10 || op == 0x11
def gathers (op : Nat) : Bool := op == 1 || op == 3 || op == 0x10

/-- Elements of segment i, and the elements before it (R242). -/
def segElems (e n i : Nat) : Nat := e / n + if i < e % n then 1 else 0
def segStart (e n i : Nat) : Nat := i * (e / n) + min i (e % n)

/-- Bytes of an element in a format that no block scale is kept for. -/
def elemBytes (d : Nat) : Nat := max 1 (fmtBits d / 8)

/-- Whether WIRE is allowed for DTYPE (R240). -/
def wireOk (dtype wire : Nat) : Bool := if dtype = 0 then wire == 0 else if dtype = 9 then wire == 9 else wire == 1 || wire == dtype

/-- One addition of a reduction (R243): REDUCE_SCALE on (partial, own), in the lane format, into a format. `scale` none means 1.0 and round to nearest even. -/
def ringAdd (wire dtype : Nat) (md : Mode) (partial' own : Nat) : Flg Num :=
  let a := loadNum wire partial' 0
  let b := loadNum dtype own 0
  if isInt dtype then iAdd a b else fAdd (laneFmt dtype) md a b

/-- The owner's result (R243): scaled and rounded to DTYPE under MODE with sixteen random bits. A SCALE of 0 acts as 1.0 (R239). -/
def ringScale (dtype scale u : Nat) (md : Mode) (x : Flg Num) : Flg Nat :=
  let s := if scale = 0 then (⟨.fin false 1 1, 0⟩ : Flg Num) else loadNum 1 scale 0
  let y := if isInt dtype then { mulX x.val s.val with flags := x.flags ||| (mulX x.val s.val).flags } else fMul (laneFmt dtype) md x s
  let e := encodeD dtype md u y.val
  { e with flags := e.flags ||| y.flags }

/-- Codes of the elements of packed bytes. -/
def codesOf (d : Nat) (b : List Byte) : List Nat := (List.range (b.length / elemBytes d)).map (fun i => leAt b (i * elemBytes d) (elemBytes d))

/-- Converts own data into the wire format (R243, step 0). -/
def toWire (dtype wire : Nat) (b : List Byte) : List Byte :=
  if dtype = wire then b
  else (codesOf dtype b).flatMap (fun c => leBytes (elemBytes wire) (encodeD wire (modeOf 0) 0 (loadNum dtype c 0).val).val)

/-- Adds data ready to be sent, in order of step and offset, joined to the run that it continues. -/
def availAdd : List (Nat × Nat × List Byte) → Nat → Nat → List Byte → List (Nat × Nat × List Byte)
  | [], s, o, d => [(s, o, d)]
  | (t, p, e) :: r, s, o, d =>
    if t = s ∧ p + e.length = o then (t, p, e ++ d) :: r
    else if t < s ∨ (t = s ∧ p < o) then (t, p, e) :: availAdd r s o d
    else (s, o, d) :: (t, p, e) :: r

/-- A group that has carried nothing. -/
def freshGrp (d : GroupRec) (dynamic : Bool) (weight : Nat) : Grp :=
  let link : CollLink := { tx := 0, unacked := [], rx := 0, above := [] }
  { def' := d, dynamic := dynamic, weight := weight, broken := false, gens := [], held := [], frames := [], nextFrame := 0, freed := 0, credit := 0
    outst := [], fwdTokens := [], backTokens := [], heard := 0, succ := link, pred := link, early := [], bytes := 0, due := false }

namespace Mach

/-- A group. -/
def grp? (m : Mach) (g : Nat) : Option Grp := alGet m.coll.groups g

/-- Sets a group, with what COLL_GROUP_STATUS and COLL_STATUS show of it. -/
def setGrp (m : Mach) (g : Nat) (x : Grp) : Mach :=
  let m := (m.putColl { m.coll with groups := alPut m.coll.groups g x })
  let m := (((((m.set F.COLL_GROUP_STATUS_VALID 1 0 g).set F.COLL_GROUP_STATUS_DYNAMIC x.dynamic.toNat 0 g).set F.COLL_GROUP_STATUS_BROKEN x.broken.toNat 0 g).set
    F.COLL_GROUP_STATUS_OPEN (x.gens.filter (fun y => y.state != 0 && y.state != 5)).length 0 g).set F.COLL_GROUP_STATUS_HERD x.def'.herd 0 g).set
    F.COLL_GROUP_STATUS_RANK x.def'.rank 0 g
  (m.set F.COLL_STATUS_GROUPS m.coll.groups.length).set F.COLL_STATUS_BROKEN (m.coll.groups.filter (fun p => p.2.broken)).length

/-- Removes a group. -/
def dropGrp (m : Mach) (g : Nat) : Mach :=
  let m := (m.putColl { m.coll with groups := alDel m.coll.groups g })
  let m := m.setReg (fkey F.COLL_GROUP_STATUS_VALID 0 g) 0
  (m.set F.COLL_STATUS_GROUPS m.coll.groups.length).set F.COLL_STATUS_BROKEN (m.coll.groups.filter (fun p => p.2.broken)).length

/-- Tiles of a scheduled group's OWNER. -/
def grpTiles (m : Mach) (x : Grp) : List Nat :=
  if x.dynamic then []
  else ((m.plan?.bind (fun p => ownerResv p x.def'.owner 2)).map (fun r => tilesOf r.units)).getD []

/-- Seeds and counters of a chunk's launch (07_churn_arithmetic.md R194, 08_churn_programs.md R230). The tiles of a dynamic group's chunk are not named, so
its seed and counter are free. -/
def chunkSeeds (m : Mach) (x : Grp) : Mach × List (Nat × Nat) :=
  match m.grpTiles x with
  | [] =>
    let (a, m) := m.fresh
    let (b, m) := m.fresh
    (m, [(a.toNat, b.toNat % 2 ^ 24)])
  | ts =>
    let seeds := ts.map (fun t => (m.get64 F.CHU_SEED_LO 0 t, m.get F.CHU_LAUNCH_CTR_L 0 t))
    (ts.foldl (fun m t => m.set F.CHU_LAUNCH_CTR_L ((m.get F.CHU_LAUNCH_CTR_L 0 t + 1) % 2 ^ 24) 0 t) m, seeds)

/-- Flags of a chunk's arithmetic stick in its tiles. -/
def chunkExc (m : Mach) (x : Grp) (flags : Nat) : Mach :=
  (m.grpTiles x).foldl (fun m t => let k := fkey F.CHU_EXC_INVALID 0 t; m.setReg k (m.reg k ||| BitVec.ofNat 32 (flags % 64))) m

/-- A generation of a group. -/
def gen? (x : Grp) (n : Nat) : Option Gen := x.gens.find? (fun y => y.gen == n)

/-- Sets a generation. -/
def setGen (m : Mach) (g : Nat) (y : Gen) : Mach :=
  match m.grp? g with
  | some x => m.setGrp g { x with gens := x.gens.map (fun z => if z.gen == y.gen then y else z) }
  | none => m

/-- DETAIL of a COLL_START (05_queues_descriptors.md R145). -/
def collDetail (g gen : Nat) : Nat := gen % 2 ^ 32 + g * 2 ^ 32

/-- Completes a start, once. -/
def startDone (m : Mach) (g : Nat) (y : Gen) (status : Nat) : Mach :=
  if y.given then m
  else (m.complete y.sq y.uid status (if status = stDone ∨ status = stProvisional then y.len else 0) (collDetail g y.gen)).setGen g { y with given := true }

/-- Whether every write of a generation has landed (R112). -/
def genLanded (m : Mach) (g gen : Nat) : Bool := m.mem.writes.all (fun w => !(w.kind == 7 && w.chan == g && w.msg == gen))

/-! ### The ring -/

/-- Own data of a segment, from an element up: out of the kept contribution (R252). -/
def ownData (m : Mach) (y : Gen) (off n : Nat) : Mach × List Byte :=
  match y.curd with
  | some d => (m, (d.drop off).take n)
  | none => m.readSegs (subSegs y.src off n)

/-- Bytes of the DST of a generation at an offset are written. -/
def dstWrite (m : Mach) (g : Nat) (x : Grp) (y : Gen) (off : Nat) (d : List Byte) : Mach :=
  m.writeSegs x.def'.herd y.asid 7 g y.gen (!x.dynamic) (subSegs y.dst off d.length) d

/-- Elements of a reduction, and of a segment of any operation in bytes. -/
def genElems (y : Gen) : Nat := y.len / elemBytes y.dtype

/-- Bytes of pieces that a member receives in a generation (R243). -/
def genNeed (x : Grp) (y : Gen) : Nat :=
  let n := x.def'.members
  let r := x.def'.rank
  let e := genElems y
  let red := if reduces y.op then
      ((List.range (n - 1)).map (fun k => segElems e n ((r + 2 * n - 2 - k) % n) * elemBytes y.wire)).foldl (· + ·) 0
    else 0
  let fin := if gathers y.op then
      if y.op = opAllGather then (n - 1) * y.len
      else ((List.range n).map (fun i => if i = r then 0 else segElems e n i * elemBytes y.dtype)).foldl (· + ·) 0
    else 0
  red + fin + (if y.op = opBroadcast ∧ r ≠ y.root then y.len else 0)

/-- Closes a generation: what it kept is released, and a WAITING start takes its place (R250). -/
def genDrop (m : Mach) (g gen : Nat) : Mach :=
  match m.grp? g with
  | some x => m.setGrp g { x with gens := x.gens.filter (fun y => y.gen != gen) }
  | none => m

/-- Sends a token forward or back. -/
def tokenFwd (m : Mach) (g tok gen : Nat) : Mach :=
  match m.grp? g with
  | some x => m.setGrp g { x with fwdTokens := x.fwdTokens ++ [(tok, gen)] }
  | none => m
def tokenBack (m : Mach) (g tok gen : Nat) : Mach :=
  match m.grp? g with
  | some x => m.setGrp g { x with backTokens := x.backTokens ++ [(tok, gen)] }
  | none => m

/-- A member revokes a generation (R254): counted, REVOKE forwarded once, the start completed or the event raised. -/
def revoke (m : Mach) (g gen : Nat) : Mach :=
  match m.grp? g with
  | none => m
  | some x =>
    match gen? x gen with
    | none => if gen < m.get F.COLL_GEN_NEXT 0 g then m else m.setGrp g { x with early := x.early ++ [gen] }
    | some y =>
      if y.state = 4 ∨ y.state = 5 then m
      else
        let m := m.inc F.COLL_REVOKES 1 0 g
        let m := m.tokenFwd g tokRevoke gen
        let m := m.setGen g { y with state := 4, avail := [] }
        if y.given then m.raise 0x0701 srcColl x.def'.herd [x.def'.herd] g gen
        else m.startDone g { y with state := 4, avail := [] } stRevoked

/-- The kernel surroundings of a fused argument block whose streams stand in `y.streams` from `at'` on. -/
def fusedIn (m : Mach) (y : Gen) (kernel at' base n : Nat) (seeds : List (Nat × Nat)) (t : Nat) : Mach × KIn :=
  let (m, ss) := ((y.streams.drop at').take n).foldl (fun (acc : Mach × List (List Byte × Nat)) s =>
    let (m, d) := acc.1.readSegs s.1
    (m, acc.2 ++ [(d, s.2)])) (m, [])
  (m, { kernel := kernel, mode := modeOf (leAt y.args (base + 1) 1), tiles := max 1 t, seeds := seeds, scalars := argScalars kernel (y.args.drop base), streams := ss })

/-- Writes of a fused kernel go to the pieces of its streams. -/
def fusedWrites (m : Mach) (g : Nat) (x : Grp) (y : Gen) (at' : Nat) (ws : List (Nat × Nat × List Byte)) : Mach :=
  ws.foldl (fun m w =>
    let segs := (nthD y.streams (at' + w.1) ([], 0)).1
    m.writeSegs x.def'.herd y.asid 7 g y.gen (!x.dynamic) (subSegs segs w.2.1 w.2.2.length) w.2.2) m

/-- Every due byte of an all-reduced curd has come: each member expands the summed curd into its DST (R257). -/
def expandRun (m : Mach) (g : Nat) (x : Grp) (y : Gen) : Mach :=
  if y.op ≠ opLowrank ∨ y.expanded ∨ y.recv < y.need then m
  else
    let (m, seeds) := m.chunkSeeds x
    let (m, k) := m.fusedIn y 4 5 144 3 seeds (m.grpTiles x).length
    let (o, beyond) := k.run 0 k.units
    let m := ((m.fusedWrites g x y 5 o.writes).chunkExc x o.flags).setGen g { y with expanded := true }
    match beyond with
    | some _ => m.revoke g y.gen
    | none => m

/-- A checked piece of a RUNNING generation is used (R243, R246): added and passed on, or written to DST and passed on. -/
def usePiece (m : Mach) (g : Nat) (x : Grp) (y : Gen) (p : Piece) : Mach :=
  let n := x.def'.members
  let r := x.def'.rank
  let e := genElems y
  let es := elemBytes y.dtype
  let ws := elemBytes y.wire
  let k := p.step
  let put := fun (m : Mach) (y : Gen) => (m.setGen g y).expandRun g x y
  let y := { y with recv := y.recv + p.data.length }
  if reduces y.op ∧ k + 2 ≤ n then
    let i := (r + 2 * n - 2 - k) % n
    let off := p.offset / ws
    let cnt := p.data.length / ws
    let (m, own) := m.ownData y ((segStart e n i + off) * es) (cnt * es)
    let md := modeOf y.mode
    let pairs := (codesOf y.wire p.data).zip (codesOf y.dtype own)
    if i = r then
      let (m, seeds) := m.chunkSeeds x
      let total := segElems e n i
      let per := max 1 (ceilDiv total seeds.length)
      let outs := pairs.zipIdx.map (fun q =>
        let j := off + q.2
        let (s, l) := nthD seeds (j / per) (0, 0)
        ringScale y.dtype y.scale (draw s l 0 j) md (ringAdd y.wire y.dtype md q.1.1 q.1.2))
      let d := outs.flatMap (fun c => leBytes es c.val)
      let m := m.chunkExc x (outs.foldl (fun a c => a ||| c.flags) 0)
      let m := m.dstWrite g x y (((if gathers y.op then segStart e n i else 0) + off) * es) d
      put m (if gathers y.op then { y with avail := availAdd y.avail (n - 1) (off * es) d } else y)
    else
      let outs := pairs.map (fun q =>
        let s := ringAdd y.wire y.dtype { md with sat := false } q.1 q.2
        let c := encodeD y.wire (modeOf 0) 0 s.val
        ({ c with flags := c.flags ||| s.flags } : Flg Nat))
      let m := m.chunkExc x (outs.foldl (fun a c => a ||| c.flags) 0)
      put m { y with avail := availAdd y.avail (k + 1) p.offset (outs.flatMap (fun c => leBytes ws c.val)) }
  else if gathers y.op ∧ n ≤ k + 1 ∧ k + 3 ≤ 2 * n then
    let i := (r + 2 * n - 1 - (k + 1 - n)) % n
    let start := if y.op = opAllGather then i * y.len else segStart e n i * es
    let m := m.dstWrite g x y (start + p.offset) p.data
    put m (if k + 4 ≤ 2 * n then { y with avail := availAdd y.avail (k + 1) p.offset p.data } else y)
  else if y.op = opBroadcast ∧ k = 0 then
    let m := m.dstWrite g x y p.offset p.data
    put m (if (r + 1) % n = y.root then y else { y with avail := availAdd y.avail 0 p.offset p.data })
  else m

/-- Uses a piece, or fails its check: it is counted and its generation revoked (R246). A piece of a generation that is not RUNNING here is dropped. -/
def takePiece (m : Mach) (g : Nat) (p : Piece) : Mach :=
  match m.grp? g with
  | none => m
  | some x =>
    if KIn.sealCrc p.data p.gen % 2 ^ 32 ≠ p.crc then (m.inc F.COLL_CRC_FAIL 1 0 g).revoke g p.gen
    else
      match gen? x p.gen with
      | some y => if y.state = 1 then m.usePiece g x y p else m
      | none => m

/-- Whether a piece waits in the credit buffer: its generation has not started here (R246). -/
def pieceWaits (m : Mach) (g : Nat) (x : Grp) (p : Piece) : Bool :=
  match gen? x p.gen with
  | some y => y.state == 0
  | none => decide (seqDist (m.get F.COLL_GEN_NEXT 0 g) p.gen < 2 ^ 31)

/-- A frame's piece is used; a frame is freed once every piece in it is (R246). -/
def pieceUsed (m : Mach) (g frame : Nat) : Mach :=
  match m.grp? g with
  | none => m
  | some x =>
    let left := ((alGet x.frames frame).getD 1) - 1
    if left = 0 then m.setGrp g { x with frames := alDel x.frames frame, freed := (x.freed + 1) % 2 ^ 32, due := true }
    else m.setGrp g { x with frames := alPut x.frames frame left }

/-- Pieces held for a generation that has started are used, in order of arrival (R246). -/
def heldPieces (m : Mach) (g : Nat) : Mach :=
  match m.grp? g with
  | none => m
  | some x =>
    let go := x.held.filter (fun h => !m.pieceWaits g x h.2)
    let m := m.setGrp g { x with held := x.held.filter (fun h => m.pieceWaits g x h.2) }
    go.foldl (fun m h => (m.takePiece g h.2).pieceUsed g h.1) m

/-- A generation begins to run (R250, R252): its contribution is kept, its first pieces become ready, and pieces held for it are used. -/
def genRun (m : Mach) (g gen : Nat) : Mach :=
  match m.grp? g with
  | none => m
  | some x =>
    match gen? x gen with
    | none => m
    | some y =>
      if x.early.contains gen then
        (m.setGrp g { x with early := x.early.filter (fun n => n != gen) }).revoke g gen
      else
        let n := x.def'.members
        let r := x.def'.rank
        let root := y.op ≠ opBroadcast ∨ r = y.root
        -- compression (R257)
        let (m, y, bad) : Mach × Gen × Bool :=
          if y.op = opLowrank ∧ y.rerun.isNone then
            let (m, seeds) := m.chunkSeeds x
            let (m, k) := m.fusedIn y 3 0 0 5 seeds (m.grpTiles x).length
            let res := (List.range (k.a 0)).foldl (fun (acc : KOut × Bool) i =>
              match KIn.compress k 2 3 4 i with
              | .ok o => (acc.1.add o, acc.2)
              | .error _ => (acc.1, true)) (KOut.nil, false)
            let curd := (res.1.writes.filter (fun w => w.1 == 4)).flatMap (fun w => w.2.2)
            let whey := (res.1.writes.filter (fun w => w.1 == 3)).flatMap (fun w => w.2.2)
            let m := (m.fusedWrites g x y 0 (res.1.writes.filter (fun w => w.1 == 4))).chunkExc x res.1.flags
            (m, { y with curd := some curd, whey := some ((nthD y.streams 3 ([], 0)).1, whey) }, res.2)
          else (m, y, false)
        -- the keep buffer (R252)
        let (m, y) : Mach × Gen :=
          if x.def'.inPlace ∨ y.rerun.isSome ∨ y.op = opLowrank ∨ !root ∨ y.len = 0 then (m, y)
          else
            let va := x.def'.keepBase + gen % 8 * x.def'.maxBytes
            match m.tile x.def'.herd x.def'.keepAsid accWrite srcColl va y.len with
            | (m, .error _) => (m, y)
            | (m, .ok segs) =>
              let (m, d) := m.readSegs y.src
              (m.writeSegs x.def'.herd x.def'.keepAsid 7 g gen (!x.dynamic) segs d, { y with src := segs })
        let e := genElems y
        let es := elemBytes y.dtype
        let y := { y with state := 1, began := m.now, need := genNeed x y }
        let (m, y) : Mach × Gen :=
          if reduces y.op then
            let i := (r + n - 1) % n
            let (m, d) := m.ownData y (segStart e n i * es) (segElems e n i * es)
            (m, { y with avail := if d.isEmpty then [] else [(0, 0, toWire y.dtype y.wire d)] })
          else if y.op = opAllGather then
            let (m, d) := m.ownData y 0 y.len
            (m.dstWrite g x y (r * y.len) d, { y with avail := if d.isEmpty then [] else [(n - 1, 0, d)] })
          else if root then
            let (m, d) := m.ownData y 0 y.len
            (m, { y with avail := if d.isEmpty then [] else [(0, 0, d)] })
          else (m, y)
        let m := m.setGen g y
        if bad then m.revoke g gen else (m.expandRun g x y).heldPieces g

/-- WAITING starts run while fewer than 8 generations are open (R250). -/
def genAdvance (m : Mach) (g : Nat) : Mach :=
  match m.grp? g with
  | none => m
  | some x =>
    if 8 ≤ (x.gens.filter (fun y => y.state != 0 && y.state != 5)).length then m
    else
      match x.gens.find? (fun y => y.state == 0) with
      | some y => m.genRun g y.gen
      | none => m

/-- A generation closes, and a WAITING one may start. -/
def genClose (m : Mach) (g gen : Nat) : Mach := (m.genDrop g gen).genAdvance g

/-! ### Seal -/

/-- ADAM_STEP on the sealed segment (R258). -/
def adamRun (m : Mach) (g : Nat) (x : Grp) (y : Gen) : Mach :=
  let (m, seeds) := m.chunkSeeds x
  let (m, k) := m.fusedIn y 5 0 0 5 seeds (m.grpTiles x).length
  let (o, _) := k.run 0 k.units
  ((m.fusedWrites g x y 0 o.writes).chunkExc x o.flags).setGen g { y with state := 5, avail := [] }

/-- A generation is sealed (R251, R253): SEALED is raised, inputs are released, the output whey is written (R257), ADAM_STEP runs (R258). -/
def genSeal (m : Mach) (g gen : Nat) : Mach :=
  match m.grp? g with
  | none => m
  | some x =>
    match gen? x gen with
    | none => m
    | some y =>
      let m := (m.set F.COLL_GEN_SEALED gen 0 g).raise 0x0700 srcColl x.def'.herd [x.def'.herd] g gen
      let m := match y.whey with
        | some (segs, d) => m.writeSegs x.def'.herd y.asid 7 g gen (!x.dynamic) segs d
        | none => m
      let m := match y.rerun with
        | some old => m.genDrop g old
        | none => m
      let m := if y.op = opAdam then m.adamRun g x y else m.genDrop g gen
      m.genAdvance g

/-- A member that has reached CHECKED takes part in the seal (R253): rank 0 starts CONFIRM, another passes it on once it has come. -/
def confirmStep (m : Mach) (g : Nat) (x : Grp) (y : Gen) : Mach :=
  if x.def'.rank = 0 then m.tokenFwd g tokConfirm y.gen
  else if y.confirm then m.tokenFwd g tokConfirm y.gen
  else m

/-- GENERATION_DELIVERED (R251): every DST byte is acknowledged, so DONE_PROVISIONAL is written, except under R258; with every piece passed the generation is
CHECKED. A sealed REDUCE_SCATTER_ADAM completes once ADAM_STEP's writes have landed (R258). -/
def genDelivered (m : Mach) (g gen : Nat) : Mach :=
  match m.grp? g with
  | none => m
  | some x =>
    match gen? x gen with
    | none => m
    | some y =>
      if m.genLanded g gen = false then m
      else if y.state = 5 then (m.startDone g y stDone).genDrop g gen
      else if y.state ≠ 1 ∨ y.recv < y.need ∨ (y.op = opLowrank ∧ y.expanded = false) then m
      else
        let m := if y.op = opAdam then m else m.startDone g y stProvisional
        let y := { y with state := 3, given := y.op != opAdam || y.given }
        (m.setGen g y).confirmStep g x y

/-- A token from the predecessor (R253, R254, R259), ABORT apart. -/
def tokenTake (m : Mach) (g tok gen : Nat) : Mach :=
  match m.grp? g with
  | none => m
  | some x =>
    if tok = tokConfirm then
      match gen? x gen with
      | none => m
      | some y =>
        if x.def'.rank = 0 then
          if y.state = 3 then (m.tokenFwd g tokSealed gen).genSeal g gen else m
        else if y.state = 3 then m.tokenFwd g tokConfirm gen
        else if y.state = 1 ∨ y.state = 2 then m.setGen g { y with confirm := true }
        else m
    else if tok = tokSealed then
      match gen? x gen with
      | none => m
      | some y =>
        if y.state = 3 then
          let m := if (x.def'.rank + 1) % x.def'.members = 0 then m else m.tokenFwd g tokSealed gen
          m.genSeal g gen
        else m
    else if tok = tokRevoke then m.revoke g gen
    else m

/-! ### Abort -/

/-- A member aborts a group (R259): ABORT both ways, every open and waiting start completed with a status or its event raised, inputs released, BROKEN. -/
def groupAbort (m : Mach) (g status : Nat) : Mach :=
  match m.grp? g with
  | none => m
  | some x =>
    let m := x.gens.foldl (fun m y =>
      if y.state = 5 then m
      else if y.given then (if y.state = 4 then m else m.raise 0x0702 srcColl x.def'.herd [x.def'.herd] g y.gen)
      else m.startDone g y status) m
    let x := (m.grp? g).getD x
    let m := m.inc F.COLL_ABORTS 1 0 g
    m.setGrp g { x with
      gens := x.gens.filter (fun y => y.state == 5), broken := true, held := [], outst := [], early := []
      fwdTokens := [(tokAbort, 0)], backTokens := [(tokAbort, 0)] }

/-- The group timeout in units (R236, R259: 0 takes COLL_CTL.TIMEOUT_MS, whose 0 acts as 1). -/
def groupTimeoutUnits (m : Mach) (x : Grp) : Nat :=
  (if x.def'.timeoutMs = 0 then max 1 (m.get F.COLL_CTL_TIMEOUT_MS) else x.def'.timeoutMs) * ms

/-- GROUP_TIMEOUT (R259). -/
def groupTimeout (m : Mach) (g : Nat) : Mach :=
  match m.grp? g with
  | none => m
  | some x =>
    let waiting := x.gens.filter (fun y => y.state == 1 || y.state == 2)
    if waiting.any (fun y => decide (max y.began x.heard + m.groupTimeoutUnits x ≤ m.now)) then m.groupAbort g stAborted else m

/-! ### Frames -/

/-- Takes ready data for one frame (R245): the oldest generation first, within it the lowest step and offset, up to the room left; pieces of newer generations only
where `newer` allows. The pieces and the generations with what remains of them. -/
def fillPieces (oldest : Option Nat) (newer : Bool) : Nat → Nat → List Gen → List Piece × List Gen
  | 0, _, l => ([], l)
  | _, _, [] => ([], [])
  | fuel + 1, room, y :: r =>
    let barred := !newer && oldest != some y.gen
    match y.avail with
    | [] => let (ps, r') := fillPieces oldest newer (fuel + 1 - 1) room r; (ps, y :: r')
    | (s, o, d) :: rest =>
      let eb := if reduces y.op ∧ s + 1 < 2 ^ 12 then elemBytes (if y.op = opAllGather then y.dtype else y.wire) else elemBytes y.dtype
      let max' := min 16368 (room - 16) / 16 * 16 / eb * eb
      let n := min d.length max'
      if barred ∨ room < 32 ∨ n = 0 then let (ps, r') := fillPieces oldest newer fuel room r; (ps, y :: r')
      else
        let data := d.take n
        let p : Piece := { gen := y.gen, step := s, offset := o, crc := KIn.sealCrc data y.gen % 2 ^ 32, data := data }
        let y := { y with avail := if n = d.length then rest else (s, o + n, d.drop n) :: rest }
        let (ps, l') := fillPieces oldest newer fuel (room - 16 - (n + 15) / 16 * 16) (y :: r)
        (p :: ps, l')

/-- Whether a generation's stream is not yet wholly sent: it runs and has or awaits data. -/
def genSending (y : Gen) : Bool := y.state != 0 && y.state != 4 && y.state != 5 && (!y.avail.isEmpty || decide (y.recv < y.need))

/-- The next forward frame of a group (R245): pieces within the credit, and one token. `none` where there is nothing to send. -/
def fwdFrame (m : Mach) (g : Nat) : Mach × Option ChunkFrame :=
  match m.grp? g with
  | none => (m, none)
  | some x =>
    let oldest := (x.gens.find? genSending).map (fun y => y.gen)
    let newerOut := (x.outst.filter (fun l => l.any (fun n => some n != oldest))).length
    let room := decide (x.outst.length < x.def'.credits)
    let ready := x.gens.any (fun y => y.state != 0 && !y.avail.isEmpty)
    let m := if ready ∧ room = false then m.inc F.COLL_CREDIT_STALL 1 0 g else m
    let (ps, gens) := if room then fillPieces oldest (decide (newerOut < x.def'.credits / 2)) 1100 16384 x.gens else ([], x.gens)
    match ps, x.fwdTokens with
    | [], [] => (m, none)
    | _, toks =>
      let (tok, tg) := toks.headD (0, 0)
      let c : ChunkFrame :=
        { dynamic := x.dynamic, back := false, dstLode := 0, seq := 0, group := g, pieces := ps, token := tok, tokenGen := tg, credit := 0
          ack := (x.succ.rx + 2 ^ 32 - 1) % 2 ^ 32, cipher := none }
      (m.setGrp g { x with
        gens := gens, fwdTokens := toks.drop 1
        outst := if ps.isEmpty then x.outst else x.outst ++ [(ps.map (fun p => p.gen)).eraseDups] }, some c)

/-- The next back frame of a group (R246): the cumulative credit, and a token. A scheduled group sends one at every back slot. -/
def backFrame (m : Mach) (g : Nat) : Mach × Option ChunkFrame :=
  match m.grp? g with
  | none => (m, none)
  | some x =>
    if x.dynamic ∧ x.due = false ∧ x.backTokens.isEmpty then (m, none)
    else
      let (tok, tg) := x.backTokens.headD (0, 0)
      (m.setGrp g { x with backTokens := x.backTokens.drop 1, due := false },
        some { dynamic := x.dynamic, back := true, dstLode := 0, seq := 0, group := g, pieces := [], token := tok, tokenGen := tg, credit := x.freed
               ack := (x.pred.rx + 2 ^ 32 - 1) % 2 ^ 32, cipher := none })

/-- The frame of a COLL lode for its slot (R245 to R247): SEQ and cipher as the lode's, DST_LODE its destination endpoint. -/
def collSlot (m : Mach) (l : Nat) (r : LodeOut) : Mach × Option ChunkFrame :=
  match m.coll.groups.find? (fun p => !p.2.dynamic && (p.2.def'.fwdLode == l || p.2.def'.backLode == l)) with
  | none => (m, none)
  | some (g, x) =>
    let x0 := m.ltx l
    match (if x.def'.fwdLode = l then m.fwdFrame g else m.backFrame g) with
    | (m, none) => (m, none)
    | (m, some c) =>
      let cipher := if r.encrypted then some (m.cipherHdr r.keyPage 0 l x0.counter) else none
      let m := m.setLtx l { x0 with seq := seqNext x0.seq, counter := x0.counter + 1 }
      let m := if r.encrypted then m.wireCount r.keyPage else m
      (m, some { c with dstLode := r.dstLode, seq := x0.seq, cipher := cipher })

/-- Whether a dynamic group has something to send. -/
def dynReady (x : Grp) : Bool :=
  x.dynamic && (x.due || !x.backTokens.isEmpty || !x.fwdTokens.isEmpty ||
    (decide (x.outst.length < x.def'.credits) && x.gens.any (fun y => y.state != 0 && !y.avail.isEmpty)))

/-- Sends a frame of a dynamic group to a neighbour: it waits at its origin. A frame that holds neither piece nor token repeats the last SEQ and is not kept
(notes/assumptions/29.md). -/
def dynPut (m : Mach) (g : Nat) (c : ChunkFrame) (back : Bool) : Mach :=
  match m.grp? g with
  | none => m
  | some x =>
    let link := if back then x.pred else x.succ
    let counts := !c.pieces.isEmpty || c.token != 0
    let c := { c with dstLode := g, seq := if counts then link.tx else (link.tx + 2 ^ 32 - 1) % 2 ^ 32 }
    let link := if counts then { link with tx := seqNext link.tx, unacked := link.unacked ++ [(c, m.now, 0)] } else link
    let x := if back then { x with pred := link } else { x with succ := link }
    let m := m.setGrp g { x with bytes := x.bytes + chunkPayload c + 50 }
    (m.putBeq { m.beq with dyn := m.beq.dyn ++ [(if back then x.def'.predModule else x.def'.succModule, c)] })

/-- DYN_CHUNK_SEND (R245, R249): the group with the least bytes sent for its weight sends its next frames. -/
def dynSend (m : Mach) (g : Nat) : Mach :=
  match m.grp? g with
  | none => m
  | some x =>
    let others := m.coll.groups.filter (fun p => p.1 != g && dynReady p.2)
    let least := others.all (fun p => decide (x.bytes * max 1 p.2.weight ≤ p.2.bytes * max 1 x.weight))
    if dynReady x = false ∨ least = false then m
    else
      let m := match m.backFrame g with
        | (m, some c) => m.dynPut g c true
        | (m, none) => m
      match m.fwdFrame g with
      | (m, some c) => m.dynPut g c false
      | (m, none) => m

/-- DYN_CHUNK_RTO (R247, 11_best_effort_transport.md R299): the oldest unacknowledged frame to a neighbour goes again, or at the limit the group aborts. -/
def dynRto (m : Mach) (g : Nat) (back : Bool) : Mach :=
  match m.grp? g with
  | none => m
  | some x =>
    let link := if back then x.pred else x.succ
    match link.unacked with
    | [] => m
    | (c, at', tries) :: rest =>
      if m.now < at' + m.get F.BEQ_RTX_RTO_MIN * us * 2 ^ tries then m
      else if m.get F.BEQ_RTX_RETRY ≤ tries then m.groupAbort g stAborted
      else
        let link := { link with unacked := (c, m.now, tries + 1) :: rest }
        let m := m.setGrp g (if back then { x with pred := link } else { x with succ := link })
        (m.putBeq { m.beq with dyn := m.beq.dyn ++ [(if back then x.def'.predModule else x.def'.succModule, c)] })

/-- A frame of a group whose sequence is settled is handled: credit, pieces, token (R245, R246, R253, R254, R259). -/
def chunkTake (m : Mach) (c : ChunkFrame) : Mach :=
  let g := c.group
  match m.grp? g with
  | none => m
  | some x =>
    let m := m.setGrp g { x with heard := m.now }
    let m := if c.back then
        match m.grp? g with
        | some x =>
          let n := seqDist x.credit c.credit
          if n ≤ x.outst.length then m.setGrp g { x with credit := c.credit, outst := x.outst.drop n } else m
        | none => m
      else if x.broken ∨ c.pieces.isEmpty then m
      else
        let id := x.nextFrame
        let m := match m.grp? g with
          | some x => m.setGrp g { x with nextFrame := id + 1, frames := alPut x.frames id c.pieces.length }
          | none => m
        c.pieces.foldl (fun m p =>
          match m.grp? g with
          | none => m
          | some x =>
            if m.pieceWaits g x p then m.setGrp g { x with held := x.held ++ [(id, p)] }
            else (m.takePiece g p).pieceUsed g id) m
    if c.token = 0 then m
    else if c.token = tokAbort then (if x.broken then m else m.groupAbort g stAborted)
    else if c.back ∨ x.broken then m
    else m.tokenTake g c.token c.tokenGen

/-- The SEQ at an endpoint that R105 declares lost, if any: the lowest not placed that a condition holds for. -/
def collLost (x : LodeRx) (covered : Bool) : Bool :=
  let s := x.lowest
  let ahead := fun (t : Option Nat) => match t with | some v => decide (v ≠ s) && seqLe s v | none => false
  let gone := if covered then (ahead x.top.1 || ahead x.top.2) && (ahead x.top.1 || x.uncovered == some 0) && (ahead x.top.2 || x.uncovered == some 1)
    else ahead x.top.1 || ahead x.top.2
  !x.placed.contains s && gone

/-- A placed SEQ moves the lowest not yet placed past the run that it completes. -/
def collPlaced : Nat → LodeRx → LodeRx
  | 0, x => x
  | fuel + 1, x =>
    if x.placed.contains x.lowest then collPlaced fuel { x with placed := x.placed.filter (fun s => s != x.lowest), lowest := seqNext x.lowest } else x

/-- A chunk frame of a scheduled group arrives (R246, R247): unknown endpoint, later copy, authentication, then it is handled; a lost frame aborts the group. -/
def chunkSched (m : Mach) (c : ChunkFrame) (shadow : Bool) : Mach :=
  match m.inRec c.dstLode, m.grp? c.group with
  | some rec, some g =>
    let l := c.dstLode
    if rec.srcModule ≠ (if c.back then g.def'.succModule else g.def'.predModule) ∨ g.dynamic then m.inc F.SLU_LODE_UNKNOWN
    else
      let x := m.lrx l
      let m := m.setLrx l { x with
        lastArrival := m.now
        top := if shadow then (x.top.1, some c.seq) else (some c.seq, x.top.2) }
      let m := m.coverCount l rec shadow
      let x := m.lrx l
      if x.placed.contains c.seq ∨ seqLe x.lowest c.seq = false then m.inc F.SLU_LODE_DUP
      else
        let (m, auth) := if rec.encrypted then
            (match c.cipher with | some h => m.openFrame rec.keyPage h | none => (m, false))
          else (m, true)
        if auth = false then
          if rec.covered ∧ x.badCopy.contains c.seq = false then m.setLrx l { m.lrx l with badCopy := c.seq :: (m.lrx l).badCopy }
          else m.groupAbort c.group stAborted
        else
          let y := collPlaced 66 { m.lrx l with placed := c.seq :: (m.lrx l).placed }
          let m := (m.setLrx l y).chunkTake c
          if collLost y rec.covered then
            (((m.inc F.SLU_LODE_LOST).setLrx l { m.lrx l with lowest := seqNext y.lowest }).groupAbort c.group stAborted)
          else m
  | _, _ => m.inc F.SLU_LODE_UNKNOWN

/-- A chunk frame of a dynamic group arrives (R247): its ACK settles what was sent, a frame already received is dropped, and the receiver owes an answer. -/
def chunkDyn (m : Mach) (c : ChunkFrame) : Mach :=
  match m.grp? c.group with
  | none => m.inc F.BEQ_DROP
  | some x =>
    if x.dynamic = false then m.inc F.BEQ_DROP
    else
      let link := if c.back then x.succ else x.pred
      let link := { link with unacked := link.unacked.filter (fun u => !seqLe u.1.seq c.ack) }
      let counts := !c.pieces.isEmpty || c.token != 0
      let dup := counts && (link.above.contains c.seq || !seqLe link.rx c.seq)
      let above := if counts && !dup then c.seq :: link.above else link.above
      let rec' := (List.range above.length).foldl (fun (a : Nat × List Nat) _ =>
        if a.2.contains a.1 then (seqNext a.1, a.2.filter (fun s => s != a.1)) else a) (link.rx, above)
      let link := { link with rx := rec'.1, above := rec'.2 }
      let x := if c.back then { x with succ := link, due := x.due || counts } else { x with pred := link, due := x.due || counts }
      let m := m.setGrp c.group x
      if dup then m else m.chunkTake c

/-- Releases the inputs of every revoked generation (R255). -/
def releaseRevoked (m : Mach) (g : Nat) (keep : Option Nat) : Mach :=
  match m.grp? g with
  | none => m
  | some x => m.setGrp g { x with gens := x.gens.filter (fun y => !(y.state == 4 && some y.gen != keep)) }

/-! ### Starts -/

/-- Translates the streams of an argument block: memory streams through the context, Cream streams against the herd's allocation. -/
def blockStreams (m : Mach) (h asid : Nat) (args : List Byte) (o : Nat) : List (Bool × Bool) → Nat → Mach × Except (Nat × Nat) (List (List Seg × Nat))
  | [], _ => (m, .ok [])
  | (mem, out) :: r, i =>
    let va := leAt args (o + 16 * i) 8
    let len := leAt args (o + 16 * i + 8) 8
    if 16777216 < len then (m, .error (stUnsupported, 0))
    else
      let res : Mach × Except (Nat × Nat) (List Seg) :=
        if mem then m.tile h asid (if out then accWrite else accRead) srcColl va len else (m, m.creamTile h va len)
      match res with
      | (m, .error e) => (m, .error e)
      | (m, .ok segs) =>
        match blockStreams m h asid args o r (i + 1) with
        | (m, .ok rest) => (m, .ok ((segs, len) :: rest))
        | (m, .error e) => (m, .error e)

/-- Check 5 of R241 for a fused operation: its argument blocks and their streams. The compress block's streams are gradient, Q, input whey, output whey and curd,
behind which the expand block follows (R257; notes/assumptions/30.md). -/
def fusedBlocks (m : Mach) (h asid op arg0 : Nat) : Mach × Except (Nat × Nat) (List Byte × List (List Seg × Nat)) :=
  let n := if op = opLowrank then 256 else if op = opAdam then 192 else 0
  if n = 0 then (m, .ok ([], []))
  else
    match m.readVa h asid srcColl arg0 n with
    | (m, .error e) => (m, .error e)
    | (m, .ok args) =>
      if op = opLowrank then
        match m.blockStreams h asid args 64 [(false, false), (true, false), (true, false), (true, true), (false, true)] 0 with
        | (m, .error e) => (m, .error e)
        | (m, .ok a) =>
          match m.blockStreams h asid args 208 [(false, true), (true, false), (false, true)] 0 with
          | (m, .error e) => (m, .error e)
          | (m, .ok b) => (m, .ok (args, a ++ b))
      else
        match m.blockStreams h asid args 112 [(false, false), (true, true), (true, true), (true, true), (true, true)] 0 with
        | (m, .error e) => (m, .error e)
        | (m, .ok a) => (m, .ok (args, a))

/-- Bytes of DST of a start at this member (R239). -/
def dstBytes (x : Grp) (op len dtype : Nat) : Nat :=
  let n := x.def'.members
  if op = opAllReduce then len
  else if op = opReduceScatter then segElems (len / elemBytes dtype) n x.def'.rank * elemBytes dtype
  else if op = opAllGather then n * len
  else len

/-- Check 4 of R241. -/
def startBad (m : Mach) (x : Grp) (op dtype wire mode len : Nat) : Bool :=
  let red := reduces op
  let fmtBad := if red then !([0, 1, 2, 3, 4, 5, 9].contains dtype && wireOk dtype wire) || modeReserved mode
    else decide (9 < dtype) || dtype == 6 || dtype == 7
  let svc := m.bringUpService && !(decide (op ≤ 4) && (dtype == 1 || dtype == 2) && (!red || wire == 1 || wire == 2))
  let unit := (op == opLowrank && !(m.bit F.ID_CAP3_COLL_FUSED && m.bit F.ID_CAP0_LOWRANK)) || (op == opAdam && !m.bit F.ID_CAP3_COLL_FUSED)
  fmtBad || svc || unit || len % elemBytes dtype != 0 || decide (x.def'.maxBytes < len) || decide (16777216 < dstBytes x op len dtype)

/-- The start takes its generation (R250): COLL_GEN_NEXT advances, and it runs or waits. -/
def startPut (m : Mach) (g : Nat) (y : Gen) : Mach :=
  match m.grp? g with
  | none => m
  | some x =>
    let m := m.set F.COLL_GEN_NEXT ((y.gen + 1) % 2 ^ 32) 0 g
    (m.setGrp g { x with gens := x.gens ++ [y] }).genAdvance g

/-- Whether a descriptor names a group of another herd (05_queues_descriptors.md R140). -/
def collForeign (m : Mach) (k : Nat) (d : Desc) : Bool := ((m.grp? d.target).map (fun x => x.def'.herd != m.sqHerd k)).getD false

/-- COLL_START of an operation (R239 to R241, R255). -/
def collStart (m : Mach) (k : Nat) (d : Desc) (u : Nat) : Mach :=
  let g := d.target
  let h := m.sqHerd k
  let op := d.bits 4 0 8
  let seq := d.bits 4 32 32
  let fail := fun (m : Mach) (st : Nat) => m.complete k u st 0 (collDetail g seq)
  match m.grp? g with
  | none => fail m (if m.planLoaded then stUnsupported else stPlanAbsent)
  | some x =>
    if x.broken then fail m stAborted
    else if seq ≠ m.get F.COLL_GEN_NEXT 0 g then fail m stUnsupported
    else if op = opRerun then
      let old := d.bits 5 0 32
      match (gen? x old) with
      | some y =>
        if y.state ≠ 4 then fail m stUnsupported
        else
          let dst := if y.op = opLowrank ∨ y.op = opAdam then (m, .ok y.dst)
            else if y.op = opBroadcast ∧ x.def'.rank = y.root then (m, .ok [])
            else m.tile h d.asid accWrite srcColl (d.bits 3 0 64) (dstBytes x y.op y.len y.dtype)
          match dst with
          | (m, .error (st, _)) => fail m st
          | (m, .ok segs) =>
            m.startPut g { y with
              gen := seq, rerun := some old, sq := k, uid := u, asid := d.asid, state := 0, given := false, dst := segs, avail := [], recv := 0
              expanded := false, confirm := false, began := m.now, again := false }
      | none => fail m stUnsupported
    else
      let wire0 := d.bits 6 0 8
      let mode := d.bits 6 8 8
      let scale := d.bits 6 32 32
      let root := d.bits 5 0 10
      match m.fusedBlocks h d.asid op (d.bits 5 0 64) with
      | (m, .error (st, _)) => fail m st
      | (m, .ok (args, streams)) =>
        let dtype := if op = opLowrank then argScalar args 4 % 2 ^ 32 else d.bits 4 8 8
        let wire := if wire0 = 0xFF then dtype else wire0
        let len := if op = opLowrank then packedBytes dtype (argScalar args 0 % 2 ^ 32 * (argScalar args 2 % 2 ^ 32)) else d.length
        if m.startBad x op dtype wire mode len ∨ (op = opBroadcast ∧ x.def'.members ≤ root) then fail m stUnsupported
        else
          let isRoot := op ≠ opBroadcast ∨ root = x.def'.rank
          let src := if op = opLowrank ∨ !isRoot ∨ len = 0 then (m, .ok []) else m.tile h d.asid accRead srcColl (d.bits 2 0 64) len
          match src with
          | (m, .error (st, _)) => fail m st
          | (m, .ok srcSegs) =>
            let dst := if op = opLowrank then (m, .ok (nthD streams 5 ([], 0)).1)
              else if op = opAdam then (m, .ok (nthD streams 0 ([], 0)).1)
              else if op = opBroadcast ∧ root = x.def'.rank then (m, .ok [])
              else m.tile h d.asid accWrite srcColl (d.bits 3 0 64) (dstBytes x op len dtype)
            match dst with
            | (m, .error (st, _)) => fail m st
            | (m, .ok dstSegs) =>
              let keep := if x.def'.inPlace ∨ !isRoot ∨ op = opLowrank then (m, Except.ok [])
                else m.tile h x.def'.keepAsid accWrite srcColl (x.def'.keepBase + seq % 8 * x.def'.maxBytes) len
              match keep with
              | (m, .error (st, _)) => fail m st
              | (m, .ok _) =>
                (m.releaseRevoked g none).startPut g
                  { gen := seq, op := op, dtype := dtype, wire := wire, mode := mode, scale := scale, len := len, root := root, rerun := none, sq := k, uid := u
                    asid := d.asid, state := 0, given := false, src := srcSegs, curd := none, whey := none, dst := dstSegs, out := [], args := args
                    streams := streams, avail := [], recv := 0, need := 0, expanded := false, confirm := false, began := m.now, again := false }

/-! ### Commands -/

/-- The definition that COLL_DYN_0 to COLL_DYN_7 stage for a path (R256), its herd forced on a herd page. -/
def stagedGroup (m : Mach) (v : Via) : GroupRec × Nat :=
  let w := fun i => m.getV v F.COLL_DYN i
  ({ group := getBits (w 0) 0 16, herd := (v.page).getD (getBits (w 0) 16 8), inPlace := getBits (w 0) 24 1 == 1, members := getBits (w 1) 0 16
     rank := getBits (w 1) 16 16, predModule := getBits (w 2) 0 16, succModule := getBits (w 2) 16 16, fwdLode := 0, backLode := 0
     credits := getBits (w 3) 0 16, timeoutMs := getBits (w 5) 0 16, hop := 0, maxBytes := w 4, keepBase := w 6 + w 7 * 2 ^ 32
     keepAsid := getBits (w 5) 16 8, owner := 0 }, getBits (w 3) 16 8)

/-- Cream bytes of a herd's allocation that no reservation covers and no credit buffer of a dynamic group takes (R238). -/
def creamFree (m : Mach) (h : Nat) : Nat :=
  let resv := (m.heldPlans.flatMap (fun p => p.2.resvs.filter (fun r => r.type == 3 && r.herd == h))).map (fun r => (tilesOf r.units).length * r.length)
  let taken := (m.coll.groups.filter (fun p => p.2.dynamic && p.2.def'.herd == h)).map (fun p => p.2.def'.credits * 16384)
  m.creamAlloc h - (resv.foldl (· + ·) 0 + taken.foldl (· + ·) 0)

/-- A command of COLL_CMD through the block or a herd page: a herd reaches its own groups (R262, 14_herds.md R358). -/
def collCmd (m : Mach) (v : Via) (create : Bool) (f : Mach → Nat → Mach) : Mach :=
  m.gate v F.COLL_CMD_OP.addr (fun m =>
    let g := m.getV v F.COLL_SEL_GROUP
    match v.page with
    | some h => if create = false ∧ ((m.grp? g).map (fun x => x.def'.herd != h)).getD false then m.pageForeign v F.COLL_CMD_OP.addr else f m g
    | none => f m g)

/-- DONE and REFUSED of COLL_CMD_STATUS, held per path and page. -/
def collOk (m : Mach) (v : Via) : Mach := (m.setV v F.COLL_CMD_STATUS_DONE 1).setV v F.COLL_CMD_STATUS_REFUSED 0
def collRefuse (m : Mach) (v : Via) (r : Nat) : Mach :=
  ((m.setV v F.COLL_CMD_STATUS_DONE 0).setV v F.COLL_CMD_STATUS_REFUSED 1).setV v F.COLL_CMD_STATUS_REASON r

/-- CREATE (R238). -/
def collCreate (m : Mach) (v : Via) : Mach :=
  m.collCmd v true (fun m _ =>
    let (d, w) := m.stagedGroup v
    if (m.grp? d.group).isSome then m.collRefuse v 1
    else if 128 ≤ m.coll.groups.length ∨ m.roomFor d.herd resGroups 1 = false then m.collRefuse v 3
    else if 4096 ≤ d.group ∨ d.members < 2 ∨ 1024 < d.members ∨ d.members ≤ d.rank ∨ d.credits < 4 ∨ 1024 < d.credits ∨ w = 0 ∨ d.maxBytes = 0 ∨
        16777216 < d.maxBytes ∨ d.keepBase % 4096 ≠ 0 ∨ 1023 < d.predModule ∨ 1023 < d.succModule then m.collRefuse v 5
    else if m.creamFree d.herd < d.credits * 16384 then m.collRefuse v 4
    else ((((m.setGrp d.group (freshGrp d true w)).set F.COLL_GEN_NEXT 0 0 d.group).set F.COLL_GEN_SEALED 0 0 d.group).take d.herd resGroups 1).collOk v)

/-- DESTROY (R262): open generations abort, then the group is gone. -/
def collDestroy (m : Mach) (v : Via) : Mach :=
  m.collCmd v false (fun m g =>
    match m.grp? g with
    | none => m.collRefuse v 2
    | some x =>
      if x.dynamic = false then m.collRefuse v 6
      else
        let m := if x.broken then m else m.groupAbort g stAborted
        -- ABORT leaves before the group goes
        let m := match m.backFrame g with | (m, some c) => m.dynPut g c true | (m, none) => m
        let m := match m.fwdFrame g with | (m, some c) => m.dynPut g c false | (m, none) => m
        ((m.dropGrp g).giveBack x.def'.herd resGroups 1).collOk v)

/-- RESET (R260). -/
def collReset (m : Mach) (v : Via) : Mach :=
  m.collCmd v false (fun m g =>
    match m.grp? g with
    | none => m.collRefuse v 2
    | some x =>
      (((m.setGrp g { freshGrp x.def' x.dynamic x.weight with gens := x.gens, bytes := x.bytes, succ := x.succ, pred := x.pred }).set F.COLL_GEN_NEXT
        (m.getV v F.COLL_GEN_ARG) 0 g).collOk v))

/-- RELEASE (R255). -/
def collRelease (m : Mach) (v : Via) : Mach :=
  m.collCmd v false (fun m g =>
    match m.grp? g with
    | none => m.collRefuse v 2
    | some x =>
      let n := m.getV v F.COLL_GEN_ARG
      match gen? x n with
      | some y => if y.state = 4 then (m.genClose g n).collOk v else m.collRefuse v 8
      | none => m.collRefuse v 8)

/-- A herd reset aborts the groups of the herd, whose own starts complete with FLUSHED (R260). -/
def collFlush (m : Mach) (h : Nat) : Mach :=
  (m.coll.groups.filter (fun p => p.2.def'.herd == h)).foldl (fun m p => m.groupAbort p.1 stFlushed) m

/-- A plan becomes ACTIVE (R236, R260): a scheduled group whose number, ring and lodes are unchanged goes on, others abort and go; new groups appear. -/
def collSwitch (m : Mach) (p : Plan) : Mach :=
  let same := fun (a b : GroupRec) => a.group == b.group && a.herd == b.herd && a.members == b.members && a.rank == b.rank && a.predModule == b.predModule &&
    a.succModule == b.succModule && a.fwdLode == b.fwdLode && a.backLode == b.backLode
  let old := m.coll.groups.filter (fun g => !g.2.dynamic)
  let m := (old.filter (fun g => !p.groups.any (fun r => same r g.2.def'))).foldl (fun m g => (m.groupAbort g.1 stAborted).dropGrp g.1) m
  p.groups.foldl (fun m r =>
    match m.grp? r.group with
    | some x => if x.dynamic then m else m.setGrp r.group { x with def' := r }
    | none => ((m.setGrp r.group (freshGrp r false 0)).set F.COLL_GEN_NEXT 0 0 r.group).set F.COLL_GEN_SEALED 0 0 r.group) m

/-- A detection of R197 in a tile that serves a scheduled group's chunks (R254): repeated once in a generation, then the generation is revoked. -/
def collDetect (m : Mach) (t : Nat) : Mach :=
  match m.coll.groups.find? (fun p => !p.2.dynamic && (m.grpTiles p.2).contains t && p.2.gens.any (fun y => y.state == 1)) with
  | none => m
  | some (g, x) =>
    match x.gens.find? (fun y => y.state == 1) with
    | none => m
    | some y =>
      if y.again = false then
        ((m.setGen g { y with again := true }).inc F.CHU_RESIDUE_RECOMPUTED 1 0 t).fault (srcTile t) kCorrected { unit := srcColl, herd := x.def'.herd, detail := t }
      else
        ((m.revoke g y.gen).inc F.CHU_RESIDUE_FAILED 1 0 t).fault (srcTile t) kFailed { status := stRevoked, unit := srcColl, herd := x.def'.herd, detail := t }

end Mach
end Sys2Proof.Machine
end

