-- ==== Sys2Proof/Machine/Commit.lean ====
section
/-! DEFINITION. The frame of every meaning: what a command leaves once the losses of links and tiles within it are absorbed. -/
namespace Sys2Proof.Machine
namespace Mach

/-- A frame in a forwarded lane whose port has left UP takes the next port of its set that is UP, on the channel that the new port's DL bit gives
(13_routing_deadlock.md R337); with none it is dropped. -/
def rehome (m : Mach) (h : Held) : Mach :=
  let w := match h.frame.dest with | some d => m.routeWord h.table d | none => 0
  match m.routePick w h.frame.path with
  | some (q, dl) =>
    let m := (m.putRte { m.rte with held := m.rte.held.map (fun x => if x == h then { x with out := q, vcOut := max x.vc dl } else x) })
    m.depthSync q
  | none =>
    let m := (m.putRte { m.rte with held := m.rte.held.erase h })
    ((m.inc F.RTE_NO_ROUTE).depthSync h.inPort).xoffSync h.inPort h.frame.pcp

/-- Ends the accounting of a pause: µs during which any priority was held (PORT_PAUSED_US). -/
def pausedCount (m : Mach) (p : Nat) : Mach :=
  let x := m.pt p
  match x.anySince with
  | some a =>
    if x.paused.isEmpty then
      let n := m.now - a + x.pausedRem
      (m.setPt p { x with anySince := none, pausedRem := n % us }).inc F.PORT_PAUSED_US (n / us) p
    else m
  | none => m

/-- The loss of a link is absorbed (12_ports_mac.md R313, 01_architecture.md R26): as a time input (02_polder_time.md R58), for frames that wait to leave
on it, for the pauses that its partner asked for. -/
def linkLost (m : Mach) (p : Nat) : Mach :=
  let m := m.timeLinkDown p
  let gone := m.lode.transit.filter (fun x => x.1 == p)
  let m := (m.putLode { m.lode with transit := m.lode.transit.filter (fun x => x.1 != p) })
  let m := m.inc F.RTE_SCHED_DROP gone.length
  let m := (m.rte.held.filter (fun h => h.out == p)).foldl rehome m
  let m := m.depthSync p
  let m := (m.setPt p { m.pt p with paused := [], heldSince := [], ignore := [], inq := [] }).set F.PORT_STATUS_PAUSED 0 p
  m.pausedCount p

/-- Absorbs what the command took out of service. -/
def absorb (m : Mach) : Mach := m.tileDowns.foldl tileLost (m.downs.foldl linkLost m)

end Mach

/-- A meaning from its effect on the module: the queue of commands is untouched and the stores settle. -/
def commit (s : State) (f : Mach → Mach) : Host.Outcome State Fault Refusal :=
  .next { s with m := settle s.m ((f { s.m with wr := [], downs := [], tileDowns := [], fabric := [] }).absorb) }

/-- An empty queue: one unit of local time passes (notes/assumptions/1.md). -/
def idle (s : State) : Host.Outcome State Fault Refusal := commit s (fun m => m.advance (m.now + 1))

end Sys2Proof.Machine
end

