-- ==== Sys2Proof/Machine/Churn.lean ====
section
/-! DEFINITION. The commands of Churn: tiles (07_churn_arithmetic.md), programs and launches (08_churn_programs.md). -/
namespace Sys2Proof.Machine
namespace Mach

/-- Acts on a launch, if there is one of that number. -/
def onLaunch (m : Mach) (n : Nat) (f : Mach → Launch → Mach) : Mach :=
  match m.launch? n with
  | some l => f m l
  | none => m

/-- A write of CHU_PROG_CMD through the block or a herd page (R213, 14_herds.md R358): the entry selected there, the herd and the context. -/
def progCmd (m : Mach) (v : Via) (f : Mach → Nat → Mach) : Mach :=
  m.gate v F.CHU_PROG_CMD_OP.addr (fun m =>
    let e := m.getV v F.CHU_PROG_SEL_PROGRAM
    match v.page with
    | none => f m e
    | some h => if e < 64 ∨ ((m.prog e).map (fun x => x.herd != h)).getD false then m.pageForeign v F.CHU_PROG_CMD_OP.addr else f m e)

/-- LOAD of CHU_PROG_CMD (R213): the herd of a herd page is forced. -/
def progLoadCmd (m : Mach) (v : Via) (value : Nat) : Mach :=
  m.progCmd v (fun m e =>
    let va := m.get64 F.CHU_PROG_ADDR_LO / 4096 * 4096
    match v.page with
    | none => m.progLoad e (getBits value 8 8) 0 (getBits value 0 8) va
    | some h => m.progLoad e h h (getBits value 0 8) va)

end Mach

/-- CHURN_LAUNCH (R223). -/
def execChurnLaunch (t k : Nat) (s : State) : Host.Outcome State Fault Refusal :=
  commit s (fun m => (m.advance t).dispatch k (fun d => d.opcode == 0x28) (fun m d => m.progForeign k d) (fun m d u => m.launchBegin k d u))

/-- SEED_WRITE (R194): a write of CHU_SEED_HI sets the seed of the selected tile from the LO half written before it on the same path. A herd writes the seeds
of tiles that its reservations own (R204, 14_herds.md R359). -/
def execSeedWrite (v : Via) (value : Word) (s : State) : Host.Outcome State Fault Refusal :=
  commit s (fun m => m.gate v F.CHU_SEED_HI.addr (fun m =>
    let t := m.getV v F.CHU_TILE_SEL_TILE
    let sk := viaKey v F.CHU_SEED_LO
    let lo := ((alGet m.shadow sk).getD (m.reg (Mach.fkey F.CHU_SEED_LO 0 t))).toNat
    let m := (m.putShadow (alDel m.shadow sk))
    match v.page with
    | some h => if m.tileOwned h t then m.seedWrite t lo value.toNat else m.pageForeign v F.CHU_SEED_HI.addr
    | none => m.seedWrite t lo value.toNat))

/-- CHURN_CHECK_DETECT (R197, R198): in the pass of a launch, or in a chunk kernel of a collective group (09_collectives.md R254). -/
def execChurnCheckDetect (t tile : Nat) (s : State) : Host.Outcome State Fault Refusal :=
  commit s (fun m => (m.advance t).engines (fun m => if (m.launchOn tile).isSome then m.churnDetect tile else m.collDetect tile))

/-- LAUNCH_PASS_END (R198, R219). -/
def execLaunchPassEnd (t n units : Nat) (last : Bool) (user : ProgPass) (s : State) : Host.Outcome State Fault Refusal :=
  commit s (fun m => (m.advance t).engines (fun m => m.onLaunch n (fun m l => if l.state = 2 then m.passEnd l units last user else m)))

/-- TILE_SRAM_ECC (R202). -/
def execTileSramEcc (t tile word : Nat) (double : Bool) (s : State) : Host.Outcome State Fault Refusal :=
  commit s (fun m => (m.advance t).engines (fun m => if tile < 64 then m.tileSramError tile word double else m))

/-- TILE_SRAM_SCRUB (R204). -/
def execTileSramScrub (t tile bits : Nat) (s : State) : Host.Outcome State Fault Refusal :=
  commit s (fun m => (m.advance t).engines (fun m => m.tileScrub tile bits))

/-- TILE_SRAM_CLEAR (R203). -/
def execTileSramClear (t tile : Nat) (s : State) : Host.Outcome State Fault Refusal :=
  commit s (fun m => (m.advance t).engines (fun m => m.sramCleared tile))

/-- PROGRAM_LOAD (R213). -/
def execProgramLoad (v : Via) (value : Word) (s : State) : Host.Outcome State Fault Refusal :=
  commit s (fun m => m.progLoadCmd v value.toNat)

/-- PROGRAM_CHECK_COMPLETE (R215). -/
def execProgramCheckComplete (t e : Nat) (s : State) : Host.Outcome State Fault Refusal :=
  commit s (fun m => (m.advance t).engines (fun m => m.progChecked e))

/-- PROGRAM_UNLOAD (R214). -/
def execProgramUnload (v : Via) (s : State) : Host.Outcome State Fault Refusal :=
  commit s (fun m => m.progCmd v (fun m e => m.progUnload e))

/-- LAUNCH_ARGS_READ (R223, R224). -/
def execLaunchArgsRead (t n : Nat) (s : State) : Host.Outcome State Fault Refusal :=
  commit s (fun m => (m.advance t).engines (fun m => m.onLaunch n (fun m l => if l.state = 0 then m.launchArgs l else m)))

/-- LAUNCH_START_SCHEDULED (R220). -/
def execLaunchStartScheduled (t n : Nat) (s : State) : Host.Outcome State Fault Refusal :=
  commit s (fun m => (m.advance t).engines (fun m => m.onLaunch n (fun m l => m.startScheduled l)))

/-- LAUNCH_START_UNSCHEDULED (R220, R221). -/
def execLaunchStartUnscheduled (t n : Nat) (s : State) : Host.Outcome State Fault Refusal :=
  commit s (fun m => (m.advance t).engines (fun m => m.onLaunch n (fun m l => m.startUnscheduled l)))

/-- LAUNCH_BUDGET_EXCEEDED (R222). -/
def execLaunchBudgetExceeded (t n : Nat) (s : State) : Host.Outcome State Fault Refusal :=
  commit s (fun m => (m.advance t).engines (fun m => m.onLaunch n (fun m l => m.budgetExceeded l)))

/-- STREAM_OVERRUN (R208): a RUNNING launch accesses a stream at or beyond its length. -/
def execStreamOverrun (t n stream offset : Nat) (s : State) : Host.Outcome State Fault Refusal :=
  commit s (fun m => (m.advance t).engines (fun m => m.onLaunch n (fun m l =>
    if l.state = 2 ∧ stream < l.streams.length ∧ (nthD l.streams stream ([], 0)).2 ≤ offset then m.launchOverrun l stream offset else m)))

/-- LAUNCH_COMPLETE (R220, R227). -/
def execLaunchComplete (t n : Nat) (s : State) : Host.Outcome State Fault Refusal :=
  commit s (fun m => (m.advance t).engines (fun m => m.onLaunch n (fun m l => m.launchComplete l)))

end Sys2Proof.Machine
end

