-- ==== Sys2Proof/Machine/Cipher.lean ====
section
/-! DEFINITION. The commands of the cipher block: key pages, key changes, cipher engines and their randomness (15_cipher.md R378 to R391). -/
namespace Sys2Proof.Machine
namespace Mach

/-! ## Commands of CIPH_PAGE_CMD -/

/-- Ends a key page command in the status of its path. -/
def keyDone (m : Mach) (p : Path) : Mach :=
  (m.setP p F.CIPH_CMD_STATUS_DONE 1).setP p F.CIPH_CMD_STATUS_REFUSED 0
def keyRefuse (m : Mach) (p : Path) (r : Nat) : Mach :=
  ((m.setP p F.CIPH_CMD_STATUS_DONE 0).setP p F.CIPH_CMD_STATUS_REFUSED 1).setP p F.CIPH_CMD_STATUS_REASON r

/-- A command on the page that the path selects: BUSY is judged first (R382). The block of a part without engines reads 0 and takes nothing. -/
def keyCmd (m : Mach) (p : Path) (f : Mach → Nat → Mach) : Mach :=
  m.stewardGate p F.CIPH_PAGE_CMD_OP.addr (fun m =>
    if m.get F.CIPH_STATUS_PRESENT = 0 then m
    else if m.getP p F.CIPH_CMD_STATUS_BUSY = 1 then m.keyRefuse p 0x0D
    else f m (m.getP p F.CIPH_PAGE_SEL_PAGE))

/-- ASSIGN (R379, R382, R387): STATE, SHARE, OWNER, KIND in this order. -/
def keyAssign (m : Mach) (p : Path) (value : Nat) : Mach :=
  m.keyCmd p (fun m g =>
    let h := getBits value 8 8
    let kind := getBits value 24 4
    let recorded := m.bit F.CIPH_PAGE_STATUS_RECORDED 0 g
    let owner := ((m.keyPage g).record.map (·.1)).getD 0
    if m.keyState g ≠ 0 then m.keyRefuse p 1
    else if m.roomFor h resKeys 1 = false then m.keyRefuse p 2
    else if recorded ∧ (h ≠ owner ∨ kind ≠ 2) then m.keyRefuse p 3
    else if kind ≠ 1 ∧ kind ≠ 2 then m.keyRefuse p 6
    else
      let m := ((m.set F.CIPH_PAGE_STATUS_STATE 1 0 g).set F.CIPH_PAGE_STATUS_KIND kind 0 g).set F.CIPH_PAGE_STATUS_HERD h 0 g
      (m.take h resKeys 1).keyDone p)

/-- The first check of a key page image that fails, as its reason code (R378, R380, R381, R387). -/
def imageReason (m : Mach) (g : Nat) (b : List Byte) : Option Nat :=
  let st := m.keyState g
  let kind := m.get F.CIPH_PAGE_STATUS_KIND 0 g
  let slot := leAt b 7 1
  let limit := leAt b 0x0B 1
  let needs := m.bit F.CIPH_PAGE_STATUS_NEEDS_PREV 0 g
  let cv := (Config.keyCheck (leAt b 0x40 32)).toNat
  let check := leAt b 0x10 4
  let wants := ((m.keyPage g).record.map (fun r => if slot = 0 then r.2.2.1 else r.2.2.2.1)).getD 0
  let recorded := (slot = 0 ∧ m.bit F.CIPH_PAGE_STATUS_RECORDED 0 g) ∨ slot = 2
  if (slot = 0 ∧ st ≠ 1) ∨ (slot = 1 ∧ (st ≠ 2 ∨ needs)) ∨ (slot = 2 ∧ (st ≠ 2 ∨ needs = false)) then some 1
  else if leAt b 0x0A 1 ≠ m.get F.CIPH_PAGE_STATUS_HERD 0 g then some 3
  else if leAt b 0 4 ≠ 0x5059454B ∨ leAt b 8 2 ≠ g ∨ (kind = 1 ∧ slot = 0 ∧ limit ≠ 0 ∧ (limit < 24 ∨ 36 < limit)) then some 4
  else if leAt b 4 2 ≠ 1 then some 5
  else if leAt b 6 1 ≠ kind then some 6
  else if 2 < slot then some 7
  else if (check ≠ 0 ∧ check ≠ cv) ∨ (recorded ∧ cv ≠ wants) then some 8
  else if kind = 2 ∧ leAt b 0x40 32 = leAt b 0x60 32 then some 0x0C
  else none

/-- INSTALL (R380): the image is read under the owner's context and checked, and its key bytes are overwritten with zeros. -/
def keyInstall (m : Mach) (p : Path) (value : Nat) : Mach :=
  m.keyCmd p (fun m g =>
    let h := m.get F.CIPH_PAGE_STATUS_HERD 0 g
    let a := value % 256
    let va := (m.getP p F.CIPH_PAGE_ADDR_LO + m.getP p F.CIPH_PAGE_ADDR_HI * 2 ^ 32) / 128 * 128
    if m.keyState g = 0 then m.keyRefuse p 1
    else
      match m.tile h a accRead 0x1FF va 128 with
      | (m, .error _) => m.keyRefuse p 9
      | (m, .ok segs) =>
        if segs.any (fun s => s.target != 0) then m.keyRefuse p 9
        else
          let (m, b) := m.readSegs segs
          match m.imageReason g b with
          | some r => m.keyRefuse p r
          | none =>
            match m.writeVa h a 0x1FF 9 g 0 (va + 0x40) (List.replicate 64 0) with
            | (m, some _) => m.keyRefuse p 9
            | (m, none) =>
              let x : KeyInstall :=
                { path := p, page := g, slot := leAt b 7 1, key := (leAt b 0x40 32, leAt b 0x60 32), limit := leAt b 0x0B 1, epoch := leAt b 0x0C 2 }
              (m.putCiph { m.ciph with installs := m.ciph.installs ++ [x] }).setP p F.CIPH_CMD_STATUS_BUSY 1)

/-- The key of an INSTALL is taken (R382, R384, R387). -/
def keyTake (m : Mach) (x : KeyInstall) : Mach :=
  let g := x.page
  let cv := (Config.keyCheck x.key.1).toNat
  let y := m.keyPage g
  let store := m.get F.CIPH_PAGE_STATUS_KIND 0 g = 2
  if x.slot = 0 then
    let epoch := if m.bit F.CIPH_PAGE_STATUS_RECORDED 0 g then (y.record.map (·.2.1)).getD 0 else x.epoch
    let m := m.setKeyPage g { y with cur := some x.key }
    let m := ((m.set F.CIPH_PAGE_STATUS_STATE 2 0 g).set F.CIPH_PAGE_STATUS_EPOCH epoch 0 g).set F.CIPH_PAGE_CHECK_CUR cv 0 g
    let m := m.set F.CIPH_PAGE_LIMIT_LIMIT_LOG2 (if store ∨ x.limit = 0 then 36 else x.limit) 0 g
    let m := (m.set64 F.CIPH_PAGE_USED_LO 0 0 g).zeroCounters g
    -- the record of an interrupted walk stands until its previous key is there
    if store ∧ m.bit F.CIPH_PAGE_STATUS_NEEDS_PREV 0 g = false then m.keyRecord g else m
  else if x.slot = 1 then
    let m := m.setKeyPage g { y with other := some x.key }
    let m := (m.set F.CIPH_PAGE_STATUS_STATE 3 0 g).set F.CIPH_PAGE_CHECK_OTHER cv 0 g
    if m.bit F.CIPH_PAGE_STATUS_HELD 0 g then m.keySwitch g else m
  else
    let m := m.setKeyPage g { y with other := some x.key, switchAt := m.now }
    let m := ((m.set F.CIPH_PAGE_STATUS_STATE 4 0 g).set F.CIPH_PAGE_STATUS_NEEDS_PREV 0 0 g).set F.CIPH_PAGE_CHECK_OTHER cv 0 g
    m.set64 F.CIPH_PAGE_REKEY_LO ((y.record.map (·.2.2.2.2)).getD 0) 0 g

/-- KEY_INSTALL_COMPLETE (R380): the zeros have landed. -/
def keyInstalled (m : Mach) (p : Path) : Mach :=
  match m.ciph.installs.find? (fun x => decide (pathOff x.path = pathOff p)) with
  | none => m
  | some x =>
    if m.landed 9 x.page 0 = false then m
    else
      let m := (m.putCiph { m.ciph with installs := m.ciph.installs.erase x }).setP p F.CIPH_CMD_STATUS_BUSY 0
      let st := m.keyState x.page
      if (if x.slot = 0 then st = 1 else st = 2) then (m.keyTake x).keyDone p else m.keyRefuse p 1

/-- SWITCH (R382). -/
def keySwitchCmd (m : Mach) (p : Path) : Mach :=
  m.keyCmd p (fun m g => if m.keyState g = 3 then (m.keySwitch g).keyDone p else m.keyRefuse p 1)

/-- Whether something names a key page (R386). -/
def keyNamed (m : Mach) (g : Nat) : Bool :=
  m.heldPlans.any (fun b => b.2.lodesOut.any (fun l => l.encrypted && l.keyPage == g) || b.2.lodesIn.any (fun l => l.encrypted && l.keyPage == g)) ||
  ((m.listed F.BEQ_QP_STATUS_STATE.addr).map (·.1)).any (fun q => m.get F.BEQ_QP_STATUS_STATE 0 q != 0 && m.qpKey q == some g) ||
  (m.listed F.PEAT_GRAN.addr).any (fun x => (granOf x.2.toNat).state != 0 && (granOf x.2.toNat).crypt && (granOf x.2.toNat).keyPage == g)

/-- RELEASE (R382, R386): both slots are zeroed and the page's record goes with them. -/
def keyRelease (m : Mach) (p : Path) : Mach :=
  m.keyCmd p (fun m g =>
    let h := m.get F.CIPH_PAGE_STATUS_HERD 0 g
    if m.keyState g ≠ 1 ∧ m.keyState g ≠ 2 then m.keyRefuse p 1
    else if m.keyNamed g then m.keyRefuse p 0x0A
    else
      let m := m.setKeyPage g { cur := none, other := none, switchAt := 0, record := none }
      let m := (m.setReg (regKey F.CIPH_PAGE_STATUS_STATE.addr g) 0).set64 F.CIPH_PAGE_USED_LO 0 0 g
      let m := ((m.set F.CIPH_PAGE_LIMIT_LIMIT_LOG2 36 0 g).set F.CIPH_PAGE_CHECK_CUR 0 0 g).set F.CIPH_PAGE_CHECK_OTHER 0 0 g
      ((m.set64 F.CIPH_PAGE_REKEY_LO (2 ^ 64 - 1) 0 g).giveBack h resKeys 1).keyDone p)

/-! ## Ends of key changes -/

/-- The retiring key is zeroed and the page is ACTIVE (R382). -/
def keyRetire (m : Mach) (g : Nat) : Mach :=
  let own := m.get F.CIPH_PAGE_STATUS_HERD 0 g
  let m := m.setKeyPage g { m.keyPage g with other := none }
  let m := (m.set F.CIPH_PAGE_STATUS_STATE 2 0 g).set F.CIPH_PAGE_CHECK_OTHER 0 0 g
  m.raise 0x0A01 0x1FF own [own] g (m.get F.CIPH_PAGE_STATUS_EPOCH 0 g)

/-- KEY_RETIRE_TIMEOUT (R382): a WIRE page one lease period after its switch. -/
def keyRetireTimeout (m : Mach) (g : Nat) : Mach :=
  let since := (m.keyPage g).switchAt
  if m.keyState g = 4 ∧ m.get F.CIPH_PAGE_STATUS_KIND 0 g = 1 ∧ since + m.leaseAt since ≤ m.now then m.keyRetire g else m

/-- REKEY_WALK_DONE (R385): every sector of the page's granules is under the current key. -/
def rekeyDone (m : Mach) (g : Nat) : Mach :=
  if m.keyState g = 4 ∧ m.get F.CIPH_PAGE_STATUS_KIND 0 g = 2 then
    let own := m.get F.CIPH_PAGE_STATUS_HERD 0 g
    let m := ((m.keyRetire g).set64 F.CIPH_PAGE_REKEY_LO (2 ^ 64 - 1) 0 g).keyRecord g
    m.raise 0x0A03 0x1FF own [own] g (m.get F.CIPH_PAGE_STATUS_EPOCH 0 g)
  else m

/-! ## Engines and their randomness -/

/-- CIPHER_MISMATCH (R388): a block is computed again; on a second mismatch the frame or sector is dropped and the engine fenced. -/
def cipherMismatch (m : Mach) (e : Nat) (again : Bool) (loss : CipherLoss) : Mach :=
  if 4 ≤ e ∨ getBits (m.get F.CIPH_STATUS_PRESENT) e 1 = 0 ∨ m.bit F.CIPH_ENG_STATUS_FENCED e then m
  else
    let m := (m.inc F.CIPH_ENG_RECOMPUTED 1 e).fault (srcCiph e) kCorrected { unit := srcCiph e, detail := e }
    if again = false then m
    else
      let m : Mach := match loss with
        | .nothing => m
        | .frame k c => (m.putCiph { m.ciph with frames := m.ciph.frames ++ [(k, c)] })
        | .sector n => (m.putCiph { m.ciph with sectors := m.ciph.sectors ++ [n] })
      m.fault (srcCiph e) kFatal { unit := srcCiph e, detail := e }

/-- DRBG_RESEED (R390): from the entropy source while its tests pass, else the engine runs on without a reseed. -/
def drbgReseed (m : Mach) (e : Nat) : Mach :=
  if 4 ≤ e then m else m.set F.CIPH_ENG_STATUS_DRBG_ONLY (if m.bit F.CIPH_STATUS_ENTROPY_OK then 0 else 1) e

/-- ENTROPY_TEST_FAIL (R390, 16_faults.md R393): test 1 repetition count, 2 adaptive proportion. -/
def entropyTestFail (m : Mach) (test : Nat) : Mach :=
  let m := (m.set F.CIPH_STATUS_ENTROPY_OK 0).fault srcEntropy kFatal { unit := srcEntropy, detail := test }
  let m := (List.range 4).foldl (fun (m : Mach) e => m.set F.CIPH_ENG_STATUS_DRBG_ONLY 1 e) m
  m.raise 0x0A04 srcEntropy 0 m.liveHerds test 0

/-- DRBG_BLOCK_LIMIT (R390): 2^32 blocks without a reseed. -/
def drbgBlockLimit (m : Mach) (e : Nat) : Mach :=
  if 4 ≤ e ∨ m.bit F.CIPH_ENG_STATUS_DRBG_ONLY e = false ∨ m.bit F.CIPH_ENG_STATUS_FENCED e then m
  else (m.putCiph { m.ciph with selfFenced := m.ciph.selfFenced ++ [e] }).cipherFence e

/-- A cipher engine is in service again. -/
def cipherUnfence (m : Mach) (e : Nat) : Mach :=
  if m.ciph.selfFenced.contains e then m
  else (m.set F.CIPH_ENG_STATUS_FENCED 0 e).set F.CIPH_STATUS_FENCED (m.get F.CIPH_STATUS_FENCED &&& (15 ^^^ 2 ^ e))

/-- ENTROPY_SOURCE_PASS (R390): engines that fenced themselves reseed and run again, unless the collector holds them fenced. -/
def entropyPass (m : Mach) : Mach :=
  let es := m.ciph.selfFenced
  let m := (m.putCiph { m.ciph with selfFenced := [] }).set F.CIPH_STATUS_ENTROPY_OK 1
  es.foldl (fun (m : Mach) e =>
    let m := m.set F.CIPH_ENG_STATUS_DRBG_ONLY 0 e
    if 2 ≤ m.srcState (srcCiph e) then m else m.cipherUnfence e) m

end Mach

/-- KEY_PAGE_ASSIGN: KIND and HERD of the value written. -/
def execKeyPageAssign (p : Path) (value : Word) (s : State) : Host.Outcome State Fault Refusal := commit s (fun m => m.keyAssign p value.toNat)

/-- KEY_INSTALL: ASID of the value written. -/
def execKeyInstall (p : Path) (value : Word) (s : State) : Host.Outcome State Fault Refusal := commit s (fun m => m.keyInstall p value.toNat)

/-- KEY_INSTALL_COMPLETE. -/
def execKeyInstallComplete (t : Nat) (p : Path) (s : State) : Host.Outcome State Fault Refusal :=
  commit s (fun m => (m.advance t).engines (fun m => m.keyInstalled p))

/-- KEY_SWITCH. -/
def execKeySwitch (p : Path) (s : State) : Host.Outcome State Fault Refusal := commit s (fun m => m.keySwitchCmd p)

/-- KEY_PAGE_RELEASE. -/
def execKeyPageRelease (p : Path) (s : State) : Host.Outcome State Fault Refusal := commit s (fun m => m.keyRelease p)

/-- KEY_RETIRE_TIMEOUT. -/
def execKeyRetireTimeout (t page : Nat) (s : State) : Host.Outcome State Fault Refusal :=
  commit s (fun m => (m.advance t).engines (fun m => m.keyRetireTimeout page))

/-- REKEY_WALK_DONE. -/
def execRekeyWalkDone (t page : Nat) (s : State) : Host.Outcome State Fault Refusal :=
  commit s (fun m => (m.advance t).engines (fun m => m.rekeyDone page))

/-- CIPHER_MISMATCH. -/
def execCipherMismatch (t e : Nat) (again : Bool) (loss : CipherLoss) (s : State) : Host.Outcome State Fault Refusal :=
  commit s (fun m => (m.advance t).cipherMismatch e again loss)

/-- DRBG_RESEED. -/
def execDrbgReseed (t e : Nat) (s : State) : Host.Outcome State Fault Refusal := commit s (fun m => (m.advance t).drbgReseed e)

/-- ENTROPY_TEST_FAIL. -/
def execEntropyTestFail (t test : Nat) (s : State) : Host.Outcome State Fault Refusal := commit s (fun m => (m.advance t).entropyTestFail test)

/-- DRBG_BLOCK_LIMIT. -/
def execDrbgBlockLimit (t e : Nat) (s : State) : Host.Outcome State Fault Refusal := commit s (fun m => (m.advance t).drbgBlockLimit e)

/-- ENTROPY_SOURCE_PASS. -/
def execEntropySourcePass (t : Nat) (s : State) : Host.Outcome State Fault Refusal := commit s (fun m => (m.advance t).entropyPass)

end Sys2Proof.Machine
end

