-- ==== Sys2Proof/Machine/QpOps.lean ====
section
/-! DEFINITION. Queue pairs (11_best_effort_transport.md R289 to R303; 04_lodes_ordering.md R119): posting, cutting packets, acknowledgements, errors, and
placing what arrives. -/
namespace Sys2Proof.Machine

/-- Distance between PSNs, of 24 bits (R299). -/
def psnDist (a b : Nat) : Nat := (b + 2 ^ 24 - a % 2 ^ 24) % 2 ^ 24
def psnNext (a n : Nat) : Nat := (a + n) % 2 ^ 24

/-- Joins an interval to a set of intervals of bytes. -/
def ivJoin (l : List (Nat × Nat)) (lo hi : Nat) : List (Nat × Nat) :=
  let apart := l.filter (fun p => decide (p.2 < lo) || decide (hi < p.1))
  let touch := l.filter (fun p => !(decide (p.2 < lo) || decide (hi < p.1)))
  apart ++ [(touch.foldl (fun a p => min a p.1) lo, touch.foldl (fun a p => max a p.2) hi)]

/-- A packet with nothing in it. -/
def blankPacket : QpPacket :=
  { op := .ack, qpn := 0, psn := 0, first := true, last := true, path := 0, flag := false, restart := false, status := 0, msn := 0, msgLen := 0,
    offset := 0, cumPsn := 0, sack := 0, ceBytes := 0, txTime := 0, rkey := 0, va := 0, imm := none, payload := [], syndrome := 0, atomicOp := 0,
    operand := 0, compare := 0, ce := false, cipher := none }

/-- NAK codes (R297): PSN sequence error, Remote Invalid Request, Remote Access Error, Remote Operational Error. -/
def nakSeq : Nat := 0
def nakInvalid : Nat := 1
def nakAccess : Nat := 2
def nakOper : Nat := 3

/-- Status that a foreign peer's NAK code gives (R297). -/
def nakStatus (s : Nat) : Nat := if s = nakAccess then stBounds else if s = nakInvalid then stUnsupported else stUncorrectable

/-- NAK code that a status gives a foreign peer (R297). -/
def statusNak (st : Nat) : Nat :=
  if st = stUnsupported then nakInvalid else if [stClosed, stContext, stBounds, stXlate].contains st then nakAccess else nakOper

namespace Mach

/-! ## Configuration -/

/-- State of a queue pair: 0 FREE, 1 READY, 2 ERROR. A control connection is always READY (R290). -/
def qpState (m : Mach) (q : Nat) : Nat := if isCtl q then 1 else m.get F.BEQ_QP_STATUS_STATE 0 q

/-- Path MTU; a control connection's is a module peer's. -/
def qpMtu (m : Mach) (q : Nat) : Nat := if isCtl q then 16384 else max 1 (getBits (m.qpCfg q 5) 16 16)

/-- MAX_OUT in force (R299). -/
def qpMaxOut (m : Mach) (q : Nat) : Nat :=
  let n := if isCtl q then 0 else getBits (m.qpCfg q 5) 0 16
  if n = 0 then 1024 else min 16384 (max 16 n)

/-- READ_DEPTH. -/
def qpDepth (m : Mach) (q : Nat) : Nat := min 64 (max 1 (getBits (m.qpCfg q 4) 16 8))

/-- Relaxed mode (R119); control connections run in strict mode (R289). -/
def qpRelaxed (m : Mach) (q : Nat) : Bool := !isCtl q && getBits (m.qpCfg q 0) 8 1 == 1

/-- QPN of a peer for a queue pair (R289). -/
def qpPeerQpn (m : Mach) (q : Nat) : Nat := if isCtl q then 0x20000 + m.self else getBits (m.qpCfg q 1) 0 24

/-- The channel context of a queue pair (06_translation_windows.md R155, 14_herds.md R361): a writer outside the polder has no module. -/
def qpChan (m : Mach) (q : Nat) : Chan :=
  { herd := m.qpHerd q, src := if m.qpPeerTable q then none else some (m.qpPeer q), kind := 2, number := m.qpPeerQpn q % 0x10000 }

/-- The mirror region whose engine a queue pair belongs to, while it is RUNNING, SEALING or RECEIVING (10_memory.md R286). -/
def qpMirror (m : Mach) (q : Nat) : Option Nat :=
  if isCtl q then none
  else (List.range 64).find? (fun r => [1, 2, 3].contains (m.mirState r) && m.mirQp r == q)

/-- Keeps BEQ_QP_STATUS.OUT. -/
def qpOut (m : Mach) (q : Nat) : Mach := if isCtl q then m else m.set F.BEQ_QP_STATUS_OUT (m.qp q).sent.length 0 q

/-! ## Errors -/

/-- A queue pair as CREATE or RESET leaves it (R292). -/
def qpInit (m : Mach) (q : Nat) : Mach :=
  let m := m.setQp q { freshQp with psn := getBits (m.qpCfg q 2) 0 24, expect := getBits (m.qpCfg q 3) 0 24, heard := m.now, rateAt := m.now, sampleAt := m.now }
  let m := ((m.set F.BEQ_QP_STATUS_STATE 1 0 q).set F.BEQ_QP_STATUS_ERR_STATUS 0 0 q).qpOut q
  m.set F.BEQ_QP_RATE (m.refilled F.BEQ_CC_RATE_START * 1000) 0 q

/-- A mirror's queue pair fails (10_memory.md R285). -/
def mirrorFail (m : Mach) (r : Nat) : Mach :=
  let st := m.mirState r
  if st = 1 ∨ st = 2 then (m.set F.PEAT_MIR_STATUS_STATE 5 0 r).raise 0x0803 0x1FF (m.mirHerd r) [m.mirHerd r, 0] r (m.get64 F.PEAT_MIR_SEQ_LO 0 r)
  else if st = 3 then (m.set F.PEAT_MIR_STATUS_STATE 4 0 r).raise 0x0804 0x1FF (m.mirHerd r) [m.mirHerd r, 0] r (m.get F.PEAT_MIR_EPOCH 0 r)
  else m

/-- A control connection restarts (R290): send PSN 0, what is not acknowledged is sent again in its order with RESTART on the first packet. -/
def ctlRestart (m : Mach) (q : Nat) : Mach :=
  let x := m.qp q
  m.setQp q { x with
    psn := 0, sent := [], resend := [], restart := true, heard := m.now
    msgs := x.msgs.map (fun g => { g with cut := 0, wholly := false, firstPsn := 0, lastPsn := 0 }) }

/-- A queue pair enters ERROR (R292): every descriptor not yet completed completes with the status. -/
def qpError (m : Mach) (q status : Nat) : Mach :=
  if isCtl q then m.ctlRestart q
  else
    let x := m.qp q
    let m := (m.set F.BEQ_QP_STATUS_STATE 2 0 q).set F.BEQ_QP_STATUS_ERR_STATUS status 0 q
    let m := if status = stFlushed then m else m.fault srcBeq kFailed { status := status, unit := srcBeq, herd := m.qpHerd q, detail := q }
    let m := x.msgs.foldl (fun m g => match g.sq with | some (k, u) => m.complete k u status 0 0 | none => m) m
    let m := x.bufs.foldl (fun m b => m.complete b.sq b.uid status 0 0) m
    let m := x.rx.foldl (fun m g => match g.buf with | some b => m.complete b.sq b.uid status 0 0 | none => m) m
    let mir := m.qpMirror q
    let m := (m.setQp q { x with msgs := [], sent := [], resend := [], rx := [], replies := [], bufs := [] }).qpOut q
    match mir with
    | some r => m.mirrorFail r
    | none => m

/-! ## Posting -/

/-- Bytes of a queue pair not yet cut into packets, and those that wait to go again (R307). -/
def qpDepthBytes (m : Mach) (q : Nat) : Nat :=
  let x := m.qp q
  ((x.msgs.filter (fun g => !g.wholly)).map (fun g => g.len - g.cut)).foldl (· + ·) 0 +
    (x.resend.map (fun s => s.packet.payload.length)).foldl (· + ·) 0

/-- Whether high-water-mark mode is in force (R307): always in bring-up service. -/
def hwmMode (m : Mach) : Bool := m.bit F.BEQ_CTL_HWM || m.get F.CLK_BOOT_STEP == 9

/-- Depth in KiB and age in µs of what is queued behind a queue pair's pacer. -/
def qpQueued (m : Mach) (q : Nat) : Nat × Nat :=
  let d := m.qpDepthBytes q
  (min 0xFFFF (kib d), if d = 0 then 0 else min 0xFFFF ((m.now - (m.qp q).queuedSince) / us))

/-- Keeps the largest depth and age since BEQ_QP_HWM was read, in high-water-mark mode (R307). -/
def qpHigh (m : Mach) (q : Nat) : Mach :=
  if m.hwmMode = false ∨ isCtl q then m
  else
    let (d, a) := m.qpQueued q
    (m.set F.BEQ_QP_HWM_DEPTH (max d (m.get F.BEQ_QP_HWM_DEPTH 0 q)) 0 q).set F.BEQ_QP_HWM_AGE (max a (m.get F.BEQ_QP_HWM_AGE 0 q)) 0 q

/-- Whether a queue pair is owned by another herd than a queue's (R140). A FREE queue pair is owned by none. -/
def qpForeign (m : Mach) (k : Nat) (d : Desc) : Bool := m.qpState d.target != 0 && m.qpHerd d.target != m.sqHerd k

/-- A descriptor of a queue pair past its checks: a mirror's queue pair refuses it (10_memory.md R286), one in ERROR completes it with ERR_STATUS (R292).
For a FREE queue pair the spec names no status, so it is free. -/
def qpTake (m : Mach) (k : Nat) (d : Desc) (u : Nat) (f : Mach → Mach) : Mach :=
  let q := d.target
  if (m.qpMirror q).isSome then m.complete k u stUnsupported 0 0
  else if m.qpState q = 2 then m.complete k u (m.get F.BEQ_QP_STATUS_ERR_STATUS 0 q) 0 0
  else if m.qpState q = 1 then f m
  else
    let (v, m) := m.fresh
    m.complete k u (v.toNat % 256) 0 0

/-- The message of a descriptor. -/
def qpMsgOf (d : Desc) (k u : Nat) (kind : QpKind) : QpMsg :=
  { blankMsg with
    kind := kind, sq := some (k, u), va := d.bits 2 0 64, asid := d.asid
    len := if kind = .atomic then 0 else d.length
    segs := if kind = .atomic ∨ d.length = 0 then some [] else none
    window := d.bits 3 0 32, woffset := d.bits 4 0 64
    flag := if kind = .write ∧ d.flag then some (d.bits 5 0 32, d.bits 6 0 64, d.bits 7 0 64) else none
    imm := if kind = .send ∧ d.bits 3 32 1 = 1 then some (d.bits 3 0 32) else none
    atomicOp := d.bits 2 0 8, operand := d.bits 5 0 64, compare := d.bits 6 0 64 }

/-- Posts the message of a descriptor to its queue pair. -/
def qpSubmit (m : Mach) (k : Nat) (d : Desc) (u : Nat) (kind : QpKind) : Mach :=
  m.qpTake k d u (fun m => (m.qpPost d.target (qpMsgOf d k u kind)).qpHigh d.target)

/-- Posts a receive buffer (R294). -/
def qpRecv (m : Mach) (k : Nat) (d : Desc) (u : Nat) : Mach :=
  m.qpTake k d u (fun m =>
    let x := m.qp d.target
    m.setQp d.target { x with
      bufs := x.bufs ++ [{ sq := k, uid := u, va := d.bits 2 0 64, asid := d.asid, len := d.length, segs := if d.length = 0 then some [] else none }] })

/-- The transfer tile of a queue pair's oldest unchecked message (06_translation_windows.md R161): its source, or the destination of a READ. A tile that fails
completes the descriptor and nothing of it is sent. -/
def qpTile (m : Mach) (q : Nat) : Mach :=
  let x := m.qp q
  match x.msgs.find? (fun g => g.segs.isNone) with
  | none => m
  | some g =>
    let acc := if g.kind = .read then accWrite else accRead
    match m.tile (m.qpHerd q) g.asid acc srcBeq g.va g.len with
    | (m, .ok segs) => m.setQp q { x with msgs := x.msgs.map (fun y => if y = g then { g with segs := some segs } else y) }
    | (m, .error (st, a)) =>
      let m := m.setQp q { x with msgs := x.msgs.filter (fun y => y != g) }
      match g.sq with
      | some (k, u) => m.complete k u st 0 a
      | none => m

/-- The transfer tile of a queue pair's oldest unchecked receive buffer. -/
def qpBufTile (m : Mach) (q : Nat) : Mach :=
  let x := m.qp q
  match x.bufs.find? (fun b => b.segs.isNone) with
  | none => m
  | some b =>
    match m.tile (m.sqHerd b.sq) b.asid accWrite srcBeq b.va b.len with
    | (m, .ok segs) => m.setQp q { x with bufs := x.bufs.map (fun y => if y = b then { b with segs := some segs } else y) }
    | (m, .error (st, a)) => (m.setQp q { x with bufs := x.bufs.filter (fun y => y != b) }).complete b.sq b.uid st 0 a

/-! ## Sending -/

/-- Bytes of reply-class space that a READ or atomic reserves for its whole response (R301). -/
def replyNeed (g : QpMsg) : Nat := if g.kind = .read then g.len else 8

/-- Whether a message is a READ or an atomic that has been sent and not answered. -/
def replyOpen (g : QpMsg) : Bool := (g.kind == .read || g.kind == .atomic) && g.wholly

/-- Reply-class space reserved by all queue pairs. -/
def replyUsed (m : Mach) : Nat :=
  (m.beq.qps.flatMap (fun x => (x.2.msgs.filter replyOpen).map replyNeed)).foldl (· + ·) 0

/-- Whether a READ or atomic may leave (R301): fewer than READ_DEPTH are outstanding and its response has its space. A response larger than the pool takes
the whole pool (notes/assumptions/22.md). -/
def replyRoom (m : Mach) (q : Nat) (g : QpMsg) : Bool :=
  let pool := m.get F.RTE_POOL_ORIGIN_REPLY * 16384
  decide (((m.qp q).msgs.filter replyOpen).length < m.qpDepth q) && decide (m.replyUsed + min pool (replyNeed g) ≤ pool)

/-- The next message to cut: the oldest not wholly cut, if it may go on. -/
def qpCutting (m : Mach) (q : Nat) : Option QpMsg :=
  match (m.qp q).msgs.find? (fun g => !g.wholly) with
  | none => none
  | some g =>
    if g.segs.isNone ∨ g.rnrAt.isSome ∨ g.part = 2 then none
    else if (g.kind = .read ∨ g.kind = .atomic) ∧ m.replyRoom q g = false then none
    else some g

/-- Whether a queue pair has a request packet to send: READY, its key page open (15_cipher.md R384), a retransmission or room for a new packet. -/
def qpReady (m : Mach) (q : Nat) : Bool :=
  let x := m.qp q
  m.qpState q == 1 && (match m.qpKey q with | some p => m.keyOpen p | none => true) &&
  (!x.resend.isEmpty || (decide (x.sent.length < m.qpMaxOut q) && (m.qpCutting q).isSome))

/-- Encrypts a packet: the channel's next counter (15_cipher.md R373, R374). -/
def qpSeal (m : Mach) (q : Nat) (k : QpPacket) : Mach × QpPacket :=
  match m.qpKey q with
  | none => (m, k)
  | some p =>
    let x := m.qp q
    let k := { k with cipher := some (m.cipherHdr p 1 q x.counter) }
    ((m.setQp q { x with counter := x.counter + 1 }).wireCount p, k)

/-- The frame of a packet on a port (R337, R342): PCP by class and channel on a FABRIC port, the queue pair's PRIORITY elsewhere. -/
def qpFrame (m : Mach) (q p dl : Nat) (k : QpPacket) : BeFrame :=
  let f : BeFrame :=
    { epoch := m.epoch, pcp := 0, dest := if m.qpPeerTable q then none else some (m.qpPeer q), path := k.path, bytes := packetBytes k, ect := true
      body := .packet k }
  let c := beClass f
  let pcp := if isCtl q then 7 else if m.get F.PORT_ROLE_ROLE p = 1 then (if c = 3 then 7 else 2 * c + dl) else getBits (m.qpCfg q 0) 11 3
  { f with pcp := pcp }

/-- The next data packet of a message and the message after it (R294 to R296, R323). -/
def qpCut (m : Mach) (q : Nat) (g : QpMsg) (path : Nat) : Mach × QpPacket × QpMsg :=
  let x := m.qp q
  let msn := if g.cut = 0 ∧ g.part = 0 then x.msn else g.msn
  let mtu := m.qpMtu q
  let isModule := m.qpModulePeer q
  let base : QpPacket :=
    { blankPacket with
      qpn := m.qpPeerQpn q, psn := x.psn, path := path, msn := msn, txTime := m.now, restart := isCtl q && x.restart, rkey := g.window, va := g.woffset
      msgLen := g.len, atomicOp := g.atomicOp, operand := g.operand, compare := g.compare }
  match g.kind with
  | .read =>
    let n := max 1 ((g.len + mtu - 1) / mtu)
    (m, { base with op := .readReq }, { g with msn := msn, wholly := true, firstPsn := x.psn, lastPsn := psnNext x.psn (n - 1) })
  | .atomic => (m, { base with op := .atomicReq }, { g with msn := msn, wholly := true, firstPsn := x.psn, lastPsn := x.psn })
  | .write =>
    if g.part = 1 then
      (m, { base with op := .readReq, msgLen := 0 }, { g with part := 2, lastPsn := x.psn })
    else if g.part = 3 then
      match g.flag with
      | some (w, o, v) =>
        (m, { base with op := .write, rkey := w, va := o, msgLen := 8, payload := leBytes 8 v }, { g with wholly := true, lastPsn := x.psn })
      | none => (m, base, { g with wholly := true })
    else
      let (m, d) := m.readSegs (subSegs (g.segs.getD []) g.cut (min mtu (g.len - g.cut)))
      let isLast := decide (g.len ≤ g.cut + d.length)
      let tail := isLast && g.flag.isSome && isModule
      let k := { base with
        op := .write, first := g.cut == 0, last := isLast, offset := g.cut, va := g.woffset + g.cut, flag := tail
        payload := d ++ (match g.flag with | some f => if tail then trailer f else [] | none => []) }
      (m, k, { g with
        msn := msn, cut := g.cut + d.length, firstPsn := if g.cut = 0 then x.psn else g.firstPsn, lastPsn := x.psn
        wholly := isLast && !(g.flag.isSome && !isModule), part := if isLast && g.flag.isSome && !isModule then 1 else 0 })
  | .send =>
    let (m, d) := m.readSegs (subSegs (g.segs.getD []) g.cut (min mtu (g.len - g.cut)))
    let isLast := decide (g.len ≤ g.cut + d.length)
    (m, { base with op := .send, first := g.cut == 0, last := isLast, offset := g.cut, payload := d, imm := if isLast then g.imm else none },
      { g with msn := msn, cut := g.cut + d.length, firstPsn := if g.cut = 0 then x.psn else g.firstPsn, lastPsn := x.psn, wholly := isLast })
  | _ =>
    -- a control or mirror message is one packet of the module's own bytes
    (m, { base with op := .send, payload := g.data, msgLen := g.data.length },
      { g with msn := msn, cut := g.len, firstPsn := x.psn, lastPsn := x.psn, wholly := true })

/-- PSNs that a packet takes: a READ request takes those of its whole response. -/
def psnSpan (g : QpMsg) (k : QpPacket) : Nat := if k.op = .readReq ∧ g.kind = .read then psnDist g.firstPsn g.lastPsn + 1 else 1

/-- Sends the next request packet of a queue pair: a retransmission first, on the next path in rotation (R299), else the next of its messages. -/
def qpSendNext (m : Mach) (q p dl : Nat) : Mach × Option BeFrame :=
  let x := m.qp q
  let path := m.qpNextPath q
  let turn := (path + 1) % m.qpSpray q
  match x.resend with
  | s :: rest =>
    let k := { s.packet with path := path, txTime := m.now, restart := isCtl q && x.restart }
    let m := m.setQp q { x with
      resend := rest, turn := turn, restart := false
      sent := x.sent.map (fun y => if y.packet.psn == k.psn then { y with packet := k, port := p, at' := m.now } else y) }
    let m := m.inc F.BEQ_QP_RETX 1 0 q
    let (m, k) := m.qpSeal q k
    (m, some (m.qpFrame q p dl k))
  | [] =>
    match m.qpCutting q with
    | none => (m, none)
    | some g =>
      let (m, k, g') := m.qpCut q g path
      let new := g.cut == 0 && g.part == 0
      let x := m.qp q
      let m := (m.setQp q { x with
        msgs := x.msgs.map (fun y => if y = g then g' else y)
        sent := x.sent ++ [{ packet := k, msn := g'.msn, port := p, at' := m.now, tries := 0 }]
        psn := psnNext x.psn (psnSpan g' k), msn := if new then (x.msn + 1) % 2 ^ 32 else x.msn
        turn := turn, restart := false, queuedSince := if g'.wholly then m.now else x.queuedSince
        heard := if x.sent.isEmpty then m.now else x.heard }).qpOut q
      let (m, k) := m.qpSeal q k
      (m, some (m.qpFrame q p dl k))

/-! ## Acknowledgements at the sender -/

/-- The messages that are wholly sent and acknowledged complete (R119): a READ once its data has landed, an atomic with its answer (R145). -/
def qpSettleTx (m : Mach) (q : Nat) : Mach :=
  let x := m.qp q
  let isDone := fun (m : Mach) (g : QpMsg) =>
    g.wholly && !(x.sent.any (fun s => s.msn == g.msn)) &&
    (match g.kind with
      | .read => decide (g.len = 0) || (g.got == [(0, g.len)] && m.landed 2 (q + 2 ^ 20) g.msn)
      | .atomic => g.result.isSome
      | _ => true)
  let done := x.msgs.filter (isDone m)
  let m := m.setQp q { x with msgs := x.msgs.filter (fun g => !isDone m g) }
  done.foldl (fun m g => match g.sq with
    | some (k, u) => m.complete k u stDone (if g.kind = .atomic then 0 else g.len) (g.result.getD 0)
    | none => m) m

/-- A refused message: its descriptor completes with the status, and the queue pair enters ERROR (R292, R297). DETAIL names the window and the refusing
module where a window check gave the status (R145). -/
def qpRefuse (m : Mach) (q msn status : Nat) : Mach :=
  let x := m.qp q
  match x.msgs.find? (fun g => g.wholly && g.msn == msn || (g.cut != 0 && g.msn == msn)) with
  | none => m.qpError q status
  | some g =>
    let m := m.setQp q { x with msgs := x.msgs.filter (fun y => y != g) }
    let m := match g.sq with
      | some (k, u) => m.complete k u status 0 (winDetail g.window (if m.qpPeerTable q then 0xFFFF else m.qpPeer q))
      | none => m
    m.qpError q status

/-- Marks a sent packet for retransmission, unless RETRY of them are spent (R299). -/
def qpAgain (m : Mach) (q : Nat) (s : QpSent) : Mach :=
  let x := m.qp q
  if x.resend.any (fun y => y.packet.psn == s.packet.psn) then m
  else if m.get F.BEQ_RTX_RETRY ≤ s.tries then m.qpError q stRetryExhausted
  else
    let s' := { s with tries := s.tries + 1, at' := m.now }
    m.setQp q { x with resend := x.resend ++ [s'], sent := x.sent.map (fun y => if y.packet.psn == s.packet.psn then s' else y) }

/-- A round-trip sample (R302): the newest and the smallest of the interval. How SRTT and RTTVAR follow from the samples the spec does not say, so both take
free values (notes/assumptions/3.md). -/
def rttSample (m : Mach) (q rtt : Nat) : Mach :=
  let (a, m) := m.fresh
  let (b, m) := m.fresh
  let x := m.qp q
  let m := m.setQp q { x with srtt := a.toNat, rttvar := b.toNat, newest := some rtt, low := some (min rtt (x.low.getD rtt)) }
  if isCtl q then m else m.set F.BEQ_QP_RTT_LAST (min 0xFFFF (rtt / (100 * ns))) 0 q

/-- Takes acknowledged packets out. -/
def ackPackets (m : Mach) (q : Nat) (hit : QpSent → Bool) : Mach :=
  let x := m.qp q
  let gone := x.sent.filter (fun s => hit s && s.packet.op != .readReq && s.packet.op != .atomicReq)
  (m.setQp q { x with
    sent := x.sent.filter (fun s => !gone.contains s), resend := x.resend.filter (fun s => !(gone.any (fun y => y.packet.psn == s.packet.psn)))
    acked := x.acked + (gone.map (fun s => packetBytes s.packet)).foldl (· + ·) 0 }).qpOut q

/-- A module peer's ACK (R295, R299, R302): frees packets, samples the round trip, retransmits what SACK shows missing on a path, takes a refusal. -/
def ackModule (m : Mach) (q : Nat) (k : QpPacket) : Mach :=
  let sacked := fun (psn : Nat) =>
    let d := psnDist k.cumPsn psn
    decide (1 ≤ d) && decide (d ≤ 32) && k.sack / 2 ^ (d - 1) % 2 == 1
  let hit := fun (psn : Nat) => decide (2 ^ 23 ≤ psnDist k.cumPsn psn) || sacked psn
  let later := ((m.qp q).sent.filter (fun s => sacked s.packet.psn)).map (·.packet)
  let m := m.ackPackets q (fun s => hit s.packet.psn)
  let m := m.setQp q { m.qp q with ceAcked := (m.qp q).ceAcked + k.ceBytes }
  let m := if isCtl q then m else m.inc F.BEQ_QP_CE k.ceBytes 0 q
  let m := m.rttSample q (m.now - k.txTime)
  if k.status ≠ 0 then m.qpRefuse q k.msn k.status
  else
    let x := m.qp q
    -- a later PSN received on the same path shows a loss (R299)
    let lost := x.sent.filter (fun s => later.any (fun y => y.path == s.packet.path && decide (psnDist s.packet.psn y.psn < 2 ^ 23)))
    (lost.foldl (fun m s => m.qpAgain q s) m).qpSettleTx q

/-- A foreign peer's ACK covers every PSN up to its own (R302: a PSN sent once gives a sample). -/
def ackForeign (m : Mach) (q : Nat) (k : QpPacket) : Mach :=
  let covers := fun (s : QpSent) => decide (psnDist s.packet.psn k.psn < 2 ^ 23)
  let x := m.qp q
  let sample := (x.sent.filter covers).getLast?
  let m := m.ackPackets q covers
  let m := match sample with
    | some s => if s.tries = 0 then m.rttSample q (m.now - s.at') else m
    | none => m
  m.qpSettleTx q

/-- A NAK (R297, R299): a sequence error goes back to the PSN named; any other code refuses the message at its PSN. -/
def nakTake (m : Mach) (q : Nat) (k : QpPacket) : Mach :=
  let x := m.qp q
  if k.syndrome = nakSeq then
    (x.sent.filter (fun s => decide (psnDist k.psn s.packet.psn < 2 ^ 23))).foldl (fun m s => m.qpAgain q s) m
  else
    let msn := ((x.sent.find? (fun s => s.packet.psn == k.psn)).map (·.msn)).getD 0
    m.qpRefuse q msn (nakStatus k.syndrome)

/-- A receiver-not-ready NAK (R299): the SEND is retried after 10 µs, RNR_RETRY times at most. -/
def rnrTake (m : Mach) (q : Nat) (k : QpPacket) : Mach :=
  let x := m.qp q
  let s? := x.sent.find? (fun s => s.packet.psn == k.psn)
  match s? with
  | none => m
  | some s =>
    match x.msgs.find? (fun g => g.msn == s.msn && decide (g.cut ≠ 0 ∨ g.wholly)) with
    | none => m
    | some g =>
      if m.get F.BEQ_RTX_RNR_RETRY ≤ g.rnr then m.qpError q stRetryExhausted
      else m.setQp q { x with msgs := x.msgs.map (fun y => if y = g then { g with rnr := g.rnr + 1, rnrAt := some (m.now + 10 * us) } else y) }

/-- QP_RNR_RETRY (R299): the packets of the SEND go again. -/
def rnrRetry (m : Mach) (q : Nat) : Mach :=
  let x := m.qp q
  match x.msgs.find? (fun g => match g.rnrAt with | some a => decide (a ≤ m.now) | none => false) with
  | none => m
  | some g =>
    let again := x.sent.filter (fun s => s.msn == g.msn && !(x.resend.any (fun y => y.packet.psn == s.packet.psn)))
    m.setQp q { x with msgs := x.msgs.map (fun y => if y = g then { g with rnrAt := none } else y), resend := x.resend ++ again }

/-- RTO of a packet (R299): doubled with each retransmission of it. -/
def qpRto (m : Mach) (q tries : Nat) : Nat :=
  let x := m.qp q
  max (m.get F.BEQ_RTX_RTO_MIN * us) (x.srtt + 4 * x.rttvar) * 2 ^ tries

/-- QP_RTO_EXPIRE (R299): the oldest packet unacknowledged for its RTO goes again. A request answered by data is unacknowledged until its answer is whole. -/
def rtoExpire (m : Mach) (q : Nat) : Mach :=
  let x := m.qp q
  let waits := fun (s : QpSent) => (x.msgs.find? (fun g => g.msn == s.msn && g.rnrAt.isSome)).isSome
  match x.sent.find? (fun s => !waits s && !(x.resend.any (fun y => y.packet.psn == s.packet.psn)) && decide (s.at' + m.qpRto q s.tries ≤ m.now)) with
  | some s => m.qpAgain q s
  | none => m

/-- QP_LEASE_TIMEOUT (R292): packets are outstanding and nothing has come from the peer for a lease period. -/
def qpLease (m : Mach) (q : Nat) : Mach :=
  let x := m.qp q
  if m.qpState q = 1 ∧ x.sent.isEmpty = false ∧ x.heard + m.leaseAt x.heard ≤ m.now then m.qpError q stRemoteTimeout else m

/-! ## The receiver -/

/-- Puts a packet of the reply class out. -/
def qpReply (m : Mach) (q : Nat) (k : QpPacket) : Mach :=
  let x := m.qp q
  m.setQp q { x with replies := x.replies ++ [{ k with qpn := m.qpPeerQpn q, txTime := if k.op = .ack then k.txTime else m.now }] }

/-- An ACK as it stands (R295): the lowest PSN not received, SACK, CE bytes since the last, TX_ECHO. -/
def qpAck (m : Mach) (q msn status : Nat) : Mach :=
  let x := m.qp q
  let sack := (List.range 32).foldl (fun n i => if x.above.contains (psnNext x.expect (1 + i)) then n + 2 ^ i else n) 0
  let k := { blankPacket with
    op := .ack, psn := psnNext x.expect (2 ^ 24 - 1), msn := msn, status := status, cumPsn := x.expect, sack := sack, ceBytes := x.ceSince, txTime := x.txEcho }
  (m.setQp q { x with unacked := 0, ackSince := none, ceSince := 0 }).qpReply q k

/-- Refuses a message of the peer (R297): the exact status to a module, a NAK code to a foreign peer. -/
def qpDeny (m : Mach) (q msn psn status : Nat) : Mach :=
  if m.qpModulePeer q then m.qpAck q msn status else m.qpReply q { blankPacket with op := .nak, psn := psn, syndrome := statusNak status }

/-- Notes a PSN as received (R299). -/
def psnTake (x : Qp) (psn : Nat) : Qp :=
  let above := psn :: x.above
  let run := ((List.range (above.length + 1)).find? (fun i => !above.contains (psnNext x.expect i))).getD 0
  { x with expect := psnNext x.expect run, above := above.filter (fun p => decide (run ≤ psnDist x.expect p)) }

/-- The message in progress with an MSN. -/
def rxMsg (x : Qp) (msn : Nat) : Option QpIn := x.rx.find? (fun g => g.msn == msn)

/-- Replaces or adds a message in progress, in MSN order. -/
def rxSet (x : Qp) (g : QpIn) : Qp :=
  if x.rx.any (fun y => y.msn == g.msn) then { x with rx := x.rx.map (fun y => if y.msn == g.msn then g else y) }
  else
    { x with rx := x.rx.filter (fun y => decide (seqDist x.rxMsn y.msn < seqDist x.rxMsn g.msn)) ++
        g :: x.rx.filter (fun y => !decide (seqDist x.rxMsn y.msn < seqDist x.rxMsn g.msn)) }

/-- Fails a message in progress with a status that its sender learns. -/
def rxDeny (m : Mach) (q : Nat) (g : QpIn) (psn status : Nat) : Mach :=
  (m.setQp q (rxSet (m.qp q) { g with fail := some status, held := [] })).qpDeny q g.msn psn status

/-- Hands over bytes of a message at their offset (R119, R295): to the window's range, the receive buffer, a herd page, or the module's own engine. -/
def rxHand (m : Mach) (q : Nat) (g : QpIn) (off : Nat) (d : List Byte) : Mach × QpIn :=
  let g := { g with got := if d.isEmpty then g.got else ivJoin g.got off (off + d.length) }
  if g.own then (m, { g with data := g.data ++ d })
  else if g.buf.isSome then (m.writeSegs g.herd g.asid 2 q g.msn false (subSegs g.segs off d.length) d, g)
  else if doorbellBase ≤ g.window then
    let a := herdPage g.herd + g.base + off
    let op : FabricOp := { herd := g.herd, addr := a, len := d.length, value := some (leNat (d.take 4)), qp := none, access := none }
    (if d.isEmpty then m else (m.putFabric (m.fabric ++ [op])), g)
  else (m.writeSegs g.herd g.asid 2 q g.msn false (subSegs g.segs off d.length) d, g)

/-- Whether every byte of a message has been handed over. -/
def rxAll (g : QpIn) : Bool := match g.len with | some n => decide (n = 0) || g.got == [(0, n)] | none => false

/-- The oldest messages resolve in order (R119): complete, landed, their flag written; a receive buffer completes; in strict mode the next message's packets are
handed over. -/
def qpSettleRx (m : Mach) (q : Nat) : Nat → Mach
  | 0 => m
  | fuel + 1 =>
    let x := m.qp q
    match rxMsg x x.rxMsn with
    | none => m
    | some g =>
      let next := fun (m : Mach) =>
        let x := m.qp q
        qpSettleRx (m.setQp q { x with rx := x.rx.filter (fun y => y.msn != g.msn), rxMsn := (g.msn + 1) % 2 ^ 32 }) q fuel
      if g.fail.isSome then next m
      else
        -- the packets held for the message order come first
        let (m, g) := g.held.foldl (fun (s : Mach × QpIn) h => s.1.rxHand q s.2 h.1 h.2) (m, { g with held := [] })
        let m := m.setQp q (rxSet (m.qp q) g)
        if rxAll g = false ∨ m.landed 2 q g.msn = false then m
        else
          match g.flag with
          | some (segs, v, h, a) =>
            if g.flagDone then next m
            else
              let m := if segs.isEmpty then m.regFault (.fabric h) (herdPage h) true else m.writeSegs h a 2 q g.msn false segs (leBytes 8 v)
              qpSettleRx (m.setQp q (rxSet (m.qp q) { g with flagDone := true })) q fuel
          | none =>
            let m := match g.buf with
              | some b => m.complete b.sq b.uid stDone (g.len.getD 0) (match g.imm with | some i => i + 2 ^ 32 | none => 0)
              | none => m
            let m := if g.own then
                (if isCtl q then (m.putBeq { m.beq with ctl := m.beq.ctl ++ [{ src := m.qpPeer q, bytes := g.data }] })
                 else (m.putMem { m.mem with mirIn := m.mem.mirIn ++ [(q, g.data)] }))
              else m
            next m

/-- A new message of the peer with an MSN. -/
def newIn (msn : Nat) (k : QpPacket) : QpIn :=
  { msn := msn, op := k.op, len := none, window := k.rkey, base := 0, arrival := 0, herd := 0, asid := 0, segs := [], buf := none, own := false, data := [],
    got := [], flag := none, flagDone := false, imm := none, fail := none, held := [] }

/-- How a first packet of a message is taken: as a message in progress, refused with a status, or not at all for want of a receive buffer. -/
inductive Opened where
  | ok (g : QpIn)
  | deny (status : Nat)
  | notReady
  deriving DecidableEq, Repr

/-- Takes the first receive buffer of RECV_SQ (R294) for a message. A message longer than the buffer is refused; the spec names no status for it, so the
status is free. -/
def takeBuf (m : Mach) (q : Nat) (g : QpIn) (len : Nat) : Mach × Opened :=
  let x := m.qp q
  let recvSq := getBits (m.qpCfg q 7) 0 12
  match x.bufs.find? (fun b => b.sq == recvSq && b.segs.isSome) with
  | none => (m, .notReady)
  | some b =>
    if b.len < len then
      let (v, m) := m.fresh
      (m, .deny (1 + v.toNat % 255))
    else
      (m.setQp q { x with bufs := x.bufs.filter (fun y => y != b) },
        .ok { g with buf := some b, segs := b.segs.getD [], herd := m.sqHerd b.sq, asid := b.asid })

/-- Opens a message at its first arriving packet (R162, R294): its buffer, or the window check of its whole range. -/
def rxOpen (m : Mach) (q msn : Nat) (k : QpPacket) : Mach × Opened :=
  let g := newIn msn k
  let isModule := m.qpModulePeer q
  if k.op = .send then
    if isCtl q ∨ (m.qpMirror q).isSome then (m, .ok { g with own := true, len := some k.payload.length })
    else
      match m.takeBuf q g (if isModule then k.msgLen else k.payload.length) with
      | (m, .ok g) => (m, .ok { g with len := if isModule then some k.msgLen else none })
      | r => r
  else
    let len := k.msgLen
    let g := { g with len := some len, base := (k.va - k.offset) % 2 ^ 48 }
    if len = 0 then (m, .ok g)
    else
      match m.windowCheck (m.qpChan q) k.rkey (k.va - k.offset) len accWrite false none with
      | (m, .ok c) => (m, .ok { g with arrival := c.arrival, herd := c.herd, asid := c.asid, segs := c.segs })
      | (m, .error st) => (m, .deny st)

/-- Whether the request origin pool is more than half full (R345). -/
def requestHalf (m : Mach) : Bool :=
  let held := (m.beq.qps.flatMap (fun x => x.2.rx.flatMap (fun g => g.held.map (fun h => h.2.length)))).foldl (· + ·) 0
  decide (m.get F.RTE_POOL_ORIGIN_REQUEST * 16384 < 2 * held)

/-- The window check of a trailer's flag (R108, R168): within its own window, as an 8-byte write. -/
def rxTail (m : Mach) (q : Nat) (g : QpIn) (k : QpPacket) : Mach × Except Nat QpIn :=
  if k.flag = false then (m, .ok g)
  else
    let t := k.payload.drop (k.payload.length - 24)
    match m.windowCheck (m.qpChan q) (leAt t 0 4) (leAt t 8 8) 8 accWrite false (if g.arrival = 0 then none else some g.arrival) with
    | (m, .error st) => (m, .error st)
    | (m, .ok c) => (m, .ok { g with flag := some (c.segs, leAt t 16 8, c.herd, c.asid) })

/-- A data packet of a SEND or WRITE (R119, R162, R294, R295, R345). The answer says whether the packet is taken. -/
def rxData (m : Mach) (q : Nat) (k : QpPacket) : Mach × Bool :=
  let x := m.qp q
  let isModule := m.qpModulePeer q
  -- a foreign peer's messages follow one another
  let msn := if isModule then k.msn else (x.rx.getLast?.map (fun g => if k.first then (g.msn + 1) % 2 ^ 32 else g.msn)).getD x.rxMsn
  if seqLe x.rxMsn msn = false then (m, true)
  else
    let opened : Mach × Opened := match rxMsg x msn with
      | some g => (m, .ok g)
      | none => m.rxOpen q msn k
    match opened with
    | (m, .notReady) => ((m.inc F.RTE_EJECT_DROP).qpReply q { blankPacket with op := .rnrNak, psn := k.psn }, false)
    | (m, .deny st) => (m.rxDeny q (newIn msn k) k.psn st, true)
    | (m, .ok g) =>
      if g.fail.isSome then (m, true)
      else
        let d := if k.flag then k.payload.take (k.payload.length - 24) else k.payload
        let off := if isModule then k.offset else (g.got.map (fun p => p.2)).foldl max 0
        -- a write's last packet with an immediate takes a receive buffer (R294); a foreign SEND's length is known at its end
        let (m, withBuf) : Mach × Opened := if k.op = .writeImm then m.takeBuf q g 0 else (m, .ok g)
        match withBuf with
        | .notReady => ((m.inc F.RTE_EJECT_DROP).qpReply q { blankPacket with op := .rnrNak, psn := k.psn }, false)
        | .deny st => (m.rxDeny q g k.psn st, true)
        | .ok g' =>
          let imm := if k.imm.isSome then k.imm else g.imm
          let g1 := if k.op = .writeImm then { g with imm := imm } else { g' with imm := imm }
          let g1 := if isModule = false ∧ k.op = .send ∧ k.last then { g1 with len := some (off + d.length) } else g1
          let beyond := match g1.buf with | some b => decide (b.len < off + d.length) | none => false
          if beyond then
            let (v, m) := m.fresh
            (m.rxDeny q g1 k.psn (1 + v.toNat % 255), true)
          else
            match m.rxTail q g1 k with
            | (m, .error st) => (m.rxDeny q g1 k.psn st, true)
            | (m, .ok g1) =>
              -- the buffer that an immediate consumed completes by itself
              let m := match withBuf, k.op with
                | .ok gi, .writeImm => (match gi.buf with
                    | some b => m.complete b.sq b.uid stDone (g1.len.getD 0) (match k.imm with | some i => i + 2 ^ 32 | none => 0)
                    | none => m)
                | _, _ => m
              let wait := !m.qpRelaxed q && decide (msn ≠ x.rxMsn)
              if wait ∧ m.requestHalf then (m.inc F.RTE_EJECT_DROP, false)
              else if wait then (m.setQp q (rxSet (m.qp q) { g1 with held := g1.held ++ [(off, d)] }), true)
              else
                let (m, g1) := m.rxHand q g1 off d
                (m.setQp q (rxSet (m.qp q) g1), true)

/-- The responses of a READ in packets of the path MTU (R294, R295). -/
def readResponses (m : Mach) (q : Nat) (k : QpPacket) (d : List Byte) : Mach :=
  let mtu := m.qpMtu q
  let n := max 1 ((d.length + mtu - 1) / mtu)
  (List.range n).foldl (fun m i =>
    m.qpReply q { blankPacket with
      op := .readResp, psn := psnNext k.psn i, msn := k.msn, first := i == 0, last := i + 1 == n, path := k.path, msgLen := d.length, offset := i * mtu
      va := k.va + i * mtu, payload := (d.drop (i * mtu)).take mtu }) m

/-- Responder contexts in use: READs and atomics whose answers wait to leave (R345). -/
def respInUse (m : Mach) (q : Nat) : Nat :=
  ((m.qp q).replies.filter (fun r => (r.op == .readResp && r.last) || r.op == .atomicResp)).length

/-- Marks a READ or atomic of the peer as resolved in the message order. -/
def rxResolved (m : Mach) (q : Nat) (k : QpPacket) (fail : Option Nat) : Mach :=
  let x := m.qp q
  let msn := if m.qpModulePeer q then k.msn else (x.rx.getLast?.map (fun g => (g.msn + 1) % 2 ^ 32)).getD x.rxMsn
  if seqLe x.rxMsn msn then m.setQp q (rxSet x { newIn msn k with len := some 0, fail := fail }) else m

/-- A READ request (R294, R298): through its window; a READ of a doorbell window answers the register's value (R133). -/
def rxRead (m : Mach) (q : Nat) (k : QpPacket) (again : Bool) : Mach × Bool :=
  if m.qpDepth q ≤ m.respInUse q then (m.inc F.RTE_EJECT_DROP, false)
  else if k.msgLen = 0 then
    let m := m.readResponses q k []
    (if again then m else m.rxResolved q k none, true)
  else
    match m.windowCheck (m.qpChan q) k.rkey k.va k.msgLen accRead false none with
    | (m, .error st) => (((if again then m else m.rxResolved q k (some st)).qpDeny q k.msn k.psn st), true)
    | (m, .ok c) =>
      let m := if again then m else m.rxResolved q k none
      if doorbellBase ≤ k.rkey then
        let op : FabricOp :=
          { herd := c.herd, addr := herdPage c.herd + k.va % 2 ^ 48, len := k.msgLen, value := none, qp := some (q, k), access := none }
        ((m.putFabric (m.fabric ++ [op])), true)
      else
        let (m, d) := m.readSegs c.segs
        (m.readResponses q k d, true)

/-- An atomic request (R298): performed once at the Peat controller, its result kept; a duplicate is answered from the store. -/
def rxAtomic (m : Mach) (q : Nat) (k : QpPacket) (again : Bool) : Mach × Bool :=
  let answer := fun (m : Mach) (v : Nat) => m.qpReply q { blankPacket with op := .atomicResp, psn := k.psn, msn := k.msn, path := k.path, operand := v }
  if again then
    match alGet (m.qp q).results k.psn with
    | some v => (answer m v, true)
    | none => (m, true)
  else if m.qpDepth q ≤ m.respInUse q then (m.inc F.RTE_EJECT_DROP, false)
  else
    let deny := fun (m : Mach) st => ((m.rxResolved q k (some st)).qpDeny q k.msn k.psn st, true)
    match m.windowCheck (m.qpChan q) k.rkey k.va 8 accAtomic false none with
    | (m, .error st) => deny m st
    | (m, .ok c) =>
      match c.segs with
      | s :: _ =>
        if s.target ≠ 0 then deny m stUnsupported
        else
          let old := leNat (m.rdBytes .peat s.addr 8)
          let new := if k.atomicOp = 1 then (old + k.operand) % 2 ^ 64 else if old = k.compare then k.operand else old
          let m := (m.dirtyLog c.herd c.asid s.va 8).peatWrite s.addr (leBytes 8 new) false
          let x := m.qp q
          let kept := (x.results ++ [(k.psn, old)]).drop (x.results.length + 1 - m.qpDepth q)
          let m := m.setQp q { x with results := kept }
          (answer (m.rxResolved q k none) old, true)
      | [] => deny m stUnsupported

/-- A packet whose PSN has been received already (R298, R299): discarded, counted, acknowledged or answered again. -/
def rxDup (m : Mach) (q : Nat) (k : QpPacket) : Mach :=
  let m := m.inc F.BEQ_DUP
  if k.op = .readReq then (m.rxRead q k true).1
  else if k.op = .atomicReq then (m.rxAtomic q k true).1
  else m.qpAck q k.msn 0

/-- Acknowledges a taken packet (R299): every 4 data packets to a module peer; to a foreign peer at the end of a message. -/
def rxAckDue (m : Mach) (q : Nat) (k : QpPacket) : Mach :=
  let x := m.qp q
  if m.qpModulePeer q = false then (if k.last then m.qpAck q k.msn 0 else m)
  else if 4 ≤ x.unacked + 1 then m.qpAck q k.msn 0
  else m.setQp q { x with unacked := x.unacked + 1, ackSince := some (x.ackSince.getD m.now) }

/-- A packet of a READ response or atomic answer reaches its request (R294 to R296). -/
def rxAnswer (m : Mach) (q : Nat) (k : QpPacket) : Mach :=
  let x := m.qp q
  let mine := fun (g : QpMsg) =>
    if m.qpModulePeer q then (g.kind == .read || g.kind == .atomic) && g.wholly && g.msn == k.msn
    else decide (g.cut ≠ 0 ∨ g.wholly) && decide (psnDist g.firstPsn k.psn ≤ psnDist g.firstPsn g.lastPsn)
  match x.msgs.find? mine with
  | none => m
  | some g =>
    let put := fun (m : Mach) (g' : QpMsg) =>
      let x := m.qp q
      m.setQp q { x with msgs := x.msgs.map (fun y => if y = g then g' else y) }
    let answered := fun (m : Mach) =>
      let x := m.qp q
      (m.setQp q { x with sent := x.sent.filter (fun s => !(s.msn == g.msn && (s.packet.op == .readReq || s.packet.op == .atomicReq))) }).qpOut q
    match g.kind with
    | .write => if g.part = 2 then (put (answered m) { g with part := 3 }) else m
    | .atomic => (answered (put m { g with result := some k.operand })).qpSettleTx q
    | .read =>
      let off := if m.qpModulePeer q then k.offset else psnDist g.firstPsn k.psn * m.qpMtu q
      let d := k.payload.take (g.len - off)
      let m := m.writeSegs (m.qpHerd q) g.asid 2 (q + 2 ^ 20) g.msn false (subSegs (g.segs.getD []) off d.length) d
      let g' := { g with got := if d.isEmpty then g.got else ivJoin g.got off (off + d.length) }
      let m := put m g'
      if g.len = 0 ∨ g'.got = [(0, g.len)] then (answered m).qpSettleTx q else m
    | _ => m

/-- RESTART on a control connection (R290): the expected PSN is this packet's, a partial message goes, and this direction restarts in the same way. -/
def ctlRestarted (m : Mach) (q : Nat) (k : QpPacket) : Mach :=
  let x := m.qp q
  (m.setQp q { x with expect := k.psn, above := [], rx := [], rxMsn := k.msn }).ctlRestart q

/-- A packet of a queue pair arrives (R292 to R299, R303). -/
def qpReceive (m : Mach) (q : Nat) (k : QpPacket) : Mach :=
  if m.qpState q ≠ 1 then m.inc F.BEQ_DROP
  else
    let (m, ok) := match m.qpKey q with
      | none => (m, true)
      | some p => (match k.cipher with | some c => m.openFrame p c | none => (m, false))
    if ok = false then m
    else
      let x := m.qp q
      let m := m.setQp q { x with heard := m.now }
      match k.op with
      | .ack => if m.qpModulePeer q then m.ackModule q k else m.ackForeign q k
      | .nak => m.nakTake q k
      | .rnrNak => m.rnrTake q k
      | .cnp => (m.setQp q { m.qp q with cnps := (m.qp q).cnps + 1 }).inc F.BEQ_QP_CE 1 0 q
      | .readResp => m.rxAnswer q k
      | .atomicResp => m.rxAnswer q k
      | .other => (m.inc F.BEQ_DROP).qpReply q { blankPacket with op := .nak, psn := k.psn, syndrome := nakInvalid }
      | _ =>
        let m := if isCtl q ∧ k.restart then m.ctlRestarted q k else m
        let isModule := m.qpModulePeer q
        -- a foreign peer's CE mark answers with a CNP, at most once every 4 µs (R303)
        let m := if k.ce = false then m
          else if isModule then m.setQp q { m.qp q with ceSince := (m.qp q).ceSince + packetBytes k }
          else if (match (m.qp q).cnpAt with | some a => decide (m.now < a + 4 * us) | none => false) then m
          else (m.setQp q { m.qp q with cnpAt := some m.now }).qpReply q { blankPacket with op := .cnp }
        let x := m.qp q
        let d := psnDist x.expect k.psn
        if 2 ^ 23 ≤ d ∨ x.above.contains k.psn then m.rxDup q k
        else if isModule = false ∧ d ≠ 0 then m.qpReply q { blankPacket with op := .nak, psn := x.expect, syndrome := nakSeq }
        else if 16384 ≤ d then m.inc F.BEQ_DROP
        else
          let (m, taken) := if k.op = .readReq then m.rxRead q k false else if k.op = .atomicReq then m.rxAtomic q k false else m.rxData q k
          if taken = false then m
          else
            let span := if k.op = .readReq then max 1 ((k.msgLen + m.qpMtu q - 1) / m.qpMtu q) else 1
            let x := m.qp q
            let x := (List.range span).foldl (fun x i => psnTake x (psnNext k.psn i)) { x with txEcho := k.txTime }
            let m := (m.setQp q x).rxAckDue q k
            m.qpSettleRx q 66

/-- QP_ACK_TIMER (R299): 2 µs after the first unacknowledged packet of a module peer. -/
def ackTimer (m : Mach) (q : Nat) : Mach :=
  match (m.qp q).ackSince with
  | some a => if a + 2 * us ≤ m.now then m.qpAck q (((m.qp q).rxMsn + 2 ^ 32 - 1) % 2 ^ 32) 0 else m
  | none => m

/-- A write has landed (04_lodes_ordering.md R112): what waits for it goes on. A write to accelerator memory is acknowledged by its port (12_ports_mac.md
R322). -/
def memAck (m : Mach) (id : Nat) : Mach :=
  match m.mem.writes.find? (fun w => w.id == id) with
  | none => m
  | some w =>
    let m := (m.putMem { m.mem with writes := m.mem.writes.filter (fun y => y.id != id) })
    if w.kind ≠ 2 then m else if 2 ^ 20 ≤ w.chan then m.qpSettleTx (w.chan - 2 ^ 20) else m.qpSettleRx w.chan 66

end Mach
end Sys2Proof.Machine
end

