-- ==== Sys2Proof/Machine/BeqOps.lean ====
section
/-! DEFINITION. The best-effort scheduler, refills, rate control and samples (11_best_effort_transport.md R302 to R307, 13_routing_deadlock.md R347,
14_herds.md R360), the commands of a queue pair (R292, R293), and violation reports at the writer (14_herds.md R361, R485). -/
namespace Sys2Proof.Machine
namespace Mach

/-! ## The scheduler -/

/-- Client number of the dynamic collectives (R304). -/
def dynClient : Nat := 256

/-- Port and channel on which a queue pair's next request packet leaves. -/
def qpPort (m : Mach) (q : Nat) : Option (Nat × Nat) := m.qpRoute q (m.qpNextPath q)

/-- Queue pairs, other than control connections, with a request packet for a port. -/
def qpsOn (m : Mach) (p : Nat) : List Nat :=
  (m.beq.qps.map (·.1)).filter (fun q => !isCtl q && m.qpReady q && (match m.qpPort q with | some r => r.1 == p | none => false))

/-- Chunk frames of dynamic groups for a port. -/
def dynOn (m : Mach) (p : Nat) : List (Nat × ChunkFrame) :=
  m.beq.dyn.filter (fun d => match m.originRoute d.1 0 with | some r => r.1 == p | none => false)

/-- Backlogged clients of a port. -/
def clientsOn (m : Mach) (p : Nat) : List Nat :=
  ((m.qpsOn p).map (fun q => m.qpHerd q)).eraseDups ++ (if (m.dynOn p).isEmpty then [] else [dynClient])

/-- Weight of a client (R304, R360; a weight of 0 acts as 1). -/
def clientWeight (m : Mach) (p c : Nat) : Nat :=
  max 1 (if c = dynClient then m.refilled F.BEQ_PORT_SCHED_COLL_WEIGHT p else m.refilled F.QE_HERD_BE_WEIGHT 0 c)

/-- Rate limit of a client in Mb/s; 0 is none. -/
def clientRate (m : Mach) (c : Nat) : Nat := if c = dynClient then 0 else m.refilled F.QE_HERD_BE_RATE 0 c * 100

/-- Whether a client's rate limiter has credit on a port (R305, R306). -/
def clientCredit (m : Mach) (p c : Nat) : Bool := m.clientRate c == 0 || decide (0 < (alGet m.beq.credit (p * 512 + c)).getD 0)

/-- Pacer burst: two packets (R302). -/
def pacerBurst (m : Mach) (q : Nat) : Int := (2 * packetBytes { blankPacket with payload := List.replicate (m.qpMtu q) 0 } : Nat) * 8000

/-- Queue pairs of a herd that may send on a port: their pacer has credit. -/
def qpsEligible (m : Mach) (p h : Nat) : List Nat := (m.qpsOn p).filter (fun q => m.qpHerd q == h && decide (0 < (m.qp q).pacer))

/-- Bytes of the next frame of a queue pair, as the scheduler compares it. -/
def qpNextBytes (m : Mach) (q : Nat) : Nat :=
  match m.qp q with
  | x =>
    match x.resend with
    | s :: _ => packetBytes s.packet
    | [] =>
      match m.qpCutting q with
      | none => 0
      | some g => packetBytes (m.qpCut q g 0).2.1

/-- The queue pair of a herd with the smallest finish tag (R304); the lower number wins a tie. -/
def qpPick (m : Mach) (p h : Nat) : Option Nat :=
  let v := (alGet m.beq.vherd (p * 512 + h)).getD 0
  let fin := fun q => (m.qp q).tag.getD v + 65536 * m.charged p (m.qpNextBytes q) / max 1 (getBits (m.qpCfg q 6) 0 8)
  (m.qpsEligible p h).foldl (fun (b : Option Nat) q => match b with
    | none => some q
    | some c => if fin q < fin c ∨ (fin q = fin c ∧ q < c) then some q else some c) none

/-- Frame of a chunk of a dynamic group: a best-effort Chaennis frame, PATH 0 (R337, R342). -/
def dynFrame (m : Mach) (dest dl : Nat) (c : ChunkFrame) : BeFrame :=
  { epoch := m.epoch, pcp := 2 + dl, dest := some dest, path := 0, bytes := chaennisBytes (chunkPayload c) c.cipher.isSome + 4, ect := false, body := .chunk c }

/-- Bytes that a client would send next on a port. -/
def clientNext (m : Mach) (p c : Nat) : Option Nat :=
  if c = dynClient then
    match m.dynOn p with
    | d :: _ => if m.heldBy p 2 then none else some (m.dynFrame d.1 0 d.2).bytes
    | [] => none
  else (m.qpPick p c).map (fun q => m.qpNextBytes q)

/-- The first-level choice (R304, R305): in token mode round robin by client number, else the smallest finish tag, the lower number in a tie. -/
def clientPick (m : Mach) (p : Nat) : Option Nat :=
  let ok := (m.clientsOn p).filter (fun c => m.clientCredit p c && (m.clientNext p c).isSome)
  if m.refilled F.BEQ_PORT_SCHED_TOKEN p = 1 then
    let last := (alGet m.beq.last p).getD 511
    let least := fun (l : List Nat) => l.foldl (fun (b : Option Nat) c => match b with | none => some c | some d => some (min c d)) none
    (least (ok.filter (fun c => decide (last < c)))).orElse (fun _ => least ok)
  else
    let v := (alGet m.beq.vtime p).getD 0
    let fin := fun c => (alGet m.beq.tags (p * 512 + c)).getD v + 65536 * m.charged p ((m.clientNext p c).getD 0) / m.clientWeight p c
    ok.foldl (fun (b : Option Nat) c => match b with
      | none => some c
      | some d => if fin c < fin d ∨ (fin c = fin d ∧ c < d) then some c else some d) none

/-- After a frame (R304, R306): the client's start tag becomes its finish tag, its limiter and pacer pay the charged length, and virtual time moves to the
smallest start tag among backlogged clients, never back. A client that is no longer backlogged banks nothing. -/
def clientSent (m : Mach) (p c bytes : Nat) (q : Option Nat) : Mach :=
  let len := m.charged p bytes
  let v := (alGet m.beq.vtime p).getD 0
  let s := (alGet m.beq.tags (p * 512 + c)).getD v + 65536 * len / m.clientWeight p c
  let credit := if m.clientRate c = 0 then m.beq.credit
    else alPut m.beq.credit (p * 512 + c) ((alGet m.beq.credit (p * 512 + c)).getD 0 - (len * 8000 : Nat))
  let m := (m.putBeq { m.beq with tags := alPut m.beq.tags (p * 512 + c) s, credit := credit, last := alPut m.beq.last p c })
  let m := match q with
    | none => m
    | some q =>
      let x := m.qp q
      let vh := (alGet m.beq.vherd (p * 512 + c)).getD 0
      let m := m.setQp q { x with
        pacer := x.pacer - (len * 8000 : Nat), tag := some (x.tag.getD vh + 65536 * len / max 1 (getBits (m.qpCfg q 6) 0 8)) }
      let on := (m.qpsOn p).filter (fun r => m.qpHerd r == c)
      let low := on.foldl (fun (b : Option Nat) r => let t := (m.qp r).tag.getD vh; match b with | none => some t | some d => some (min d t)) none
      let m := if on.contains q then m else m.setQp q { m.qp q with tag := none }
      (m.putBeq { m.beq with vherd := alPut m.beq.vherd (p * 512 + c) (max vh (low.getD vh)) })
  let now := m.clientsOn p
  let low := now.foldl (fun (b : Option Nat) r => let t := (alGet m.beq.tags (p * 512 + r)).getD v; match b with | none => some t | some d => some (min d t)) none
  let v' := max v (low.getD v)
  let tags := m.beq.tags.filter (fun t => decide (t.1 / 512 ≠ p) || now.contains (t.1 % 512))
  let tags := now.foldl (fun t r => if (alGet t (p * 512 + r)).isSome then t else alPut t (p * 512 + r) v') tags
  (m.putBeq { m.beq with tags := tags, vtime := alPut m.beq.vtime p v' })

/-- A frame of this module leaves on a port. -/
def originSend (m : Mach) (p c : Nat) : Mach :=
  if c = dynClient then
    match m.dynOn p with
    | [] => m
    | d :: _ =>
      match m.originRoute d.1 0 with
      | none => m
      | some (_, dl) =>
        let f := m.dynFrame d.1 dl d.2
        let m := (m.putBeq { m.beq with dyn := m.beq.dyn.erase d })
        (m.sendBe p f).clientSent p c f.bytes none
  else
    match m.qpPick p c with
    | none => m
    | some q =>
      match m.qpPort q with
      | none => m
      | some (_, dl) =>
        match m.qpSendNext q p dl with
        | (m, none) => m
        | (m, some f) => (m.sendBe p f).clientSent p c f.bytes (some q)

/-- A reply-class or control packet of a queue pair that would leave on a port. -/
def replyOn (m : Mach) (p : Nat) (ctl : Bool) : Option (Nat × Nat × QpPacket) :=
  m.beq.qps.findSome? (fun x =>
    if isCtl x.1 ≠ ctl then none
    else
      match x.2.replies with
      | [] => none
      | k :: _ =>
        match m.qpRoute x.1 k.path with
        | some (r, dl) => if r = p then some (x.1, dl, k) else none
        | none => none)

/-- Sends a packet of the reply class. -/
def replySend (m : Mach) (p q dl : Nat) (k : QpPacket) : Mach :=
  let x := m.qp q
  let m := m.setQp q { x with replies := x.replies.drop 1 }
  let (m, k) := m.qpSeal q k
  m.sendBe p (m.qpFrame q p dl k)

/-- A control connection with a packet for a port. -/
def ctlOn (m : Mach) (p : Nat) : Option Nat :=
  ((m.beq.qps.map (·.1)).filter isCtl).find? (fun q => m.qpReady q && (match m.qpPort q with | some r => r.1 == p | none => false))

/-- The frames of forwarded lanes for a port whose priority the partner does not hold. -/
def heldFor (m : Mach) (p : Nat) (cls : Nat → Bool) : List Held :=
  m.rte.held.filter (fun h => h.out == p && cls h.cls && !m.heldBy p h.pcpOut)

/-- The forwarded request or dynamic-collective frame served next: input ports in round robin (R347). -/
def laneNext (m : Mach) (p last : Nat) : Option Held :=
  let l := m.heldFor p (fun c => c == 0 || c == 1)
  ((List.range 32).map (fun i => (last + 1 + i) % 32)).findSome? (fun i => l.find? (fun h => h.inPort == i))

/-- BE_FRAME_SEND (R22, R304, R347): in free port time the port serves control, then replies, then the forwarded lanes and the origin scheduler in turn by
byte-weighted round robin. -/
def beSend (m : Mach) (p : Nat) : Mach :=
  if m.portUp p = false then m
  else
    let (fc, lc, last) := (alGet m.rte.turn p).getD (0, 0, 31)
    let fit := fun (bytes : Nat) (go : Mach) => if m.freeTime p bytes then go else m
    match m.heldFor p (fun c => c == 3), m.replyOn p true, m.ctlOn p with
    | h :: _, _, _ => fit h.frame.bytes (m.forwardHeld h)
    | [], some (q, dl, k), _ => fit (packetBytes k) (m.replySend p q dl k)
    | [], none, some q =>
      fit (m.qpNextBytes q) (match m.qpPort q with
        | some (_, dl) => (match m.qpSendNext q p dl with | (m, some f) => m.sendBe p f | (m, none) => m)
        | none => m)
    | [], none, none =>
      match m.heldFor p (fun c => c == 2), m.replyOn p false with
      | h :: _, _ => fit h.frame.bytes (m.forwardHeld h)
      | [], some (q, dl, k) =>
        if m.heldBy p (m.qpFrame q p dl k).pcp then m else fit (packetBytes k) (m.replySend p q dl k)
      | [], none =>
        let lane := m.laneNext p last
        let client := m.clientPick p
        let fw := max 1 (m.refilled F.RTE_ARB_FWD_WEIGHT)
        let lw := max 1 (m.refilled F.RTE_ARB_LOCAL_WEIGHT)
        -- each side's credit is the charged bytes it has had over its weight; the side that has had less is served
        let setTurn := fun (m : Mach) (x : Int × Int × Nat) => (m.putRte { m.rte with turn := alPut m.rte.turn p x })
        let fwd := fun (h : Held) => fit h.frame.bytes
          (setTurn (m.forwardHeld h) (if client.isSome then (fc + (m.charged p h.frame.bytes * lw : Nat), lc, h.inPort) else (0, 0, h.inPort)))
        let loc := fun (c : Nat) =>
          let b := (m.clientNext p c).getD 0
          let pcp := if c = dynClient then 2 else 0
          if m.get F.PORT_ROLE_ROLE p = 1 ∧ m.heldBy p pcp then m
          else fit b (setTurn (m.originSend p c) (if lane.isSome then (fc, lc + (m.charged p b * fw : Nat), last) else (0, 0, last)))
        match lane, client with
        | some h, some c => if fc ≤ lc then fwd h else loc c
        | some h, none => fwd h
        | none, some c => loc c
        | none, none => m

/-! ## Refills, rates, samples -/

/-- The refill interval that BEQ_REFILL asks for, in units (R306: values below 100 ns act as 100). -/
def refillUnits (m : Mach) : Nat := max 100 (m.get F.BEQ_REFILL_INTERVAL_NS) * ns

/-- RATE_REFILL (R306): Refill-class changes take effect, every limiter and pacer gains rate × interval up to its burst. -/
def rateRefill (m : Mach) : Mach :=
  let old := if m.beq.interval = 0 then 1000 * ns else m.beq.interval
  let at' := if m.beq.interval = 0 then old else m.beq.refillAt
  if m.now < at' then m
  else
    let m := (m.putRefillOld [])
    let nsOld := old / ns
    let limiter := fun (x : Nat × Int) =>
      let h := x.1 % 512
      let burst : Int := (max 16 (m.get F.QE_HERD_BE_BURST_KIB 0 h) * 1024 * 8000 : Nat)
      (x.1, min burst (x.2 + (m.clientRate h * nsOld : Nat)))
    -- a limiter is made where a herd with a limit has traffic
    let missing := (List.range 32).flatMap (fun p => ((m.clientsOn p).filter (fun c => m.clientRate c ≠ 0 ∧ (alGet m.beq.credit (p * 512 + c)).isNone)).map
      (fun c => (p * 512 + c, (0 : Int))))
    let credit := (missing.foldl (fun l x => alPut l x.1 x.2) m.beq.credit).map limiter
    let qps := m.beq.qps.map (fun x => (x.1, { x.2 with pacer := min (m.pacerBurst x.1) (x.2.pacer + (m.get F.BEQ_QP_RATE 0 x.1 * nsOld : Nat)) }))
    let new := m.refillUnits
    (m.putBeq { m.beq with credit := credit, qps := qps, interval := new, refillAt := at' + new })

/-- Sum of the port rates of a queue pair's paths in Mb/s (R302). -/
def pathRate (m : Mach) (q : Nat) : Nat :=
  let ports := ((List.range (m.qpSpray q)).filterMap (fun k => (m.qpRoute q k).map (·.1))).eraseDups
  (ports.map (fun p => rateMbps (m.get F.PORT_STATUS_RATE p))).foldl (· + ·) 0

/-- CC_RATE_UPDATE (R302): indices from marks and round trips, the smaller of the two curves, clamped. A rate that falls between two numbers of Mb/s takes the
one or the other: the spec gives no rounding. -/
def ccUpdate (m : Mach) (q : Nat) : Mach :=
  let x := m.qp q
  let every := max 1 (m.get F.BEQ_CC_CTL_INTERVAL) * us
  if m.qpState q ≠ 1 ∨ isCtl q ∨ m.now < x.rateAt + every then m
  else
    let lows := (x.low :: x.lows).take 64
    let base := (lows.filterMap id).foldl (fun (b : Option Nat) v => match b with | none => some v | some d => some (min d v)) none
    let y := { x with rateAt := x.rateAt + every, acked := 0, ceAcked := 0, cnps := 0, low := none, lows := lows }
    let m' := m.setQp q y
    let m' := match base with
      | some b => m'.set F.BEQ_QP_RTT_BASE (min 0xFFFF (b / (100 * ns))) 0 q
      | none => m'
    if x.acked = 0 then m'
    else
      let i := if m.qpModulePeer q then min 31 (32 * x.ceAcked / x.acked) else min 31 (8 * x.cnps)
      let j := match x.newest, base with
        | some r, some b => if r ≤ b ∨ b = 0 then 0 else min 31 (16 * (r - b) / b)
        | _, _ => 0
      let rate := m.get F.BEQ_QP_RATE 0 q
      let e := rate * m.get F.BEQ_CURVE_ECN_FACTOR i + m.get F.BEQ_CURVE_ECN_ADD i * 32768
      let t := rate * m.get F.BEQ_CURVE_RTT_FACTOR j + m.get F.BEQ_CURVE_RTT_ADD j * 32768
      let n := min e t
      let (up, m') := m'.freshBit
      let r := n / 32768 + (if n % 32768 ≠ 0 && up then 1 else 0)
      let lo := m.refilled F.BEQ_CC_RATE_MIN * 100
      m'.set F.BEQ_QP_RATE (max lo (min r (m.pathRate q))) 0 q

/-- QP_SAMPLE (R307): each SAMPLE_US, outside high-water-mark mode. -/
def qpSample (m : Mach) (q : Nat) : Mach :=
  let x := m.qp q
  let every := max 1 (m.get F.BEQ_CTL_SAMPLE_US) * us
  if isCtl q ∨ m.now < x.sampleAt + every then m
  else
    let m := m.setQp q { x with sampleAt := m.now }
    if m.hwmMode then m.qpHigh q
    else
      let (d, a) := m.qpQueued q
      (m.set F.BEQ_QP_SAMPLE_DEPTH d 0 q).set F.BEQ_QP_SAMPLE_AGE a 0 q

/-! ## CREATE, DESTROY, RESET -/

/-- Queue pair that an access to the BEQ_QP registers selects. -/
def selQp (m : Mach) (v : Via) : Nat := m.getV v F.BEQ_QP_SEL_QP

/-- Whether a herd page may reach a queue pair (14_herds.md R358): its own, or a FREE one, whose HERD is forced to the page's. -/
def qpReach (m : Mach) (v : Via) (q : Nat) : Bool :=
  match v.page with
  | none => true
  | some h => m.qpState q == 0 || m.qpHerd q == h

/-- A command of BEQ_QP_CMD on the selected queue pair. -/
def qpCmd (m : Mach) (v : Via) (f : Mach → Nat → Mach) : Mach :=
  m.gate v F.BEQ_QP_CMD_OP.addr (fun m =>
    let q := m.selQp v
    if m.qpReach v q then f m q
    else m.pageForeign v F.BEQ_QP_CMD_OP.addr)

def qpDone (m : Mach) (q : Nat) : Mach := m.cmdDone F.BEQ_QP_STATUS_DONE F.BEQ_QP_STATUS_REFUSED q
def qpRefused (m : Mach) (q r : Nat) : Mach := m.cmdRefused F.BEQ_QP_STATUS_DONE F.BEQ_QP_STATUS_REFUSED F.BEQ_QP_STATUS_REASON r q

/-- The checks of CREATE (R293, 15_cipher.md R375): the reason of the first that fails. -/
def qpCreateCheck (m : Mach) (q h : Nat) : Option Nat :=
  let w := fun i => m.qpCfg q i
  let foreign := !m.qpModulePeer q
  let enc := getBits (w 0) 9 1 == 1
  let spray := getBits (w 3) 24 3
  let mtu := getBits (w 5) 16 16
  let depth := getBits (w 4) 16 8
  let key := getBits (w 4) 0 16
  if 4 < spray ∨ ¬ [256, 512, 1024, 2048, 4096, 16384].contains mtu ∨ 16384 < getBits (w 5) 0 16 ∨ depth = 0 ∨ 64 < depth ∨ getBits (w 6) 0 8 = 0 ∨
      (enc ∧ 1024 ≤ key) ∨ (m.qpPeerTable q ∧ 256 ≤ m.qpPeer q) ∨ (m.qpPeerTable q = false ∧ 1024 ≤ m.qpPeer q) then some 3
  else if (foreign ∧ (1 < spray ∨ 4096 < mtu ∨ enc)) ∨ (enc ∧ getBits (w 1) 0 24 = 0x10000 + q) then some 3
  else if m.roomFor h resQps 1 = false then some 2
  else if enc ∧ (m.bit F.ID_CAP0_WIRE_CRYPT = false ∨ m.keyState key = 0 ∨ m.get F.CIPH_PAGE_STATUS_HERD 0 key ≠ h) then some 5
  else if m.qpPeerTable q ∧ m.peerWord (m.qpPeer q) 0 % 2 = 0 then some 6
  else none

/-- QP_CREATE (R292, R293). -/
def qpCreate (m : Mach) (v : Via) : Mach :=
  m.qpCmd v (fun m q =>
    if m.qpState q ≠ 0 then m.qpRefused q 1
    else
      -- a herd page forces HERD to its herd (R308)
      let m := match v.page with
        | some h => m.set F.BEQ_QP_CFG (m.qpCfg q 0 / 256 * 256 + h) 0 q
        | none => m
      let h := m.qpHerd q
      match m.qpCreateCheck q h with
      | some r => m.qpRefused q r
      | none => (((m.qpInit q).take h resQps 1).set F.BEQ_STATUS_QPS (m.get F.BEQ_STATUS_QPS + 1)).qpDone q)

/-- Whether a queue pair has a descriptor outstanding (R292). -/
def qpBusy (m : Mach) (q : Nat) : Bool :=
  let x := m.qp q
  x.msgs.any (fun g => g.sq.isSome) || !x.bufs.isEmpty || x.rx.any (fun g => g.buf.isSome)

/-- QP_DESTROY (R292). -/
def qpDestroy (m : Mach) (v : Via) : Mach :=
  m.qpCmd v (fun m q =>
    if m.qpState q = 0 then m.qpRefused q 1
    else if m.qpBusy q then m.qpRefused q 4
    else
      let h := m.qpHerd q
      let m := (m.putBeq { m.beq with qps := alDel m.beq.qps q })
      let m := ((m.set F.BEQ_QP_STATUS_STATE 0 0 q).qpOut q).giveBack h resQps 1
      (m.set F.BEQ_STATUS_QPS (m.get F.BEQ_STATUS_QPS - 1)).qpDone q)

/-- QP_RESET (R292): an ERROR queue pair becomes READY as from CREATE. -/
def qpReset (m : Mach) (v : Via) : Mach :=
  m.qpCmd v (fun m q => if m.qpState q ≠ 2 then m.qpRefused q 1 else (m.qpInit q).qpDone q)

/-! ## Violation reports -/

/-- The writing herd of a report: the owner of the channel that it names (14_herds.md R485). -/
def reportHerd (m : Mach) (kind channel : Nat) : Option Nat :=
  if kind = 1 then (m.livePlans.findSome? (fun p => p.out channel)).map (·.herd)
  else if kind = 2 ∧ channel < 65536 ∧ m.qpState channel ≠ 0 then some (m.qpHerd channel)
  else none

/-- VIOLATION_REPORT_RECEIVED (R290, 14_herds.md R361, R362, R485). -/
def reportReceived (m : Mach) : Mach :=
  match m.beq.ctl.find? (fun c => leAt c.bytes 0 1 / 16 == 8) with
  | none => m
  | some c =>
    let m := (m.putBeq { m.beq with ctl := m.beq.ctl.erase c })
    let b := c.bytes.drop 32
    let w := leAt b 8 4
    let key := (leAt b 0x18 8, w)
    if m.beq.reports.contains key then m
    else
      let m := (m.putBeq { m.beq with reports := m.beq.reports ++ [key] })
      match m.reportHerd (leAt b 0 4 / 256 % 16) (leAt b 4 4) with
      | none => m.inc F.FLT_VIOL_COUNT
      | some h =>
        if h = 0 ∨ m.bit F.QE_HERD_STATUS_PRIV 0 h then m.raise 0x0502 0x1FF h [h] w c.src else m.inc F.FLT_VIOL_COUNT

end Mach
end Sys2Proof.Machine
end

