-- ==== Sys2Proof/Machine/PortOps.lean ====
section
/-! DEFINITION. The shared operations of ports: link states (12_ports_mac.md R313), Uanto (R328 to R330), the checks of a received frame (R317), the
diagnostic ring (R319), and stopped port groups (17_clocks_power_reset.md R420). -/
namespace Sys2Proof.Machine

/-- Link states (PORT_STATUS.STATE). -/
def lkDisabled : Nat := 0
def lkTraining : Nat := 1
def lkNegotiating : Nat := 2
def lkUp : Nat := 3
def lkFault : Nat := 4

/-- Port roles (R309). -/
def roleFabric : Nat := 1
def roleAccel : Nat := 2
def roleLong : Nat := 3

namespace Mach

def lkState (m : Mach) (p : Nat) : Nat := m.get F.PORT_STATUS_STATE p
def role (m : Mach) (p : Nat) : Nat := m.get F.PORT_ROLE_ROLE p

/-- Whether a port is held in DISABLED: its source or its router buffer's is FENCED or LOCKED (16_faults.md R398), or the module is in fail-stop
(05_queues_descriptors.md R142). -/
def portHeld (m : Mach) (p : Nat) : Bool :=
  let by' := fun (x : Nat) => decide (2 ≤ m.srcState x) && !m.bit F.FLT_SRC_STATUS_RETURNING 0 x
  by' (srcPort p) || by' (srcRte p) || m.failStop

/-- Whether bring-up service, or the boot before it, still runs (R312, 17_clocks_power_reset.md R428). -/
def bringUp (m : Mach) : Bool := decide (m.get F.CLK_BOOT_STEP ≤ 9)

/-- Rate at which a port trains: a port configured for 800 Gb/s runs at 400 Gb/s in bring-up service (R312). -/
def trainRate (m : Mach) (p : Nat) : Nat :=
  let r := m.get F.PORT_CTL_RATE p
  if r = 0 ∧ m.bringUp then 1 else r

/-- A port begins auto-negotiation and training. -/
def portTrain (m : Mach) (p : Nat) : Mach :=
  if m.portHeld p then m
  else (m.portDown p lkTraining).set F.PORT_STATUS_RATE (m.trainRate p) p

/-- A port enters FAULT: LINK_FAULT with 0 for training or 1 for Uanto, and a fault event (R313, 16_faults.md R484). -/
def portFault (m : Mach) (p why : Nat) : Mach :=
  let m := m.portDown p lkFault
  let m := m.raise 0x0902 (srcPort p) 0 m.liveHerds p why
  m.fault (srcPort p) kCorrected { detail := p }

/-! ## Retraining to 800 Gb/s (R312) -/

/-- Whether a port waits for, or runs, the retraining of R312. -/
def retraining (m : Mach) (p : Nat) : Bool := (m.pt p).retrain

/-- The next port group with ports to retrain begins, unless one runs: its ports that are UP go to TRAINING at 800 Gb/s. -/
def retrainNext (m : Mach) : Mach :=
  let todo := (List.range 32).filter (fun p => m.retraining p)
  if todo.any (fun p => m.lkState p == lkTraining || m.lkState p == lkNegotiating) then m
  else
    -- a port that is not UP trains at its configured rate when it next trains
    let skip := todo.filter (fun p => m.lkState p != lkUp)
    let m := skip.foldl (fun m p => m.setPt p { m.pt p with retrain := false }) m
    match todo.filter (fun p => m.lkState p == lkUp) with
    | [] => m
    | p :: r => (p :: r.filter (fun q => q / 2 == p / 2)).foldl portTrain m

/-- The retraining of R312 starts: every port configured for 800 Gb/s. -/
def retrainStart (m : Mach) : Mach :=
  let m := (List.range 32).foldl (fun m p =>
    if m.get F.PORT_CTL_RATE p = 0 ∧ m.lkState p = lkUp then m.setPt p { m.pt p with retrain := true } else m) m
  m.retrainNext

/-- Ends a port's part of it, whichever way it went. -/
def retrainDone (m : Mach) (p : Nat) : Mach :=
  if m.retraining p then (m.setPt p { m.pt p with retrain := false }).retrainNext else m

/-! ## Uanto -/

/-- What this port offers (R33). -/
def myCaps (m : Mach) : List Nat := [m.reg 0x10, m.reg 0x14, m.reg 0x18, m.reg 0x1C].map (·.toNat)
def myGen (m : Mach) : Nat := m.get F.ID_GEN_GENERATION
def myMinor (m : Mach) : Nat := m.get F.ID_GEN_MINOR

/-- The negotiated generation, minor version and set (01_architecture.md R34): CAP1 takes no part. -/
def negotiate (m : Mach) (o : UantoSide) : Nat × Nat × List Nat :=
  let minor := if o.gen = m.myGen then min o.minor m.myMinor else if o.gen < m.myGen then o.minor else m.myMinor
  let w := fun i => nthD m.myCaps i 0 &&& nthD o.caps i 0
  (min o.gen m.myGen, minor, [w 0, 0, w 2, w 3])

/-- Uanto starts over at step 1. -/
def uantoRestart (m : Mach) (p : Nat) : Mach :=
  m.setPt p { m.pt p with stepOne := m.now, offerGot := false, seenSent := false, seenGot := false, confirmSent := false, agreed := none }

/-- Sends an OFFER, with SEEN once a partner OFFER has come. -/
def sendOffer (m : Mach) (p : Nat) : Mach :=
  let x := m.pt p
  let m := m.setPt p { x with lastUanto := some m.now, seenSent := x.seenSent || x.offerGot }
  (m.countTx p 64).emitOut (.uanto p 1 x.offerGot m.myGen m.myMinor m.myCaps)

/-- Sends the local CONFIRM. -/
def sendConfirm (m : Mach) (p : Nat) : Mach :=
  let x := m.pt p
  match x.agreed with
  | none => m
  | some (g, n, c) =>
    ((m.setPt p { x with lastUanto := some m.now, confirmSent := true }).countTx p 64).emitOut (.uanto p 2 false g n c)

/-- Uanto fails (R329): FAULT, UANTO_FAIL and LINK_FAULT. -/
def uantoFail (m : Mach) (p gen : Nat) : Mach := (m.raise 0x0904 (srcPort p) 0 [0] p gen).portFault p 1

/-- Whether a partner's role code matches the port's (Uanto step 2). -/
def roleMatch (m : Mach) (p role : Nat) : Bool :=
  (m.role p == roleFabric && role == 1) || (m.role p == roleAccel && role == 4) || (m.role p == roleLong && role == 3)

/-- Whether a port may face equipment that does not run Uanto (R329). -/
def mayBeSilent (m : Mach) (p : Nat) : Bool := m.role p == roleLong || (m.role p == roleAccel && m.bit F.PORT_ROLE_PROTO p)

/-- Keeps a link of the active plan in scheduled use only with the partner of its LINK record and the plan's features (01_architecture.md R36, R330). -/
def partnerCheck (m : Mach) (p : Nat) : Mach :=
  let m := (m.schedIn p 330).schedIn p 36
  match m.plan?, m.plan?.bind (fun pl => pl.link p) with
  | some pl, some l =>
    let x := m.pt p
    let other := match x.partner with | some o => o.module != l.peerModule || o.port != l.peerPort | none => true
    let caps := ((x.agreed.map (·.2.2)).getD [0, 0, 0, 0])
    let lacks := nthD caps 3 0 &&& pl.linkNeeds p != pl.linkNeeds p
    let m := if other then m.schedOut p 330 else m
    if lacks then m.schedOut p 36 else m
  | _, _ => m

/-- A port enters UP (R313, R314, R330): the outcome of Uanto in its registers, LINK_UP, SCHED_OUT clear, and on a FABRIC port the measurement of its delay
(02_polder_time.md R47). -/
def portEnterUp (m : Mach) (p : Nat) (res : Nat × Nat × List Nat) : Mach :=
  let (g, n, c) := res
  let x := m.pt p
  let m := m.setPt p { x with since := m.now, agreed := some res, fecEnd := none, fecCount := 0 }
  let m := ((m.set F.PORT_STATUS_STATE lkUp p).set F.PORT_STATUS_SCHED_OUT 0 p).set F.PORT_UANTO_RES_GEN g p
  let m := m.set F.PORT_UANTO_RES_MINOR n p
  let m := (List.range 4).foldl (fun m w => m.setReg (F.PORT_UANTO_CAP.addr + p * 0x4000 + w * 4) (BitVec.ofNat 32 (nthD c w 0))) m
  let m := m.raise 0x0900 (srcPort p) 0 [0] p g
  let m := m.partnerCheck p
  let m := if m.role p = roleFabric then m.beginMeasure p else m
  (m.putClk { m.clk with routerOn := true }).retrainDone p

/-! ## Received frames -/

/-- PORT_MAC as a number, first byte most significant. -/
def portMac (m : Mach) (p : Nat) : Nat := m.get F.PORT_MAC_HI p % 65536 * 2 ^ 32 + m.get F.PORT_MAC_LO p

/-- Whether a destination address passes (R317, R327). -/
def addrPasses (m : Mach) (p : Nat) (dst : Nat) (uanto : Bool) : Bool :=
  let idx := crcOf polyEthernet ((List.range 6).map (fun i => BitVec.ofNat 8 (dst / 2 ^ (40 - 8 * i)))) % 512
  if dst = m.portMac p ∨ dst = 0x0180C2000001 then true
  else if dst = 0xFFFFFFFFFFFF then uanto || m.bit F.PORT_CTL_BCAST_EN p
  else dst / 2 ^ 40 % 2 == 1 && getBits (m.reg (F.PORT_HASH.addr + p * 0x4000 + idx / 32 * 4)).toNat (idx % 32) 1 == 1

/-- The first check of R317 that a received frame fails, as a bad-frame reason. -/
def rxReason (m : Mach) (p : Nat) (f : RxFrame) : Option Nat :=
  let uanto := match f.kind with | .uanto .. => true | _ => false
  if f.badCode then some 4
  else if f.len < 64 then some 2
  else if 16640 < f.len then some 3
  else if f.fcs = 1 then some 1
  else if f.fcs = 2 then some 5
  else
    match f.kind with
    | .mac op _ _ => if op = 1 ∨ op = 0x101 then none else some 6
    | k =>
      if m.portUp p = false ∧ uanto = false then some 0xB
      else if m.addrPasses p f.dst uanto = false then some 7
      else
        let r := m.role p
        let roce := r == roleFabric || r == roleLong || (r == roleAccel && m.bit F.PORT_ROLE_PROTO p)
        let access := r == roleAccel && !m.bit F.PORT_ROLE_PROTO p
        match k with
        | .foreign => some 8
        | .badVersion => some 9
        | .payloadType => some 0xA
        | .access _ => if access then none else some 0xA
        | .landed _ => if access then none else some 0xA
        | .be b =>
          if r = roleFabric ∧ b.pcp = 6 then some 0xA
          else
            match b.body with
            | .chunk _ => if r = roleFabric then none else some 0xA
            | .packet _ => if roce then none else some 0xA
        | _ => none

/-- Entries of a port's diagnostic ring, and how many are unconsumed (R319); a size code above 9 acts as 9. -/
def diagSize (m : Mach) (p : Nat) : Nat := 2 ^ (6 + min 9 (m.get F.PORT_DIAG_CFG p % 16))
def diagUsed (m : Mach) (p : Nat) : Nat :=
  let w := m.get F.PORT_DIAG_PTR p
  ringDist (m.diagSize p) (w / 65536) (w % 65536)

/-- A diagnostic entry of a dropped frame (R319). -/
def diagEntry (m : Mach) (p reason : Nat) (f : RxFrame) : List Byte :=
  let d := f.data.take 224
  leBytes 4 (1 + (m.pt p).diagPhase * 16 + reason * 256 + p * 65536) ++ leBytes 4 (min 0xFFFF f.len) ++ leBytes 8 m.polder.toNat ++
    List.replicate 16 0 ++ d ++ List.replicate (224 - d.length) 0

/-- Whether a local Peat range lies in granules that herd 0 owns. -/
def herd0Peat (m : Mach) (addr len : Nat) : Bool :=
  decide (addr + len ≤ m.peatCap) && [addr, addr + len - 1].all (fun a => (m.gran (a / 2 ^ 21)).state == 1 && (m.gran (a / 2 ^ 21)).herd == 0)

/-- Writes a diagnostic entry, at most one per µs; one that cannot be written is counted in PORT_DIAG_LOST (R319). -/
def diagWrite (m : Mach) (p reason : Nat) (f : RxFrame) : Mach :=
  if m.bit F.PORT_CTL_DIAG p = false then m
  else
    let x := m.pt p
    let soon : Bool := match x.diagAt with | some a => decide (m.now < a + us) | none => false
    let n := m.diagSize p
    let i := m.get F.PORT_DIAG_PTR p % 65536
    let addr := m.get64 F.PORT_DIAG_BASE_LO p / 4096 * 4096 + i % n * 256
    if soon ∨ n ≤ m.diagUsed p + 1 ∨ m.herd0Peat addr 256 = false then m.inc F.PORT_DIAG_LOST 1 p
    else
      let m := m.peatWrite addr (m.diagEntry p reason f) false
      let j := (i + 1) % n
      let m := m.setPt p { x with diagAt := some m.now, diagPhase := if j = 0 then 1 - x.diagPhase else x.diagPhase }
      m.set F.PORT_DIAG_PTR (m.get F.PORT_DIAG_PTR p / 65536 * 65536 + j) p

/-- Drops a received frame for a reason (R319). -/
def rxDrop (m : Mach) (p reason : Nat) (f : RxFrame) : Mach := (m.badFrame p reason).diagWrite p reason f

/-- Whether a best-effort frame finds room in the pool where it arrives (13_routing_deadlock.md R342); the control lane is checked by the router (R346). -/
def laneRoom (m : Mach) (p : Nat) (b : BeFrame) : Bool :=
  let size := m.get F.RTE_POOL_LANE_KIB p * 1024
  if m.role p = roleFabric then
    let (c, v) := pcpLane b.pcp
    c == 3 || decide (m.laneOf p c v + b.bytes ≤ size)
  else decide (((List.range 8).map (fun i => m.prioOf p i)).sum + b.bytes ≤ size)

/-- A best-effort frame enters a pool of its input port; from outside the fabric it takes the epoch in force (13_routing_deadlock.md, Tables and epochs). -/
def rxPool (m : Mach) (p : Nat) (b : BeFrame) : Mach :=
  let b := if m.role p = roleFabric then b else { b with epoch := m.epoch }
  let m := (m.putRte { m.rte with arrived := m.rte.arrived ++ [(p, b)] })
  (m.depthSync p).xoffSync p b.pcp

/-- A frame passes through the checks of R317: dropped with a reason, or counted and passed on. -/
def portRx (m : Mach) (p : Nat) (f : RxFrame) : Mach :=
  match m.rxReason p f with
  | some r => m.rxDrop p r f
  | none =>
    match f.kind with
    | .be b => if m.laneRoom p b then (m.countRx p f.len).rxPool p b else m.rxDrop p 4 f
    | k =>
      let m := m.countRx p f.len
      m.setPt p { m.pt p with inq := (m.pt p).inq ++ [k] }

/-! ## Stopped port groups -/

/-- Clock domain of a port's group (17_clocks_power_reset.md R416). -/
def portDomain (p : Nat) : Nat := 35 + p / 2

/-- Whether a port's group is stopped by the plan (R420). -/
def groupStopped (m : Mach) (p : Nat) : Bool :=
  m.bit F.CLK_DOM_STATUS_PLANNED 0 (portDomain p) && !m.bit F.CLK_DOM_STATUS_RUNNING 0 (portDomain p)

/-- A domain begins to start (17_clocks_power_reset.md R418, R419); the start ends within 2 µs. -/
def domainStart (m : Mach) (d : Nat) : Mach :=
  if (alGet m.clk.starting d).isSome ∨ m.bit F.CLK_DOM_STATUS_RUNNING 0 d then m
  else (m.putClk { m.clk with starting := alPut m.clk.starting d m.now })

/-- A frame arrives at a stopped port group (R420): the group starts, the port sends XOFF for every priority enabled in PFC_EN, and the frame waits in the
64 KiB receive buffer or is dropped. -/
def stoppedRx (m : Mach) (p : Nat) (f : RxFrame) : Mach :=
  let m := m.domainStart (portDomain p)
  let m := (List.range 7).foldl (fun m k =>
    let x := m.pt p
    if getBits (m.refilled F.PORT_FC_PFC_EN p) k 1 = 1 ∧ (alGet x.xoff k).isNone then
      (m.setPt p { x with xoff := alPut x.xoff k (m.now, m.now) }).emitOut (.pause p k 0xFFFF)
    else m) m
  let x := m.pt p
  if (x.rxWait.map (·.len)).foldl (· + ·) 0 + f.len ≤ 65536 then m.setPt p { x with rxWait := x.rxWait ++ [f] } else m.rxDrop p 4 f

/-- The group of two ports runs: the frames that waited are handled, and XON follows (R420). -/
def groupRuns (m : Mach) (g : Nat) : Mach :=
  [2 * g, 2 * g + 1].foldl (fun m p =>
    let w := (m.pt p).rxWait
    let m := m.setPt p { m.pt p with rxWait := [] }
    let m := w.foldl (fun m f => m.portRx p f) m
    (List.range 7).foldl (fun m k => m.xoffSync p k) m) m

/-! ## Router -/

/-- Sends a frame on from its input port: which output port and lane, or which drop (13_routing_deadlock.md R332, R333, R337, R339, R345, R346). -/
def beForward (m : Mach) (p : Nat) : Mach :=
  match m.rte.arrived.find? (fun x => x.1 == p) with
  | none => m
  | some a =>
    let f := a.2
    let m := (m.putRte { m.rte with arrived := m.rte.arrived.erase a })
    let fabric := m.role p == roleFabric
    let (cls, vc) := if fabric then pcpLane f.pcp else (beClass f, 0)
    let drop := fun (c : Fld) => ((m.inc c).depthSync p).xoffSync p f.pcp
    match f.dest with
    | none => drop F.RTE_NO_ROUTE
    | some d =>
      if 1024 ≤ d then drop F.RTE_NO_ROUTE
      else if d = m.self then
        let m := (m.putRte { m.rte with here := m.rte.here ++ [(p, f)] })
        (m.depthSync p).xoffSync p f.pcp
      else if cls = 3 ∧ fabric ∧ m.get F.RTE_POOL2_LANE_KIB p * 1024 < m.laneOf p 3 0 + f.bytes then drop F.RTE_CONTROL_DROP
      else
        match m.tableFor f.epoch with
        | none => drop F.RTE_EPOCH_DROP
        | some t =>
          match m.routePick (m.routeWord t d) f.path with
          | none => drop F.RTE_NO_ROUTE
          | some (q, dl) =>
            let h : Held := { inPort := p, cls := cls, vc := vc, out := q, vcOut := max vc dl, table := t, frame := f }
            let m := (m.putRte { m.rte with held := m.rte.held ++ [h] })
            ((m.depthSync q).depthSync p).xoffSync p f.pcp

/-- A table is released (R340): what it routed and is still held is discarded. -/
def releaseTable (m : Mach) (t : Nat) : Mach :=
  let gone := m.rte.held.filter (fun h => h.table == t)
  let m := (m.putRte { m.rte with held := m.rte.held.filter (fun h => h.table != t) })
  let m := m.inc F.RTE_EPOCH_DROP gone.length
  gone.foldl (fun m h => ((m.depthSync h.out).depthSync h.inPort).xoffSync h.inPort h.frame.pcp) m

end Mach
end Sys2Proof.Machine
end

