-- ==== Sys2Proof/Machine/PlanCheck.lean ====
section
/-! DEFINITION. Admission of a plan image: the checks of 03_sluice_plans.md R69 in their order, with those that other chapters add to a code. Each check
answers the record of its first failing item. Where the image and the module do not fix an outcome (the layout of the PROOF section, which no rule gives,
and what depends on it; where frames addressed here wait), the outcome is a free bit (notes/assumptions/31.md). -/
namespace Sys2Proof.Machine

/-- A refusal record (R98): code, section, kind and index of the failing item, slot, amounts. -/
structure Refuse where
  code : Nat
  sec : Nat := 0
  kind : Nat := 0
  index : Nat := 0
  slot : Option Nat := none
  need : Nat := 0
  have' : Nat := 0
  deriving DecidableEq, Repr

/-- Section types (R64) and item kinds (R98). -/
def secLink : Nat := 1
def secSlot : Nat := 2
def secOut : Nat := 3
def secIn : Nat := 4
def secResv : Nat := 5
def secTree : Nat := 6
def secGroup : Nat := 7
def secProg : Nat := 8
def secProof : Nat := 9
def secRoute : Nat := 0x0A
def kPort : Nat := 1
def kLode : Nat := 2
def kTile : Nat := 3
def kBank : Nat := 4
def kCtrl : Nat := 5
def kEngine : Nat := 6
def kHerd : Nat := 7
def kModule : Nat := 8
def kRecord : Nat := 9

/-- The failure of the first member of a list that fails. -/
def firstBad {α : Type} (l : List α) (bad : α → Option Refuse) : Option Refuse := l.findSome? bad

/-- A failure where a condition holds. -/
def failIf (c : Bool) (r : Refuse) : Option Refuse := if c then some r else none

/-- Bits of a mask. -/
def maskBits (n : Nat) : List Nat := (List.range 64).filter (fun i => getBits n i 1 == 1)

/-- Number of bits of a mask. -/
def popCount (n : Nat) : Nat := (maskBits n).length

/-- Least value of a list. -/
def least (l : List Nat) : Nat := l.foldl min (l.headD 0)

/-! ## Reservations in time (R88, R89) -/

/-- Period of a reservation; 0 acts as every tide (14_herds.md R352). -/
def Resv.per (r : Resv) : Nat := max 1 r.period

/-- Whether two reservations hold some slot of some tide in common. -/
def Resv.meets (a b : Resv) : Bool :=
  overlaps a.start a.length b.start b.length && a.tphase % Nat.gcd a.per b.per == b.tphase % Nat.gcd a.per b.per

/-- The largest sum of weights over reservations that pairwise meet: ranges of slots that meet pairwise share a slot, and tides likewise. -/
def peak (w : Resv → Nat) : List Resv → List Resv → Nat
  | [], _ => 0
  | r :: rs, chosen =>
    let skip := peak w rs chosen
    if chosen.all (fun c => r.meets c) then max skip (w r + peak w rs (r :: chosen)) else skip

/-- The reservations of a unit. -/
def Plan.on (p : Plan) (type unit : Nat) : List Resv := p.resvs.filter (fun r => r.type == type && getBits r.units unit 1 == 1)

/-- First slot at which the load of a unit exceeds its capacity. -/
def overSlot (w : Resv → Nat) (cap : Nat) (l : List Resv) : Option Nat :=
  let starts := (l.map (·.start)).filter (fun s => decide (cap < peak w (l.filter (fun r => decide (r.start ≤ s) && decide (s < r.start + r.length))) []))
  if starts.isEmpty then none else some (least starts)

/-- Capacity check of a kind of unit (R89). -/
def Plan.loadBad (p : Plan) (type units cap code kind : Nat) (skip : List Nat) (w : Resv → Nat) : Option Refuse :=
  let rs := p.resvs.filter (fun r => r.type == type && !skip.contains r.owner)
  match firstBad (rs.filter (fun r => decide (p.tideLen < r.start + r.length)))
      (fun r => some { code := code, sec := secResv, kind := kind, index := (maskBits r.units).headD 0, slot := some (min r.start 65535), need := r.start + r.length, have' := p.tideLen }) with
  | some x => some x
  | none =>
    firstBad ((rs.flatMap (fun r => maskBits r.units)).eraseDups) (fun u =>
      let l := rs.filter (fun r => getBits r.units u 1 == 1)
      if units ≤ u then some { code := code, sec := secResv, kind := kind, index := u, need := peak w l [], have' := 0 }
      else match overSlot w cap l with
        | some s => some { code := code, sec := secResv, kind := kind, index := u, slot := some s, need := peak w l [], have' := cap }
        | none => none)

/-- Space check of a kind of unit (R89, 07_churn_arithmetic.md R201): ranges within the unit, on its grain, disjoint. -/
def Plan.spaceBad (p : Plan) (type cap grain kind : Nat) (skip : List Nat) : Option Refuse :=
  let rs := p.resvs.filter (fun r => r.type == type && !skip.contains r.owner)
  firstBad ((rs.flatMap (fun r => maskBits r.units)).eraseDups) (fun u =>
    let l := rs.filter (fun r => getBits r.units u 1 == 1)
    match l.find? (fun r => decide (cap < r.start + r.length) || r.start % grain != 0 || r.length % grain != 0) with
    | some r => some { code := 0x0A, sec := secResv, kind := kind, index := u, need := r.start + r.length, have' := cap }
    | none => failIf (anyOverlap (l.map (fun r => (r.start, r.length))))
        { code := 0x0A, sec := secResv, kind := kind, index := u, need := (l.map (·.length)).foldl (· + ·) 0, have' := cap })

/-! ## Frames over a tide -/

/-- Units in a tide. -/
def Plan.tideUnits (p : Plan) : Nat := p.tideLen * slotUnits

/-- Times of period `t` that fall strictly within an open interval of length `d` whose start lies `e` before one of them (0 < e ≤ t). -/
def within (t e d : Nat) : Nat := if e < d then (d - e - 1) / max 1 t + 1 else 0

/-- How many of a path's arrivals, which recur every tide, fall strictly between two instants (04_lodes_ordering.md R104). -/
def Plan.between (p : Plan) (arr : List Nat) (lo hi : Nat) : Nat :=
  let t := p.tideUnits
  (arr.map (fun (x : Nat) =>
    let e : Nat := (((x : Int) - (lo : Int)) % ((max 1 t : Nat) : Int)).toNat
    within t (if e = 0 then t else e) (hi - lo))).foldl (· + ·) 0

/-- The longest gap between consecutive slots of a list, over the end of the tide (09_collectives.md R237: slack tides left out), in units. -/
def Plan.longestGap (p : Plan) (slots : List Nat) : Nat :=
  match slots with
  | [] => 0
  | f :: _ => ((slots.zip (slots.drop 1 ++ [f + p.tideLen])).map (fun x => (x.2 - x.1) * slotUnits)).foldl max 0

/-- Most scheduled transit frames of an input port that the router holds at once (R89): each from 400 ns and PAD before its departure until 164.54 ns after
it, in hundredths of a unit. -/
def Plan.transitHeld (p : Plan) (port : Nat) : Nat :=
  let t := p.tideUnits * 100
  let pad := ((p.link port).map (·.pad)).getD 0
  let stay := (6400 + pad) * 100 + 263264
  let outs := (p.slots.filter (fun x => x.kind == 3 && x.ref % 32 == port)).map (fun x => (x.slot * slotUnits + p.phase x.port) * 100)
  (outs.map (fun (a : Nat) =>
    (outs.map (fun (b : Nat) =>
      let d : Nat := (((a : Int) - (b : Int)) % ((max 1 t : Nat) : Int)).toNat
      if d < stay then (stay - d - 1) / max 1 t + 1 else 0)).foldl (· + ·) 0)).foldl max 0

namespace Mach

/-! ## Codes 0x01 to 0x04 -/

/-- FORMAT (R64, 13_routing_deadlock.md R338), of the image as copied. -/
def chkFormat (m : Mach) (img : List Byte) (p : Plan) : Option Refuse :=
  let len := leAt img 8 4
  let secs := planSections img
  let bad : Refuse := { code := 0x01 }
  if leAt img 0 4 ≠ 0x4E414C50 ∨ leAt img 4 2 ≠ 1 ∨ leAt img 6 2 ≠ 256 ∨ len ≠ img.length ∨ len % 4096 ≠ 0 ∨ len = 0 ∨ 2 ^ 28 < len ∨
      p.tideLen = 0 ∨ 65536 < p.tideLen ∨ len - 1024 < leAt img 0x4C 4 + 16 * leAt img 0x48 4 then some bad
  else
    match firstBad (secs.zipIdx) (fun s =>
        let wrong : Bool := decide (len - 1024 < s.1.offset + s.1.length) || (match recordSize s.1.type with | some n => s.1.count * n != s.1.length | none => false) ||
          (s.1.type == 2 && s.1.count != 32 * p.tideLen) || (s.1.type == 0x0A && s.1.count != p.modules)
        failIf wrong { code := 0x01, sec := s.1.type, kind := kRecord, index := s.2 }) with
    | some x => some x
    | none =>
      firstBad p.routes.zipIdx (fun r =>
        let n := routeCount r.1
        failIf (decide (4 < n) || (r.2 == m.self && n != 0) || (List.range n).any (fun k => decide (31 < routePort r.1 k) || m.get F.PORT_ROLE_ROLE (routePort r.1 k) != 1))
          { code := 0x01, sec := secRoute, kind := kRecord, index := r.2 })

/-- SIGNATURE (R65). -/
def chkSignature (m : Mach) (img : List Byte) : Option Refuse :=
  let len := img.length
  failIf (Config.sha384 (digestInput img 0x80 (len - 1024)) != BitVec.ofNat 384 (leAt img 0x80 48) ||
    !m.signed (img.drop (len - 1024)) ((img.drop 0x80).take 48)) { code := 0x02 }

/-- MODULE. -/
def chkModule (m : Mach) (p : Plan) : Option Refuse :=
  failIf (p.module != m.self || decide (1024 < p.modules)) { code := 0x03, kind := kModule, index := p.module }

/-- CAPABILITY (R4, 01_architecture.md R39): units, sections and identifiers. -/
def chkCapability (m : Mach) (img : List Byte) (p : Plan) : Option Refuse :=
  if m.capMissing p.capReq then some { code := 0x04 }
  else
    match firstBad (planSections img).zipIdx (fun s =>
        failIf (!s.1.isOptional && (s.1.type == 0 || decide (0x0A < s.1.type) || s.1.sversion != 1)) { code := 0x04, sec := s.1.type, kind := kRecord, index := s.2 }) with
    | some x => some x
    | none =>
      let lode := fun (sec n : Nat) => failIf (decide (16384 ≤ n)) { code := 0x04, sec := sec, kind := kLode, index := n % 2 ^ 28 }
      let herd := fun (sec n : Nat) => failIf (decide (256 ≤ n)) { code := 0x04, sec := sec, kind := kHerd, index := n }
      (firstBad p.lodesOut (fun r => (lode secOut r.lode) <|> (lode secOut r.dstLode) <|> (herd secOut r.herd))) <|>
      (firstBad p.lodesIn (fun r => (lode secIn r.lode) <|> (lode secIn r.srcLode) <|> (herd secIn r.herd))) <|>
      (firstBad p.resvs.zipIdx (fun r => (herd secResv r.1.herd) <|>
        failIf (r.1.type == 0 || decide (6 < r.1.type) || r.1.rversion != 1) { code := 0x04, sec := secResv, kind := kRecord, index := r.2 })) <|>
      (firstBad p.slots (fun s => if s.kind = 1 ∨ s.kind = 2 then lode secSlot s.ref else none))

/-! ## Codes 0x05 to 0x08 -/

/-- LINK_FEATURE (R36, R75, R330): every port with a LINK record or a slot entry. -/
def chkLink (m : Mach) (p : Plan) : Option Refuse :=
  firstBad ((List.range 256).filter (fun q => (p.link q).isSome || p.usesPort q)) (fun q =>
    let x := m.pt q
    let l := p.link q
    let other := match x.partner, l with
      | some o, some r => o.module != r.peerModule || o.port != r.peerPort
      | some _, none => false
      | none, _ => true
    let caps := (x.agreed.map (·.2.2)).getD [0, 0, 0, 0]
    let need := p.linkNeeds q
    let slow := p.usesPort q && (m.get F.PORT_STATUS_RATE q != 0)
    failIf (decide (31 < q) || m.get F.PORT_STATUS_STATE q != 3 || slow || other || nthD caps 3 0 &&& need != need)
      { code := 0x05, sec := if l.isSome then secLink else secSlot, kind := kPort, index := q })

/-- TIME_TREE (02_polder_time.md R44, R45, R483). -/
def chkTree (m : Mach) (p : Plan) : Option Refuse :=
  let bad : Refuse := { code := 0x06, sec := secTree, kind := kRecord, index := 0 }
  match p.tree with
  | [r] =>
    let role := if p.grandMaster = m.self then 1 else if p.standbyGm = m.self then 2 else 0
    if r.role ≠ role ∨ p.grandMaster = p.standbyGm then some bad
    else if role = 1 then none
    else
      let badPort : Nat → Nat → Bool := fun q n => match p.link q with | some l => l.peerModule != n | none => true
      let sameEnd : Bool := match p.link r.primaryPort, p.link r.backupPort with | some a, some b => a.peerPort == b.peerPort | _, _ => true
      let lists := fun (q : Nat) (s : List Nat) =>
        failIf (s.isEmpty || s.any (fun n => decide (p.tideLen ≤ n)) || decide (65536 * slotUnits < p.longestGap s) || !p.slots.any (fun e => e.port == q && e.kind == 4))
          { code := 0x06, sec := secTree, kind := kPort, index := q }
      if badPort r.primaryPort r.primaryModule ∨ r.depth = 0 ∨ 12 < r.depth then some bad
      else if r.hasBackup ∧ (badPort r.backupPort r.backupModule ∨ r.backupPort = r.primaryPort ∨ r.backupDepth = 0 ∨ 12 < r.backupDepth) then some bad
      else if role = 2 ∧ (!r.hasBackup ∨ r.depth ≠ 1 ∨ r.backupDepth ≠ 1 ∨ r.primaryModule ≠ p.grandMaster ∨ r.backupModule ≠ p.grandMaster ∨ sameEnd) then some bad
      else (lists r.primaryPort r.primarySlots) <|> (if r.hasBackup then lists r.backupPort r.backupSlots else none)
  | _ => some bad

/-- PORT_SLOTS (R73, 12_ports_mac.md R309, 09_collectives.md R237). -/
def chkSlots (m : Mach) (p : Plan) : Option Refuse :=
  let entry := fun (e : SlotRec) =>
    let lk := p.link e.port
    let wrongPort := match lk with
      | some l => decide (slotUnits ≤ l.phase) || decide (slotUnits ≤ l.pad)
      | none => true
    let wrong := match e.kind with
      | 1 => (match p.out e.ref with | some r => r.port != e.port | none => true)
      | 2 => (match p.out e.ref with | some r => r.shadowPort != e.port || !r.covered | none => true)
      | 3 => (match p.link (e.ref % 32) with
        | some i => p.phase e.port != (i.peerPhase + 6400 + i.cable + i.pad) % slotUnits
        | none => true)
      | 4 => false
      | _ => true
    failIf (m.get F.PORT_ROLE_ROLE e.port != 1 || wrongPort || wrong) { code := 0x07, sec := secSlot, kind := kPort, index := e.port, slot := some e.slot }
  let lode := fun (r : LodeOut) =>
    let n := (p.slots.filter (fun e => e.kind == 1 && e.ref == r.lode && e.port == r.port)).length
    let listed := r.slotList.all (fun s => p.slotAt r.port s == (1, r.lode)) && r.shadowList.all (fun s => p.slotAt r.shadowPort s == (2, r.lode)) &&
      (r.slotList.zip (r.slotList.drop 1)).all (fun x => decide (x.1 < x.2))
    failIf (n != r.slots || !listed) { code := 0x07, sec := secOut, kind := kLode, index := r.lode, need := r.slots, have' := n }
  let group := fun (g : GroupRec) =>
    let wrong := fun (l mod' : Nat) => match p.out l with | some r => !r.coll || r.dstModule != mod' | none => true
    if wrong g.fwdLode g.succModule then some { code := 0x07, sec := secGroup, kind := kLode, index := g.fwdLode % 2 ^ 28 }
    else failIf (wrong g.backLode g.predModule) { code := 0x07, sec := secGroup, kind := kLode, index := g.backLode % 2 ^ 28 }
  (firstBad p.slots entry) <|> (firstBad p.lodesOut lode) <|> (firstBad p.groups group)

/-- ROUTER_BUFFER (R89): transit frames are counted from the slot tables. How long frames addressed here wait for their turn the image does not say. -/
def chkBuffer (m : Mach) (p : Plan) : Mach × Option Refuse :=
  let resv := fun (q : Nat) => ((p.on 1 q).map (·.amount)).foldl (· + ·) 0
  let one := fun (q : Nat) =>
    let need := 16454 * p.transitHeld q
    let pool := if m.get F.PORT_ROLE_ROLE q = 1 then m.get F.RTE_POOL_SCHED_KIB q * 1024 else 0
    if resv q < need then some { code := 0x08, sec := secResv, kind := kPort, index := q, need := need, have' := resv q }
    else failIf (decide (pool < resv q)) { code := 0x08, sec := secResv, kind := kPort, index := q, need := resv q, have' := pool }
  match (p.resvs.zipIdx.find? (fun r => r.1.type == 1 && decide (2 ^ 32 ≤ r.1.units))) with
  | some r => (m, some { code := 0x08, sec := secResv, kind := kRecord, index := r.2 })
  | none =>
    match firstBad (List.range 32) one with
    | some x => (m, some x)
    | none =>
      if p.lodesIn.isEmpty then (m, none)
      else
        let (ok, m) := m.freshBit
        let (q, m) := m.fresh
        (m, failIf (!ok) { code := 0x08, sec := secResv, kind := kPort, index := q.toNat % 32, need := 16454, have' := resv (q.toNat % 32) })

/-! ## Codes 0x09 to 0x0C -/

/-- The table entry of a PROGRAM record (R218). -/
def progEntry (m : Mach) (r : ProgRec) : Option Nat :=
  if r.library ≠ 0 then (if r.library ≤ 11 then some r.library else none)
  else (m.chu.progs.find? (fun e => e.2.state == 2 && e.2.herd == r.herd && progDigest e.2.image == r.digest)).map (·.1)

/-- Owners of records that do not resolve. -/
def unresolved (m : Mach) (p : Plan) : List Nat := (p.progs.filter (fun r => (m.progEntry r).isNone)).map (·.owner)

/-- Plan maximum of shape i of a record: SHAPE_MAX, or the maximum of the image or the kernel table (R217). -/
def shapeMax (m : Mach) (r : ProgRec) (i : Nat) : Nat :=
  let top := if r.library ≠ 0 then ((kShapes r.library)[i]?.map (fun s => s.2.2)).getD 0
    else match m.progEntry r with
      | some e => ((m.prog e).map (fun x => (progShape x.image i).2)).getD 0
      | none => 0
  let n := nthD r.shapeMax i 0
  if n = 0 then top else min n top

/-- Ct, Cs and PEAT_BYTES of a record at its plan maxima, for every choice of the formats that its launches may name (R210, R228). -/
def progTerms (m : Mach) (r : ProgRec) : List (Nat × Nat × Nat) :=
  let t := popCount r.tiles
  if r.library ≠ 0 then
    let k := r.library
    let shape := fun (i : Nat) => ((kShapes k).zipIdx.find? (fun s => s.1.1 == i)).map (fun s => m.shapeMax r s.2)
    let fmts := kFormats k
    (List.range 200).map (fun c =>
      let a := fun (i : Nat) => match shape i with
        | some n => n
        | none => if fmts.headD 99 = i then c % 10 else if fmts.contains i then c / 10 % 10 else c / 100
      (kCt k t a, kCs k t a, kPeat k a))
  else match (m.progEntry r).bind m.prog with
    | some x =>
      let s := fun i => m.shapeMax r i
      [(resourceOf x.image 1 t s, resourceOf x.image 2 t s, resourceOf x.image 3 t s)]
    | none => []

/-- What a check of R218 says over the open formats: `some false` where it passes for each, `some true` where it fails for each, else `none`. -/
def overFormats (l : List (Nat × Nat × Nat)) (bad : Nat × Nat × Nat → Bool) : Option Bool :=
  if l.all bad then some true else if l.any bad then none else some false

/-- Settles such a check; a free bit decides where launches of either kind may come. -/
def settleOpen (m : Mach) : Option Bool → Mach × Bool
  | some b => (m, b)
  | none => let (b, m) := m.freshBit; (m, b)

/-- A check over records, each of which may draw a free bit. -/
def firstBadM {α : Type} (m : Mach) (l : List α) (bad : Mach → α → Mach × Option Refuse) : Mach × Option Refuse :=
  l.foldl (fun a x => match a.2 with | some r => (a.1, some r) | none => bad a.1 x) (m, none)

/-- Cycles that REDUCE_SCALE of two inputs and SEAL take on one frame of pieces, 16,384 bytes of FP32 (R237 and its worked example), on t tiles. -/
def frameCost (t : Nat) : Nat × Nat :=
  let t := max 1 t
  (256 + ceilDiv (2 * 4096) (128 * t), 64 + ceilDiv 16384 (64 * t))

/-- Units of time that reservations of every tide give within [a, b), measured from the start of a tide. -/
def tileTimeIn (p : Plan) (rs : List Resv) (a b : Nat) : Nat :=
  let t := p.tideUnits
  (rs.map (fun r =>
    let lo := r.start * slotUnits
    let hi := (r.start + r.length) * slotUnits
    ([0, t].map (fun o => min b (hi + o) - max a (lo + o))).foldl (· + ·) 0)).foldl (· + ·) 0

/-- TILE_TIME (R89, R218, R237). -/
def chkTile (m : Mach) (p : Plan) : Mach × Option Refuse :=
  let skip := m.unresolved p
  match p.loadBad 2 64 1 0x09 kTile skip (fun _ => 1) with
  | some x => (m, some x)
  | none =>
    let prog := fun (m : Mach) (r : ProgRec) =>
      if (m.progEntry r).isNone then (m, none)
      else
        let t := ownerResv p r.owner 2
        let peat := ownerResv p r.owner 5
        let need := fun (c : Nat × Nat × Nat) =>
          let cp := match peat with | some q => peatCycles c.2.2 q.amount (popCount q.units) | none => 0
          ceilDiv (costOf c.1 c.2.1 cp) 425 + 10
        let terms := m.progTerms r
        match t with
        | none => (m, some { code := 0x09, sec := secProg, kind := kTile, index := (maskBits r.tiles).headD 0, need := ((terms.map need).headD 0), have' := 0 })
        | some t =>
          if t.units ≠ r.tiles then (m, some { code := 0x09, sec := secProg, kind := kTile, index := (maskBits r.tiles).headD 0, slot := some t.start, need := t.length, have' := t.length })
          else
            let (m, b) := m.settleOpen (overFormats terms (fun c => decide (t.length < need c)))
            (m, failIf b { code := 0x09, sec := secProg, kind := kTile, index := (maskBits r.tiles).headD 0, slot := some t.start, need := (terms.map need).foldl max 0, have' := t.length })
    match m.firstBadM p.progs prog with
    | (m, some x) => (m, some x)
    | (m, none) =>
      (m, firstBad p.groups (fun g =>
        match p.out g.fwdLode with
        | none => none
        | some r =>
          let rs := p.resvs.filter (fun t => t.type == 2 && t.owner == g.owner && decide (t.period ≤ 1))
          let n := popCount ((rs.headD { type := 0, rversion := 0, herd := 0, units := 0, start := 0, length := 0, period := 0, tphase := 0, amount := 0, owner := 0 }).units)
          let c := (frameCost n).1 + (frameCost n).2
          let opens := r.slotList.map (fun s => s * slotUnits + p.phase r.port)
          let ends := opens.drop 1 ++ [opens.headD 0 + p.tideUnits]
          let short := (opens.zip ends).any (fun x => decide (tileTimeIn p rs x.1 x.2 * 5 < c * 32))
          let total := (rs.map (fun t => t.length)).foldl (· + ·) 0
          let need := ceilDiv (c * opens.length) 425 + 10
          failIf (short || decide (total < need)) { code := 0x09, sec := secGroup, kind := kRecord, index := g.group, need := need, have' := total }))

/-- CREAM (R89, R218, R237, 10_memory.md R265): space, programs, credits, and what a bank moves in a slot. Which bank a credit buffer lies in and how much a
launch streams from Cream the image does not say: a bank that serves one group and no program cannot exceed its 36,720 B. -/
def chkCream (m : Mach) (p : Plan) : Mach × Option Refuse :=
  let skip := m.unresolved p
  let bytes := fun (o : Nat) => ((p.resvs.filter (fun r => r.type == 3 && r.owner == o)).map (fun r => popCount r.units * r.length)).foldl (· + ·) 0
  let prog := fun (r : ProgRec) =>
    match m.progEntry r with
    | none => none
    | some e =>
      let (sram, cream) := if e < 64 then (0, 0) else ((m.prog e).map (fun x => (progSram x.image, progCream x.image))).getD (0, 0)
      match (tilesOf r.tiles).find? (fun t => decide ((((p.on 4 t).filter (fun x => x.owner == r.owner)).map (·.length)).foldl max 0 < sram)) with
      | some t => some { code := 0x0A, sec := secProg, kind := kTile, index := t, need := sram, have' := (((p.on 4 t).filter (fun x => x.owner == r.owner)).map (·.length)).foldl max 0 }
      | none => failIf (decide (bytes r.owner < cream)) { code := 0x0A, sec := secProg, kind := kRecord, index := r.owner % 2 ^ 28, need := cream, have' := bytes r.owner }
  let group := fun (g : GroupRec) =>
    if bytes g.owner < g.credits * 16384 then some { code := 0x0A, sec := secGroup, kind := kRecord, index := g.group, need := g.credits * 16384, have' := bytes g.owner }
    else match p.out g.fwdLode, p.out g.backLode with
      | some f, some b =>
        let need := 2 * (ceilDiv (g.hop + b.latency + p.longestGap b.slotList + 5440) (max 1 (p.longestGap f.slotList)) + 2)
        failIf (decide (g.credits < need)) { code := 0x0A, sec := secGroup, kind := kRecord, index := g.group, need := need, have' := g.credits }
      | _, _ => none
  match (p.spaceBad 3 3145728 1 kBank skip) <|> (p.spaceBad 4 1048576 4096 kTile skip) <|> (firstBad p.progs prog) <|> (firstBad p.groups group) with
  | some x => (m, some x)
  | none =>
    let busy := (List.range 64).filter (fun b =>
      let l := p.on 3 b
      let groups := (p.groups.filter (fun g => l.any (fun r => r.owner == g.owner))).length
      let progs := p.progs.any (fun r => l.any (fun x => x.owner == r.owner))
      decide (2 ≤ groups) || progs)
    match busy with
    | [] => (m, none)
    | b :: _ =>
      let (ok, m) := m.freshBit
      (m, failIf (!ok) { code := 0x0A, sec := secResv, kind := kBank, index := b, need := 36721, have' := 36720 })

/-- PEAT_WINDOW (R89, R218, 10_memory.md R269). -/
def chkPeat (m : Mach) (p : Plan) : Mach × Option Refuse :=
  let skip := m.unresolved p
  match (firstBad p.resvs.zipIdx (fun r => failIf (r.1.type == 5 && r.1.units != 2 ^ 24 - 1 && !skip.contains r.1.owner)
      { code := 0x0B, sec := secResv, kind := kRecord, index := r.2 })) <|> (p.loadBad 5 24 11616 0x0B kCtrl skip (fun r => r.amount)) with
  | some x => (m, some x)
  | none =>
    m.firstBadM p.progs (fun m r =>
      if (m.progEntry r).isNone then (m, none)
      else
        let terms := m.progTerms r
        let grant := match ownerResv p r.owner 5, ownerResv p r.owner 2 with
          | some q, some t =>
            if q.start = t.start ∧ q.length = t.length ∧ q.period = t.period ∧ q.tphase = t.tphase then q.amount * popCount q.units * (q.length - 10) else 0
          | _, _ => 0
        let (m, b) := m.settleOpen (overFormats terms (fun c => c.2.2 != 0 && decide (grant < c.2.2)))
        (m, failIf b { code := 0x0B, sec := secProg, kind := kRecord, index := r.owner % 2 ^ 28, need := (terms.map (fun c => c.2.2)).foldl max 0, have' := grant }))

/-- CIPHER_BW (R89, 15_cipher.md R369): the engines present, and for each primary slot of an encrypted lode a reservation of its OWNER on the engine of the
port. The engine that decrypts an incoming lode and the Peat addresses that scheduled work touches are not in the image. -/
def chkCipher (m : Mach) (p : Plan) : Mach × Option Refuse :=
  match p.loadBad 6 (m.get F.ID_CAP0_CIPHER_ENGINES) 136000 0x0C kEngine [] (fun r => r.amount) with
  | some x => (m, some x)
  | none =>
    let cover := fun (r : LodeOut) =>
      match r.slotList.find? (fun s => !((p.on 6 (r.port % 4)).any (fun x =>
          x.owner == r.lode && decide (x.period ≤ 1) && decide (x.start ≤ s) && decide (s < x.start + x.length) && decide (16384 ≤ x.amount)))) with
      | some s => if r.encrypted then some { code := 0x0C, sec := secOut, kind := kEngine, index := r.port % 4, slot := some s, need := 16384, have' := 0 } else none
      | none => none
    match firstBad p.lodesOut cover with
    | some x => (m, some x)
    | none =>
      let open' := p.lodesIn.any (fun r => r.encrypted) || (p.resvs.any (fun r => r.type == 5) && (m.listed F.PEAT_GRAN.addr).any (fun g => (m.gran g.1).crypt))
      if open' then
        let (ok, m) := m.freshBit
        let (e, m) := m.fresh
        (m, failIf (!ok) { code := 0x0C, sec := secResv, kind := kEngine, index := e.toNat % 4, need := 136001, have' := 136000 })
      else (m, none)

/-! ## Codes 0x0D to 0x13 -/

/-- Claims of a plan on a herd's shares (R91, 14_herds.md R352). -/
def claim (p : Plan) (h : Nat) (r : Res) : Nat :=
  let resv := fun (t : Nat) => p.resvs.filter (fun x => x.type == t && x.herd == h)
  let sum := fun (l : List Nat) => l.foldl (· + ·) 0
  let den := fun (x : Resv) => x.per * p.tideLen
  match r.word, r.lo with
  | 1, 24 => (p.groups.filter (fun g => g.herd == h)).length
  | 3, 0 => (p.lodesOut.filter (fun l => l.herd == h)).length
  | 5, 0 => sum ((resv 4).map (fun x => ceilDiv (popCount x.units * x.length) 65536))
  | 6, 0 => sum ((resv 2).map (fun x => ceilDiv (4096 * popCount x.units * x.length) (den x * 64)))
  | 6, 16 => sum ((resv 6).map (fun x => ceilDiv (4096 * x.amount * popCount x.units * x.length) (den x * 544000)))
  | 7, 0 => sum ((resv 5).map (fun x => ceilDiv (4096 * x.amount * popCount x.units * x.length) (den x * 278784)))
  | _, _ => 0

/-- Herds that a plan names. -/
def planHerds (p : Plan) : List Nat :=
  (p.lodesOut.map (·.herd) ++ p.lodesIn.map (·.herd) ++ p.resvs.map (·.herd) ++ p.groups.map (·.herd) ++ p.progs.map (·.herd)).eraseDups

/-- HERD_SHARE (R91, 09_collectives.md R237, 10_memory.md R264, 15_cipher.md R379). -/
def chkHerd (m : Mach) (p : Plan) : Option Refuse :=
  let bad := fun (h need have' : Nat) => some ({ code := 0x0D, kind := kHerd, index := h, need := need, have' := have' } : Refuse)
  let dyn := m.coll.groups.filter (fun g => g.2.dynamic)
  let creamOwn := fun (x : Resv) => (maskBits x.units).all (fun b =>
    (List.range ((x.start + x.length + 65535) / 65536 - x.start / 65536)).all (fun i =>
      let g := b * 48 + x.start / 65536 + i
      m.get F.CRM_GRAN_STATE 0 g == 1 && m.get F.CRM_GRAN_HERD 0 g == x.herd))
  let page := fun (h n : Nat) => decide (n < 1024) && m.get F.CIPH_PAGE_STATUS_STATE 0 n != 0 && m.get F.CIPH_PAGE_STATUS_HERD 0 n == h && m.get F.CIPH_PAGE_STATUS_KIND 0 n == 1
  firstBad (planHerds p) (fun h =>
    if h ≠ 0 ∧ m.get F.QE_HERD_STATUS_STATE 0 h = 0 then bad h 1 0
    else
      match firstBad [resLodes, resTile, resCipher, resPeatBw, resCream, resGroups] (fun r =>
          let mine := if r.word = 1 then (dyn.filter (fun g => g.2.def'.herd == h)).length
            else if r.word = 5 then m.creamAlloc h / 65536 else 0
          let need := claim p h r + mine
          let have' := if h = 0 then m.pool r - m.sharesOthers r else m.granted h r
          if have' < need ∧ claim p h r ≠ 0 then bad h need have' else none) with
      | some x => some x
      | none =>
        if p.resvs.any (fun x => x.type == 3 && x.herd == h && !creamOwn x) then bad h 1 0
        else if p.lodesOut.any (fun l => l.encrypted && l.herd == h && !page h l.keyPage) || p.lodesIn.any (fun l => l.encrypted && l.herd == h && !page h l.keyPage)
          then bad h 1 0
        else none) <|>
  (if 128 < dyn.length + p.groups.length then some { code := 0x0D, sec := secGroup, kind := kModule, index := m.self, need := dyn.length + p.groups.length, have' := 128 } else none)

/-- COVERAGE (R83, 04_lodes_ordering.md R104). -/
def chkCoverage (p : Plan) : Option Refuse :=
  firstBad (p.lodesOut.filter (fun r => r.covered)) (fun r =>
    let links := fun (l : List Hop) => l.map (fun h => (h.module, h.outPort))
    let mids := fun (l : List Hop) => (l.drop 1).map (fun h => h.module)
    let bad : Refuse := { code := 0x0E, sec := secOut, kind := kLode, index := r.lode }
    if (links r.path).any (fun x => (links r.shadowPath).contains x) ∨ (mids r.path).any (fun x => (mids r.shadowPath).contains x) then some bad
    else
      let a := r.slotList.map (fun s => s * slotUnits + p.phase r.port + slotUnits + r.latency)
      let b := r.shadowList.map (fun s => s * slotUnits + p.phase r.shadowPort + slotUnits + r.shadowLatency)
      firstBad ((a.zip b).zip r.slotList) (fun x =>
        let (pr, sh) := x.1
        if pr < sh then some { bad with slot := some x.2, need := sh, have' := pr }
        else failIf (decide (64 < p.between a sh pr) || decide (64 < p.between b sh pr)) { bad with slot := some x.2, need := p.between a sh pr, have' := 64 }))

/-- DEADLINE (R77, 09_collectives.md R237). The links beyond the first, and the pad of the first link's far end, are only in the PROOF section. -/
def chkDeadline (m : Mach) (p : Plan) : Mach × Option Refuse :=
  let way := fun (r : LodeOut) (port hops lat : Nat) =>
    let floor := hops * 6400 + if hops = 0 then 0 else ((p.link port).map (·.cable)).getD 0
    let bad : Refuse := { code := 0x0F, sec := secOut, kind := kLode, index := r.lode }
    if lat < floor then some { bad with need := floor, have' := lat }
    else failIf (decide (p.maxFlight < slotUnits + lat)) { bad with need := slotUnits + lat, have' := p.maxFlight }
  let lode := fun (r : LodeOut) => (way r r.port r.hops r.latency) <|> (if r.covered then way r r.shadowPort r.shadowHops r.shadowLatency else none)
  let group := fun (g : GroupRec) => match p.out g.fwdLode with
    | some r =>
      let tiles := (ownerResv p g.owner 2).map (fun t => popCount t.units)
      let floor := r.latency + slotUnits + cycleUnits (frameCost (tiles.getD 1)).1
      failIf (decide (g.hop < floor)) { code := 0x0F, sec := secGroup, kind := kRecord, index := g.group, need := floor, have' := g.hop }
    | none => none
  match (firstBad p.lodesOut lode) <|> (firstBad p.groups group) with
  | some x => (m, some x)
  | none =>
    match p.lodesOut.find? (fun r => r.hops != 0) with
    | none => (m, none)
    | some r =>
      let (ok, m) := m.freshBit
      (m, failIf (!ok) { code := 0x0F, sec := secOut, kind := kLode, index := r.lode, need := r.latency + 1, have' := r.latency })

/-- SLACK (R87). -/
def chkSlack (p : Plan) : Option Refuse :=
  failIf (p.stagedOk && decide (1000000000 < p.slackPeriod * p.tideLen * 170)) { code := 0x10, need := p.slackPeriod * p.tideLen, have' := 1000000000 / 170 }

/-- PROGRAM (R218). -/
def chkProgram (m : Mach) (p : Plan) : Option Refuse :=
  firstBad p.progs.zipIdx (fun r =>
    let bad := some ({ code := 0x11, sec := secProg, kind := kRecord, index := r.2 } : Refuse)
    match m.progEntry r.1 with
    | none => bad
    | some e =>
      let t := popCount r.1.tiles
      let (lo, hi) := if e < 64 then (1, 64) else ((m.prog e).map (fun x => (progTilesMin x.image, progTilesMax x.image))).getD (1, 0)
      if t < lo ∨ hi < t ∨ (e < 64 ∧ m.kernelAbsent e) then bad else none)

/-- SWITCH (R93). -/
def chkSwitch (m : Mach) (p : Plan) : Option Refuse :=
  match m.active with
  | none => none
  | some (_, old) =>
    if p.epoch = old.epoch then some { code := 0x12 }
    else
      let base := BitVec.ofNat 64 p.tideBase
      firstBad p.slots (fun e =>
        let opens := p.opening e.port e.slot
        -- the old plan's slot that is open at TIDE_BASE closes within one slot of it
        let gone := (timeDiff base (BitVec.ofNat 64 (old.tideBase + old.phase e.port))) % (slotUnits : Nat)
        let close := base + BitVec.ofInt 64 (if gone = 0 then 0 else (slotUnits : Int) - gone)
        failIf (decide (timeDiff opens close < 0)) { code := 0x12, sec := secSlot, kind := kPort, index := e.port, slot := some e.slot })

/-- PROOF: the section's layout is not given, so whether its figures bound the module's own is open; without a section there is no figure to exceed. -/
def chkProof (m : Mach) (p : Plan) : Mach × Option Refuse :=
  if p.proof.isEmpty then (m, none)
  else
    let (ok, m) := m.freshBit
    (m, failIf (!ok) { code := 0x13, sec := secProof })

/-- Checks 0x01 to 0x04, which wait for nothing. -/
def admitEarly (m : Mach) (img : List Byte) : Option Refuse :=
  let p := planOf img
  (m.chkFormat img p) <|> (m.chkSignature img) <|> (m.chkModule p) <|> (m.chkCapability img p)

/-- Checks 0x05 to 0x13 in order. -/
def admitLate (m : Mach) (p : Plan) : Mach × Option Refuse :=
  let pure' := fun (f : Mach → Option Refuse) (m : Mach) => (m, f m)
  m.firstBadM
    [pure' (fun m => m.chkLink p), pure' (fun m => m.chkTree p), pure' (fun m => m.chkSlots p), fun m => m.chkBuffer p, fun m => m.chkTile p, fun m => m.chkCream p,
     fun m => m.chkPeat p, fun m => m.chkCipher p, pure' (fun m => m.chkHerd p), pure' (fun _ => chkCoverage p), fun m => m.chkDeadline p,
     pure' (fun _ => chkSlack p), pure' (fun m => m.chkProgram p), pure' (fun m => m.chkSwitch p), fun m => m.chkProof p]
    (fun m f => f m)

end Mach
end Sys2Proof.Machine
end

