-- ==== Sys2Proof/Machine/PlanRun.lean ====
section
/-! DEFINITION. Plan banks, tides and slots: the plan bank state table (03_sluice_plans.md R67), what a switch does (R92 to R95), what a tide boundary does
(02_polder_time.md R51, R61), what a port sends in a slot (R71, R82), and the planned use of clock domains (R96). -/
namespace Sys2Proof.Machine
namespace Mach

/-! ## Claims of the plans held (14_herds.md R352) -/

/-- What the plans in banks ADMITTED, ARMED, ACTIVE or RETIRING claim of a resource for a herd: lode endpoints that any of them names, scheduled groups held,
and of the rest the larger claim. -/
def planClaim (m : Mach) (h : Nat) (r : Res) : Nat :=
  match r.word, r.lo with
  | 3, 0 => ((m.heldPlans.flatMap (fun p => (p.2.lodesOut.filter (fun l => l.herd == h)).map (·.lode))).eraseDups).length
  | 1, 24 => (m.coll.groups.filter (fun g => !g.2.dynamic && g.2.def'.herd == h)).length
  | _, _ => (m.heldPlans.map (fun p => claim p.2 h r)).foldl max 0

/-- Counts the change of the plans' claims into the current use of every herd they name. -/
def syncClaims (m0 m : Mach) : Mach :=
  let hs := ((m0.heldPlans ++ m.heldPlans).flatMap (fun p => planHerds p.2) ++ (m0.coll.groups.map (fun g => g.2.def'.herd))).eraseDups
  hs.foldl (fun m h =>
    [resLodes, resTile, resCipher, resPeatBw, resCream, resGroups].foldl (fun m r =>
      let a := m0.planClaim h r
      let b := m.planClaim h r
      if a = b then m else m.setUsed h r (m.used h r - a + b)) m) m

/-! ## Commands of SLU_PLAN_CMD -/

/-- Sets PLAN_ID of a bank. -/
def setPlanId (m : Mach) (b n : Nat) : Mach := if b = 0 then m.set64 F.SLU_PLAN_ID0_LO n else m.set64 F.SLU_PLAN_ID1_LO n

/-- A command in a state that has no row for it (R67). -/
def planDropped (m : Mach) : Mach := m.set F.SLU_BANK_STATUS_CMD_DROPPED 1

/-- An empty bank. -/
def emptyBank : Bank := { image := [], plan := none, stopAt := none, unload := false }

/-- Bring-up service ends (17_clocks_power_reset.md R428, 12_ports_mac.md R312): a valid configuration image is in force, the boot has reached step 9. -/
def bringUpEnd (m : Mach) : Mach :=
  if m.get F.CLK_BOOT_STEP = 9 ∧ m.bit F.CFG_STATUS_DEFAULTS = false then
    ((m.set F.CLK_BOOT_STEP 10).set F.CLK_STATUS_POWER_STATE 2).retrainStart
  else m

/-- LOAD (R63, R66, R67): the image is copied from the bank's half of the plan region. -/
def planLoad (m : Mach) (b : Nat) : Mach :=
  let st := m.bankState b
  let at' := m.get64 F.SLU_PLAN_REGION_LO
  if (st ≠ 0 ∧ st ≠ 2) ∨ at' = 2 ^ 64 - 1 then m.planDropped
  else
    let a := at' + b * 2 ^ 28
    let len := min (leNat (m.rdBytes .peat (a + 8) 4)) (2 ^ 28)
    let m := (m.putPlan { m.plan with loadSeen := true })
    let m := m.setBank b { emptyBank with image := m.rdBytes .peat a len }
    (m.setBankState b 1).bringUpEnd

/-- ARM (R68). -/
def planArm (m : Mach) (b : Nat) : Mach :=
  match m.bankState b, (m.bank b).plan with
  | 3, some p =>
    let base := BitVec.ofNat 64 p.tideBase
    let ahead := timeDiff base m.polder
    let time := m.tState == tLocked || m.tState == tRoot
    let fits : Bool := match m.active with
      | none => decide ((100 * us : Nat) ≤ ahead)
      | some (_, o) =>
        decide ((o.tideUnits : Nat) ≤ ahead) && timeDiff base (BitVec.ofNat 64 o.tideBase) % (o.tideUnits : Nat) == 0 && p.epoch != o.epoch
    if time && fits && m.bankState 0 != 6 && m.bankState 1 != 6 then m.setBankState b 4 else m.set F.SLU_BANK_STATUS_ARM_REFUSED 1
  | _, _ => m.planDropped

/-- CLEAR (R67). -/
def planClear (m : Mach) (b : Nat) : Mach :=
  let st := m.bankState b
  if st = 2 ∨ st = 3 ∨ st = 4 then syncClaims m (((m.setBank b emptyBank).setBankState b 0).setPlanId b 0) else m.planDropped

/-- Polder time at which the tide after the current one of a plan begins. -/
def nextTide (m : Mach) (p : Plan) : DWord :=
  BitVec.ofNat 64 (p.tideBase + (match p.tideAt m.polder with | some k => (k + 1) * p.tideUnits | none => 0))

/-- UNLOAD (R67): the ACTIVE bank retires; its slots open until the next tide boundary. -/
def planUnload (m : Mach) (b : Nat) : Mach :=
  match m.bankState b, (m.bank b).plan with
  | 5, some p =>
    let m := m.setBank b { m.bank b with stopAt := some (m.nextTide p), unload := true }
    (((m.setBankState b 6).set F.SLU_BANK_STATUS_EPOCH 0).set F.SLU_MAX_FLIGHT 0).set F.RTE_STATUS_TABLE 0
  | _, _ => m.planDropped

/-- A write of SLU_PLAN_CMD (R98): BANK is kept, and each command bit acts, in the order LOAD, ARM, CLEAR, UNLOAD. -/
def planCmd (m : Mach) (p : Path) (value : Nat) : Mach :=
  m.stewardGate p 0x00300008 (fun m =>
    let b := getBits value 8 1
    let m := m.set F.SLU_PLAN_CMD_BANK b
    let m := if getBits value 0 1 = 1 then m.planLoad b else m
    let m := if getBits value 1 1 = 1 then m.planArm b else m
    let m := if getBits value 2 1 = 1 then m.planClear b else m
    if getBits value 3 1 = 1 then m.planUnload b else m)

/-! ## The end of CHECKING (R69) -/

/-- The refusal record, PLAN_REFUSED and the bank REFUSED. -/
def planRefuse (m : Mach) (b : Nat) (r : Refuse) : Mach :=
  let m := ((m.set F.SLU_REFUSE_CODE_BANK b).set F.SLU_REFUSE_CODE_SECTION (r.sec % 65536)).set F.SLU_REFUSE_CODE_CODE r.code
  let m := (m.set F.SLU_REFUSE_WHERE_KIND r.kind).set F.SLU_REFUSE_WHERE_INDEX (r.index % 2 ^ 28)
  let m := (m.set F.SLU_REFUSE_SLOT_VALID (if r.slot.isSome then 1 else 0)).set F.SLU_REFUSE_SLOT_SLOT (r.slot.getD 0)
  let m := (m.set F.SLU_REFUSE_NEED (min r.need (2 ^ 32 - 1))).set F.SLU_REFUSE_HAVE (min r.have' (2 ^ 32 - 1))
  let m := (m.setBank b emptyBank).setBankState b 2
  m.raise 0x0301 srcSlu 0 [0] b (m.reg (regKey 0x00300020 0)).toNat

/-- PLAN_CHECK_COMPLETE: the checks end. Check 0x05 waits for the retraining of R312. -/
def planChecked (m : Mach) (b : Nat) : Mach :=
  if m.bankState b ≠ 1 then m
  else
    let img := (m.bank b).image
    match m.admitEarly img with
    | some r => m.planRefuse b r
    | none =>
      if (List.range 32).any (fun q => m.retraining q) then m
      else
        let p := planOf img
        match m.admitLate p with
        | (m, some r) => m.planRefuse b r
        | (m, none) =>
          let m' := (m.setBank b { emptyBank with plan := some p }).setBankState b 3
          ((syncClaims m m').setPlanId b p.planId).raise 0x0300 srcSlu 0 [0] b p.planId

/-! ## What leaves and what stays at a switch -/

/-- Lodes that the plan to come lacks (R94): descriptors not wholly accepted complete with PLAN_ABSENT; accepted frames stay. SEQ starts at 0 when the lode appears
again (04_lodes_ordering.md R101). -/
def lodesLeave (m : Mach) (old new : Option Plan) : Mach :=
  m.lode.tx.foldl (fun (m : Mach) (x : Nat × LodeTx) =>
    let kept : Bool := match old.bind (fun p => p.out x.1), new.bind (fun p => p.out x.1) with
      | some a, some b => a.dstModule == b.dstModule && a.dstLode == b.dstLode
      | _, _ => false
    if kept = true then m
    else
      let m := m.setLtx x.1 { x.2 with queue := [], seq := 0, lastSlot := none }
      x.2.queue.foldl (fun m g => m.complete g.sq g.uid stPlanAbsent 0 0) m) m

/-- Incoming endpoints that the new plan gives another source start over; what they still owe a reader stays. -/
def lodesArrive (m : Mach) (old : Option Plan) (new : Plan) : Mach :=
  new.lodesIn.foldl (fun (m : Mach) (r : LodeIn) =>
    let kept : Bool := match old.bind (fun p => p.inc r.lode) with
      | some a => a.srcModule == r.srcModule && a.srcLode == r.srcLode
      | none => false
    if kept = true ∨ (alGet m.lode.rx r.lode).isNone then m
    else m.setLrx r.lode { freshRx with msgs := (m.lrx r.lode).msgs.filter (fun g => g.resolved) }) m

/-- Receive bindings of endpoints that leave the plan or change herd are cleared (05_queues_descriptors.md R147). -/
def bindsLeave (m : Mach) (old new : Option Plan) : Mach :=
  ((m.listed 0x00400404).map (·.1)).foldl (fun m e =>
    let stays : Bool := match new.bind (fun p => p.inc e) with
      | some r => (match old.bind (fun p => p.inc e) with | some o => o.herd == r.herd | none => true)
      | none => false
    if stays = true ∨ m.bit F.QE_RX_BIND_ENABLE 0 e = false then m else m.set F.QE_RX_BIND_ENABLE 0 0 e) m

/-! ## Tides -/

/-- What every tide boundary does: Tide-class fields take effect (00_scope.md R13), a STOPPED module that has relocked resumes, links whose neighbour resumed return
(02_polder_time.md R61), drop counts start over (R95); in a slack tide the tree links are measured (R47), else every 64 tides, and the module returns to its
primary parent (R58). -/
def tideWork (m : Mach) (p : Plan) (k : Nat) : Mach :=
  let plan := { m.plan with tideNo := k, drops := [], outPorts := m.plan.outPorts.filter (fun x => x.2 != 61) }
  let m := ((m.putTideOld []).putPlan { plan with schedStopped := plan.schedStopped && !(m.tState == tLocked || m.tState == tRoot) })
  let slack : Bool := p.isSlack k
  let measures : Bool := slack || (p.slackPeriod == 0 && k % 64 == 0 && k != 0)
  let m : Mach := if measures then
      ([m.parentPort 0, m.parentPort 1].filterMap id).foldl (fun m q => if m.get F.PORT_STATUS_STATE q = 3 then m.beginMeasure q else m) m
    else m
  if slack ∧ m.tState = tLocked ∧ m.followed = 1 ∧ m.parentFresh 0 ∧ (m.parent 0).holdover = false ∧ 16 ≤ (m.parent 0).good then
    ((m.set F.SLU_TIME_STATUS_PARENT 0).enterLocked).raise 0x0202 srcTime 0 [0] ((m.parentPort 0).getD 0) m.errShown
  else m

/-- TIDE_BOUNDARY: a later tide of the plan in force has begun; a plan whose UNLOAD waited for it stops (R23, R67). -/
def tideBoundary (m : Mach) : Mach :=
  match m.active with
  | some (_, p) =>
    match p.tideAt m.polder with
    | some k => if m.plan.tideNo < k then m.tideWork p k else m
    | none => m
  | none =>
    match m.unloading with
    | some (b, p) =>
      match (m.bank b).stopAt with
      | some e =>
        if reached m.polder e then
          let m1 := m.tideWork p (m.plan.tideNo + 1)
          let m1 := m1.setBank b { m1.bank b with unload := false }
          let m1 := (m1.lodesLeave (some p) none).bindsLeave (some p) none
          syncClaims m (m1.collSwitch { p with groups := [] })
        else m
      | none => m
    | none => m

/-- The banks change places at TIDE_BASE (R67): the ARMED bank is ACTIVE, the ACTIVE one RETIRING. With none RETIRING the base table stays in force for MAX_FLIGHT
(13_routing_deadlock.md R339). -/
def switchBanks (m : Mach) (b : Nat) (p : Plan) : Mach :=
  let base := BitVec.ofNat 64 p.tideBase
  let m : Mach := match m.active with
    | some (o, _) => (m.setBank o { m.bank o with stopAt := some base }).setBankState o 6
    | none => (m.putPlan { m.plan with baseHoldEnd := some (base + BitVec.ofNat 64 p.maxFlight) }).set F.RTE_STATUS_BASE_HELD 1
  let m := ((m.setBankState b 5).set F.SLU_BANK_STATUS_SWITCHED 1).set F.SLU_BANK_STATUS_EPOCH p.epoch
  let m := ((m.set F.SLU_BANK_STATUS_ACTIVE_BANK b).set F.SLU_MAX_FLIGHT p.maxFlight).set F.RTE_STATUS_TABLE (b + 1)
  if 9 ≤ m.get F.CLK_BOOT_STEP then m.set F.CLK_BOOT_STEP 11 else m

/-- Links come back to scheduled use as the new plan has it: what R95 took out returns, partners and features are compared anew (R36, R330). -/
def switchLinks (m : Mach) : Mach :=
  let m : Mach := (m.putPlan { m.plan with outPorts := m.plan.outPorts.filter (fun x => x.2 != 95) })
  (List.range 32).foldl (fun m q => if m.get F.PORT_STATUS_STATE q = 3 then m.partnerCheck q else m) m

/-- A pending staged set at TIDE_BASE of a plan that leaves it no slack tide: refused with CFG_NEEDS_SLACK, the set stays staged (18_config_firmware.md
R440, R441). -/
def stagedNeedsSlack (m : Mach) (p : Plan) : Mach :=
  if m.bit F.CFG_STATUS_PENDING = false ∨ (p.slackPeriod ≠ 0 ∧ p.stagedOk) then m
  else
    (((m.putCfg { m.cfg with commitAt := none }).set F.CFG_STATUS_PENDING 0).set F.CFG_STATUS_REFUSED 1).set F.CFG_STATUS_REASON 1

/-- PLAN_ACTIVATE (R92): polder time has reached TIDE_BASE of the ARMED bank. -/
def planActivate (m : Mach) : Mach :=
  match m.bankIn 4 with
  | none => m
  | some (b, p) =>
    if reached m.polder (BitVec.ofNat 64 p.tideBase) = false then m
    else
      let m1 := (m.stagedNeedsSlack p).switchBanks b p
      let m2 := ((m1.lodesLeave m.plan? (some p)).lodesArrive m.plan? p).bindsLeave m.plan? (some p)
      let m3 := ((m2.switchLinks.collSwitch p).sramSwitch p).timeSwitch m.tree
      let m4 := (m3.tideWork p 0).raise 0x0302 srcSlu 0 m3.liveHerds b p.planId
      syncClaims m m4

/-- PLAN_RETIRE: MAX_FLIGHT has passed since the RETIRING plan stopped opening slots (R67, 13_routing_deadlock.md R340). -/
def planRetire (m : Mach) : Mach :=
  match m.retiring with
  | none => m
  | some (b, p) =>
    match (m.bank b).stopAt with
    | none => m
    | some e =>
      if (m.bank b).unload = false ∧ reached m.polder (e + BitVec.ofNat 64 p.maxFlight) then
        let m' := (((m.setBank b emptyBank).setBankState b 0).setPlanId b 0).releaseTable (b + 1)
        (syncClaims m m').raise 0x0303 srcSlu 0 [0] b p.planId
      else m

/-! ## Slots -/

/-- A slot of a port whose opening polder time has just reached: the plan that opened it and its absolute number; the datapath starts a frame at most
0.64 ns after the opening (02_polder_time.md R52). -/
def slotNow (m : Mach) (q : Nat) : Option (Plan × Nat) :=
  let under := fun (p : Plan) (stop : Option DWord) =>
    match p.absSlot m.polder q with
    | none => none
    | some n =>
      let o := p.opening q n
      let stopped := match stop with | some e => reached o e | none => false
      if timeDiff m.polder o ≤ 10 ∧ stopped = false then some (p, n) else none
  match (m.active.bind (fun b => under b.2 none)) with
  | some x => some x
  | none => m.retiring.bind (fun b => under b.2 (m.bank b.1).stopAt)

/-- Marks the slot of a port as used. -/
def slotUsed (m : Mach) (q : Nat) (o : DWord) : Mach :=
  (m.putPlan { m.plan with lastSlot := (m.plan.lastSlot.filter (fun x => x.1 != q)) ++ [(q, o)] })

/-- Sends a scheduled frame in a slot. -/
def slotSend (m : Mach) (q : Nat) (o : DWord) (f : SchedFrame) : Mach := (m.sendSched q f).slotUsed q o

/-- Whether the engine of a port can encrypt (15_cipher.md R389). -/
def portCiphers (m : Mach) (q : Nat) (enc : Bool) : Bool := !enc || !m.bit F.CIPH_ENG_STATUS_FENCED (q % 4)

/-- A LODE or SHADOW slot of a lode that carries no group (R82): the accepted frame whose slot it is. -/
def lodeSlot (m : Mach) (p : Plan) (q n : Nat) (o : DWord) (r : LodeOut) (shadow : Bool) : Mach :=
  let x := m.ltx r.lode
  match x.frames.find? (fun a => a.epoch == p.epoch && (if shadow then a.shadowSlot == some n && !a.shadowSent else a.slot == n && !a.sent)) with
  | none => m
  | some a =>
    let b := if shadow then { a with shadowSent := true } else { a with sent := true }
    let m := m.setLtx r.lode { x with frames := (x.frames.map (fun y => if y == a then b else y)).filter (fun y => !(y.sent && y.shadowSent)) }
    if m.schedUp q && m.portCiphers q r.encrypted then
      m.slotSend q o { epoch := p.epoch, dstModule := r.dstModule, tailOk := true, shadow := shadow, body := .lode a.frame }
    else m

/-- A slot of a COLL lode (09_collectives.md R245 to R247): its frame is filled when the slot opens; for a covered lode at the earlier slot of a pair, and the
later slot carries the same frame. -/
def collLodeSlot (m : Mach) (p : Plan) (q n : Nat) (o : DWord) (r : LodeOut) (shadow : Bool) : Mach :=
  let send := fun (m : Mach) (c : ChunkFrame) =>
    if m.schedUp q && m.portCiphers q r.encrypted then
      m.slotSend q o { epoch := p.epoch, dstModule := r.dstModule, tailOk := true, shadow := shadow, body := .chunk c }
    else m
  match m.lode.copies.find? (fun c => c.1 == r.lode && c.2.1 == p.epoch && c.2.2.1 == n) with
  | some c => send (m.putLode { m.lode with copies := m.lode.copies.erase c }) c.2.2.2
  | none =>
    let k := n / p.tideLen
    let (mine, other) := if shadow then (r.shadowList, r.slotList) else (r.slotList, r.shadowList)
    let i := mine.findIdx (fun s => s == n % p.tideLen)
    let pair := k * p.tideLen + nthD other i 0
    let later := decide (0 < timeDiff (p.opening (if shadow then r.port else r.shadowPort) pair) o)
    if r.covered ∧ later = false then m
    else
      match m.collSlot r.lode r with
      | (m, none) => m
      | (m, some c) =>
        let m := if r.covered then (m.putLode { m.lode with copies := m.lode.copies ++ [(r.lode, p.epoch, pair, c)] }) else m
        send m c

/-- SLOT_OPEN (R71, R86): a slot opens on a port. -/
def slotOpen (m : Mach) (q : Nat) : Mach :=
  match m.slotNow q with
  | none => m
  | some (p, n) =>
    let o := p.opening q n
    if m.plan.opened.contains (q, o) then m
    else
      let m := (m.putPlan { m.plan with opened := (m.plan.opened.filter (fun x => x.1 != q)) ++ [(q, o)] })
      let e := p.kindIn q n
      match e.1 with
      | 1 => (match p.out e.2 with | some r => if r.coll then m.collLodeSlot p q n o r false else m.lodeSlot p q n o r false | none => m)
      | 2 => (match p.out e.2 with | some r => if r.coll then m.collLodeSlot p q n o r true else m.lodeSlot p q n o r true | none => m)
      | 3 =>
        match m.lode.transit.find? (fun x => x.1 == q && x.2.at' == n && x.2.frame.epoch == p.epoch) with
        | none => m
        | some x =>
          let m := (m.putLode { m.lode with transit := m.lode.transit.erase x })
          if m.schedUp q then (m.inc F.RTE_P_TRANSIT 1 q).slotSend q o x.2.frame else m.inc F.RTE_SCHED_DROP
      | 4 =>
        if m.tState = tFree ∨ m.get F.PORT_STATUS_STATE q ≠ 3 then m
        else (m.setPt q { m.pt q with busyUntil := m.now + m.lineUnits q 82 }).sendTime q false
      | _ => m

/-! ## Planned use of clock domains (R96, R97) -/

/-- Spans of a tide in which the plan uses a domain: start and length in units, period, phase, and whether slack tides leave them out. A scheduled frame is expected
on the input port of each TRANSIT entry 400 ns and PAD before its departure. -/
def planUses (p : Plan) (d : Nat) : List (Nat × Nat × Nat × Nat × Bool) :=
  let resv := fun (type lo hi : Nat) => (p.resvs.filter (fun r => r.type == type && (List.range (hi - lo)).any (fun i => getBits r.units (lo + i) 1 == 1))).map
    (fun r => (r.start * slotUnits, r.length * slotUnits, r.per, r.tphase % r.per, false))
  if d < 3 then []
  else if d < 11 then resv 2 ((d - 3) * 8) ((d - 3) * 8 + 8)
  else if d < 35 then resv 5 (d - 11) (d - 10)
  else if d < 51 then
    let g := d - 35
    (p.slots.filter (fun e => e.port / 2 == g)).map (fun e => (e.slot * slotUnits + p.phase e.port, slotUnits, 1, 0, e.kind != 4)) ++
    (p.slots.filter (fun e => e.kind == 3 && e.ref % 32 / 2 == g)).map (fun e =>
      let back := 6400 + ((p.link (e.ref % 32)).map (·.pad)).getD 0
      ((e.slot * slotUnits + p.phase e.port + p.tideUnits * (back / max 1 p.tideUnits + 1) - back) % max 1 p.tideUnits, slotUnits, 1, 0, true))
  else if d < 55 then resv 6 (d - 51) (d - 50)
  else []

/-- Units until the next planned use of a domain under a plan: 0 while in use, `none` if the plan never uses it. -/
def nextUse (m : Mach) (p : Plan) (d : Nat) : Option Nat :=
  let t := max 1 p.tideUnits
  let now := timeDiff m.polder (BitVec.ofNat 64 p.tideBase)
  let one := fun (u : Nat × Nat × Nat × Nat × Bool) =>
    let (a, len, per, ph, skips) := u
    let first := if now < (a + len : Nat) then 0 else (now.toNat - (a + len)) / t + 1
    let k := first + (ph + per - first % per) % per
    let k := if skips && p.isSlack k then k + 1 else k
    if skips && p.isSlack k then none else some (((a + k * t : Nat) : Int) - now).toNat
  ((planUses p d).filterMap one).foldl (fun acc n => match acc with | some x => some (min x n) | none => some n) none

/-- Units until the next planned use of a domain under the plan in force or one that is ARMED. -/
def plannedGap (m : Mach) (d : Nat) : Option Nat :=
  ((m.plan?.toList ++ ((m.bankIn 4).map (·.2)).toList).filterMap (fun p => m.nextUse p d)).foldl
    (fun acc n => match acc with | some x => some (min x n) | none => some n) none

/-- Whether unscheduled work runs in a domain at this moment: a launch on one of the array's tiles. -/
def domainBusy (m : Mach) (d : Nat) : Bool :=
  decide (3 ≤ d) && decide (d < 11) && (List.range 8).any (fun i => m.bit F.CHU_TILE_STATUS_BUSY 0 ((d - 3) * 8 + i))

/-- PLANNED_WAKE: the next planned use of a stopped domain is at most 2 µs away. -/
def plannedWake (m : Mach) (d : Nat) : Mach :=
  match m.plannedGap d with
  | some g =>
    if g ≤ 2 * us ∧ m.bit F.CLK_DOM_STATUS_RUNNING 0 d = false ∧ d < 60 then (m.set F.CLK_DOM_STATUS_PLANNED 1 0 d).domainStart d else m
  | none => m

/-- PLANNED_DOMAIN_STOP: the planned use of a running domain has ended and the next is at least MIN_IDLE away. With no plan ACTIVE nothing is planned. -/
def plannedStop (m : Mach) (d : Nat) : Mach :=
  let far : Bool := match m.plannedGap d with | some g => decide (m.inForce F.SLU_WAKE_CTL_MIN_IDLE * us ≤ g ∧ 0 < g) | none => false
  if m.active.isSome ∧ m.inForce F.SLU_WAKE_CTL_PLAN_WAKE = 1 ∧ far ∧ m.bit F.CLK_DOM_STATUS_RUNNING 0 d ∧ (alGet m.clk.starting d).isNone ∧ m.domainBusy d = false then
    (m.set F.CLK_DOM_STATUS_RUNNING 0 0 d).set F.CLK_DOM_STATUS_PLANNED 1 0 d
  else m

end Mach
end Sys2Proof.Machine
end

