-- ==== Sys2Proof/Machine/ClockOps.lean ====
section
/-! DEFINITION. Clock sources, PLLs, domains, throttling and the ways down to STANDBY (17_clocks_power_reset.md R407 to R423). -/
namespace Sys2Proof.Machine

/-- The PLL that feeds a domain (R412, R416); the sedge domain and test access have none. -/
def domainPll (d : Nat) : Option Nat :=
  if d = 0 ∨ d = 56 ∨ 60 ≤ d then none
  else if d < 3 then some 0
  else if d < 7 then some 1
  else if d < 11 then some 2
  else if d < 23 then some 3
  else if d < 35 then some 4
  else if d < 43 then some 5
  else if d < 51 then some 6
  else if d < 55 ∨ d = 57 then some 7
  else some 0

/-- Domains that stop when idle (R416, R418). -/
def domainIdles (d : Nat) : Bool := (decide (3 ≤ d) && decide (d < 35)) || (decide (51 ≤ d) && decide (d < 56)) || d == 59

/-- Whether a domain is a Peat controller's. -/
def domainPeat (d : Nat) : Bool := decide (11 ≤ d) && decide (d < 35)

namespace Mach

/-- Whether a PLL is out of service: its source is FENCED or LOCKED (R413). -/
def pllOut (m : Mach) (k : Nat) : Bool := decide (2 ≤ m.srcState (srcPll k))

/-- All packages enter or leave self-refresh (R418, 10_memory.md R268). -/
def selfRefresh (m : Mach) (on : Bool) : Mach :=
  (List.range 24).foldl (fun (m : Mach) c => m.set F.PEAT_C_STATUS_SELF_REFRESH on.toNat c) m

/-- A domain's clock runs, from its own PLL or from the alternate while that one is out of service (R413, R418). -/
def domainRun (m : Mach) (d : Nat) : Mach :=
  let m := (m.putClk { m.clk with starting := alDel m.clk.starting d })
  let m := (m.set F.CLK_DOM_STATUS_RUNNING 1 0 d).inc F.CLK_DOM_STARTS 1 0 d
  match domainPll d with
  | none => m
  | some k =>
    let alt := m.pllOut k
    (m.set F.CLK_DOM_STATUS_PLL (if alt then pllAlternate k else k) 0 d).set F.CLK_DOM_STATUS_ON_ALT alt.toNat 0 d

/-- DOMAIN_START_COMPLETE (R419, R420): accesses that waited proceed, and a woken port group handles its frames and sends XON. -/
def domainStarted (m : Mach) (d : Nat) : Mach :=
  if (alGet m.clk.starting d).isNone then m
  else
    let m := m.domainRun d
    let m := if domainPeat d then m.selfRefresh false else m
    if 35 ≤ d ∧ d < 51 then m.groupRuns (d - 35) else m

/-- DOMAIN_IDLE_STOP (R418): `idle` is how long the domain has had no work. No Peat controller stops while no plan is ACTIVE; before one stops, all packages enter
self-refresh. -/
def domainIdleStop (m : Mach) (d idle : Nat) : Mach :=
  let near : Bool := match m.plannedGap d with | some g => decide (g < m.inForce F.SLU_WAKE_CTL_MIN_IDLE * us) | none => false
  if domainIdles d = false ∨ idle < max 1 (m.get F.CLK_IDLE_US) * us ∨ near ∨ m.domainBusy d ∨ m.bit F.CLK_DOM_STATUS_RUNNING 0 d = false ∨
      (domainPeat d ∧ m.active.isNone) then m
  else
    let m := (m.set F.CLK_DOM_STATUS_RUNNING 0 0 d).set F.CLK_DOM_STATUS_PLANNED 0 0 d
    if domainPeat d then m.selfRefresh true else m

/-- DOMAIN_DEMAND_START (R419). -/
def domainDemand (m : Mach) (d : Nat) : Mach :=
  if 60 ≤ d ∨ (domainPll d).isNone ∨ m.bit F.CLK_DOM_STATUS_RUNNING 0 d then m
  else (m.set F.CLK_DOM_STATUS_PLANNED 0 0 d).domainStart d

/-! ## Sources -/

/-- CRYSTAL_STABLE (R408): the sedge domain moves to the crystal and the oscillator is disciplined. A crystal that was lost is not taken again before a reset (R409). -/
def crystalStable (m : Mach) : Mach :=
  if m.clk.xtalLost ∨ m.bit F.CLK_STATUS_XTAL_OK then m
  else
    let m := ((m.set F.CLK_STATUS_XTAL_OK 1).set F.CLK_STATUS_REF 0).set F.CLK_STATUS_OSC_DISC (m.get F.CLK_STATUS_OSC_OK)
    let m := (m.putOnOscillator false)
    (List.range 8).foldl (fun (m : Mach) k => m.set F.CLK_PLL_REF 0 k) m

/-- The boot halts (R408, R427, 18_config_firmware.md R448): the fault line is asserted while it does. -/
def bootHalt (m : Mach) : Mach := (m.putHalted true).set F.CLK_BOOT_FAILED 1

/-- CRYSTAL_START_TIMEOUT (R408): not stable within 20 ms of power-on. -/
def crystalTimeout (m : Mach) : Mach :=
  if 2 < m.get F.CLK_BOOT_STEP ∨ m.bit F.CLK_STATUS_XTAL_OK ∨ m.now < m.clk.bootAt + 20 * ms ∨ m.halted then m
  else ((m.set F.CLK_BOOT_STEP 2).fault srcXtal kFatal { unit := srcXtal }).bootHalt

/-- CLOCK_SOURCE_LOST (16_faults.md R404): INFO0 is to name a PLL, and neither loss is a PLL's, so that value is free. -/
def clockLost (m : Mach) (source which : Nat) : Mach :=
  let (v, m) := m.fresh
  m.raise 0x0B01 source 0 m.liveHerds v.toNat which

/-- CRYSTAL_LOST (R409): every PLL coasts and changes its reference to the oscillator, whose disciplining value is frozen. -/
def crystalLost (m : Mach) : Mach :=
  if m.bit F.CLK_STATUS_XTAL_OK = false then m
  else
    let m := ((m.set F.CLK_STATUS_XTAL_OK 0).set F.CLK_STATUS_REF 1).set F.CLK_STATUS_OSC_DISC 0
    let m := ((m.putOnOscillator true).putClk { m.clk with xtalLost := true })
    let m := (List.range 8).foldl (fun (m : Mach) k => ((m.set F.CLK_PLL_REF 1 k).set F.CLK_PLL_COAST 1 k).set F.CLK_PLL_LOCKED 0 k) m
    (m.fault srcXtal kFatal { unit := srcXtal }).clockLost srcXtal 0

/-- OSCILLATOR_LOST (R411): nothing moves; the crystal runs without a second source (R397). -/
def oscillatorLost (m : Mach) : Mach :=
  if m.bit F.CLK_STATUS_OSC_OK = false ∨ m.bit F.CLK_STATUS_XTAL_OK = false then m
  else
    let m := ((m.set F.CLK_STATUS_OSC_OK 0).set F.CLK_STATUS_OSC_DISC 0).fault srcOsc kCorrected { unit := srcOsc }
    (m.clockLost srcOsc 1).setUncovered srcXtal true

/-! ## PLLs -/

/-- PLL_LOSS (R413): loss of reference (`ref`) or of lock. A loss of reference while the crystal is gone is handled by CRYSTAL_LOST. -/
def pllLoss (m : Mach) (k : Nat) (ref : Bool) : Mach :=
  if 8 ≤ k ∨ m.bit F.CLK_PLL_LOCKED k = false then m
  else
    let m := (m.set F.CLK_PLL_COAST 1 k).set F.CLK_PLL_LOCKED 0 k
    if ref ∧ m.bit F.CLK_STATUS_XTAL_OK = false then m
    else m.fault (srcPll k) kFatal { unit := srcPll k, detail := k }

/-- PLL_LOCK (R412): the loop closes on the reference in use. A fenced PLL coasts until its return. -/
def pllLock (m : Mach) (k : Nat) : Mach :=
  if 8 ≤ k ∨ m.pllOut k ∨ m.bit F.CLK_PLL_LOCKED k then m
  else ((m.set F.CLK_PLL_LOCKED 1 k).set F.CLK_PLL_COAST 0 k).set F.CLK_PLL_REF (m.get F.CLK_STATUS_REF) k

/-- PLL_DOMAIN_RETURN (R415): at a slack tide, or at any time while no plan is ACTIVE, the domains of a returned PLL move back to it. -/
def pllReturn (m : Mach) (k : Nat) : Mach :=
  let slack : Bool := match m.active with
    | none => true
    | some b => (b.2.tideAt m.polder).any (fun n => b.2.isSlack n)
  if 8 ≤ k ∨ m.pllOut k ∨ m.bit F.CLK_PLL_LOCKED k = false ∨ slack = false then m
  else
    let moved := (List.range 60).filter (fun d => domainPll d == some k && m.bit F.CLK_DOM_STATUS_ON_ALT 0 d)
    let m := moved.foldl (fun (m : Mach) d => (m.set F.CLK_DOM_STATUS_PLL k 0 d).set F.CLK_DOM_STATUS_ON_ALT 0 0 d) m
    let a := pllAlternate k
    (m.set F.CLK_PLL_CARRYING 0 a).setUncovered (srcPll a) false

/-! ## Throttling -/

/-- All work stops, ports go down, packages refresh themselves, and the module stands by (R421, R423, 10_memory.md R279). -/
def standby (m : Mach) : Mach :=
  let m := (List.range 32).foldl (fun (m : Mach) p => m.portDown p 0) m
  let m := (m.selfRefresh true).set F.CLK_STATUS_POWER_STATE 0
  (m.putClk { m.clk with pwrGood := false })

/-- The level that the die temperature gives: a level is left 3 °C (the curve's hysteresis) below its threshold (R422). -/
def thermalLevel (m : Mach) (temp : Nat) : Nat :=
  let (a, b, c, _, h) := m.cfg.thermal
  let cur := m.clk.tempLevel
  let holds := fun (k thr : Nat) => decide (thr ≤ temp) || (decide (k ≤ cur) && decide (thr < temp + h))
  if holds 3 c then 3 else if holds 2 b then 2 else if holds 1 a then 1 else 0

/-- THROTTLE_EVALUATE (R422, R423): the hottest die sensor with its temperature, input voltage in 0.1 V and power in 0.1 W; `pkgs` are the package temperatures where
this is also a reading of the packages (PEAT_C_STATUS.TEMP). -/
def throttle (m : Mach) (sensor temp vin pin : Nat) (pkgs : List Nat) : Mach :=
  if m.asleep then m
  else
    let m := ((m.set F.CLK_TEMP_SENSOR sensor).set F.CLK_TEMP_DIE_MAX (min 255 temp)).set F.CLK_PWR_VIN vin
    let m := m.set F.CLK_PWR_PIN pin
    let m := (List.range (min 24 pkgs.length)).foldl (fun (m : Mach) c =>
      if m.bit F.PEAT_C_STATUS_TRAINED c ∧ m.bit F.PEAT_C_STATUS_SELF_REFRESH c = false then m.set F.PEAT_C_STATUS_TEMP (min 255 (nthD pkgs c 0)) c else m) m
    let limit := min 850 (m.get F.CLK_PWR_LIMIT_WATTS) * 10
    let beyond := decide (limit < pin) || (m.clk.powerOver && decide (limit * 95 < pin * 100))
    let trip := decide (m.cfg.thermal.2.2.2.1 ≤ temp)
    let tl := m.thermalLevel temp
    let level := if trip then 4 else min 3 (tl + beyond.toNat)
    let crossed : Bool := trip || tl != m.clk.tempLevel
    let m := (m.putClk { m.clk with tempLevel := tl, powerOver := beyond })
    let m := if crossed then m.fault srcThermal kCorrected { unit := srcThermal, detail := sensor } else m
    let m := if level = m.get F.CLK_STATUS_THROTTLE then m
      else (m.set F.CLK_STATUS_THROTTLE level).raise 0x0B02 srcThermal 0 m.liveHerds sensor temp
    if trip then (m.putClk { m.clk with trip := true }).standby else m

end Mach
end Sys2Proof.Machine
end

