-- ==== Sys2Proof/Machine/Clocks.lean ====
section
/-! DEFINITION. The commands of clocks and power (17_clocks_power_reset.md R408 to R423). -/
namespace Sys2Proof.Machine

/-- CRYSTAL_STABLE. -/
def execCrystalStable (t : Nat) (s : State) : Host.Outcome State Fault Refusal := commit s (fun m => (m.advance t).crystalStable)

/-- CRYSTAL_START_TIMEOUT. -/
def execCrystalStartTimeout (t : Nat) (s : State) : Host.Outcome State Fault Refusal := commit s (fun m => (m.advance t).crystalTimeout)

/-- CRYSTAL_LOST. -/
def execCrystalLost (t : Nat) (s : State) : Host.Outcome State Fault Refusal := commit s (fun m => (m.advance t).crystalLost)

/-- OSCILLATOR_LOST. -/
def execOscillatorLost (t : Nat) (s : State) : Host.Outcome State Fault Refusal := commit s (fun m => (m.advance t).oscillatorLost)

/-- PLL_LOSS. -/
def execPllLoss (t k : Nat) (ref : Bool) (s : State) : Host.Outcome State Fault Refusal := commit s (fun m => (m.advance t).pllLoss k ref)

/-- PLL_LOCK. -/
def execPllLock (t k : Nat) (s : State) : Host.Outcome State Fault Refusal := commit s (fun m => (m.advance t).pllLock k)

/-- PLL_DOMAIN_RETURN. -/
def execPllDomainReturn (t k : Nat) (s : State) : Host.Outcome State Fault Refusal := commit s (fun m => (m.advance t).pllReturn k)

/-- DOMAIN_IDLE_STOP. -/
def execDomainIdleStop (t d idle : Nat) (s : State) : Host.Outcome State Fault Refusal := commit s (fun m => (m.advance t).domainIdleStop d idle)

/-- DOMAIN_DEMAND_START. -/
def execDomainDemandStart (t d : Nat) (s : State) : Host.Outcome State Fault Refusal := commit s (fun m => (m.advance t).domainDemand d)

/-- DOMAIN_START_COMPLETE. -/
def execDomainStartComplete (t d : Nat) (s : State) : Host.Outcome State Fault Refusal := commit s (fun m => (m.advance t).domainStarted d)

/-- THROTTLE_EVALUATE. -/
def execThrottleEvaluate (t sensor temp vin pin : Nat) (pkgs : List Nat) (s : State) : Host.Outcome State Fault Refusal :=
  commit s (fun m => (m.advance t).throttle sensor temp vin pin pkgs)

end Sys2Proof.Machine
end

