-- ==== Sys2Proof/Machine/Coll.lean ====
section
/-! DEFINITION. The commands of collectives (09_collectives.md) and the tiles that queue pairs move (06_translation_windows.md R161). -/
namespace Sys2Proof.Machine
namespace Mach

/-- A COLL_START whose COLL_OP is a given operation (09_collectives.md R239). -/
def collRow (m : Mach) (k op : Nat) : Mach :=
  m.dispatch k (fun d => d.opcode == 0x20 && d.bits 4 0 8 == op) (fun m d => m.collForeign k d) (fun m d u => m.collStart k d u)

/-- The oldest chunk frame placed here over lodes, then the oldest over best-effort (R246): which it is, whether it is a shadow copy, and the module without it. -/
def takeChunk (m : Mach) : Option (ChunkFrame × Option Bool × Mach) :=
  match m.lode.here.find? (fun x => match x.frame.body with | .chunk _ => true | .lode _ => false) with
  | some x =>
    match x.frame.body with
    | .chunk c => some (c, some x.frame.shadow, (m.putLode { m.lode with here := m.lode.here.erase x }))
    | .lode _ => none
  | none =>
    match m.rte.here.find? (fun x => match x.2.body with | .chunk _ => true | .packet _ => false) with
    | some x =>
      match x.2.body with
      | .chunk c => some (c, none, (m.putRte { m.rte with here := m.rte.here.erase x }))
      | .packet _ => none
    | none => none

end Mach

/-- ALL_REDUCE. -/
def execAllReduce (t k : Nat) (s : State) : Host.Outcome State Fault Refusal := commit s (fun m => (m.advance t).collRow k opAllReduce)

/-- REDUCE_SCATTER. -/
def execReduceScatter (t k : Nat) (s : State) : Host.Outcome State Fault Refusal := commit s (fun m => (m.advance t).collRow k opReduceScatter)

/-- ALL_GATHER. -/
def execAllGather (t k : Nat) (s : State) : Host.Outcome State Fault Refusal := commit s (fun m => (m.advance t).collRow k opAllGather)

/-- BROADCAST. -/
def execBroadcast (t k : Nat) (s : State) : Host.Outcome State Fault Refusal := commit s (fun m => (m.advance t).collRow k opBroadcast)

/-- ALL_REDUCE_LOWRANK (R257). -/
def execAllReduceLowrank (t k : Nat) (s : State) : Host.Outcome State Fault Refusal := commit s (fun m => (m.advance t).collRow k opLowrank)

/-- REDUCE_SCATTER_ADAM (R258). -/
def execReduceScatterAdam (t k : Nat) (s : State) : Host.Outcome State Fault Refusal := commit s (fun m => (m.advance t).collRow k opAdam)

/-- RERUN (R255). -/
def execRerun (t k : Nat) (s : State) : Host.Outcome State Fault Refusal := commit s (fun m => (m.advance t).collRow k opRerun)

/-- TRANSFER_TILE_CHECKED (06_translation_windows.md R161): the oldest tile that waits at a queue pair, of a message (kind 0) or of a receive buffer (kind 1).
Lodes, programs and collectives check their tiles within the command that begins them. -/
def execTransferTileChecked (t kind q : Nat) (s : State) : Host.Outcome State Fault Refusal :=
  commit s (fun m => (m.advance t).engines (fun m => if kind = 0 then m.qpTile q else m.qpBufTile q))

/-- DYN_CHUNK_SEND (R245). -/
def execDynChunkSend (t g : Nat) (s : State) : Host.Outcome State Fault Refusal := commit s (fun m => (m.advance t).engines (fun m => m.dynSend g))

/-- DYN_CHUNK_RTO (R247). -/
def execDynChunkRto (t g : Nat) (back : Bool) (s : State) : Host.Outcome State Fault Refusal :=
  commit s (fun m => (m.advance t).engines (fun m => m.dynRto g back))

/-- CHUNK_FRAME_RECEIVED (R246, R247). -/
def execChunkFrameReceived (t : Nat) (s : State) : Host.Outcome State Fault Refusal :=
  commit s (fun m => (m.advance t).engines (fun m =>
    match m.takeChunk with
    | none => m
    | some (c, some sh, m) => m.chunkSched c sh
    | some (c, none, m) => m.chunkDyn c))

/-- GENERATION_DELIVERED (R251). -/
def execGenerationDelivered (t g gen : Nat) (s : State) : Host.Outcome State Fault Refusal :=
  commit s (fun m => (m.advance t).engines (fun m => m.genDelivered g gen))

/-- GROUP_TIMEOUT (R259). -/
def execGroupTimeout (t g : Nat) (s : State) : Host.Outcome State Fault Refusal := commit s (fun m => (m.advance t).engines (fun m => m.groupTimeout g))

/-- COLL_CREATE (R238). -/
def execCollCreate (v : Via) (s : State) : Host.Outcome State Fault Refusal := commit s (fun m => m.collCreate v)

/-- COLL_DESTROY (R262). -/
def execCollDestroy (v : Via) (s : State) : Host.Outcome State Fault Refusal := commit s (fun m => m.collDestroy v)

/-- COLL_RESET (R260). -/
def execCollReset (v : Via) (s : State) : Host.Outcome State Fault Refusal := commit s (fun m => m.collReset v)

/-- COLL_RELEASE (R255). -/
def execCollRelease (v : Via) (s : State) : Host.Outcome State Fault Refusal := commit s (fun m => m.collRelease v)

end Sys2Proof.Machine
end

