-- ==== Sys2Proof/Machine/Faults.lean ====
section
/-! DEFINITION. The commands of the fault collector: windows, quiet periods, fences, returns, handling, the steward's commands and the fault queue
(16_faults.md R396 to R402). -/
namespace Sys2Proof.Machine
namespace Mach

/-! ## Returns (R399) -/

/-- A return of a source starts: it is handled until the return completes. A port retrains (R313). -/
def returnStart (m : Mach) (s : Nat) (byClear : Bool) : Mach :=
  let m := (m.set F.FLT_SRC_STATUS_RETURNING 1 0 s).setHandling s .return
  let m := m.setSrc s { m.src s with clearReturn := byClear }
  if s < 64 ∧ m.bit F.PORT_CTL_ENABLE (s % 32) then m.portTrain (s % 32) else m

/-- Whether another source keeps a tile fenced: its matrix units, its SRAM, its array's program store. -/
def tileHeld (m : Mach) (s t : Nat) : Bool :=
  [srcTile t, srcTsram t, srcArray (t / 8)].any (fun x => x != s && decide (2 ≤ m.srcState x))

/-- A tile goes back into service with its SRAM cleared (R203). -/
def tileReturn (m : Mach) (s t : Nat) : Mach :=
  if m.tileHeld s t then m
  else
    let m := m.wrZero .tsram (t * 2 ^ 20) (2 ^ 20)
    let m := (m.putChu { m.chu with sram := m.chu.sram.filter (fun r => r.1 != t), clears := m.chu.clears.filter (fun c => c.1 != t) })
    ((m.set F.CHU_TILE_STATUS_FENCED 0 0 t).set F.CHU_TILE_STATUS_CLEARING 0 0 t).chuSync

/-- A fenced unit goes back into service (R399). -/
def unitReturn (m : Mach) (s : Nat) : Mach :=
  if s < 64 then m
  else if s < 192 then m.tileReturn s (s % 64)
  else if s < 256 then
    let b := s - 192
    let m := m.wrZero .cream (b * 0x400000) 0x400000
    (m.putMem { m.mem with badWords := m.mem.badWords.filter (fun w => w * 8 / 0x400000 != b) })
  else if s < 280 then m
  else if s < 284 then (m.set F.CIPH_ENG_STATUS_DRBG_ONLY (if m.bit F.CIPH_STATUS_ENTROPY_OK then 0 else 1) (s - 280)).cipherUnfence (s - 280)
  else if s < 292 then (List.range 8).foldl (fun (m : Mach) i => m.tileReturn s ((s - 284) * 8 + i)) m
  else if s < 300 then (m.set F.CLK_PLL_COAST 0 (s - 292)).set F.CLK_PLL_LOCKED 1 (s - 292)
  else m

/-! ## The steward's commands -/

/-- CLEAR (R397, R398). -/
def fltClear (m : Mach) (s : Nat) : Mach :=
  let st := m.srcState s
  let m := (m.set F.FLT_SRC_STATUS_RECOVERIES 0 0 s).closeWindow s
  if st = 2 ∨ st = 3 then
    let m := m.srcMove s 0
    if 256 ≤ s ∧ s < 280 then m.raise 0x0012 s 0 m.liveHerds s 0 else m.returnStart s true
  else if st = 1 ∧ m.bit F.FLT_SRC_STATUS_UNCOVERED 0 s = false then m.srcMove s 0
  else m

/-- FENCE (R397): a NORMAL or DEGRADED source becomes LOCKED. -/
def fltFence (m : Mach) (s : Nat) : Mach :=
  let st := m.srcState s
  if st = 0 ∨ st = 1 then m.fenceStart s true else m

/-- A command of FLT_SRC_CMD on the source that the path selects: at once, or when the handling of the source ends. -/
def fltCmd (m : Mach) (p : Path) (op : Nat) : Mach :=
  m.stewardGate p F.FLT_SRC_CMD_OP.addr (fun m =>
    let s := m.getP p F.FLT_SRC_SEL_SOURCE
    if 320 ≤ s then m
    else if (m.src s).handling ≠ .none then m.setSrc s { m.src s with pendingCmd := op }
    else if op = 1 then m.fltClear s
    else m.fltFence s)

/-! ## Handling (R400) -/

/-- The handling of a source ends: a command that waited takes effect; otherwise the state is evaluated once against the count and the FATAL events received
meanwhile. Then a source that waited for room is evaluated. -/
def handlingDone (m : Mach) (s : Nat) : Mach :=
  let x := m.src s
  let m := m.setHandling s .none
  let m := m.setSrc s { m.src s with fatalMeanwhile := false, pendingCmd := 0 }
  let m := if x.pendingCmd = 0 then m.evalSource s x.fatalMeanwhile
    else if x.pendingCmd = 1 then m.fltClear s else m.fltFence s
  match m.flt.waiting with
  | [] => m
  | w :: r => (m.putFlt { m.flt with waiting := r }).evalSource w (m.src w).fatalMeanwhile

/-- HANDLING_END: a DEGRADED transition is handled until its event has been written or counted as lost. Fences and returns end with their own steps. -/
def handlingEnd (m : Mach) (s : Nat) : Mach :=
  if (m.src s).handling = .degraded ∧ m.evq.all (fun e => !(e.code == 0x0010 && e.source == s)) then m.handlingDone s else m

/-- FENCE_COMPLETE (R398, R400): the unit holds nothing in flight, and the quiet period starts. -/
def fenceComplete (m : Mach) (s : Nat) : Mach :=
  if (m.src s).handling = .fence then (m.setSrc s { m.src s with fenceDone := some m.now }).handlingDone s else m

/-- FAULT_WINDOW_EXPIRE (R396). -/
def windowExpire (m : Mach) (s : Nat) : Mach :=
  match (m.src s).windowEnd with
  | some e => if e ≤ m.now then m.closeWindow s else m
  | none => m

/-- QUIET_PERIOD_EXPIRE (R397): a DEGRADED source returns to NORMAL, a FENCED one starts its return. PEAT sources return neither way before a power-on reset, and a
return waits while sixteen sources are handled. -/
def quietExpire (m : Mach) (s : Nat) : Mach :=
  let x := m.src s
  let quiet := max 1 (m.get F.FLT_CLASS_QUIET_QUIET_MS 0 s) * ms
  let st := m.srcState s
  if x.handling ≠ .none ∨ 320 ≤ s then m
  else if st = 1 ∧ m.bit F.FLT_SRC_STATUS_UNCOVERED 0 s = false ∧ x.lastEvent + quiet ≤ m.now then (m.closeWindow s).srcMove s 0
  else if st = 2 ∧ ¬ (256 ≤ s ∧ s < 280) ∧ max (x.fenceDone.getD 0) x.lastEvent + quiet ≤ m.now ∧ m.handlingCount < 16 then m.returnStart s false
  else m

/-- UNIT_RETURN_COMPLETE (R397, R399): `ok` is the outcome of the built-in check, which a source without a fence action has not. A port's return ends when its
retraining ends. -/
def returnComplete (m : Mach) (s : Nat) (ok : Bool) : Mach :=
  let x := m.src s
  let training : Bool := decide (s < 64) && (m.lkState (s % 32) == lkTraining || m.lkState (s % 32) == lkNegotiating)
  if x.handling ≠ .return ∨ training then m
  else if ok = false ∧ s < 300 then m.fault s kFatal { unit := s, detail := s }
  else
    let m := (m.set F.FLT_SRC_STATUS_RETURNING 0 0 s).unitReturn s
    let m := if x.clearReturn then m
      else ((m.set F.FLT_SRC_STATUS_RECOVERIES (min 255 (m.get F.FLT_SRC_STATUS_RECOVERIES 0 s + 1)) 0 s).closeWindow s).srcMove s 0
    let m := m.raise 0x0012 s 0 m.liveHerds s (m.get F.FLT_SRC_STATUS_RECOVERIES 0 s)
    (m.setSrc s { m.src s with clearReturn := false, fenceDone := none }).handlingDone s

/-- FAULT_QUEUE_POP (R402): FAULT_OVERFLOW may be raised again once the queue is empty. -/
def faultPop (m : Mach) (p : Path) : Mach :=
  m.stewardGate p F.FLT_Q_POP.addr (fun m =>
    let q := m.flt.queue.drop 1
    (m.putFlt { m.flt with queue := q, overflowRaised := m.flt.overflowRaised && !q.isEmpty }))

end Mach

/-- FAULT_WINDOW_EXPIRE. -/
def execFaultWindowExpire (t src : Nat) (s : State) : Host.Outcome State Fault Refusal := commit s (fun m => (m.advance t).windowExpire src)

/-- QUIET_PERIOD_EXPIRE. -/
def execQuietPeriodExpire (t src : Nat) (s : State) : Host.Outcome State Fault Refusal := commit s (fun m => (m.advance t).quietExpire src)

/-- FENCE_COMPLETE. -/
def execFenceComplete (t src : Nat) (s : State) : Host.Outcome State Fault Refusal := commit s (fun m => (m.advance t).fenceComplete src)

/-- UNIT_RETURN_COMPLETE. -/
def execUnitReturnComplete (t src : Nat) (ok : Bool) (s : State) : Host.Outcome State Fault Refusal :=
  commit s (fun m => (m.advance t).returnComplete src ok)

/-- HANDLING_END. -/
def execHandlingEnd (t src : Nat) (s : State) : Host.Outcome State Fault Refusal := commit s (fun m => (m.advance t).handlingEnd src)

/-- FAULT_SOURCE_CLEAR. -/
def execFaultSourceClear (p : Path) (s : State) : Host.Outcome State Fault Refusal := commit s (fun m => m.fltCmd p 1)

/-- FAULT_SOURCE_FENCE. -/
def execFaultSourceFence (p : Path) (s : State) : Host.Outcome State Fault Refusal := commit s (fun m => m.fltCmd p 2)

/-- FAULT_QUEUE_POP. -/
def execFaultQueuePop (p : Path) (s : State) : Host.Outcome State Fault Refusal := commit s (fun m => m.faultPop p)

end Sys2Proof.Machine
end

