-- ==== Sys2Proof/Machine/Xlt.lean ====
section
/-! DEFINITION. The commands of translation and windows (06_translation_windows.md R154, R164, R169 to R174, R176). -/
namespace Sys2Proof.Machine
namespace Mach

/-! ## Address spaces -/

/-- Address spaces of the module that are enabled. -/
def asCount (m : Mach) : Nat := ((m.listed F.XLT_AS_CFG_ENABLE.addr).filter (fun p => getBits p.2.toNat 31 1 == 1)).length

/-- A write of XLT_AS_CFG (R154): ENABLE beyond the share or the pool is refused, the other fields take the write by their classes. -/
def asCfgWrite (m : Mach) (p : Path) (value : Nat) : Mach :=
  m.stewardGate p F.XLT_AS_CFG_ENABLE.addr (fun m =>
    let h := m.getP p F.XLT_AS_SEL_HERD
    let a := m.getP p F.XLT_AS_SEL_ASID
    let s := asSel h a
    if 16 ≤ a then m
    else
      let was := m.bit F.XLT_AS_CFG_ENABLE 0 s
      let wants := getBits value 31 1 == 1
      let m := m.putFields (regKey F.XLT_AS_CFG_ENABLE.addr s) F.XLT_AS_CFG_ENABLE.addr (value % 2 ^ 31 + was.toNat * 2 ^ 31) was
      if was == wants then m
      else if wants = false then (m.set F.XLT_AS_CFG_ENABLE 0 0 s).giveBack h resAsids 1
      else if m.roomFor h resAsids 1 = false ∨ 1024 ≤ m.asCount then m.set F.XLT_STATUS_AS_REFUSED 1
      else (m.set F.XLT_AS_CFG_ENABLE 1 0 s).take h resAsids 1)

/-! ## Invalidation -/

/-- Key of a register that the XLT block and each herd page hold for themselves (R164). -/
def invKey (page : Option Nat) (f : Fld) : Nat :=
  match page with
  | none => fkey f 0 0
  | some h => herdPage h + aliasOff f.addr

/-- A field of such a register. -/
def getInv (m : Mach) (page : Option Nat) (f : Fld) : Nat := getBits (m.reg (invKey page f)).toNat f.lo f.wd
def setInv (m : Mach) (page : Option Nat) (f : Fld) (v : Nat) : Mach :=
  m.setReg (invKey page f) (BitVec.ofNat 32 (putBits (m.reg (invKey page f)).toNat f.lo f.wd v))

/-- Whether an invalidation reaches a context: a herd page reaches only its own herd's. -/
def invContext (r : InvReq) (h a : Nat) : Bool :=
  (match r.page with | some g => g == h | none => true) && (r.scope == 0 || (r.herd == h && r.asid == a))

/-- Whether an invalidation reaches a range of addresses of a context (R164). -/
def invReaches (r : InvReq) (h a va len : Nat) : Bool :=
  invContext r h a && (r.scope != 2 || (decide (r.va < va + len) && decide (va < r.va + r.pages * 4096)))

/-- Whether it reaches a cached entry: the entry's span overlaps. -/
def invEntry (r : InvReq) (x : XltEntry) : Bool :=
  invReaches r x.herd x.asid (x.tag * 2 ^ (12 + 9 * x.level)) (2 ^ (12 + 9 * x.level))

/-- Requests in flight: pieces already translated and not yet handed to a serving memory, with their context. Kinds: 1 lode sources, 2 lode
messages arriving, 3 queue pair messages, 4 receive buffers, 5 queue pair messages arriving, 6 launches. -/
def inFlight (m : Mach) : List ((Nat × Nat × Nat) × Nat × Nat × List Seg) :=
  (m.lode.tx.flatMap (fun x => x.2.queue.map (fun g => ((1, x.1, g.uid), m.sqHerd g.sq, 0x1FF, g.segs)))) ++
  (m.lode.rx.flatMap (fun x => (x.2.msgs.filter (fun g => !(g.resolved && g.done))).map (fun g => ((2, x.1, g.first), g.herd, g.asid, g.segs)))) ++
  (m.beq.qps.flatMap (fun x => (x.2.msgs.filter (fun g => g.kind == .read || !g.wholly)).map (fun g =>
    ((3, x.1, (g.sq.map (·.2)).getD 0), m.qpHerd x.1, g.asid, g.segs.getD [])))) ++
  (m.beq.qps.flatMap (fun x => x.2.bufs.map (fun b => ((4, x.1, b.uid), m.sqHerd b.sq, b.asid, b.segs.getD [])))) ++
  (m.beq.qps.flatMap (fun x => x.2.rx.map (fun g => ((5, x.1, g.msn), g.herd, g.asid, g.segs)))) ++
  ((m.chu.launches.filter (fun l => l.state != 3)).map (fun l => ((6, 0, l.uid), l.herd, l.asid, l.argSegs ++ (l.streams.flatMap (·.1)).filter (fun s => s.target != 2 || s.va != s.addr))))

/-- Begins an invalidation: the entries it covers are dropped, and the requests translated with them are noted. A lode message does not keep its address
space, so any context of its herd counts. -/
def invBegin (m : Mach) (r : InvReq) : Mach :=
  let hit := m.inFlight.filter (fun x => x.2.2.2.any (fun s =>
    if x.2.2.1 = 0x1FF then (List.range 16).any (fun a => invReaches r x.2.1 a s.va s.len) else invReaches r x.2.1 x.2.2.1 s.va s.len))
  let r' := { r with running := true, blockers := hit.map (·.1) }
  (m.putXlt { m.xlt with
      cache := m.xlt.cache.filter (fun x => !invEntry r x)
      inv := m.xlt.inv.map (fun y => if y = r then r' else y) })

/-- A GO of XLT_INV (R164): dropped while INV_BUSY of its own page or block is 1; it waits while another invalidation runs. -/
def invGo (m : Mach) (v : Via) (value scope : Nat) : Mach :=
  m.gate v F.XLT_INV_GO.addr (fun m =>
    let herd := match v.page with | some h => h | none => getBits value 8 8
    if m.getInv v.page F.XLT_STATUS_INV_BUSY = 1 then m.setInv v.page F.XLT_STATUS_CMD_DROPPED 1
    else
      let m := m.setReg (invKey v.page F.XLT_INV_GO) (BitVec.ofNat 32 (value % 256 + herd * 256 + getBits value 28 2 * 2 ^ 28))
      let lo := (m.reg (invKey v.page F.XLT_INV_VA_LO)).toNat
      let hi := (m.reg (invKey v.page F.XLT_INV_VA_LO + 4)).toNat
      let r : InvReq :=
        { page := v.page, scope := scope, herd := herd, asid := value % 256, va := (lo + hi * 2 ^ 32) / 4096 * 4096
          pages := m.getInv v.page F.XLT_INV_PAGES, running := false, blockers := [] }
      let m := (m.setInv v.page F.XLT_STATUS_INV_BUSY 1)
      let busy := m.xlt.inv.any (fun y => y.running)
      let m := (m.putXlt { m.xlt with inv := m.xlt.inv ++ [r] })
      if busy then m else m.invBegin r)

/-- INVALIDATE_START (R164): the next invalidation in GO order begins when none runs. -/
def invStart (m : Mach) : Mach :=
  if m.xlt.inv.any (fun y => y.running) then m
  else
    match m.xlt.inv with
    | [] => m
    | r :: _ => m.invBegin r

/-- Walks the pinned entries of a window again (R170): a range that no longer translates becomes unpinned. -/
def rewalk (m : Mach) (w : Nat) : Mach :=
  let x := m.win w
  let acc := if x.w then accWrite else if x.atomic then accAtomic else accRead
  let m := (m.putXlt { m.xlt with pins := alDel m.xlt.pins w })
  match m.leavesOf x.ownerHerd x.ownerAsid acc (x.limit / 4096 + 2) x.base x.limit with
  | (m, some l) => (m.putXlt { m.xlt with pins := alPut m.xlt.pins w l })
  | (m, none) => m

/-- INVALIDATE_DONE (R164, R170): none of the requests translated with a dropped entry is in flight; overlapped pins are walked again first. -/
def invDone (m : Mach) : Mach :=
  match m.xlt.inv.find? (fun y => y.running) with
  | none => m
  | some r =>
    let live := m.inFlight.map (·.1)
    if r.blockers.any (fun b => live.contains b) then m
    else
      let m := (m.putXlt { m.xlt with cache := m.xlt.cache.filter (fun x => !invEntry r x) })
      let wins := (m.xlt.pins.filter (fun p => p.2.any (invEntry r))).map (·.1)
      let m := (wins.foldl (fun m w => m.rewalk w) m).pinCounts
      let m := (m.putXlt { m.xlt with inv := m.xlt.inv.filter (fun y => y != r) })
      (m.setInv r.page F.XLT_STATUS_INV_BUSY 0).setInv r.page F.XLT_STATUS_INV_DONE 1

/-! ## Windows -/

/-- Ends a window command with DONE or a refusal, in the status of its path and page (R176). -/
def winDone (m : Mach) (v : Via) : Mach := (m.setV v F.WIN_CMD_STATUS_DONE 1).setV v F.WIN_CMD_STATUS_REFUSED 0
def winRefused (m : Mach) (v : Via) (r : Nat) : Mach :=
  ((m.setV v F.WIN_CMD_STATUS_DONE 0).setV v F.WIN_CMD_STATUS_REFUSED 1).setV v F.WIN_CMD_STATUS_REASON r

/-- The staged entry of a path and page; a herd page forces OWNER_HERD. -/
def winStaged (m : Mach) (v : Via) : WinEntry :=
  let x := winOf ((List.range 8).flatMap (fun i => leBytes 4 (m.getV v F.WIN_ENTRY i)))
  match v.page with
  | some h => { x with ownerHerd := h }
  | none => x

/-- Copies an entry to the staging registers. -/
def winStage (m : Mach) (v : Via) (x : WinEntry) : Mach :=
  (List.range 8).foldl (fun m i => m.setV v F.WIN_ENTRY (leAt (winBytes x) (4 * i) 4) i) m

/-- WINDOW_OPEN (R169, R170). -/
def winOpen (m : Mach) (v : Via) (w : Nat) : Mach :=
  let old := m.win w
  let x := m.winStaged v
  if doorbellBase ≤ w then m.winRefused v 3
  else if old.state ≠ 0 then m.winRefused v 1
  else if x.version ≠ 1 then m.winRefused v 8
  else if x.base % 4096 ≠ 0 ∨ x.limit = 0 ∨ 2 ^ 48 < x.limit ∨ 2 ^ 57 < x.base + x.limit then m.winRefused v 5
  else if m.asEnabled x.ownerHerd x.ownerAsid = false then m.winRefused v 3
  else if m.roomFor x.ownerHerd resWindows 1 = false then m.winRefused v 4
  else
    let acc := if x.w then accWrite else if x.atomic then accAtomic else accRead
    let pins : Mach × Option (List XltEntry) :=
      if x.sched then m.leavesOf x.ownerHerd x.ownerAsid acc (x.limit / 4096 + 2) x.base x.limit else (m, some [])
    match pins with
    | (m, none) => m.winRefused v 7
    | (m, some l) =>
      if x.sched ∧ (16384 < m.pinned + l.length ∨ 4096 ≤ m.xlt.pins.length) then m.winRefused v 6
      else
        let y := { x with state := 1, gen := old.gen, rev := 0 }
        let m := if x.sched then (m.putXlt { m.xlt with pins := alPut m.xlt.pins w l }) else m
        (((m.setWin w y).pinCounts.take x.ownerHerd resWindows 1).winStage v y).winDone v

/-- A CLOSE or READ through a herd page names a window that the herd owns (14_herds.md R358). -/
def winReach (m : Mach) (v : Via) (w : Nat) : Bool :=
  match v.page with
  | none => true
  | some h => (m.win w).state == 0 || (m.win w).ownerHerd == h

/-- A WIN_CMD (R176). -/
def winCmd (m : Mach) (v : Via) (op w : Nat) : Mach :=
  m.gate v F.WIN_CMD_OP.addr (fun m =>
    if op ≠ 1 ∧ m.winReach v w = false then m.pageForeign v F.WIN_CMD_OP.addr
    else if op = 1 then m.winOpen v w
    else if op = 2 then
      if (m.win w).state = 1 then m.closeWin w (some v) v.page.isNone else m.winRefused v 2
    else (m.winStage v (m.win w)).winDone v)

/-- Whether a message admitted to a closing window is still unresolved (R172). -/
def winWaits (m : Mach) (w : Nat) : Bool :=
  let rev := (m.win w).rev
  m.lode.rx.any (fun x => x.2.msgs.any (fun g => g.window == w && decide (1 ≤ g.arrival) && decide (g.arrival ≤ rev) && !(g.resolved && g.done))) ||
  m.beq.qps.any (fun x => x.2.rx.any (fun g => g.window == w && decide (1 ≤ g.arrival) && decide (g.arrival ≤ rev) && g.fail.isNone))

/-- The close of a window completes (R172); with a doorbell window a DESTROYING herd becomes FREE and its shares return (14_herds.md R355). -/
def winFreed (m : Mach) (c : WinClose) : Mach :=
  let w := c.window
  let x := m.win w
  let gen := (x.gen + 1) % 65536
  let m := m.setWin w { x with state := 0, gen := gen }
  let m := ((m.putXlt { m.xlt with pins := alDel m.xlt.pins w }).putWinCloses (m.winCloses.filter (fun y => y.window != w)))
  let m := m.pinCounts.closingCount
  let m := match c.via with
    | some v => m.setV v F.WIN_CMD_STATUS_DONE 1
    | none => m
  let m := if doorbellBase ≤ w then m else m.giveBack x.ownerHerd resWindows 1
  let m := m.raise 0x0500 srcWin x.ownerHerd ([x.ownerHerd] ++ if c.steward then [0] else []) w gen
  if doorbellBase ≤ w then
    let h := w - doorbellBase
    let m := m.set F.QE_HERD_STATUS_DB_GEN gen 0 h
    if m.get F.QE_HERD_STATUS_STATE 0 h = 4 then
      let m := allRes.foldl (fun m r => m.setGranted h r 0) m
      -- DESTROY clears PRIV (14_herds.md R362) and its command completes
      let m := if m.bit F.QE_HERD_STATUS_PRIV 0 h then m.set F.QE_PRIV_COUNT (m.get F.QE_PRIV_COUNT - 1) else m
      let m := (m.set F.QE_HERD_STATUS_PRIV 0 0 h).set F.QE_HERD_STATUS_STATE 0 0 h
      (m.set F.QE_HERD_CMD_STATUS_BUSY 0).cmdDone F.QE_HERD_CMD_STATUS_DONE F.QE_HERD_CMD_STATUS_REFUSED
    else m
  else m

/-- WINDOW_CLOSE_COMPLETE. -/
def winCloseComplete (m : Mach) (w : Nat) : Mach :=
  match m.winCloses.find? (fun c => c.window == w) with
  | some c => if m.winWaits w then m else m.winFreed c
  | none => m

/-- WINDOW_CLOSE_TIMEOUT (R172): a lease period after CLOSE, messages not resolved fail with WINDOW_CLOSED. -/
def winCloseTimeout (m : Mach) (w : Nat) : Mach :=
  match m.winCloses.find? (fun c => c.window == w) with
  | none => m
  | some c =>
    if m.now < c.since + m.leaseAt c.since then m
    else
      let rev := (m.win w).rev
      let m := m.lode.rx.foldl (fun m x =>
        match m.inRec x.1 with
        | none => m
        | some rec =>
          (x.2.msgs.filter (fun g => g.window == w && decide (1 ≤ g.arrival) && decide (g.arrival ≤ rev) && !(g.resolved && g.done))).foldl
            (fun m g => (m.rxFail x.1 rec g.first stClosed g.first).rxAdvance x.1 66) m) m
      let m := m.beq.qps.foldl (fun m x =>
        (x.2.rx.filter (fun g => g.window == w && decide (1 ≤ g.arrival) && decide (g.arrival ≤ rev) && g.fail.isNone)).foldl
          (fun m g => m.rxDeny x.1 g (m.qp x.1).expect stClosed) m) m
      m.winFreed c

/-! ## Dirty logs -/

/-- Harvests words of a bitmap (R174): each is read and zeroed in one operation and written to its destination. -/
def harvestWords (m : Mach) (src dst : Nat) : Nat → Mach
  | 0 => m
  | n + 1 =>
    let d := m.rdBytes .peat src 8
    let m := (m.wrBytes .peat src (List.replicate 8 0)).peatWrite dst d false
    harvestWords m (src + 8) (dst + 8) n

/-- DIRTY_HARVEST (R174): a harvest begins; how many words it has read by any instant before its end is open. -/
def harvestGo (m : Mach) (p : Path) (value : Nat) : Mach :=
  m.stewardGate p F.XLT_DIRTY_CMD_GO.addr (fun m =>
    if m.bit F.XLT_STATUS_DIRTY_BUSY then m.set F.XLT_STATUS_CMD_DROPPED 1
    else
      let n := value % 2 ^ 24
      let s := asSel (m.getP p F.XLT_AS_SEL_HERD) (m.getP p F.XLT_AS_SEL_ASID)
      let src := m.get64 F.XLT_DIRTY_BASE_LO 0 s + 8 * (m.reg 0x02000054).toNat
      let dst := m.get64 F.XLT_DIRTY_DST_LO
      let (v, m) := (m.set F.XLT_DIRTY_CMD_VALUE n).fresh
      let now := v.toNat % (n + 1)
      let m := (m.harvestWords src dst now).set F.XLT_STATUS_DIRTY_BUSY 1
      (m.putXlt { m.xlt with harvest := some (src + 8 * now, n - now, dst + 8 * now) }))

/-- DIRTY_HARVEST_DONE (R174). -/
def harvestDone (m : Mach) : Mach :=
  match m.xlt.harvest with
  | none => m
  | some (src, n, dst) =>
    let m := m.harvestWords src dst n
    (m.putXlt { m.xlt with harvest := none }).set F.XLT_STATUS_DIRTY_BUSY 0 |>.set F.XLT_STATUS_DIRTY_DONE 1

end Mach

/-- AS_ENABLE. -/
def execAsEnable (p : Path) (value : Word) (s : State) := commit s (fun m => m.asCfgWrite p (value.toNat % 2 ^ 31 + 2 ^ 31))

/-- INVALIDATE_ALL. -/
def execInvalidateAll (v : Via) (value : Word) (s : State) := commit s (fun m => m.invGo v value.toNat 0)

/-- INVALIDATE_CONTEXT. -/
def execInvalidateContext (v : Via) (value : Word) (s : State) := commit s (fun m => m.invGo v value.toNat 1)

/-- INVALIDATE_RANGE. -/
def execInvalidateRange (v : Via) (value : Word) (s : State) := commit s (fun m => m.invGo v value.toNat 2)

/-- INVALIDATE_START. -/
def execInvalidateStart (t : Nat) (s : State) := commit s (fun m => (m.advance t).invStart)

/-- INVALIDATE_DONE. -/
def execInvalidateDone (t : Nat) (s : State) := commit s (fun m => (m.advance t).invDone)

/-- WINDOW_OPEN. -/
def execWindowOpen (v : Via) (w : Nat) (s : State) := commit s (fun m => m.winCmd v 1 (w % 2 ^ 20))

/-- WINDOW_CLOSE. -/
def execWindowClose (v : Via) (w : Nat) (s : State) := commit s (fun m => m.winCmd v 2 (w % 2 ^ 20))

/-- WINDOW_READ. -/
def execWindowRead (v : Via) (w : Nat) (s : State) := commit s (fun m => m.winCmd v 3 (w % 2 ^ 20))

/-- WINDOW_CLOSE_COMPLETE. -/
def execWindowCloseComplete (t w : Nat) (s : State) := commit s (fun m => (m.advance t).winCloseComplete w)

/-- WINDOW_CLOSE_TIMEOUT. -/
def execWindowCloseTimeout (t w : Nat) (s : State) := commit s (fun m => (m.advance t).winCloseTimeout w)

/-- DIRTY_HARVEST. -/
def execDirtyHarvest (p : Path) (value : Word) (s : State) := commit s (fun m => m.harvestGo p value.toNat)

/-- DIRTY_HARVEST_DONE. -/
def execDirtyHarvestDone (t : Nat) (s : State) := commit s (fun m => (m.advance t).harvestDone)

end Sys2Proof.Machine
end

