-- ==== Sys2Proof/Machine/Herds.lean ====
section
/-! DEFINITION. The commands of herds: creating, shares, privilege, reset and destruction (14_herds.md R352 to R366). -/
namespace Sys2Proof.Machine
namespace Mach

/-! ## Commands of QE_HERD_CMD -/

/-- A staged share of a path (QE_HERD_SHARE_w). -/
def stagedShare (m : Mach) (p : Path) (r : Res) : Nat := getBits (m.getP p F.QE_HERD_SHARE r.word) r.lo r.wd

/-- Ends a herd command. -/
def herdDone (m : Mach) : Mach := m.cmdDone F.QE_HERD_CMD_STATUS_DONE F.QE_HERD_CMD_STATUS_REFUSED
def herdRefuse (m : Mach) (r : Nat) : Mach :=
  m.cmdRefused F.QE_HERD_CMD_STATUS_DONE F.QE_HERD_CMD_STATUS_REFUSED F.QE_HERD_CMD_STATUS_REASON r

/-- A command of QE_HERD_CMD on the herd that the path selects: refused BUSY, STEWARD for herd 0, STATE where the herd's state is none of those that
take it (R355). -/
def herdCmd (m : Mach) (p : Path) (states : List Nat) (f : Mach → Nat → Mach) : Mach :=
  m.stewardGate p F.QE_HERD_CMD_OP.addr (fun m =>
    let h := m.getP p F.QE_HERD_SEL_HERD
    if m.bit F.QE_HERD_CMD_STATUS_BUSY then m.herdRefuse 8
    else if h = 0 then m.herdRefuse 6
    else if states.contains (m.herdState h) = false then m.herdRefuse 1
    else f m h)

/-- Whether the staged shares exceed a pool: the shares of the other herds, and what herd 0 holds (R353). -/
def poolOver (m : Mach) (p : Path) (h : Nat) : Bool :=
  allRes.any (fun r => decide (m.pool r < m.sharesOthers r - m.granted h r + m.stagedShare p r + m.used 0 r))

/-- Grants the staged shares. -/
def takeShares (m : Mach) (p : Path) (h : Nat) : Mach := allRes.foldl (fun m r => m.setGranted h r (m.stagedShare p r)) m

/-- The doorbell window of a herd opens (R357): owned by herd 0, on the herd's page, with read and write rights. -/
def openDoorbell (m : Mach) (p : Path) (h : Nat) : Mach :=
  let w := doorbellBase + h
  let gen := (m.win w).gen
  let x : WinEntry :=
    { version := 1, state := 1, sched := false, r := true, w := true, atomic := false, gen := gen, ownerHerd := 0, ownerAsid := 0
      peer := m.getP p F.QE_HERD_DB_PEER_PEER, base := herdPage h, limit := 0x10000, rev := 0 }
  (m.setWin w x).set F.QE_HERD_STATUS_DB_GEN gen 0 h

/-- CREATE (R353, R355, R357). -/
def herdCreate (m : Mach) (p : Path) : Mach :=
  m.herdCmd p [0] (fun m h =>
    if m.poolOver p h then m.herdRefuse 2
    else (((m.takeShares p h).openDoorbell p h).set F.QE_HERD_STATUS_STATE 1 0 h).herdDone)

/-- SET_SHARE (R353, R354): the plans' claims are judged before the current use that counts them. -/
def herdSetShare (m : Mach) (p : Path) : Mach :=
  m.herdCmd p [1, 2] (fun m h =>
    let lowers := allRes.any (fun r => decide (m.stagedShare p r < m.granted h r))
    let below := fun (n : Res → Nat) => allRes.any (fun r => decide (m.stagedShare p r < m.granted h r) && decide (m.stagedShare p r < n r))
    if lowers ∧ (m.bankState 0 = 1 ∨ m.bankState 1 = 1) then m.herdRefuse 4
    else if below (fun r => m.planClaim h r) then (m.frozenDrop F.QE_HERD_CMD_OP.addr).herdRefuse 7
    else if below (fun r => m.used h r) then m.herdRefuse 3
    else if m.poolOver p h then m.herdRefuse 2
    else (m.takeShares p h).herdDone)

/-- Whether a herd is unused (R356): no current use, no plan record, no ring enabled. -/
def herdUnused (m : Mach) (h : Nat) : Bool :=
  allRes.all (fun r => m.used h r == 0) && m.heldPlans.all (fun p => !(planHerds p.2).contains h) &&
  (m.sqsOf h).all (fun k => !m.bit F.QE_SQ_CFG_ENABLE 0 k) &&
  ((m.listed F.QE_CQ_CFG_ENABLE.addr).map (·.1)).all (fun c => m.cqHerd c != h || !m.bit F.QE_CQ_CFG_ENABLE 0 c) &&
  !m.bit F.QE_EQ_CFG_ENABLE 0 h

/-- DESTROY (R355, R356): BUSY until the doorbell window's close completes. -/
def herdDestroy (m : Mach) (p : Path) : Mach :=
  m.herdCmd p [1] (fun m h =>
    if m.herdUnused h = false then m.herdRefuse 3
    else
      let m := (m.set F.QE_HERD_STATUS_STATE 4 0 h).set F.QE_HERD_CMD_STATUS_BUSY 1
      m.closeWin (doorbellBase + h) none true)

/-- GRANT and REVOKE (R362). -/
def privGrant (m : Mach) (p : Path) : Mach :=
  m.herdCmd p [1, 2, 3] (fun m h =>
    if m.bit F.QE_HERD_STATUS_PRIV 0 h then m.herdDone
    else if 16 ≤ m.get F.QE_PRIV_COUNT then m.herdRefuse 5
    else ((m.set F.QE_HERD_STATUS_PRIV 1 0 h).set F.QE_PRIV_COUNT (m.get F.QE_PRIV_COUNT + 1)).herdDone)

def privRevoke (m : Mach) (p : Path) : Mach :=
  m.herdCmd p [1, 2, 3] (fun m h =>
    if m.bit F.QE_HERD_STATUS_PRIV 0 h then
      ((m.set F.QE_HERD_STATUS_PRIV 0 0 h).set F.QE_PRIV_COUNT (m.get F.QE_PRIV_COUNT - 1)).herdDone
    else m.herdDone)

/-! ## Herd reset -/

/-- The queues of a herd stop (R364): no more fetching, what is accepted and not dispatched is flushed, a waiting WAIT_COUNT completes. -/
def resetSq (m : Mach) (k : Nat) : Mach :=
  let x := m.sq k
  let m := m.setSq k { x with fetched := [], reading := none, refetchAt := none, claims := [], wait := none, paused := false, flush := x.flush ++ x.fetched }
  let m := m.set F.QE_SQ_STATUS_WAITING 0 0 k
  match x.wait with
  | some w => m.complete k w.uid stFlushed 0 0
  | none => m

/-- Launches of a herd that are not yet RUNNING complete with FLUSHED. -/
def launchesWaitFlush (m : Mach) (h : Nat) : Mach :=
  (m.chu.launches.filter (fun l => l.herd == h && decide (l.state < 2))).foldl (fun m l =>
    ((m.dropLaunch l.uid).complete l.sq l.uid stFlushed 0 0).progDrained l.entry) m

/-- Queue pairs of a herd that are READY. -/
def qpsReady (m : Mach) (h : Nat) : List Nat :=
  ((m.listed F.BEQ_QP_STATUS_STATE.addr).map (·.1)).filter (fun q => m.qpState q == 1 && m.qpHerd q == h)

/-- OPEN windows of a herd, doorbell windows apart, among the entries of the window table that hold anything. -/
def windowsOpen (m : Mach) (h : Nat) : List Nat :=
  let base := m.get64 F.WIN_TABLE_LO
  (((m.peat.filter (fun c => decide (base ≤ c.1) && decide (c.1 < base + 32 * doorbellBase))).map (fun c => (c.1 - base) / 32)).eraseDups).filter
    (fun w => (m.win w).state == 1 && (m.win w).ownerHerd == h)

/-- Squashes what is dispatched (R365): RUNNING launches stop with FLUSHED, and lode descriptors with no frame accepted complete with FLUSHED. -/
def squash (m : Mach) (h : Nat) : Mach :=
  let m := (m.chu.launches.filter (fun l => l.herd == h && l.state == 2)).foldl (fun m l => m.launchEnd l (some (stFlushed, 0))) m
  m.lode.tx.foldl (fun m x =>
    let gone := x.2.queue.filter (fun g => g.done == 0 && m.sqHerd g.sq == h)
    let m := m.setLtx x.1 { x.2 with queue := x.2.queue.filter (fun g => !(g.done == 0 && m.sqHerd g.sq == h)) }
    gone.foldl (fun m g => m.complete g.sq g.uid stFlushed 0 0) m) m

/-- RESET (R364, R365): `windows` keeps the herd's windows, `mode` 1 is SQUASH. -/
def herdReset' (m : Mach) (p : Path) (windows mode : Nat) : Mach :=
  m.herdCmd p [1, 2] (fun m h =>
    let m := (m.set F.QE_HERD_STATUS_STATE 3 0 h).set F.QE_HERD_CMD_STATUS_BUSY 1
    let m := (m.sqsOf h).foldl resetSq m
    let m := m.launchesWaitFlush h
    let m := (m.qpsReady h).foldl (fun m q => m.qpError q stFlushed) m
    let m := m.collFlush h
    let ws : List Nat := if windows = 0 then m.windowsOpen h else []
    let m := ws.foldl (fun m w => m.closeWin w none true) m
    let r : InvReq := { page := some h, scope := 0, herd := h, asid := 0, va := 0, pages := 0, running := false, blockers := [] }
    let m : Mach :=
      { m with
        xlt := { m.xlt with inv := m.xlt.inv ++ [r] }
        herdReset := some { herd := h, squash := mode == 1, since := m.now, windows := ws } }
    if mode = 1 then m.squash h else m)

/-- HERD_RESET_DRAIN_TIMEOUT (R365, R367): a lease period after RESET, what is left is squashed. -/
def drainTimeout (m : Mach) : Mach :=
  match m.herdReset with
  | none => m
  | some r =>
    if r.squash ∨ m.now < r.since + m.leaseAt r.since then m
    else (m.putHerdReset (some { r with squash := true })).squash r.herd

/-- Whether every completion of the dispatched descriptors of an SQ is written and acknowledged, or its CQ has a ring fault (R366). -/
def sqSettled (m : Mach) (k : Nat) : Bool :=
  let c := m.get F.QE_SQ_CQ_CQ 0 k
  m.bit F.QE_CQ_STATUS_RING_FAULT 0 c || ((m.sq k).out.isEmpty && m.mem.writes.all (fun w => !(w.kind == 3 && w.chan / 65536 == c)))

/-- Completions of undispatched descriptors still unwritten are dropped and counted, with CQ_OVERRUN once (R364). -/
def flushDrop (m : Mach) (h : Nat) : Mach :=
  let left := (m.sqsOf h).filter (fun k => !(m.sq k).flush.isEmpty)
  let m := left.foldl (fun (m : Mach) k => m.inc F.QE_CQ_DROP (m.sq k).flush.length 0 (m.get F.QE_SQ_CQ_CQ 0 k)) m
  match left with
  | [] => m
  | k :: _ => m.raise 0x0102 srcQe h [h] (m.get F.QE_SQ_CQ_CQ 0 k) k

/-- Rings of a herd after its reset: disabled, HEAD and TAIL 0, expected phase 1 (R366). -/
def ringsClear (m : Mach) (h : Nat) : Mach :=
  let m := (m.sqsOf h).foldl (fun (m : Mach) k =>
    let m := m.setSq k { m.sq k with fetched := [], out := [], reading := none, refetchAt := none, claims := [], wait := none, paused := false, flush := [] }
    (((((m.set F.QE_SQ_CFG_ENABLE 0 0 k).set F.QE_SQ_PTR_OWN 0 0 k).set F.QE_SQ_PTR_OTHER 0 0 k).set F.QE_SQ_STATUS_PHASE 1 0 k).set
      F.QE_SQ_STATUS_HALTED 0 0 k).sqIdle k) m
  (((m.listed F.QE_CQ_CFG_ENABLE.addr).map (·.1)).filter (fun c => m.cqHerd c == h)).foldl (fun (m : Mach) c =>
    let m := m.setCq c { headers := [], overrun := false }
    ((((m.set F.QE_CQ_CFG_ENABLE 0 0 c).set F.QE_CQ_PTR_OWN 0 0 c).set F.QE_CQ_PTR_OTHER 0 0 c).set F.QE_CQ_STATUS_PHASE 1 0 c).cqFull c) m

/-- Cream granules of a herd are cleared (R366, 10_memory.md R264). -/
def creamClear (m : Mach) (h : Nat) : Mach :=
  (((m.listed F.CRM_GRAN_STATE.addr).map (·.1)).filter (fun g => m.get F.CRM_GRAN_STATE 0 g == 1 && m.get F.CRM_GRAN_HERD 0 g == h)).foldl
    (fun (m : Mach) g =>
      let m := m.wrZero .cream (creamBase g) 0x10000
      let left := m.mem.badWords.filter (fun w => !(decide (creamBase g ≤ w * 8) && decide (w * 8 < creamBase g + 0x10000)))
      (m.putMem { m.mem with badWords := left })) m

/-- The herd returns to ACTIVE (R366). -/
def resetEnd (m : Mach) (h : Nat) : Mach :=
  let m := ((m.flushDrop h).ringsClear h).creamClear h
  let m := m.set F.QE_HALT (m.get F.QE_HALT (h / 32) &&& (0xFFFFFFFF ^^^ 2 ^ (h % 32))) (h / 32)
  let m := (m.set F.QE_HERD_STATUS_STATE 1 0 h).set F.QE_HERD_CMD_STATUS_BUSY 0
  let m := (m.putHerdReset none).raise 0x0103 srcQe h [h, 0] h 0
  m.herdDone

/-- HERD_RESET_COMPLETE (R366): once every completion condition holds. The clears of tile SRAM that the herd wrote begin when its last launch has ended. -/
def resetComplete (m : Mach) : Mach :=
  match m.herdReset with
  | none => m
  | some r =>
    let h := r.herd
    let settled := (m.sqsOf h).all (fun k => m.sqSettled k)
    let closed := r.windows.all (fun w => !m.winCloses.any (fun c => c.window == w))
    let idle := m.chu.launches.all (fun l => l.herd != h)
    let mine := m.chu.sram.filter (fun x => x.2.2.2 == h)
    let valid := !m.xlt.inv.any (fun y => y.page == some h)
    let m := if idle ∧ !mine.any (fun x => m.chu.clears.any (fun c => c.1 == x.1)) then m.sramRelease h else m
    if settled && closed && idle && mine.isEmpty && valid then m.resetEnd h else m

end Mach

/-- HERD_CREATE. -/
def execHerdCreate (p : Path) (s : State) : Host.Outcome State Fault Refusal := commit s (fun m => m.herdCreate p)

/-- HERD_SET_SHARE. -/
def execHerdSetShare (p : Path) (s : State) : Host.Outcome State Fault Refusal := commit s (fun m => m.herdSetShare p)

/-- HERD_RESET: WINDOWS and MODE of the value written. -/
def execHerdReset (p : Path) (value : Word) (s : State) : Host.Outcome State Fault Refusal :=
  commit s (fun m => m.herdReset' p (getBits value.toNat 1 1) (getBits value.toNat 0 1))

/-- HERD_DESTROY. -/
def execHerdDestroy (p : Path) (s : State) : Host.Outcome State Fault Refusal := commit s (fun m => m.herdDestroy p)

/-- PRIV_GRANT. -/
def execPrivGrant (p : Path) (s : State) : Host.Outcome State Fault Refusal := commit s (fun m => m.privGrant p)

/-- PRIV_REVOKE. -/
def execPrivRevoke (p : Path) (s : State) : Host.Outcome State Fault Refusal := commit s (fun m => m.privRevoke p)

/-- HERD_RESET_DRAIN_TIMEOUT. -/
def execHerdResetDrainTimeout (t : Nat) (s : State) : Host.Outcome State Fault Refusal :=
  commit s (fun m => (m.advance t).engines (fun m => m.drainTimeout))

/-- HERD_RESET_COMPLETE. -/
def execHerdResetComplete (t : Nat) (s : State) : Host.Outcome State Fault Refusal :=
  commit s (fun m => (m.advance t).engines (fun m => m.resetComplete))

end Sys2Proof.Machine
end

