-- ==== Sys2Proof/Machine/Lodes.lean ====
section
/-! DEFINITION. The commands of lodes: descriptors, frames at the source and the destination, flags, atomics, receipts, and scheduled frames on
their way through the module (04_lodes_ordering.md, 03_sluice_plans.md R73 to R85, 13_routing_deadlock.md R334). -/
namespace Sys2Proof.Machine
namespace Mach

/-- The first scheduled frame addressed here that carries a lode frame. -/
def takeHere (m : Mach) : Option (LodeFrame × Bool × Mach) :=
  match m.lode.here.find? (fun x => match x.frame.body with | .lode _ => true | .chunk _ => false) with
  | none => none
  | some x =>
    match x.frame.body with
    | .chunk _ => none
    | .lode f => some (f, x.frame.shadow, (m.putLode { m.lode with here := m.lode.here.erase x }))

/-- LODE_LEASE_LOSS (R105): a lease period has passed since the lode's last arrival while some message of it is begun and not resolved
(notes/assumptions/9.md). -/
def leaseLoss (m : Mach) (l : Nat) : Mach :=
  match m.inRec l with
  | none => m
  | some rec =>
    let x := m.lrx l
    if x.lastArrival + m.leaseAt x.lastArrival ≤ m.now ∧ x.msgs.any (fun g => !g.resolved) then m.lossScan l rec true 1 else m

/-- RECEIPT_RECEIVED (R116): the oldest receipt that came over a control connection. -/
def receiptReceived (m : Mach) : Mach :=
  match m.beq.ctl.find? (fun c => leAt c.bytes 0 1 / 16 == 3) with
  | none => m
  | some c => (m.putBeq { m.beq with ctl := m.beq.ctl.erase c }).receiptTake c.src (c.bytes.drop 32)

end Mach

/-- LODE_WRITE. -/
def execLodeWrite (t k : Nat) (s : State) :=
  commit s (fun m => (m.advance t).dispatch k (fun d => d.opcode == 0x01) (fun m d => m.lodeForeign k d) (fun m d u => m.lodePost k d u false))

/-- LODE_ATOMIC. -/
def execLodeAtomic (t k : Nat) (s : State) :=
  commit s (fun m => (m.advance t).dispatch k (fun d => d.opcode == 0x02) (fun m d => m.lodeForeign k d) (fun m d u => m.lodePost k d u true))

/-- LODE_FRAME_ACCEPT. -/
def execLodeFrameAccept (t l : Nat) (s : State) := commit s (fun m => (m.advance t).engines (fun m => m.frameAccept l))

/-- LODE_DEADLINE_TIMEOUT. -/
def execLodeDeadlineTimeout (t l : Nat) (s : State) := commit s (fun m => (m.advance t).engines (fun m => m.deadlineTimeout l))

/-- LODE_FRAME_RECEIVED: the oldest lode frame that the router placed here. -/
def execLodeFrameReceived (t : Nat) (s : State) :=
  commit s (fun m => (m.advance t).engines (fun m => match m.takeHere with | none => m | some (f, sh, m) => m.lodeReceive f sh))

/-- LODE_LEASE_LOSS. -/
def execLodeLeaseLoss (t l : Nat) (s : State) := commit s (fun m => (m.advance t).engines (fun m => m.leaseLoss l))

/-- HELD_FRAME_RELEASE. -/
def execHeldFrameRelease (t l : Nat) (s : State) := commit s (fun m => (m.advance t).engines (fun m => m.heldRelease l))

/-- LODE_FLAG_WRITE. -/
def execLodeFlagWrite (t l : Nat) (s : State) := commit s (fun m => (m.advance t).engines (fun m => m.flagWrite l))

/-- LODE_ATOMIC_PERFORM. -/
def execLodeAtomicPerform (t l : Nat) (s : State) := commit s (fun m => (m.advance t).engines (fun m => m.atomicPerform l))

/-- RECEIPT_SEND. -/
def execReceiptSend (t l : Nat) (s : State) := commit s (fun m => (m.advance t).engines (fun m => m.receiptSend l))

/-- RECEIPT_TIMER. -/
def execReceiptTimer (t l : Nat) (s : State) := commit s (fun m => (m.advance t).engines (fun m => m.receiptTimer l))

/-- RECEIPT_RECEIVED. -/
def execReceiptReceived (t : Nat) (s : State) := commit s (fun m => (m.advance t).engines (fun m => m.receiptReceived))

/-- RECEIPT_TIMEOUT. -/
def execReceiptTimeout (t l : Nat) (s : State) := commit s (fun m => (m.advance t).engines (fun m => m.receiptTimeout l))

/-- RX_COMPLETION_WRITE. -/
def execRxCompletionWrite (t l : Nat) (s : State) := commit s (fun m => (m.advance t).engines (fun m => m.rxCompletionWrite l))

/-- SCHED_FRAME_RECEIVED. -/
def execSchedFrameReceived (t p : Nat) (f : SchedFrame) (s : State) := commit s (fun m => (m.advance t).engines (fun m => m.schedReceived p f))

/-- SCHED_FRAME_ROUTE. -/
def execSchedFrameRoute (t p : Nat) (s : State) := commit s (fun m => (m.advance t).engines (fun m => m.schedRoute p))

end Sys2Proof.Machine
end

