-- ==== Sys2Proof/Machine/Memory.lean ====
section
/-! DEFINITION. The commands of the Cream and Peat stores (10_memory.md): granules, error codes, scrubbing, and mirror regions. -/
namespace Sys2Proof.Machine

/-! ## Granules -/

/-- Cream granules that a CREAM reservation covers: START is an offset in each bank of UNITS (03_sluice_plans.md R88). -/
def Resv.creamGranules (r : Resv) : List Nat :=
  if r.type ≠ 3 ∨ r.length = 0 then []
  else
    (List.range 64).flatMap (fun b =>
      if getBits r.units b 1 = 0 then []
      else (List.range ((r.start + r.length - 1) / 0x10000 + 1 - r.start / 0x10000)).map (fun i => b * 48 + r.start / 0x10000 + i))

namespace Mach

/-- Whether a Cream granule is covered by a reservation of a plan bank (R264). -/
def creamPlanned (m : Mach) (g : Nat) : Bool := m.heldPlans.any (fun x => x.2.resvs.any (fun r => r.creamGranules.contains g))

/-- The outcome of a granule command over granules: where and why it was refused, if it was, and whether some granule was sent to clearing. -/
structure GranRun where
  m : Mach
  stop : Option (Nat × Nat)
  clearing : Bool

/-- Runs a granule command over granules in ascending order up to the first that it refuses (R274). -/
def granLoop (one : Mach → Nat → Except Nat (Mach × Bool)) : List Nat → GranRun → GranRun
  | [], r => r
  | g :: rest, r =>
    match one r.m g with
    | .error why => { r with stop := some (g, why) }
    | .ok (m, c) => granLoop one rest { r with m := m, clearing := r.clearing || c }

/-- Status fields of CRM_CMD_STATUS or PEAT_CMD_STATUS. -/
structure GranFlds where
  busy : Fld
  done : Fld
  refused : Fld
  place : Fld
  reason : Fld

def crmFlds : GranFlds := ⟨F.CRM_CMD_STATUS_BUSY, F.CRM_CMD_STATUS_DONE, F.CRM_CMD_STATUS_REFUSED, F.CRM_CMD_STATUS_AT, F.CRM_CMD_STATUS_REASON⟩
def peatFlds : GranFlds := ⟨F.PEAT_CMD_STATUS_BUSY, F.PEAT_CMD_STATUS_DONE, F.PEAT_CMD_STATUS_REFUSED, F.PEAT_CMD_STATUS_AT, F.PEAT_CMD_STATUS_REASON⟩

/-- A granule command ends its first pass (R275): refused at once, BUSY while granules that it moved are cleared, DONE when none is. -/
def granEnd (f : GranFlds) (setJob : Mach → Option GranJob → Mach) (sel : Nat) (assign : Bool) (r : GranRun) : Mach :=
  let m := match r.stop with
    | some (g, why) => (r.m.cmdRefused f.done f.refused f.reason why).set f.place g
    | none => r.m
  if r.clearing then
    let hi := match r.stop with | some (g, _) => g | none => 2 ^ 30
    (setJob m (some { lo := sel, hi := hi, refused := r.stop.isSome, assign := assign })).set f.busy 1
  else if r.stop.isNone then m.cmdDone f.done f.refused
  else m

def setPeatJob (m : Mach) (j : Option GranJob) : Mach := (m.putMem { m.mem with peatJob := j })
def setCrmJob (m : Mach) (j : Option GranJob) : Mach := (m.putMem { m.mem with crmJob := j })

/-- ASSIGN of one Peat granule with the staged entry (R274). -/
def peatAssign (st : Gran) (m : Mach) (g : Nat) : Except Nat (Mach × Bool) :=
  if m.peatGranules ≤ g then .error 5
  else if (m.gran g).state ≠ 0 then .error 1
  else if (m.gran g).resv then .error 4
  else if m.roomFor st.herd resPeat 1 = false then .error 3
  else if st.crypt ∧ (m.bit F.ID_CAP0_PEAT_CRYPT = false ∨ m.keyState st.keyPage = 0 ∨ m.get F.CIPH_PAGE_STATUS_HERD 0 st.keyPage ≠ st.herd ∨
      m.get F.CIPH_PAGE_STATUS_KIND 0 st.keyPage ≠ 2) then .error 6
  else
    let e : Gran := { st with state := if st.crypt then 2 else 1, resv := false, mirror := false }
    .ok ((m.setGran g e).take st.herd resPeat 1, st.crypt)

/-- RELEASE of one Peat granule (R274, R275). -/
def peatRelease (m : Mach) (g : Nat) : Except Nat (Mach × Bool) :=
  let e := m.gran g
  if m.peatGranules ≤ g then .error 5
  else if e.resv ∨ e.mirror then .error 4
  else if e.state ≠ 1 then .error 2
  else .ok (m.setGran g { e with state := 2 }, true)

/-- PEAT_GRAN_CMD (R274, R275). -/
def peatCmd (m : Mach) (p : Path) (value : Nat) : Mach :=
  m.stewardGate p F.PEAT_GRAN_CMD_OP.addr fun m =>
    let op := getBits value 28 4
    let n := max 1 (getBits value 0 19)
    let sel := m.getP p F.PEAT_GRAN_SEL_GRANULE
    let st := granOf (m.getP p F.PEAT_GRAN_STAGE)
    if op ≠ 1 ∧ op ≠ 2 then m
    else if m.bit F.PEAT_CMD_STATUS_BUSY then m.cmdRefused F.PEAT_CMD_STATUS_DONE F.PEAT_CMD_STATUS_REFUSED F.PEAT_CMD_STATUS_REASON 8
    else
      let gs := (List.range (min n (m.peatGranules + 1 - sel))).map (fun i => sel + i)
      let gs := if gs.isEmpty then [sel] else gs
      granEnd peatFlds setPeatJob sel (op == 1) (granLoop (if op = 1 then peatAssign st else peatRelease) gs ⟨m, none, false⟩)

/-- ASSIGN and RELEASE of one Cream granule (R264). -/
def crmAssign (h : Nat) (m : Mach) (g : Nat) : Except Nat (Mach × Bool) :=
  if 3072 ≤ g then .error 5
  else if m.get F.CRM_GRAN_STATE 0 g ≠ 0 then .error 1
  else if m.roomFor h resCream 1 = false then .error 3
  else .ok (((m.set F.CRM_GRAN_STATE 1 0 g).set F.CRM_GRAN_HERD h 0 g).take h resCream 1, false)

def crmRelease (m : Mach) (g : Nat) : Except Nat (Mach × Bool) :=
  if 3072 ≤ g then .error 5
  else if m.get F.CRM_GRAN_STATE 0 g ≠ 1 then .error 2
  else if m.creamPlanned g then .error 4
  else .ok (m.set F.CRM_GRAN_STATE 2 0 g, true)

/-- CRM_GRAN_CMD (R264, R275). -/
def crmCmd (m : Mach) (p : Path) (value : Nat) : Mach :=
  m.stewardGate p F.CRM_GRAN_CMD_OP.addr fun m =>
    let op := getBits value 28 4
    let n := max 1 (getBits value 0 12)
    let sel := m.getP p F.CRM_GRAN_SEL_GRANULE
    if op ≠ 1 ∧ op ≠ 2 then m
    else if m.bit F.CRM_CMD_STATUS_BUSY then m.cmdRefused F.CRM_CMD_STATUS_DONE F.CRM_CMD_STATUS_REFUSED F.CRM_CMD_STATUS_REASON 8
    else
      granEnd crmFlds setCrmJob sel (op == 1)
        (granLoop (if op = 1 then crmAssign (getBits value 20 8) else crmRelease) ((List.range n).map (fun i => sel + i)) ⟨m, none, false⟩)

/-- A CLEARING Peat granule has been written with zeros (R274, R275): FREE, or ASSIGNED with encrypted zeros. A granule that a reset found CLEARING waits for boot
step 7 (R278). -/
def peatCleared (m : Mach) (g : Nat) : Mach :=
  let e := m.gran g
  if e.state ≠ 2 ∨ m.get F.CLK_BOOT_STEP < 8 then m
  else
    let assign := (m.mem.peatJob.map (fun j => j.assign && decide (j.lo ≤ g) && decide (g < j.hi))).getD false
    let m := m.wrZero .peat (g * 2 ^ 21) (2 ^ 21)
    let left := m.mem.badLines.filter (fun l => !(decide (g * 2 ^ 21 ≤ l * 768) && decide (l * 768 + 768 ≤ (g + 1) * 2 ^ 21)))
    let m := (m.putMem { m.mem with badLines := left })
    let m := if assign then (m.setGran g { e with state := 1 }).storeKeyCount (g * 2 ^ 21) (2 ^ 21)
      else (m.setGran g (granOf 0)).giveBack e.herd resPeat 1
    match m.mem.peatJob with
    | none => m
    | some j =>
      let busy := (m.listed F.PEAT_GRAN.addr).any (fun x => decide (j.lo ≤ x.1) && decide (x.1 < j.hi) && (granOf x.2.toNat).state == 2)
      if busy then m
      else
        let m := (m.setPeatJob none).set F.PEAT_CMD_STATUS_BUSY 0
        if j.refused then m else m.cmdDone F.PEAT_CMD_STATUS_DONE F.PEAT_CMD_STATUS_REFUSED

/-- A CLEARING Cream granule has been zeroed: FREE (R264, R275). -/
def crmCleared (m : Mach) (g : Nat) : Mach :=
  if m.get F.CRM_GRAN_STATE 0 g ≠ 2 then m
  else
    let h := m.get F.CRM_GRAN_HERD 0 g
    let m := m.wrZero .cream (creamBase g) 0x10000
    let left := m.mem.badWords.filter (fun w => !(decide (creamBase g ≤ w * 8) && decide (w * 8 < creamBase g + 0x10000)))
    let m := (m.putMem { m.mem with badWords := left })
    let m := (((m.set F.CRM_GRAN_STATE 0 0 g).set F.CRM_GRAN_HERD 0 0 g)).giveBack h resCream 1
    match m.mem.crmJob with
    | none => m
    | some j =>
      let busy := (m.listed F.CRM_GRAN_STATE.addr).any (fun x => decide (j.lo ≤ x.1) && decide (x.1 < j.hi) && getBits x.2.toNat 30 2 == 2)
      if busy then m
      else
        let m := (m.setCrmJob none).set F.CRM_CMD_STATUS_BUSY 0
        if j.refused then m else m.cmdDone F.CRM_CMD_STATUS_DONE F.CRM_CMD_STATUS_REFUSED

/-! ## Error codes and scrubbing -/

/-- A shared bank finds an error in a 64-bit word (R266): corrected, or marked so that whatever reads it fails. -/
def creamError (m : Mach) (word : Nat) (double : Bool) : Mach :=
  let b := word * 8 / 0x400000
  if creamMapped (word * 8) = false then m
  else if double then
    let m := (m.putMem { m.mem with badWords := if m.mem.badWords.contains word then m.mem.badWords else m.mem.badWords ++ [word] })
    (m.inc F.CRM_ECC_UNCORRECTED).fault (srcCream b) kFailed { status := stUncorrectable, addr := word * 8, detail := b }
  else (m.inc F.CRM_ECC_CORRECTED).fault (srcCream b) kCorrected { addr := word * 8, detail := b }

/-- Word of the shared banks that follows another in scrub order. -/
def nextWord (w : Nat) : Nat :=
  let a := w * 8 + 8
  if creamMapped a then w + 1
  else if a / 0x400000 + 1 < 64 then (a / 0x400000 + 1) * 0x400000 / 8
  else 0

/-- CREAM_SCRUB: the next word is read and corrected (R266); `bits` is the number of wrong bits found. -/
def creamScrub (m : Mach) (bits : Nat) : Mach :=
  if m.bit F.CRM_CTL_SCRUB_EN = false then m
  else
    let w := m.mem.scrubWord
    let m := (m.putMem { m.mem with scrubWord := nextWord w })
    if bits = 0 then m else m.creamError w (decide (1 < bits))

/-- The Peat code meets a line whose symbols of some packages are wrong (R271): it corrects them while they, with an erased package, lie in one package. -/
def peatError (m : Mach) (line : Nat) (pkgs : List Nat) : Mach :=
  let bad := (pkgs.filter (fun c => decide (c < 24))).eraseDups
  let lost := if m.bit F.PEAT_STATUS_ERASED then (m.get F.PEAT_STATUS_ERASED_PKG :: bad).eraseDups else bad
  if bad.isEmpty ∨ m.peatCap ≤ line * 768 then m
  else if lost.length = 1 then
    bad.foldl (fun m c => (m.inc F.PEAT_C_SYMERR 1 c).fault (srcPeat c) kCorrected { addr := line * 768, detail := c }) (m.inc F.PEAT_CORR)
  else
    let m := (m.putMem { m.mem with badLines := if m.mem.badLines.contains line then m.mem.badLines else m.mem.badLines ++ [line] })
    bad.foldl (fun m c => m.fault (srcPeat c) kFailed { status := stUncorrectable, addr := line * 768, detail := c }) m

/-- PEAT_SCRUB: the next line is read and corrected (R272); throttle level 3 pauses it (17_clocks_power_reset.md R422). -/
def peatScrub (m : Mach) (pkgs : List Nat) : Mach :=
  if m.bit F.PEAT_CTL_SCRUB_EN = false ∨ 3 ≤ m.get F.CLK_STATUS_THROTTLE then m
  else
    let l := m.mem.scrubLine
    let m := (m.putMem { m.mem with scrubLine := if (l + 1) * 768 < m.peatCap then l + 1 else 0 })
    m.peatError l pkgs

/-! ## Mirror regions -/

/-- Sectors of a mirror region, and its first local address. -/
def mirSectors (m : Mach) (r : Nat) : Nat := m.mirCount r * 512
def mirBase (m : Mach) (r : Nat) : Nat := m.mirFirst r * 2 ^ 21

/-- Sectors that a receiver's journal holds (R284). -/
def mirCapacity (m : Mach) (r : Nat) : Nat := m.mirJournal r * 2097152 / 4104

/-- PEAT_MIR_PENDING: a sender's dirty sectors that await shipment, a receiver's journal sectors in use. -/
def mirPending (m : Mach) (r : Nat) : Nat :=
  let x := m.mirror r
  if m.mirReceives r then x.journal.length else ivCount x.dirty + ivCount x.captured

/-- The bytes of a mirror message (R286). -/
def mirBytes (kind region epoch mseq sector : Nat) (d : List Byte) : List Byte :=
  leBytes 4 (1 + kind * 16 + region * 256) ++ leBytes 4 epoch ++ leBytes 8 mseq ++ leBytes 4 sector ++
    leBytes 4 (if d.isEmpty then 0 else crcOf polyCastagnoli d) ++ List.replicate 8 0 ++ d

/-- Posts a mirror message on the region's queue pair. -/
def mirPost (m : Mach) (r : Nat) (sector : Nat) (b : List Byte) : Mach :=
  m.qpPost (m.mirQp r) { blankMsg with kind := .mirror, len := b.length, data := b, segs := some [], mirror := some (r, sector) }

/-- Sets or clears MIRROR in every granule of a region. -/
def mirMark (m : Mach) (r : Nat) (on : Bool) : Mach :=
  (List.range (m.mirCount r)).foldl (fun m i =>
    let g := m.mirFirst r + i
    m.setGran g { m.gran g with mirror := on }) m

/-- A command of PEAT_MIR_CMD on the region selected. -/
def mirCmd (m : Mach) (p : Path) (f : Mach → Nat → Except Nat Mach) : Mach :=
  m.stewardGate p F.PEAT_MIR_CMD_OP.addr fun m =>
    let r := m.getP p F.PEAT_MIR_SEL_REGION
    match (if m.bit F.ID_CAP0_MIRROR = false then .error 4 else if (m.mirror r).rolling then .error 1 else f m r) with
    | .error why => m.cmdRefused F.PEAT_MIR_STATUS_DONE F.PEAT_MIR_STATUS_REFUSED F.PEAT_MIR_STATUS_REASON why r
    | .ok m => m

def mirDone (m : Mach) (r : Nat) : Mach := m.cmdDone F.PEAT_MIR_STATUS_DONE F.PEAT_MIR_STATUS_REFUSED r

/-- Whether a region's configuration can start (R281): its granules are ASSIGNED to the herd, bitmap or journal granules have RESV. -/
def mirConfigOk (m : Mach) (r : Nat) : Bool :=
  let aux := if m.mirReceives r then m.mirJournal r else (m.mirCount r * 64 + 2097151) / 2097152
  decide (0 < m.mirCount r) && decide (m.mirFirst r + m.mirCount r ≤ m.peatGranules) &&
  (List.range (m.mirCount r)).all (fun i => let g := m.gran (m.mirFirst r + i); g.state == 1 && g.herd == m.mirHerd r) &&
  (List.range aux).all (fun i => (m.gran (m.mirAux r + i)).resv)

/-- START (R281, R282, R285). -/
def mirStart (m : Mach) (r : Nat) : Except Nat Mach :=
  let st := m.mirState r
  if ¬ (st = 0 ∨ (st = 5 ∧ m.mirReceives r = false)) then .error 1
  else if m.mirConfigOk r = false then .error 2
  else
    let x := m.mirror r
    let m := (m.mirMark r true).set64 F.PEAT_MIR_SEQ_LO 0 0 r
    if m.mirReceives r then
      let m := m.setMirror r { x with journal := [], lastMsg := m.now, sealGot := none, rolling := false, sealedNo := none }
      .ok ((((m.set F.PEAT_MIR_STATUS_STATE 3 0 r).set F.PEAT_MIR_EPOCH 0xFFFFFFFF 0 r).set F.PEAT_MIR_STATUS_JOURNAL_FULL 0 0 r).mirDone r)
    else
      let m := m.setMirror r { x with dirty := [(0, m.mirSectors r)], captured := [], snaps := [], torn := false, sealSent := false, setSize := 0 }
      .ok ((m.set F.PEAT_MIR_STATUS_STATE 1 0 r).mirDone r)

/-- SEAL: numbers the epoch and captures the dirty set (R283). -/
def mirSeal (m : Mach) (r : Nat) : Except Nat Mach :=
  if m.mirState r ≠ 1 then .error 1
  else
    let x := m.mirror r
    let m := m.setMirror r { x with
      sealing := (x.sealing + 1) % 2 ^ 32, captured := x.dirty, dirty := [], snaps := [], setSize := ivCount x.dirty, torn := false, sealSent := false }
    .ok ((m.set F.PEAT_MIR_STATUS_STATE 2 0 r).mirDone r)

/-- A region stops (R285): MIRROR_STOPPED, but for a receiver stopped by command. -/
def mirHalt (m : Mach) (r : Nat) (quiet : Bool) : Mach :=
  let m := m.set F.PEAT_MIR_STATUS_STATE 5 0 r
  if quiet then m else m.raise 0x0803 0x1FF (m.mirHerd r) [m.mirHerd r, 0] r (m.get64 F.PEAT_MIR_SEQ_LO 0 r)

/-- STOP (R285). -/
def mirStop (m : Mach) (r : Nat) : Except Nat Mach :=
  let st := m.mirState r
  if st = 1 ∨ st = 2 then .ok ((m.mirHalt r false).mirDone r)
  else if st = 3 then .ok ((m.mirHalt r true).mirDone r)
  else .error 1

/-- ROLLBACK (R285): the restore begins. -/
def mirRollback (m : Mach) (r : Nat) : Except Nat Mach :=
  let st := m.mirState r
  if ¬ ((st = 4 ∨ st = 5) ∧ m.mirReceives r = true) then .error 1
  else if m.get F.PEAT_MIR_EPOCH 0 r = 0xFFFFFFFF then .error 3
  else .ok ((m.setMirror r { m.mirror r with rolling := true }).set F.PEAT_MIR_STATUS_REFUSED 0 0 r)

/-- MIRROR_ROLLBACK_DONE (R285): every journaled sector is restored; the region is OFF. -/
def mirRollbackDone (m : Mach) (r : Nat) : Mach :=
  let x := m.mirror r
  if x.rolling = false then m
  else
    let m := x.journal.foldl (fun m j => m.peatWrite (m.mirBase r + j.1 * 4096) j.2 false) m
    let m := m.setMirror r { x with journal := [], rolling := false, sealGot := none }
    let m := (m.mirMark r false).set F.PEAT_MIR_STATUS_STATE 0 0 r
    (m.set F.PEAT_MIR_STATUS_JOURNAL_FULL 0 0 r).mirDone r

/-- Next MSEQ of a region, which becomes the last shipped. -/
def mirSeq (m : Mach) (r : Nat) : Mach × Nat :=
  let n := m.get64 F.PEAT_MIR_SEQ_LO 0 r + 1
  (m.set64 F.PEAT_MIR_SEQ_LO n 0 r, n)

/-- MIRROR_SECTOR_SHIP (R282, R283): in RUNNING the lowest dirty sector, in SEALING the captured ones, first those that a write waits for. -/
def mirShip (m : Mach) (r : Nat) : Mach :=
  let x := m.mirror r
  let st := m.mirState r
  let next := if st = 1 then ivFirst x.dirty
    else if st = 2 then ((x.snaps.map (·.1)).find? (fun k => ivMem x.captured k)).or (ivFirst x.captured)
    else none
  match next with
  | none => m
  | some k =>
    let d := (alGet x.snaps k).getD (m.rdBytes .peat (m.mirBase r + k * 4096) 4096)
    let (m, n) := m.mirSeq r
    let x := if st = 1 then { x with dirty := ivDel x.dirty k } else { x with captured := ivDel x.captured k, snaps := alDel x.snaps k }
    (m.setMirror r x).mirPost r k (mirBytes 1 (m.mirPeerRegion r) 0 n k d)

/-- MIRROR_SEAL_SEND (R283): the captured set has shipped; a torn epoch sends nothing. -/
def mirSealSend (m : Mach) (r : Nat) : Mach :=
  let x := m.mirror r
  if m.mirState r ≠ 2 ∨ x.captured ≠ [] ∨ x.sealSent then m
  else if x.torn then
    let m := (m.set F.PEAT_MIR_STATUS_STATE 1 0 r).set F.PEAT_MIR_STATUS_TORN 1 0 r
    (m.setMirror r { x with torn := false }).raise 0x0801 0x1FF (m.mirHerd r) [m.mirHerd r] r x.sealing
  else
    let (m, n) := m.mirSeq r
    (m.setMirror r { x with sealSent := true }).mirPost r 0 (mirBytes 2 (m.mirPeerRegion r) x.sealing n x.setSize [])

/-- A SECTOR message at the receiver (R284): old content journaled before the first overwrite, unless the journal is full. -/
def mirSector (m : Mach) (r mseq k : Nat) (d : List Byte) : Mach :=
  let x := m.mirror r
  let fresh := (alGet x.journal k).isNone
  if m.bit F.PEAT_MIR_STATUS_JOURNAL_FULL 0 r then m
  else if fresh ∧ m.mirCapacity r ≤ x.journal.length then
    (m.set F.PEAT_MIR_STATUS_JOURNAL_FULL 1 0 r).raise 0x0802 0x1FF (m.mirHerd r) [m.mirHerd r, 0] r x.journal.length
  else
    let a := m.mirBase r + k * 4096
    let m := if fresh then m.setMirror r { x with journal := alPut x.journal k (m.rdBytes .peat a 4096) } else m
    let m := ((m.set64 F.PEAT_MIR_SEQ_LO mseq 0 r).peatWrite a d false).handOver 8 r mseq 0 0
    m

/-- A mirror message that is not of the form of R286: dropped, counted, and the region stops. -/
def mirBad (m : Mach) (r : Nat) : Mach := (m.inc F.BEQ_DROP).mirHalt r false

/-- MIRROR_MESSAGE_RECEIVED (R283 to R286): the oldest message that came over a mirror's queue pair; one behind a SEAL that waits, waits too. -/
def mirReceived (m : Mach) : Mach :=
  match m.mem.mirIn with
  | [] => m
  | (q, b) :: rest =>
    let drop : Mach := (m.putMem { m.mem with mirIn := rest })
    match m.qpMirror q with
    | none => drop
    | some r =>
      let x := m.mirror r
      if x.sealGot.isSome then m
      else
        let m := drop
        let w := leAt b 0 4
        let kind := getBits w 4 4
        let d := b.drop 32
        let epoch := leAt b 4 4
        let mseq := leAt b 8 8
        let k := leAt b 16 4
        let recv := m.mirState r == 3
        let m := if recv then m.setMirror r { x with lastMsg := m.now } else m
        let formed := getBits w 0 4 == 1 && getBits w 8 8 == r &&
          (if kind = 1 then b.length == 4128 && leAt b 20 4 == crcOf polyCastagnoli d else b.length == 32 && (kind == 2 || kind == 3))
        if formed = false then m.mirBad r
        else if recv ∧ kind = 1 ∧ mseq = m.get64 F.PEAT_MIR_SEQ_LO 0 r + 1 ∧ k < m.mirSectors r then m.mirSector r mseq k d
        else if recv ∧ kind = 1 ∧ m.bit F.PEAT_MIR_STATUS_JOURNAL_FULL 0 r then m
        else if recv ∧ kind = 2 ∧ (mseq = m.get64 F.PEAT_MIR_SEQ_LO 0 r + 1 ∨ m.bit F.PEAT_MIR_STATUS_JOURNAL_FULL 0 r) then
          if m.bit F.PEAT_MIR_STATUS_JOURNAL_FULL 0 r then m
          else (m.set64 F.PEAT_MIR_SEQ_LO mseq 0 r).setMirror r { m.mirror r with sealGot := some epoch }
        else if m.mirState r = 2 ∧ kind = 3 ∧ x.sealSent ∧ epoch = x.sealing then
          let m := (m.set F.PEAT_MIR_EPOCH epoch 0 r).set F.PEAT_MIR_STATUS_STATE 1 0 r
          (m.setMirror r { x with sealSent := false, sealedNo := some epoch }).raise 0x0800 0x1FF (m.mirHerd r) [m.mirHerd r] r epoch
        else m.mirBad r

/-- MIRROR_SEAL_APPLY (R284): every earlier write has landed. -/
def mirSealApply (m : Mach) (r : Nat) : Mach :=
  let x := m.mirror r
  match x.sealGot with
  | none => m
  | some e =>
    if m.mirState r ≠ 3 ∨ m.landed 8 r (2 ^ 64) = false then m
    else
      let m := (m.setMirror r { x with journal := [], sealGot := none, sealedNo := some e }).set F.PEAT_MIR_EPOCH e 0 r
      m.mirPost r 0 (mirBytes 3 (m.mirPeerRegion r) e (m.get64 F.PEAT_MIR_SEQ_LO 0 r) 0 [])

/-- MIRROR_ORPHAN_TIMEOUT (R285): one lease period with no message. -/
def mirOrphan (m : Mach) (r : Nat) : Mach :=
  if m.mirState r = 3 ∧ (m.mirror r).lastMsg + m.leaseAt (m.mirror r).lastMsg ≤ m.now then m.mirrorFail r else m

end Mach

/-- CREAM_GRANULE_ASSIGN. -/
def execCreamGranuleAssign (p : Path) (value : Word) (s : State) := commit s (fun m => m.crmCmd p (putBits value.toNat 28 4 1))

/-- CREAM_GRANULE_RELEASE. -/
def execCreamGranuleRelease (p : Path) (value : Word) (s : State) := commit s (fun m => m.crmCmd p (putBits value.toNat 28 4 2))

/-- CREAM_ECC. -/
def execCreamEcc (t word : Nat) (double : Bool) (s : State) := commit s (fun m => (m.advance t).creamError word double)

/-- CREAM_SCRUB. -/
def execCreamScrub (t bits : Nat) (s : State) := commit s (fun m => (m.advance t).engines (fun m => m.creamScrub bits))

/-- PEAT_GRANULE_ASSIGN. -/
def execPeatGranuleAssign (p : Path) (value : Word) (s : State) := commit s (fun m => m.peatCmd p (putBits value.toNat 28 4 1))

/-- PEAT_GRANULE_RELEASE. -/
def execPeatGranuleRelease (p : Path) (value : Word) (s : State) := commit s (fun m => m.peatCmd p (putBits value.toNat 28 4 2))

/-- PEAT_SYMBOL_ERROR. -/
def execPeatSymbolError (t line : Nat) (pkgs : List Nat) (s : State) := commit s (fun m => (m.advance t).peatError line pkgs)

/-- PEAT_SCRUB. -/
def execPeatScrub (t : Nat) (pkgs : List Nat) (s : State) := commit s (fun m => (m.advance t).engines (fun m => m.peatScrub pkgs))

/-- GRANULE_CLEAR_DONE. -/
def execGranuleClearDone (t : Nat) (cream : Bool) (g : Nat) (s : State) :=
  commit s (fun m => if cream then (m.advance t).crmCleared g else (m.advance t).peatCleared g)

/-- MIRROR_START. -/
def execMirrorStart (p : Path) (s : State) := commit s (fun m => m.mirCmd p Mach.mirStart)

/-- MIRROR_SEAL. -/
def execMirrorSeal (p : Path) (s : State) := commit s (fun m => m.mirCmd p Mach.mirSeal)

/-- MIRROR_STOP. -/
def execMirrorStop (p : Path) (s : State) := commit s (fun m => m.mirCmd p Mach.mirStop)

/-- MIRROR_ROLLBACK. -/
def execMirrorRollback (p : Path) (s : State) := commit s (fun m => m.mirCmd p Mach.mirRollback)

/-- MIRROR_SECTOR_SHIP. -/
def execMirrorSectorShip (t r : Nat) (s : State) := commit s (fun m => (m.advance t).engines (fun m => m.mirShip r))

/-- MIRROR_SEAL_SEND. -/
def execMirrorSealSend (t r : Nat) (s : State) := commit s (fun m => (m.advance t).engines (fun m => m.mirSealSend r))

/-- MIRROR_MESSAGE_RECEIVED. -/
def execMirrorMessageReceived (t : Nat) (s : State) := commit s (fun m => (m.advance t).engines (fun m => m.mirReceived))

/-- MIRROR_SEAL_APPLY. -/
def execMirrorSealApply (t r : Nat) (s : State) := commit s (fun m => (m.advance t).engines (fun m => m.mirSealApply r))

/-- MIRROR_ORPHAN_TIMEOUT. -/
def execMirrorOrphanTimeout (t r : Nat) (s : State) := commit s (fun m => (m.advance t).engines (fun m => m.mirOrphan r))

/-- MIRROR_ROLLBACK_DONE. -/
def execMirrorRollbackDone (t r : Nat) (s : State) := commit s (fun m => (m.advance t).engines (fun m => m.mirRollbackDone r))

end Sys2Proof.Machine
end

