-- ==== Sys2Proof/Machine/Plans.lean ====
section
/-! DEFINITION. The commands of sluice plans: banks, tides, slots and planned wake (03_sluice_plans.md, 02_polder_time.md R51, R52). -/
namespace Sys2Proof.Machine

/-- PLAN_LOAD: a write of SLU_PLAN_CMD with LOAD. -/
def execPlanLoad (p : Path) (bank : Nat) (s : State) : Host.Outcome State Fault Refusal := commit s (fun m => m.planCmd p (bank % 2 * 256 + 1))

/-- PLAN_CHECK_COMPLETE. -/
def execPlanCheckComplete (t bank : Nat) (s : State) : Host.Outcome State Fault Refusal :=
  commit s (fun m => (m.advance t).engines (fun m => m.planChecked (bank % 2)))

/-- PLAN_ARM. -/
def execPlanArm (p : Path) (bank : Nat) (s : State) : Host.Outcome State Fault Refusal := commit s (fun m => m.planCmd p (bank % 2 * 256 + 2))

/-- PLAN_CLEAR. -/
def execPlanClear (p : Path) (bank : Nat) (s : State) : Host.Outcome State Fault Refusal := commit s (fun m => m.planCmd p (bank % 2 * 256 + 4))

/-- PLAN_UNLOAD. -/
def execPlanUnload (p : Path) (bank : Nat) (s : State) : Host.Outcome State Fault Refusal := commit s (fun m => m.planCmd p (bank % 2 * 256 + 8))

/-- PLAN_ACTIVATE. -/
def execPlanActivate (t : Nat) (s : State) : Host.Outcome State Fault Refusal := commit s (fun m => (m.advance t).engines (fun m => m.planActivate))

/-- PLAN_RETIRE. -/
def execPlanRetire (t : Nat) (s : State) : Host.Outcome State Fault Refusal := commit s (fun m => (m.advance t).engines (fun m => m.planRetire))

/-- TIDE_BOUNDARY. -/
def execTideBoundary (t : Nat) (s : State) : Host.Outcome State Fault Refusal := commit s (fun m => (m.advance t).engines (fun m => m.tideBoundary))

/-- SLOT_OPEN. -/
def execSlotOpen (t port : Nat) (s : State) : Host.Outcome State Fault Refusal := commit s (fun m => (m.advance t).engines (fun m => m.slotOpen port))

/-- PLANNED_WAKE. -/
def execPlannedWake (t d : Nat) (s : State) : Host.Outcome State Fault Refusal := commit s (fun m => (m.advance t).engines (fun m => m.plannedWake d))

/-- PLANNED_DOMAIN_STOP. -/
def execPlannedDomainStop (t d : Nat) (s : State) : Host.Outcome State Fault Refusal := commit s (fun m => (m.advance t).engines (fun m => m.plannedStop d))

end Sys2Proof.Machine
end

