-- ==== Sys2Proof/Machine/Ports.lean ====
section
/-! DEFINITION. The commands of ports and of best-effort routing (12_ports_mac.md, 13_routing_deadlock.md): link states, Uanto, received frames, pauses,
FEC windows, forwarding, and the telemetry snapshot. -/
namespace Sys2Proof.Machine
namespace Mach

/-- A write of PORT_CTL (R313): its fields, then RESET and a change of ENABLE. -/
def portCtl (m : Mach) (p : Path) (port : Nat) (value : Nat) : Mach :=
  let addr := 0x00100000 + port % 32 * 0x4000
  m.stewardGate p addr fun m =>
    let port := port % 32
    let old := m.bit F.PORT_CTL_ENABLE port
    let m := m.putFields addr addr value old
    let m := m.set F.PORT_CTL_RESET 0 port
    let new := m.bit F.PORT_CTL_ENABLE port
    if old = false ∧ new = true then m.portTrain port
    else if old = true ∧ new = false then m.portDown port lkDisabled
    else if getBits value 1 1 = 1 ∧ m.lkState port = lkUp then m.portTrain port
    else m

/-- PORT_TRAINED: Uanto starts with an OFFER (R313, Uanto step 1). -/
def portTrained (m : Mach) (p : Nat) : Mach :=
  if m.lkState p ≠ lkTraining then m
  else
    let x := m.pt p
    let m := m.setPt p { x with since := m.now, restarts := 0, partner := none }
    ((m.set F.PORT_STATUS_STATE lkNegotiating p).uantoRestart p).sendOffer p

/-- PORT_TRAINING_TIMEOUT: 800 ms in TRAINING (R313). -/
def trainingTimeout (m : Mach) (p : Nat) : Mach :=
  if m.lkState p = lkTraining ∧ (m.pt p).since + 800 * ms ≤ m.now then (m.portFault p 0).retrainDone p else m

/-- PORT_FAULT_RETRY: 1 s in FAULT (R313). -/
def faultRetry (m : Mach) (p : Nat) : Mach :=
  if m.lkState p = lkFault ∧ (m.pt p).since + 1000 * ms ≤ m.now then m.portTrain p else m

/-- LINK_LOSS: an UP port returns to TRAINING, and the loss is a fault event of the port (R313, 16_faults.md R484). -/
def linkLoss (m : Mach) (p : Nat) : Mach :=
  if m.lkState p = lkUp then (m.portTrain p).fault (srcPort p) kCorrected { detail := p } else m

/-- UANTO_OFFER_TIMER: every 10 µs an OFFER, or a CONFIRM once SEEN has been sent and received (R329). -/
def offerTimer (m : Mach) (p : Nat) : Mach :=
  let x := m.pt p
  let due : Bool := match x.lastUanto with | some a => decide (a + 10 * us ≤ m.now) | none => true
  if m.lkState p ≠ lkNegotiating ∨ due = false then m
  else if x.seenSent ∧ x.seenGot ∧ x.agreed.isSome then m.sendConfirm p
  else m.sendOffer p

/-- Takes the first frame that a port has accepted and that a test picks. -/
def takeRx (m : Mach) (p : Nat) (pick : RxKind → Bool) : Option (RxKind × Mach) :=
  let x := m.pt p
  match x.inq.find? pick with
  | none => none
  | some k => some (k, m.setPt p { x with inq := x.inq.erase k })

/-- An OFFER from the partner (R329, R330, R35). While UP it is answered and changes nothing. -/
def offerTake (m : Mach) (p : Nat) (seen : Bool) (o : UantoSide) : Mach :=
  if m.lkState p = lkUp then
    let x := m.pt p
    let m := m.setPt p { x with offerGot := true }
    (m.sendOffer p).sendConfirm p
  else if m.lkState p ≠ lkNegotiating then m
  else
    let m := m.setPt p { m.pt p with partner := some o }
    let m := (m.set F.PORT_UANTO_PEER_MODULE o.module p).set F.PORT_UANTO_PEER_PORT_ROLE (o.port % 256 + o.role % 16 * 256) p
    let m := (List.range 4).foldl (fun m w => m.setReg (F.PORT_UANTO_PCAP.addr + p * 0x4000 + w * 4) (BitVec.ofNat 32 (nthD o.caps w 0))) m
    if o.gen = 0 ∨ 3 < o.gen ∨ m.roleMatch p o.role = false then (m.uantoFail p o.gen).retrainDone p
    else
      let x := m.pt p
      m.setPt p { x with offerGot := true, seenGot := x.seenGot || seen, agreed := some (m.negotiate o) }

/-- UANTO_OFFER_RECEIVED. -/
def offerReceived (m : Mach) (p : Nat) : Mach :=
  match m.takeRx p (fun k => match k with | .uanto c _ _ => !c | _ => false) with
  | some (.uanto _ seen o, m) => m.offerTake p seen o
  | _ => m

/-- A CONFIRM from the partner (R329): equal to the local one, the port enters UP; otherwise Uanto starts over. -/
def confirmTake (m : Mach) (p : Nat) (o : UantoSide) : Mach :=
  if m.lkState p ≠ lkNegotiating then m
  else
    let x := m.pt p
    match x.agreed with
    | some (g, n, c) =>
      if o.gen = g ∧ o.minor = n ∧ o.caps = c then
        let m := if x.confirmSent then m else m.sendConfirm p
        m.portEnterUp p (g, n, c)
      else m.uantoRestart p
    | none => m.uantoRestart p

/-- UANTO_CONFIRM_RECEIVED. -/
def confirmReceived (m : Mach) (p : Nat) : Mach :=
  match m.takeRx p (fun k => match k with | .uanto c _ _ => c | _ => false) with
  | some (.uanto _ _ o, m) => m.confirmTake p o
  | _ => m

/-- UANTO_RESTART_TIMEOUT: 20 ms since step 1 without UP; 200 ms after entry to NEGOTIATING the port faults (R329, step 5). -/
def uantoTimeout (m : Mach) (p : Nat) : Mach :=
  let x := m.pt p
  if m.lkState p ≠ lkNegotiating ∨ (m.mayBeSilent p = true ∧ x.partner.isNone) then m
  else if x.since + 200 * ms ≤ m.now then (m.uantoFail p ((x.partner.map (·.gen)).getD 0)).retrainDone p
  else if x.stepOne + 20 * ms ≤ m.now then
    let m := m.setPt p { x with restarts := x.restarts + 1 }
    m.uantoRestart p
  else m

/-- UANTO_SILENT_TIMEOUT: a port that may face equipment without Uanto enters UP with generation 0 and an empty set (R329). -/
def silentTimeout (m : Mach) (p : Nat) : Mach :=
  let x := m.pt p
  if m.lkState p = lkNegotiating ∧ m.mayBeSilent p = true ∧ x.partner.isNone ∧ x.since + 100 * ms ≤ m.now then
    m.portEnterUp p (0, 0, [0, 0, 0, 0])
  else m

/-- FEC_UNCORRECTABLE: a code word in the port's fixed window; above the limit the port leaves scheduled use (R314). -/
def fecUncorr (m : Mach) (p : Nat) : Mach :=
  let m := m.inc F.PORT_FEC_UNCORR 1 p
  if m.portUp p = false then m
  else
    let x := m.pt p
    let isOpen : Bool := match x.fecEnd with | some e => decide (m.now < e) | none => false
    let n := if isOpen then x.fecCount + 1 else 1
    let e := if isOpen then x.fecEnd else some (m.now + max 1 (m.get F.PORT_FEC_LIMIT_WINDOW_US p) * us)
    let m := m.setPt p { x with fecEnd := e, fecCount := n }
    if m.get F.PORT_FEC_LIMIT_COUNT p < n ∧ m.bit F.PORT_STATUS_SCHED_OUT p = false then
      ((m.set F.PORT_STATUS_SCHED_OUT 1 p).raise 0x0903 (srcPort p) 0 m.liveHerds p n).fault (srcPort p) kCorrected { detail := p }
    else m

/-- FEC_WINDOW_EXPIRE (R314). -/
def fecExpire (m : Mach) (p : Nat) : Mach :=
  let x := m.pt p
  match x.fecEnd with
  | some e => if e ≤ m.now then m.setPt p { x with fecEnd := none, fecCount := 0 } else m
  | none => m

/-- PORT_FRAME_RECEIVED (R317; 17_clocks_power_reset.md R420). -/
def frameReceived (m : Mach) (p : Nat) (f : RxFrame) : Mach := if m.groupStopped p then m.stoppedRx p f else m.portRx p f

/-- A priority is held for a number of quanta of 512 bit times, or resumed with 0 (R325); while the watchdog disregards pauses nothing is held (R326). -/
def pauseSet (m : Mach) (p quanta : Nat) (prio : Nat) : Mach :=
  let x := m.pt p
  let deaf : Bool := match alGet x.ignore prio with | some e => decide (m.now < e) | none => false
  let bits := m.get F.PORT_STATUS_PAUSED p
  if deaf then m
  else if quanta = 0 then
    ((m.setPt p { x with paused := alDel x.paused prio, heldSince := alDel x.heldSince prio }).set F.PORT_STATUS_PAUSED
      (putBits bits prio 1 0) p).pausedCount p
  else
    let e := m.now + (quanta * 512 * 16000 + rateMbps (m.get F.PORT_STATUS_RATE p) - 1) / rateMbps (m.get F.PORT_STATUS_RATE p)
    let since := (alGet x.heldSince prio).getD m.now
    (m.setPt p { x with paused := alPut x.paused prio e, heldSince := alPut x.heldSince prio since,
                        anySince := some (x.anySince.getD m.now) }).set F.PORT_STATUS_PAUSED (putBits bits prio 1 1) p

/-- PFC_RECEIVED: a PAUSE stops priorities 0 to 6, a PFC frame each of them whose enable bit is set (R325). MODE none disregards both. -/
def pfcReceived (m : Mach) (p : Nat) : Mach :=
  match m.takeRx p (fun k => match k with | .mac .. => true | _ => false) with
  | some (.mac op en q, m) =>
    let mode := m.refilled F.PORT_FC_MODE p
    if mode = 1 ∨ mode = 2 then
      (List.range 7).foldl (fun m k =>
        if op = 1 then m.pauseSet p (nthD q 0 0) k
        else if getBits en k 1 = 1 then m.pauseSet p (nthD q k 0) k
        else m) m
    else m
  | _ => m

/-- PAUSE_QUANTA_EXPIRE (R325). -/
def quantaExpire (m : Mach) (p prio : Nat) : Mach :=
  match alGet (m.pt p).paused prio with
  | some e => if e ≤ m.now then m.pauseSet p 0 prio else m
  | none => m

/-- XOFF_REPEAT: every 20 µs while the occupancy stays above XON_KIB (R325). -/
def xoffRepeat (m : Mach) (p prio : Nat) : Mach :=
  let m := m.xoffSync p prio
  let x := m.pt p
  match alGet x.xoff prio with
  | some (a, l) =>
    if l + 20 * us ≤ m.now then (m.setPt p { x with xoff := alPut x.xoff prio (a, m.now) }).emitOut (.pause p prio 0xFFFF) else m
  | none => m

/-- The watchdog period (R326: 0 acts as 1). -/
def watchdog (m : Mach) (p : Nat) : Nat := max 1 (m.get F.PORT_PAUSE_WD_MS p) * ms

/-- An event of the watchdog is counted and raised (R326). -/
def pauseStorm (m : Mach) (p prio : Nat) : Mach := (m.inc F.PORT_PAUSE_WD_COUNT 1 p).raise 0x0905 (srcPort p) 0 [0] p prio

/-- PAUSE_WATCHDOG (R326): a priority held, or the port's own XOFF asserted, for PAUSE_WD.MS without break. -/
def pauseWatchdog (m : Mach) (p prio : Nat) : Mach :=
  let x := m.pt p
  let held : Bool := m.heldBy p prio && (match alGet x.heldSince prio with | some a => decide (a + m.watchdog p ≤ m.now) | none => false)
  let m := if held then
      let m := m.pauseSet p 0 prio
      (m.setPt p { m.pt p with ignore := alPut (m.pt p).ignore prio (m.now + m.watchdog p) }).pauseStorm p prio
    else m
  let x := m.pt p
  match alGet x.xoff prio with
  | some (a, _) =>
    if a + m.watchdog p ≤ m.now then
      (m.setPt p { x with xoff := alDel x.xoff prio, mute := alPut x.mute prio (m.now + m.watchdog p) }).pauseStorm p prio
    else m
  | none => m

/-- PAUSE_WATCHDOG_END (R326). -/
def watchdogEnd (m : Mach) (p prio : Nat) : Mach :=
  let x := m.pt p
  let beyond := fun (l : List (Nat × Nat)) => match alGet l prio with | some e => if e ≤ m.now then alDel l prio else l | none => l
  (m.setPt p { x with ignore := beyond x.ignore, mute := beyond x.mute }).xoffSync p prio

/-- BASE_TABLE_RELEASE (13_routing_deadlock.md R339, R340). -/
def baseRelease (m : Mach) : Mach :=
  match m.plan.baseHoldEnd with
  | some e =>
    if reached m.polder e then
      let m : Mach := (m.putPlan { m.plan with baseHoldEnd := none })
      (m.set F.RTE_STATUS_BASE_HELD 0).releaseTable 0
    else m
  | none => m

/-- TELEMETRY_SNAPSHOT (R351): every per-port RTE telemetry register is copied to TEL, and the counters start over. -/
def telSnapshot (m : Mach) : Mach :=
  if m.bit F.TEL_CTL_ARM = false ∨ reached m.polder (BitVec.ofNat 64 (m.get64 F.TEL_SNAP_AT_LO)) = false then m
  else
    let src := m.regs.filter (fun p => decide (0x00201000 ≤ p.1) && decide (p.1 < 0x00201800))
    let old := m.regs.filter (fun p => !(decide (0x03C01000 ≤ p.1) && decide (p.1 < 0x03C01800)))
    let m := (m.putRegs old)
    let m := src.foldl (fun m p => m.setReg (p.1 - 0x00201000 + 0x03C01000) p.2) m
    let m := src.foldl (fun m p =>
      let o := p.1 % 0x40
      if 4 ≤ o ∧ o < 0x28 then m.setReg p.1 0 else m) m
    ((m.set64 F.TEL_SNAP_TIME_LO m.polder.toNat).set F.TEL_CTL_ARM 0).set F.TEL_CTL_DONE 1

end Mach

/-- PORT_ENABLE. -/
def execPortEnable (p : Path) (port : Nat) (value : Word) (s : State) := commit s (fun m => m.portCtl p port (value.toNat / 2 * 2 + 1))

/-- PORT_DISABLE. -/
def execPortDisable (p : Path) (port : Nat) (value : Word) (s : State) := commit s (fun m => m.portCtl p port (value.toNat / 2 * 2))

/-- PORT_RESET: ENABLE is written as the value has it. -/
def execPortReset (p : Path) (port : Nat) (value : Word) (s : State) := commit s (fun m => m.portCtl p port (putBits value.toNat 1 1 1))

/-- PORT_TRAINED. -/
def execPortTrained (t p : Nat) (s : State) := commit s (fun m => (m.advance t).portTrained p)

/-- PORT_TRAINING_TIMEOUT. -/
def execPortTrainingTimeout (t p : Nat) (s : State) := commit s (fun m => (m.advance t).trainingTimeout p)

/-- PORT_FAULT_RETRY. -/
def execPortFaultRetry (t p : Nat) (s : State) := commit s (fun m => (m.advance t).faultRetry p)

/-- LINK_LOSS. -/
def execLinkLoss (t p : Nat) (s : State) := commit s (fun m => (m.advance t).linkLoss p)

/-- UANTO_OFFER_TIMER. -/
def execUantoOfferTimer (t p : Nat) (s : State) := commit s (fun m => (m.advance t).offerTimer p)

/-- UANTO_OFFER_RECEIVED. -/
def execUantoOfferReceived (t p : Nat) (s : State) := commit s (fun m => (m.advance t).offerReceived p)

/-- UANTO_CONFIRM_RECEIVED. -/
def execUantoConfirmReceived (t p : Nat) (s : State) := commit s (fun m => (m.advance t).confirmReceived p)

/-- UANTO_RESTART_TIMEOUT. -/
def execUantoRestartTimeout (t p : Nat) (s : State) := commit s (fun m => (m.advance t).uantoTimeout p)

/-- UANTO_SILENT_TIMEOUT. -/
def execUantoSilentTimeout (t p : Nat) (s : State) := commit s (fun m => (m.advance t).silentTimeout p)

/-- FEC_UNCORRECTABLE. -/
def execFecUncorrectable (t p : Nat) (s : State) := commit s (fun m => (m.advance t).fecUncorr p)

/-- FEC_WINDOW_EXPIRE. -/
def execFecWindowExpire (t p : Nat) (s : State) := commit s (fun m => (m.advance t).fecExpire p)

/-- PORT_FRAME_RECEIVED. -/
def execPortFrameReceived (t p : Nat) (f : RxFrame) (s : State) := commit s (fun m => (m.advance t).frameReceived p f)

/-- PFC_RECEIVED. -/
def execPfcReceived (t p : Nat) (s : State) := commit s (fun m => (m.advance t).pfcReceived p)

/-- PAUSE_QUANTA_EXPIRE. -/
def execPauseQuantaExpire (t p prio : Nat) (s : State) := commit s (fun m => (m.advance t).quantaExpire p prio)

/-- XOFF_REPEAT. -/
def execXoffRepeat (t p prio : Nat) (s : State) := commit s (fun m => (m.advance t).xoffRepeat p prio)

/-- PAUSE_WATCHDOG. -/
def execPauseWatchdog (t p prio : Nat) (s : State) := commit s (fun m => (m.advance t).pauseWatchdog p prio)

/-- PAUSE_WATCHDOG_END. -/
def execPauseWatchdogEnd (t p prio : Nat) (s : State) := commit s (fun m => (m.advance t).watchdogEnd p prio)

/-- BE_FRAME_FORWARD. -/
def execBeFrameForward (t p : Nat) (s : State) := commit s (fun m => (m.advance t).engines (fun m => m.beForward p))

/-- BASE_TABLE_RELEASE. -/
def execBaseTableRelease (t : Nat) (s : State) := commit s (fun m => (m.advance t).baseRelease)

/-- TELEMETRY_SNAPSHOT. -/
def execTelemetrySnapshot (t : Nat) (s : State) := commit s (fun m => (m.advance t).telSnapshot)

end Sys2Proof.Machine
end

