-- ==== Sys2Proof/Machine/Qps.lean ====
section
/-! DEFINITION. The commands of best-effort transport (11_best_effort_transport.md), MEMORY_WRITE_ACK (04_lodes_ordering.md R112) and the tiles that queue pairs
move (06_translation_windows.md R161). -/
namespace Sys2Proof.Machine

/-- QP_SEND. -/
def execQpSend (t k : Nat) (s : State) :=
  commit s (fun m => (m.advance t).dispatch k (fun d => d.opcode == 0x10) (fun m d => m.qpForeign k d) (fun m d u => m.qpSubmit k d u .send))

/-- QP_WRITE. -/
def execQpWrite (t k : Nat) (s : State) :=
  commit s (fun m => (m.advance t).dispatch k (fun d => d.opcode == 0x11) (fun m d => m.qpForeign k d) (fun m d u => m.qpSubmit k d u .write))

/-- QP_READ. -/
def execQpRead (t k : Nat) (s : State) :=
  commit s (fun m => (m.advance t).dispatch k (fun d => d.opcode == 0x12) (fun m d => m.qpForeign k d) (fun m d u => m.qpSubmit k d u .read))

/-- QP_ATOMIC. -/
def execQpAtomic (t k : Nat) (s : State) :=
  commit s (fun m => (m.advance t).dispatch k (fun d => d.opcode == 0x13) (fun m d => m.qpForeign k d) (fun m d u => m.qpSubmit k d u .atomic))

/-- QP_RECV. -/
def execQpRecv (t k : Nat) (s : State) :=
  commit s (fun m => (m.advance t).dispatch k (fun d => d.opcode == 0x14) (fun m d => m.qpForeign k d) (fun m d u => m.qpRecv k d u))

/-- QP_CREATE. -/
def execQpCreate (v : Via) (s : State) := commit s (fun m => m.qpCreate v)

/-- QP_DESTROY. -/
def execQpDestroy (v : Via) (s : State) := commit s (fun m => m.qpDestroy v)

/-- QP_RESET. -/
def execQpReset (v : Via) (s : State) := commit s (fun m => m.qpReset v)

/-- QP_ACK_TIMER. -/
def execQpAckTimer (t q : Nat) (s : State) := commit s (fun m => (m.advance t).engines (fun m => m.ackTimer q))

/-- QP_RTO_EXPIRE. -/
def execQpRtoExpire (t q : Nat) (s : State) := commit s (fun m => (m.advance t).engines (fun m => m.rtoExpire q))

/-- QP_RNR_RETRY. -/
def execQpRnrRetry (t q : Nat) (s : State) := commit s (fun m => (m.advance t).engines (fun m => m.rnrRetry q))

/-- QP_LEASE_TIMEOUT. -/
def execQpLeaseTimeout (t q : Nat) (s : State) := commit s (fun m => (m.advance t).engines (fun m => m.qpLease q))

/-- CC_RATE_UPDATE. -/
def execCcRateUpdate (t q : Nat) (s : State) := commit s (fun m => (m.advance t).engines (fun m => m.ccUpdate q))

/-- BE_FRAME_SEND. -/
def execBeFrameSend (t p : Nat) (s : State) := commit s (fun m => (m.advance t).engines (fun m => m.beSend p))

/-- RATE_REFILL. -/
def execRateRefill (t : Nat) (s : State) := commit s (fun m => (m.advance t).rateRefill)

/-- QP_SAMPLE. -/
def execQpSample (t q : Nat) (s : State) := commit s (fun m => (m.advance t).engines (fun m => m.qpSample q))

/-- VIOLATION_REPORT_RECEIVED. -/
def execViolationReportReceived (t : Nat) (s : State) := commit s (fun m => (m.advance t).engines (fun m => m.reportReceived))

/-- MEMORY_WRITE_ACK. -/
def execMemoryWriteAck (t id : Nat) (s : State) := commit s (fun m => (m.advance t).memAck id)

end Sys2Proof.Machine
end

