-- ==== Sys2Proof/Machine/Queues.lean ====
section
/-! DEFINITION. The commands of the queue engine (05_queues_descriptors.md): doorbells, fetching, completions, events, shutting down and
binding, WAIT_COUNT and NOP (04_lodes_ordering.md R120 to R122). -/
namespace Sys2Proof.Machine
namespace Mach

/-- A write that reaches a herd page by a path and names something the page's herd does not own is dropped and captured (14_herds.md
R358), with HERD_STATUS.FOREIGN. -/
def foreignDrop (m : Mach) (p : Path) (h addr : Nat) : Mach :=
  (m.setReg (herdPage h + 0x9004) 1).regFault p addr true

/-- A doorbell write on a herd page (R133, R134): dropped unless it comes by the management port or the herd's own window, the herd is not
being destroyed (14_herds.md R356), and the queue or ring is owned by the herd. -/
def doorbell (m : Mach) (p : Path) (h addr : Nat) (owned : Bool) (f : Mach → Mach) : Mach :=
  let own := match p with
    | .mgmt => true
    | .fabric g => g == h && !m.failStop
  if m.served p addr = false then m
  else if own = false ∨ m.herdState h = 4 then m.regFault p addr true
  else if owned = false then (m.set F.QE_STATUS_DB_FOREIGN 1).regFault p addr true
  else f m

/-- SQ that an access to QE_SQ_CFG or to HERD_Q_CTL selects. -/
def selSq (m : Mach) (v : Via) : Nat :=
  match v.page with
  | none => m.getP v.path F.QE_SQ_SEL_INDEX % 4096
  | some h => (m.reg (pathOff v.path + (herdPage h + 0x8010))).toNat % 4096

/-- Address of the register through which a queue is enabled. -/
def sqCtlAddr (v : Via) : Nat :=
  match v.page with
  | none => 0x0040010C
  | some h => herdPage h + 0x8014

/-- Runs a write of QE_SQ_CFG or HERD_Q_CTL on its queue, if the access may reach it (R134, R358). -/
def sqCtl (m : Mach) (v : Via) (f : Mach → Nat → Mach) : Mach :=
  m.gate v 0x0040010C (fun m =>
    let k := m.selSq v
    match v.page with
    | none => f m k
    | some h => if m.sqHerd k = h then f m k else m.foreignDrop v.path h (sqCtlAddr v))

/-- The other fields of QE_SQ_CFG, written by the block's register only; HERD_Q_CTL holds ENABLE alone (R153). -/
def sqCfgFields (m : Mach) (v : Via) (k value : Nat) (enabled : Bool) : Mach :=
  match v.page with
  | none =>
    let old := m.sqHerd k
    let e := m.get F.QE_SQ_CFG_ENABLE 0 k
    let m := (m.putFields (regKey 0x0040010C k) 0x0040010C value enabled).set F.QE_SQ_CFG_ENABLE e 0 k
    let new := m.sqHerd k
    -- SQs assigned to a herd count against its share (14_herds.md R352)
    if old = new then m else (m.giveBack old resSqs 1).take new resSqs 1
  | some _ => m

/-- SQ_ENABLE (R147, R150): the bind is dropped where the CQ serves receive bindings or belongs to another herd. -/
def sqEnable (m : Mach) (v : Via) (value : Nat) : Mach :=
  m.sqCtl v (fun m k =>
    if m.bit F.QE_SQ_CFG_ENABLE 0 k then m.sqCfgFields v k value true
    else
      let m := m.sqCfgFields v k value false
      let c := m.get F.QE_SQ_CQ_CQ 0 k
      if (m.bindingsOn c).isEmpty = false ∨ m.cqHerd c ≠ m.sqHerd k then m.set F.QE_STATUS_BIND_REFUSED 1
      else ((m.set F.QE_SQ_CFG_ENABLE 1 0 k).sqIdle k).startRead k false)

/-- SQ_DISABLE (R150): no more dispatch, undispatched descriptors dropped, HEAD back to the first of them. Fields written beside ENABLE are
judged by ENABLE as it stood (R151). -/
def sqDisableCmd (m : Mach) (v : Via) (value : Nat) : Mach :=
  m.sqCtl v (fun m k => (m.sqCfgFields v k value (m.bit F.QE_SQ_CFG_ENABLE 0 k)).sqDisable k)

/-- CQ_DISABLE (R151): takes effect unless an SQ bound to the CQ is enabled or not idle or an enabled binding uses it; else the clear is
dropped with FROZEN_WRITE. -/
def cqDisable (m : Mach) (p : Path) (value : Nat) : Mach :=
  m.stewardGate p 0x0040020C (fun m =>
    let c := m.getP p F.QE_CQ_SEL_INDEX % 4096
    let on := m.bit F.QE_CQ_CFG_ENABLE 0 c
    let busy := !(m.sqsServed c).isEmpty || !(m.bindingsOn c).isEmpty
    let m := m.putFields (regKey 0x0040020C c) 0x0040020C (value % 2 ^ 31 + if on && busy then 2 ^ 31 else 0) on
    if on && busy then m.frozenDrop 0x0040020C else m)

/-- RX_BIND_ENABLE (R147): binds the selected incoming endpoint to a CQ. -/
def rxBindEnable (m : Mach) (p : Path) (value : Nat) : Mach :=
  m.stewardGate p 0x00400404 (fun m =>
    let e := m.getP p F.QE_RX_SEL_INDEX % 16384
    if m.bit F.QE_RX_BIND_ENABLE 0 e then m.putFields (regKey 0x00400404 e) 0x00400404 (value % 2 ^ 31 + 2 ^ 31) true
    else
      let m := m.putFields (regKey 0x00400404 e) 0x00400404 (value % 2 ^ 31) false
      let c := m.get F.QE_RX_BIND_CQ 0 e
      let fits := ((m.plan?.bind (fun pl => pl.inc e)).map (fun l => l.herd == m.cqHerd c)).getD false
      if (m.sqsServed c).isEmpty = false ∨ fits = false then m.set F.QE_STATUS_BIND_REFUSED 1
      else m.set F.QE_RX_BIND_ENABLE 1 0 e)

/-- RING_BASE_WRITE (R8, R150): a write of a ring's BASE_HI takes LO from the path's shadow, or as it stands; indices become 0 and the expected
phase 1. Frozen while the ring is enabled (R12). Kind 0 SQ, 1 CQ, 2 EQ. -/
def ringBaseWrite (m : Mach) (v : Via) (kind value : Nat) : Mach :=
  let base := if kind = 0 then F.QE_SQ_BASE_LO else if kind = 1 then F.QE_CQ_BASE_LO else F.QE_EQ_BASE_LO
  let cfg := if kind = 0 then F.QE_SQ_CFG_ENABLE else if kind = 1 then F.QE_CQ_CFG_ENABLE else F.QE_EQ_CFG_ENABLE
  let ptr := if kind = 0 then F.QE_SQ_PTR_OWN else if kind = 1 then F.QE_CQ_PTR_OWN else F.QE_EQ_PTR_OWN
  let other := if kind = 0 then F.QE_SQ_PTR_OTHER else if kind = 1 then F.QE_CQ_PTR_OTHER else F.QE_EQ_PTR_OTHER
  let phase := if kind = 0 then F.QE_SQ_STATUS_PHASE else if kind = 1 then F.QE_CQ_STATUS_PHASE else F.QE_EQ_STATUS_PHASE
  m.gate v (base.addr + 4) (fun m =>
    let n := match v.page with
      | some h => h
      | none => if kind = 0 then m.getP v.path F.QE_SQ_SEL_INDEX % 4096
        else if kind = 1 then m.getP v.path F.QE_CQ_SEL_INDEX % 4096 else m.getP v.path F.QE_EQ_SEL_INDEX % 256
    let sk := viaKey v base
    let lo := (alGet m.shadow sk).getD (m.reg (regKey base.addr n))
    let m := (m.putShadow (alDel m.shadow sk))
    let new := lo.toNat / 4096 * 4096 + value * 2 ^ 32
    if m.bit cfg 0 n then (if m.get64 base 0 n = new then m else m.frozenDrop (base.addr + 4))
    else
      let m := (((m.set64 base new 0 n).set ptr 0 0 n).set other 0 0 n).set phase 1 0 n
      if kind = 0 then m.setSq n { m.sq n with fetched := [], reading := none, refetchAt := none, claims := [], paused := false }
      else if kind = 1 then m.cqFull n
      else m.eqFull n)

/-- A WAIT_COUNT that does not complete with DONE clears the enable of its own queue; else fetching goes on (R121). -/
def waitEnd (m : Mach) (k uid status : Nat) : Mach :=
  let m := (m.setSq k { m.sq k with wait := none }).set F.QE_SQ_STATUS_WAITING 0 0 k
  let m := m.complete k uid status 0 0
  if status = stDone then m.startRead k false else m.sqDisable k

/-- WAIT_COUNT_SATISFIED (R120, R121): the comparison is signed on 32 bits. -/
def waitSatisfied (m : Mach) (k : Nat) : Mach :=
  match (m.sq k).wait with
  | none => m
  | some w =>
    let diff := (BitVec.ofNat 32 (m.get F.QE_SQ_COUNT 0 w.queue) - BitVec.ofNat 32 w.target).toInt
    if diff < 0 then m
    else m.waitEnd k w.uid (if m.get F.QE_SQ_FAIL 0 w.queue = w.failBase then stDone else m.get F.QE_SQ_STATUS_LAST_FAIL 0 w.queue)

/-- WAIT_COUNT_TIMEOUT (R121). -/
def waitTimeout (m : Mach) (k : Nat) : Mach :=
  match (m.sq k).wait with
  | none => m
  | some w => if w.expires ≤ m.now then m.waitEnd k w.uid stRemoteTimeout else m

/-- WAIT_COUNT (R120, R122): holds its queue; TIMEOUT 0 means the lease period. -/
def waitCount (m : Mach) (k : Nat) : Mach :=
  m.dispatch k (fun d => d.opcode == 0x30) (fun m d => m.sqHerd (d.target % 4096) != m.sqHerd k || d.target == k)
    (fun m d u =>
      let t := d.bits 3 0 32
      (m.setSq k { m.sq k with
        wait := some { uid := u, queue := d.target, target := d.bits 2 0 32, failBase := d.bits 2 32 32
                       expires := m.now + if t = 0 then m.lease else t * us } }).set F.QE_SQ_STATUS_WAITING 1 0 k)

/-- NOP completes DONE when dispatched (R138). -/
def nop (m : Mach) (k : Nat) : Mach :=
  m.dispatch k (fun d => d.opcode == 0x3F) (fun _ _ => false) (fun m _ u => m.complete k u stDone 0 0)

/-- SQ_REFETCH_TIMER (R135). -/
def refetchTimer (m : Mach) (k : Nat) : Mach :=
  match (m.sq k).refetchAt with
  | some r => if r ≤ m.now then m.startRead k true else m
  | none => m

/-- CQ_DOORBELL (R146). -/
def cqDoorbell (m : Mach) (c value : Nat) : Mach := (m.set F.QE_CQ_PTR_OTHER (value % m.cqSize c) 0 c).cqFull c

/-- EQ_DOORBELL (R149): consumed entries are free; EVENTS_LOST is written once two are. -/
def eqDoorbell (m : Mach) (h value : Nat) : Mach :=
  ((m.set F.QE_EQ_PTR_OTHER (value % m.eqSize h) 0 h).eqFull h).eqLostEntry h

end Mach

/-- SQ_DOORBELL. In RESETTING it is dropped without a fault (14_herds.md R364). -/
def execSqDoorbell (p : Path) (h q : Nat) (value : Word) (s : State) :=
  commit s (fun m => m.doorbell p h (herdPage h + 4 * q) (m.sqHerd q == h)
    (fun m => if m.herdState h = 3 then m else m.sqDoorbell q (value.toNat % 65536)))

/-- CQ_DOORBELL. -/
def execCqDoorbell (p : Path) (h c : Nat) (value : Word) (s : State) :=
  commit s (fun m => m.doorbell p h (herdPage h + 0x4000 + 4 * c) (m.cqHerd c == h) (fun m => m.cqDoorbell c (value.toNat % 65536)))

/-- EQ_DOORBELL. -/
def execEqDoorbell (p : Path) (h : Nat) (value : Word) (s : State) :=
  commit s (fun m => m.doorbell p h (herdPage h + 0x8000) true (fun m => m.eqDoorbell h (value.toNat % 65536)))

/-- SQ_READ_COMPLETE; `ext` is what the part of the ring in accelerator memory holds. -/
def execSqReadComplete (t k : Nat) (ext : List Byte) (s : State) :=
  commit s (fun m => (m.advance t).engines (fun m => m.sqReadComplete k ext))

/-- SQ_REFETCH_TIMER. -/
def execSqRefetchTimer (t k : Nat) (s : State) := commit s (fun m => (m.advance t).engines (fun m => m.refetchTimer k))

/-- STALE_PHASE_TIMEOUT. -/
def execStalePhaseTimeout (t k : Nat) (s : State) := commit s (fun m => (m.advance t).engines (fun m => m.stalePhase k))

/-- COMPLETION_WRITE. -/
def execCompletionWrite (t k : Nat) (s : State) := commit s (fun m => (m.advance t).engines (fun m => m.completionWrite k))

/-- COMPLETION_HEADER_WRITE. -/
def execCompletionHeaderWrite (t c : Nat) (s : State) := commit s (fun m => (m.advance t).engines (fun m => m.completionHeader c))

/-- WAIT_COUNT_SATISFIED. -/
def execWaitCountSatisfied (t k : Nat) (s : State) := commit s (fun m => (m.advance t).engines (fun m => m.waitSatisfied k))

/-- WAIT_COUNT_TIMEOUT. -/
def execWaitCountTimeout (t k : Nat) (s : State) := commit s (fun m => (m.advance t).engines (fun m => m.waitTimeout k))

/-- WAIT_COUNT. -/
def execWaitCount (t k : Nat) (s : State) := commit s (fun m => (m.advance t).waitCount k)

/-- NOP. -/
def execNop (t k : Nat) (s : State) := commit s (fun m => (m.advance t).nop k)

/-- EVENT_RING_WRITE. -/
def execEventRingWrite (t : Nat) (s : State) := commit s (fun m => (m.advance t).engines (fun m => m.eventWrite))

/-- SQ_ENABLE. -/
def execSqEnable (v : Via) (value : Word) (s : State) := commit s (fun m => m.sqEnable v value.toNat)

/-- SQ_DISABLE. -/
def execSqDisable (v : Via) (value : Word) (s : State) := commit s (fun m => m.sqDisableCmd v value.toNat)

/-- CQ_DISABLE. -/
def execCqDisable (p : Path) (value : Word) (s : State) := commit s (fun m => m.cqDisable p value.toNat)

/-- RX_BIND_ENABLE. -/
def execRxBindEnable (p : Path) (value : Word) (s : State) := commit s (fun m => m.rxBindEnable p value.toNat)

/-- RING_BASE_WRITE. -/
def execRingBaseWrite (v : Via) (kind : Nat) (value : Word) (s : State) := commit s (fun m => m.ringBaseWrite v kind value.toNat)

end Sys2Proof.Machine
end

