-- ==== Sys2Proof/Machine/Time.lean ====
section
/-! DEFINITION. The commands of polder time (02_polder_time.md): time frames, delay exchanges, loss of a parent, the stopping
point, PPS, SET and CAPTURE. A command whose condition does not hold lets its time pass and nothing else
(notes/assumptions/5.md). -/
namespace Sys2Proof.Machine

namespace Mach

/-- Ports on which time frames go to children before a plan is loaded: the FABRIC ports that are UP and lead to no parent. -/
def childPorts (m : Mach) : List Nat :=
  (List.range 32).filter (fun p => m.get F.PORT_STATUS_STATE p == 3 && m.get F.PORT_ROLE_ROLE p == 1 &&
    m.parentPort 0 != some p && m.parentPort 1 != some p)

/-- TIME_FRAME_TIMER (R45): with no plan ACTIVE, a time frame to each child every 1,392,640 ns; a FREE module sends none. -/
def timeFrameTimer (m : Mach) : Mach :=
  if m.active.isSome ∨ m.tState = tFree ∨ m.now < m.tm.nextFrame then m
  else
    let m := m.childPorts.foldl (fun m p => m.sendTime p false) m
    (m.putTm { m.tm with nextFrame := m.now + frameInterval })

/-- Offset of the previous frame of a link in eighths of a unit, positive when the local clock is ahead, if this frame follows
it (R46): the frame reports when the previous one left. -/
def frameOffset (m : Mach) (port : Nat) (f : TimeFrame) : Option Int :=
  let x := m.ltime port
  if x.rxSeq = some ((f.seq + 65535) % 65536) then
    some ((BitVec.ofNat 64 (x.rxLast / 8) - f.txPrev).toInt * 8 + (x.rxLast % 8 : Nat) - (f.txPrevFrac : Nat) -
      (m.get F.SLU_LINK_DELAY_DELAY port : Nat) - x.asym / 2)
  else none

/-- A frame flagged TWO_WAY (R47): the reply to the running exchange, which completes a sample with the previous reply's
transmit time, or a request, which is answered. -/
def twoWayFrame (m : Mach) (port : Nat) (f : TimeFrame) (rx8 : Nat) : Mach :=
  let x := m.ltime port
  if x.measuring ∧ x.began.isSome ∧ f.rxSeq = x.txSeq then
    -- (t2 - t1) of this exchange; (t4 - t3) of the previous one is known now
    let out : Int := (f.rxLast - BitVec.ofNat 64 (x.txLast / 8)).toInt * 8 + (f.rxLastFrac : Nat) - (x.txLast % 8 : Nat)
    let back : Int := (BitVec.ofNat 64 (x.prevRx / 8) - f.txPrev).toInt * 8 + (x.prevRx % 8 : Nat) - (f.txPrevFrac : Nat)
    let (done, sum) := match x.prevSample with
      | some o => (x.done + 1, x.sum + o + back)
      | none => (x.done, x.sum)
    let m := m.setLtime port { x with done := done, sum := sum, prevSample := some out, prevRx := rx8, began := none }
    if 64 ≤ done then m.endMeasure port else m.beginExchange port
  else m.sendTime port true

/-- Steps polder time so that the measured offset becomes zero (R41, R57). -/
def stepTime (m : Mach) (off8 : Int) : Mach := (m.putPolder (m.polder - BitVec.ofInt 64 (off8 / 8)))

/-- The servo corrects the rate by an amount that the spec leaves to the servo, within ±100 ppm (R41, R46;
notes/assumptions/6.md). -/
def servo (m : Mach) : Mach :=
  let (v, m) := m.fresh
  (m.putRate (((v.toNat % 200001 : Nat) : Int) - 100000))

/-- ±125 ps in eighths of a unit. -/
def goodOffset (o : Int) : Bool := decide (o.natAbs ≤ 16)

/-- A time frame from parent `i`, valid as a time input, whose predecessor's offset is `o` where known (R43, R56 to R61). -/
def parentFrame (m : Mach) (i : Nat) (f : TimeFrame) (o : Option Int) : Mach :=
  let x := m.parent i
  let good := match o with
    | some v => if goodOffset v && f.errPs != 0xFFFF then x.good + 1 else 0
    | none => 0
  let m := m.setParent i
    { x with valid := true, lastLocal := m.now, lastPolder := m.polder, good := good, errPs := f.errPs, depth := f.depth,
             holdover := f.holdover, rootId := f.rootId }
  let m := match o with
    | some _ => if i = m.followed then m.servo else m
    | none => m
  let st := m.tState
  if st = tFree then
    match o with
    | some v => (m.stepTime v).enterAcquire i
    | none => m
  else if st = tStopped then m.enterAcquire i
  else if f.stepped ∧ i = m.followed ∧ (st = tAcquire ∨ st = tLocked ∨ st = tHoldover) ∧ m.planBound = false then
    match o with
    | some v =>
      let m := (m.stepTime v).enterAcquire i
      (m.putTm { m.tm with stepped := 16 })
    | none => m
  else if i ≠ m.followed then m
  else if st = tHoldover ∧ m.tm.atSwitch.isSome then
    match o with
    | none => (m.putTm { m.tm with atSwitch := some 1 })
    | some v =>
      let m := (m.putTm { m.tm with atSwitch := none })
      if goodOffset v then m.enterLocked else m.enterAcquire i
  else if st = tAcquire then
    let m := m.set F.SLU_TIME_STATUS_DEPTH (f.depth + 1)
    if 16 ≤ good then
      let m := m.enterLocked
      m.raise 0x0200 srcTime 0 [0] ((m.parentPort i).getD 0) m.errShown
    else m
  else if st = tHoldover then
    if 16 ≤ good then
      let changed := decide (m.tm.lockedParent ≠ i)
      let m := m.enterLocked
      if changed then m.raise 0x0202 srcTime 0 [0] ((m.parentPort i).getD 0) m.errShown else m
    else m
  else if st = tLocked then
    if f.holdover ∧ (m.parentPort (1 - i)).isSome ∧ (m.parent (1 - i)).valid ∧ (m.parent (1 - i)).holdover = false then
      m.enterHoldover
    else
      let m := (m.set F.SLU_TIME_STATUS_DEPTH (f.depth + 1)).setErr (min 0xFFFF (f.errPs + 25) * errDen) none
      (m.putTm { m.tm with rootId := f.rootId })
  else m

/-- TIME_FRAME_RECEIVED (R46): stamps, delay exchange, STOPPED of a neighbour (R60, R61), and the frame as a time input. -/
def timeFrameReceived (m : Mach) (port frac : Nat) (f : TimeFrame) : Mach :=
  let rx8 := m.polder.toNat * 8 + frac % 8
  let o := m.frameOffset port f
  let m := m.setLtime port { m.ltime port with rxSeq := some f.seq, rxLast := rx8 }
  if f.twoWay then m.twoWayFrame port f rx8
  else
    -- under defaults every FABRIC port may serve as parent (18_config_firmware.md R436)
    let m := if m.tree.isSome then m
      else if m.tm.parent0.port = none then m.setParent 0 { m.parent 0 with port := some port }
      else if m.tm.parent0.port ≠ some port ∧ m.tm.parent1.port = none then m.setParent 1 { m.parent 1 with port := some port }
      else m
    let i? : Option Nat := if m.parentPort 0 = some port then some 0 else if m.parentPort 1 = some port then some 1 else none
    let usable := m.bit F.SLU_LINK_DELAY_VALID port
    if f.stopped then
      let m := m.schedOut port 60
      match i? with
      | some i => m.parentLost i
      | none => m
    else
      -- the link returns to scheduled use at the next tide boundary (R61): reason 61 marks that it may
      let m := if m.plan.outPorts.contains (port, 60) then (m.schedIn port 60).schedOut port 61 else m
      match i? with
      | some i => if usable then m.parentFrame i f o else m
      | none => m

/-- Polder time at which the third frame expected from a parent since its last one is due, with CABLE, by the slots of R483; before
a plan, three intervals after the last arrival (R58). -/
def thirdDue (m : Mach) (i : Nat) : Option DWord :=
  let x := m.parent i
  match m.plan? with
  | none => some (x.lastPolder + BitVec.ofNat 64 (3 * frameInterval))
  | some p =>
    match p.tree.head?, (m.parentPort i).bind (fun q => p.link q) with
    | some r, some l =>
      let slots := if i = 0 then r.primarySlots else r.backupSlots
      let n := slots.length
      if n = 0 then none
      else
        -- arrivals expected after the last one, the third of them
        let base := p.tideBase + l.peerPhase + l.cable
        let d := timeDiff x.lastPolder (BitVec.ofNat 64 base)
        let k := if 0 ≤ d then d.toNat / (p.tideLen * slotUnits) else 0
        let all := (List.range 5).flatMap (fun j => slots.map (fun s => ((k + j) * p.tideLen + s) * slotUnits))
        let later := all.filter (fun a => decide (d + (us : Nat) < (a : Nat)))
        (later[2]?).map (fun a => BitVec.ofNat 64 (base + a))
    | _, _ => none

/-- PARENT_LOST_TIMEOUT (R58): the third consecutive expected frame is still missing 1 µs after it was due. -/
def parentLostTimeout (m : Mach) (i : Nat) : Mach :=
  if (m.parent i).valid = false then m
  else
    match m.thirdDue i with
    | some d => if reached m.polder (d + BitVec.ofNat 64 us) then m.parentLost i else m
    | none => m

/-- HOLD_LIMIT_EXCEEDED (R60): with no plan loaded, ERR_PS exceeds the limit. -/
def holdLimitExceeded (m : Mach) : Mach :=
  if m.active.isNone ∧ (m.tState = tLocked ∨ m.tState = tHoldover) ∧ m.errOverLimit then m.enterStopped else m

/-- DELAY_EXCHANGE_TIMEOUT (R47): 10 µs without a reply discard the exchange; after 16 the measurement starts over. -/
def delayExchangeTimeout (m : Mach) (port : Nat) : Mach :=
  let x := m.ltime port
  match x.began with
  | some b =>
    if x.measuring ∧ b + 10 * us ≤ m.now then
      if 16 ≤ x.discarded + 1 then m.beginMeasure port
      else (m.setLtime port { x with discarded := x.discarded + 1, prevSample := none }).beginExchange port
    else m
  | none => m

/-- Signed offset from the nearest second boundary of polder time, in units (R53). -/
def secondOffset (t : DWord) : Int :=
  let r := t.toNat % secondUnits
  if r ≤ secondUnits / 2 then (r : Int) else (r : Int) - secondUnits

/-- PPS_IN_EDGE (R53): captured; a ROOT that is to anchor takes the second by a SET at the first edge before a plan, else by
rate, at most 1 ns per second. -/
def ppsInEdge (m : Mach) (rising : Bool) : Mach :=
  if rising = m.bit F.SLU_TIME_CTL_PPS_IN_EDGE then m
  else
    let off := secondOffset m.polder
    let m := m.set64 F.SLU_PPS_CAP_LO m.polder.toNat
    let m := m.set F.SLU_PPS_OFFSET (BitVec.ofInt 32 off).toNat
    let m := (m.putTm { m.tm with lastEdge := m.now })
    let anchors := match m.plan? with
      | some p => p.ppsAnchor
      | none => m.bit F.SLU_TIME_CTL_PPS_ANCHOR_EN
    if m.tState ≠ tRoot ∨ anchors = false then m
    else
      let first := !m.bit F.SLU_TIME_STATUS_ANCHORED
      let m := m.set F.SLU_TIME_STATUS_ANCHORED 1
      if first && !m.planBound then
        ((m.putPolder (m.polder - BitVec.ofInt 64 off)).putTm { m.tm with stepped := 16 })
      else
        let (v, m) := m.fresh
        (m.putRate (((v.toNat % 3 : Nat) : Int) - 1))

/-- PPS_ANCHOR_TIMEOUT (R55): 1.5 s without an edge. -/
def ppsAnchorTimeout (m : Mach) : Mach :=
  if m.tState = tRoot ∧ m.bit F.SLU_TIME_STATUS_ANCHORED ∧ m.tm.lastEdge + 1500 * ms ≤ m.now then
    (m.set F.SLU_TIME_STATUS_ANCHORED 0).raise 0x0205 srcTime 0 [0] 0 (m.get F.SLU_PPS_OFFSET)
  else m

/-- PPS_OUT_SECOND (R54, 19_module_hardware.md R471): a new second of polder time has begun. -/
def ppsOutSecond (m : Mach) : Mach :=
  let sec := m.polder.toNat / secondUnits
  if sec = m.tm.ppsSecond then m
  else
    let st := m.tState
    let m := (m.putTm { m.tm with ppsSecond := sec })
    if (st = tLocked ∨ st = tHoldover ∨ st = tRoot) ∧ m.bit F.SLU_TIME_CTL_PPS_OUT_EN then
      (m.putTm { m.tm with ppsOut := true, ppsRise := m.now })
    else m

/-- PPS_OUT_FALL (R471): 100 ms after it rose. -/
def ppsOutFall (m : Mach) : Mach :=
  if m.tm.ppsOut ∧ m.tm.ppsRise + 100 * ms ≤ m.now then (m.putTm { m.tm with ppsOut := false }) else m

/-- TIME_SET (R56): accepted in ROOT or FREE with no bank ARMED, ACTIVE or RETIRING; else dropped with SET_REFUSED. -/
def timeSet (m : Mach) : Mach :=
  if (m.tState = tRoot ∨ m.tState = tFree) ∧ m.planBound = false then
    let m := (m.putPolder (BitVec.ofNat 64 (m.get64 F.SLU_TIME_SET_LO)))
    if m.tState = tRoot then (m.putTm { m.tm with stepped := 16 }) else m
  else m.set F.SLU_TIME_STATUS_SET_REFUSED 1

/-- TIME_CAPTURE (R62): polder time into SLU_CAPTURE. -/
def timeCapture (m : Mach) : Mach := m.set64 F.SLU_CAPTURE_LO m.polder.toNat

end Mach

/-- TIME_FRAME_TIMER. -/
def execTimeFrameTimer (t : Nat) (s : State) := commit s (fun m => (m.advance t).timeFrameTimer)

/-- TIME_FRAME_RECEIVED. -/
def execTimeFrameReceived (t port frac : Nat) (f : TimeFrame) (s : State) :=
  commit s (fun m =>
    let m := m.advance t
    if m.portUp port then (m.countRx port 82).timeFrameReceived port frac f else m.badFrame port 0xB)

/-- PARENT_LOST_TIMEOUT. -/
def execParentLostTimeout (t : Nat) (backup : Bool) (s : State) :=
  commit s (fun m => (m.advance t).parentLostTimeout backup.toNat)

/-- HOLD_LIMIT_EXCEEDED. -/
def execHoldLimitExceeded (t : Nat) (s : State) := commit s (fun m => (m.advance t).holdLimitExceeded)

/-- DELAY_EXCHANGE_TIMEOUT. -/
def execDelayExchangeTimeout (t port : Nat) (s : State) := commit s (fun m => (m.advance t).delayExchangeTimeout port)

/-- PPS_IN_EDGE. -/
def execPpsInEdge (t : Nat) (rising : Bool) (s : State) := commit s (fun m => (m.advance t).ppsInEdge rising)

/-- PPS_ANCHOR_TIMEOUT. -/
def execPpsAnchorTimeout (t : Nat) (s : State) := commit s (fun m => (m.advance t).ppsAnchorTimeout)

/-- PPS_OUT_SECOND. -/
def execPpsOutSecond (t : Nat) (s : State) := commit s (fun m => (m.advance t).ppsOutSecond)

/-- PPS_OUT_FALL. -/
def execPpsOutFall (t : Nat) (s : State) := commit s (fun m => (m.advance t).ppsOutFall)

/-- TIME_SET, through the register of any path. -/
def execTimeSet (p : Path) (s : State) := commit s (fun m => m.stewardGate p 0x00300408 (fun m => m.timeSet))

/-- TIME_CAPTURE, through the register of any path. -/
def execTimeCapture (p : Path) (s : State) := commit s (fun m => m.stewardGate p 0x00300408 (fun m => m.timeCapture))

end Sys2Proof.Machine
end

