-- ==== Sys2Proof/Machine/RegWrite.lean ====
section
/-! DEFINITION. Where a register access lands and what a write does there (00_scope.md R7 to R14, 14_herds.md R358, R359, 20_register_index.md R480, R481). -/
namespace Sys2Proof.Machine

/-- Block address of the alias at an offset of a herd page (14_herds.md R359). -/
def unalias (off : Nat) : Option Nat :=
  if (0x9140 ≤ off ∧ off < 0x9150) ∨ off = 0x9160 then some (0x02000000 + (off - 0x9100))
  else if 0x9208 ≤ off ∧ off < 0x9240 then some (0x02100000 + (off - 0x9200))
  else if 0x9310 ≤ off ∧ off < 0x9328 then some (0x03000000 + (off - 0x9300))
  else if 0x9400 ≤ off ∧ off < 0x9418 then some (0x03000100 + (off - 0x9400))
  else if 0x9510 ≤ off ∧ off < 0x9550 then some (0x03B00000 + (off - 0x9500))
  else if 0x9600 ≤ off ∧ off < 0x9644 then some (0x02201000 + (off - 0x9600))
  else if 0x9704 ≤ off ∧ off < 0x971C then some (0x00400300 + (off - 0x9700))
  else none

/-- The path and page of an access, and the register's address: its own in its block or on a herd page, or the block's behind an alias. -/
def resolve (p : Path) (addr : Nat) : Via × Nat :=
  if 0x00800000 ≤ addr ∧ addr < 0x01800000 then
    match unalias (addr % 0x10000) with
    | some a => ({ path := p, page := some ((addr - 0x00800000) / 0x10000) }, a)
    | none => ({ path := p, page := none }, addr)
  else ({ path := p, page := none }, addr)

/-- Where an access lands: path and page, the register's address, its row of the register table, the element selected and the key of the register; no element and no
key where the selection register selects nothing. -/
structure Loc where
  v : Via
  addr : Nat
  info : RegInfo
  elem : Option Nat
  key : Option Nat

/-- Key of a register that each path, and each herd page, holds for itself (R153, R358). -/
def ownKey (v : Via) (a : Nat) : Nat :=
  match v.page with
  | none => pathOff v.path + a
  | some h => pathOff v.path + (herdPage h + aliasOff a)

/-- Registers of which each herd page holds a copy of its own, whatever the path (R164, R359). -/
def pageOwn (a : Nat) : Bool := decide (0x02000040 ≤ a) && decide (a ≤ 0x02000060)

namespace Mach

/-- The element that a selection register names, if any. -/
def selected (m : Mach) (v : Via) (s : Nat) : Option Nat :=
  let w := (m.reg (if s = 0x00300600 then s else ownKey v s)).toNat
  match s with
  | 0x00400100 => some (w % 4096)
  | 0x00400200 => some (w % 4096)
  | 0x00400300 => some (v.page.getD (w % 256))
  | 0x00400400 => some (w % 16384)
  | 0x00401004 => some (w % 256)
  | 0x02000000 => if w % 256 < 16 then some (asSel (w / 256 % 256) (w % 256)) else none
  | 0x03800010 => if w % 4096 < 3072 then some (w % 4096) else none
  | 0x03980010 => if w % 2 ^ 19 < m.peatGranules then some (w % 2 ^ 19) else none
  | 0x00200030 => if w / 65536 % 4 < 3 then some (w / 65536 % 4 * 1024 + w % 1024) else none
  | 0x00030040 => if w < 320 then some w else none
  | 0x00010040 => if w < 60 then some w else none
  | _ => some w

/-- Where an aligned access lands; none at an unoccupied address (R480). -/
def locate (m : Mach) (p : Path) (addr : Nat) : Option Loc :=
  let (v, a) := resolve p addr
  match regInfo a with
  | none => none
  | some (r, _, _) =>
    match r.sel with
    | some s =>
      let e := m.selected v s
      some { v := v, addr := a, info := r, elem := e, key := e.map (fun e => regKey a e) }
    | none =>
      let k := if pageOwn a then (match v.page with | none => a | some h => herdPage h + aliasOff a)
        else if r.perPath then ownKey v a else a
      some { v := v, addr := a, info := r, elem := some 0, key := some k }

/-- Whether an access may reach an address (R142, R358, R481): the management port reaches all; a herd its own page; the steward, by the fabric, also every block. -/
def reaches (m : Mach) (p : Path) (addr : Nat) : Bool :=
  match p with
  | .mgmt => true
  | .fabric h =>
    !m.failStop &&
      (if 0x00800000 ≤ addr ∧ addr < 0x01800000 then (addr - 0x00800000) / 0x10000 == h else h == 0)

/-- Whether what the selection register of an alias names is the page's herd's (R358, R359). -/
def pageOwns (m : Mach) (l : Loc) : Bool :=
  match l.v.page, l.info.sel, l.elem with
  | some h, some s, some e =>
    match s with
    | 0x03000010 => m.tileOwned h e
    | 0x03000100 => decide (64 ≤ e) && ((m.prog e).map (fun x => x.herd == h)).getD true
    | 0x03B00010 => ((m.grp? e).map (fun x => x.def'.herd == h)).getD true
    | 0x02201000 => m.qpReach l.v e
    | _ => true
  | _, _, _ => true

/-- A value written through an alias, with the herd it names forced to the page's (R358). -/
def forceHerd (v : Via) (a value : Nat) : Nat :=
  match v.page with
  | none => value
  | some h =>
    if a = F.BEQ_QP_CFG.addr ∨ a = F.WIN_ENTRY.addr + 4 then putBits value 0 8 h
    else if a = F.COLL_DYN.addr then putBits value 16 8 h
    else if a = F.XLT_INV_GO.addr ∨ a = F.QE_EQ_CFG_HERD.addr then putBits value 8 8 h
    else value

/-- Whether a queue pair other than a FREE one names an entry of the peer table. -/
def peerNamed (m : Mach) (e : Nat) : Bool :=
  (m.listed F.BEQ_QP_CFG.addr).any (fun x => getBits x.2.toNat 10 1 == 1 && getBits x.2.toNat 16 16 == e && m.qpState x.1 != 0)

/-- Whether the block that owns a register's Frozen fields is enabled (R12; the register tables name the owner). -/
def frozenBy (m : Mach) (a e : Nat) : Bool :=
  if a = 0x00300408 then m.tState != tFree
  else if 0x00400104 ≤ a ∧ a < 0x00400114 then m.bit F.QE_SQ_CFG_ENABLE 0 e
  else if 0x00400204 ≤ a ∧ a < 0x00400210 then m.bit F.QE_CQ_CFG_ENABLE 0 e
  else if 0x00400304 ≤ a ∧ a < 0x00400310 then m.bit F.QE_EQ_CFG_ENABLE 0 e
  else if a = 0x00400404 then m.bit F.QE_RX_BIND_ENABLE 0 e
  else if 0x02000004 ≤ a ∧ a < 0x02000010 then m.bit F.XLT_AS_CFG_ENABLE 0 e
  else if 0x02000010 ≤ a ∧ a < 0x02000024 then m.bit F.XLT_AS_CFG_DIRTY_EN 0 e
  else if 0x03980120 ≤ a ∧ a < 0x03980140 then m.mirState e != 0 && m.mirState e != 5
  else if 0x02200404 ≤ a ∧ a < 0x02200424 then m.peerWord e 0 % 2 == 1 || m.peerNamed e
  else if 0x02201004 ≤ a ∧ a < 0x02201024 then m.qpState e == 1
  else if a = 0x00200040 then m.clk.routerOn
  else if 0x00200100 ≤ a ∧ a < 0x00200200 then m.bit F.PORT_CTL_ENABLE ((a - 0x00200100) / 8)
  else if 0x00100000 ≤ a ∧ a < 0x00180000 then
    let n := (a - 0x00100000) / 0x4000
    let x := a % 0x4000
    if 0x40 ≤ x ∧ x < 0xC0 then getBits (m.reg (0x00100040 + n * 0x4000 + (x - 0x40) / 8 * 8)).toNat 31 1 == 1
    else if 0x180 ≤ x ∧ x < 0x190 then m.bit F.PORT_CTL_DIAG n
    else m.bit F.PORT_CTL_ENABLE n
  else false

/-! ## The effect of a write -/

/-- The Staged fields of a register take a value at once: the apply point of a set (18_config_firmware.md R442). -/
def putStaged (m : Mach) (info : RegInfo) (key value : Nat) : Mach :=
  (info.fields.filter (fun f => f.chg == .staged)).foldl (fun m f =>
    m.setReg key (BitVec.ofNat 32 (putBits (m.reg key).toNat f.lo (f.hi - f.lo + 1) (getBits value f.lo (f.hi - f.lo + 1))))) m

/-- The fields of a register take a written value. At the apply point of a staged set (`ap`) Staged and Tide fields are in force at once (R442). -/
def putReg (m : Mach) (ap : Bool) (l : Loc) (value : Nat) : Mach :=
  match l.key, l.elem with
  | some k, some e =>
    let on := m.frozenBy l.addr e
    let m := l.info.fields.foldl (fun m f => m.putField k l.addr value on f) m
    if ap then
      let m := m.putStaged l.info k value
      if l.info.fields.any (fun f => f.chg == .tide) then (m.putTideOld (alDel m.tideOld k)) else m
    else m
  | _, _ => m

/-- The pair at a LO address took a value: what either path wrote of LO before is no longer taken (R8). -/
def dropShadows (m : Mach) (v : Via) (a : Nat) : Mach :=
  (m.putShadow (alDel (alDel m.shadow (ownKey { v with path := .mgmt } a)) (ownKey { v with path := .fabric 0 } a)))

/-- Whether the pair of a half can be written (R8). -/
def pairRw (l : Loc) : Bool := l.info.fields.any (fun f => f.acc == .rw || f.acc == .wo)

/-- The value that the LO half of a pair takes with a write of HI: the path's shadow, or LO as it stands (R8). -/
def pairLow (m : Mach) (l : Loc) : Nat :=
  ((alGet m.shadow (ownKey l.v (l.addr - 4))).getD ((l.key.map (fun k => m.reg (k - 4))).getD 0)).toNat

/-- The LO half of the pair whose HI half an access names. -/
def loHalf (l : Loc) : Loc :=
  { l with
    addr := l.addr - 4
    info := ((regInfo (l.addr - 4)).map (fun x => x.1)).getD l.info
    key := l.key.map (fun k => k - 4) }

/-- Which ring's base a HI half is, if one's: 0 SQ, 1 CQ, 2 EQ. -/
def ringKind (a : Nat) : Option Nat :=
  if a = 0x00400108 then some 0 else if a = 0x00400208 then some 1 else if a = 0x00400308 then some 2 else none

/-- A write of a HI half: both halves together (R8). A new base of a diagnostic ring starts it anew (12_ports_mac.md R319). -/
def writePair (m : Mach) (ap : Bool) (l : Loc) (value : Nat) : Mach :=
  match ringKind l.addr with
  | some k => m.ringBaseWrite l.v k value
  | none =>
    let lo := m.pairLow l
    let m := m.dropShadows l.v (l.addr - 4)
    if l.addr = F.CHU_SEED_HI.addr then
      (match l.elem with
      | some t => m.seedWrite t lo value
      | none => m)
    else
      let m := (m.putReg ap (loHalf l) lo).putReg ap l value
      if 0x00100000 ≤ l.addr ∧ l.addr < 0x00180000 ∧ l.addr % 0x4000 = 0x184 then
        let n := (l.addr - 0x00100000) / 0x4000
        if m.bit F.PORT_CTL_DIAG n then m
        else (m.setReg (0x0010018C + n * 0x4000) 0).setPt n { m.pt n with diagPhase := 1 }
      else m

/-- QE_LEASE: waits that have begun keep the lease they began with (14_herds.md R367). -/
def writeLease (m : Mach) (ap : Bool) (l : Loc) (value : Nat) : Mach :=
  let old := m.lease
  { (m.putReg ap l value) with leases := m.leases ++ [(m.now, old)] }

/-- QE_CQ_CFG: a clear of ENABLE is CQ_DISABLE; a CQ's herd holds it (R352). -/
def writeCqCfg (m : Mach) (ap : Bool) (l : Loc) (value : Nat) : Mach :=
  let c := l.elem.getD 0
  let old := m.cqHerd c
  let m := if value < 2 ^ 31 then m.cqDisable l.v.path value else m.putReg ap l value
  let new := m.cqHerd c
  let m := if old = new then m
    else
      let m := if old = 0 then m else m.giveBack old resCqs 1
      if new = 0 then m else m.take new resCqs 1
  m.cqFull c

/-- HERD_Q_SEL names a queue of the page's herd (R134). -/
def writeQSel (m : Mach) (l : Loc) (value : Nat) : Mach :=
  let h := (l.addr - 0x00800000) / 0x10000
  if m.sqHerd (value % 4096) = h then m.putReg false l value
  else (m.set F.QE_STATUS_DB_FOREIGN 1).regFault l.v.path l.addr true

/-- SLU_TIME_CTL: its fields, then SET and CAPTURE (02_polder_time.md R56, R62). -/
def writeTimeCtl (m : Mach) (ap : Bool) (l : Loc) (value : Nat) : Mach :=
  let m := m.putReg ap l value
  let m := if getBits value 0 1 = 1 then m.timeSet else m
  if getBits value 4 1 = 1 then m.timeCapture else m

/-- QE_HERD_CMD (14_herds.md R355). -/
def writeHerdCmd (m : Mach) (p : Path) (value : Nat) : Mach :=
  match getBits value 28 4 with
  | 1 => m.herdCreate p
  | 2 => m.herdSetShare p
  | 3 => m.herdReset' p (getBits value 1 1) (getBits value 0 1)
  | 4 => m.herdDestroy p
  | 5 => m.privGrant p
  | 6 => m.privRevoke p
  | _ => m

/-- COLL_CMD (09_collectives.md R262). -/
def writeCollCmd (m : Mach) (v : Via) (value : Nat) : Mach :=
  match getBits value 28 4 with
  | 1 => m.collCreate v
  | 2 => m.collDestroy v
  | 3 => m.collReset v
  | 4 => m.collRelease v
  | _ => m

/-- PEAT_MIR_CMD (10_memory.md R281). -/
def writeMirCmd (m : Mach) (p : Path) (value : Nat) : Mach :=
  match getBits value 28 4 with
  | 1 => m.mirCmd p Mach.mirStart
  | 2 => m.mirCmd p Mach.mirSeal
  | 3 => m.mirCmd p Mach.mirStop
  | 4 => m.mirCmd p Mach.mirRollback
  | _ => m

/-- BEQ_QP_CMD (11_best_effort_transport.md R292). -/
def writeQpCmd (m : Mach) (v : Via) (value : Nat) : Mach :=
  match getBits value 28 4 with
  | 1 => m.qpCreate v
  | 2 => m.qpDestroy v
  | 3 => m.qpReset v
  | _ => m

/-- CIPH_PAGE_CMD (15_cipher.md R379 to R387). -/
def writeKeyCmd (m : Mach) (p : Path) (value : Nat) : Mach :=
  match getBits value 28 4 with
  | 1 => m.keyAssign p value
  | 2 => m.keyInstall p value
  | 3 => m.keySwitchCmd p
  | 4 => m.keyRelease p
  | _ => m

/-- CHU_PROG_CMD (08_churn_programs.md R213, R214). -/
def writeProgCmd (m : Mach) (v : Via) (value : Nat) : Mach :=
  match getBits value 28 4 with
  | 1 => m.progLoadCmd v value
  | 2 => m.progCmd v (fun m e => m.progUnload e)
  | _ => m

/-- WIN_CMD (06_translation_windows.md R176). -/
def writeWinCmd (m : Mach) (v : Via) (value : Nat) : Mach :=
  let op := getBits value 28 4
  if op = 1 ∨ op = 2 ∨ op = 3 then m.winCmd v op (value % 2 ^ 20) else m

/-- FLT_SRC_CMD (16_faults.md R397). -/
def writeFltCmd (m : Mach) (p : Path) (value : Nat) : Mach :=
  let op := getBits value 28 4
  if op = 1 ∨ op = 2 then m.fltCmd p op else m

/-- A doorbell register of a herd page (R133). -/
def writeDoorbell (m : Mach) (p : Path) (addr value : Nat) : Mach :=
  let h := (addr - 0x00800000) / 0x10000
  let off := addr % 0x10000
  if off < 0x4000 then
    m.doorbell p h addr (m.sqHerd (off / 4) == h) (fun m => if m.herdState h = 3 then m else m.sqDoorbell (off / 4) (value % 65536))
  else if off < 0x8000 then m.doorbell p h addr (m.cqHerd ((off - 0x4000) / 4) == h) (fun m => m.cqDoorbell ((off - 0x4000) / 4) (value % 65536))
  else m.doorbell p h addr true (fun m => m.eqDoorbell h (value % 65536))

/-- A write that reaches a register by which a block is commanded or that has an effect beyond its fields; none for every other register. -/
def writeCommand (m : Mach) (ap : Bool) (l : Loc) (value : Nat) : Option Mach :=
  let p := l.v.path
  match l.addr with
  | 0x00300008 => some (m.planCmd p value)
  | 0x00300408 => some (m.writeTimeCtl ap l value)
  | 0x0040010C => some (if value < 2 ^ 31 then m.sqDisableCmd l.v value else m.sqEnable l.v value)
  | 0x0040020C => some (m.writeCqCfg ap l value)
  | 0x0040030C => some ((m.putReg ap l value).eqFull (l.elem.getD 0))
  | 0x00400404 => some (if value < 2 ^ 31 then m.putReg ap l value else m.rxBindEnable p value)
  | 0x00401000 => some (m.writeLease ap l value)
  | 0x00401008 => some (m.writeHerdCmd p value)
  | 0x02000004 => some (m.asCfgWrite p value)
  | 0x02000040 => some (if value < 2 ^ 31 then m.putReg ap l value else m.invGo l.v value (getBits value 28 2 % 3))
  | 0x02000050 => some (if value < 2 ^ 31 then m.putReg ap l value else m.harvestGo p value)
  | 0x02100008 => some (m.writeWinCmd l.v value)
  | 0x03000104 => some (m.writeProgCmd l.v value)
  | 0x03B00014 => some (m.writeCollCmd l.v value)
  | 0x03800018 => some (m.crmCmd p value)
  | 0x0398001C => some (m.peatCmd p value)
  | 0x03980104 => some (m.writeMirCmd p value)
  | 0x02201024 => some (m.writeQpCmd l.v value)
  | 0x03A00014 => some (m.writeKeyCmd p value)
  | 0x00030054 => some (m.writeFltCmd p value)
  | 0x00030030 => some (m.faultPop p)
  | a =>
    if 0x00100000 ≤ a ∧ a < 0x00180000 ∧ a % 0x4000 = 0 then some (m.portCtl p ((a - 0x00100000) / 0x4000) value)
    else if 0x00800000 ≤ a ∧ a < 0x01800000 then
      let off := a % 0x10000
      if off ≤ 0x8000 then some (m.writeDoorbell p a value)
      else if off = 0x8010 then some (m.writeQSel l value)
      else if off = 0x8014 then
        let v : Via := { path := p, page := some ((a - 0x00800000) / 0x10000) }
        some (if value % 2 = 0 then m.sqDisableCmd v value else m.sqEnable v value)
      else none
    else none

/-- A write of a register, as it takes effect: `ap` at the apply point of a staged set. LO of a writable pair is held in the path's shadow (R8). -/
def writeLoc (m : Mach) (ap : Bool) (l : Loc) (value : Nat) : Mach :=
  let value := forceHerd l.v l.addr value
  if m.get F.CIPH_STATUS_PRESENT = 0 ∧ 0x03A00000 ≤ l.addr ∧ l.addr < 0x03B00000 then m
  else if l.addr = 0x00200034 ∧ 1024 ≤ l.elem.getD 0 then m
  else if l.addr = 0x00200038 ∧ 1024 ≤ l.elem.getD 0 then m.dropShadows l.v 0x00200034
  else if m.poolsOver l.addr value then m.set F.RTE_STATUS_POOL_OVER 1
  else if m.pageOwns l = false then m.pageForeign l.v l.addr
  else
    match m.writeCommand ap l value with
    | some m => m
    | none =>
      if l.info.pair = .lo ∧ pairRw l then (m.putShadow (alPut m.shadow (ownKey l.v l.addr) (BitVec.ofNat 32 value)))
      else if l.info.pair = .hi ∧ pairRw l then m.writePair ap l value
      else m.putReg ap l value

end Mach
end Sys2Proof.Machine
end

