-- ==== Sys2Proof/Machine/Staged.lean ====
section
/-! DEFINITION. Staged sets (18_config_firmware.md R439 to R443) and direct writes of registers. -/
namespace Sys2Proof.Machine

/-- Whether an entry may name an address (R434, R439): an RW register outside the CFG, FWU and BOOT blocks and the herd pages. -/
def stageable (a : Nat) : Bool :=
  decide (a % 4 = 0) && !(decide (0x00040000 ≤ a) && decide (a < 0x00100000)) && !(decide (0x03D00000 ≤ a) && decide (a < 0x03F00000)) &&
    !(decide (0x00020000 ≤ a) && decide (a < 0x00030000)) && !(decide (0x00800000 ≤ a) && decide (a < 0x01800000)) &&
    ((regInfo a).map (fun x => x.1.fields.any (fun f => f.acc == .rw))).getD false

/-- The bits of a value that lie in RW fields of a register: an entry sets those alone. -/
def rwBits (info : RegInfo) (value : Nat) : Nat :=
  (info.fields.filter (fun f => f.acc == .rw)).foldl (fun n f => n + getBits value f.lo (f.hi - f.lo + 1) * 2 ^ f.lo) 0

namespace Mach

/-- A refused COMMIT or entry; `a` is the address it names, if any. -/
def cfgRefuse (m : Mach) (r : Nat) (a : Option Nat) : Mach :=
  let m := (m.set F.CFG_STATUS_REFUSED 1).set F.CFG_STATUS_REASON r
  match a with
  | some a => m.set F.CFG_REFUSE_ADDR a
  | none => m

/-- Sets the staged set, with its length in CFG_STATUS. -/
def setStaged (m : Mach) (l : List StageEntry) : Mach :=
  (m.putCfg { m.cfg with set := l }).set F.CFG_STATUS_ENTRIES l.length

/-- The effect of an entry at the apply point. -/
def applyEntry (m : Mach) (e : StageEntry) : Mach :=
  match e.key with
  | some k =>
    match regInfo e.addr with
    | some (r, _, _) => m.putStaged r k e.value.toNat
    | none => m
  | none =>
    match m.locate e.path e.addr with
    | some l => m.writeLoc true l (rwBits l.info e.value.toNat)
    | none => m

/-- Whether a register write would change a Frozen field of an enabled block. -/
def halfFrozen (m : Mach) (l : Loc) (value : Nat) : Bool :=
  match l.key, l.elem with
  | some k, some e =>
    m.frozenBy l.addr e && l.info.fields.any (fun f =>
      f.chg == .frozen && f.acc == .rw && getBits (m.reg k).toNat f.lo (f.hi - f.lo + 1) != getBits value f.lo (f.hi - f.lo + 1))
  | _, _ => false

/-- Whether an entry names a Frozen field of an enabled block, at its point of the set (R441). -/
def entryFrozen (m : Mach) (e : StageEntry) : Bool :=
  match e.key with
  | some _ => false
  | none =>
    match m.locate e.path e.addr with
    | none => false
    | some l =>
      if l.info.pair = .lo then false
      else if l.info.pair = .hi ∧ pairRw l then m.halfFrozen l e.value.toNat || m.halfFrozen (loHalf l) (m.pairLow l)
      else m.halfFrozen l e.value.toNat

/-- Address of the first entry that names a Frozen field of an enabled block, if any (R441). -/
def firstFrozen (m : Mach) : List StageEntry → Option Nat
  | [] => none
  | e :: r => if m.entryFrozen e then some e.addr else firstFrozen (m.applyEntry e) r

/-- The module as it would stand once the set applies (R15, R439). -/
def shadowMach (m : Mach) : Mach := m.cfg.set.foldl applyEntry m

/-- The Staged fields of a direct write (R439, R443): an entry, if the write changes the shadow value of any. -/
def stageHalf (m : Mach) (l : Loc) (value : Nat) : Mach :=
  match l.key with
  | none => m
  | some k =>
    let sh := (m.shadowMach.reg k).toNat
    let differs := l.info.fields.any (fun f => f.chg == .staged && getBits sh f.lo (f.hi - f.lo + 1) != getBits value f.lo (f.hi - f.lo + 1))
    if differs = false then m
    else if m.bit F.CFG_STATUS_PENDING then m.set F.CFG_STATUS_PENDING_WRITE 1
    else if 1024 ≤ m.cfg.set.length then m.cfgRefuse 5 (some l.addr)
    else
      (m.setStaged (m.cfg.set ++ [{ addr := l.addr, value := BitVec.ofNat 32 value, path := l.v.path, key := some k }])).set F.CFG_STATUS_REFUSED 0

/-- The Staged fields that a direct write reaches; a bank's route table is not written (13_routing_deadlock.md R350). -/
def stageDirect (m : Mach) (l : Loc) (value : Nat) : Mach :=
  if l.addr = 0x00200038 ∧ 1024 ≤ l.elem.getD 0 then m
  else if l.info.pair = .lo then m
  else if l.info.pair = .hi then (m.stageHalf (loHalf l) (m.pairLow l)).stageHalf l value
  else m.stageHalf l value

/-- A direct write of a register outside the CFG, FWU and BOOT blocks: Staged fields into the set, the rest by their classes (R439). -/
def directWrite (m : Mach) (l : Loc) (value : Nat) : Mach := (m.stageDirect l value).writeLoc false l value

/-- A write of CFG_STAGE_DATA (R439, R443). -/
def stageAppend (m : Mach) (p : Path) (value : Word) : Mach :=
  let a := m.get F.CFG_STAGE_ADDR
  if m.bit F.CFG_STATUS_PENDING then m.cfgRefuse 3 none
  else if stageable a = false then m.cfgRefuse 4 (some a)
  else if 1024 ≤ m.cfg.set.length then m.cfgRefuse 5 (some a)
  else (m.setStaged (m.cfg.set ++ [{ addr := a, value := value, path := p, key := none }])).set F.CFG_STATUS_REFUSED 0

/-- COMMIT (R440, R441, R443). -/
def cfgCommit (m : Mach) : Mach :=
  let slack : Bool := match m.active with
    | none => true
    | some b => b.2.slackPeriod != 0 && b.2.stagedOk
  if m.bit F.CFG_STATUS_PENDING then m.cfgRefuse 3 none
  else if slack = false then m.cfgRefuse 1 none
  else
    match m.firstFrozen m.cfg.set with
    | some a => m.cfgRefuse 2 (some a)
    | none => ((m.putCfg { m.cfg with commitAt := some m.polder }).set F.CFG_STATUS_PENDING 1).set F.CFG_STATUS_REFUSED 0

/-- DISCARD (R443). -/
def cfgDiscard (m : Mach) : Mach :=
  ((m.putCfg { m.cfg with commitAt := none }).setStaged []).set F.CFG_STATUS_PENDING 0

/-- Whether the apply point of a COMMIT has come (R440): any time while no bank is ACTIVE; else within 20 µs of the boundary of a slack tide that begins at least 20 µs
after it. -/
def applyPoint (m : Mach) (since : DWord) : Bool :=
  match m.active with
  | none => true
  | some (_, p) =>
    match p.tideAt m.polder with
    | none => false
    | some n =>
      let start := BitVec.ofNat 64 (p.tideBase + n * p.tideLen * slotUnits)
      p.isSlack n && decide ((20 * us : Int) ≤ timeDiff start since) && decide (timeDiff m.polder start ≤ (20 * us : Int))

/-- STAGED_SET_APPLY (R441, R442). -/
def stagedApply (m : Mach) : Mach :=
  match m.cfg.commitAt with
  | none => m
  | some since =>
    if m.applyPoint since = false then m
    else
      let m := (m.putCfg { m.cfg with commitAt := none }).set F.CFG_STATUS_PENDING 0
      match m.firstFrozen m.cfg.set with
      | some a => m.cfgRefuse 2 (some a)
      | none => (((m.cfg.set.foldl applyEntry m).setStaged []).set F.CFG_STATUS_DONE 1).inc F.CFG_COMMITS

/-- A register access at an aligned address (R9, R358, R481): dropped and captured where no register lies, where the path does not reach, and for a write to the
page of a herd that is being destroyed (14_herds.md R356). -/
def accessAt (m : Mach) (p : Path) (addr : Nat) (isWrite : Bool) (f : Mach → Loc → Mach) : Mach :=
  if m.served p addr = false then m
  else
    let dying := isWrite && decide (0x00800000 ≤ addr) && decide (addr < 0x01800000) &&
      decide ((addr - 0x00800000) / 0x10000 ≠ 0) && m.herdState ((addr - 0x00800000) / 0x10000) == 4
    match m.locate p addr with
    | none => m.regFault p addr isWrite
    | some l => if m.reaches p addr = false ∨ dying then m.regFault p addr isWrite else f m l

end Mach

/-- STAGE_DATA_APPEND. -/
def execStageDataAppend (p : Path) (value : Word) (s : State) : Host.Outcome State Fault Refusal :=
  commit s (fun m => m.stewardGate p F.CFG_STAGE_DATA.addr (fun m => m.stageAppend p value))

/-- STAGED_FIELD_WRITE: a direct write of a register that holds Staged fields. -/
def execStagedFieldWrite (p : Path) (addr : Nat) (value : Word) (s : State) : Host.Outcome State Fault Refusal :=
  commit s (fun m => m.accessAt p (addr / 4 * 4) true (fun m l =>
    if l.info.fields.any (fun f => f.chg == .staged) then m.directWrite l value.toNat else m))

/-- COMMIT. -/
def execCommit (p : Path) (s : State) : Host.Outcome State Fault Refusal :=
  commit s (fun m => m.stewardGate p F.CFG_COMMIT_OP.addr (fun m => m.cfgCommit))

/-- DISCARD. -/
def execDiscard (p : Path) (s : State) : Host.Outcome State Fault Refusal :=
  commit s (fun m => m.stewardGate p F.CFG_COMMIT_OP.addr (fun m => m.cfgDiscard))

/-- STAGED_SET_APPLY. -/
def execStagedSetApply (t : Nat) (s : State) : Host.Outcome State Fault Refusal :=
  commit s (fun m => (m.advance t).stagedApply)

end Sys2Proof.Machine
end

