-- ==== Sys2Proof/Machine/Fwu.lean ====
section
/-! DEFINITION. The flash, the boot record and firmware delivery (18_config_firmware.md R430 to R432, R444, R445, R455). -/
namespace Sys2Proof.Machine

/-- Places in the flash (R431). -/
def flBitmap : Nat := 0x0030000
def flJournal : Nat := 0x0020000
def flActive : Nat := 0x0100000
def flStaging : Nat := 0x2100000
def flConfig : Nat := 0x4100000

/-- A boot record (R432): STAGE 0 EMPTY, 1 RECEIVING, 2 PENDING. -/
structure BootRec where
  seq : Nat
  floor : Nat
  revoke : Nat
  stage : Nat
  pieces : Nat
  deriving DecidableEq, Repr

/-- The record as its fields read where neither copy holds (R432). -/
def noRecord : BootRec := { seq := 0, floor := 0, revoke := 0xFF, stage := 0, pieces := 0 }

/-- The 16 bytes of a record, with the CRC32C over the preceding bytes. -/
def recBytes (r : BootRec) : List Byte :=
  let b := leBytes 4 r.seq ++ leBytes 4 r.floor ++ leBytes 1 r.revoke ++ leBytes 1 r.stage ++ leBytes 2 r.pieces
  b ++ leBytes 4 (crcOf polyCastagnoli b)

namespace Mach

/-- Bytes of the flash. -/
def flashBytes (m : Mach) (a n : Nat) : List Byte := (m.rdBytes .flash a n).map (fun b => ~~~b)

/-- Erases a range of the flash. -/
def flashErase (m : Mach) (a n : Nat) : Mach := m.wrZero .flash a n

/-- Programs bytes of the flash: a bit goes from 1 to 0 only. -/
def flashProgram (m : Mach) (a : Nat) (d : List Byte) : Mach :=
  m.wrBytes .flash a ((d.zip (m.rdBytes .flash a d.length)).map (fun x => x.2 ||| ~~~x.1))

/-- A copy of the boot record, if its CRC holds. -/
def recCopy (m : Mach) (i : Nat) : Option BootRec :=
  let b := m.flashBytes (i * 0x1000) 16
  if leAt b 12 4 = crcOf polyCastagnoli (b.take 12) then
    some { seq := leAt b 0 4, floor := leAt b 4 4, revoke := leAt b 8 1, stage := leAt b 9 1, pieces := leAt b 10 2 }
  else none

/-- The copy in force: the one whose CRC holds and whose SEQ is higher (R432). -/
def recCopyNo (m : Mach) : Option (Nat × BootRec) :=
  match m.recCopy 0, m.recCopy 1 with
  | some a, some b => some (if a.seq < b.seq then (1, b) else (0, a))
  | some a, none => some (0, a)
  | none, some b => some (1, b)
  | none, none => none

/-- The boot record. -/
def bootRec (m : Mach) : BootRec := (m.recCopyNo.map (·.2)).getD noRecord

/-- Writes one copy of the record into its erased sector. -/
def putCopy (m : Mach) (i : Nat) (r : BootRec) : Mach := (m.flashErase (i * 0x1000) 0x1000).flashProgram (i * 0x1000) (recBytes r)

/-- BOOT_RECORD_REWRITE: the copy not in force is rewritten with SEQ + 1; both where neither holds (R432). -/
def setBootRec (m : Mach) (r : BootRec) : Mach :=
  match m.recCopyNo with
  | some (i, old) => m.putCopy (1 - i) { r with seq := (old.seq + 1) % 2 ^ 32 }
  | none => (m.putCopy 0 { r with seq := 0 }).putCopy 1 { r with seq := 0 }

/-- Whether a piece has arrived: its bit of the resumption bitmap is programmed to 0. -/
def pieceIn (m : Mach) (i : Nat) : Bool := getBits (m.rd .flash (flBitmap + i / 8)).toNat (i % 8) 1 == 1

/-- Pieces of the transfer that are missing, lowest first. -/
def missing (m : Mach) : List Nat := (List.range m.bootRec.pieces).filter (fun i => !m.pieceIn i)

/-- Whether a transfer is under way (R444). -/
def receiving (m : Mach) : Bool := m.bootRec.stage == 1

/-- Whether the TARGET of the transfer is the configuration region. -/
def targetCfg (m : Mach) : Bool := m.cfg.fwTarget.getD false

/-- Whether the configuration region waits for pieces (R434, R445). -/
def configPartial (m : Mach) : Bool := m.receiving && m.targetCfg && !m.missing.isEmpty

/-- Base of the region that a transfer fills. -/
def targetBase (m : Mach) : Nat := if m.targetCfg then flConfig else flStaging

def fwuRefuse (m : Mach) (r : Nat) : Mach := m.cmdRefused F.FWU_STATUS_DONE F.FWU_STATUS_REFUSED F.FWU_STATUS_REASON r
def fwuDone (m : Mach) : Mach := m.cmdDone F.FWU_STATUS_DONE F.FWU_STATUS_REFUSED

/-- BEGIN (R444): 8,192 pieces at most for staging, 2,048 for the configuration region. -/
def fwuBegin (m : Mach) (toCfg : Bool) : Mach :=
  let n := m.get F.FWU_PIECES % 16384
  if m.bit F.FWU_STATUS_BUSY then m.fwuRefuse 1
  else if n = 0 ∨ (if toCfg then 2048 else 8192) < n then m.fwuRefuse 2
  else
    let m := m.flashErase flBitmap 0x1000
    ((m.putCfg { m.cfg with fwTarget := some toCfg }).setBootRec { m.bootRec with stage := 1, pieces := n }).fwuDone

/-- The piece of a WRITE: the path's buffer, or 4 KiB of herd-0 granules; none where that range is not such (R444). -/
def fwuPiece (m : Mach) (p : Path) (fromSrc : Bool) : Option (List Byte) :=
  if fromSrc then
    let a := m.get64 F.FWU_SRC_LO
    if a % 4096 = 0 ∧ m.herd0Peat a 4096 then some (m.rdBytes .peat a 4096) else none
  else some ((List.range 1024).flatMap (fun w => leBytes 4 (m.getP p F.FWU_BUF w)))

/-- WRITE (R444, R445). -/
def fwuWrite (m : Mach) (p : Path) (toCfg fromSrc : Bool) : Mach :=
  let i := m.get F.FWU_INDEX % 16384
  if m.bit F.FWU_STATUS_BUSY then m.fwuRefuse 1
  else if m.receiving = false then m.fwuRefuse 3
  else if m.targetCfg ≠ toCfg then m.fwuRefuse 6
  else if m.bootRec.pieces ≤ i then m.fwuRefuse 2
  else
    match m.fwuPiece p fromSrc with
    | none => m.fwuRefuse 7
    | some d =>
      if crcOf polyCastagnoli d ≠ m.get F.FWU_CRC then ((m.fwuRefuse 4).inc F.FWU_CRC_FAIL).fault srcFwu kFailed { unit := srcFwu, detail := i }
      else (m.putCfg { m.cfg with piece := some (i, d) }).set F.FWU_STATUS_BUSY 1

/-- ABORT (R444). -/
def fwuAbort (m : Mach) : Mach :=
  if m.bit F.FWU_STATUS_BUSY then m.fwuRefuse 1 else (m.setBootRec { m.bootRec with stage := 0 }).fwuDone

/-- A sector whose program was cut short or failed holds nothing in particular. -/
def sectorFree (m : Mach) (a : Nat) : Mach :=
  let (m, d) := m.freshBytes 4096
  m.wrBytes .flash a d

/-- FWU_COMPLETE (R445): staging becomes PENDING. -/
def fwuComplete (m : Mach) : Mach :=
  if m.missing.isEmpty ∧ m.targetCfg = false then m.setBootRec { m.bootRec with stage := 2 } else m

/-- FWU_PIECE_WRITTEN (R444, R445): `ok` is whether the sector reads back as programmed. -/
def fwuWritten (m : Mach) (ok : Bool) : Mach :=
  match (if m.asleep then none else m.cfg.piece) with
  | none => m
  | some (i, d) =>
    let m := (m.putCfg { m.cfg with piece := none }).set F.FWU_STATUS_BUSY 0
    let a := m.targetBase + i * 4096
    if ok then
      let m := (m.flashErase a 4096).flashProgram a d
      let b := flBitmap + i / 8
      let m := m.wrBytes .flash b [BitVec.ofNat 8 (putBits (m.rd .flash b).toNat (i % 8) 1 1)]
      (m.fwuComplete).fwuDone
    else ((m.sectorFree a).fwuRefuse 5).fault srcFlash kFailed { unit := srcFlash, addr := a }

/-- FWU_CMD (R455). -/
def fwuCmd (m : Mach) (p : Path) (value : Nat) : Mach :=
  match getBits value 28 4 with
  | 1 => m.fwuBegin (getBits value 8 1 == 1)
  | 2 => m.fwuWrite p (getBits value 8 1 == 1) (getBits value 9 1 == 1)
  | 3 => m.fwuAbort
  | _ => m

end Mach

/-- FWU_BEGIN. -/
def execFwuBegin (p : Path) (toCfg : Bool) (s : State) : Host.Outcome State Fault Refusal :=
  commit s (fun m => m.stewardGate p F.FWU_CMD_OP.addr (fun m => m.fwuBegin toCfg))

/-- FWU_WRITE. -/
def execFwuWrite (p : Path) (toCfg fromSrc : Bool) (s : State) : Host.Outcome State Fault Refusal :=
  commit s (fun m => m.stewardGate p F.FWU_CMD_OP.addr (fun m => m.fwuWrite p toCfg fromSrc))

/-- FWU_ABORT. -/
def execFwuAbort (p : Path) (s : State) : Host.Outcome State Fault Refusal :=
  commit s (fun m => m.stewardGate p F.FWU_CMD_OP.addr (fun m => m.fwuAbort))

/-- FWU_PIECE_WRITTEN. -/
def execFwuPieceWritten (t : Nat) (ok : Bool) (s : State) : Host.Outcome State Fault Refusal :=
  commit s (fun m => (m.advance t).fwuWritten ok)

end Sys2Proof.Machine
end

