-- ==== Sys2Proof/Machine/BootOps.lean ====
section
/-! DEFINITION. The work of the boot steps (17_clocks_power_reset.md R426, R427): firmware (18_config_firmware.md R446 to R450), the configuration image (R433 to R438),
and the Peat store (10_memory.md R276 to R280). -/
namespace Sys2Proof.Machine

/-- A reserved range of granules: kind (0 plan region, 1 window table, 2 granule table copy, 3 mirror bitmap, 4 journal), first granule, count (R433, RESERVE). -/
abbrev Reserve := List (Nat × Nat × Nat)

/-- Granules of a reserved range. -/
def rangeOf (r : Nat × Nat × Nat) : List Nat := (List.range r.2.2).map (fun i => r.2.1 + i)

/-- The first range of a kind. -/
def findKind (r : Reserve) (k : Nat) : Option (Nat × Nat × Nat) := r.find? (fun x => x.1 == k)

namespace Mach

/-- The boot reaches a step. -/
def bootTo (m : Mach) (n : Nat) : Mach := (m.putClk { m.clk with reached := m.now }).set F.CLK_BOOT_STEP n

/-! ## Firmware -/

/-- verify() of an image in flash: 0 where it is accepted, else the code of the first check that it fails (R446 to R448). -/
def fwVerify (m : Mach) (base : Nat) : Nat :=
  let h := m.flashBytes base 256
  let len := leAt h 8 4
  let part := leAt h 0x0C 2
  let r := m.bootRec
  if leAt h 0 4 ≠ 0x57524946 ∨ leAt h 4 2 ≠ 1 ∨ leAt h 6 2 ≠ 256 ∨ len < 1280 ∨ 2 ^ 25 < len ∨ len % 4096 ≠ 0 then 1
  else if (part ≠ 0xFFFF ∧ part ≠ m.get F.ID_PART_PART) ∨ leAt h 0x0E 1 ≠ m.get F.ID_GEN_GENERATION then 2
  else
    let img := m.flashBytes base len
    let block := img.drop (len - 1024)
    let key := Config.sha384 (block.take 388)
    if (List.range 2).all (fun k => getBits r.revoke k 1 == 0 || Config.romKey k != key) then 3
    else if Config.sha384 (digestInput img 0x80 (len - 1024)) ≠ BitVec.ofNat 384 (leAt img 0x80 48) ∨
        Config.pssVerify block ((img.drop 0x80).take 48) = false then 4
    else if leAt h 0x14 4 < r.floor then 5
    else 0

/-- Whether staging holds every piece of its last transfer. -/
def stageComplete (m : Mach) : Bool := decide (0 < m.bootRec.pieces) && m.missing.isEmpty && !m.targetCfg

/-- copy_under_journal (R449): from the first block whose journal bit is erased where the open journal's DIGEST is that of staging, else from the first. -/
def copyStart (m : Mach) (last : Nat) : Mach :=
  let d := m.flashBytes (flStaging + 0x80) 48
  let n := (leNat (m.flashBytes (flStaging + 8) 4) + 65535) / 65536
  let resumed := (m.cfg.journal.map (fun j => j.1 == d)).getD false
  { m with
    cfg := { m.cfg with copy := some (n, if resumed ∧ last = 1 then 2 else last), journal := if resumed then m.cfg.journal else some (d, 0) }
    clk := { m.clk with copyAt := m.now } }

/-- The copy is complete: DONE in the journal, STAGE EMPTY; its time adds to the bounds of the boot (R426, R449). -/
def copyDone (m : Mach) (last : Nat) : Mach :=
  let m := m.setBootRec { m.bootRec with stage := 0 }
  { m with
    cfg := { m.cfg with copy := none, journal := none }
    clk := { m.clk with extra := m.clk.extra + (m.now - m.clk.copyAt) } }.set F.BOOT_STATUS_LAST last

/-- FIRMWARE_COPY_BLOCK (R449): the next block is erased and programmed from staging, and its journal bit follows; after the last the copy is complete. -/
def copyBlock (m : Mach) : Mach :=
  match m.cfg.copy, m.cfg.journal with
  | some (n, last), some (d, i) =>
    if m.asleep then m
    else
      let a := flActive + i * 65536
      let m := if i < n then (m.flashErase a 65536).flashProgram a (m.flashBytes (flStaging + i * 65536) 65536) else m
      let m := (m.putCfg { m.cfg with journal := some (d, i + 1) })
      if n ≤ i + 1 then m.copyDone last else m
  | _, _ => m

/-- Runs the active image (R448, R450): SEC_FLOOR rises to its SEC_VERSION, and what it says of itself stands in its registers. -/
def fwRun (m : Mach) : Mach :=
  let h := m.flashBytes flActive 256
  let sec := leAt h 0x14 4
  let m := if m.bootRec.floor < sec then m.setBootRec { m.bootRec with floor := sec } else m
  let m := (m.set F.BOOT_FW_VERSION (leAt h 0x10 4)).set F.BOOT_SEC_VERSION sec
  let m := (List.range 12).foldl (fun (m : Mach) w => m.set F.BOOT_FW_DIGEST (leAt h (0x80 + 4 * w) 4) w) m
  ((m.set F.CFG_IMAGE_MIN (leAt h 0x18 1)).set F.CFG_IMAGE_MAX (leAt h 0x19 1)).bootTo 5

/-- The active image runs if it verifies; a damaged one is replaced from a complete staging, or the boot halts (R448). -/
def fwActive (m : Mach) : Mach :=
  if m.fwVerify flActive = 0 then m.fwRun
  else if m.stageComplete ∧ m.fwVerify flStaging = 0 then m.copyStart 4
  else m.bootHalt

/-- Step 4 (R430, R432, R448). -/
def bootFirmware (m : Mach) (w : BootWork) : Mach :=
  if m.cfg.copy.isSome then m
  else
    let m := if m.recCopyNo.isNone then m.fault srcFlash kFailed { unit := srcFlash } else m
    let m := (m.set F.BOOT_FLASH_INFO_SIZE_LOG2 w.sizeLog2).set F.BOOT_FLASH_INFO_SFDP_OK w.sfdpOk.toNat
    if m.bootRec.stage = 2 then
      let r := m.fwVerify flStaging
      if r = 0 then m.copyStart 1
      else (((m.setBootRec { m.bootRec with stage := 0 }).set F.BOOT_STATUS_LAST 3).set F.BOOT_STATUS_REFUSE r).fwActive
    else m.fwActive

/-! ## The configuration image -/

/-- Sections of the configuration image that the loader applies: those of a known TYPE and SVERSION (R433, R434). -/
def cfgSections (m : Mach) : List Section :=
  let h := m.flashBytes flConfig 256
  sectionsOf (m.flashBytes flConfig (leAt h 8 4)) (leAt h 0x10 4) (leAt h 0x14 4)

/-- Whether the image holds a section of a type. -/
def cfgHas (m : Mach) (type : Nat) : Bool := m.cfgSections.any (fun s => s.type == type && s.sversion == 1)

/-- Whether the header, the CRC, the directory and the state of delivery let the image be used (R434). -/
def cfgForm (m : Mach) : Bool :=
  let h := m.flashBytes flConfig 256
  let len := leAt h 8 4
  if leAt h 0 4 ≠ 0x47464E43 ∨ leAt h 6 2 ≠ 256 ∨ len < 256 ∨ 2 ^ 23 < len then false
  else
    let img := m.flashBytes flConfig len
    let v := leAt h 4 2
    crcOf polyCastagnoli (img.take 0x20 ++ List.replicate 4 0 ++ img.drop 0x24) == leAt h 0x20 4 &&
      decide (m.get F.CFG_IMAGE_MIN ≤ v) && decide (v ≤ m.get F.CFG_IMAGE_MAX) &&
      decide (leAt h 0x14 4 + 16 * leAt h 0x10 4 ≤ len) &&
      m.cfgSections.all (fun s => decide (s.offset + s.length ≤ len) && (s.isOptional || (decide (1 ≤ s.type) && decide (s.type ≤ 13) && s.sversion == 1))) &&
      !m.configPartial

end Mach

/-- Whether every value of a PORTS record lies within its field. -/
def portOk (p : ConfigPort) : Bool :=
  decide (p.role < 4) && decide (p.proto < 2) && decide (p.rate < 4) && decide (p.media < 2) && decide (p.vid < 4096) && decide (p.etherType < 65536) &&
    decide (p.mac < 2 ^ 48)

/-- Whether a RESERVE section is accepted (R434): ranges within the store, no two overlapping, a window table of 16 granules and a copy of the granule table, at most one
plan region, of 256 granules (03_sluice_plans.md R63). -/
def reserveOk (cap : Nat) (r : Reserve) : Bool :=
  r.all (fun x => decide (x.1 ≤ 4) && decide (x.2.1 + x.2.2 ≤ cap)) &&
  r.zipIdx.all (fun x => r.zipIdx.all (fun y => x.2 == y.2 || decide (x.1.2.1 + x.1.2.2 ≤ y.1.2.1) || decide (y.1.2.1 + y.1.2.2 ≤ x.1.2.1))) &&
  (r.filter (fun x => x.1 == 1)).map (·.2.2) == [16] &&
  (r.filter (fun x => x.1 == 2)).map (fun x => decide (1 ≤ x.2.2)) == [true] &&
  (r.filter (fun x => x.1 == 0)).all (fun x => x.2.2 == 256) && decide ((r.filter (fun x => x.1 == 0)).length ≤ 1)

namespace Mach

/-- Whether the pools of a role map total at most 32 MiB (R343, R434). -/
def cfgPoolsOk (m : Mach) (c : ConfigImage) : Bool :=
  let roles := fun (p : Nat) => if m.cfgHas 1 then ((c.ports[p]?).map (·.role)).getD 0 else m.get F.PORT_ROLE_ROLE p
  let m := (List.range 32).foldl (fun (m : Mach) p => m.set F.PORT_ROLE_ROLE (roles p) p) m
  decide (m.poolSum (fun p => nthD c.pools p (0, 0)) c.origin ≤ 32768)

/-- Whether every value lies within the range of the field that it sets (R434). -/
def cfgValues (m : Mach) (c : ConfigImage) : Bool :=
  let has := m.cfgHas
  decide (leNat (m.flashBytes (flConfig + 0x0C) 2) < 1024) &&
  (!has 1 || (c.ports.length == 32 && c.ports.all portOk)) &&
  (!has 3 || (decide (c.time.role ≤ 2) && decide (c.time.primaryPort < 32) && decide (c.time.backupPort < 32) && c.asym.length == 32)) &&
  (!has 4 || (c.classes.length == 320 && c.classes.all (fun x =>
    decide (x.1 < 65536) && decide (x.2.1 < 65536) && decide (x.2.2.1 < 2 ^ 32) && decide (x.2.2.2.1 < 2 ^ 24) && decide (x.2.2.2.2 < 256)))) &&
  (!has 5 || (c.curves.length == 64 && c.curves.all (fun x => decide (x < 2 ^ 32)))) &&
  (!has 7 || (c.ip6.length == 4 && c.ip6.all (fun x => decide (x < 2 ^ 32)) && decide (c.ip4 < 2 ^ 32))) &&
  (has 8 && reserveOk m.peatGranules c.reserve) &&
  (!has 9 || (c.pools.length == 32 && c.pools.all (fun x => decide (x.1 < 2 ^ 32) && decide (x.2 < 65536)) && decide (c.origin < 2 ^ 24) && m.cfgPoolsOk c)) &&
  (!has 10 || (decide (c.routes.length ≤ 1024) && c.routes.all (fun x => decide (x % 8 ≤ 4) && decide (x < 2 ^ 40)))) &&
  (!has 11 || (decide (c.peers.length ≤ 256) && c.peers.all (fun x => x.length == 8 && x.all (fun w => decide (w < 2 ^ 32))))) &&
  (!has 12 || decide (c.keys.length ≤ 8)) &&
  (!has 13 || (decide (c.regs.length ≤ 4096) && c.regs.all (fun x => stageable x.1 && decide (x.2 < 2 ^ 32))))

/-- Whether the loader accepts the image (R434). -/
def cfgAccept (m : Mach) (c : ConfigImage) : Bool := m.cfgForm && m.cfgValues c

/-- A port takes its PORTS record. -/
def cfgPort (m : Mach) (p : Nat) (x : ConfigPort) : Mach :=
  let m := ((m.set F.PORT_CTL_MEDIA x.media p).set F.PORT_CTL_RATE x.rate p).set F.PORT_CTL_ENABLE x.enable.toNat p
  let m := ((m.set F.PORT_ROLE_ROLE x.role p).set F.PORT_ROLE_PROTO x.proto p).set F.PORT_ROLE_VID x.vid p
  ((m.set F.PORT_ETHERTYPE_TYPE x.etherType p).set F.PORT_MAC_LO (x.mac % 2 ^ 32) p).set F.PORT_MAC_HI (x.mac / 2 ^ 32) p

/-- Sections PORTS, LINK_TRAIN and TIME. -/
def cfgLinks (m : Mach) (c : ConfigImage) : Mach :=
  let m := if m.cfgHas 1 then c.ports.zipIdx.foldl (fun (m : Mach) x => m.cfgPort x.2 x.1) m else m
  let m := if m.cfgHas 2 then (m.putCfg { m.cfg with training := c.training }) else m
  if m.cfgHas 3 then
    let t := c.time
    let r : TimeRec :=
      { role := t.role, hasBackup := t.hasBackup, primaryPort := t.primaryPort, primaryModule := t.primaryModule, backupPort := t.backupPort
        depth := t.depth, backupModule := t.backupModule, backupDepth := t.backupDepth, primarySlots := [], backupSlots := [] }
    let m := (m.putTm { m.tm with tree := some r })
    c.asym.zipIdx.foldl (fun (m : Mach) x => m.setLtime x.2 { m.ltime x.2 with asym := x.1 }) m
  else m

/-- Sections FAULT_CLASS, CC_CURVE, THERMAL and FRAMES. -/
def cfgTables (m : Mach) (c : ConfigImage) : Mach :=
  let m := if m.cfgHas 4 then c.classes.zipIdx.foldl (fun (m : Mach) x =>
      let (d, s, win, q, l) := x.1
      let m := ((m.set F.FLT_CLASS_N_N_DEG d 0 x.2).set F.FLT_CLASS_N_N_SEV s 0 x.2).set F.FLT_CLASS_WINDOW win 0 x.2
      (m.set F.FLT_CLASS_QUIET_QUIET_MS q 0 x.2).set F.FLT_CLASS_QUIET_LIMIT l 0 x.2) m else m
  let m := if m.cfgHas 5 then c.curves.zipIdx.foldl (fun (m : Mach) x => m.setReg (0x02200100 + 4 * x.2) (BitVec.ofNat 32 x.1)) m else m
  let m := if m.cfgHas 6 then (m.putCfg { m.cfg with thermal := c.thermal }) else m
  if m.cfgHas 7 then (c.ip6.zipIdx.foldl (fun (m : Mach) x => m.set F.RTE_IP6 x.1 x.2) m).set F.RTE_IP4 c.ip4 else m

/-- Pools: the section's, or the defaults of the role map (R343). -/
def cfgPools (m : Mach) (c : ConfigImage) : Mach :=
  if m.cfgHas 9 then
    (c.pools.zipIdx.foldl (fun (m : Mach) x =>
      (m.setReg (0x00200100 + 8 * x.2) (BitVec.ofNat 32 x.1.1)).setReg (0x00200104 + 8 * x.2) (BitVec.ofNat 32 x.1.2)) m).setReg 0x00200040 (BitVec.ofNat 32 c.origin)
  else
    let fabric := (List.range 32).filter (fun p => m.role p == roleFabric)
    if fabric.length ≤ 16 then fabric.foldl (fun (m : Mach) p => m.set F.RTE_POOL_LANE_KIB 256 p) m else m

/-- Sections ROUTE_BASE, PEERS, KEYS and REG. -/
def cfgRest (m : Mach) (c : ConfigImage) : Mach :=
  let m := if m.cfgHas 10 then c.routes.zipIdx.foldl (fun (m : Mach) x => m.set64 F.RTE_ENTRY_LO x.1 0 x.2) m else m
  let m := if m.cfgHas 11 then c.peers.zipIdx.foldl (fun (m : Mach) x =>
      x.1.zipIdx.foldl (fun (m : Mach) y => m.setReg (Mach.fkey F.BEQ_PEER y.2 x.2) (BitVec.ofNat 32 y.1)) m) m else m
  let m := if m.cfgHas 12 then (m.putCfg { m.cfg with keys := c.keys }) else m
  if m.cfgHas 13 then c.regs.foldl (fun (m : Mach) x =>
    match m.locate .mgmt x.1 with
    | some l => m.writeLoc true l (rwBits l.info x.2)
    | none => m) m
  else m

/-- The accepted image is applied, section by section (R433); its reservations wait for step 7. -/
def cfgLoad (m : Mach) (c : ConfigImage) : Mach :=
  let h := m.flashBytes flConfig 256
  let m := m.set F.RTE_MODULE_MODULE (leAt h 0x0C 2)
  let m := (((m.cfgLinks c).cfgTables c).cfgPools c).cfgRest c
  let m := (m.putCfg { m.cfg with want := some c.reserve })
  let d := Config.sha384 (m.flashBytes flConfig (leAt h 8 4))
  (List.range 12).foldl (fun (m : Mach) w => m.set F.BOOT_CFG_DIGEST (d.toNat / 2 ^ (32 * w)) w) m

/-- The defaults (R436): what differs from the registers' reset values. -/
def cfgDefaults (m : Mach) : Mach :=
  let m := ((m.set F.RTE_MODULE_MODULE 1023).set F.CFG_STATUS_DEFAULTS 1).fault srcConfig kFailed { unit := srcConfig }
  (List.range 32).foldl (fun (m : Mach) p =>
    m.cfgPort p { role := roleFabric, proto := 0, rate := 0, media := 0, enable := true, vid := 0, etherType := 0x88B5, mac := 0 })
    (m.putCfg { m.cfg with want := none })

/-- Whether a port takes part in the boot: enabled, with a role. -/
def portOn (m : Mach) (p : Nat) : Bool := m.bit F.PORT_CTL_ENABLE p && m.role p != 0

/-- Step 5 (R434, R436): the image or the defaults; then the ports train and the time function starts. -/
def bootConfig (m : Mach) (w : BootWork) : Mach :=
  let m := (m.set F.CFG_IMAGE_FOUND (leNat (m.flashBytes (flConfig + 4) 2))).set64 F.SLU_PLAN_REGION_LO (2 ^ 64 - 1)
  let m := if m.cfgAccept w.image then m.cfgLoad w.image else m.cfgDefaults
  let m := (List.range 32).foldl (fun (m : Mach) p => if m.portOn p then m.portTrain p else m) m
  m.timeStart.bootTo 6

/-! ## The Peat store -/

/-- The default reservations (R436): the window table in the last 16 granules, the granule table's copy below them. -/
def defaultReserve (m : Mach) : Reserve := [(1, m.peatGranules - 16, 16), (2, m.peatGranules - 17, 1)]

/-- The granule ownership table is read from its copy (10_memory.md R280). -/
def tableRestore (m : Mach) (r : Reserve) : Mach :=
  match findKind r 2 with
  | none => m
  | some (_, c, _) =>
    (List.range m.peatGranules).foldl (fun (m : Mach) g =>
      let w := leNat (m.rdBytes .peat (c * 2 ^ 21 + 4 * g) 4)
      if w = 0 then m else m.set F.PEAT_GRAN w 0 g) m

/-- The whole store is zeroed (R280): every granule FREE, and no page record left. -/
def storeZero (m : Mach) : Mach :=
  let m := m.wrZero .peat 0 m.peatCap
  { m with
    regs := m.regs.filter (fun x => !(decide (x.1 < fabricCopy) && x.1 % regSpan == F.PEAT_GRAN.addr))
    mem := { m.mem with badLines := [] }
    ciph := { m.ciph with pages := [] } }

/-- The reservations take effect (R276, R433): RESV granules of herd 0, SLU_PLAN_REGION, WIN_TABLE, the copy of the granule table, which is written whole. -/
def reserveSet (m : Mach) (r : Reserve) : Mach :=
  let m := ((m.putCfg { m.cfg with reserve := r }).putMem { m.mem with granCopy := (findKind r 2).map (·.2.1) })
  let e : Gran := { state := 1, resv := true, mirror := false, crypt := false, keyPage := 0, asid := 0x1F, herd := 0 }
  let m := (r.flatMap rangeOf).foldl (fun (m : Mach) g => m.set F.PEAT_GRAN (granWord e) 0 g) m
  let m : Mach := match m.mem.granCopy with
    | some c => (m.listed F.PEAT_GRAN.addr).foldl (fun (m : Mach) (x : Nat × Word) => m.wrBytes .peat (c * 2 ^ 21 + 4 * x.1) (leBytes 4 x.2.toNat)) m
    | none => m
  let m := m.set64 F.SLU_PLAN_REGION_LO (match findKind r 0 with | some x => x.2.1 * 2 ^ 21 | none => 2 ^ 64 - 1)
  match findKind r 1 with
  | some x => (m.set64 F.WIN_TABLE_LO (x.2.1 * 2 ^ 21)).wrZero .peat (x.2.1 * 2 ^ 21) (x.2.2 * 2 ^ 21)
  | none => m

/-- Current use of Peat capacity, counted from the table; the plan region counts for no herd (03_sluice_plans.md R63). -/
def peatUse (m : Mach) : Mach :=
  (m.listed F.PEAT_GRAN.addr).foldl (fun (m : Mach) x =>
    let e := m.gran x.1
    let plan := ((findKind m.cfg.reserve 0).map (fun r => decide (r.2.1 ≤ x.1) && decide (x.1 < r.2.1 + r.2.2))).getD false
    if e.state = 0 ∨ plan then m else m.take e.herd resPeat 1) m

/-- Page records of a preserved store (15_cipher.md R387): RECORDED, and NEEDS_PREV where a walk was interrupted. -/
def keyRecords (m : Mach) : Mach :=
  m.ciph.pages.foldl (fun (m : Mach) x =>
    match x.2.record with
    | some r => (m.set F.CIPH_PAGE_STATUS_RECORDED 1 0 x.1).set F.CIPH_PAGE_STATUS_NEEDS_PREV (if r.2.2.2.2 = 2 ^ 64 - 1 then 0 else 1) 0 x.1
    | none => m) m

/-- What the store preserves, as the reservations recorded in its table: with the table on die through a warm reset (R278), or with keep records that all verify (R280). -/
def preserved (m : Mach) (keepOk : Bool) : Option Reserve :=
  if m.clk.onDie then some (m.cfg.under.getD m.cfg.reserve) else if keepOk then m.clk.kept else none

/-- The store under defaults (R437): neither restored nor zeroed where it is preserved; the 17 default granules written, every other held. -/
def storeDefault (m : Mach) (old : Option Reserve) : Mach :=
  let m := match old with
    | some r => if m.clk.onDie then m else m.tableRestore r
    | none => m.storeZero
  let d := m.defaultReserve
  let m := (d.flatMap rangeOf).foldl (fun (m : Mach) g => m.wrZero .peat (g * 2 ^ 21) (2 ^ 21)) m
  let m := (m.putCfg { m.cfg with hold := true, under := old })
  (m.reserveSet d).set F.PEAT_STATUS_PRESERVED 0

/-- The store with an accepted image (R278, R280, R438): preserved with the reservations recorded in its table, or zeroed with the image's. -/
def storeImage (m : Mach) (old : Option Reserve) (new : Reserve) : Mach :=
  let m := (m.putCfg { m.cfg with hold := false, under := none })
  match old with
  | some r =>
    let m := if m.clk.onDie then m else m.tableRestore r
    ((m.reserveSet r).set F.CFG_STATUS_RESERVE_HELD (if r = new then 0 else 1)).set F.PEAT_STATUS_PRESERVED 1
  | none => (m.storeZero.reserveSet new).set F.PEAT_STATUS_PRESERVED 0

/-- Step 7 (R427): training, then the keep records; one failed package is erased, two halt the boot. -/
def bootPeat (m : Mach) (w : BootWork) : Mach :=
  let erased := if m.bit F.PEAT_STATUS_ERASED then [m.get F.PEAT_STATUS_ERASED_PKG] else []
  let bad := (w.failed.filter (fun c => decide (c < 24) && !erased.contains c)).eraseDups
  let m := (List.range 24).foldl (fun (m : Mach) c =>
    if bad.contains c then m else (m.set F.PEAT_C_STATUS_TRAINED 1 c).set F.PEAT_C_STATUS_SELF_REFRESH 0 c) m
  if 2 ≤ (erased ++ bad).length then m.bootHalt
  else
    let m := bad.foldl (fun (m : Mach) c => (m.erasePackage c).setUncovered (srcPeat c) true) m
    let old := m.preserved w.keepOk
    let m := match m.cfg.want with
      | some new => m.storeImage old new
      | none => m.storeDefault old
    let m := m.peatUse.keyRecords.set F.PEAT_STATUS_TRAINED 1
    (m.putClk { m.clk with kept := none, onDie := true }).bootTo 8

/-! ## The steps -/

/-- CONFIG_DEFAULTS (16_faults.md R404): the version found and the one accepted. -/
def raiseDefaults (m : Mach) : Mach :=
  (m.putCfg { m.cfg with defaultsAt := m.now }).raise 0x0B00 srcConfig 0 [0] (m.get F.CFG_IMAGE_FOUND) (m.get F.CFG_IMAGE_MAX)

/-- The boot reaches step 9: bring-up service. -/
def bootService (m : Mach) : Mach :=
  let m := m.bootTo 9
  if m.bit F.CFG_STATUS_DEFAULTS then m.raiseDefaults else m

/-- Step 3 ends: every PLL is locked or out of service, and the domains start. -/
def bootClocks (m : Mach) : Mach := ((List.range 60).foldl (fun (m : Mach) d => if (domainPll d).isSome then m.domainRun d else m) m).bootTo 4

/-- BOOT_STEP_ADVANCE (R426). -/
def bootAdvance (m : Mach) (w : BootWork) : Mach :=
  if m.asleep ∨ m.halted then m
  else
    match m.get F.CLK_BOOT_STEP with
    | 1 => m.bootTo 2
    | 2 => if m.bit F.CLK_STATUS_XTAL_OK then m.bootTo 3 else m
    | 3 => if (List.range 8).all (fun k => m.bit F.CLK_PLL_LOCKED k || m.pllOut k) then m.bootClocks else m
    | 4 => m.bootFirmware w
    | 5 => m.bootConfig w
    | 6 => if (List.range 32).all (fun p => !m.portOn p || m.lkState p == lkUp) then m.bootTo 7 else m
    | 7 => m.bootPeat w
    | 8 => if m.tState = tLocked ∨ m.tState = tRoot then m.bootService else m
    | _ => m

/-- Bound of a boot step in ms (R426): from step 1, or from the entry of a warm reset. -/
def bootBound (m : Mach) (n : Nat) : Nat :=
  if m.clk.warmBoot then
    match n with
    | 3 => 21 | 4 => 300 | 5 => 700 | 6 => 1700 | 7 => 1750 | _ => 3100
  else
    match n with
    | 3 => 21 | 4 => 321 | 5 => 721 | 6 => 1721 | 7 => 2721 | _ => 3721

/-- The fault of the unit that a step waits for. -/
def overrunFault (m : Mach) (n : Nat) : Mach :=
  match n with
  | 3 => ((List.range 8).filter (fun k => !m.bit F.CLK_PLL_LOCKED k)).foldl (fun (m : Mach) k => m.fault (srcPll k) kFailed { unit := srcPll k, detail := k }) m
  | 4 => m.fault srcFlash kFailed { unit := srcFlash }
  | 5 => m.fault srcConfig kFailed { unit := srcConfig }
  | 6 => ((List.range 32).filter (fun p => m.portOn p && m.lkState p != lkUp)).foldl (fun (m : Mach) p => m.fault (srcPort p) kFailed { unit := srcPort p, detail := p }) m
  | _ => m.fault srcTime kFailed { unit := srcTime }

/-- BOOT_STEP_OVERRUN (R427): FAILED and the fault of the step's unit, once for a step; the boot continues. At step 7 the packages not trained count as failed. -/
def bootOverrun (m : Mach) (w : BootWork) : Mach :=
  let n := m.get F.CLK_BOOT_STEP
  if m.asleep ∨ m.halted ∨ n < 3 ∨ 8 < n ∨ m.now ≤ m.clk.bootAt + m.bootBound n * ms + m.clk.extra ∨ m.clk.overran.contains n ∨ m.cfg.copy.isSome then m
  else
    let m := (m.putClk { m.clk with overran := m.clk.overran ++ [n] }).set F.CLK_BOOT_FAILED 1
    if n = 7 then m.bootPeat w
    else
      let m := m.overrunFault n
      if n = 6 then m.bootTo 7 else if n = 8 then m.bootService else m

/-- CONFIG_DEFAULTS_REPEAT (R436). -/
def defaultsRepeat (m : Mach) (c : ConfigImage) : Mach :=
  if m.asleep ∨ m.bit F.CFG_STATUS_DEFAULTS = false ∨ m.get F.CLK_BOOT_STEP < 9 ∨ m.now < m.cfg.defaultsAt + 60000 * ms ∨ m.cfgAccept c then m
  else m.raiseDefaults

end Mach
end Sys2Proof.Machine
end

