-- ==== Sys2Proof/Machine/ResetOps.lean ====
section
/-! DEFINITION. Resets, loss and return of power (17_clocks_power_reset.md R424, R425; 19_module_hardware.md R463 to R469; 10_memory.md R279, R280) and attestation
(18_config_firmware.md R451 to R453). -/
namespace Sys2Proof.Machine

/-- Bits of CLK_RESET_CAUSE (17_clocks_power_reset.md R429). -/
def causeInput : Nat := 1
def causePinPor : Nat := 2
def causePinWarm : Nat := 4
def causeCmdPor : Nat := 8
def causeCmdWarm : Nat := 16

namespace Mach

/-! ## Resets -/

/-- A sector program or block copy that a reset or a loss of power cuts short leaves its place with nothing in particular (18_config_firmware.md R445, R449). -/
def flashCut (m : Mach) : Mach :=
  let m := match m.cfg.piece with
    | some (i, _) => m.sectorFree (m.targetBase + i * 4096)
    | none => m
  match m.cfg.copy, m.cfg.journal with
  | some (n, _), some (_, i) =>
    if i < n then
      let (m, d) := m.freshBytes 65536
      m.wrBytes .flash (flActive + i * 65536) d
    else m
  | _, _ => m

/-- Every register at its reset value, every queue and unit empty, but for the flash and what stands outside the reset: the delivery in progress and the copy journal, the
sense line and the input, the test access port. The stores in silicon, Cream and tile SRAM, are cleared; the Peat store is left to boot step 7. -/
def blank (m : Mach) : Mach :=
  let m := m.flashCut
  let c : CfgSt := Mach.reset.cfg
  let k : ClkSt := Mach.reset.clk
  let x : Mach :=
    { Mach.reset with
      variant := m.variant, now := m.now, freeCtr := m.freeCtr, sent := m.sent, peat := m.peat, cream := m.cream, tsram := m.tsram, flash := m.flash, wr := m.wr
      cfg := { c with fwTarget := m.cfg.fwTarget, journal := m.cfg.journal }
      mem := { Mach.reset.mem with badLines := m.mem.badLines }
      clk :=
        { k with
          stby := m.clk.stby, input := m.clk.input, bootAt := m.now, reached := m.now, tap := m.clk.tap, bypassBit := m.clk.bypassBit
          boundary := m.clk.boundary, tck := m.clk.tck } }
  (x.wrZero .cream 0 (2 ^ 28)).wrZero .tsram 0 (2 ^ 28)

/-- CLK_RESET_CAUSE of a reset: its cause, with whether it ended a TRIP or a fail-stop. -/
def causeWord (m : Mach) (cause : Nat) : Word := BitVec.ofNat 32 (cause + 32 * m.clk.trip.toNat + 64 * m.failStop.toNat)

/-- A power-on reset (R424, R425): the boot restarts at step 1. The Peat store, with its page records, waits for the check of its keep records. -/
def powerOn (m : Mach) (cause : Nat) : Mach :=
  let x := m.blank
  let recs := m.ciph.pages.filterMap (fun p => p.2.record.map (fun r => (p.1, ({ cur := none, other := none, switchAt := 0, record := some r } : KeyPage))))
  { x with
    ciph := { x.ciph with pages := if m.clk.kept.isSome then recs else [] }
    clk := { x.clk with kept := m.clk.kept } }.setReg F.CLK_RESET_CAUSE_INPUT.addr (m.causeWord cause)

/-- Fault sources whose state a warm reset keeps (16_faults.md R397), with state and RECOVERIES. -/
def keptSources (m : Mach) : List (Nat × Nat × Nat) :=
  (m.listed F.FLT_SRC_STATUS_STATE.addr).map (fun x =>
    let st := getBits x.2.toNat 28 4
    let rec' := getBits x.2.toNat 16 8
    let erased := decide (256 ≤ x.1) && decide (x.1 < 280) && m.bit F.PEAT_C_STATUS_ERASED (x.1 - 256)
    (x.1, if st = 3 ∨ (erased ∧ st = 2) then st else 0, rec'))

/-- A kept source takes its state again, and the unit of a LOCKED one stays out of service. -/
def restoreSource (m : Mach) (x : Nat × Nat × Nat) : Mach :=
  let m := (m.set F.FLT_SRC_STATUS_STATE x.2.1 0 x.1).set F.FLT_SRC_STATUS_RECOVERIES x.2.2 0 x.1
  if x.2.1 ≠ 3 then m
  else if 292 ≤ x.1 ∧ x.1 < 300 then m.set F.CLK_PLL_COAST 1 (x.1 - 292)
  else if x.1 < 292 then m.fenceUnit x.1
  else m

/-- The granule table on die, the erased marks and the crystal selection, from before a warm reset (R278, R424). Where peat keep is enabled, an input loss before step 7 finds
the store kept (R425). -/
def warmKeep (x m : Mach) : Mach :=
  let table := m.regs.filter (fun p => decide (p.1 < fabricCopy) && p.1 % regSpan == F.PEAT_GRAN.addr)
  let recs := m.ciph.pages.filterMap (fun p => p.2.record.map (fun r => (p.1, ({ cur := none, other := none, switchAt := 0, record := some r } : KeyPage))))
  let kept := if m.clk.onDie ∧ m.bit F.PEAT_CTL_KEEP_EN ∧ m.bit F.ID_CAP0_PEAT_KEEP then some (m.cfg.under.getD m.cfg.reserve) else m.clk.kept
  let x := { x with
    regs := table
    onOscillator := m.onOscillator
    ciph := { x.ciph with pages := recs }
    mem := { x.mem with granCopy := m.mem.granCopy }
    cfg := { x.cfg with reserve := m.cfg.reserve, under := m.cfg.under, hold := m.cfg.hold }
    clk := { x.clk with kept := kept, onDie := m.clk.onDie, warmBoot := true } }
  let x := if m.bit F.PEAT_STATUS_ERASED then x.erasePackage (m.get F.PEAT_STATUS_ERASED_PKG) else x
  let x := (x.set F.CLK_STATUS_REF (m.get F.CLK_STATUS_REF)).set F.CLK_STATUS_XTAL_OK (m.get F.CLK_STATUS_XTAL_OK)
  (x.set F.CLK_STATUS_OSC_OK (m.get F.CLK_STATUS_OSC_OK)).set F.CLK_STATUS_OSC_DISC (m.get F.CLK_STATUS_OSC_DISC)

/-- A warm reset (R424, R425): dropped while the boot has not reached step 4; during a later step it restarts the boot at step 4, else at step 3. -/
def warm (m : Mach) (cause : Nat) : Mach :=
  let step := m.get F.CLK_BOOT_STEP
  if m.asleep ∨ step < 4 then m
  else
    let x := m.blank.warmKeep m
    let x := m.keptSources.foldl restoreSource x
    let x := (x.setReg F.CLK_RESET_CAUSE_INPUT.addr (m.causeWord cause)).selfRefresh true
    if step ≤ 8 then ((List.range 8).foldl (fun (x : Mach) k => x.pllLock k) x).bootClocks else x.set F.CLK_BOOT_STEP 3

/-- CLK_RESET_CMD (R425): only with its KEY, else dropped and captured. -/
def resetCmd (m : Mach) (p : Path) (value : Nat) : Mach :=
  m.stewardGate p F.CLK_RESET_CMD_OP.addr (fun m =>
    if value % 65536 ≠ 0xA5C3 then m.regFault p F.CLK_RESET_CMD_OP.addr true
    else
      match getBits value 28 4 with
      | 1 => m.warm causeCmdWarm
      | 2 => m.powerOn causeCmdPor
      | _ => m)

/-- A low pulse on SYS_RESET_L of a width in units (R469): within 0.1 µs of a boundary it may be taken either way. In STANDBY only a power-on reset acts, and only with the
input in range. -/
def resetPulse (m : Mach) (width : Nat) : Mach :=
  let (b, m) := m.freshBit
  let longer := fun (limit : Nat) => if width + 1600 < limit then false else if limit + 1600 < width then true else b
  if longer (10 * ms) then (if m.clk.input then m.powerOn causePinPor else m)
  else if longer us then m.warm causePinWarm
  else m

/-! ## Power -/

/-- The packages lose power: their contents are gone. -/
def peatLost (m : Mach) : Mach :=
  let m := m.wrZero .peat 0 m.peatCap
  ((m.putClk { m.clk with kept := none, onDie := false }).putMem { m.mem with badLines := [] })

/-- Whether peat keep applies (10_memory.md R279). -/
def keepApplies (m : Mach) : Bool := m.bit F.PEAT_CTL_KEEP_EN && m.bit F.ID_CAP0_PEAT_KEEP && m.clk.stby

/-- The module goes OFF: the packages lose power too. -/
def powerOff (m : Mach) : Mach :=
  let m := m.peatLost
  (m.putClk { m.clk with off := true })

/-- INPUT_LOSS (R465, R466, R468, R279): to STANDBY with the store kept, or OFF. Before step 7 has taken the packages out of self-refresh, a kept store stays as it is. -/
def inputLoss (m : Mach) : Mach :=
  if m.clk.input = false then m
  else
    let m := (m.fault srcPower kFailed { unit := srcPower }).standby
    let m : Mach := (m.putClk { m.clk with input := false })
    if m.clk.onDie ∧ m.keepApplies then (m.putClk { m.clk with kept := some (m.cfg.under.getD m.cfg.reserve), onDie := false })
    else if m.clk.kept.isSome ∧ m.clk.stby then (m.putClk { m.clk with onDie := false })
    else m.powerOff

/-- STANDBY_RAIL_LOSS (R467). -/
def railLoss (m : Mach) : Mach :=
  let m : Mach := (m.putClk { m.clk with stby := false })
  if m.clk.input ∨ m.clk.off then m else m.powerOff

/-- STBY_OK_L has been low for 100 ms, or is released (R467). -/
def setStby (m : Mach) (on : Bool) : Mach := (m.putClk { m.clk with stby := on })

/-- HIGH_INPUT_EVENT (R463): one event in a second while the input lies between 60 and 66 V. -/
def highInput (m : Mach) : Mach :=
  let soon : Bool := match m.clk.highAt with | some a => decide (m.now < a + 1000 * ms) | none => false
  if m.asleep ∨ soon then m
  else (m.putClk { m.clk with highAt := some m.now }).fault srcPower kCorrected { unit := srcPower }

/-! ## Identity and quotes -/

/-- A quote is refused. -/
def quoteRefuse (m : Mach) (r : Nat) : Mach := m.cmdRefused F.BOOT_QUOTE_STATUS_DONE F.BOOT_QUOTE_STATUS_REFUSED F.BOOT_QUOTE_STATUS_REASON r

/-- IDENTITY_KEY_READY (R451): `ok` is whether correction succeeds and the key matches its certificate. -/
def identityReady (m : Mach) (ok : Bool) : Mach :=
  if m.asleep ∨ m.halted ∨ m.get F.CLK_BOOT_STEP < 5 ∨ m.bit F.BOOT_STATUS_IDENTITY_READY ∨ m.bit F.BOOT_STATUS_IDENTITY_FAIL then m
  else if ok then m.set F.BOOT_STATUS_IDENTITY_READY 1
  else
    let m := (m.set F.BOOT_STATUS_IDENTITY_FAIL 1).fault srcConfig kFailed { unit := srcConfig }
    if m.cfg.quote.isSome then (m.putCfg { m.cfg with quote := none }).set F.BOOT_QUOTE_STATUS_BUSY 0 |>.quoteRefuse 1 else m

/-- DIGEST of the image of the first bank in one of the states given; zero if none. -/
def bankDigest (m : Mach) (states : List Nat) : List Byte :=
  match [0, 1].find? (fun b => states.contains (m.bankState b)) with
  | some b => ((m.bank b).image.drop 0x80).take 48
  | none => List.replicate 48 0

/-- The body of a quote (R452). -/
def quoteBody (m : Mach) (p : Path) : List Byte :=
  let flags := m.get F.CFG_STATUS_DEFAULTS * 0x100 + m.get F.PEAT_STATUS_PRESERVED * 0x200 + m.failStop.toNat * 0x400
  let words := fun (f : Fld) (n : Nat) => (List.range n).flatMap (fun w => leBytes 4 (m.get f w))
  let progs := (m.chu.progs.filter (fun x => x.2.state == 2)).flatMap (fun x =>
    leBytes 2 x.1 ++ leBytes 1 x.2.herd ++ [0] ++ (x.2.image.drop 0x80).take 48)
  leBytes 4 (1 + flags) ++ leBytes 4 (m.reg 0).toNat ++ leBytes 4 (m.get F.RTE_MODULE_MODULE) ++ leBytes 4 m.bootRec.floor ++
    leBytes 8 m.polder.toNat ++ leBytes 4 (m.get F.CFG_COMMITS) ++ leBytes 4 0 ++
    (List.range 8).flatMap (fun w => leBytes 4 (m.getP p F.BOOT_NONCE w)) ++
    leBytes 48 Config.romDigest.toNat ++ words F.BOOT_FW_DIGEST 12 ++ words F.BOOT_CFG_DIGEST 12 ++
    m.bankDigest [5] ++ m.bankDigest [3, 4] ++ leBytes 48 (Config.sha384 progs).toNat ++ List.replicate 32 0

/-- QUOTE_GO (R453): the snapshot is taken in one step. -/
def quoteGo (m : Mach) (p : Path) (value : Nat) : Mach :=
  m.stewardGate p F.BOOT_QUOTE_CMD_GO.addr (fun m =>
    if value % 2 = 0 then m
    else if m.bit F.BOOT_QUOTE_STATUS_BUSY then m.quoteRefuse 2
    else if m.bit F.BOOT_STATUS_IDENTITY_FAIL then m.quoteRefuse 1
    else
      let m := ((m.set F.BOOT_QUOTE_STATUS_DONE 0).set F.BOOT_QUOTE_STATUS_REFUSED 0).set F.BOOT_QUOTE_STATUS_BUSY 1
      (m.putCfg { m.cfg with quote := some (p, m.quoteBody p) }))

/-- QUOTE_SIGNED (R453): the signature is RSASSA-PSS with a random salt under a key that never leaves the die, so its bytes are free. -/
def quoteSigned (m : Mach) : Mach :=
  match m.cfg.quote with
  | none => m
  | some (p, b) =>
    if m.bit F.BOOT_STATUS_IDENTITY_READY = false then m
    else
      let (m, sig) := m.freshBytes 384
      let q := b ++ sig
      let m := (List.range 192).foldl (fun (m : Mach) w => m.setP p F.BOOT_QUOTE (leAt q (4 * w) 4) w) m
      let m := (m.putCfg { m.cfg with quote := none }).set F.BOOT_QUOTE_STATUS_BUSY 0
      m.cmdDone F.BOOT_QUOTE_STATUS_DONE F.BOOT_QUOTE_STATUS_REFUSED

end Mach
end Sys2Proof.Machine
end

