-- ==== Sys2Proof/Machine/Boot.lean ====
section
/-! DEFINITION. The commands of resets, boot, power and attestation. -/
namespace Sys2Proof.Machine

/-- POWER_ON_RESET: the input has risen into range, from OFF or STANDBY (19_module_hardware.md R463, R466). -/
def execPowerOnReset (t : Nat) (s : State) : Host.Outcome State Fault Refusal :=
  commit s (fun m =>
    let m := m.advance t
    if m.clk.pwrGood then m else (m.putClk { m.clk with input := true }).powerOn causeInput)

/-- WARM_RESET: a pulse on SYS_RESET_L that was classified as warm. -/
def execWarmReset (t : Nat) (s : State) : Host.Outcome State Fault Refusal := commit s (fun m => (m.advance t).warm causePinWarm)

/-- RESET_CMD_WARM. -/
def execResetCmdWarm (p : Path) (value : Word) (s : State) : Host.Outcome State Fault Refusal := commit s (fun m => m.resetCmd p value.toNat)

/-- RESET_CMD_POWER_ON. -/
def execResetCmdPowerOn (p : Path) (value : Word) (s : State) : Host.Outcome State Fault Refusal := commit s (fun m => m.resetCmd p value.toNat)

/-- SYS_RESET_PULSE. -/
def execSysResetPulse (t width : Nat) (s : State) : Host.Outcome State Fault Refusal := commit s (fun m => (m.advance t).resetPulse width)

/-- BOOT_STEP_ADVANCE. -/
def execBootStepAdvance (t : Nat) (w : BootWork) (s : State) : Host.Outcome State Fault Refusal := commit s (fun m => (m.advance t).bootAdvance w)

/-- FIRMWARE_COPY_BLOCK. -/
def execFirmwareCopyBlock (t : Nat) (s : State) : Host.Outcome State Fault Refusal := commit s (fun m => (m.advance t).copyBlock)

/-- BOOT_STEP_OVERRUN. -/
def execBootStepOverrun (t : Nat) (w : BootWork) (s : State) : Host.Outcome State Fault Refusal := commit s (fun m => (m.advance t).bootOverrun w)

/-- CONFIG_DEFAULTS_REPEAT: `w` is what the sections of the configuration region then say. -/
def execConfigDefaultsRepeat (t : Nat) (w : ConfigImage) (s : State) : Host.Outcome State Fault Refusal := commit s (fun m => (m.advance t).defaultsRepeat w)

/-- SERVICE_LEAVE (17_clocks_power_reset.md R428). -/
def execServiceLeave (p : Path) (value : Word) (s : State) : Host.Outcome State Fault Refusal :=
  commit s (fun m => m.stewardGate p F.CLK_SERVICE_LEAVE.addr (fun m => if value.toNat % 2 = 1 then m.bringUpEnd else m))

/-- INPUT_LOSS. -/
def execInputLoss (t : Nat) (s : State) : Host.Outcome State Fault Refusal := commit s (fun m => (m.advance t).inputLoss)

/-- HIGH_INPUT_EVENT. -/
def execHighInputEvent (t : Nat) (s : State) : Host.Outcome State Fault Refusal := commit s (fun m => (m.advance t).highInput)

/-- STANDBY_RAIL_LOSS. -/
def execStandbyRailLoss (t : Nat) (s : State) : Host.Outcome State Fault Refusal := commit s (fun m => (m.advance t).railLoss)

/-- STANDBY_SENSE_VALID. -/
def execStandbySenseValid (t : Nat) (s : State) : Host.Outcome State Fault Refusal := commit s (fun m => (m.advance t).setStby true)

/-- STANDBY_SENSE_LOST. -/
def execStandbySenseLost (t : Nat) (s : State) : Host.Outcome State Fault Refusal := commit s (fun m => (m.advance t).setStby false)

/-- IDENTITY_KEY_READY. -/
def execIdentityKeyReady (t : Nat) (ok : Bool) (s : State) : Host.Outcome State Fault Refusal := commit s (fun m => (m.advance t).identityReady ok)

/-- QUOTE_GO. -/
def execQuoteGo (p : Path) (value : Word) (s : State) : Host.Outcome State Fault Refusal := commit s (fun m => m.quoteGo p value.toNat)

/-- QUOTE_SIGNED. -/
def execQuoteSigned (t : Nat) (s : State) : Host.Outcome State Fault Refusal := commit s (fun m => (m.advance t).quoteSigned)

end Sys2Proof.Machine
end

