-- ==== Sys2Proof/Machine/RegRead.lean ====
section
/-! DEFINITION. What a register shows when it is read: the registers whose value the units hold elsewhere, and the effect of a read (00_scope.md R7 to R15). -/
namespace Sys2Proof.Machine

/-- LO or HI half of a 64-bit value, by which half a register is. -/
def halfOf (hi : Bool) (n : Nat) : Nat := if hi then n / 2 ^ 32 % 2 ^ 32 else n % 2 ^ 32

namespace Mach

/-! ## Registers that show what a unit holds -/

/-- Number of the current tide of the active plan (03_sluice_plans.md R98); 0 before its first. -/
def tideShown (m : Mach) : Nat := ((m.active.map (·.2)).bind (fun p => p.tideAt m.polder)).getD 0

/-- Number of the next slack tide of the active plan; all ones if none (R86, R98). -/
def slackShown (m : Mach) : Nat :=
  match m.active.map (·.2) with
  | none => 2 ^ 64 - 1
  | some p =>
    if p.slackPeriod = 0 then 2 ^ 64 - 1
    else
      let n := match p.tideAt m.polder with | some k => k + 1 | none => 0
      n + (p.slackPhase % p.slackPeriod + p.slackPeriod - n % p.slackPeriod) % p.slackPeriod

/-- SLU_LODE_STATUS of the endpoint selected (04_lodes_ordering.md R125): bit 31 of the selection is DIR, bits 13:0 the endpoint. -/
def lodeStatus (m : Mach) (e : Nat) : Nat :=
  let l := e % 16384
  if getBits e 31 1 = 0 then
    let valid := m.livePlans.any (fun p => (p.out l).isSome)
    valid.toNat * 2 ^ 31 + min 0xFFFF (m.ltx l).queue.length
  else
    let x := m.lrx l
    let valid := m.livePlans.any (fun p => (p.inc l).isSome)
    valid.toNat * 2 ^ 31 + x.broken.isSome.toNat * 2 ^ 30 + x.uncovered.isSome.toNat * 2 ^ 29 + (!x.held.isEmpty).toNat * 2 ^ 28

/-- SLU_LODE_SEQ of the endpoint selected. -/
def lodeSeq (m : Mach) (e : Nat) : Nat := if getBits e 31 1 = 0 then (m.ltx (e % 16384)).seq else (m.lrx (e % 16384)).lowest

/-- Registers of the schedule engine and the time function. -/
def showSlu (m : Mach) (a e w : Nat) : Nat :=
  match a - 0x00300000 with
  | 0x38 => halfOf false m.tideShown
  | 0x3C => halfOf true m.tideShown
  | 0x40 => halfOf false m.slackShown
  | 0x44 => halfOf true m.slackShown
  | 0x400 => halfOf false m.polder.toNat
  | 0x404 => halfOf true m.polder.toNat
  | 0x410 => m.errShown
  | 0x604 => m.lodeStatus e
  | 0x608 => m.lodeSeq e
  | _ => w

/-- State and privilege of a herd, as QE_HERD_STATUS and HERD_INFO show them (14_herds.md R355, R368): herd 0 is ACTIVE and privileged. -/
def herdShown (m : Mach) (h : Nat) : Nat :=
  if h = 0 then 2 ^ 28 + 2 ^ 27 else m.get F.QE_HERD_STATUS_STATE 0 h * 2 ^ 28 + m.get F.QE_HERD_STATUS_PRIV 0 h * 2 ^ 27

/-- Word of the current use of a herd (R368). -/
def useShown (m : Mach) (h w : Nat) : Nat :=
  if h = 0 ∧ w = 0 then m.used 0 resSqs + m.used 0 resCqs * 65536 else (m.reg (F.QE_HERD_USE.addr + 4 * w + regSpan * h)).toNat

/-- Registers of the queue engine that show what stands elsewhere. -/
def showQe (m : Mach) (a e w : Nat) : Nat :=
  if 0x00401030 ≤ a ∧ a < 0x00401050 then m.useShown e ((a - 0x00401030) / 4)
  else if a = 0x00401050 then m.herdShown e + m.get F.QE_HERD_STATUS_DB_GEN 0 e
  else w

/-- Registers of a herd page (05_queues_descriptors.md R153, 14_herds.md R368). -/
def showPage (m : Mach) (p : Path) (a w : Nat) : Nat :=
  let h := (a - 0x00800000) / 0x10000
  let off := a % 0x10000
  let q := m.selSq { path := p, page := some h }
  if off = 0x8014 then m.get F.QE_SQ_CFG_ENABLE 0 q
  else if off = 0x8018 then (m.reg (regKey 0x00400118 q)).toNat
  else if off = 0x801C then (m.reg (regKey 0x00400120 q)).toNat
  else if off = 0x8020 then (m.reg (regKey 0x00400124 q)).toNat
  else if off = 0x9000 then m.herdShown h + h
  else if 0x9030 ≤ off ∧ off < 0x9050 then m.useShown h ((off - 0x9030) / 4)
  else w

/-- Registers of the memory blocks (10_memory.md R287, R288). -/
def showMem (m : Mach) (a e w : Nat) : Nat :=
  if a = 0x03800014 then w + (m.creamPlanned e).toNat * 2 ^ 29
  else if a = 0x03980000 then w + m.keepApplies.toNat * 4
  else if a = 0x03980014 then granWord (m.gran e)
  else if a = 0x0398011C then m.mirPending e
  else w

/-- Registers of Churn's program table (08_churn_programs.md R211, R234): entries 1 to 11 are library kernels. -/
def showProg (m : Mach) (a e w : Nat) : Nat :=
  let lib := decide (1 ≤ e) && decide (e ≤ 11)
  let state := getBits w 26 3
  if a = 0x03000110 then (if lib then putBits w 26 3 2 else w) + (decide (state = 1)).toNat * 2 ^ 31
  else if a = 0x03000114 then (if lib then putBits w 16 8 64 else w) + (decide (e < 64)).toNat * 2 ^ 15
  else if 0x03000120 ≤ a ∧ a < 0x03000150 then
    (match m.prog e with
    | some x => leAt x.image (0x80 + (a - 0x03000120)) 4
    | none => w)
  else w

/-- Sources not in NORMAL (16_faults.md R406). -/
def notNormal (m : Mach) : List Nat := (m.listed F.FLT_SRC_STATUS_STATE.addr).filterMap (fun x => if getBits x.2.toNat 28 4 = 0 then none else some x.1)

/-- Registers of the fault collector (R402, R405, R406). -/
def showFlt (m : Mach) (a w : Nat) : Nat :=
  if a = 0x00030004 then m.flt.queue.length * 65536 + m.notNormal.length
  else if a = 0x00030008 then w + m.faultLine.toNat * 4
  else if 0x00030010 ≤ a ∧ a < 0x00030030 then (nthD (m.flt.queue.headD []) ((a - 0x00030010) / 4) 0).toNat
  else if 0x00030100 ≤ a ∧ a < 0x00030128 then
    let i := (a - 0x00030100) / 4
    ((m.notNormal.filter (fun s => decide (s / 32 = i))).map (fun s => 2 ^ (s % 32))).sum
  else w

/-- Whether TCK has toggled within the last 1 ms (19_module_hardware.md R479). -/
def tckActive (m : Mach) : Bool := match m.clk.tck with | some t => decide (m.now ≤ t + ms) | none => false

/-- Registers of clocks and resets (17_clocks_power_reset.md R416, R429): the sedge domain always runs, and test access while TCK does. -/
def showClk (m : Mach) (a e w : Nat) : Nat :=
  if 0x00010010 ≤ a ∧ a < 0x00010030 then
    let k := (a - 0x00010010) / 4
    w + ((List.range 60).filter (fun d => m.bit F.CLK_DOM_STATUS_RUNNING 0 d && m.get F.CLK_DOM_STATUS_PLL 0 d == k)).length * 256
  else if a = 0x00010044 then (if e = 0 ∨ (e = 56 ∧ m.tckActive) then putBits w 31 1 1 else w)
  else if a = 0x00010088 then w + min 0xFFFF ((m.now - m.clk.bootAt) / ms) * 256
  else w

/-- Registers of firmware delivery and boot that show the flash (18_config_firmware.md R455, R456). -/
def showFlash (m : Mach) (a w : Nat) : Nat :=
  let r := m.bootRec
  if a = 0x03D00018 then
    let got := if r.stage = 0 then 0 else r.pieces - m.missing.length
    w + (decide (r.stage ≠ 0) && m.missing.isEmpty).toNat * 2 ^ 28 + m.targetCfg.toNat * 2 ^ 27 + got
  else if a = 0x03D0001C then (match m.missing with | [] => 2 ^ 31 | i :: _ => i)
  else if a = 0x00020000 then w + r.stage % 4
  else if a = 0x0002000C then r.floor
  else w

/-- The value of a register after the staged set applies (R454, CFG_SHADOW_DATA); 0 where none lies at CFG_SHADOW_ADDR. -/
def shadowShown (m : Mach) (p : Path) : Nat :=
  let a := m.get F.CFG_SHADOW_ADDR
  let x := m.shadowMach
  if a % 4 = 0 then ((x.locate p a).bind (fun l => l.key.map (fun k => (x.reg k).toNat))).getD 0 else 0

/-- Registers that lie in no block with several such. -/
def showOther (m : Mach) (p : Path) (a e w : Nat) : Nat :=
  if 0x00100000 ≤ a ∧ a < 0x00180000 ∧ a % 0x4000 = 4 then w + (m.notSched ((a - 0x00100000) / 0x4000)).toNat * 2 ^ 17
  else if (a = 0x00200034 ∨ a = 0x00200038) ∧ 1024 ≤ e then halfOf (decide (a = 0x00200038)) (m.routeWord (e / 1024) (e % 1024))
  else if a = 0x02200000 then putBits w 0 1 m.hwmMode.toNat
  else if a = 0x00040014 then m.shadowShown p
  else if a = 0x03F00000 then (decide (m.clk.tap = 4) ||  decide (m.clk.tap = 5) || decide (m.clk.tap = 6)).toNat * 2 + m.tckActive.toNat
  else w

/-- What a register shows to a read: its stored value `w`, or what a unit holds. -/
def shown (m : Mach) (l : Loc) (a e w : Nat) : Nat :=
  if l.v.page.isSome ∧ a = 0x02000060 then w % 4
  else if 0x00300000 ≤ a ∧ a < 0x00400000 then m.showSlu a e w
  else if 0x00400000 ≤ a ∧ a < 0x00800000 then m.showQe a e w
  else if 0x00800000 ≤ a ∧ a < 0x01800000 then m.showPage l.v.path a w
  else if 0x03800000 ≤ a ∧ a < 0x03A00000 then m.showMem a e w
  else if 0x03000100 ≤ a ∧ a < 0x03000200 then m.showProg a e w
  else if 0x00030000 ≤ a ∧ a < 0x00040000 then m.showFlt a w
  else if 0x00010000 ≤ a ∧ a < 0x00020000 then m.showClk a e w
  else if (0x03D00000 ≤ a ∧ a < 0x03E00000) ∨ (0x00020000 ≤ a ∧ a < 0x00030000) then m.showFlash a w
  else m.showOther l.v.path a e w

/-- A value with the fields of an access type set to 0. -/
def without (acc : Acc) (info : RegInfo) (w : Nat) : Nat :=
  (info.fields.filter (fun f => f.acc == acc)).foldl (fun n f => putBits n f.lo (f.hi - f.lo + 1) 0) w

/-- What a read of a register at a place returns (R10): write-only fields read 0, and a field that names a herd reads back the page's (14_herds.md R358). -/
def readWord (m : Mach) (l : Loc) : Nat :=
  match l.elem, l.key with
  | some e, some k => forceHerd l.v l.addr (without .wo l.info (m.shown l l.addr e (m.reg k).toNat))
  | _, _ => 0

/-! ## The effect of a read -/

/-- The HI half of the pair whose LO half an access names. -/
def hiHalf' (l : Loc) : Loc :=
  { l with
    addr := l.addr + 4
    info := ((regInfo (l.addr + 4)).map (fun x => x.1)).getD l.info
    key := l.key.map (fun k => k + 4) }

/-- The fields of a register that a read clears are cleared (R10, RC). -/
def clearRc (m : Mach) (l : Loc) : Mach :=
  match l.key with
  | some k =>
    if l.info.fields.any (fun f => f.acc == .rc) then m.setReg k (BitVec.ofNat 32 (without .rc l.info (m.reg k).toNat)) else m
  | none => m

/-- The read of a register that returns a value. -/
def answerWord (m : Mach) (n : Nat) : Mach := (m.putAnswer (BitVec.ofNat 32 n))

/-- The address not yet re-encrypted by a running walk (15_cipher.md R385): how far the walk has come is not fixed, so the pair is free. -/
def walkRead (m : Mach) (l : Loc) : Mach :=
  let (v, m) := m.fresh
  (m.putLatch (alPut m.latch (ownKey l.v l.addr) (BitVec.ofNat 32 (v.toNat / 2 ^ 32)))).answerWord (v.toNat % 2 ^ 32)

/-- Counters of corrected code words and of cycles, which no row of the table advances (12_ports_mac.md R331, 13_routing_deadlock.md R350; notes/assumptions/113.md). -/
def uncounted (a : Nat) : Bool :=
  (decide (0x00100000 ≤ a) && decide (a < 0x00180000) && decide (a % 0x4000 = 0x220)) ||
  (((decide (0x00201000 ≤ a) && decide (a < 0x00201800)) || (decide (0x03C01000 ≤ a) && decide (a < 0x03C01800))) &&
    (decide (a % 0x40 = 0x1C) || decide (a % 0x40 = 0x20)))

/-- The read of such a counter: its value is free. -/
def freeRead (m : Mach) : Mach :=
  let (v, m) := m.fresh
  m.answerWord (v.toNat % 2 ^ 32)

/-- A read of a place in the register space (R8, R10). LO of a pair returns LO and latches HI; HI returns the latched half once, and clears nothing. -/
def readLoc (m : Mach) (l : Loc) : Mach :=
  if (m.get F.CIPH_STATUS_PRESENT = 0 ∧ 0x03A00000 ≤ l.addr ∧ l.addr < 0x03B00000) ∨ m.pageOwns l = false ∨ l.key.isNone then m.answerWord 0
  else
    match l.info.pair with
    | .none => if uncounted l.addr then m.freeRead else (m.answerWord (m.readWord l)).clearRc l
    | .lo =>
      if l.addr = F.CIPH_PAGE_REKEY_LO.addr ∧ m.keyState (l.elem.getD 0) = 4 ∧ m.get F.CIPH_PAGE_STATUS_KIND 0 (l.elem.getD 0) = 2 then m.walkRead l
      else
        let x := m.answerWord (m.readWord l)
        ({ x with latch := alPut m.latch (ownKey l.v l.addr) (BitVec.ofNat 32 (m.readWord (hiHalf' l))) }.clearRc l).clearRc (hiHalf' l)
    | .hi =>
      let k := ownKey l.v (l.addr - 4)
      match alGet m.latch k with
      | some w => ((m.putLatch (alDel m.latch k)).putAnswer w)
      | none => m.answerWord (m.readWord l)

/-- A read at an aligned address (R7, R9): 0 where nothing answers. -/
def readAt (m : Mach) (p : Path) (addr : Nat) : Mach := (m.putAnswer 0).accessAt p addr false (fun m l => m.readLoc l)

end Mach
end Sys2Proof.Machine
end

