-- ==== Sys2Proof/Machine/RegAccess.lean ====
section
/-! DEFINITION. Accesses to the register space (00_scope.md R7 to R15): what an address means decides what an access does there, whichever row names it. -/
namespace Sys2Proof.Machine
namespace Mach

/-- A write of CFG_COMMIT (18_config_firmware.md R440, R443). -/
def writeCommit (m : Mach) (p : Path) (value : Nat) : Mach :=
  m.stewardGate p F.CFG_COMMIT_OP.addr (fun m =>
    match getBits value 28 4 with
    | 1 => m.cfgCommit
    | 2 => m.cfgDiscard
    | _ => m)

/-- A write at an aligned address: a register by which the whole module is commanded, or a register of a block (R7, R9, R439). -/
def writeAt (m : Mach) (p : Path) (addr : Nat) (value : Word) : Mach :=
  match addr with
  | 0x0001006C => m.stewardGate p 0x0001006C (fun m => if value.toNat % 2 = 1 then m.bringUpEnd else m)
  | 0x00010080 => m.resetCmd p value.toNat
  | 0x00020100 => m.quoteGo p value.toNat
  | 0x00040004 => m.writeCommit p value.toNat
  | 0x0004000C => m.stewardGate p 0x0004000C (fun m => m.stageAppend p value)
  | 0x03D00000 => m.stewardGate p 0x03D00000 (fun m => m.fwuCmd p value.toNat)
  | a => m.accessAt p a true (fun m l => m.directWrite l value.toNat)

/-- An access of any size at any address (R7): only an aligned word acts; any other is dropped and reads 0. -/
def anyAccess (m : Mach) (p : Path) (addr size : Nat) (isWrite : Bool) (value : Word) : Mach :=
  if size ≠ 4 ∨ addr % 4 ≠ 0 then (if isWrite then m else m.answerWord 0)
  else if isWrite then m.writeAt p addr value
  else m.readAt p addr

end Mach

/-- REGISTER_WRITE. -/
def execRegisterWrite (p : Path) (addr : Nat) (value : Word) (s : State) : Host.Outcome State Fault Refusal :=
  commit s (fun m => m.anyAccess p addr 4 true value)

/-- PAIR_LO_READ. -/
def execPairLoRead (p : Path) (addr : Nat) (s : State) : Host.Outcome State Fault Refusal :=
  commit s (fun m => m.anyAccess p addr 4 false 0)

/-- PAIR_LO_WRITE. -/
def execPairLoWrite (p : Path) (addr : Nat) (value : Word) (s : State) : Host.Outcome State Fault Refusal :=
  commit s (fun m => m.anyAccess p addr 4 true value)

/-- PAIR_HI_WRITE. -/
def execPairHiWrite (p : Path) (addr : Nat) (value : Word) (s : State) : Host.Outcome State Fault Refusal :=
  commit s (fun m => m.anyAccess p addr 4 true value)

/-- READ_CLEAR_REGISTER. -/
def execReadClearRegister (p : Path) (addr : Nat) (s : State) : Host.Outcome State Fault Refusal :=
  commit s (fun m => m.anyAccess p addr 4 false 0)

/-- MISALIGNED_REGISTER_ACCESS. -/
def execMisalignedRegisterAccess (p : Path) (addr size : Nat) (isWrite : Bool) (value : Word) (s : State) : Host.Outcome State Fault Refusal :=
  commit s (fun m => m.anyAccess p addr size isWrite value)

/-- UNOCCUPIED_REGISTER_ACCESS. -/
def execUnoccupiedRegisterAccess (p : Path) (addr : Nat) (isWrite : Bool) (value : Word) (s : State) : Host.Outcome State Fault Refusal :=
  commit s (fun m => m.anyAccess p addr 4 isWrite value)

end Sys2Proof.Machine
end

