-- ==== Sys2Proof/Machine/Accel.lean ====
section
/-! DEFINITION. Packets of queue pairs that reach this module, accesses through doorbell windows (05_queues_descriptors.md R133), and the frames of Chaennis
accelerator links (12_ports_mac.md R321, R322). -/
namespace Sys2Proof.Machine
namespace Mach

/-! ## Doorbell windows -/

/-- Sends READ_DATA frames with the bytes of a READ, 16,384 at most in each, in address order (R321). -/
def sendReadData (m : Mach) (port tag : Nat) (d : List Byte) : Mach :=
  (List.range (max 1 ((d.length + 16383) / 16384))).foldl (fun (m : Mach) i =>
    let part := (d.drop (i * 16384)).take 16384
    m.sendOut port (chaennisBytes part.length false) (.access port 3 tag 0 part)) m

/-- Answers a refused request of an accelerator (R321). -/
def sendNak (m : Mach) (port tag status : Nat) : Mach := m.sendOut port (chaennisBytes 0 false) (.access port 4 tag status [])

/-- The reply to a read through a doorbell window. -/
def fabricReply (m : Mach) (op : FabricOp) (d : List Byte) : Mach :=
  match op.qp, op.access with
  | some (q, k), _ => m.readResponses q k d
  | none, some (port, tag) => m.sendReadData port tag d
  | none, none => m

/-- An access through a doorbell window (R133): only an aligned word acts; any other write is dropped and any other read returns zeros. -/
def fabricRun (m : Mach) (op : FabricOp) : Mach :=
  let word := decide (op.len = 4) && decide (op.addr % 4 = 0)
  match op.value with
  | some v => if word then m.writeAt (.fabric op.herd) op.addr (BitVec.ofNat 32 v) else m
  | none =>
    if word then
      let m := m.readAt (.fabric op.herd) op.addr
      m.fabricReply op (leBytes 4 m.answer.toNat)
    else m.fabricReply op (List.replicate op.len 0)

/-- Every access through a doorbell window that a frame brought is performed, in order. -/
def runFabric (m : Mach) : Mach := m.fabric.foldl fabricRun (m.putFabric [])

/-! ## Packets of queue pairs -/

/-- Whether a packet acknowledges. -/
def isAck (k : QpPacket) : Bool := k.op == .ack || k.op == .nak || k.op == .rnrNak

/-- Queue pair that a QPN names (11_best_effort_transport.md R289, R294). -/
def qpOfQpn (n : Nat) : Option Nat := if 0x10000 ≤ n ∧ n < 0x20400 then some (n - 0x10000) else none

/-- The oldest packet placed here of one sort reaches its queue pair. -/
def packetTake (m : Mach) (ack : Bool) : Mach :=
  match m.rte.here.find? (fun x => match x.2.body with | .packet k => isAck k == ack | .chunk _ => false) with
  | none => m
  | some x =>
    let m := (m.putRte { m.rte with here := m.rte.here.erase x })
    match x.2.body with
    | .chunk _ => m
    | .packet k =>
      match qpOfQpn k.qpn with
      | some q => (m.qpReceive q k).runFabric
      | none => m.inc F.BEQ_DROP

/-! ## ACCESS and LANDED frames -/

/-- Context of an entry of a port's list: herd × 256 + ASID; none if invalid. -/
def ctxEntry (m : Mach) (port i : Nat) : Option Nat :=
  let k := F.PORT_CTX_VALID.addr + port * 0x4000 + i % 16 * 8
  if getBits (m.reg k).toNat 31 1 = 1 then some (getBits (m.reg k).toNat 0 16) else none

/-- A WRITE of an accelerator, its window checked (R321). -/
def accessWrite (m : Mach) (port : Nat) (f : AccessFrame) (c : WinOk) : Mach :=
  if doorbellBase ≤ f.window then
    let op : FabricOp :=
      { herd := c.herd, addr := herdPage c.herd + f.addr % 2 ^ 48, len := f.payload.length, value := some (leNat (f.payload.take 4)), qp := none, access := none }
    if f.payload.isEmpty then m else m.fabricRun op
  else m.writeSegs c.herd c.asid 10 port f.tag false c.segs f.payload

/-- A READ of an accelerator, its window checked. -/
def accessRead (m : Mach) (port : Nat) (f : AccessFrame) (c : WinOk) : Mach :=
  if doorbellBase ≤ f.window then
    let op : FabricOp :=
      { herd := c.herd, addr := herdPage c.herd + f.addr % 2 ^ 48, len := f.readLen, value := none, qp := none, access := some (port, f.tag) }
    m.fabricRun op
  else
    let (m, d) := m.readSegs c.segs
    m.sendReadData port f.tag d

/-- An ACCESS frame of an accelerator (R321). A READ of more than 16 MiB is refused with a status that the spec does not name. Answers to requests of this module carry
bytes of accelerator memory, which the model takes as free where it reads them; reserved codes are dropped. -/
def accessTake (m : Mach) (port : Nat) (f : AccessFrame) : Mach :=
  if f.op ≠ 1 ∧ f.op ≠ 2 then m
  else
    match m.ctxEntry port f.ctx with
    | none => m.sendNak port f.tag stContext
    | some c =>
      if f.op = 2 ∧ 2 ^ 24 < f.readLen then
        let (v, m) := m.fresh
        m.sendNak port f.tag (1 + v.toNat % 255)
      else
        let ch : Chan := { herd := c / 256, src := some m.self, kind := 0, number := port }
        let len := if f.op = 1 then f.payload.length else f.readLen
        match m.windowCheck ch f.window f.addr len (if f.op = 1 then accWrite else accRead) false none with
        | (m, .error st) => m.sendNak port f.tag st
        | (m, .ok c) => if f.op = 1 then m.accessWrite port f c else m.accessRead port f c

/-- The oldest ACCESS frame that waits at a port. -/
def accessReceived (m : Mach) (port : Nat) : Mach :=
  match (m.pt port).inq.findSome? (fun x => match x with | .access f => some (f, x) | _ => none) with
  | none => m
  | some (f, x) => (m.setPt port { m.pt port with inq := (m.pt port).inq.erase x }).accessTake port f

/-- The oldest LANDED frame that waits at a port acknowledges every WRITE up to its tag (R322). -/
def landedReceived (m : Mach) (port : Nat) : Mach :=
  match (m.pt port).inq.findSome? (fun x => match x with | .landed t => some (t, x) | _ => none) with
  | none => m
  | some (t, x) =>
    let y := m.pt port
    let upTo := fun (w : Nat × Nat × Nat) => seqLe w.1 t
    let m := m.setPt port { y with inq := y.inq.erase x, writes := y.writes.filter (fun w => !upTo w) }
    (y.writes.filter upTo).foldl (fun (m : Mach) w => m.memAck w.2.2) m

/-! ## Writes that are not acknowledged -/

/-- A generation whose write was lost (09_collectives.md R251): a sealed one completes with REMOTE_TIMEOUT, any other is revoked. -/
def genWriteLost (m : Mach) (g gen : Nat) : Mach :=
  match (m.grp? g).bind (fun x => gen? x gen) with
  | some y => if y.state = 5 then (m.startDone g y stRemoteTimeout).genClose g gen else m.revoke g gen
  | none => m

/-- A queue pair's write that was lost: one of READ data fails the READ, one of the peer's is refused to the peer. -/
def qpWriteLost (m : Mach) (chan msn : Nat) : Mach :=
  if 2 ^ 20 ≤ chan then m.qpRefuse (chan - 2 ^ 20) msn stRemoteTimeout
  else
    match rxMsg (m.qp chan) msn with
    | some g => m.rxDeny chan g (m.qp chan).expect stRemoteTimeout |>.qpSettleRx chan 66
    | none => m

/-- The owner of a write that failed with REMOTE_TIMEOUT (R322). -/
def writeLost (m : Mach) (w : WriteRec) : Mach :=
  match w.kind with
  | 1 =>
    (match m.inRec w.chan with
    | some rec => (m.rxFail w.chan rec w.msg stRemoteTimeout w.msg).rxAdvance w.chan 66
    | none => m)
  | 2 => m.qpWriteLost w.chan w.msg
  | 3 => m.ringFault 1 (w.chan / 65536) (m.cqHerd (w.chan / 65536)) stRemoteTimeout 0
  | 4 => m.ringFault 2 w.chan w.chan stRemoteTimeout 0
  | 5 =>
    (match m.launch? w.chan with
    | some l => if l.fail.isSome then m else m.setLaunch { l with fail := some (stRemoteTimeout, 0) }
    | none => m)
  | 7 => m.genWriteLost w.chan w.msg
  | _ => m

/-- ACCEL_ACK_TIMEOUT (R322): the oldest write of a port that has waited for a lease period. -/
def accelTimeout (m : Mach) (port : Nat) : Mach :=
  let y := m.pt port
  match y.writes.find? (fun w => decide (w.2.1 + m.leaseAt w.2.1 ≤ m.now)) with
  | none => m
  | some w =>
    let m := m.setPt port { y with writes := y.writes.erase w }
    match m.mem.writes.find? (fun r => r.id == w.2.2) with
    | none => m
    | some r => (m.putMem { m.mem with writes := m.mem.writes.filter (fun r => r.id != w.2.2) }).writeLost r

end Mach

/-- QP_PACKET_RECEIVED. -/
def execQpPacketReceived (t : Nat) (s : State) : Host.Outcome State Fault Refusal :=
  commit s (fun m => (m.advance t).engines (fun m => m.packetTake false))

/-- QP_ACK_RECEIVED. -/
def execQpAckReceived (t : Nat) (s : State) : Host.Outcome State Fault Refusal :=
  commit s (fun m => (m.advance t).engines (fun m => m.packetTake true))

/-- ACCESS_FRAME_RECEIVED. -/
def execAccessFrameReceived (t port : Nat) (s : State) : Host.Outcome State Fault Refusal :=
  commit s (fun m => (m.advance t).engines (fun m => m.accessReceived port))

/-- LANDED_RECEIVED. -/
def execLandedReceived (t port : Nat) (s : State) : Host.Outcome State Fault Refusal :=
  commit s (fun m => (m.advance t).engines (fun m => m.landedReceived port))

/-- ACCEL_ACK_TIMEOUT. -/
def execAccelAckTimeout (t port : Nat) (s : State) : Host.Outcome State Fault Refusal :=
  commit s (fun m => (m.advance t).engines (fun m => m.accelTimeout port))

end Sys2Proof.Machine
end

