-- ==== Sys2Proof/Machine/Hw.lean ====
section
/-! DEFINITION. The SMBus and the test access port (19_module_hardware.md R473, R478, R479). -/
namespace Sys2Proof.Machine

/-- One byte of the packet error code of SMBus 3.1: CRC-8 with polynomial x^8 + x^2 + x + 1. -/
def pecByte (c b : Nat) : Nat :=
  (List.range 8).foldl (fun c _ => if 128 ≤ c then (c * 2 % 256) ^^^ 7 else c * 2) (c ^^^ b)

/-- The packet error code of a message: every byte from the first address byte on. -/
def pec (l : List Nat) : Nat := l.foldl pecByte 0

namespace Mach

/-! ## SMBus -/

/-- Register that a command of the SMBus names (R473). -/
def smbusReg (cmd : Nat) : Option Nat :=
  match cmd with
  | 1 => some F.ID_PART_PART.addr
  | 2 => some F.CLK_STATUS_REF.addr
  | 3 => some F.CLK_BOOT_STEP.addr
  | 4 => some F.CLK_RESET_CAUSE_INPUT.addr
  | 5 => some F.CLK_TEMP_DIE_MAX.addr
  | 6 => some F.CLK_PWR_VIN.addr
  | _ => none

/-- Whether only some commands return their registers: in STANDBY and during the halt of step 2 (R473; 17_clocks_power_reset.md R408). -/
def smbusBare (m : Mach) : Bool := m.asleep || (m.halted && m.get F.CLK_BOOT_STEP == 2)

/-- SMBUS_BLOCK_READ (R473): `straps` are the address straps, `addr` and `cmd` what the bus carries. -/
def smbusRead (m : Mach) (straps addr cmd : Nat) : Mach :=
  if (m.clk.off ∧ m.clk.stby = false) ∨ addr ≠ 0x58 + straps % 8 then m
  else
    match smbusReg cmd with
    | none => m.emitOut (.smbus none)
    | some a =>
      let v := if m.smbusBare ∧ ¬ [1, 2, 4].contains cmd then 0 else m.showClk a 0 (m.reg a).toNat
      let body := 4 :: (leBytes 4 v).map (fun b => b.toNat)
      let code := pec ([addr * 2, cmd, addr * 2 + 1] ++ body)
      m.emitOut (.smbus (some ((body ++ [code]).map (fun n => BitVec.ofNat 8 n))))

/-! ## Test access -/

/-- The test access port runs an instruction: TCK toggles; the port is unpowered in STANDBY. -/
def tapRun (m : Mach) (code : Nat) (f : Mach → Mach) : Mach :=
  if m.asleep then m else f (m.putClk { m.clk with tap := code, tck := some m.now })

/-- BYPASS: a one-bit register that captures 0 lies between TDI and TDO. -/
def tapBypass (m : Mach) (tdi : List Bool) : Mach :=
  m.tapRun 1 (fun m =>
    let all := false :: tdi
    (m.putClk { m.clk with bypassBit := all.getLastD false }).emitOut (.tdo all.dropLast))

/-- Shifts bits through the boundary register, which has captured some. -/
def boundaryShift (m : Mach) (captured tdi : List Bool) : Mach :=
  let all := captured ++ tdi
  (m.putClk { m.clk with boundary := all.drop tdi.length }).emitOut (.tdo (all.take tdi.length))

/-- SAMPLE/PRELOAD: the pins are captured and shifted out while the boundary register is loaded. -/
def tapSample (m : Mach) (pins tdi : List Bool) : Mach := m.tapRun 2 (fun m => m.boundaryShift pins tdi)

/-- IDCODE: PART in bits 27 to 12, STEPPING in bits 31 to 28, least significant bit first; the other bits are free. -/
def tapIdcode (m : Mach) : Mach :=
  m.tapRun 3 (fun m =>
    let (v, m) := m.fresh
    let n := v.toNat % 4096 + m.get F.ID_PART_PART * 4096 + m.get F.ID_PART_STEPPING % 16 * 2 ^ 28
    m.emitOut (.tdo ((List.range 32).map (fun i => n.testBit i))))

/-- Free bits. -/
def freshBits (m : Mach) : Nat → Mach × List Bool
  | 0 => (m, [])
  | n + 1 =>
    let (b, m) := m.freshBit
    let (m, r) := freshBits m n
    (m, b :: r)

/-- EXTEST and its kin: with SYS_RESET_L low the pins are driven from the boundary register, what they then show is captured and the register is loaded anew, and the pins
follow; else BYPASS. -/
def tapExtest (m : Mach) (kind : Nat) (low : Bool) (tdi : List Bool) : Mach :=
  if low = false then m.tapBypass tdi
  else
    m.tapRun (4 + kind) (fun m =>
      let m := m.emitOut (.pins kind m.clk.boundary)
      let (m, seen) := m.freshBits m.clk.boundary.length
      let m := m.boundaryShift seen tdi
      m.emitOut (.pins kind m.clk.boundary))

end Mach

/-- SMBUS_BLOCK_READ. -/
def execSmbusBlockRead (t straps addr cmd : Nat) (s : State) : Host.Outcome State Fault Refusal :=
  commit s (fun m => (m.advance t).smbusRead straps addr cmd)

/-- BYPASS. -/
def execBypass (t : Nat) (tdi : List Bool) (s : State) : Host.Outcome State Fault Refusal := commit s (fun m => (m.advance t).tapBypass tdi)

/-- SAMPLE_PRELOAD. -/
def execSamplePreload (t : Nat) (pins tdi : List Bool) (s : State) : Host.Outcome State Fault Refusal :=
  commit s (fun m => (m.advance t).tapSample pins tdi)

/-- IDCODE. -/
def execIdcode (t : Nat) (s : State) : Host.Outcome State Fault Refusal := commit s (fun m => (m.advance t).tapIdcode)

/-- EXTEST. -/
def execExtest (t : Nat) (low : Bool) (tdi : List Bool) (s : State) : Host.Outcome State Fault Refusal :=
  commit s (fun m => (m.advance t).tapExtest 0 low tdi)

/-- EXTEST_PULSE. -/
def execExtestPulse (t : Nat) (low : Bool) (tdi : List Bool) (s : State) : Host.Outcome State Fault Refusal :=
  commit s (fun m => (m.advance t).tapExtest 1 low tdi)

/-- EXTEST_TRAIN. -/
def execExtestTrain (t : Nat) (low : Bool) (tdi : List Bool) (s : State) : Host.Outcome State Fault Refusal :=
  commit s (fun m => (m.advance t).tapExtest 2 low tdi)

end Sys2Proof.Machine
end

