-- ==== Sys2Proof/Machine/Dispatch.lean ====
section
/-! DEFINITION. The meaning of each command: one arm for each row of spec/opcode_table.json. -/
namespace Sys2Proof.Machine

/-- What a command does to everything but the queue. -/
def exec (i : Instr) (s : State) : Host.Outcome State Fault Refusal :=
  match i with
  | .registerWrite p addr value => Sys2Proof.Machine.execRegisterWrite p addr value s
  | .pairLoRead p addr => Sys2Proof.Machine.execPairLoRead p addr s
  | .pairLoWrite p addr value => Sys2Proof.Machine.execPairLoWrite p addr value s
  | .pairHiWrite p addr value => Sys2Proof.Machine.execPairHiWrite p addr value s
  | .readClearRegister p addr => Sys2Proof.Machine.execReadClearRegister p addr s
  | .misalignedRegisterAccess p addr size isWrite value => Sys2Proof.Machine.execMisalignedRegisterAccess p addr size isWrite value s
  | .unoccupiedRegisterAccess p addr isWrite value => Sys2Proof.Machine.execUnoccupiedRegisterAccess p addr isWrite value s
  | .timeFrameTimer t => Sys2Proof.Machine.execTimeFrameTimer t s
  | .timeFrameReceived t port frac f => Sys2Proof.Machine.execTimeFrameReceived t port frac f s
  | .parentLostTimeout t backup => Sys2Proof.Machine.execParentLostTimeout t backup s
  | .holdLimitExceeded t => Sys2Proof.Machine.execHoldLimitExceeded t s
  | .delayExchangeTimeout t port => Sys2Proof.Machine.execDelayExchangeTimeout t port s
  | .ppsInEdge t rising => Sys2Proof.Machine.execPpsInEdge t rising s
  | .ppsAnchorTimeout t => Sys2Proof.Machine.execPpsAnchorTimeout t s
  | .ppsOutSecond t => Sys2Proof.Machine.execPpsOutSecond t s
  | .ppsOutFall t => Sys2Proof.Machine.execPpsOutFall t s
  | .timeSet p => Sys2Proof.Machine.execTimeSet p s
  | .timeCapture p => Sys2Proof.Machine.execTimeCapture p s
  | .planLoad p bank => Sys2Proof.Machine.execPlanLoad p bank s
  | .planCheckComplete t bank => Sys2Proof.Machine.execPlanCheckComplete t bank s
  | .planArm p bank => Sys2Proof.Machine.execPlanArm p bank s
  | .planClear p bank => Sys2Proof.Machine.execPlanClear p bank s
  | .planUnload p bank => Sys2Proof.Machine.execPlanUnload p bank s
  | .planActivate t => Sys2Proof.Machine.execPlanActivate t s
  | .planRetire t => Sys2Proof.Machine.execPlanRetire t s
  | .tideBoundary t => Sys2Proof.Machine.execTideBoundary t s
  | .slotOpen t port => Sys2Proof.Machine.execSlotOpen t port s
  | .lodeFrameAccept t l => Sys2Proof.Machine.execLodeFrameAccept t l s
  | .lodeDeadlineTimeout t l => Sys2Proof.Machine.execLodeDeadlineTimeout t l s
  | .schedFrameReceived t p f => Sys2Proof.Machine.execSchedFrameReceived t p f s
  | .schedFrameRoute t p => Sys2Proof.Machine.execSchedFrameRoute t p s
  | .plannedWake t d => Sys2Proof.Machine.execPlannedWake t d s
  | .plannedDomainStop t d => Sys2Proof.Machine.execPlannedDomainStop t d s
  | .lodeFrameReceived t => Sys2Proof.Machine.execLodeFrameReceived t s
  | .lodeLeaseLoss t l => Sys2Proof.Machine.execLodeLeaseLoss t l s
  | .heldFrameRelease t l => Sys2Proof.Machine.execHeldFrameRelease t l s
  | .memoryWriteAck t id => Sys2Proof.Machine.execMemoryWriteAck t id s
  | .lodeFlagWrite t l => Sys2Proof.Machine.execLodeFlagWrite t l s
  | .lodeAtomicPerform t l => Sys2Proof.Machine.execLodeAtomicPerform t l s
  | .receiptSend t l => Sys2Proof.Machine.execReceiptSend t l s
  | .receiptTimer t l => Sys2Proof.Machine.execReceiptTimer t l s
  | .receiptReceived t => Sys2Proof.Machine.execReceiptReceived t s
  | .receiptTimeout t l => Sys2Proof.Machine.execReceiptTimeout t l s
  | .completionWrite t k => Sys2Proof.Machine.execCompletionWrite t k s
  | .completionHeaderWrite t c => Sys2Proof.Machine.execCompletionHeaderWrite t c s
  | .rxCompletionWrite t l => Sys2Proof.Machine.execRxCompletionWrite t l s
  | .waitCountSatisfied t k => Sys2Proof.Machine.execWaitCountSatisfied t k s
  | .waitCountTimeout t k => Sys2Proof.Machine.execWaitCountTimeout t k s
  | .sqDoorbell p h q value => Sys2Proof.Machine.execSqDoorbell p h q value s
  | .cqDoorbell p h c value => Sys2Proof.Machine.execCqDoorbell p h c value s
  | .eqDoorbell p h value => Sys2Proof.Machine.execEqDoorbell p h value s
  | .sqReadComplete t k ext => Sys2Proof.Machine.execSqReadComplete t k ext s
  | .sqRefetchTimer t k => Sys2Proof.Machine.execSqRefetchTimer t k s
  | .stalePhaseTimeout t k => Sys2Proof.Machine.execStalePhaseTimeout t k s
  | .lodeWrite t k => Sys2Proof.Machine.execLodeWrite t k s
  | .lodeAtomic t k => Sys2Proof.Machine.execLodeAtomic t k s
  | .qpSend t k => Sys2Proof.Machine.execQpSend t k s
  | .qpWrite t k => Sys2Proof.Machine.execQpWrite t k s
  | .qpRead t k => Sys2Proof.Machine.execQpRead t k s
  | .qpAtomic t k => Sys2Proof.Machine.execQpAtomic t k s
  | .qpRecv t k => Sys2Proof.Machine.execQpRecv t k s
  | .churnLaunch t k => Sys2Proof.Machine.execChurnLaunch t k s
  | .waitCount t k => Sys2Proof.Machine.execWaitCount t k s
  | .nop t k => Sys2Proof.Machine.execNop t k s
  | .allReduce t k => Sys2Proof.Machine.execAllReduce t k s
  | .reduceScatter t k => Sys2Proof.Machine.execReduceScatter t k s
  | .allGather t k => Sys2Proof.Machine.execAllGather t k s
  | .broadcast t k => Sys2Proof.Machine.execBroadcast t k s
  | .allReduceLowrank t k => Sys2Proof.Machine.execAllReduceLowrank t k s
  | .reduceScatterAdam t k => Sys2Proof.Machine.execReduceScatterAdam t k s
  | .rerun t k => Sys2Proof.Machine.execRerun t k s
  | .eventRingWrite t => Sys2Proof.Machine.execEventRingWrite t s
  | .sqEnable v value => Sys2Proof.Machine.execSqEnable v value s
  | .sqDisable v value => Sys2Proof.Machine.execSqDisable v value s
  | .cqDisable p value => Sys2Proof.Machine.execCqDisable p value s
  | .rxBindEnable p value => Sys2Proof.Machine.execRxBindEnable p value s
  | .ringBaseWrite v kind value => Sys2Proof.Machine.execRingBaseWrite v kind value s
  | .asEnable p value => Sys2Proof.Machine.execAsEnable p value s
  | .transferTileChecked t kind n => Sys2Proof.Machine.execTransferTileChecked t kind n s
  | .invalidateAll v value => Sys2Proof.Machine.execInvalidateAll v value s
  | .invalidateContext v value => Sys2Proof.Machine.execInvalidateContext v value s
  | .invalidateRange v value => Sys2Proof.Machine.execInvalidateRange v value s
  | .invalidateStart t => Sys2Proof.Machine.execInvalidateStart t s
  | .invalidateDone t => Sys2Proof.Machine.execInvalidateDone t s
  | .windowOpen v w => Sys2Proof.Machine.execWindowOpen v w s
  | .windowClose v w => Sys2Proof.Machine.execWindowClose v w s
  | .windowRead v w => Sys2Proof.Machine.execWindowRead v w s
  | .windowCloseComplete t w => Sys2Proof.Machine.execWindowCloseComplete t w s
  | .windowCloseTimeout t w => Sys2Proof.Machine.execWindowCloseTimeout t w s
  | .dirtyHarvest p value => Sys2Proof.Machine.execDirtyHarvest p value s
  | .dirtyHarvestDone t => Sys2Proof.Machine.execDirtyHarvestDone t s
  | .seedWrite v value => Sys2Proof.Machine.execSeedWrite v value s
  | .churnCheckDetect t tile => Sys2Proof.Machine.execChurnCheckDetect t tile s
  | .launchPassEnd t n units last user => Sys2Proof.Machine.execLaunchPassEnd t n units last user s
  | .tileSramEcc t tile word double => Sys2Proof.Machine.execTileSramEcc t tile word double s
  | .tileSramScrub t tile bits => Sys2Proof.Machine.execTileSramScrub t tile bits s
  | .tileSramClear t tile => Sys2Proof.Machine.execTileSramClear t tile s
  | .programLoad v value => Sys2Proof.Machine.execProgramLoad v value s
  | .programCheckComplete t e => Sys2Proof.Machine.execProgramCheckComplete t e s
  | .programUnload v => Sys2Proof.Machine.execProgramUnload v s
  | .launchArgsRead t n => Sys2Proof.Machine.execLaunchArgsRead t n s
  | .launchStartScheduled t n => Sys2Proof.Machine.execLaunchStartScheduled t n s
  | .launchStartUnscheduled t n => Sys2Proof.Machine.execLaunchStartUnscheduled t n s
  | .launchBudgetExceeded t n => Sys2Proof.Machine.execLaunchBudgetExceeded t n s
  | .streamOverrun t n stream offset => Sys2Proof.Machine.execStreamOverrun t n stream offset s
  | .launchComplete t n => Sys2Proof.Machine.execLaunchComplete t n s
  | .dynChunkSend t g => Sys2Proof.Machine.execDynChunkSend t g s
  | .dynChunkRto t g back => Sys2Proof.Machine.execDynChunkRto t g back s
  | .chunkFrameReceived t => Sys2Proof.Machine.execChunkFrameReceived t s
  | .generationDelivered t g gen => Sys2Proof.Machine.execGenerationDelivered t g gen s
  | .groupTimeout t g => Sys2Proof.Machine.execGroupTimeout t g s
  | .collCreate v => Sys2Proof.Machine.execCollCreate v s
  | .collDestroy v => Sys2Proof.Machine.execCollDestroy v s
  | .collReset v => Sys2Proof.Machine.execCollReset v s
  | .collRelease v => Sys2Proof.Machine.execCollRelease v s
  | .creamGranuleAssign p value => Sys2Proof.Machine.execCreamGranuleAssign p value s
  | .creamGranuleRelease p value => Sys2Proof.Machine.execCreamGranuleRelease p value s
  | .peatGranuleAssign p value => Sys2Proof.Machine.execPeatGranuleAssign p value s
  | .peatGranuleRelease p value => Sys2Proof.Machine.execPeatGranuleRelease p value s
  | .granuleClearDone t cream g => Sys2Proof.Machine.execGranuleClearDone t cream g s
  | .creamEcc t word double => Sys2Proof.Machine.execCreamEcc t word double s
  | .creamScrub t bits => Sys2Proof.Machine.execCreamScrub t bits s
  | .peatSymbolError t line pkgs => Sys2Proof.Machine.execPeatSymbolError t line pkgs s
  | .peatScrub t pkgs => Sys2Proof.Machine.execPeatScrub t pkgs s
  | .mirrorStart p => Sys2Proof.Machine.execMirrorStart p s
  | .mirrorSeal p => Sys2Proof.Machine.execMirrorSeal p s
  | .mirrorStop p => Sys2Proof.Machine.execMirrorStop p s
  | .mirrorRollback p => Sys2Proof.Machine.execMirrorRollback p s
  | .mirrorSectorShip t r => Sys2Proof.Machine.execMirrorSectorShip t r s
  | .mirrorSealSend t r => Sys2Proof.Machine.execMirrorSealSend t r s
  | .mirrorMessageReceived t => Sys2Proof.Machine.execMirrorMessageReceived t s
  | .mirrorSealApply t r => Sys2Proof.Machine.execMirrorSealApply t r s
  | .mirrorOrphanTimeout t r => Sys2Proof.Machine.execMirrorOrphanTimeout t r s
  | .qpCreate v => Sys2Proof.Machine.execQpCreate v s
  | .qpDestroy v => Sys2Proof.Machine.execQpDestroy v s
  | .qpReset v => Sys2Proof.Machine.execQpReset v s
  | .qpPacketReceived t => Sys2Proof.Machine.execQpPacketReceived t s
  | .qpAckTimer t q => Sys2Proof.Machine.execQpAckTimer t q s
  | .qpAckReceived t => Sys2Proof.Machine.execQpAckReceived t s
  | .qpRtoExpire t q => Sys2Proof.Machine.execQpRtoExpire t q s
  | .qpRnrRetry t q => Sys2Proof.Machine.execQpRnrRetry t q s
  | .qpLeaseTimeout t q => Sys2Proof.Machine.execQpLeaseTimeout t q s
  | .ccRateUpdate t q => Sys2Proof.Machine.execCcRateUpdate t q s
  | .beFrameSend t p => Sys2Proof.Machine.execBeFrameSend t p s
  | .rateRefill t => Sys2Proof.Machine.execRateRefill t s
  | .qpSample t q => Sys2Proof.Machine.execQpSample t q s
  | .violationReportReceived t => Sys2Proof.Machine.execViolationReportReceived t s
  | .portEnable p port value => Sys2Proof.Machine.execPortEnable p port value s
  | .portDisable p port value => Sys2Proof.Machine.execPortDisable p port value s
  | .portReset p port value => Sys2Proof.Machine.execPortReset p port value s
  | .portTrained t port => Sys2Proof.Machine.execPortTrained t port s
  | .portTrainingTimeout t port => Sys2Proof.Machine.execPortTrainingTimeout t port s
  | .portFaultRetry t port => Sys2Proof.Machine.execPortFaultRetry t port s
  | .linkLoss t port => Sys2Proof.Machine.execLinkLoss t port s
  | .uantoOfferTimer t port => Sys2Proof.Machine.execUantoOfferTimer t port s
  | .uantoOfferReceived t port => Sys2Proof.Machine.execUantoOfferReceived t port s
  | .uantoConfirmReceived t port => Sys2Proof.Machine.execUantoConfirmReceived t port s
  | .uantoRestartTimeout t port => Sys2Proof.Machine.execUantoRestartTimeout t port s
  | .uantoSilentTimeout t port => Sys2Proof.Machine.execUantoSilentTimeout t port s
  | .fecUncorrectable t port => Sys2Proof.Machine.execFecUncorrectable t port s
  | .fecWindowExpire t port => Sys2Proof.Machine.execFecWindowExpire t port s
  | .portFrameReceived t port f => Sys2Proof.Machine.execPortFrameReceived t port f s
  | .pfcReceived t port => Sys2Proof.Machine.execPfcReceived t port s
  | .pauseQuantaExpire t port prio => Sys2Proof.Machine.execPauseQuantaExpire t port prio s
  | .xoffRepeat t port prio => Sys2Proof.Machine.execXoffRepeat t port prio s
  | .pauseWatchdog t port prio => Sys2Proof.Machine.execPauseWatchdog t port prio s
  | .accessFrameReceived t port => Sys2Proof.Machine.execAccessFrameReceived t port s
  | .landedReceived t port => Sys2Proof.Machine.execLandedReceived t port s
  | .accelAckTimeout t port => Sys2Proof.Machine.execAccelAckTimeout t port s
  | .beFrameForward t port => Sys2Proof.Machine.execBeFrameForward t port s
  | .baseTableRelease t => Sys2Proof.Machine.execBaseTableRelease t s
  | .telemetrySnapshot t => Sys2Proof.Machine.execTelemetrySnapshot t s
  | .herdCreate p => Sys2Proof.Machine.execHerdCreate p s
  | .herdSetShare p => Sys2Proof.Machine.execHerdSetShare p s
  | .herdReset p value => Sys2Proof.Machine.execHerdReset p value s
  | .herdDestroy p => Sys2Proof.Machine.execHerdDestroy p s
  | .privGrant p => Sys2Proof.Machine.execPrivGrant p s
  | .privRevoke p => Sys2Proof.Machine.execPrivRevoke p s
  | .herdResetDrainTimeout t => Sys2Proof.Machine.execHerdResetDrainTimeout t s
  | .herdResetComplete t => Sys2Proof.Machine.execHerdResetComplete t s
  | .keyPageAssign p value => Sys2Proof.Machine.execKeyPageAssign p value s
  | .keyInstall p value => Sys2Proof.Machine.execKeyInstall p value s
  | .keyInstallComplete t p => Sys2Proof.Machine.execKeyInstallComplete t p s
  | .keySwitch p => Sys2Proof.Machine.execKeySwitch p s
  | .keyPageRelease p => Sys2Proof.Machine.execKeyPageRelease p s
  | .keyRetireTimeout t page => Sys2Proof.Machine.execKeyRetireTimeout t page s
  | .rekeyWalkDone t page => Sys2Proof.Machine.execRekeyWalkDone t page s
  | .cipherMismatch t e again loss => Sys2Proof.Machine.execCipherMismatch t e again loss s
  | .drbgReseed t e => Sys2Proof.Machine.execDrbgReseed t e s
  | .entropyTestFail t test => Sys2Proof.Machine.execEntropyTestFail t test s
  | .drbgBlockLimit t e => Sys2Proof.Machine.execDrbgBlockLimit t e s
  | .fenceComplete t src => Sys2Proof.Machine.execFenceComplete t src s
  | .faultWindowExpire t src => Sys2Proof.Machine.execFaultWindowExpire t src s
  | .quietPeriodExpire t src => Sys2Proof.Machine.execQuietPeriodExpire t src s
  | .unitReturnComplete t src ok => Sys2Proof.Machine.execUnitReturnComplete t src ok s
  | .handlingEnd t src => Sys2Proof.Machine.execHandlingEnd t src s
  | .faultSourceClear p => Sys2Proof.Machine.execFaultSourceClear p s
  | .faultSourceFence p => Sys2Proof.Machine.execFaultSourceFence p s
  | .faultQueuePop p => Sys2Proof.Machine.execFaultQueuePop p s
  | .crystalStable t => Sys2Proof.Machine.execCrystalStable t s
  | .crystalStartTimeout t => Sys2Proof.Machine.execCrystalStartTimeout t s
  | .crystalLost t => Sys2Proof.Machine.execCrystalLost t s
  | .oscillatorLost t => Sys2Proof.Machine.execOscillatorLost t s
  | .pllLoss t k ref => Sys2Proof.Machine.execPllLoss t k ref s
  | .pllLock t k => Sys2Proof.Machine.execPllLock t k s
  | .pllDomainReturn t k => Sys2Proof.Machine.execPllDomainReturn t k s
  | .domainIdleStop t d idle => Sys2Proof.Machine.execDomainIdleStop t d idle s
  | .domainDemandStart t d => Sys2Proof.Machine.execDomainDemandStart t d s
  | .throttleEvaluate t sensor temp vin pin pkgs => Sys2Proof.Machine.execThrottleEvaluate t sensor temp vin pin pkgs s
  | .powerOnReset t => Sys2Proof.Machine.execPowerOnReset t s
  | .warmReset t => Sys2Proof.Machine.execWarmReset t s
  | .resetCmdWarm p value => Sys2Proof.Machine.execResetCmdWarm p value s
  | .resetCmdPowerOn p value => Sys2Proof.Machine.execResetCmdPowerOn p value s
  | .sysResetPulse t width => Sys2Proof.Machine.execSysResetPulse t width s
  | .bootStepAdvance t w => Sys2Proof.Machine.execBootStepAdvance t w s
  | .firmwareCopyBlock t => Sys2Proof.Machine.execFirmwareCopyBlock t s
  | .bootStepOverrun t w => Sys2Proof.Machine.execBootStepOverrun t w s
  | .serviceLeave p value => Sys2Proof.Machine.execServiceLeave p value s
  | .configDefaultsRepeat t w => Sys2Proof.Machine.execConfigDefaultsRepeat t w s
  | .stageDataAppend p value => Sys2Proof.Machine.execStageDataAppend p value s
  | .stagedFieldWrite p addr value => Sys2Proof.Machine.execStagedFieldWrite p addr value s
  | .commit p => Sys2Proof.Machine.execCommit p s
  | .discard p => Sys2Proof.Machine.execDiscard p s
  | .stagedSetApply t => Sys2Proof.Machine.execStagedSetApply t s
  | .fwuBegin p toCfg => Sys2Proof.Machine.execFwuBegin p toCfg s
  | .fwuWrite p toCfg fromSrc => Sys2Proof.Machine.execFwuWrite p toCfg fromSrc s
  | .fwuAbort p => Sys2Proof.Machine.execFwuAbort p s
  | .fwuPieceWritten t ok => Sys2Proof.Machine.execFwuPieceWritten t ok s
  | .identityKeyReady t ok => Sys2Proof.Machine.execIdentityKeyReady t ok s
  | .quoteGo p value => Sys2Proof.Machine.execQuoteGo p value s
  | .quoteSigned t => Sys2Proof.Machine.execQuoteSigned t s
  | .inputLoss t => Sys2Proof.Machine.execInputLoss t s
  | .highInputEvent t => Sys2Proof.Machine.execHighInputEvent t s
  | .standbyRailLoss t => Sys2Proof.Machine.execStandbyRailLoss t s
  | .standbySenseValid t => Sys2Proof.Machine.execStandbySenseValid t s
  | .smbusBlockRead t straps addr cmd => Sys2Proof.Machine.execSmbusBlockRead t straps addr cmd s
  | .bypass t tdi => Sys2Proof.Machine.execBypass t tdi s
  | .samplePreload t pins tdi => Sys2Proof.Machine.execSamplePreload t pins tdi s
  | .idcode t => Sys2Proof.Machine.execIdcode t s
  | .extest t low tdi => Sys2Proof.Machine.execExtest t low tdi s
  | .extestPulse t low tdi => Sys2Proof.Machine.execExtestPulse t low tdi s
  | .extestTrain t low tdi => Sys2Proof.Machine.execExtestTrain t low tdi s
  | .pauseWatchdogEnd t port prio => Sys2Proof.Machine.execPauseWatchdogEnd t port prio s
  | .entropySourcePass t => Sys2Proof.Machine.execEntropySourcePass t s
  | .domainStartComplete t d => Sys2Proof.Machine.execDomainStartComplete t d s
  | .standbySenseLost t => Sys2Proof.Machine.execStandbySenseLost t s
  | .mirrorRollbackDone t r => Sys2Proof.Machine.execMirrorRollbackDone t r s

end Sys2Proof.Machine
end

