-- ==== Sys2Proof/Safety.lean ====
section
/-! DEFINITION. The terms in which claims about the block are stated: what a command leaves, what it leaves alone, when a register access reaches its register, when
the engines run, and the invariant that every step keeps. -/
namespace Sys2Proof.Machine

/-- The command answers a next state from `s`: the queue as it was, and the module as `P` says. -/
def Runs (c : Instr) (s : State) (P : Mach → Prop) : Prop :=
  ∃ t : State, Sys2Proof.Machine.exec c s = .next t ∧ t.pending = s.pending ∧ P t.m

/-- Every byte of every store reads as before. -/
def SameStores (m n : Mach) : Prop := ∀ (st : Store) (a : Nat), memGet (n.base st) a = memGet (m.base st) a

/-- Every byte of every store reads as before, but for `len` bytes of one store from address `lo` up. -/
def StoresBut (st : Store) (lo len : Nat) (m n : Mach) : Prop :=
  ∀ (st' : Store) (a : Nat), (st' ≠ st ∨ a < lo ∨ lo + len ≤ a) → memGet (n.base st') a = memGet (m.base st') a

/-- Every register reads as before, but for those whose keys `K` names. -/
def RegsBut (K : Nat → Prop) (m n : Mach) : Prop := ∀ k, ¬ K k → n.reg k = m.reg k

/-- Neither a register, but for those that `K` names, nor a byte of a store changes. -/
def Frame (K : Nat → Prop) (m n : Mach) : Prop := RegsBut K m n ∧ SameStores m n

/-- Whether a key is that of a register of the fault collector (00_scope.md: block FLT at 0x0003_0000), where a fault event is counted and captured. -/
abbrev fltKey (k : Nat) : Prop := k < fabricCopy ∧ k % regSpan / 0x10000 = 3

/-- Key of the register of a field. -/
abbrev keyOf (f : Fld) (i : Nat := 0) (s : Nat := 0) : Nat := Mach.fkey f i s

/-- The engines run: no fail-stop (05_queues_descriptors.md R142), boot not halted (17_clocks_power_reset.md R408, R427), not in STANDBY or OFF (R421). -/
abbrev Mach.Running (m : Mach) : Prop := m.failStop = false ∧ m.halted = false ∧ m.asleep = false

/-- A register access reaches the register at a block address: the module serves it; on the fabric path the module is not in fail-stop, the herd is the steward's or
the page's own, and the page's herd is not in DESTROYING (14_herds.md R356, R358, R481; 05_queues_descriptors.md R142). -/
def Mach.admits (m : Mach) (v : Via) (addr : Nat) : Bool :=
  m.served v.path addr &&
  (match v.path with
    | .mgmt => true
    | .fabric h => !m.bit F.QE_STATUS_FAIL_STOP && h == v.page.getD 0) &&
  (match v.page with
    | none => true
    | some g => g == 0 || m.get F.QE_HERD_STATUS_STATE 0 g != 4)

/-- As `Mach.admits`, said as a proposition. -/
abbrev Mach.Admits (m : Mach) (v : Via) (addr : Nat) : Prop := m.admits v addr = true

/-- An access by a path to a register that only the steward reaches. -/
abbrev Mach.Steward (m : Mach) (p : Path) (addr : Nat) : Prop := m.Admits { path := p, page := none } addr

/-- Every byte of every store reads as `w` reads it, with the changes that `w` lists seen. -/
def StoresOf (w n : Mach) : Prop := ∀ (st : Store) (a : Nat), memGet (n.base st) a = w.rd st a

/-- The store of a translated piece, by its target (06_translation_windows.md R157). -/
def segStore (target : Nat) : Option Store := if target = 0 then some .peat else if target = 2 then some .cream else none

/-- Every byte of every store outside some translated pieces reads as before. -/
def SegsBut (segs : List Seg) (m n : Mach) : Prop :=
  ∀ (st : Store) (a : Nat), (∀ g ∈ segs, segStore g.target = some st → a < g.addr ∨ g.addr + g.len ≤ a) → memGet (n.base st) a = memGet (m.base st) a

/-- Submission queue `k` dispatches descriptor `d` now (05_queues_descriptors.md R139, R143): the engines run, 2 ns have passed since the last dispatch, the arbiter's
choice is `k`, `d` is its oldest accepted descriptor, and it passes checks 1 to 5; `foreign` says whether its target is another herd's. Numbers of descriptors in
flight are smaller than the next one's. -/
abbrev Mach.Dispatches (m : Mach) (k : Nat) (d : Desc) (foreign : Bool) : Prop :=
  m.Running ∧ m.qe.lastDispatch + 2 * ns ≤ m.now ∧ m.arbPick.map (·.1) = some k ∧ (m.sq k).fetched.head? = some d ∧ m.formatChecks d = true ∧
  m.malformedReason k d foreign = none ∧ ∀ o ∈ (m.sq k).out, o.uid < m.qe.nextUid

/-- The descriptor has been dispatched: it left the accepted ones and stands last in submission order, with the outcome given (none while it runs). -/
def Mach.Placed (m n : Mach) (k : Nat) (d : Desc) (c : Option Comp) : Prop :=
  n.qe.lastDispatch = m.now ∧ n.qe.nextUid = m.qe.nextUid + 1 ∧ (n.sq k).fetched = (m.sq k).fetched.tail ∧
  (n.sq k).out = (m.sq k).out ++ [{ uid := m.qe.nextUid, index := d.index, tag := d.tag, opcode := d.opcode, comp := c }]

/-- The outcome of one descriptor of queue `k` becomes known, and that of no other (05_queues_descriptors.md R145). -/
def Mach.Finished (m n : Mach) (k uid : Nat) (c : Comp) : Prop :=
  (n.sq k).out = (m.sq k).out.map (fun o => if o.uid = uid ∧ o.comp = none then { o with comp := some c } else o) ∧
  ∀ j, j ≠ k → (n.sq j).out = (m.sq j).out

/-- Keys of the registers that a translation may write: counts and captures of the translation unit, PEAT_UNCORR, and the fault collector's. -/
abbrev xltKey (k : Nat) : Prop :=
  fltKey k ∨ k ∈ [keyOf F.XLT_HIT, keyOf F.XLT_MISS, keyOf F.XLT_FAULT_INFO_VALID, keyOf F.XLT_FAULT_ADDR_LO, keyOf F.XLT_FAULT_ADDR_LO + 4,
    keyOf F.PEAT_UNCORR]

/-- Keys of the status words of the tiles and of CHU_STATUS, which counts them (07_churn_arithmetic.md R204). -/
abbrev churnKey (k : Nat) : Prop := k = keyOf F.CHU_STATUS_BUSY ∨ ∃ i, k = keyOf F.CHU_TILE_STATUS_BUSY 0 i

/-- Keys of the registers of an entry of the program table, of CHU_STORE and of the use of a herd (08_churn_programs.md R213). -/
abbrev progKey (e h k : Nat) : Prop :=
  k = keyOf F.CHU_PROG_STATUS_STATE 0 e ∨ k = keyOf F.CHU_PROG_INFO_HERD 0 e ∨ k = keyOf F.CHU_STORE_FREE_KIB ∨ k = keyOf F.QE_HERD_USE 5 h

/-- Keys of COLL_GROUP_STATUS of a group and of COLL_STATUS (09_collectives.md R262). -/
abbrev collKey (g k : Nat) : Prop := k = keyOf F.COLL_GROUP_STATUS_VALID 0 g ∨ k = keyOf F.COLL_STATUS_GROUPS

/-- What no step loses: every store in canonical form, and nothing of a command left over: no store change, no answer owed to the fabric, no loss to absorb. -/
abbrev Mach.Inv (m : Mach) : Prop :=
  Memory.wf m.peat = true ∧ Memory.wf m.cream = true ∧ Memory.wf m.tsram = true ∧ Memory.wf m.flash = true ∧
  m.wr = [] ∧ m.fabric = [] ∧ m.downs = [] ∧ m.tileDowns = []

end Sys2Proof.Machine
end

