-- ==== Sys2Proof/Certificates/Slice0/Obligations.lean ====
section
/-! DEFINITION. The statements about the block, for the provers. Each names the rules of the spec that it formalises; the terms in which they are written stand in
Sys2Proof/Safety.lean. In every statement `s` is the state before the command, `s.m.advance t` the module at the local time of the command with nothing done yet, and `n` the
module after it. `s.m.Inv` is the invariant that reset meets and every step keeps (`Obligations.ResetKeepsInvariant`, `Obligations.StepKeepsInvariant`). -/
section
open Sys2Proof Sys2Proof.Machine

/-- TIME_SET, TIME_CAPTURE and the PPS pins (02_polder_time.md R53 to R56, R62; 19_module_hardware.md R471). SET loads SLU_TIME_SET at a ROOT or FREE module with no
bank in use, and a root tells its children in its next 16 frames; CAPTURE copies polder time; an edge on PPS_IN of the selected direction captures polder time and
anchors a root that is to anchor; 1.5 s without one ends the anchoring with ANCHOR_LOST; PPS_OUT rises in a new second where the state allows it, and falls 100 ms later.
Where the spec leaves a point open, the model's choices hold: notes/assumptions 2, 15. -/
def Obligations.PolderTimeCommands : Prop :=
  (∀ (s : State) (p : Path), s.m.Inv → s.m.Steward p 0x00300408 → (s.m.tState = tRoot ∨ s.m.tState = tFree) → s.m.planBound = false →
    Runs (.timeSet p) s fun n =>
      n.polder = BitVec.ofNat 64 (s.m.get64 F.SLU_TIME_SET_LO) ∧ n.tm.stepped = (if s.m.tState = tRoot then 16 else s.m.tm.stepped) ∧
      Frame (fun _ => False) s.m n) ∧
  (∀ (s : State) (p : Path), s.m.Inv → s.m.Steward p 0x00300408 → (s.m.tState ≠ tRoot ∧ s.m.tState ≠ tFree ∨ s.m.planBound = true) →
    Runs (.timeSet p) s fun n =>
      n.polder = s.m.polder ∧ n.tm = s.m.tm ∧ n.bit F.SLU_TIME_STATUS_SET_REFUSED = true ∧ Frame (fun k => k = keyOf F.SLU_TIME_STATUS_SET_REFUSED) s.m n) ∧
  (∀ (s : State) (p : Path), s.m.Inv → s.m.Steward p 0x00300408 →
    Runs (.timeCapture p) s fun n =>
      n.get64 F.SLU_CAPTURE_LO = s.m.polder.toNat ∧ n.polder = s.m.polder ∧
      Frame (fun k => k = keyOf F.SLU_CAPTURE_LO ∨ k = keyOf F.SLU_CAPTURE_LO + 4) s.m n) ∧
  (∀ (s : State) (t : Nat) (rising : Bool), s.m.Inv → rising ≠ s.m.bit F.SLU_TIME_CTL_PPS_IN_EDGE →
    Runs (.ppsInEdge t rising) s fun n =>
      n.get64 F.SLU_PPS_CAP_LO = (s.m.advance t).polder.toNat ∧ n.tm.lastEdge = (s.m.advance t).now ∧
      (s.m.tState = tRoot → s.m.plan?.isNone → s.m.bit F.SLU_TIME_CTL_PPS_ANCHOR_EN = true → n.bit F.SLU_TIME_STATUS_ANCHORED = true) ∧
      Frame (fun k => k ∈ [keyOf F.SLU_PPS_CAP_LO, keyOf F.SLU_PPS_CAP_LO + 4, keyOf F.SLU_PPS_OFFSET, keyOf F.SLU_TIME_STATUS_ANCHORED]) s.m n) ∧
  (∀ (s : State) (t : Nat), s.m.Inv → s.m.tState = tRoot → s.m.bit F.SLU_TIME_STATUS_ANCHORED = true →
      s.m.tm.lastEdge + 1500 * ms ≤ (s.m.advance t).now →
    Runs (.ppsAnchorTimeout t) s fun n =>
      n.bit F.SLU_TIME_STATUS_ANCHORED = false ∧ (∃ e ∈ n.evq, e.code = 0x0205 ∧ e.source = srcTime ∧ e.dest = 0) ∧
      Frame (fun k => k = keyOf F.SLU_TIME_STATUS_ANCHORED) s.m n) ∧
  (∀ (s : State) (t : Nat), s.m.Inv → (s.m.advance t).polder.toNat / secondUnits ≠ s.m.tm.ppsSecond →
      (s.m.tState = tLocked ∨ s.m.tState = tHoldover ∨ s.m.tState = tRoot) → s.m.bit F.SLU_TIME_CTL_PPS_OUT_EN = true →
    Runs (.ppsOutSecond t) s fun n =>
      n.tm.ppsOut = true ∧ n.tm.ppsRise = (s.m.advance t).now ∧ Frame (fun _ => False) s.m n) ∧
  (∀ (s : State) (t : Nat), s.m.Inv → s.m.tm.ppsOut = true → s.m.tm.ppsRise + 100 * ms ≤ (s.m.advance t).now →
    Runs (.ppsOutFall t) s fun n => n.tm.ppsOut = false ∧ Frame (fun _ => False) s.m n)

/-- Time frames and the loss of time (02_polder_time.md R45 to R47, R58 to R60). Without a plan each child is sent a time frame at the interval; a frame of the followed
parent at a LOCKED module sets its depth and its error estimate, and the parent counts as heard; a parent whose third frame is overdue is lost; ERR_PS above the limit
stops the module with TIME_STOPPED; an exchange without reply in 10 µs is discarded and run again.
Where the spec leaves a point open, the model's choices hold: notes/assumptions 2, 6. -/
def Obligations.TimeFrames : Prop :=
  (∀ (s : State) (t : Nat), s.m.Inv → s.m.active = none → s.m.tState ≠ tFree → s.m.tm.nextFrame ≤ (s.m.advance t).now →
    Runs (.timeFrameTimer t) s fun n =>
      n.tm.nextFrame = (s.m.advance t).now + frameInterval ∧ n.sent.length = s.m.sent.length + s.m.childPorts.length ∧ SameStores s.m n) ∧
  (∀ (s : State) (t port frac i : Nat) (f : TimeFrame), s.m.Inv → s.m.portUp port = true → f.twoWay = false → f.stopped = false → f.stepped = false →
      f.holdover = false → s.m.tree.isSome = true → i < 2 → s.m.parentPort i = some port → (i = 1 → s.m.parentPort 0 ≠ some port) →
      s.m.bit F.SLU_LINK_DELAY_VALID port = true → s.m.tState = tLocked → s.m.followed = i →
    Runs (.timeFrameReceived t port frac f) s fun n =>
      n.tState = tLocked ∧ n.get F.SLU_TIME_STATUS_DEPTH = (f.depth + 1) % 2 ^ F.SLU_TIME_STATUS_DEPTH.wd ∧ n.errShown = min 0xFFFF (f.errPs + 25) ∧
      (n.parent i).valid = true ∧ (n.parent i).lastLocal = (s.m.advance t).now ∧ SameStores s.m n) ∧
  (∀ (s : State) (t : Nat) (backup : Bool) (d : DWord), s.m.Inv → (s.m.parent backup.toNat).valid = true → (s.m.advance t).thirdDue backup.toNat = some d →
      reached (s.m.advance t).polder (d + BitVec.ofNat 64 us) = true →
    Runs (.parentLostTimeout t backup) s fun n => (n.parent backup.toNat).valid = false ∧ SameStores s.m n) ∧
  (∀ (s : State) (t : Nat), s.m.Inv → s.m.active = none → (s.m.tState = tLocked ∨ s.m.tState = tHoldover) → (s.m.advance t).errOverLimit = true →
    Runs (.holdLimitExceeded t) s fun n =>
      n.tState = tStopped ∧ n.plan.schedStopped = true ∧ n.tm.ppsOut = false ∧ (∃ e ∈ n.evq, e.code = 0x0204 ∧ e.source = srcTime) ∧
      Frame (fun k => fltKey k ∨ k = keyOf F.SLU_TIME_STATUS_STATE ∨ k = keyOf F.SLU_HOLD_COUNT_STOPS) s.m n) ∧
  (∀ (s : State) (t port b : Nat), s.m.Inv → (s.m.ltime port).measuring = true → (s.m.ltime port).began = some b → b + 10 * us ≤ (s.m.advance t).now →
    Runs (.delayExchangeTimeout t port) s fun n =>
      (n.ltime port).began = some (s.m.advance t).now ∧ n.sent.length = s.m.sent.length + 1 ∧ SameStores s.m n)

/-- The commands of SLU_PLAN_CMD in the states that have a row for them, and what each does in the others (03_sluice_plans.md R66 to R68, R94). LOAD copies LENGTH bytes of
the bank's half of the plan region and the bank is CHECKING; the first LOAD of a bring-up in service ends it at step 10; ARM needs a time state, no RETIRING bank, and
100 µs before TIDE_BASE or, behind an ACTIVE plan, a whole number of its tides and another epoch; CLEAR empties the bank; UNLOAD retires the ACTIVE one.
Where the spec leaves a point open, the model's choices hold: notes/assumptions 19, 20, 31. -/
def Obligations.PlanCommands : Prop :=
  (∀ (s : State) (p : Path) (b : Nat), b < 2 → s.m.Inv → s.m.Steward p 0x00300008 → (s.m.bankState b = 0 ∨ s.m.bankState b = 2) →
      s.m.get64 F.SLU_PLAN_REGION_LO ≠ 2 ^ 64 - 1 → s.m.get F.CLK_BOOT_STEP ≠ 9 →
    Runs (.planLoad p b) s fun n =>
      n.bankState b = 1 ∧ n.get F.SLU_PLAN_CMD_BANK = b ∧ n.plan.loadSeen = true ∧
      (n.bank b).image = s.m.rdBytes .peat (s.m.get64 F.SLU_PLAN_REGION_LO + b * 2 ^ 28)
        (min (leNat (s.m.rdBytes .peat (s.m.get64 F.SLU_PLAN_REGION_LO + b * 2 ^ 28 + 8) 4)) (2 ^ 28)) ∧
      Frame (fun k => k = keyOf F.SLU_BANK_STATUS_BANK0 ∨ k = keyOf F.SLU_PLAN_CMD_BANK) s.m n) ∧
  (∀ (s : State) (p : Path) (b : Nat), b < 2 → s.m.Inv → s.m.Steward p 0x00300008 → (s.m.bankState b = 0 ∨ s.m.bankState b = 2) →
      s.m.get64 F.SLU_PLAN_REGION_LO ≠ 2 ^ 64 - 1 → s.m.get F.CLK_BOOT_STEP = 9 → s.m.bit F.CFG_STATUS_DEFAULTS = false →
      (∀ q, q < 32 → s.m.get F.PORT_STATUS_STATE q ≠ 3) → (∀ q, q < 32 → (s.m.pt q).retrain = false) →
    Runs (.planLoad p b) s fun n => n.bankState b = 1 ∧ n.get F.CLK_BOOT_STEP = 10 ∧ n.get F.CLK_STATUS_POWER_STATE = 2) ∧
  (∀ (s : State) (p : Path) (b : Nat) (pl : Plan), b < 2 → s.m.Inv → s.m.Steward p 0x00300008 → s.m.bankState b = 3 → (s.m.bank b).plan = some pl →
      (s.m.tState = tLocked ∨ s.m.tState = tRoot) → s.m.bankState (1 - b) ≠ 6 →
      ((s.m.active = none ∧ (100 * us : Nat) ≤ timeDiff (BitVec.ofNat 64 pl.tideBase) s.m.polder) ∨
       (∃ a o, s.m.active = some (a, o) ∧ (o.tideUnits : Nat) ≤ timeDiff (BitVec.ofNat 64 pl.tideBase) s.m.polder ∧
          timeDiff (BitVec.ofNat 64 pl.tideBase) (BitVec.ofNat 64 o.tideBase) % (o.tideUnits : Nat) = 0 ∧ pl.epoch ≠ o.epoch)) →
    Runs (.planArm p b) s fun n =>
      n.bankState b = 4 ∧ n.get F.SLU_BANK_STATUS_ARM_REFUSED = s.m.get F.SLU_BANK_STATUS_ARM_REFUSED ∧ (n.bank b).plan = some pl ∧
      Frame (fun k => k = keyOf F.SLU_BANK_STATUS_BANK0 ∨ k = keyOf F.SLU_PLAN_CMD_BANK) s.m n) ∧
  (∀ (s : State) (p : Path) (b : Nat) (pl : Plan), b < 2 → s.m.Inv → s.m.Steward p 0x00300008 → s.m.bankState b = 3 → (s.m.bank b).plan = some pl →
      ¬ (s.m.tState = tLocked ∨ s.m.tState = tRoot) →
    Runs (.planArm p b) s fun n => n.bankState b = 3 ∧ n.bit F.SLU_BANK_STATUS_ARM_REFUSED = true) ∧
  (∀ (s : State) (p : Path) (b : Nat), b < 2 → s.m.Inv → s.m.Steward p 0x00300008 → (s.m.bankState b = 2 ∨ s.m.bankState b = 3 ∨ s.m.bankState b = 4) →
    Runs (.planClear p b) s fun n =>
      n.bankState b = 0 ∧ (n.bank b).plan = none ∧ (n.bank b).image = [] ∧
      n.get64 (if b = 0 then F.SLU_PLAN_ID0_LO else F.SLU_PLAN_ID1_LO) = 0 ∧ SameStores s.m n) ∧
  (∀ (s : State) (p : Path) (b : Nat) (pl : Plan), b < 2 → s.m.Inv → s.m.Steward p 0x00300008 → s.m.bankState b = 5 → (s.m.bank b).plan = some pl →
    Runs (.planUnload p b) s fun n =>
      n.bankState b = 6 ∧ (n.bank b).stopAt = some (s.m.nextTide pl) ∧ (n.bank b).plan = some pl ∧ n.get F.SLU_BANK_STATUS_EPOCH = 0 ∧
      n.get F.SLU_MAX_FLIGHT = 0 ∧ n.get F.RTE_STATUS_TABLE = 0 ∧
      Frame (fun k => k ∈ [keyOf F.SLU_BANK_STATUS_BANK0, keyOf F.SLU_PLAN_CMD_BANK, keyOf F.SLU_MAX_FLIGHT, keyOf F.RTE_STATUS_TABLE]) s.m n) ∧
  (∀ (s : State) (p : Path) (b : Nat), b < 2 → s.m.Inv → s.m.Steward p 0x00300008 →
    ((s.m.bankState b ≠ 0 → s.m.bankState b ≠ 2 → Runs (.planLoad p b) s fun n => n.bit F.SLU_BANK_STATUS_CMD_DROPPED = true ∧ n.bankState b = s.m.bankState b) ∧
     (s.m.bankState b ≠ 3 → Runs (.planArm p b) s fun n => n.bit F.SLU_BANK_STATUS_CMD_DROPPED = true ∧ n.bankState b = s.m.bankState b) ∧
     (s.m.bankState b < 2 ∨ 4 < s.m.bankState b → Runs (.planClear p b) s fun n => n.bit F.SLU_BANK_STATUS_CMD_DROPPED = true ∧ n.bankState b = s.m.bankState b) ∧
     (s.m.bankState b ≠ 5 → Runs (.planUnload p b) s fun n => n.bit F.SLU_BANK_STATUS_CMD_DROPPED = true ∧ n.bankState b = s.m.bankState b)))

/-- Plans over time (02_polder_time.md R51; 03_sluice_plans.md R67, R69, R92; 00_scope.md R13). The checks of a CHECKING bank end in REFUSED with the refusal's code and the bank
empty, or in ADMITTED with the plan that the image says; the ARMED bank is ACTIVE from TIDE_BASE; a later tide puts Tide-class fields in force and starts the drop counts
over; MAX_FLIGHT after it stopped the RETIRING bank is EMPTY, and PLAN_RETIRED is raised.
Where the spec leaves a point open, the model's choices hold: notes/assumptions 17, 18, 20, 21. -/
def Obligations.PlanTimes : Prop :=
  (∀ (s : State) (t b : Nat), b < 2 → s.m.Inv → s.m.Running → s.m.bankState b = 1 → (∀ q, q < 32 → s.m.retraining q = false) →
    Runs (.planCheckComplete t b) s fun n =>
      (match (s.m.advance t).admitEarly (s.m.bank b).image with
        | some r => n.bankState b = 2 ∧ n.get F.SLU_REFUSE_CODE_CODE = r.code % 2 ^ F.SLU_REFUSE_CODE_CODE.wd ∧ (n.bank b).plan = none
        | none =>
          match ((s.m.advance t).admitLate (planOf (s.m.bank b).image)).2 with
          | some r => n.bankState b = 2 ∧ n.get F.SLU_REFUSE_CODE_CODE = r.code % 2 ^ F.SLU_REFUSE_CODE_CODE.wd ∧ (n.bank b).plan = none
          | none => n.bankState b = 3 ∧ (n.bank b).plan = some (planOf (s.m.bank b).image)) ∧
      (∃ e ∈ n.evq, e.source = srcSlu ∧ e.dest = 0 ∧ (e.code = 0x0300 ∨ e.code = 0x0301)) ∧ SameStores s.m n) ∧
  (∀ (s : State) (t b : Nat) (p : Plan), s.m.Inv → s.m.Running → s.m.bankIn 4 = some (b, p) →
      reached (s.m.advance t).polder (BitVec.ofNat 64 p.tideBase) = true → s.m.lode.tx = [] → s.m.lode.rx = [] → s.m.coll.groups = [] →
    Runs (.planActivate t) s fun n =>
      n.plan.tideNo = 0 ∧ n.plan.drops = [] ∧ n.tideOld = [] ∧ (∃ e ∈ n.evq, e.code = 0x0302 ∧ e.source = srcSlu ∧ e.dest = 0) ∧
      (p.isSlack 0 = false → n.bankState b = 5 ∧ n.bit F.SLU_BANK_STATUS_SWITCHED = true)) ∧
  (∀ (s : State) (t b k : Nat) (p : Plan), s.m.Inv → s.m.Running → s.m.active = some (b, p) → p.tideAt (s.m.advance t).polder = some k → s.m.plan.tideNo < k →
    Runs (.tideBoundary t) s fun n => n.plan.tideNo = k ∧ n.plan.drops = [] ∧ n.tideOld = [] ∧ SameStores s.m n) ∧
  (∀ (s : State) (t b : Nat) (p : Plan) (e : DWord), s.m.Inv → s.m.Running → s.m.retiring = some (b, p) → (s.m.bank b).stopAt = some e → (s.m.bank b).unload = false →
      reached (s.m.advance t).polder (e + BitVec.ofNat 64 p.maxFlight) = true → s.m.rte.held = [] →
    Runs (.planRetire t) s fun n =>
      n.bankState b = 0 ∧ (n.bank b).plan = none ∧ (∃ ev ∈ n.evq, ev.code = 0x0303 ∧ ev.source = srcSlu ∧ ev.dest = 0) ∧ SameStores s.m n)

/-- Slots and planned wake (03_sluice_plans.md R71, R82, R96; 02_polder_time.md R45). In a LODE slot the port sends the accepted frame whose slot it is, once; in a TIME slot a
time frame; a domain is started when its planned use is at most 2 µs away, and stopped when its next planned use is at least MIN_IDLE away.
Where the spec leaves a point open, the model's choices hold: notes/assumptions 5, 34. -/
def Obligations.SlotsAndPlannedWake : Prop :=
  (∀ (s : State) (t q i l : Nat) (p : Plan) (r : LodeOut) (a : AccFrame), s.m.Inv → s.m.Running → (s.m.advance t).slotNow q = some (p, i) →
      s.m.plan.opened.contains (q, p.opening q i) = false → p.kindIn q i = (1, l) → p.out l = some r → r.coll = false →
      (s.m.ltx r.lode).frames.find? (fun x => x.epoch == p.epoch && (x.slot == i && !x.sent)) = some a →
      s.m.schedUp q = true → s.m.portCiphers q r.encrypted = true → s.m.ciph.frames = [] →
    Runs (.slotOpen t q) s fun n =>
      n.sent = s.m.sent ++ [.sched q { epoch := p.epoch, dstModule := r.dstModule, tailOk := true, shadow := false, body := .lode a.frame }] ∧
      n.plan.opened.contains (q, p.opening q i) = true ∧ SameStores s.m n) ∧
  (∀ (s : State) (t q i j : Nat) (p : Plan), s.m.Inv → s.m.Running → (s.m.advance t).slotNow q = some (p, i) →
      s.m.plan.opened.contains (q, p.opening q i) = false → p.kindIn q i = (4, j) → s.m.tState ≠ tFree → s.m.get F.PORT_STATUS_STATE q = 3 →
    Runs (.slotOpen t q) s fun n => (∃ f, n.sent = s.m.sent ++ [.time q f] ∧ f.twoWay = false) ∧ SameStores s.m n) ∧
  (∀ (s : State) (t d g : Nat), s.m.Inv → s.m.Running → d < 60 → (s.m.advance t).plannedGap d = some g → g ≤ 2 * us → s.m.bit F.CLK_DOM_STATUS_RUNNING 0 d = false →
      alGet s.m.clk.starting d = none →
    Runs (.plannedWake t d) s fun n =>
      alGet n.clk.starting d = some (s.m.advance t).now ∧ n.bit F.CLK_DOM_STATUS_PLANNED 0 d = true ∧
      Frame (fun k => k = keyOf F.CLK_DOM_STATUS_PLANNED 0 d) s.m n) ∧
  (∀ (s : State) (t d g : Nat), s.m.Inv → s.m.Running → (s.m.advance t).plannedGap d = some g → 0 < g → s.m.inForce F.SLU_WAKE_CTL_MIN_IDLE * us ≤ g →
      s.m.active.isSome = true → s.m.inForce F.SLU_WAKE_CTL_PLAN_WAKE = 1 → s.m.bit F.CLK_DOM_STATUS_RUNNING 0 d = true → alGet s.m.clk.starting d = none →
      s.m.domainBusy d = false →
    Runs (.plannedDomainStop t d) s fun n =>
      n.bit F.CLK_DOM_STATUS_RUNNING 0 d = false ∧ n.bit F.CLK_DOM_STATUS_PLANNED 0 d = true ∧
      Frame (fun k => k = keyOf F.CLK_DOM_STATUS_RUNNING 0 d) s.m n)

/-- Lode descriptors (03_sluice_plans.md R78, R94; 04_lodes_ordering.md R102; 05_queues_descriptors.md R139, R140). A descriptor whose lode the active plan does not carry
completes with PLAN_ABSENT; else one within the lode's capacity joins the lode's queue of messages: a LODE_WRITE with its length, window, offset and flag once its
source range is checked (with none where it has no payload), a LODE_ATOMIC with its operation and operand.
Where the spec leaves a point open, the model's choices hold: notes/assumptions 38. -/
def Obligations.LodeDescriptors : Prop :=
  (∀ (s : State) (t k : Nat) (d : Desc), s.m.Inv → (s.m.advance t).Dispatches k d false → s.m.outRec d.target = none →
    (d.opcode = 1 → Runs (.lodeWrite t k) s fun n =>
      (s.m.advance t).Placed n k d (some { status := stPlanAbsent, bytes := 0, deadline := false, time := (s.m.advance t).polder.toNat, detail := 0 }) ∧
      n.lode = s.m.lode ∧ Frame (fun x => x = keyOf F.QE_SQ_STATUS_IDLE 0 k) s.m n) ∧
    (d.opcode = 2 → Runs (.lodeAtomic t k) s fun n =>
      (s.m.advance t).Placed n k d (some { status := stPlanAbsent, bytes := 0, deadline := false, time := (s.m.advance t).polder.toNat, detail := 0 }) ∧
      n.lode = s.m.lode ∧ Frame (fun x => x = keyOf F.QE_SQ_STATUS_IDLE 0 k) s.m n)) ∧
  (∀ (s : State) (t k : Nat) (d : Desc) (r : LodeOut), s.m.Inv → (s.m.advance t).Dispatches k d (r.herd != s.m.sqHerd k) → d.opcode = 1 →
      s.m.outRec d.target = some r → lodeBytes d.length d.flag false ≤ r.slots * frameMax →
    Runs (.lodeWrite t k) s fun n =>
      (∃ c, (s.m.advance t).Placed n k d c ∧ (d.length = 0 → c = none) ∧ (∀ x, c = some x → x.bytes = 0 ∧ n.lode = s.m.lode) ∧
        (c = none → ∃ g, (n.ltx d.target).queue = (s.m.ltx d.target).queue ++ [g] ∧ g.sq = k ∧ g.uid = s.m.qe.nextUid ∧ g.len = d.length ∧
          g.window = d.bits 3 0 32 ∧ g.woffset = d.bits 4 0 64 ∧ g.flag = (if d.flag then some (d.bits 5 0 32, d.bits 6 0 64, d.bits 7 0 64) else none) ∧
          g.atomic = none ∧ g.resync = d.resync ∧ g.done = 0)) ∧
      (n.ltx d.target).seq = (s.m.ltx d.target).seq ∧ Frame (fun x => xltKey x ∨ x = keyOf F.QE_SQ_STATUS_IDLE 0 k) s.m n) ∧
  (∀ (s : State) (t k : Nat) (d : Desc) (r : LodeOut), s.m.Inv → (s.m.advance t).Dispatches k d (r.herd != s.m.sqHerd k) → d.opcode = 2 →
      s.m.outRec d.target = some r → 16 ≤ r.slots * frameMax →
    Runs (.lodeAtomic t k) s fun n =>
      (s.m.advance t).Placed n k d none ∧
      (∃ g, (n.ltx d.target).queue = (s.m.ltx d.target).queue ++ [g] ∧ g.sq = k ∧ g.uid = s.m.qe.nextUid ∧ g.len = 0 ∧ g.segs = [] ∧
        g.window = d.bits 3 0 32 ∧ g.woffset = d.bits 4 0 64 ∧ g.atomic = some (d.bits 2 0 8, d.bits 5 0 64) ∧ g.resync = d.resync) ∧
      Frame (fun x => x = keyOf F.QE_SQ_STATUS_IDLE 0 k) s.m n)

/-- The source of a lode (03_sluice_plans.md R79, R82; 04_lodes_ordering.md R101, R116; 01_architecture.md R28). The next frame of the oldest message takes the next SEQ
and the next slot that has not opened, a covered lode's the slot of the other path too; the message awaits its receipt once its last frame is accepted. A receipt of
outcome DONE that spans an awaited message completes it, with the deadline as time. Without a receipt it completes with REMOTE_TIMEOUT a lease period after the
deadline, or at the deadline where the lode has no path left.
Where the spec leaves a point open, the model's choices hold: notes/assumptions 34, 35. -/
def Obligations.LodeSource : Prop :=
  (∀ (s : State) (t l : Nat) (p : Plan) (r : LodeOut) (g : LodeMsg) (rest : List LodeMsg) (slot : Nat) (sh : Option Nat), s.m.Inv → s.m.Running →
      s.m.plan? = some p → s.m.outRec l = some r → (s.m.ltx l).queue = g :: rest → (r.encrypted = true → s.m.keyOpen r.keyPage = true) →
      (s.m.advance t).nextSlot p r (match (s.m.ltx l).lastSlot with | some (e, k) => if e = p.epoch then some k else none | none => none) = some (slot, sh) →
    Runs (.lodeFrameAccept t l) s fun n =>
      (n.ltx l).seq = seqNext (s.m.ltx l).seq ∧ (n.ltx l).lastSlot = some (p.epoch, slot) ∧
      (r.encrypted = false → ∃ a, (n.ltx l).frames = (s.m.ltx l).frames ++ [a] ∧ a.epoch = p.epoch ∧ a.slot = slot ∧ a.shadowSlot = sh ∧ a.sent = false ∧
        a.shadowSent = sh.isNone ∧ a.frame.seq = (s.m.ltx l).seq ∧ a.frame.dstLode = r.dstLode ∧ a.frame.frameIdx = g.done ∧ a.frame.first = (g.done == 0) ∧
        a.frame.last = (g.done + 1 == lodeFrames g.len g.flag.isSome g.atomic.isSome) ∧ a.frame.window = g.window ∧
        a.frame.woffset = g.woffset + g.done * frameMax) ∧
      (g.done + 1 = lodeFrames g.len g.flag.isSome g.atomic.isSome → (n.ltx l).queue = rest ∧
        ∃ w, (n.ltx l).awaited = (s.m.ltx l).awaited ++ [w] ∧ w.uid = g.uid ∧ w.sq = g.sq ∧ w.bytes = g.len ∧ w.lastSeq = (s.m.ltx l).seq ∧ w.lease = s.m.lease ∧
          w.deadline = p.opening r.port slot + BitVec.ofNat 64 (slotUnits + r.latency)) ∧
      SameStores s.m n) ∧
  (∀ (s : State) (t l : Nat) (r : LodeOut) (w : Awaited) (rest : List Awaited), s.m.Inv → s.m.Running → s.m.outRec l = some r → (s.m.ltx l).awaited = w :: rest →
      s.m.lodeHasPath r = false → reached (s.m.advance t).polder w.deadline = true →
    Runs (.lodeDeadlineTimeout t l) s fun n =>
      (n.ltx l).awaited = (w :: rest).filter (fun y => y.uid != w.uid) ∧
      s.m.Finished n w.sq w.uid { status := stRemoteTimeout, bytes := w.bytes, deadline := true, time := w.deadline.toNat, detail := 0 } ∧
      Frame (fun _ => False) s.m n) ∧
  (∀ (s : State) (t l : Nat) (w : Awaited) (rest : List Awaited), s.m.Inv → s.m.Running → (s.m.ltx l).awaited = w :: rest →
      reached (s.m.advance t).polder (w.deadline + BitVec.ofNat 64 w.lease) = true →
    Runs (.receiptTimeout t l) s fun n =>
      (n.ltx l).awaited = (w :: rest).filter (fun y => y.uid != w.uid) ∧
      s.m.Finished n w.sq w.uid { status := stRemoteTimeout, bytes := w.bytes, deadline := true, time := w.deadline.toNat, detail := 0 } ∧
      Frame (fun _ => False) s.m n) ∧
  (∀ (s : State) (t l : Nat) (c : CtlMsg) (w : Awaited), s.m.Inv → s.m.Running →
      s.m.beq.ctl.find? (fun c => leAt c.bytes 0 1 / 16 == 3) = some c → leAt (c.bytes.drop 32) 1 1 = stDone → leAt (c.bytes.drop 32) 4 4 = l →
      (s.m.ltx l).awaited.filter (fun w => seqLe (leAt (c.bytes.drop 32) 8 4) w.firstSeq && seqLe w.lastSeq (leAt (c.bytes.drop 32) 12 4)) = [w] →
    Runs (.receiptReceived t) s fun n =>
      (n.ltx l).awaited = (s.m.ltx l).awaited.filter (fun y => y.uid != w.uid) ∧
      s.m.Finished n w.sq w.uid { status := stDone, bytes := w.bytes, deadline := true, time := w.deadline.toNat, detail := 0 } ∧
      n.beq.ctl = s.m.beq.ctl.erase c ∧ Frame (fun _ => False) s.m n)

/-- Frames at their destination (04_lodes_ordering.md R103 to R106, R118). A frame for no endpoint is counted and goes nowhere, a later copy is counted and goes nowhere;
the frame that completes a message resolves it and moves the lowest SEQ past it, and its bytes go where the window check of its message said; a lease period without
arrival makes the first frame missing lost, which fails its message and breaks the endpoint; a held frame is handed over in its turn.
Where the spec leaves a point open, the model's choices hold: notes/assumptions 9, 35. -/
def Obligations.LodeArrival : Prop :=
  (∀ (s : State) (t : Nat) (f : LodeFrame) (sh : Bool) (m' : Mach), s.m.Inv → s.m.Running → (s.m.advance t).takeHere = some (f, sh, m') →
    (s.m.inRec f.dstLode = none →
      Runs (.lodeFrameReceived t) s fun n =>
        n.get F.SLU_LODE_UNKNOWN = min (s.m.get F.SLU_LODE_UNKNOWN + 1) (2 ^ F.SLU_LODE_UNKNOWN.wd - 1) ∧ n.lode = m'.lode ∧
        Frame (fun k => k = keyOf F.SLU_LODE_UNKNOWN) s.m n) ∧
    (∀ rec, s.m.inRec f.dstLode = some rec → rec.covered = false →
        (f.seq ∈ (s.m.lrx f.dstLode).placed ∨ f.seq ∈ (s.m.lrx f.dstLode).lost ∨ seqLe (s.m.lrx f.dstLode).lowest f.seq = false) →
      Runs (.lodeFrameReceived t) s fun n =>
        n.get F.SLU_LODE_DUP = min (s.m.get F.SLU_LODE_DUP + 1) (2 ^ F.SLU_LODE_DUP.wd - 1) ∧ (n.lrx f.dstLode).msgs = (s.m.lrx f.dstLode).msgs ∧
        (n.lrx f.dstLode).placed = (s.m.lrx f.dstLode).placed ∧ (n.lrx f.dstLode).lastArrival = (s.m.advance t).now ∧
        Frame (fun k => k = keyOf F.SLU_LODE_DUP) s.m n) ∧
    (∀ rec g, s.m.inRec f.dstLode = some rec → rec.covered = false → rec.encrypted = false → (s.m.lrx f.dstLode).msgs = [g] → g.fail = none →
        g.last = none → f.frameIdx = 1 → f.seq < 2 ^ 32 - 1 → 0 < f.seq → g.first = f.seq - 1 → (s.m.lrx f.dstLode).lowest = g.first → g.first ∈ (s.m.lrx f.dstLode).placed →
        f.seq ∉ (s.m.lrx f.dstLode).placed → (s.m.lrx f.dstLode).lost = [] → (s.m.lrx f.dstLode).held = [] → (s.m.lrx f.dstLode).broken = none →
        (s.m.lrx f.dstLode).top.2 = none → sh = false → f.last = true → f.flag = false → f.atomic = false →
      Runs (.lodeFrameReceived t) s fun n =>
        (n.lrx f.dstLode).lowest = f.seq + 1 ∧ (∃ x ∈ (n.lrx f.dstLode).msgs, x.first = g.first ∧ x.last = some f.seq ∧ x.resolved = true ∧ x.done = (g.flag.isNone && g.atomic.isNone) ∧
          x.when' = (s.m.advance t).polder) ∧
        StoresOf ((s.m.advance t).writeSegs g.herd g.asid 1 f.dstLode g.first true (Mach.subSegs g.segs (f.woffset % 2 ^ 48 - g.base) f.payload.length) f.payload) n)) ∧
  (∀ (s : State) (t l i : Nat) (rec : LodeIn) (g : RxMsg), s.m.Inv → s.m.Running → s.m.inRec l = some rec →
      (s.m.lrx l).lastArrival + s.m.leaseAt (s.m.lrx l).lastArrival ≤ (s.m.advance t).now → g ∈ (s.m.lrx l).msgs → g.resolved = false → i < 64 →
      ((s.m.lrx l).lowest + i) % 2 ^ 32 ∉ (s.m.lrx l).placed → ((s.m.lrx l).lowest + i) % 2 ^ 32 ∉ (s.m.lrx l).lost →
    Runs (.lodeLeaseLoss t l) s fun n =>
      n.get F.SLU_LODE_LOST = min (s.m.get F.SLU_LODE_LOST + 1) (2 ^ F.SLU_LODE_LOST.wd - 1) ∧ (n.lrx l).broken.isSome = true ∧
      ((s.m.lrx l).broken = none → ∃ e ∈ n.evq, e.code = 0x0401 ∧ e.dest = rec.herd ∧ e.info0 = BitVec.ofNat 64 l) ∧
      Frame (fun k => k = keyOf F.SLU_LODE_LOST ∨ k = keyOf F.SLU_LODE_REFUSED) s.m n) ∧
  (∀ (s : State) (t l : Nat) (f : LodeFrame) (g : RxMsg), s.m.Inv → s.m.Running →
      (s.m.lrx l).held.find? (fun f => Mach.rxTurn (s.m.lrx l) ((f.seq + 2 ^ 32 - f.frameIdx) % 2 ^ 32)) = some f →
      Mach.rxFind (s.m.lrx l) ((f.seq + 2 ^ 32 - f.frameIdx) % 2 ^ 32) = some g →
    Runs (.heldFrameRelease t l) s fun n =>
      (n.lrx l).held = (s.m.lrx l).held.filter (fun y => y.seq != f.seq) ∧
      StoresOf (if g.fail.isSome then s.m.advance t else (s.m.advance t).handFrame l g f) n)

/-- Flags, atomics and reports of a message (04_lodes_ordering.md R108 to R110, R115, R117). A flag is one 8-byte write once the message and all before it have landed; an
atomic replaces 8 bytes by the operation's result; one receipt goes to the source for the oldest unreported messages of one outcome, at the latest 1 µs after they
resolved; a receive completion follows for a bound endpoint, and the message is then reported.
Where the spec leaves a point open, the model's choices hold: notes/assumptions 36, 49. -/
def Obligations.LodeCompletion : Prop :=
  (∀ (s : State) (t l : Nat) (g : RxMsg) (segs : List Seg) (v h a : Nat), s.m.Inv → s.m.Running → s.m.flagReady l = some g → g.flag = some (segs, v, h, a) →
    Runs (.lodeFlagWrite t l) s fun n =>
      n.lrx l = Mach.rxPut (s.m.lrx l) { g with done := true } ∧ StoresOf ((s.m.advance t).writeSegs h a 1 l g.first true segs (leBytes 8 v)) n ∧
      (s.m.bit F.XLT_AS_CFG_DIRTY_EN 0 (Mach.asSel h a) = false → SegsBut segs s.m n ∧
        ∀ sg, segs = [sg] → sg.target = 0 → sg.len = 8 → n.rdBytes .peat sg.addr 8 = leBytes 8 v)) ∧
  (∀ (s : State) (t l : Nat) (g : RxMsg) (addr op v : Nat), s.m.Inv → s.m.Running → s.m.flagReady l = some g → g.flag = none → g.atomic = some (addr, op, v) →
      s.m.bit F.XLT_AS_CFG_DIRTY_EN 0 (Mach.asSel g.herd g.asid) = false →
    Runs (.lodeAtomicPerform t l) s fun n =>
      n.lrx l = Mach.rxPut (s.m.lrx l) { g with done := true } ∧
      n.rdBytes .peat addr 8 = leBytes 8 (atomicOp op (BitVec.ofNat 64 (leNat (s.m.rdBytes .peat addr 8))) (BitVec.ofNat 64 v)).toNat ∧
      StoresBut .peat addr 8 s.m n) ∧
  (∀ (s : State) (t l : Nat) (rec : LodeIn) (g : RxMsg) (rest : List RxMsg), s.m.Inv → s.m.Running → s.m.inRec l = some rec →
      (s.m.lrx l).msgs.filter (fun g => !g.reported) = g :: rest → s.m.reportable l g = true →
    (Runs (.receiptSend t l) s fun n =>
      (∀ y ∈ (n.lrx l).msgs, y.first = g.first → y.reported = true) ∧ (n.qp (ctlQp rec.srcModule)).msgs.length = (s.m.qp (ctlQp rec.srcModule)).msgs.length + 1 ∧
      Frame (fun _ => False) s.m n) ∧
    (g.since + us ≤ (s.m.advance t).now → (s.m.lrx l).msgs.find? (fun g => !g.reported) = some g →
      Runs (.receiptTimer t l) s fun n =>
        (∀ y ∈ (n.lrx l).msgs, y.first = g.first → y.reported = true) ∧ (n.qp (ctlQp rec.srcModule)).msgs.length = (s.m.qp (ctlQp rec.srcModule)).msgs.length + 1 ∧
        Frame (fun _ => False) s.m n)) ∧
  (∀ (s : State) (t l : Nat) (g : RxMsg), s.m.Inv → s.m.Running → (s.m.lrx l).msgs.find? (fun g => !g.rxDone) = some g → s.m.reportable l g = true →
    Runs (.rxCompletionWrite t l) s fun n =>
      (∀ y ∈ (n.lrx l).msgs, y.first = g.first → y.rxDone = true) ∧
      (s.m.bit F.QE_RX_BIND_ENABLE 0 l = true → s.m.bit F.QE_CQ_CFG_ENABLE 0 (s.m.get F.QE_RX_BIND_CQ 0 l) = false →
        n.get F.QE_CQ_DROP 0 (s.m.get F.QE_RX_BIND_CQ 0 l) =
          min (s.m.get F.QE_CQ_DROP 0 (s.m.get F.QE_RX_BIND_CQ 0 l) + 1) (2 ^ F.QE_CQ_DROP.wd - 1)))

/-- Scheduled frames through the module (03_sluice_plans.md R73, R95; 13_routing_deadlock.md R334, R335). The head of a frame is held for the PAD of its port's link; then a frame
for this module is placed here, if its tail is sound; one of an epoch that no bank has is counted as dropped; one with no TRANSIT slot due is dropped and counted.
Where the spec leaves a point open, the model's choices hold: notes/assumptions 77. -/
def Obligations.ScheduledFrames : Prop :=
  (∀ (s : State) (t p : Nat) (f : SchedFrame), s.m.Inv → s.m.Running → p < 32 → s.m.get F.PORT_STATUS_STATE p = 3 →
    Runs (.schedFrameReceived t p f) s fun n =>
      n.lode.pads = s.m.lode.pads ++ [{ port := p, frame := f, at' := (s.m.advance t).now +
        (((s.m.livePlans.find? (fun x => x.epoch == f.epoch)).bind (fun x => x.link p)).map (·.pad)).getD 0 }] ∧
      (f.tailOk = true → n.get64 F.PORT_RX_FRAMES_LO p = min (s.m.get64 F.PORT_RX_FRAMES_LO p + 1) (2 ^ 64 - 1)) ∧ SameStores s.m n) ∧
  (∀ (s : State) (t p : Nat) (x : Padded), s.m.Inv → s.m.Running → s.m.lode.pads.find? (fun x => x.port == p && decide (x.at' ≤ (s.m.advance t).now)) = some x →
    (∀ pl, s.m.livePlans.find? (fun pl => pl.epoch == x.frame.epoch) = some pl → x.frame.dstModule = s.m.self → x.frame.tailOk = true →
      Runs (.schedFrameRoute t p) s fun n => n.lode.pads = s.m.lode.pads.erase x ∧ n.lode.here = s.m.lode.here ++ [x] ∧ Frame (fun _ => False) s.m n) ∧
    (∀ pl, s.m.livePlans.find? (fun pl => pl.epoch == x.frame.epoch) = some pl → x.frame.dstModule ≠ s.m.self → (∀ q r, pl.kindIn q r ≠ (3, p)) →
      Runs (.schedFrameRoute t p) s fun n =>
        n.lode.pads = s.m.lode.pads.erase x ∧ n.get F.RTE_SCHED_DROP = min (s.m.get F.RTE_SCHED_DROP + 1) (2 ^ F.RTE_SCHED_DROP.wd - 1) ∧
        Frame (fun k => k = keyOf F.RTE_SCHED_DROP) s.m n) ∧
    (s.m.livePlans.find? (fun pl => pl.epoch == x.frame.epoch) = none → (alGet s.m.plan.drops p).getD 0 < 15 →
      Runs (.schedFrameRoute t p) s fun n =>
        n.lode.pads = s.m.lode.pads.erase x ∧ n.get F.SLU_EPOCH_DROP = min (s.m.get F.SLU_EPOCH_DROP + 1) (2 ^ F.SLU_EPOCH_DROP.wd - 1) ∧
        alGet n.plan.drops p = some ((alGet s.m.plan.drops p).getD 0 + 1) ∧ Frame (fun k => k = keyOf F.SLU_EPOCH_DROP) s.m n))

/-- Doorbells (05_queues_descriptors.md R133, R134, R136, R146, R149; 14_herds.md R356, R357). A doorbell of the steward or of the page's herd on a ring that the herd owns sets
the ring's software index modulo its size, and starts the read of the entries that it claims; the FULL view follows a CQ's index and an event ring's. One on a ring that the
herd does not own is dropped with DB_FOREIGN.
Where the spec leaves a point open, the model's choices hold: notes/assumptions 5, 7. -/
def Obligations.Doorbells : Prop :=
  (∀ (s : State) (p : Path) (h q : Nat) (v : Word), s.m.Inv → s.m.served p (herdPage h + 4 * q) = true →
      (p = .mgmt ∨ (p = .fabric h ∧ s.m.failStop = false)) → s.m.herdState h ≠ 4 →
    (s.m.sqHerd q = h → s.m.herdState h ≠ 3 →
      Runs (.sqDoorbell p h q v) s fun n =>
        n.sqTail q = v.toNat % 65536 % s.m.sqSize q ∧ (n.sq q).fetched = (s.m.sq q).fetched ∧
        (s.m.bit F.QE_SQ_CFG_ENABLE 0 q = true → s.m.herdHalted h = false → s.m.failStop = false → (s.m.sq q).fetched.length < 32 → (s.m.sq q).reading = none →
          (s.m.sq q).wait = none → (s.m.sq q).claims = [] →
          ringDist (s.m.sqSize q) (s.m.sqTail q) (s.m.sqHead q) < ringDist (s.m.sqSize q) (s.m.sqTail q) (v.toNat % 65536 % s.m.sqSize q) →
          0 < ringDist (s.m.sqSize q) (s.m.sqHead q) (v.toNat % 65536 % s.m.sqSize q) →
          (n.sq q).claims = [(v.toNat % 65536 % s.m.sqSize q, s.m.now)] ∧ (n.sq q).reading = some (s.m.sqHead q, min (s.m.sqSize q)
            (ringDist (s.m.sqSize q) (s.m.sqHead q) (v.toNat % 65536 % s.m.sqSize q) + min 16 (s.m.get F.QE_CTL_PREFETCH)), false)) ∧
        Frame (fun k => k = keyOf F.QE_SQ_PTR_OTHER 0 q) s.m n) ∧
    (s.m.sqHerd q ≠ h →
      Runs (.sqDoorbell p h q v) s fun n =>
        n.bit F.QE_STATUS_DB_FOREIGN = true ∧ n.sqTail q = s.m.sqTail q ∧ n.qe = s.m.qe ∧ Frame (fun k => fltKey k ∨ k = keyOf F.QE_STATUS_DB_FOREIGN) s.m n)) ∧
  (∀ (s : State) (p : Path) (h c : Nat) (v : Word), s.m.Inv → s.m.served p (herdPage h + 0x4000 + 4 * c) = true →
      (p = .mgmt ∨ (p = .fabric h ∧ s.m.failStop = false)) → s.m.herdState h ≠ 4 → s.m.cqHerd c = h →
    Runs (.cqDoorbell p h c v) s fun n =>
      n.get F.QE_CQ_PTR_OTHER 0 c = v.toNat % 65536 % s.m.cqSize c ∧
      n.bit F.QE_CQ_STATUS_FULL 0 c = !decide (n.cqUnconsumed c + 1 < n.cqSize c) ∧
      Frame (fun k => k = keyOf F.QE_CQ_PTR_OTHER 0 c ∨ k = keyOf F.QE_CQ_STATUS_FULL 0 c) s.m n) ∧
  (∀ (s : State) (p : Path) (h : Nat) (v : Word), s.m.Inv → s.m.served p (herdPage h + 0x8000) = true →
      (p = .mgmt ∨ (p = .fabric h ∧ s.m.failStop = false)) → s.m.herdState h ≠ 4 → (alGet s.m.qe.lost h).getD 0 = 0 →
    Runs (.eqDoorbell p h v) s fun n =>
      n.get F.QE_EQ_PTR_OTHER 0 h = v.toNat % 65536 % s.m.eqSize h ∧ n.bit F.QE_EQ_STATUS_FULL 0 h = decide (n.eqFree h < 2) ∧
      Frame (fun k => k = keyOf F.QE_EQ_PTR_OTHER 0 h ∨ k = keyOf F.QE_EQ_STATUS_FULL 0 h) s.m n)

/-- Submission queues (05_queues_descriptors.md R128, R130, R135, R136, R141, R147, R150). The entry at HEAD is accepted if its phase is the expected one, and HEAD passes it;
a ring that cannot be read stops its queue with RING_FAULT; a read that found nothing is repeated after REFETCH; an entry that stays invalid for a lease period is
malformed and halts its herd. ENABLE starts the queue unless its CQ serves receive bindings or another herd; clearing it drops what was not dispatched, and HEAD goes back.
Where the spec leaves a point open, the model's choices hold: notes/assumptions 7, 37. -/
def Obligations.SubmissionQueues : Prop :=
  (∀ (s : State) (t k i : Nat) (timed : Bool) (ext : List Byte) (mid m' : Mach) (segs : List Seg) (words : List Nat), s.m.Inv → s.m.Running →
      (s.m.sq k).reading = some (i, 1, timed) → (s.m.sq k).fetched.length < 32 → mid = (s.m.advance t).setSq k { s.m.sq k with reading := none } →
      mid.tile (s.m.sqHerd k) (s.m.get F.QE_SQ_CFG_ASID 0 k) accRead srcQe (s.m.ringBase F.QE_SQ_BASE_LO k + 64 * s.m.sqHead k) 64 = (m', .ok segs) →
      words = (List.range 8).map (fun i => leAt (m'.readExt segs ext).1 (8 * i) 8) →
    Runs (.sqReadComplete t k ext) s fun n =>
      (getBits (nthD words 0 0) 4 1 = s.m.get F.QE_SQ_STATUS_PHASE 0 k →
        (n.sq k).fetched = (s.m.sq k).fetched ++ [{ index := s.m.sqHead k, words := words }] ∧ n.sqHead k = (s.m.sqHead k + 1) % s.m.sqSize k) ∧
      (getBits (nthD words 0 0) 4 1 ≠ s.m.get F.QE_SQ_STATUS_PHASE 0 k →
        (n.sq k).fetched = (s.m.sq k).fetched ∧ n.sqHead k = s.m.sqHead k ∧
        ((n.sq k).refetchAt = some ((s.m.advance t).now + max 1 (s.m.get F.QE_CTL_REFETCH) * us) ∨
          timed = true ∧ (s.m.sq k).claims = [] ∧ (n.sq k).refetchAt = (s.m.sq k).refetchAt)) ∧ SameStores s.m n) ∧
  (∀ (s : State) (t k r : Nat), s.m.Inv → s.m.Running → (s.m.sq k).refetchAt = some r → r ≤ (s.m.advance t).now → s.m.bit F.QE_SQ_CFG_ENABLE 0 k = true →
      s.m.herdHalted (s.m.sqHerd k) = false → s.m.herdState (s.m.sqHerd k) ≠ 3 → (s.m.sq k).fetched.length < 32 → (s.m.sq k).reading = none →
      (s.m.sq k).wait = none → (s.m.sq k).claims ≠ [] → 0 < ringDist (s.m.sqSize k) (s.m.sqHead k) (s.m.sqTail k) →
    Runs (.sqRefetchTimer t k) s fun n =>
      (n.sq k).refetchAt = none ∧ (n.sq k).reading = some (s.m.sqHead k,
        min (s.m.sqSize k) (ringDist (s.m.sqSize k) (s.m.sqHead k) (s.m.sqTail k) + min 16 (s.m.get F.QE_CTL_PREFETCH)), true) ∧ Frame (fun _ => False) s.m n) ∧
  (∀ (s : State) (t k c since : Nat) (rest : List (Nat × Nat)), s.m.Inv → s.m.Running → (s.m.sq k).claims = (c, since) :: rest →
      since + s.m.leaseAt since ≤ (s.m.advance t).now → (s.m.sq k).refetchAt.isSome = true → s.m.bit F.QE_SQ_CFG_ENABLE 0 k = true → s.m.sqHerd k ≠ 0 →
      (∀ o ∈ (s.m.sq k).out, o.uid < s.m.qe.nextUid) →
    Runs (.stalePhaseTimeout t k) s fun n =>
      (∃ o ∈ (n.sq k).out, o.uid = s.m.qe.nextUid ∧ o.index = s.m.sqHead k ∧ o.comp =
        some { status := stMalformed, bytes := 0, deadline := false, time := (s.m.advance t).polder.toNat, detail := 6 }) ∧
      n.herdHalted (s.m.sqHerd k) = true ∧ (∃ e ∈ n.evq, e.code = 0x0101 ∧ e.dest = s.m.sqHerd k) ∧ SameStores s.m n) ∧
  (∀ (s : State) (v : Via) (w : Word) (k : Nat) (m' : Mach), s.m.Inv → s.m.Admits v 0x0040010C → k = s.m.selSq v → (∀ h, v.page = some h → s.m.sqHerd k = h) →
    (s.m.bit F.QE_SQ_CFG_ENABLE 0 k = false → m' = s.m.sqCfgFields v k w.toNat false →
      Runs (.sqEnable v w) s fun n =>
        (m'.bindingsOn (m'.get F.QE_SQ_CQ_CQ 0 k) = [] → m'.cqHerd (m'.get F.QE_SQ_CQ_CQ 0 k) = m'.sqHerd k → n.bit F.QE_SQ_CFG_ENABLE 0 k = true) ∧
        (m'.bindingsOn (m'.get F.QE_SQ_CQ_CQ 0 k) ≠ [] ∨ m'.cqHerd (m'.get F.QE_SQ_CQ_CQ 0 k) ≠ m'.sqHerd k →
          n.bit F.QE_STATUS_BIND_REFUSED = true ∧ n.bit F.QE_SQ_CFG_ENABLE 0 k = false)) ∧
    Runs (.sqDisable v w) s fun n =>
      n.bit F.QE_SQ_CFG_ENABLE 0 k = false ∧ (n.sq k).fetched = [] ∧ (n.sq k).out = (s.m.sq k).out ∧ n.bit F.QE_SQ_STATUS_IDLE 0 k = (s.m.sq k).out.isEmpty ∧
      (∀ d rest, (s.m.sq k).fetched = d :: rest → n.sqHead k = d.index % 2 ^ F.QE_SQ_PTR_OWN.wd) ∧ SameStores s.m n)

/-- Completions, events and binding (05_queues_descriptors.md R128, R132, R144 to R151, R127). Bytes 8 to 31 of the oldest completion of a queue whose outcome is known are
written first, bytes 0 to 7 when those have landed, and only then the index moves and the queue counts; an event goes into its ring the same way, or is counted as lost where
the ring is not open. A CQ in use keeps its ENABLE with FROZEN_WRITE; a binding is refused where a submission queue uses the CQ; a new base of a disabled ring clears its
indices and sets its phase.
Where the spec leaves a point open, the model's choices hold: notes/assumptions 8, 37. -/
def Obligations.CompletionsAndEvents : Prop :=
  (∀ (s : State) (t k c i ph : Nat) (o : OutDesc) (x : Comp) (m' : Mach), s.m.Inv → s.m.Running → c = s.m.get F.QE_SQ_CQ_CQ 0 k →
      (s.m.sq k).out[((s.m.cq c).headers.filter (fun h => h.sq == some k)).length]? = some o → o.comp = some x → s.m.bit F.QE_CQ_STATUS_RING_FAULT 0 c = false →
      s.m.bit F.QE_CQ_CFG_ENABLE 0 c = true → s.m.cqNext c = (i, ph) →
      (s.m.advance t).writeVa (s.m.cqHerd c) (s.m.get F.QE_CQ_CFG_ASID 0 c) srcQe 3 (c * 65536 + i) 0 (s.m.ringBase F.QE_CQ_BASE_LO c + 32 * i + 8)
        ((Mach.compBytes ph false k o.index o.tag x).drop 8) = (m', none) →
    Runs (.completionWrite t k) s fun n =>
      (n.cq c).headers = (s.m.cq c).headers ++ [{ index := i, bytes := (Mach.compBytes ph false k o.index o.tag x).take 8, sq := some k, status := x.status }] ∧
      (n.sq k).out = (s.m.sq k).out ∧ StoresOf m' n) ∧
  (∀ (s : State) (t c k : Nat) (h : Header) (rest : List Header) (m' : Mach), s.m.Inv → s.m.Running → (s.m.cq c).headers = h :: rest → h.sq = some k →
      s.m.landed 3 (c * 65536 + h.index) 0 = true →
      (s.m.advance t).writeVa (s.m.cqHerd c) (s.m.get F.QE_CQ_CFG_ASID 0 c) srcQe 3 (c * 65536 + h.index) 1 (s.m.ringBase F.QE_CQ_BASE_LO c + 32 * h.index) h.bytes = (m', none) →
    Runs (.completionHeaderWrite t c) s fun n =>
      (n.cq c).headers = rest ∧ (n.sq k).out = (s.m.sq k).out.drop 1 ∧ n.get F.QE_CQ_PTR_OWN 0 c = (h.index + 1) % s.m.cqSize c ∧
      n.get F.QE_SQ_COUNT 0 k = (s.m.get F.QE_SQ_COUNT 0 k + 1) % 2 ^ 32 ∧
      n.get F.QE_SQ_FAIL 0 k = (if h.status = stDone ∨ h.status = stProvisional then s.m.get F.QE_SQ_FAIL 0 k else (s.m.get F.QE_SQ_FAIL 0 k + 1) % 2 ^ 32) ∧ StoresOf m' n) ∧
  (∀ (s : State) (t i : Nat) (e : Event) (rest : List Event) (m1 m2 m3 : Mach) (b : List Byte), s.m.Inv → s.m.Running → s.m.evq = e :: rest →
      (alGet s.m.qe.lost e.dest).getD 0 = 0 →
    (s.m.eqOpen e.dest = true → 2 ≤ s.m.eqFree e.dest → i = s.m.get F.QE_EQ_PTR_OWN 0 e.dest → m1 = (s.m.advance t).putEvq rest →
      b = leBytes 8 (1 + s.m.get F.QE_EQ_STATUS_PHASE 0 e.dest * 16 + e.code * 2 ^ 16 + e.source * 2 ^ 32 + e.herd * 2 ^ 48) ++ leBytes 8 e.time.toNat ++
        leBytes 8 e.info0.toNat ++ leBytes 8 e.info1.toNat →
      m1.writeVa e.dest (s.m.get F.QE_EQ_CFG_ASID 0 e.dest) srcQe 4 e.dest i (s.m.ringBase F.QE_EQ_BASE_LO e.dest + 32 * i + 8) (b.drop 8) = (m2, none) →
      m2.writeVa e.dest (s.m.get F.QE_EQ_CFG_ASID 0 e.dest) srcQe 4 e.dest i (s.m.ringBase F.QE_EQ_BASE_LO e.dest + 32 * i) (b.take 8) = (m3, none) →
      Runs (.eventRingWrite t) s fun n => n.get F.QE_EQ_PTR_OWN 0 e.dest = (i + 1) % s.m.eqSize e.dest ∧ StoresOf m3 n) ∧
    (s.m.eqOpen e.dest = false →
      Runs (.eventRingWrite t) s fun n =>
        n.evq = rest ∧ n.get F.QE_EQ_LOST 0 e.dest = min (s.m.get F.QE_EQ_LOST 0 e.dest + 1) (2 ^ F.QE_EQ_LOST.wd - 1) ∧ alGet n.qe.lost e.dest = some 1 ∧
        Frame (fun k => k = keyOf F.QE_EQ_LOST 0 e.dest) s.m n)) ∧
  (∀ (s : State) (p : Path) (w : Word) (c : Nat), s.m.Inv → s.m.Steward p 0x0040020C → c = s.m.getP p F.QE_CQ_SEL_INDEX % 4096 → s.m.bit F.QE_CQ_CFG_ENABLE 0 c = true →
    Runs (.cqDisable p w) s fun n =>
      (s.m.sqsServed c = [] → s.m.bindingsOn c = [] → n.bit F.QE_CQ_CFG_ENABLE 0 c = false) ∧
      (s.m.sqsServed c ≠ [] ∨ s.m.bindingsOn c ≠ [] → n.bit F.QE_CQ_CFG_ENABLE 0 c = true ∧ n.bit F.CFG_STATUS_FROZEN_WRITE = true) ∧
      Frame (fun k => k ∈ [keyOf F.QE_CQ_CFG_ENABLE 0 c, keyOf F.CFG_STATUS_FROZEN_WRITE, keyOf F.CFG_FROZEN_ADDR]) s.m n) ∧
  (∀ (s : State) (p : Path) (w : Word) (e : Nat), s.m.Inv → s.m.Steward p 0x00400404 → e = s.m.getP p F.QE_RX_SEL_INDEX % 16384 → s.m.bit F.QE_RX_BIND_ENABLE 0 e = false →
    Runs (.rxBindEnable p w) s fun n =>
      n.get F.QE_RX_BIND_CQ 0 e = w.toNat % 4096 ∧
      (s.m.sqsServed (w.toNat % 4096) = [] → ((s.m.plan?.bind (fun pl => pl.inc e)).map (fun l => l.herd == s.m.cqHerd (w.toNat % 4096))).getD false = true →
        n.bit F.QE_RX_BIND_ENABLE 0 e = true) ∧
      (s.m.sqsServed (w.toNat % 4096) ≠ [] → n.bit F.QE_RX_BIND_ENABLE 0 e = false ∧ n.bit F.QE_STATUS_BIND_REFUSED = true) ∧ SameStores s.m n) ∧
  (∀ (s : State) (v : Via) (w : Word) (kind k lo : Nat) (base en own other phase sel : Fld) (mod : Nat),
      (kind, base, en, own, other, phase, sel, mod) ∈
        [(0, F.QE_SQ_BASE_LO, F.QE_SQ_CFG_ENABLE, F.QE_SQ_PTR_OWN, F.QE_SQ_PTR_OTHER, F.QE_SQ_STATUS_PHASE, F.QE_SQ_SEL_INDEX, 4096),
         (1, F.QE_CQ_BASE_LO, F.QE_CQ_CFG_ENABLE, F.QE_CQ_PTR_OWN, F.QE_CQ_PTR_OTHER, F.QE_CQ_STATUS_PHASE, F.QE_CQ_SEL_INDEX, 4096),
         (2, F.QE_EQ_BASE_LO, F.QE_EQ_CFG_ENABLE, F.QE_EQ_PTR_OWN, F.QE_EQ_PTR_OTHER, F.QE_EQ_STATUS_PHASE, F.QE_EQ_SEL_INDEX, 256)] →
      s.m.Inv → s.m.Admits v (base.addr + 4) → k = v.page.getD (s.m.getP v.path sel % mod) →
      lo = ((alGet s.m.shadow (viaKey v base)).getD (s.m.reg (regKey base.addr k))).toNat → s.m.bit en 0 k = false →
    Runs (.ringBaseWrite v kind w) s fun n =>
      n.get64 base 0 k = lo / 4096 * 4096 + w.toNat * 2 ^ 32 ∧ n.get own 0 k = 0 ∧ n.get other 0 k = 0 ∧ n.get phase 0 k = 1 ∧
      alGet n.shadow (viaKey v base) = none ∧ (kind = 0 → (n.sq k).fetched = [] ∧ (n.sq k).out = (s.m.sq k).out) ∧ SameStores s.m n)

/-- WAIT_COUNT and NOP (04_lodes_ordering.md R120 to R122; 05_queues_descriptors.md R138). WAIT_COUNT holds its queue until the count of the queue named has reached its target;
then it completes with DONE, or with that queue's last failure where its failures have changed since, and otherwise with REMOTE_TIMEOUT at its time limit; a WAIT_COUNT that
does not complete with DONE clears the enable of its own queue. NOP completes with DONE when dispatched.
Where the spec leaves a point open, the model's choices hold: notes/assumptions 5. -/
def Obligations.WaitAndNop : Prop :=
  (∀ (s : State) (t k : Nat) (d : Desc), s.m.Inv → (s.m.advance t).Dispatches k d (s.m.sqHerd (d.target % 4096) != s.m.sqHerd k || d.target == k) → d.opcode = 0x30 →
    Runs (.waitCount t k) s fun n =>
      (s.m.advance t).Placed n k d none ∧ n.bit F.QE_SQ_STATUS_WAITING 0 k = true ∧
      (n.sq k).wait = some { uid := s.m.qe.nextUid, queue := d.target, target := d.bits 2 0 32, failBase := d.bits 2 32 32
                             expires := (s.m.advance t).now + (if d.bits 3 0 32 = 0 then s.m.lease else d.bits 3 0 32 * us) } ∧
      Frame (fun x => x = keyOf F.QE_SQ_STATUS_WAITING 0 k) s.m n) ∧
  (∀ (s : State) (t k : Nat) (w : WaitRec) (st : Nat), s.m.Inv → s.m.Running → (s.m.sq k).wait = some w →
      0 ≤ (BitVec.ofNat 32 (s.m.get F.QE_SQ_COUNT 0 w.queue) - BitVec.ofNat 32 w.target).toInt →
      st = (if s.m.get F.QE_SQ_FAIL 0 w.queue = w.failBase then stDone else s.m.get F.QE_SQ_STATUS_LAST_FAIL 0 w.queue) →
    Runs (.waitCountSatisfied t k) s fun n =>
      (n.sq k).wait = none ∧ n.bit F.QE_SQ_STATUS_WAITING 0 k = false ∧
      s.m.Finished n k w.uid { status := st, bytes := 0, deadline := false, time := (s.m.advance t).polder.toNat, detail := 0 } ∧
      (st ≠ stDone → n.bit F.QE_SQ_CFG_ENABLE 0 k = false) ∧ (st = stDone → n.bit F.QE_SQ_CFG_ENABLE 0 k = s.m.bit F.QE_SQ_CFG_ENABLE 0 k) ∧ SameStores s.m n) ∧
  (∀ (s : State) (t k : Nat) (w : WaitRec), s.m.Inv → s.m.Running → (s.m.sq k).wait = some w → w.expires ≤ (s.m.advance t).now →
    Runs (.waitCountTimeout t k) s fun n =>
      (n.sq k).wait = none ∧ n.bit F.QE_SQ_STATUS_WAITING 0 k = false ∧ n.bit F.QE_SQ_CFG_ENABLE 0 k = false ∧
      s.m.Finished n k w.uid { status := stRemoteTimeout, bytes := 0, deadline := false, time := (s.m.advance t).polder.toNat, detail := 0 } ∧ SameStores s.m n) ∧
  (∀ (s : State) (t k : Nat) (d : Desc), s.m.Inv → (s.m.advance t).Dispatches k d false → d.opcode = 0x3F →
    Runs (.nop t k) s fun n =>
      (s.m.advance t).Placed n k d (some { status := stDone, bytes := 0, deadline := false, time := (s.m.advance t).polder.toNat, detail := 0 }) ∧
      Frame (fun x => x = keyOf F.QE_SQ_STATUS_IDLE 0 k) s.m n)

/-- Descriptors of queue pairs (11_best_effort_transport.md R292, R294; 10_memory.md R286). On a READY queue pair that no mirror region uses, a SEND, WRITE, READ or ATOMIC adds
its message behind those already posted, a RECV its buffer; on one in ERROR the descriptor completes with the status that broke the queue pair.
Where the spec leaves a point open, the model's choices hold: notes/assumptions 64. -/
def Obligations.QueuePairDescriptors : Prop :=
  (∀ (s : State) (t k : Nat) (d : Desc) (c : Instr) (op : Nat) (kind : QpKind),
      (c, op, kind) ∈ [(Instr.qpSend t k, 0x10, QpKind.send), (.qpWrite t k, 0x11, .write), (.qpRead t k, 0x12, .read), (.qpAtomic t k, 0x13, .atomic)] → s.m.Inv →
      (s.m.advance t).Dispatches k d (s.m.qpForeign k d) → d.opcode = op → s.m.qpMirror d.target = none →
    (s.m.qpState d.target = 1 →
      Runs c s fun n =>
        (s.m.advance t).Placed n k d none ∧ (n.qp d.target).msgs = (s.m.qp d.target).msgs ++ [Mach.qpMsgOf d k s.m.qe.nextUid kind] ∧
        (n.qp d.target).bufs = (s.m.qp d.target).bufs ∧ Frame (fun x => x = keyOf F.QE_SQ_STATUS_IDLE 0 k ∨ x = keyOf F.BEQ_QP_HWM_DEPTH 0 d.target) s.m n) ∧
    (s.m.qpState d.target = 2 →
      Runs c s fun n =>
        (s.m.advance t).Placed n k d (some { status := s.m.get F.BEQ_QP_STATUS_ERR_STATUS 0 d.target, bytes := 0, deadline := false,
                                             time := (s.m.advance t).polder.toNat, detail := 0 }) ∧
        n.beq = s.m.beq ∧ Frame (fun x => x = keyOf F.QE_SQ_STATUS_IDLE 0 k) s.m n)) ∧
  (∀ (s : State) (t k : Nat) (d : Desc), s.m.Inv → (s.m.advance t).Dispatches k d (s.m.qpForeign k d) → d.opcode = 0x14 → s.m.qpMirror d.target = none →
      s.m.qpState d.target = 1 →
    Runs (.qpRecv t k) s fun n =>
      (s.m.advance t).Placed n k d none ∧ (n.qp d.target).msgs = (s.m.qp d.target).msgs ∧
      (∃ b, (n.qp d.target).bufs = (s.m.qp d.target).bufs ++ [b] ∧ b.sq = k ∧ b.uid = s.m.qe.nextUid ∧ b.va = d.bits 2 0 64 ∧ b.asid = d.asid ∧ b.len = d.length) ∧
      Frame (fun x => x = keyOf F.QE_SQ_STATUS_IDLE 0 k) s.m n)

/-- CREATE, DESTROY and RESET of the selected queue pair (11_best_effort_transport.md R292, R293, R308; 14_herds.md R358). A FREE one whose configuration passes the checks
becomes READY with the PSNs of its configuration and counts against its herd; an idle one becomes FREE and is given back, a busy one refuses with BUSY; one in ERROR becomes
READY as from CREATE. In any other state the command is refused with STATE.
Where the spec leaves a point open, the model's choices hold: notes/assumptions 66. -/
def Obligations.QueuePairCommands : Prop :=
  (∀ (s : State) (v : Via) (q h : Nat) (m' : Mach), s.m.Inv → s.m.Admits v F.BEQ_QP_CMD_OP.addr → q = s.m.selQp v → s.m.qpReach v q = true → s.m.qpState q = 0 →
      m' = (match v.page with | some g => s.m.set F.BEQ_QP_CFG (s.m.qpCfg q 0 / 256 * 256 + g) 0 q | none => s.m) → h = m'.qpHerd q → m'.qpCreateCheck q h = none →
    Runs (.qpCreate v) s fun n =>
      n.qpState q = 1 ∧ n.bit F.BEQ_QP_STATUS_DONE 0 q = true ∧ n.bit F.BEQ_QP_STATUS_REFUSED 0 q = false ∧ (n.qp q).psn = getBits (m'.qpCfg q 2) 0 24 ∧
      (n.qp q).expect = getBits (m'.qpCfg q 3) 0 24 ∧ (n.qp q).msgs = [] ∧ (n.qp q).sent = [] ∧ (n.qp q).bufs = [] ∧
      n.get F.BEQ_STATUS_QPS = (s.m.get F.BEQ_STATUS_QPS + 1) % 2 ^ F.BEQ_STATUS_QPS.wd ∧ n.used h resQps = s.m.used h resQps + 1 ∧ SameStores s.m n) ∧
  (∀ (s : State) (v : Via) (q : Nat), s.m.Inv → s.m.Admits v F.BEQ_QP_CMD_OP.addr → q = s.m.selQp v → s.m.qpReach v q = true → s.m.qpState q ≠ 0 →
    (s.m.qpBusy q = false →
      Runs (.qpDestroy v) s fun n =>
        n.qpState q = 0 ∧ n.bit F.BEQ_QP_STATUS_DONE 0 q = true ∧ alGet n.beq.qps q = none ∧ n.get F.BEQ_STATUS_QPS = s.m.get F.BEQ_STATUS_QPS - 1 ∧
        n.used (s.m.qpHerd q) resQps = s.m.used (s.m.qpHerd q) resQps - 1 ∧ SameStores s.m n) ∧
    (s.m.qpBusy q = true →
      Runs (.qpDestroy v) s fun n =>
        n.qpState q = s.m.qpState q ∧ n.bit F.BEQ_QP_STATUS_REFUSED 0 q = true ∧ n.get F.BEQ_QP_STATUS_REASON 0 q = 4 ∧ n.beq = s.m.beq ∧
        Frame (fun k => k = keyOf F.BEQ_QP_STATUS_STATE 0 q) s.m n)) ∧
  (∀ (s : State) (v : Via) (q : Nat), s.m.Inv → s.m.Admits v F.BEQ_QP_CMD_OP.addr → q = s.m.selQp v → s.m.qpReach v q = true →
    (s.m.qpState q = 2 →
      Runs (.qpReset v) s fun n =>
        n.qpState q = 1 ∧ n.get F.BEQ_QP_STATUS_ERR_STATUS 0 q = 0 ∧ (n.qp q).psn = getBits (s.m.qpCfg q 2) 0 24 ∧ (n.qp q).msgs = [] ∧ (n.qp q).sent = [] ∧
        n.bit F.BEQ_QP_STATUS_DONE 0 q = true ∧ Frame (fun k => k = keyOf F.BEQ_QP_STATUS_STATE 0 q ∨ k = keyOf F.BEQ_QP_RATE 0 q) s.m n) ∧
    (s.m.qpState q ≠ 2 →
      Runs (.qpReset v) s fun n =>
        n.bit F.BEQ_QP_STATUS_REFUSED 0 q = true ∧ n.get F.BEQ_QP_STATUS_REASON 0 q = 1 ∧ n.beq = s.m.beq ∧
        Frame (fun k => k = keyOf F.BEQ_QP_STATUS_STATE 0 q) s.m n))

/-- Timers of a queue pair (11_best_effort_transport.md R290, R292, R295, R299, R302, R307). 2 µs after the first packet not acknowledged an ACK goes, with the PSN expected and
the CE bytes since the last; the oldest packet unacknowledged for its RTO goes again, and after RETRY times the queue pair is in ERROR with RETRY_EXHAUSTED; a SEND that
found no buffer goes again after its 10 µs; a lease period without a packet from the peer is REMOTE_TIMEOUT, and a restart on a control connection; a rate update starts a
new interval, and without acknowledged bytes leaves the rate; a sample writes depth and age.
Where the spec leaves a point open, the model's choices hold: notes/assumptions 63, 65, 67. -/
def Obligations.QueuePairTimers : Prop :=
  (∀ (s : State) (t q a : Nat), s.m.Inv → s.m.Running → (s.m.qp q).ackSince = some a → a + 2 * us ≤ (s.m.advance t).now →
    Runs (.qpAckTimer t q) s fun n =>
      (n.qp q).ackSince = none ∧ (n.qp q).unacked = 0 ∧ (n.qp q).ceSince = 0 ∧ (n.qp q).expect = (s.m.qp q).expect ∧
      (∃ k, (n.qp q).replies = (s.m.qp q).replies ++ [k] ∧ k.op = .ack ∧ k.status = 0 ∧ k.cumPsn = (s.m.qp q).expect ∧ k.ceBytes = (s.m.qp q).ceSince ∧
        k.txTime = (s.m.qp q).txEcho) ∧ Frame (fun _ => False) s.m n) ∧
  (∀ (s : State) (t q : Nat) (x : QpSent), s.m.Inv → s.m.Running → Mach.isCtl q = false →
      (s.m.qp q).sent.find? (fun y => !((s.m.qp q).msgs.find? (fun g => g.msn == y.msn && g.rnrAt.isSome)).isSome &&
        !((s.m.qp q).resend.any (fun z => z.packet.psn == y.packet.psn)) && decide (y.at' + s.m.qpRto q y.tries ≤ (s.m.advance t).now)) = some x →
    (x.tries < s.m.get F.BEQ_RTX_RETRY →
      Runs (.qpRtoExpire t q) s fun n =>
        (n.qp q).resend = (s.m.qp q).resend ++ [{ x with tries := x.tries + 1, at' := (s.m.advance t).now }] ∧ Frame (fun _ => False) s.m n) ∧
    (s.m.get F.BEQ_RTX_RETRY ≤ x.tries →
      Runs (.qpRtoExpire t q) s fun n =>
        n.qpState q = 2 ∧ n.get F.BEQ_QP_STATUS_ERR_STATUS 0 q = stRetryExhausted ∧ (n.qp q).msgs = [] ∧ (n.qp q).sent = [] ∧ SameStores s.m n)) ∧
  (∀ (s : State) (t q a : Nat) (g : QpMsg), s.m.Inv → s.m.Running → g.rnrAt = some a → a ≤ (s.m.advance t).now → (s.m.qp q).msgs = [g] →
    Runs (.qpRnrRetry t q) s fun n =>
      (n.qp q).msgs = [{ g with rnrAt := none }] ∧
      (n.qp q).resend = (s.m.qp q).resend ++ (s.m.qp q).sent.filter (fun y => y.msn == g.msn && !((s.m.qp q).resend.any (fun z => z.packet.psn == y.packet.psn))) ∧
      Frame (fun _ => False) s.m n) ∧
  (∀ (s : State) (t q : Nat), s.m.Inv → s.m.Running → s.m.qpState q = 1 → (s.m.qp q).sent ≠ [] →
      (s.m.qp q).heard + s.m.leaseAt (s.m.qp q).heard ≤ (s.m.advance t).now →
    Runs (.qpLeaseTimeout t q) s fun n =>
      (Mach.isCtl q = false → n.qpState q = 2 ∧ n.get F.BEQ_QP_STATUS_ERR_STATUS 0 q = stRemoteTimeout ∧ (n.qp q).msgs = [] ∧ (n.qp q).bufs = []) ∧
      (Mach.isCtl q = true → (n.qp q).restart = true ∧ (n.qp q).psn = 0 ∧ (n.qp q).msgs.length = (s.m.qp q).msgs.length) ∧ (n.qp q).sent = [] ∧ SameStores s.m n) ∧
  (∀ (s : State) (t q : Nat), s.m.Inv → s.m.Running → s.m.qpState q = 1 → Mach.isCtl q = false →
      (s.m.qp q).rateAt + max 1 (s.m.get F.BEQ_CC_CTL_INTERVAL) * us ≤ (s.m.advance t).now →
    Runs (.ccRateUpdate t q) s fun n =>
      (n.qp q).rateAt = (s.m.qp q).rateAt + max 1 (s.m.get F.BEQ_CC_CTL_INTERVAL) * us ∧ (n.qp q).acked = 0 ∧ (n.qp q).ceAcked = 0 ∧ (n.qp q).cnps = 0 ∧
      ((s.m.qp q).acked = 0 → n.get F.BEQ_QP_RATE 0 q = s.m.get F.BEQ_QP_RATE 0 q) ∧
      ((s.m.qp q).acked ≠ 0 → (s.m.advance t).pathRate q < 2 ^ 32 → s.m.refilled F.BEQ_CC_RATE_MIN * 100 ≤ n.get F.BEQ_QP_RATE 0 q ∧
        n.get F.BEQ_QP_RATE 0 q ≤ max (s.m.refilled F.BEQ_CC_RATE_MIN * 100) ((s.m.advance t).pathRate q)) ∧
      Frame (fun k => k = keyOf F.BEQ_QP_RATE 0 q ∨ k = keyOf F.BEQ_QP_RTT_BASE 0 q) s.m n) ∧
  (∀ (s : State) (t q : Nat), s.m.Inv → s.m.Running → Mach.isCtl q = false → s.m.hwmMode = false →
      (s.m.qp q).sampleAt + max 1 (s.m.get F.BEQ_CTL_SAMPLE_US) * us ≤ (s.m.advance t).now →
    Runs (.qpSample t q) s fun n =>
      (n.qp q).sampleAt = (s.m.advance t).now ∧ n.get F.BEQ_QP_SAMPLE_DEPTH 0 q = min 0xFFFF (Mach.kib (s.m.qpDepthBytes q)) ∧
      n.get F.BEQ_QP_SAMPLE_AGE 0 q = ((s.m.advance t).qpQueued q).2 ∧ Frame (fun k => k = keyOf F.BEQ_QP_SAMPLE_DEPTH 0 q) s.m n)

/-- What a port sends in free time, refills, reports and landed writes (01_architecture.md R22; 13_routing_deadlock.md R347; 11_best_effort_transport.md R290, R299, R306; 14_herds.md
R361, R362; 04_lodes_ordering.md R112). Forwarded control goes before replies, replies before the origin scheduler, and a retransmission is the queue pair's first packet;
a refill puts Refill-class values in force and starts the next interval; a violation report reaches the writing herd where its notice is on, and is counted elsewhere; a landed
write is no longer waited for.
Where the spec leaves a point open, the model's choices hold: notes/assumptions 67, 81. -/
def Obligations.BestEffortSending : Prop :=
  (∀ (s : State) (t p : Nat) (m : Mach), m = s.m.advance t → s.m.Inv → s.m.Running → s.m.portUp p = true → s.m.ciph.frames = [] →
    (∀ h rest, m.heldFor p (fun c => c == 3) = h :: rest → m.freeTime p h.frame.bytes = true →
      Runs (.beFrameSend t p) s fun n =>
        n.rte.held = s.m.rte.held.erase h ∧ (∃ f, Out.be p f ∈ n.sent ∧ f.bytes = h.frame.bytes ∧ f.dest = h.frame.dest ∧ f.pcp = h.pcpOut) ∧ SameStores s.m n) ∧
    (∀ q dl k, m.heldFor p (fun c => c == 3) = [] → m.replyOn p true = none → m.ctlOn p = none → m.heldFor p (fun c => c == 2) = [] →
        m.replyOn p false = some (q, dl, k) → s.m.qpKey q = none → m.heldBy p (m.qpFrame q p dl k).pcp = false → m.freeTime p (packetBytes k) = true →
      Runs (.beFrameSend t p) s fun n =>
        (n.qp q).replies = (s.m.qp q).replies.drop 1 ∧ (∃ f, n.sent = s.m.sent ++ [.be p f] ∧ f.bytes = packetBytes k) ∧
        (n.pt p).busyUntil = m.now + s.m.lineUnits p (packetBytes k) ∧ SameStores s.m n) ∧
    (∀ c q r dl x rest, m.heldFor p (fun c => c == 3) = [] → m.replyOn p true = none → m.ctlOn p = none → m.heldFor p (fun c => c == 2) = [] →
        m.replyOn p false = none → m.heldFor p (fun c => c == 0 || c == 1) = [] → m.clientPick p = some c → c ≠ 256 → m.qpPick p c = some q → m.qpPort q = some (r, dl) →
        (s.m.qp q).resend = x :: rest → s.m.qpKey q = none → m.heldBy p 0 = false → m.freeTime p ((m.clientNext p c).getD 0) = true →
      Runs (.beFrameSend t p) s fun n =>
        (n.qp q).resend = rest ∧ n.get F.BEQ_QP_RETX 0 q = min (s.m.get F.BEQ_QP_RETX 0 q + 1) (2 ^ 32 - 1) ∧
        (∃ f k, n.sent = s.m.sent ++ [.be p f] ∧ f.body = .packet k ∧ k.psn = x.packet.psn ∧ k.path = m.qpNextPath q) ∧ SameStores s.m n)) ∧
  (∀ (s : State) (t : Nat), s.m.Inv → (if s.m.beq.interval = 0 then 1000 * ns else s.m.beq.refillAt) ≤ (s.m.advance t).now →
    Runs (.rateRefill t) s fun n =>
      n.refillOld = [] ∧ n.beq.interval = max 100 (s.m.get F.BEQ_REFILL_INTERVAL_NS) * ns ∧
      n.beq.refillAt = (if s.m.beq.interval = 0 then 1000 * ns else s.m.beq.refillAt) + n.beq.interval ∧ Frame (fun _ => False) s.m n) ∧
  (∀ (s : State) (t : Nat) (c : CtlMsg), s.m.Inv → s.m.Running → s.m.beq.ctl.find? (fun c => leAt c.bytes 0 1 / 16 == 8) = some c →
      (leAt (c.bytes.drop 32) 0x18 8, leAt (c.bytes.drop 32) 8 4) ∉ s.m.beq.reports →
    (s.m.reportHerd (leAt (c.bytes.drop 32) 0 4 / 256 % 16) (leAt (c.bytes.drop 32) 4 4) = none →
      Runs (.violationReportReceived t) s fun n =>
        n.get F.FLT_VIOL_COUNT = min (s.m.get F.FLT_VIOL_COUNT + 1) (2 ^ 32 - 1) ∧ n.beq.ctl = s.m.beq.ctl.erase c ∧ n.evq = s.m.evq ∧
        Frame (fun k => k = keyOf F.FLT_VIOL_COUNT) s.m n) ∧
    (∀ h, s.m.reportHerd (leAt (c.bytes.drop 32) 0 4 / 256 % 16) (leAt (c.bytes.drop 32) 4 4) = some h → s.m.bit F.QE_HERD_STATUS_PRIV 0 h = true →
      Runs (.violationReportReceived t) s fun n =>
        (∃ e ∈ n.evq, e.code = 0x0502 ∧ e.dest = h ∧ e.info0 = BitVec.ofNat 64 (leAt (c.bytes.drop 32) 8 4) ∧ e.info1 = BitVec.ofNat 64 c.src) ∧
        n.beq.ctl = s.m.beq.ctl.erase c ∧ Frame (fun _ => False) s.m n)) ∧
  (∀ (s : State) (t id : Nat) (w : WriteRec), s.m.Inv → s.m.mem.writes.find? (fun w => w.id == id) = some w → (w.kind ≠ 2 ∨ 2 ^ 20 ≤ w.chan) →
    Runs (.memoryWriteAck t id) s fun n => n.mem.writes = s.m.mem.writes.filter (fun y => y.id != id) ∧ Frame (fun _ => False) s.m n)

/-- Address spaces, invalidation and dirty logs (06_translation_windows.md R154, R164, R173, R174). ENABLE takes an address space from the herd's share, or is refused with AS_REFUSED
and changes nothing; a GO is dropped while INV_BUSY, else it joins the order and begins where none runs, dropping the cached entries it reaches; it is done once no request
translated with one of them is in flight. A harvest copies the words of the bitmap to its destination and clears them.
Where the spec leaves a point open, the model's choices hold: notes/assumptions 39, 51. -/
def Obligations.AddressSpaces : Prop :=
  (∀ (s : State) (p : Path) (w : Word) (h a : Nat), s.m.Inv → s.m.Steward p F.XLT_AS_CFG_ENABLE.addr → h = s.m.getP p F.XLT_AS_SEL_HERD → a = s.m.getP p F.XLT_AS_SEL_ASID →
      a < 16 → s.m.asEnabled h a = false →
    (s.m.roomFor h resAsids 1 = true → s.m.asCount < 1024 →
      Runs (.asEnable p w) s fun n => n.asEnabled h a = true ∧ n.used h resAsids = (s.m.used h resAsids + 1) % 32 ∧ n.asCount = s.m.asCount + 1 ∧ SameStores s.m n) ∧
    (s.m.roomFor h resAsids 1 = false ∨ 1024 ≤ s.m.asCount →
      Runs (.asEnable p w) s fun n => n.asEnabled h a = false ∧ n.bit F.XLT_STATUS_AS_REFUSED = true ∧ n.used h resAsids = s.m.used h resAsids ∧ SameStores s.m n)) ∧
  (∀ (s : State) (v : Via) (w : Word) (c : Instr) (scope : Nat), (c, scope) ∈ [(Instr.invalidateAll v w, 0), (.invalidateContext v w, 1), (.invalidateRange v w, 2)] →
      s.m.Inv → s.m.Admits v F.XLT_INV_GO.addr →
    (s.m.getInv v.page F.XLT_STATUS_INV_BUSY = 0 →
      Runs c s fun n =>
        n.getInv v.page F.XLT_STATUS_INV_BUSY = 1 ∧ n.xlt.inv.length = s.m.xlt.inv.length + 1 ∧
        (∃ r ∈ n.xlt.inv, r.page = v.page ∧ r.scope = scope ∧ r.asid = w.toNat % 256 ∧ r.herd = v.page.getD (getBits w.toNat 8 8) ∧
          r.running = !s.m.xlt.inv.any (fun y => y.running) ∧ (r.running = true → ∀ x ∈ n.xlt.cache, Mach.invEntry r x = false)) ∧
        (s.m.xlt.inv.any (fun y => y.running) = true → n.xlt.cache = s.m.xlt.cache) ∧
        Frame (fun k => k = Mach.invKey v.page F.XLT_INV_GO ∨ k = Mach.invKey v.page F.XLT_STATUS_INV_BUSY) s.m n) ∧
    (s.m.getInv v.page F.XLT_STATUS_INV_BUSY = 1 →
      Runs c s fun n => n.getInv v.page F.XLT_STATUS_CMD_DROPPED = 1 ∧ n.xlt = s.m.xlt ∧ Frame (fun k => k = Mach.invKey v.page F.XLT_STATUS_INV_BUSY) s.m n)) ∧
  (∀ (s : State) (t : Nat) (r : InvReq) (rest : List InvReq), s.m.Inv → s.m.xlt.inv = r :: rest → s.m.xlt.inv.any (fun y => y.running) = false →
    Runs (.invalidateStart t) s fun n =>
      n.xlt.cache = s.m.xlt.cache.filter (fun x => !Mach.invEntry r x) ∧ n.xlt.inv.any (fun y => y.running) = true ∧ Frame (fun _ => False) s.m n) ∧
  (∀ (s : State) (t : Nat) (r : InvReq), s.m.Inv → s.m.xlt.inv.find? (fun y => y.running) = some r →
    ((∀ b ∈ r.blockers, b ∉ s.m.inFlight.map (·.1)) →
      Runs (.invalidateDone t) s fun n =>
        n.getInv r.page F.XLT_STATUS_INV_BUSY = 0 ∧ n.getInv r.page F.XLT_STATUS_INV_DONE = 1 ∧ n.xlt.inv = s.m.xlt.inv.filter (fun y => y != r) ∧ SameStores s.m n) ∧
    ((∃ b ∈ r.blockers, b ∈ s.m.inFlight.map (·.1)) → Runs (.invalidateDone t) s fun n => n.xlt = s.m.xlt ∧ Frame (fun _ => False) s.m n)) ∧
  (∀ (s : State) (p : Path) (w : Word) (src dst : Nat), s.m.Inv → s.m.Steward p F.XLT_DIRTY_CMD_GO.addr → s.m.bit F.XLT_STATUS_DIRTY_BUSY = false →
      src = s.m.get64 F.XLT_DIRTY_BASE_LO 0 (Mach.asSel (s.m.getP p F.XLT_AS_SEL_HERD) (s.m.getP p F.XLT_AS_SEL_ASID)) + 8 * (s.m.reg 0x02000054).toNat →
      dst = s.m.get64 F.XLT_DIRTY_DST_LO →
    Runs (.dirtyHarvest p w) s fun n =>
      n.bit F.XLT_STATUS_DIRTY_BUSY = true ∧
      ∃ j, j ≤ w.toNat % 2 ^ 24 ∧ n.xlt.harvest = some (src + 8 * j, w.toNat % 2 ^ 24 - j, dst + 8 * j) ∧ StoresOf (s.m.harvestWords src dst j) n) ∧
  (∀ (s : State) (t src dst c : Nat), s.m.Inv → s.m.xlt.harvest = some (src, c, dst) → (src + 8 * c ≤ dst ∨ dst + 8 * c ≤ src) →
    Runs (.dirtyHarvestDone t) s fun n =>
      n.xlt.harvest = none ∧ n.bit F.XLT_STATUS_DIRTY_BUSY = false ∧ n.bit F.XLT_STATUS_DIRTY_DONE = true ∧
      (∀ i, i < 8 * c → memGet n.peat (dst + i) = memGet s.m.peat (src + i) ∧ memGet n.peat (src + i) = 0) ∧
      (∀ a, (a < src ∨ src + 8 * c ≤ a) → (a < dst ∨ dst + 8 * c ≤ a) → memGet n.peat a = memGet s.m.peat a) ∧
      n.cream = s.m.cream ∧ n.tsram = s.m.tsram ∧ n.flash = s.m.flash)

/-- Windows (06_translation_windows.md R165, R169 to R172, R176; 14_herds.md R358). OPEN writes the staged entry, OPEN with the generation that the table holds, and counts it against
its owner; CLOSE of an OPEN window puts it in CLOSING with the arrival number as it stands; READ stages the entry; the close completes when no message admitted before it is
unresolved, or a lease period after it at the latest: the window is FREE with the next generation, and WINDOW_REVOKED tells its owner.
Where the spec leaves a point open, the model's choices hold: notes/assumptions 50. -/
def Obligations.Windows : Prop :=
  (∀ (s : State) (v : Via) (w : Nat) (x : WinEntry) (m' : Mach) (l : List XltEntry), s.m.Inv → s.m.Admits v F.WIN_CMD_OP.addr → w < doorbellBase →
      x = s.m.winStaged v → (∀ h, v.page = some h → h < 256) → (s.m.win w).state = 0 → x.version = 1 → x.base % 4096 = 0 → 0 < x.limit → x.limit ≤ 2 ^ 48 →
      x.base + x.limit ≤ 2 ^ 57 → s.m.asEnabled x.ownerHerd x.ownerAsid = true → s.m.roomFor x.ownerHerd resWindows 1 = true →
      (if x.sched then s.m.leavesOf x.ownerHerd x.ownerAsid (if x.w then accWrite else if x.atomic then accAtomic else accRead) (x.limit / 4096 + 2) x.base x.limit
        else (s.m, some [])) = (m', some l) → (x.sched = true → s.m.pinned + l.length ≤ 16384 ∧ s.m.xlt.pins.length < 4096) →
    Runs (.windowOpen v w) s fun n =>
      n.win w = { x with state := 1, gen := (s.m.win w).gen, rev := 0 } ∧ n.getV v F.WIN_CMD_STATUS_DONE = 1 ∧ n.getV v F.WIN_CMD_STATUS_REFUSED = 0 ∧
      n.used x.ownerHerd resWindows = s.m.used x.ownerHerd resWindows + 1 ∧ (x.sched = true → alGet n.xlt.pins w = some l) ∧ StoresBut .peat (s.m.winAddr w) 32 s.m n) ∧
  (∀ (s : State) (v : Via) (w : Nat), s.m.Inv → s.m.Admits v F.WIN_CMD_OP.addr → w < doorbellBase → (s.m.win w).state ≠ 0 →
    Runs (.windowOpen v w) s fun n =>
      n.getV v F.WIN_CMD_STATUS_REFUSED = 1 ∧ n.getV v F.WIN_CMD_STATUS_REASON = 1 ∧ n.win w = s.m.win w ∧
      Frame (fun k => k = viaKey v F.WIN_CMD_STATUS_DONE) s.m n) ∧
  (∀ (s : State) (v : Via) (w : Nat), s.m.Inv → s.m.Admits v F.WIN_CMD_OP.addr → w < 2 ^ 20 → s.m.winReach v w = true →
    ((s.m.win w).state = 1 →
      Runs (.windowClose v w) s fun n =>
        n.win w = { s.m.win w with state := 2, rev := s.m.get64 F.WIN_ARRIVAL_LO } ∧
        n.winCloses = s.m.winCloses ++ [{ window := w, since := s.m.now, via := some v, steward := v.page.isNone }] ∧ StoresBut .peat (s.m.winAddr w) 32 s.m n ∧
        RegsBut (fun k => k = keyOf F.WIN_STATUS_CLOSING) s.m n) ∧
    ((s.m.win w).state ≠ 1 → Runs (.windowClose v w) s fun n => n.getV v F.WIN_CMD_STATUS_REFUSED = 1 ∧ n.getV v F.WIN_CMD_STATUS_REASON = 2 ∧ n.win w = s.m.win w) ∧
    Runs (.windowRead v w) s fun n =>
      (∀ i, i < 8 → n.getV v F.WIN_ENTRY i = leAt (winBytes (s.m.win w)) (4 * i) 4) ∧ n.getV v F.WIN_CMD_STATUS_DONE = 1 ∧
      Frame (fun k => k = viaKey v F.WIN_CMD_STATUS_DONE ∨ ∃ i < 8, k = viaKey v F.WIN_ENTRY i) s.m n) ∧
  (∀ (s : State) (t w : Nat) (c : WinClose), s.m.Inv → s.m.winCloses.find? (fun c => c.window == w) = some c →
    (s.m.winWaits w = false →
      Runs (.windowCloseComplete t w) s fun n =>
        n.win w = { s.m.win w with state := 0, gen := ((s.m.win w).gen + 1) % 65536 } ∧ n.winCloses = s.m.winCloses.filter (fun y => y.window != w) ∧
        (w < doorbellBase → n.used (s.m.win w).ownerHerd resWindows = s.m.used (s.m.win w).ownerHerd resWindows - 1) ∧
        (∃ e ∈ n.evq, e.code = 0x0500 ∧ e.dest = (s.m.win w).ownerHerd ∧ e.info0 = BitVec.ofNat 64 w ∧ e.info1 = BitVec.ofNat 64 (((s.m.win w).gen + 1) % 65536)) ∧
        StoresBut .peat (s.m.winAddr w) 32 s.m n) ∧
    (s.m.winWaits w = true → Runs (.windowCloseComplete t w) s fun n => n.win w = s.m.win w ∧ n.winCloses = s.m.winCloses ∧ Frame (fun _ => False) s.m n) ∧
    (c.since + s.m.leaseAt c.since ≤ (s.m.advance t).now →
      Runs (.windowCloseTimeout t w) s fun n =>
        n.win w = { s.m.win w with state := 0, gen := ((s.m.win w).gen + 1) % 65536 } ∧ n.winCloses = s.m.winCloses.filter (fun y => y.window != w) ∧
        (∃ e ∈ n.evq, e.code = 0x0500 ∧ e.dest = (s.m.win w).ownerHerd ∧ e.info0 = BitVec.ofNat 64 w) ∧ StoresBut .peat (s.m.winAddr w) 32 s.m n))

/-- Tiles (07_churn_arithmetic.md R194, R197, R198, R202 to R204; 14_herds.md R359). A write of SEED_HI sets the 64-bit seed of the selected tile and clears its launch counter;
the first detection of a launch has its pass executed again and is counted, the second ends it with INTEGRITY, which spoils at most its results; a single-bit error of tile
SRAM is counted, a double-bit one ends the tile's launch with UNCORRECTABLE; the scrubber goes word by word round an idle tile; a clear leaves zeros.
Where the spec leaves a point open, the model's choices hold: notes/assumptions 4, 5. -/
def Obligations.TileCommands : Prop :=
  (∀ (s : State) (v : Via) (w lo : Word) (u : Nat), s.m.Inv → s.m.Admits v F.CHU_SEED_HI.addr → u = s.m.getV v F.CHU_TILE_SEL_TILE → (∀ h, v.page = some h → s.m.tileOwned h u = true) →
      lo = (alGet s.m.shadow (viaKey v F.CHU_SEED_LO)).getD (s.m.reg (keyOf F.CHU_SEED_LO 0 u)) →
    Runs (.seedWrite v w) s fun n =>
      n.get64 F.CHU_SEED_LO 0 u = lo.toNat + w.toNat * 2 ^ 32 ∧ n.get F.CHU_LAUNCH_CTR_L 0 u = 0 ∧
      Frame (fun k => k = keyOf F.CHU_SEED_LO 0 u ∨ k = keyOf F.CHU_SEED_LO 0 u + 4 ∨ k = keyOf F.CHU_LAUNCH_CTR_L 0 u) s.m n) ∧
  (∀ (s : State) (t u : Nat) (l : Launch), s.m.Inv → s.m.Running → u < 64 → s.m.launchOn u = some l →
    Runs (.churnCheckDetect t u) s fun n =>
      (l.again = false →
        n.get F.CHU_RESIDUE_RECOMPUTED 0 u = min (s.m.get F.CHU_RESIDUE_RECOMPUTED 0 u + 1) (2 ^ F.CHU_RESIDUE_RECOMPUTED.wd - 1) ∧
        (n.srcState (srcTile u) < 2 → n.launch? l.uid = some { l with again := true } ∧ n.bit F.CHU_TILE_STATUS_RECOMPUTING 0 u = true) ∧
        Frame (fun k => fltKey k ∨ churnKey k ∨ k = keyOf F.CHU_RESIDUE_RECOMPUTED 0 u) s.m n) ∧
      (l.again = true →
        n.get F.CHU_RESIDUE_FAILED 0 u = min (s.m.get F.CHU_RESIDUE_FAILED 0 u + 1) (2 ^ F.CHU_RESIDUE_FAILED.wd - 1) ∧
        n.launch? l.uid = some { l with state := 3, fail := if l.fail.isSome then l.fail else some (stIntegrity, 0) } ∧
        (∀ i ∈ Mach.tilesOf l.mask, n.bit F.CHU_TILE_STATUS_BUSY 0 i = false) ∧
        SegsBut (((s.m.launchStreams l.entry l.args).zip l.streams).flatMap (fun x => if x.1.2.2.1 then x.2.1 else [])) s.m n)) ∧
  (∀ (s : State) (t u word : Nat), s.m.Inv → s.m.Running → u < 64 →
    (Runs (.tileSramEcc t u word false) s fun n =>
      n.get F.CHU_ECC_CORRECTED 0 u = min (s.m.get F.CHU_ECC_CORRECTED 0 u + 1) (2 ^ F.CHU_ECC_CORRECTED.wd - 1) ∧
      n.get F.FLT_SRC_EVENTS 0 (srcTsram u) = min (s.m.get F.FLT_SRC_EVENTS 0 (srcTsram u) + 1) (2 ^ F.FLT_SRC_EVENTS.wd - 1) ∧
      Frame (fun k => fltKey k ∨ churnKey k ∨ k = keyOf F.CHU_ECC_CORRECTED 0 u) s.m n) ∧
    (Runs (.tileSramEcc t u word true) s fun n =>
      n.get F.CHU_ECC_UNCORRECTED 0 u = min (s.m.get F.CHU_ECC_UNCORRECTED 0 u + 1) (2 ^ F.CHU_ECC_UNCORRECTED.wd - 1) ∧
      (∀ l, s.m.launchOn u = some l →
        n.launch? l.uid = some { l with state := 3, fail := if l.fail.isSome then l.fail else some (stUncorrectable, 0) } ∧
        ∀ i ∈ Mach.tilesOf l.mask, n.bit F.CHU_TILE_STATUS_BUSY 0 i = false) ∧
      Frame (fun k => fltKey k ∨ churnKey k ∨ k = keyOf F.CHU_ECC_CORRECTED 0 u) s.m n)) ∧
  (∀ (s : State) (t u bits w : Nat), s.m.Inv → s.m.Running → u < 64 → s.m.bit F.CHU_CTL_SCRUB_EN = true → s.m.bit F.CHU_TILE_STATUS_BUSY 0 u = false →
      w = (alGet s.m.chu.scrub u).getD 0 →
    Runs (.tileSramScrub t u bits) s fun n =>
      alGet n.chu.scrub u = some ((w + 1) % 131072) ∧
      (bits = 0 → n.chu.launches = s.m.chu.launches ∧ Frame (fun _ => False) s.m n) ∧
      (bits = 1 → n.get F.CHU_ECC_CORRECTED 0 u = min (s.m.get F.CHU_ECC_CORRECTED 0 u + 1) (2 ^ F.CHU_ECC_CORRECTED.wd - 1)) ∧
      (2 ≤ bits → n.get F.CHU_ECC_UNCORRECTED 0 u = min (s.m.get F.CHU_ECC_UNCORRECTED 0 u + 1) (2 ^ F.CHU_ECC_UNCORRECTED.wd - 1)) ∧
      Frame (fun k => fltKey k ∨ churnKey k ∨ k = keyOf F.CHU_ECC_CORRECTED 0 u) s.m n) ∧
  (∀ (s : State) (t u lo len : Nat), s.m.Inv → s.m.Running → s.m.chu.clears.find? (fun c => c.1 == u) = some (u, lo, len) →
    Runs (.tileSramClear t u) s fun n =>
      n.chu.clears = s.m.chu.clears.erase (u, lo, len) ∧ (∀ a, u * 2 ^ 20 + lo ≤ a → a < u * 2 ^ 20 + lo + len → memGet n.tsram a = 0) ∧
      (n.sramClearing u = false → n.bit F.CHU_TILE_STATUS_CLEARING 0 u = false) ∧
      StoresBut .tsram (u * 2 ^ 20 + lo) len s.m n ∧ RegsBut (fun k => k = keyOf F.CHU_TILE_STATUS_CLEARING 0 u) s.m n)

/-- The program table (08_churn_programs.md R213 to R215, R218; 14_herds.md R358). LOAD of an empty entry while nothing is CHECKING begins the load checks for the herd named, on a herd
page for its own; LOAD of a library entry is refused, as is LOAD while BUSY. The first check that fails is given with its reason and status and leaves the entry EMPTY; with none
the entry is LOADED and counts against its herd. UNLOAD of a LOADED entry that no plan bank names empties it, or drains it while its launches run.
Where the spec leaves a point open, the model's choices hold: notes/assumptions 28. -/
def Obligations.ProgramTable : Prop :=
  (∀ (s : State) (v : Via) (w : Word) (e : Nat), s.m.Inv → s.m.Admits v F.CHU_PROG_CMD_OP.addr → e = s.m.getV v F.CHU_PROG_SEL_PROGRAM →
    (64 ≤ e → s.m.prog e = none → s.m.progBusy = false →
      Runs (.programLoad v w) s fun n =>
        (∃ x, n.prog e = some x ∧ x.state = 1 ∧ x.herd = v.page.getD (getBits w.toNat 8 8)) ∧ n.get F.CHU_PROG_STATUS_STATE 0 e = 1 ∧ n.progBusy = true ∧
        (∀ i, i ≠ e → n.prog i = s.m.prog i) ∧ SameStores s.m n) ∧
    (e < 64 → v.page = none →
      Runs (.programLoad v w) s fun n =>
        n.bit F.CHU_PROG_STATUS_REFUSED 0 e = true ∧ n.get F.CHU_PROG_STATUS_REASON 0 e = 0x0C ∧ n.chu = s.m.chu ∧
        Frame (fun k => k = keyOf F.CHU_PROG_STATUS_STATE 0 e) s.m n) ∧
    (64 ≤ e → v.page = none → s.m.progBusy = true →
      Runs (.programLoad v w) s fun n =>
        n.bit F.CHU_PROG_STATUS_REFUSED 0 e = true ∧ n.get F.CHU_PROG_STATUS_REASON 0 e = 0x0B ∧ n.chu = s.m.chu ∧
        Frame (fun k => k = keyOf F.CHU_PROG_STATUS_STATE 0 e) s.m n)) ∧
  (∀ (s : State) (t e : Nat) (x : ProgEnt), s.m.Inv → s.m.Running → e < 1024 → s.m.prog e = some x → x.state = 1 →
    (∀ r st, s.m.loadCheck e x = some (r, st) →
      Runs (.programCheckComplete t e) s fun n =>
        n.prog e = none ∧ n.get F.CHU_PROG_STATUS_STATE 0 e = 0 ∧
        n.bit F.CHU_PROG_STATUS_REFUSED 0 e = true ∧ n.get F.CHU_PROG_STATUS_REASON 0 e = r ∧ n.get F.CHU_PROG_STATUS_STATUS 0 e = st % 2 ^ F.CHU_PROG_STATUS_STATUS.wd ∧
        Frame (fun k => progKey e x.herd k) s.m n) ∧
    (s.m.loadCheck e x = none → x.herd < 256 →
      Runs (.programCheckComplete t e) s fun n =>
        n.prog e = some { x with state := 2 } ∧ n.get F.CHU_PROG_STATUS_STATE 0 e = 2 ∧ n.bit F.CHU_PROG_STATUS_DONE 0 e = true ∧ n.bit F.CHU_PROG_STATUS_REFUSED 0 e = false ∧
        n.get F.CHU_PROG_INFO_HERD 0 e = x.herd ∧ n.used x.herd resProgs = (s.m.used x.herd resProgs + 1) % 1024 ∧
        Frame (fun k => progKey e x.herd k) s.m n)) ∧
  (∀ (s : State) (v : Via) (e : Nat) (x : ProgEnt), s.m.Inv → s.m.Admits v F.CHU_PROG_CMD_OP.addr → e = s.m.getV v F.CHU_PROG_SEL_PROGRAM → 64 ≤ e →
      s.m.prog e = some x → (∀ h, v.page = some h → x.herd = h) →
    (x.state = 2 → s.m.progBusy = false → s.m.progNamed e = false →
      Runs (.programUnload v) s fun n =>
        n.bit F.CHU_PROG_STATUS_DONE 0 e = true ∧ (s.m.progRuns e = true → n.prog e = some { x with state := 3 } ∧ n.get F.CHU_PROG_STATUS_STATE 0 e = 3) ∧
        (s.m.progRuns e = false → n.prog e = none ∧ n.get F.CHU_PROG_STATUS_STATE 0 e = 0) ∧ Frame (fun k => progKey e x.herd k) s.m n) ∧
    (x.state = 2 → s.m.progBusy = false → s.m.progNamed e = true →
      Runs (.programUnload v) s fun n =>
        n.bit F.CHU_PROG_STATUS_REFUSED 0 e = true ∧ n.get F.CHU_PROG_STATUS_REASON 0 e = 0x0C ∧ n.chu = s.m.chu ∧
        Frame (fun k => k = keyOf F.CHU_PROG_STATUS_STATE 0 e) s.m n))

/-- A launch begins (08_churn_programs.md R216, R217, R220, R221, R223, R224; 05_queues_descriptors.md R139). CHURN_LAUNCH keeps the argument block's place for a LOADED entry; the block
is read and checked: the first failing check of R223 is captured and completes the launch, and one that passes is READY. It starts on all its tiles together, at an opening of
its owner's reservation or, without a plan's, when its tiles are free for long enough: seed and counter of each tile are taken and the counter goes up.
Where the spec leaves a point open, the model's choices hold: notes/assumptions 54, 55. -/
def Obligations.LaunchBeginnings : Prop :=
  (∀ (s : State) (t k : Nat) (d : Desc), s.m.Inv → (s.m.advance t).Dispatches k d (s.m.progForeign k d) → d.opcode = 0x28 →
    Runs (.churnLaunch t k) s fun n =>
      ∃ c, (s.m.advance t).Placed n k d c ∧ (s.m.progState d.target ≠ 2 → c.isSome = true) ∧ (∀ x, c = some x → ∀ l ∈ n.chu.launches, l ∈ s.m.chu.launches) ∧
        (c = none → ∃ l, n.chu.launches = s.m.chu.launches ++ [l] ∧ l.uid = s.m.qe.nextUid ∧ l.sq = k ∧ l.herd = s.m.sqHerd k ∧ l.asid = d.asid ∧ l.entry = d.target ∧
          l.state = 0 ∧ l.mask = d.bits 3 0 64 ∧ l.sched = (d.bits 3 0 64 == 0)) ∧ SameStores s.m n) ∧
  (∀ (s : State) (t u : Nat) (l : Launch) (m' : Mach) (args : List Byte), s.m.Inv → s.m.Running → s.m.launch? u = some l → l.state = 0 →
      (s.m.advance t).readSegs l.argSegs = (m', args) →
    (∀ r st, m'.launchCheck l args.length args = .error (r, st) →
      Runs (.launchArgsRead t u) s fun n =>
        n.launch? u = none ∧ s.m.Finished n l.sq l.uid { status := st, bytes := 0, deadline := false, time := (s.m.advance t).polder.toNat, detail := 0 } ∧
        n.bit F.CHU_LAUNCH_REFUSE_VALID = true ∧
        (s.m.bit F.CHU_LAUNCH_REFUSE_VALID = false → n.get F.CHU_LAUNCH_REFUSE_REASON = r ∧ n.get F.CHU_LAUNCH_REFUSE_PROGRAM = l.entry % 2 ^ F.CHU_LAUNCH_REFUSE_PROGRAM.wd ∧
          n.get F.CHU_LAUNCH_REFUSE_HERD = l.herd % 2 ^ F.CHU_LAUNCH_REFUSE_HERD.wd) ∧
        (s.m.bit F.CHU_LAUNCH_REFUSE_VALID = true → n.reg (keyOf F.CHU_LAUNCH_REFUSE_VALID) = s.m.reg (keyOf F.CHU_LAUNCH_REFUSE_VALID)) ∧ SameStores s.m n) ∧
    (∀ mask rec' m'' streams, l.sched = false → m'.launchCheck l args.length args = .ok (mask, rec') →
        m'.streamChecks l.herd l.asid (srcTile ((Mach.tilesOf mask).headD 0)) (m'.launchStreams l.entry args) = (m'', .ok streams) →
      Runs (.launchArgsRead t u) s fun n =>
        (∃ x, n.launch? u = some x ∧ x.state = 1 ∧ x.mask = l.mask ∧ x.args = args ∧ x.streams = streams ∧ x.readyAt = (s.m.advance t).polder ∧ x.sq = l.sq ∧ x.fail = l.fail) ∧
        n.qe.sqs = s.m.qe.sqs ∧ Frame xltKey s.m n)) ∧
  (∀ (s : State) (t u : Nat) (l : Launch) (c : Instr), s.m.Inv → s.m.Running → s.m.launch? u = some l → l.state = 1 → s.m.tilesFree l.mask = true →
      (c = .launchStartScheduled t u ∧ l.sched = true ∧ (s.m.advance t).occurrenceOpens l = true ∧
          (s.m.chu.launches.find? (fun x => x.sched && x.state == 1 && x.owner == l.owner && x.entry == l.entry)).map (fun x => x.uid) = some l.uid ∨
        c = .launchStartUnscheduled t u ∧ l.sched = false ∧ s.m.get F.CLK_STATUS_THROTTLE < 3 ∧
          (∀ x ∈ s.m.chu.launches.takeWhile (fun x => x.uid != l.uid), x.sched = false → x.state = 1 → x.mask &&& l.mask = 0) ∧
          ∀ i ∈ Mach.tilesOf l.mask, (s.m.advance t).tileUnreserved i (cycleUnits (l.cost + recomputeCycles)) = true) →
      (∀ i ∈ Mach.tilesOf l.mask, s.m.bit F.CLK_DOM_STATUS_RUNNING 0 (3 + i / 8) = true ∧ s.m.sramClearing i = false ∧
        ∃ a b, (s.m.advance t).sramPlace l i (s.m.sramNeed l) = some (a, b) ∧ s.m.sramForeign i a b l.herd = false) →
    Runs c s fun n =>
      (∃ x, n.launch? u = some x ∧ x.state = 2 ∧ x.since = (s.m.advance t).now ∧ x.mask = l.mask ∧
        x.seeds = (Mach.tilesOf l.mask).map (fun i => (s.m.get64 F.CHU_SEED_LO 0 i, s.m.get F.CHU_LAUNCH_CTR_L 0 i))) ∧
      (∀ i ∈ Mach.tilesOf l.mask, n.bit F.CHU_TILE_STATUS_BUSY 0 i = true ∧ n.get F.CHU_TILE_STATUS_HERD 0 i = l.herd % 2 ^ F.CHU_TILE_STATUS_HERD.wd ∧
        n.get F.CHU_LAUNCH_CTR_L 0 i = (s.m.get F.CHU_LAUNCH_CTR_L 0 i + 1) % 2 ^ 24) ∧
      n.get F.CHU_LAUNCHES = min (s.m.get F.CHU_LAUNCHES + 1) (2 ^ F.CHU_LAUNCHES.wd - 1) ∧ SameStores s.m n)

/-- A launch ends (08_churn_programs.md R208, R219, R220, R222, R227; 07_churn_arithmetic.md R203, R204). The outputs of a pass are written; after the last pass its tiles are free, the scratch of an
unscheduled launch begins to be cleared, and the launch waits for its writes. A launch that takes more than its cost and a recompute ends with INTEGRITY, one that goes beyond
a stream with XLATE_FAULT. Once its writes have landed it completes: DONE with its flags, whether a pass was repeated, and KRESULT; or its failure.
Where the spec leaves a point open, the model's choices hold: notes/assumptions 52, 56. -/
def Obligations.LaunchEnds : Prop :=
  (∀ (s : State) (t u units : Nat) (user : ProgPass) (l : Launch), s.m.Inv → s.m.Running → s.m.launch? u = some l → l.state = 2 →
    (∀ o, l.entry < 64 → (Mach.kernelIn l).run l.done ((Mach.kernelIn l).units - l.done) = (o, none) →
      Runs (.launchPassEnd t u units true user) s fun n =>
        (∃ x, n.launch? u = some x ∧ x.state = 3 ∧ x.fail = l.fail ∧ x.kres = l.kres + o.k ∧ x.flags = l.flags ||| o.flags) ∧
        (∀ i ∈ Mach.tilesOf l.mask, n.bit F.CHU_TILE_STATUS_BUSY 0 i = false) ∧ StoresOf ((s.m.advance t).launchWrites l o.writes) n) ∧
    (64 ≤ l.entry →
        (∀ w ∈ user.writes, (nthD (s.m.launchStreams l.entry l.args) w.1 (false, false, false, 0, 0, 0)).2.2.1 = true ∧
          w.2.1 + w.2.2.length ≤ (nthD l.streams w.1 ([], 0)).2) →
      Runs (.launchPassEnd t u units true user) s fun n =>
        (∃ x, n.launch? u = some x ∧ x.state = 3 ∧ x.fail = l.fail ∧ x.kres = user.kresult ∧ x.flags = l.flags ||| user.flags % 64) ∧
        (∀ i ∈ Mach.tilesOf l.mask, n.bit F.CHU_TILE_STATUS_BUSY 0 i = false ∧
          n.reg (keyOf F.CHU_EXC_INVALID 0 i) = s.m.reg (keyOf F.CHU_EXC_INVALID 0 i) ||| BitVec.ofNat 32 (user.flags % 64)) ∧
        (l.sched = false → ∀ i a b, i ∈ Mach.tilesOf l.mask → (s.m.advance t).sramPlace l i (s.m.sramNeed l) = some (a, b) → 0 < b → (i, a, b) ∈ n.chu.clears) ∧
        StoresOf ((s.m.advance t).launchWrites l user.writes) n)) ∧
  (∀ (s : State) (t u : Nat) (l : Launch), s.m.Inv → s.m.Running → s.m.launch? u = some l → l.state = 2 →
      l.since + cycleUnits (l.cost + recomputeCycles) ≤ (s.m.advance t).now →
    Runs (.launchBudgetExceeded t u) s fun n =>
      n.launch? u = some { l with state := 3, fail := if l.fail.isSome then l.fail else some (stIntegrity, 0) } ∧
      n.get F.CHU_BUDGET_OVER = min (s.m.get F.CHU_BUDGET_OVER + 1) (2 ^ F.CHU_BUDGET_OVER.wd - 1) ∧ SameStores s.m n) ∧
  (∀ (s : State) (t u i off a : Nat) (l : Launch), s.m.Inv → s.m.Running → s.m.launch? u = some l → l.state = 2 → i < l.streams.length →
      (nthD l.streams i ([], 0)).2 ≤ off → a = (nthD (s.m.launchStreams l.entry l.args) i (false, false, false, 0, 0, 0)).2.2.2.1 + off →
    Runs (.streamOverrun t u i off) s fun n =>
      n.launch? u = some { l with state := 3, fail := if l.fail.isSome then l.fail else some (stXlate, a) } ∧ n.bit F.XLT_FAULT_INFO_VALID = true ∧
      (s.m.bit F.XLT_FAULT_INFO_VALID = false → n.get64 F.XLT_FAULT_ADDR_LO = a % 2 ^ 64 ∧ n.get F.XLT_FAULT_INFO_ASID = l.asid % 2 ^ F.XLT_FAULT_INFO_ASID.wd) ∧
      (s.m.bit F.XLT_FAULT_INFO_VALID = true → n.reg (keyOf F.XLT_FAULT_INFO_VALID) = s.m.reg (keyOf F.XLT_FAULT_INFO_VALID)) ∧
      Frame (fun k => xltKey k ∨ churnKey k) s.m n) ∧
  (∀ (s : State) (t u : Nat) (l : Launch), s.m.Inv → s.m.Running → s.m.launch? u = some l → l.state = 3 →
    (s.m.landed 5 l.uid 0 = true →
      Runs (.launchComplete t u) s fun n =>
        n.chu.launches = s.m.chu.launches.filter (fun x => x.uid != u) ∧
        s.m.Finished n l.sq l.uid { status := (l.fail.map (·.1)).getD stDone, bytes := 0, deadline := false, time := (s.m.advance t).polder.toNat
                                    detail := match l.fail with
                                      | some (_, d) => d
                                      | none => l.flags + (if l.again then 256 else 0) + l.kres % 2 ^ 32 * 2 ^ 32 } ∧
        (s.m.bit F.CHU_CTL_EXC_EVENT = true → l.flags &&& 33 ≠ 0 → ∃ e ∈ n.evq, e.code = 0x0600 ∧ e.dest = l.herd) ∧ SameStores s.m n) ∧
    (s.m.landed 5 l.uid 0 = false → Runs (.launchComplete t u) s fun n => n.chu = s.m.chu ∧ Frame (fun _ => False) s.m n))

/-- Starts of collectives (09_collectives.md R239 to R243, R250, R252, R255, R257, R258; 05_queues_descriptors.md R140). A start completes at once where the module has no such group, where the
group is BROKEN, and where SEQ is not its next generation; else it takes that generation, which begins to run in a group with no other, with the ranges that its operation
reads and writes as their translations gave them; a rerun takes them over from the revoked generation that it names.
Where the spec leaves a point open, the model's choices hold: notes/assumptions 57. -/
def Obligations.CollectiveStarts : Prop :=
  (∀ (s : State) (t k : Nat) (d : Desc) (c : Instr), s.m.Inv → (s.m.advance t).Dispatches k d (s.m.collForeign k d) → d.opcode = 0x20 →
      (c, d.bits 4 0 8) ∈ [(Instr.allReduce t k, 1), (.reduceScatter t k, 2), (.allGather t k, 3), (.broadcast t k, 4), (.allReduceLowrank t k, 0x10), (.reduceScatterAdam t k, 0x11),
        (.rerun t k, 0x7F)] →
    (∀ st, (s.m.grp? d.target = none ∧ st = (if s.m.planLoaded then stUnsupported else stPlanAbsent) ∨
        (∃ x, s.m.grp? d.target = some x ∧ (x.broken = true ∧ st = stAborted ∨
          x.broken = false ∧ d.bits 4 32 32 ≠ s.m.get F.COLL_GEN_NEXT 0 d.target ∧ st = stUnsupported))) →
      Runs c s fun n =>
        (s.m.advance t).Placed n k d (some { status := st, bytes := 0, deadline := false, time := (s.m.advance t).polder.toNat, detail := Mach.collDetail d.target (d.bits 4 32 32) }) ∧
        n.coll = s.m.coll ∧ Frame (fun x => x = keyOf F.QE_SQ_STATUS_IDLE 0 k) s.m n) ∧
    (∀ x m1 m2 src dst args dtype wire op, s.m.grp? d.target = some x → x.broken = false → d.bits 4 32 32 = s.m.get F.COLL_GEN_NEXT 0 d.target → x.gens = [] → x.early = [] → x.held = [] →
        x.def'.inPlace = true → d.bits 4 0 8 = op → op ≠ 0x7F → dtype = (if op = 0x10 then Mach.argScalar args 4 % 2 ^ 32 else d.bits 4 8 8) → wire = (if d.bits 6 0 8 = 0xFF then dtype else d.bits 6 0 8) →
        (op < 5 → args = [] ∧ s.m.startBad x op dtype wire (d.bits 6 8 8) d.length = false ∧ (op = 4 → d.bits 5 0 10 < x.def'.members) ∧
          (if op = 4 ∧ d.bits 5 0 10 ≠ x.def'.rank ∨ d.length = 0 then m1 = s.m.advance t ∧ src = []
            else (s.m.advance t).tile (s.m.sqHerd k) d.asid accRead srcColl (d.bits 2 0 64) d.length = (m1, .ok src)) ∧
          (if op = 4 ∧ d.bits 5 0 10 = x.def'.rank then m2 = m1 ∧ dst = []
            else m1.tile (s.m.sqHerd k) d.asid accWrite srcColl (d.bits 3 0 64) (Mach.dstBytes x op d.length dtype) = (m2, .ok dst))) →
        (op = 0x10 → ∃ ss, (s.m.advance t).fusedBlocks (s.m.sqHerd k) d.asid op (d.bits 5 0 64) = (m1, .ok (args, ss)) ∧ src = [] ∧ dst = (nthD ss 5 ([], 0)).1 ∧
          s.m.startBad x op dtype wire (d.bits 6 8 8) (packedBytes dtype (Mach.argScalar args 0 % 2 ^ 32 * (Mach.argScalar args 2 % 2 ^ 32))) = false) →
        (op = 0x11 → ∃ ss, (s.m.advance t).fusedBlocks (s.m.sqHerd k) d.asid op (d.bits 5 0 64) = (m1, .ok (args, ss)) ∧ dst = (nthD ss 0 ([], 0)).1 ∧ d.length ≠ 0 ∧
          m1.tile (s.m.sqHerd k) d.asid accRead srcColl (d.bits 2 0 64) d.length = (m2, .ok src) ∧ s.m.startBad x op dtype wire (d.bits 6 8 8) d.length = false) →
      Runs c s fun n =>
        (∃ r, (s.m.advance t).Placed n k d r ∧ (op ≠ 0x10 → r = none)) ∧ n.get F.COLL_GEN_NEXT 0 d.target = (d.bits 4 32 32 + 1) % 2 ^ 32 ∧
        ∃ x' y, n.grp? d.target = some x' ∧ x'.gens = [y] ∧ y.gen = d.bits 4 32 32 ∧ y.op = op ∧ y.dtype = dtype ∧ y.wire = wire ∧ y.src = src ∧ y.dst = dst ∧ y.sq = k ∧
          y.uid = s.m.qe.nextUid ∧ (y.state = 1 ∨ op = 0x10 ∧ y.state = 4) ∧ (op ≠ 3 → op ≠ 0x10 → SameStores s.m n)) ∧
    (∀ x y m1 dst, s.m.grp? d.target = some x → x.broken = false → d.bits 4 32 32 = s.m.get F.COLL_GEN_NEXT 0 d.target → x.gens = [y] → x.early = [] → x.held = [] → d.bits 4 0 8 = 0x7F →
        y.gen = d.bits 5 0 32 → y.gen ≠ d.bits 4 32 32 → y.state = 4 →
        (if y.op = 0x10 ∨ y.op = 0x11 then m1 = s.m.advance t ∧ dst = y.dst else if y.op = 4 ∧ x.def'.rank = y.root then m1 = s.m.advance t ∧ dst = []
          else (s.m.advance t).tile (s.m.sqHerd k) d.asid accWrite srcColl (d.bits 3 0 64) (Mach.dstBytes x y.op y.len y.dtype) = (m1, .ok dst)) →
      Runs c s fun n =>
        (∃ r, (s.m.advance t).Placed n k d r ∧ (y.op ≠ 0x10 → r = none)) ∧ n.get F.COLL_GEN_NEXT 0 d.target = (d.bits 4 32 32 + 1) % 2 ^ 32 ∧
        ∃ x' z, n.grp? d.target = some x' ∧ x'.gens = [y, z] ∧ z.gen = d.bits 4 32 32 ∧ z.op = y.op ∧ z.len = y.len ∧ z.src = y.src ∧ z.dst = dst ∧ z.sq = k ∧
          z.rerun = some y.gen ∧ (z.state = 1 ∨ y.op = 0x10 ∧ z.state = 4)))

/-- Frames and generations of a collective group (09_collectives.md R243 to R247, R249, R251, R253, R254, R259; 06_translation_windows.md R161). A dynamic group with something to send sends it in
its turn, its credit and a token to the predecessor; an unacknowledged frame goes again after its timeout, until the limit aborts the group; an arriving frame is taken once:
a piece whose check fails revokes its generation, a good one counts as received; CONFIRM, SEALED, REVOKE and ABORT act at the member. A generation whose writes have landed
is given as DONE_PROVISIONAL; the group timeout aborts the group. A transfer tile at a queue pair that fails completes its descriptor.
Where the spec leaves a point open, the model's choices hold: notes/assumptions 29, 57, 58. -/
def Obligations.CollectiveFrames : Prop :=
  (∀ (s : State) (t g : Nat) (x : Grp), s.m.Inv → s.m.Running → s.m.grp? g = some x →
    (Mach.dynReady x = true → (∀ p ∈ s.m.coll.groups, p.1 ≠ g → Mach.dynReady p.2 = true → x.bytes * max 1 p.2.weight ≤ p.2.bytes * max 1 x.weight) →
      Runs (.dynChunkSend t g) s fun n =>
        (∃ fs, n.beq.dyn = s.m.beq.dyn ++ fs ∧ (∀ f ∈ fs, f.2.group = g ∧ f.2.dynamic = true ∧ f.1 = if f.2.back then x.def'.predModule else x.def'.succModule) ∧
          (x.due = true ∨ x.backTokens ≠ [] → ∃ f ∈ fs, f.2.back = true ∧ f.2.credit = x.freed ∧ f.2.token = (x.backTokens.headD (0, 0)).1) ∧
          (x.fwdTokens ≠ [] → ∃ f ∈ fs, f.2.back = false ∧ f.2.token = (x.fwdTokens.headD (0, 0)).1 ∧ f.2.tokenGen = (x.fwdTokens.headD (0, 0)).2)) ∧
        Frame (fun k => k = keyOf F.COLL_CREDIT_STALL 0 g ∨ collKey g k) s.m n) ∧
    (Mach.dynReady x = false → Runs (.dynChunkSend t g) s fun n => n.coll = s.m.coll ∧ n.beq = s.m.beq ∧ Frame (fun _ => False) s.m n)) ∧
  (∀ (s : State) (t g : Nat) (back : Bool) (x : Grp) (c : ChunkFrame) (at' tries : Nat) (rest : List (ChunkFrame × Nat × Nat)), s.m.Inv → s.m.Running → s.m.grp? g = some x →
      (if back then x.pred else x.succ).unacked = (c, at', tries) :: rest → at' + s.m.get F.BEQ_RTX_RTO_MIN * us * 2 ^ tries ≤ (s.m.advance t).now →
    (tries < s.m.get F.BEQ_RTX_RETRY →
      Runs (.dynChunkRto t g back) s fun n =>
        n.beq.dyn = s.m.beq.dyn ++ [(if back then x.def'.predModule else x.def'.succModule, c)] ∧
        (∃ x', n.grp? g = some x' ∧ (if back then x'.pred else x'.succ).unacked = (c, (s.m.advance t).now, tries + 1) :: rest) ∧ Frame (collKey g) s.m n) ∧
    (s.m.get F.BEQ_RTX_RETRY ≤ tries →
      Runs (.dynChunkRto t g back) s fun n => (∃ x', n.grp? g = some x' ∧ x'.broken = true ∧ x'.fwdTokens = [(4, 0)] ∧ x'.backTokens = [(4, 0)]) ∧ SameStores s.m n)) ∧
  (∀ (s : State) (t : Nat) (c : ChunkFrame) (m' : Mach), s.m.Inv → s.m.Running → (s.m.advance t).takeChunk = some (c, none, m') →
    (s.m.grp? c.group = none →
      Runs (.chunkFrameReceived t) s fun n =>
        n.get F.BEQ_DROP = min (s.m.get F.BEQ_DROP + 1) (2 ^ F.BEQ_DROP.wd - 1) ∧ n.coll = s.m.coll ∧ Frame (fun k => k = keyOf F.BEQ_DROP) s.m n) ∧
    (∀ x, s.m.grp? c.group = some x → x.dynamic = true → c.back = false → (c.pieces ≠ [] ∨ c.token ≠ 0) → (c.seq ∈ x.pred.above ∨ seqLe x.pred.rx c.seq = false) →
      Runs (.chunkFrameReceived t) s fun n =>
        (∃ x', n.grp? c.group = some x' ∧ x'.gens = x.gens ∧ x'.held = x.held ∧ x'.due = true) ∧ Frame (collKey c.group) s.m n) ∧
    (∀ x, s.m.grp? c.group = some x → x.dynamic = true → c.back = false → (c.pieces ≠ [] ∨ c.token ≠ 0) → x.pred.above = [] → c.seq = x.pred.rx → x.broken = false →
      (Runs (.chunkFrameReceived t) s fun n => ∃ x', n.grp? c.group = some x' ∧ x'.pred.rx = seqNext x.pred.rx ∧ x'.due = true) ∧
      (∀ p y, c.pieces = [p] → c.token = 0 → Mach.gen? x p.gen = some y → y.state = 1 →
        (KIn.sealCrc p.data p.gen % 2 ^ 32 ≠ p.crc →
          Runs (.chunkFrameReceived t) s fun n =>
            (∃ x' y', n.grp? c.group = some x' ∧ Mach.gen? x' p.gen = some y' ∧ y'.state = 4 ∧ x'.fwdTokens = x.fwdTokens ++ [(3, p.gen)]) ∧
            n.get F.COLL_CRC_FAIL 0 c.group = min (s.m.get F.COLL_CRC_FAIL 0 c.group + 1) (2 ^ 32 - 1) ∧
            n.get F.COLL_REVOKES 0 c.group = min (s.m.get F.COLL_REVOKES 0 c.group + 1) (2 ^ 32 - 1) ∧
            (y.given = false → s.m.Finished n y.sq y.uid { status := stRevoked, bytes := 0, deadline := false, time := (s.m.advance t).polder.toNat
                                                           detail := Mach.collDetail c.group y.gen }) ∧ SameStores s.m n) ∧
        (KIn.sealCrc p.data p.gen % 2 ^ 32 = p.crc → reduces y.op = true ∧ p.step + 2 ≤ x.def'.members →
          Runs (.chunkFrameReceived t) s fun n => ∃ x' y', n.grp? c.group = some x' ∧ Mach.gen? x' p.gen = some y' ∧ y'.recv = y.recv + p.data.length) ∧
        (KIn.sealCrc p.data p.gen % 2 ^ 32 = p.crc → y.op = 3 → x.def'.members ≤ p.step + 1 → p.step + 3 ≤ 2 * x.def'.members →
          Runs (.chunkFrameReceived t) s fun n => StoresOf ((s.m.advance t).dstWrite c.group x y
            ((x.def'.rank + 2 * x.def'.members - 1 - (p.step + 1 - x.def'.members)) % x.def'.members * y.len + p.offset) p.data) n)) ∧
      (∀ y, c.pieces = [] → Mach.gen? x c.tokenGen = some y → y.gen = c.tokenGen →
        (c.token = 2 → y.state = 3 → y.op ≠ 0x11 → y.whey = none → y.rerun = none → x.gens = [y] →
          Runs (.chunkFrameReceived t) s fun n =>
            n.get F.COLL_GEN_SEALED 0 c.group = c.tokenGen % 2 ^ 32 ∧ (∃ e ∈ n.evq, e.code = 0x0700 ∧ e.dest = x.def'.herd) ∧
            (∃ x', n.grp? c.group = some x' ∧ x'.gens = []) ∧ SameStores s.m n) ∧
        (c.token = 1 → y.state = 3 → x.def'.rank ≠ 0 →
          Runs (.chunkFrameReceived t) s fun n => (∃ x', n.grp? c.group = some x' ∧ x'.fwdTokens = x.fwdTokens ++ [(1, c.tokenGen)]) ∧ Frame (collKey c.group) s.m n) ∧
        (c.token = 3 → y.state = 3 → y.given = true →
          Runs (.chunkFrameReceived t) s fun n =>
            (∃ x' y', n.grp? c.group = some x' ∧ Mach.gen? x' c.tokenGen = some y' ∧ y'.state = 4) ∧ (∃ e ∈ n.evq, e.code = 0x0701 ∧ e.dest = x.def'.herd) ∧ SameStores s.m n) ∧
        (c.token = 4 →
          Runs (.chunkFrameReceived t) s fun n =>
            (∃ x', n.grp? c.group = some x' ∧ x'.broken = true ∧ ∀ z ∈ x'.gens, z.state = 5 ∧ z ∈ x.gens) ∧
            n.get F.COLL_ABORTS 0 c.group = min (s.m.get F.COLL_ABORTS 0 c.group + 1) (2 ^ 32 - 1) ∧ SameStores s.m n)))) ∧
  (∀ (s : State) (t : Nat) (c : ChunkFrame) (sh : Bool) (m' : Mach), s.m.Inv → s.m.Running → (s.m.advance t).takeChunk = some (c, some sh, m') →
    (s.m.inRec c.dstLode = none ∨ s.m.grp? c.group = none →
      Runs (.chunkFrameReceived t) s fun n =>
        n.get F.SLU_LODE_UNKNOWN = min (s.m.get F.SLU_LODE_UNKNOWN + 1) (2 ^ F.SLU_LODE_UNKNOWN.wd - 1) ∧ n.coll = s.m.coll ∧
        Frame (fun k => k = keyOf F.SLU_LODE_UNKNOWN) s.m n) ∧
    (∀ rec x, s.m.inRec c.dstLode = some rec → rec.covered = false → s.m.grp? c.group = some x → x.dynamic = false →
        rec.srcModule = (if c.back then x.def'.succModule else x.def'.predModule) →
        (c.seq ∈ (s.m.lrx c.dstLode).placed ∨ seqLe (s.m.lrx c.dstLode).lowest c.seq = false) →
      Runs (.chunkFrameReceived t) s fun n =>
        n.get F.SLU_LODE_DUP = min (s.m.get F.SLU_LODE_DUP + 1) (2 ^ F.SLU_LODE_DUP.wd - 1) ∧ n.coll = s.m.coll ∧ Frame (fun k => k = keyOf F.SLU_LODE_DUP) s.m n)) ∧
  (∀ (s : State) (t g gen : Nat) (x : Grp) (y : Gen), s.m.Inv → s.m.Running → s.m.grp? g = some x → Mach.gen? x gen = some y → y.gen = gen →
    (s.m.genLanded g gen = true → y.state = 1 → y.need ≤ y.recv → (y.op = 0x10 → y.expanded = true) → y.given = false →
      Runs (.generationDelivered t g gen) s fun n =>
        (∃ x' y', n.grp? g = some x' ∧ Mach.gen? x' gen = some y' ∧ y'.state = 3 ∧ y'.given = (y.op != 0x11) ∧
          x'.fwdTokens = x.fwdTokens ++ (if x.def'.rank = 0 ∨ y.confirm = true then [(1, gen)] else [])) ∧
        (y.op ≠ 0x11 → s.m.Finished n y.sq y.uid { status := stProvisional, bytes := y.len, deadline := false, time := (s.m.advance t).polder.toNat, detail := Mach.collDetail g gen }) ∧
        (y.op = 0x11 → n.qe.sqs = s.m.qe.sqs) ∧ Frame (collKey g) s.m n) ∧
    (s.m.genLanded g gen = true → y.state = 5 → y.given = false →
      Runs (.generationDelivered t g gen) s fun n =>
        s.m.Finished n y.sq y.uid { status := stDone, bytes := y.len, deadline := false, time := (s.m.advance t).polder.toNat, detail := Mach.collDetail g gen } ∧
        (∃ x', n.grp? g = some x' ∧ Mach.gen? x' gen = none) ∧ Frame (collKey g) s.m n) ∧
    (s.m.genLanded g gen = false → Runs (.generationDelivered t g gen) s fun n => n.coll = s.m.coll ∧ n.qe.sqs = s.m.qe.sqs ∧ Frame (fun _ => False) s.m n)) ∧
  (∀ (s : State) (t g : Nat) (x : Grp) (y : Gen), s.m.Inv → s.m.Running → s.m.grp? g = some x → x.gens = [y] → y.state = 1 ∨ y.state = 2 →
    (max y.began x.heard + s.m.groupTimeoutUnits x ≤ (s.m.advance t).now →
      Runs (.groupTimeout t g) s fun n =>
        (∃ x', n.grp? g = some x' ∧ x'.broken = true ∧ x'.gens = [] ∧ x'.fwdTokens = [(4, 0)] ∧ x'.backTokens = [(4, 0)]) ∧
        n.get F.COLL_ABORTS 0 g = min (s.m.get F.COLL_ABORTS 0 g + 1) (2 ^ 32 - 1) ∧
        (y.given = false → s.m.Finished n y.sq y.uid { status := stAborted, bytes := 0, deadline := false, time := (s.m.advance t).polder.toNat, detail := Mach.collDetail g y.gen }) ∧
        (y.given = true → ∃ e ∈ n.evq, e.code = 0x0702 ∧ e.dest = x.def'.herd) ∧ Frame (fun k => k = keyOf F.COLL_ABORTS 0 g ∨ collKey g k) s.m n) ∧
    ((s.m.advance t).now < max y.began x.heard + s.m.groupTimeoutUnits x →
      Runs (.groupTimeout t g) s fun n => n.coll = s.m.coll ∧ Frame (fun _ => False) s.m n)) ∧
  (∀ (s : State) (t q : Nat) (g : QpMsg) (m' : Mach), s.m.Inv → s.m.Running → (s.m.qp q).msgs.find? (fun g => g.segs.isNone) = some g →
    (∀ segs, (s.m.advance t).tile (s.m.qpHerd q) g.asid (if g.kind = .read then accWrite else accRead) srcBeq g.va g.len = (m', .ok segs) →
      Runs (.transferTileChecked t 0 q) s fun n =>
        (n.qp q).msgs = (s.m.qp q).msgs.map (fun y => if y = g then { g with segs := some segs } else y) ∧ Frame xltKey s.m n) ∧
    (∀ st a k u, (s.m.advance t).tile (s.m.qpHerd q) g.asid (if g.kind = .read then accWrite else accRead) srcBeq g.va g.len = (m', .error (st, a)) → g.sq = some (k, u) →
      Runs (.transferTileChecked t 0 q) s fun n =>
        (n.qp q).msgs = (s.m.qp q).msgs.filter (fun y => y != g) ∧
        s.m.Finished n k u { status := st, bytes := 0, deadline := false, time := (s.m.advance t).polder.toNat, detail := a } ∧ Frame xltKey s.m n)) ∧
  (∀ (s : State) (t q : Nat) (b : QpBuf) (m' : Mach) (segs : List Seg), s.m.Inv → s.m.Running → (s.m.qp q).bufs.find? (fun b => b.segs.isNone) = some b →
      (s.m.advance t).tile (s.m.sqHerd b.sq) b.asid accWrite srcBeq b.va b.len = (m', .ok segs) →
    Runs (.transferTileChecked t 1 q) s fun n =>
      (n.qp q).bufs = (s.m.qp q).bufs.map (fun y => if y = b then { b with segs := some segs } else y) ∧ Frame xltKey s.m n)

/-- Commands on groups (09_collectives.md R238, R254 to R256, R260, R262; 14_herds.md R358). CREATE makes the dynamic group that COLL_DYN stages where its number is free, its herd has a group left
and Cream for its credit buffer, and its values are in range; else it is refused with the reason. DESTROY of a dynamic group aborts and removes it; RESET clears BROKEN and
sets the next generation; RELEASE frees a revoked generation. A detection in a tile of a scheduled group repeats the pass once and then revokes the generation.
Where the spec leaves a point open, the model's choices hold: notes/assumptions 57. -/
def Obligations.CollectiveCommands : Prop :=
  (∀ (s : State) (v : Via) (d : GroupRec) (w : Nat), s.m.Inv → s.m.Admits v F.COLL_CMD_OP.addr → (∀ h, v.page = some h → h < 256) → s.m.stagedGroup v = (d, w) →
    (s.m.grp? d.group = none → s.m.coll.groups.length < 128 → s.m.roomFor d.herd resGroups 1 = true → d.group < 4096 → 2 ≤ d.members → d.members ≤ 1024 → d.rank < d.members →
        4 ≤ d.credits → d.credits ≤ 1024 → w ≠ 0 → 0 < d.maxBytes → d.maxBytes ≤ 16777216 → d.keepBase % 4096 = 0 → d.predModule ≤ 1023 → d.succModule ≤ 1023 →
        d.credits * 16384 ≤ s.m.creamFree d.herd →
      Runs (.collCreate v) s fun n =>
        n.grp? d.group = some (freshGrp d true w) ∧ n.get F.COLL_GEN_NEXT 0 d.group = 0 ∧ n.bit F.COLL_GROUP_STATUS_VALID 0 d.group = true ∧
        n.used d.herd resGroups = (s.m.used d.herd resGroups + 1) % 256 ∧ n.getV v F.COLL_CMD_STATUS_DONE = 1 ∧ n.getV v F.COLL_CMD_STATUS_REFUSED = 0 ∧ SameStores s.m n) ∧
    (∀ r, (s.m.grp? d.group).isSome = true ∧ r = 1 ∨
        s.m.grp? d.group = none ∧ (s.m.roomFor d.herd resGroups 1 = false ∧ r = 3 ∨
          s.m.roomFor d.herd resGroups 1 = true ∧ s.m.coll.groups.length < 128 ∧ (d.members < 2 ∨ d.members ≤ d.rank ∨ d.credits < 4 ∨ w = 0) ∧ r = 5) →
      Runs (.collCreate v) s fun n =>
        n.getV v F.COLL_CMD_STATUS_REFUSED = 1 ∧ n.getV v F.COLL_CMD_STATUS_REASON = r ∧ n.coll = s.m.coll ∧ Frame (fun k => k = viaKey v F.COLL_CMD_STATUS_DONE) s.m n)) ∧
  (∀ (s : State) (v : Via) (g : Nat) (x : Grp), s.m.Inv → s.m.Admits v F.COLL_CMD_OP.addr → (∀ h, v.page = some h → h < 256 ∧ x.def'.herd = h) → g = s.m.getV v F.COLL_SEL_GROUP →
      s.m.grp? g = some x →
    (x.dynamic = true →
      Runs (.collDestroy v) s fun n =>
        n.grp? g = none ∧ n.bit F.COLL_GROUP_STATUS_VALID 0 g = false ∧ n.getV v F.COLL_CMD_STATUS_DONE = 1 ∧
        (0 < s.m.used x.def'.herd resGroups → n.used x.def'.herd resGroups + 1 = s.m.used x.def'.herd resGroups) ∧ SameStores s.m n) ∧
    (x.dynamic = false →
      Runs (.collDestroy v) s fun n =>
        n.getV v F.COLL_CMD_STATUS_REFUSED = 1 ∧ n.getV v F.COLL_CMD_STATUS_REASON = 6 ∧ n.coll = s.m.coll ∧ Frame (fun k => k = viaKey v F.COLL_CMD_STATUS_DONE) s.m n) ∧
    (Runs (.collReset v) s fun n =>
      (∃ x', n.grp? g = some x' ∧ x'.broken = false ∧ x'.def' = x.def' ∧ x'.held = [] ∧ x'.fwdTokens = []) ∧ n.get F.COLL_GEN_NEXT 0 g = s.m.getV v F.COLL_GEN_ARG ∧
      n.getV v F.COLL_CMD_STATUS_DONE = 1 ∧ SameStores s.m n) ∧
    (∀ y, Mach.gen? x (s.m.getV v F.COLL_GEN_ARG) = some y →
      (y.state = 4 →
        Runs (.collRelease v) s fun n =>
          (∃ x', n.grp? g = some x' ∧ Mach.gen? x' (s.m.getV v F.COLL_GEN_ARG) = none) ∧ n.getV v F.COLL_CMD_STATUS_DONE = 1) ∧
      (y.state ≠ 4 →
        Runs (.collRelease v) s fun n =>
          n.getV v F.COLL_CMD_STATUS_REFUSED = 1 ∧ n.getV v F.COLL_CMD_STATUS_REASON = 8 ∧ n.coll = s.m.coll ∧ Frame (fun k => k = viaKey v F.COLL_CMD_STATUS_DONE) s.m n))) ∧
  (∀ (s : State) (v : Via) (c : Instr), c ∈ [Instr.collDestroy v, .collReset v, .collRelease v] → s.m.Inv → s.m.Admits v F.COLL_CMD_OP.addr → s.m.grp? (s.m.getV v F.COLL_SEL_GROUP) = none →
    Runs c s fun n =>
      n.getV v F.COLL_CMD_STATUS_REFUSED = 1 ∧ n.getV v F.COLL_CMD_STATUS_REASON = 2 ∧ n.coll = s.m.coll ∧ Frame (fun k => k = viaKey v F.COLL_CMD_STATUS_DONE) s.m n) ∧
  (∀ (s : State) (t u g : Nat) (x : Grp) (y : Gen), s.m.Inv → s.m.Running → u < 64 → s.m.launchOn u = none →
      s.m.coll.groups.find? (fun p => !p.2.dynamic && (s.m.grpTiles p.2).contains u && p.2.gens.any (fun y => y.state == 1)) = some (g, x) → s.m.grp? g = some x →
      x.gens.find? (fun y => y.state == 1) = some y →
    Runs (.churnCheckDetect t u) s fun n =>
      (y.again = false → n.get F.CHU_RESIDUE_RECOMPUTED 0 u = min (s.m.get F.CHU_RESIDUE_RECOMPUTED 0 u + 1) (2 ^ F.CHU_RESIDUE_RECOMPUTED.wd - 1) ∧
        (∃ x' y', n.grp? g = some x' ∧ Mach.gen? x' y.gen = some y' ∧ y'.again = true)) ∧
      (y.again = true → n.get F.CHU_RESIDUE_FAILED 0 u = min (s.m.get F.CHU_RESIDUE_FAILED 0 u + 1) (2 ^ F.CHU_RESIDUE_FAILED.wd - 1)) ∧ SameStores s.m n)

/-- Granules of Peat (10_memory.md R273 to R276, R278). ASSIGN gives the granules from the one selected, in ascending order, the staged entry where each is FREE and its herd has room;
an encrypted one is CLEARING first. RELEASE of ASSIGNED granules leaves them CLEARING; a granule that stops a command is named with the reason. A cleared granule reads as
zeros and is FREE, or ASSIGNED where it was being assigned. Every entry stands at four times its number in the copy of the table too.
Where the spec leaves a point open, the model's choices hold: notes/assumptions 59, 60. -/
def Obligations.PeatGranules : Prop :=
  (∀ (s : State) (p : Path) (w : Word) (g c : Nat) (e : Gran), s.m.Inv → s.m.Steward p F.PEAT_GRAN_CMD_OP.addr → s.m.bit F.PEAT_CMD_STATUS_BUSY = false →
      g = s.m.getP p F.PEAT_GRAN_SEL_GRANULE → c = max 1 (getBits w.toNat 0 19) → e = granOf (s.m.getP p F.PEAT_GRAN_STAGE) →
    (g + c ≤ s.m.peatGranules → (∀ i, i < c → (s.m.gran (g + i)).state = 0 ∧ (s.m.gran (g + i)).resv = false) → e.herd ≠ 0 → s.m.roomFor e.herd resPeat c = true → e.crypt = false →
      Runs (.peatGranuleAssign p w) s fun n =>
        (∀ i, i < c → n.gran (g + i) = { e with state := 1, resv := false, mirror := false }) ∧ (∀ j, (j < g ∨ g + c ≤ j) → n.gran j = s.m.gran j) ∧
        n.used e.herd resPeat = s.m.used e.herd resPeat + c ∧ n.bit F.PEAT_CMD_STATUS_DONE = true ∧ n.bit F.PEAT_CMD_STATUS_REFUSED = false ∧
        (s.m.mem.granCopy = none → SameStores s.m n) ∧
        (∀ x, s.m.mem.granCopy = some x → StoresBut .peat (x * 2 ^ 21 + 4 * g) (4 * c) s.m n ∧
          ∀ i, i < c → n.rdBytes .peat (x * 2 ^ 21 + 4 * (g + i)) 4 = leBytes 4 (granWord { e with state := 1, resv := false, mirror := false }))) ∧
    (g < s.m.peatGranules → c = 1 → (s.m.gran g).state = 0 → (s.m.gran g).resv = false → e.herd ≠ 0 → s.m.roomFor e.herd resPeat 1 = true → e.crypt = true →
        s.m.bit F.ID_CAP0_PEAT_CRYPT = true → s.m.keyState e.keyPage ≠ 0 → s.m.get F.CIPH_PAGE_STATUS_HERD 0 e.keyPage = e.herd → s.m.get F.CIPH_PAGE_STATUS_KIND 0 e.keyPage = 2 →
      Runs (.peatGranuleAssign p w) s fun n =>
        n.gran g = { e with state := 2, resv := false, mirror := false } ∧ n.bit F.PEAT_CMD_STATUS_BUSY = true ∧ n.used e.herd resPeat = s.m.used e.herd resPeat + 1) ∧
    (∀ r, (s.m.peatGranules ≤ g ∧ r = 5 ∨ g < s.m.peatGranules ∧ ((s.m.gran g).state ≠ 0 ∧ r = 1 ∨ (s.m.gran g).state = 0 ∧ (s.m.gran g).resv = true ∧ r = 4 ∨
        (s.m.gran g).state = 0 ∧ (s.m.gran g).resv = false ∧ s.m.roomFor e.herd resPeat 1 = false ∧ r = 3)) →
      Runs (.peatGranuleAssign p w) s fun n =>
        n.bit F.PEAT_CMD_STATUS_REFUSED = true ∧ n.get F.PEAT_CMD_STATUS_REASON = r ∧ n.get F.PEAT_CMD_STATUS_AT = g ∧ n.mem = s.m.mem ∧
        Frame (fun k => k = keyOf F.PEAT_CMD_STATUS_BUSY) s.m n) ∧
    (g + c ≤ s.m.peatGranules → (∀ i, i < c → (s.m.gran (g + i)).state = 1 ∧ (s.m.gran (g + i)).resv = false ∧ (s.m.gran (g + i)).mirror = false) →
      Runs (.peatGranuleRelease p w) s fun n =>
        (∀ i, i < c → n.gran (g + i) = { s.m.gran (g + i) with state := 2 }) ∧ (∀ j, (j < g ∨ g + c ≤ j) → n.gran j = s.m.gran j) ∧ n.bit F.PEAT_CMD_STATUS_BUSY = true ∧
        n.mem.peatJob.isSome = true) ∧
    (∀ r, (s.m.peatGranules ≤ g ∧ r = 5 ∨ g < s.m.peatGranules ∧ (((s.m.gran g).resv = true ∨ (s.m.gran g).mirror = true) ∧ r = 4 ∨
        (s.m.gran g).resv = false ∧ (s.m.gran g).mirror = false ∧ (s.m.gran g).state ≠ 1 ∧ r = 2)) →
      Runs (.peatGranuleRelease p w) s fun n =>
        n.bit F.PEAT_CMD_STATUS_REFUSED = true ∧ n.get F.PEAT_CMD_STATUS_REASON = r ∧ n.get F.PEAT_CMD_STATUS_AT = g ∧ n.mem = s.m.mem ∧
        Frame (fun k => k = keyOf F.PEAT_CMD_STATUS_BUSY) s.m n)) ∧
  (∀ (s : State) (t g : Nat), s.m.Inv → g < s.m.peatGranules → g < 2 ^ 19 → (s.m.gran g).state = 2 → 8 ≤ s.m.get F.CLK_BOOT_STEP → s.m.cfg.hold = false →
      (∀ c, s.m.mem.granCopy = some c → c * 2 ^ 21 + 4 * g + 4 ≤ g * 2 ^ 21 ∨ (g + 1) * 2 ^ 21 ≤ c * 2 ^ 21 + 4 * g) →
    Runs (.granuleClearDone t false g) s fun n =>
      (∀ a, g * 2 ^ 21 ≤ a → a < (g + 1) * 2 ^ 21 → memGet n.peat a = 0) ∧
      (∀ j, s.m.mem.peatJob = some j → j.assign = true → j.lo ≤ g → g < j.hi → n.gran g = { s.m.gran g with state := 1 }) ∧
      (∀ j, s.m.mem.peatJob = some j → j.assign = false → n.gran g = granOf 0) ∧ (s.m.mem.peatJob = none → n.gran g = granOf 0) ∧
      (∀ j, s.m.mem.peatJob = some j → ((s.m.listed F.PEAT_GRAN.addr).map (·.1)).Nodup →
          (∀ x ∈ s.m.listed F.PEAT_GRAN.addr, x.1 ≠ g → j.lo ≤ x.1 → x.1 < j.hi → (granOf x.2.toNat).state ≠ 2) →
        n.bit F.PEAT_CMD_STATUS_BUSY = false ∧ n.mem.peatJob = none ∧ (j.refused = false → n.bit F.PEAT_CMD_STATUS_DONE = true)) ∧
      n.cream = s.m.cream ∧ n.tsram = s.m.tsram ∧ n.flash = s.m.flash)

/-- Granules of Cream (10_memory.md R264, R275). The same for the shared banks: ASSIGN of FREE granules to a herd with room, RELEASE into CLEARING of granules that no plan reserves, and
zeros once cleared.
Where the spec leaves a point open, the model's choices hold: notes/assumptions 32. -/
def Obligations.CreamGranules : Prop :=
  (∀ (s : State) (p : Path) (w : Word) (g c h : Nat), s.m.Inv → s.m.Steward p F.CRM_GRAN_CMD_OP.addr → s.m.bit F.CRM_CMD_STATUS_BUSY = false →
      g = s.m.getP p F.CRM_GRAN_SEL_GRANULE → c = max 1 (getBits w.toNat 0 12) → h = getBits w.toNat 20 8 →
    (g + c ≤ 3072 → (∀ i, i < c → s.m.get F.CRM_GRAN_STATE 0 (g + i) = 0) → h ≠ 0 → s.m.roomFor h resCream c = true →
      Runs (.creamGranuleAssign p w) s fun n =>
        (∀ i, i < c → n.get F.CRM_GRAN_STATE 0 (g + i) = 1 ∧ n.get F.CRM_GRAN_HERD 0 (g + i) = h) ∧ n.used h resCream = s.m.used h resCream + c ∧
        n.bit F.CRM_CMD_STATUS_DONE = true ∧ n.bit F.CRM_CMD_STATUS_REFUSED = false ∧
        Frame (fun k => (∃ i, i < c ∧ k = keyOf F.CRM_GRAN_STATE 0 (g + i)) ∨ k = keyOf F.QE_HERD_USE 5 h ∨ k = keyOf F.CRM_CMD_STATUS_BUSY) s.m n) ∧
    (∀ r, (3072 ≤ g ∧ r = 5 ∨ g < 3072 ∧ (s.m.get F.CRM_GRAN_STATE 0 g ≠ 0 ∧ r = 1 ∨ s.m.get F.CRM_GRAN_STATE 0 g = 0 ∧ s.m.roomFor h resCream 1 = false ∧ r = 3)) →
      Runs (.creamGranuleAssign p w) s fun n =>
        n.bit F.CRM_CMD_STATUS_REFUSED = true ∧ n.get F.CRM_CMD_STATUS_REASON = r ∧ n.get F.CRM_CMD_STATUS_AT = g ∧ Frame (fun k => k = keyOf F.CRM_CMD_STATUS_BUSY) s.m n) ∧
    (g + c ≤ 3072 → (∀ i, i < c → s.m.get F.CRM_GRAN_STATE 0 (g + i) = 1 ∧ s.m.creamPlanned (g + i) = false) →
      Runs (.creamGranuleRelease p w) s fun n =>
        (∀ i, i < c → n.get F.CRM_GRAN_STATE 0 (g + i) = 2 ∧ n.get F.CRM_GRAN_HERD 0 (g + i) = s.m.get F.CRM_GRAN_HERD 0 (g + i)) ∧ n.bit F.CRM_CMD_STATUS_BUSY = true ∧
        Frame (fun k => (∃ i, i < c ∧ k = keyOf F.CRM_GRAN_STATE 0 (g + i)) ∨ k = keyOf F.CRM_CMD_STATUS_BUSY) s.m n) ∧
    (∀ r, (3072 ≤ g ∧ r = 5 ∨ g < 3072 ∧ (s.m.get F.CRM_GRAN_STATE 0 g ≠ 1 ∧ r = 2 ∨ s.m.get F.CRM_GRAN_STATE 0 g = 1 ∧ s.m.creamPlanned g = true ∧ r = 4)) →
      Runs (.creamGranuleRelease p w) s fun n =>
        n.bit F.CRM_CMD_STATUS_REFUSED = true ∧ n.get F.CRM_CMD_STATUS_REASON = r ∧ n.get F.CRM_CMD_STATUS_AT = g ∧ Frame (fun k => k = keyOf F.CRM_CMD_STATUS_BUSY) s.m n)) ∧
  (∀ (s : State) (t g : Nat), s.m.Inv → g < 3072 → s.m.get F.CRM_GRAN_STATE 0 g = 2 →
    Runs (.granuleClearDone t true g) s fun n =>
      n.get F.CRM_GRAN_STATE 0 g = 0 ∧ (∀ a, creamBase g ≤ a → a < creamBase g + 0x10000 → memGet n.cream a = 0) ∧
      (0 < s.m.used (s.m.get F.CRM_GRAN_HERD 0 g) resCream →
        n.used (s.m.get F.CRM_GRAN_HERD 0 g) resCream + 1 = s.m.used (s.m.get F.CRM_GRAN_HERD 0 g) resCream) ∧ StoresBut .cream (creamBase g) 0x10000 s.m n)

/-- Errors of the stores (10_memory.md R266, R271, R272; 17_clocks_power_reset.md R422). A single-bit error of a Cream word is counted and reported, a double-bit error marks the word; wrong
symbols of one Peat package are corrected and counted, those of two, an erased one included, mark the line. The scrubbers go on to the next word, or line, whatever they find.
Where the spec leaves a point open, the model's choices hold: notes/assumptions 62. -/
def Obligations.StoreErrors : Prop :=
  (∀ (s : State) (t w : Nat), s.m.Inv → creamMapped (w * 8) = true →
    (Runs (.creamEcc t w false) s fun n =>
      n.get F.CRM_ECC_CORRECTED = min (s.m.get F.CRM_ECC_CORRECTED + 1) (2 ^ F.CRM_ECC_CORRECTED.wd - 1) ∧ n.mem.badWords = s.m.mem.badWords ∧
      Frame (fun k => fltKey k ∨ k = keyOf F.CRM_ECC_CORRECTED) s.m n) ∧
    (Runs (.creamEcc t w true) s fun n =>
      n.get F.CRM_ECC_UNCORRECTED = min (s.m.get F.CRM_ECC_UNCORRECTED + 1) (2 ^ F.CRM_ECC_UNCORRECTED.wd - 1) ∧ w ∈ n.mem.badWords ∧
      n.get F.FLT_SRC_EVENTS 0 (srcCream (w * 8 / 0x400000)) =
        min (s.m.get F.FLT_SRC_EVENTS 0 (srcCream (w * 8 / 0x400000)) + 1) (2 ^ F.FLT_SRC_EVENTS.wd - 1) ∧
      Frame (fun k => fltKey k ∨ k = keyOf F.CRM_ECC_CORRECTED) s.m n)) ∧
  (∀ (s : State) (t bits : Nat), s.m.Inv → s.m.Running → s.m.bit F.CRM_CTL_SCRUB_EN = true → creamMapped (s.m.mem.scrubWord * 8) = true →
    Runs (.creamScrub t bits) s fun n =>
      n.mem.scrubWord = Mach.nextWord s.m.mem.scrubWord ∧ creamMapped (Mach.nextWord s.m.mem.scrubWord * 8) = true ∧
      (bits = 0 → Frame (fun _ => False) s.m n) ∧
      (bits = 1 → n.get F.CRM_ECC_CORRECTED = min (s.m.get F.CRM_ECC_CORRECTED + 1) (2 ^ F.CRM_ECC_CORRECTED.wd - 1)) ∧
      (2 ≤ bits → s.m.mem.scrubWord ∈ n.mem.badWords) ∧ Frame (fun k => fltKey k ∨ k = keyOf F.CRM_ECC_CORRECTED) s.m n) ∧
  (∀ (s : State) (t l c : Nat) (d : Option Nat), s.m.Inv → c < 24 → l * 768 < s.m.peatCap → (∀ x, d = some x → x < 24 ∧ x ≠ c) → s.m.bit F.PEAT_STATUS_ERASED = false →
    (d = none →
      Runs (.peatSymbolError t l [c]) s fun n =>
        n.get F.PEAT_CORR = min (s.m.get F.PEAT_CORR + 1) (2 ^ 32 - 1) ∧ n.get F.PEAT_C_SYMERR c = min (s.m.get F.PEAT_C_SYMERR c + 1) (2 ^ 32 - 1) ∧ n.mem.badLines = s.m.mem.badLines ∧
        Frame (fun k => fltKey k ∨ k = keyOf F.PEAT_CORR ∨ k = keyOf F.PEAT_C_SYMERR c ∨ k = keyOf F.PEAT_STATUS_ERASED ∨ k = keyOf F.PEAT_C_STATUS_ERASED c) s.m n) ∧
    (∀ x, d = some x →
      Runs (.peatSymbolError t l [c, x]) s fun n =>
        l ∈ n.mem.badLines ∧ n.get F.PEAT_CORR = s.m.get F.PEAT_CORR ∧ SameStores s.m n)) ∧
  (∀ (s : State) (t l c : Nat), s.m.Inv → c < 24 → l * 768 < s.m.peatCap → s.m.bit F.PEAT_STATUS_ERASED = true → s.m.get F.PEAT_STATUS_ERASED_PKG ≠ c →
    Runs (.peatSymbolError t l [c]) s fun n => l ∈ n.mem.badLines ∧ SameStores s.m n) ∧
  (∀ (s : State) (t : Nat) (pkgs : List Nat), s.m.Inv → s.m.Running →
    (s.m.bit F.PEAT_CTL_SCRUB_EN = true → s.m.get F.CLK_STATUS_THROTTLE < 3 →
      Runs (.peatScrub t pkgs) s fun n =>
        n.mem.scrubLine = (if (s.m.mem.scrubLine + 1) * 768 < s.m.peatCap then s.m.mem.scrubLine + 1 else 0) ∧ (pkgs = [] → Frame (fun _ => False) s.m n) ∧ SameStores s.m n) ∧
    (3 ≤ s.m.get F.CLK_STATUS_THROTTLE → Runs (.peatScrub t pkgs) s fun n => n.mem = s.m.mem ∧ Frame (fun _ => False) s.m n))

/-- Mirror regions (10_memory.md R281 to R286). START makes a sender RUNNING with every sector dirty, a receiver RECEIVING with an empty journal; SEAL numbers an epoch and captures the
dirty sectors; each ships with the next sequence number, the lowest first; then the SEAL goes, or the epoch is torn. A receiver keeps the old bytes of a sector before the first
overwrite, applies a SEAL once its writes have landed, is orphaned after a lease period of silence, and ROLLBACK restores what the journal kept.
Where the spec leaves a point open, the model's choices hold: notes/assumptions 61. -/
def Obligations.MirrorRegions : Prop :=
  (∀ (s : State) (p : Path) (r : Nat) (x : Mirror), s.m.Inv → s.m.Steward p F.PEAT_MIR_CMD_OP.addr → r = s.m.getP p F.PEAT_MIR_SEL_REGION → s.m.bit F.ID_CAP0_MIRROR = true →
      x = s.m.mirror r → x.rolling = false →
    (s.m.mirConfigOk r = true → s.m.mirState r = 0 ∨ s.m.mirState r = 5 ∧ s.m.mirReceives r = false →
      Runs (.mirrorStart p) s fun n =>
        (s.m.mirReceives r = false → n.mirState r = 1 ∧ (n.mirror r).dirty = [(0, s.m.mirSectors r)] ∧ (n.mirror r).captured = []) ∧
        (s.m.mirReceives r = true → n.mirState r = 3 ∧ (n.mirror r).journal = [] ∧ n.get F.PEAT_MIR_EPOCH 0 r = 0xFFFFFFFF) ∧ n.get64 F.PEAT_MIR_SEQ_LO 0 r = 0 ∧
        (∀ i, i < s.m.mirCount r → (n.gran (s.m.mirFirst r + i)).mirror = true ∧ (n.gran (s.m.mirFirst r + i)).herd = s.m.mirHerd r) ∧ n.bit F.PEAT_MIR_STATUS_DONE 0 r = true) ∧
    (∀ c why, (c = .mirrorStart p ∧ (s.m.mirState r ∈ [1, 2, 3, 4] ∧ why = 1 ∨ s.m.mirState r = 0 ∧ s.m.mirConfigOk r = false ∧ why = 2) ∨
        c = .mirrorSeal p ∧ s.m.mirState r ≠ 1 ∧ why = 1 ∨ c = .mirrorStop p ∧ s.m.mirState r ∉ [1, 2, 3] ∧ why = 1 ∨
        c = .mirrorRollback p ∧ (s.m.mirState r ∉ [4, 5] ∧ why = 1 ∨ s.m.mirState r ∈ [4, 5] ∧ s.m.mirReceives r = true ∧ s.m.get F.PEAT_MIR_EPOCH 0 r = 0xFFFFFFFF ∧ why = 3)) →
      Runs c s fun n =>
        n.bit F.PEAT_MIR_STATUS_REFUSED 0 r = true ∧ n.get F.PEAT_MIR_STATUS_REASON 0 r = why ∧ n.mirState r = s.m.mirState r ∧ n.mem = s.m.mem ∧
        Frame (fun k => k = keyOf F.PEAT_MIR_STATUS_STATE 0 r) s.m n) ∧
    (s.m.mirState r = 1 →
      Runs (.mirrorSeal p) s fun n =>
        n.mirState r = 2 ∧ (n.mirror r).sealing = (x.sealing + 1) % 2 ^ 32 ∧ (n.mirror r).captured = x.dirty ∧ (n.mirror r).dirty = [] ∧ (n.mirror r).setSize = ivCount x.dirty ∧
        n.bit F.PEAT_MIR_STATUS_DONE 0 r = true ∧ Frame (fun k => k = keyOf F.PEAT_MIR_STATUS_STATE 0 r) s.m n) ∧
    (s.m.mirState r ∈ [1, 2] →
      Runs (.mirrorStop p) s fun n =>
        n.mirState r = 5 ∧ n.bit F.PEAT_MIR_STATUS_DONE 0 r = true ∧ (∃ e ∈ n.evq, e.code = 0x0803 ∧ e.dest = s.m.mirHerd r) ∧ n.mem = s.m.mem ∧
        Frame (fun k => k = keyOf F.PEAT_MIR_STATUS_STATE 0 r) s.m n) ∧
    (s.m.mirState r = 3 →
      Runs (.mirrorStop p) s fun n => n.mirState r = 5 ∧ n.evq = s.m.evq ∧ n.mem = s.m.mem ∧ Frame (fun k => k = keyOf F.PEAT_MIR_STATUS_STATE 0 r) s.m n) ∧
    (s.m.mirState r ∈ [4, 5] → s.m.mirReceives r = true → s.m.get F.PEAT_MIR_EPOCH 0 r ≠ 0xFFFFFFFF →
      Runs (.mirrorRollback p) s fun n => n.mirror r = { x with rolling := true } ∧ Frame (fun k => k = keyOf F.PEAT_MIR_STATUS_STATE 0 r) s.m n)) ∧
  (∀ (s : State) (t r k : Nat) (x : Mirror), s.m.Inv → s.m.Running → r < 64 → x = s.m.mirror r →
      (s.m.mirState r = 1 ∧ ivFirst x.dirty = some k ∨ s.m.mirState r = 2 ∧ (x.snaps.map (·.1)).find? (fun k => ivMem x.captured k) = none ∧ ivFirst x.captured = some k) →
      alGet x.snaps k = none →
    Runs (.mirrorSectorShip t r) s fun n =>
      (∃ g, (n.qp (s.m.mirQp r)).msgs = (s.m.qp (s.m.mirQp r)).msgs ++ [g] ∧ g.kind = .mirror ∧ g.mirror = some (r, k) ∧
        g.data = Mach.mirBytes 1 (s.m.mirPeerRegion r) 0 (s.m.get64 F.PEAT_MIR_SEQ_LO 0 r + 1) k (s.m.rdBytes .peat (s.m.mirBase r + k * 4096) 4096)) ∧
      n.get64 F.PEAT_MIR_SEQ_LO 0 r = (s.m.get64 F.PEAT_MIR_SEQ_LO 0 r + 1) % 2 ^ 64 ∧
      (s.m.mirState r = 1 → (n.mirror r).dirty = ivDel x.dirty k) ∧ (s.m.mirState r = 2 → (n.mirror r).captured = ivDel x.captured k) ∧
      Frame (fun y => y = keyOf F.PEAT_MIR_SEQ_LO 0 r ∨ y = keyOf F.PEAT_MIR_SEQ_LO 0 r + 4) s.m n) ∧
  (∀ (s : State) (t r : Nat) (x : Mirror), s.m.Inv → s.m.Running → r < 64 → x = s.m.mirror r → s.m.mirState r = 2 → x.captured = [] → x.sealSent = false →
    (x.torn = false →
      Runs (.mirrorSealSend t r) s fun n =>
        (∃ g, (n.qp (s.m.mirQp r)).msgs = (s.m.qp (s.m.mirQp r)).msgs ++ [g] ∧
          g.data = Mach.mirBytes 2 (s.m.mirPeerRegion r) x.sealing (s.m.get64 F.PEAT_MIR_SEQ_LO 0 r + 1) x.setSize []) ∧ (n.mirror r).sealSent = true ∧
        Frame (fun y => y = keyOf F.PEAT_MIR_SEQ_LO 0 r ∨ y = keyOf F.PEAT_MIR_SEQ_LO 0 r + 4) s.m n) ∧
    (x.torn = true →
      Runs (.mirrorSealSend t r) s fun n =>
        n.mirState r = 1 ∧ n.bit F.PEAT_MIR_STATUS_TORN 0 r = true ∧ (∃ e ∈ n.evq, e.code = 0x0801 ∧ e.dest = s.m.mirHerd r) ∧
        Frame (fun y => y = keyOf F.PEAT_MIR_STATUS_STATE 0 r) s.m n)) ∧
  (∀ (s : State) (t q r : Nat) (b : List Byte) (rest : List (Nat × List Byte)) (x : Mirror), s.m.Inv → s.m.Running → s.m.mem.mirIn = (q, b) :: rest → s.m.qpMirror q = some r →
      x = s.m.mirror r → x.sealGot = none → getBits (leAt b 0 4) 0 4 = 1 → getBits (leAt b 0 4) 8 8 = r →
    (∀ k a, getBits (leAt b 0 4) 4 4 = 1 → b.length = 4128 → leAt b 20 4 = crcOf polyCastagnoli (b.drop 32) → s.m.mirState r = 3 → leAt b 8 8 = s.m.get64 F.PEAT_MIR_SEQ_LO 0 r + 1 →
        leAt b 16 4 = k → k < s.m.mirSectors r → s.m.bit F.PEAT_MIR_STATUS_JOURNAL_FULL 0 r = false → ((alGet x.journal k).isSome = true ∨ x.journal.length < s.m.mirCapacity r) →
        a = s.m.mirBase r + k * 4096 →
      Runs (.mirrorMessageReceived t) s fun n =>
        n.rdBytes .peat a 4096 = b.drop 32 ∧ StoresBut .peat a 4096 s.m n ∧ n.get64 F.PEAT_MIR_SEQ_LO 0 r = s.m.get64 F.PEAT_MIR_SEQ_LO 0 r + 1 ∧
        alGet (n.mirror r).journal k = some ((alGet x.journal k).getD (s.m.rdBytes .peat a 4096)) ∧ (n.mirror r).lastMsg = (s.m.advance t).now ∧ n.mem.mirIn = rest) ∧
    (∀ k, getBits (leAt b 0 4) 4 4 = 1 → b.length = 4128 → leAt b 20 4 = crcOf polyCastagnoli (b.drop 32) → s.m.mirState r = 3 → leAt b 8 8 = s.m.get64 F.PEAT_MIR_SEQ_LO 0 r + 1 →
        leAt b 16 4 = k → k < s.m.mirSectors r → s.m.bit F.PEAT_MIR_STATUS_JOURNAL_FULL 0 r = false → alGet x.journal k = none → s.m.mirCapacity r ≤ x.journal.length →
      Runs (.mirrorMessageReceived t) s fun n =>
        n.bit F.PEAT_MIR_STATUS_JOURNAL_FULL 0 r = true ∧ (∃ e ∈ n.evq, e.code = 0x0802 ∧ e.dest = s.m.mirHerd r) ∧ (n.mirror r).journal = x.journal ∧ SameStores s.m n) ∧
    (getBits (leAt b 0 4) 4 4 = 2 → b.length = 32 → s.m.mirState r = 3 → leAt b 8 8 = s.m.get64 F.PEAT_MIR_SEQ_LO 0 r + 1 → s.m.bit F.PEAT_MIR_STATUS_JOURNAL_FULL 0 r = false →
      Runs (.mirrorMessageReceived t) s fun n => (n.mirror r).sealGot = some (leAt b 4 4) ∧ SameStores s.m n) ∧
    (getBits (leAt b 0 4) 4 4 = 3 → b.length = 32 → s.m.mirState r = 2 → x.sealSent = true → leAt b 4 4 = x.sealing →
      Runs (.mirrorMessageReceived t) s fun n =>
        n.mirState r = 1 ∧ n.get F.PEAT_MIR_EPOCH 0 r = leAt b 4 4 ∧ (∃ e ∈ n.evq, e.code = 0x0800 ∧ e.dest = s.m.mirHerd r) ∧ SameStores s.m n) ∧
    (getBits (leAt b 0 4) 4 4 = 1 → b.length = 4128 → leAt b 20 4 ≠ crcOf polyCastagnoli (b.drop 32) →
      Runs (.mirrorMessageReceived t) s fun n =>
        n.mirState r = 5 ∧ n.get F.BEQ_DROP = min (s.m.get F.BEQ_DROP + 1) (2 ^ F.BEQ_DROP.wd - 1) ∧ SameStores s.m n)) ∧
  (∀ (s : State) (t r e : Nat), s.m.Inv → s.m.Running → r < 64 → (s.m.mirror r).sealGot = some e → s.m.mirState r = 3 →
    (s.m.landed 8 r (2 ^ 64) = true →
      Runs (.mirrorSealApply t r) s fun n =>
        (n.mirror r).journal = [] ∧ (n.mirror r).sealGot = none ∧ n.get F.PEAT_MIR_EPOCH 0 r = e % 2 ^ 32 ∧
        (∃ g, (n.qp (s.m.mirQp r)).msgs = (s.m.qp (s.m.mirQp r)).msgs ++ [g] ∧ g.data = Mach.mirBytes 3 (s.m.mirPeerRegion r) e (s.m.get64 F.PEAT_MIR_SEQ_LO 0 r) 0 []) ∧
        Frame (fun y => y = keyOf F.PEAT_MIR_EPOCH 0 r) s.m n) ∧
    (s.m.landed 8 r (2 ^ 64) = false → Runs (.mirrorSealApply t r) s fun n => n.mem = s.m.mem ∧ Frame (fun _ => False) s.m n)) ∧
  (∀ (s : State) (t r : Nat), s.m.Inv → s.m.Running → r < 64 → s.m.mirState r = 3 →
    ((s.m.mirror r).lastMsg + s.m.leaseAt (s.m.mirror r).lastMsg ≤ (s.m.advance t).now →
      Runs (.mirrorOrphanTimeout t r) s fun n =>
        n.mirState r = 4 ∧ (∃ e ∈ n.evq, e.code = 0x0804 ∧ e.dest = s.m.mirHerd r) ∧ Frame (fun y => y = keyOf F.PEAT_MIR_STATUS_STATE 0 r) s.m n) ∧
    ((s.m.advance t).now < (s.m.mirror r).lastMsg + s.m.leaseAt (s.m.mirror r).lastMsg →
      Runs (.mirrorOrphanTimeout t r) s fun n => n.mirState r = 3 ∧ Frame (fun _ => False) s.m n)) ∧
  (∀ (s : State) (t r : Nat) (x : Mirror), s.m.Inv → s.m.Running → r < 64 → x = s.m.mirror r → x.rolling = true → (x.journal.map (·.1)).Nodup →
      (∀ j ∈ x.journal, j.2.length = 4096 ∧ j.1 < s.m.mirSectors r) →
      (∀ c, s.m.mem.granCopy = some c → (c * 2 ^ 21 + 2 ^ 23 ≤ s.m.mirBase r ∨ s.m.mirBase r + s.m.mirCount r * 2 ^ 21 ≤ c * 2 ^ 21)) →
    Runs (.mirrorRollbackDone t r) s fun n =>
      n.mirState r = 0 ∧ (n.mirror r).journal = [] ∧ (n.mirror r).rolling = false ∧ n.bit F.PEAT_MIR_STATUS_DONE 0 r = true ∧
      (∀ j ∈ x.journal, n.rdBytes .peat (s.m.mirBase r + j.1 * 4096) 4096 = j.2) ∧
      (∀ a, s.m.mirBase r ≤ a → a < s.m.mirBase r + s.m.mirCount r * 2 ^ 21 → (∀ j ∈ x.journal, a < s.m.mirBase r + j.1 * 4096 ∨ s.m.mirBase r + j.1 * 4096 + 4096 ≤ a) →
        memGet n.peat a = memGet s.m.peat a))

/-- Link states (12_ports_mac.md R312, R313; 16_faults.md R398, R484). ENABLE set takes a DISABLED port to TRAINING, unless its source holds it; ENABLE cleared takes it to DISABLED;
RESET takes an UP port to TRAINING; each with LINK_DOWN where it was UP, and of its own port only. A trained port starts Uanto with an OFFER; 800 ms of training, or a Uanto failure, take
it to FAULT; 1 s of FAULT back to TRAINING; alignment lost takes an UP port to TRAINING, and is a fault event of the port.
Where the spec leaves a point open, the model's choices hold: notes/assumptions 70, 76. -/
def Obligations.PortLinkStates : Prop :=
  (∀ (s : State) (p : Path) (q : Nat) (w : Word), s.m.Inv → q < 32 → s.m.Steward p (F.PORT_CTL_ENABLE.addr + q * 0x4000) →
    (s.m.bit F.PORT_CTL_ENABLE q = false → s.m.lkState q ≠ 3 →
      Runs (.portEnable p q w) s fun n =>
        n.bit F.PORT_CTL_ENABLE q = true ∧ n.get F.PORT_CTL_RATE q = getBits w.toNat 4 2 ∧ n.get F.PORT_CTL_MEDIA q = getBits w.toNat 6 1 ∧
        (s.m.portHeld q = false → n.lkState q = 1 ∧
          n.get F.PORT_STATUS_RATE q = if getBits w.toNat 4 2 = 0 ∧ s.m.get F.CLK_BOOT_STEP ≤ 9 then 1 else getBits w.toNat 4 2) ∧
        (s.m.portHeld q = true → n.lkState q = s.m.lkState q) ∧ Frame (fun k => k = keyOf F.PORT_CTL_ENABLE q ∨ k = keyOf F.PORT_STATUS_STATE q) s.m n) ∧
    (s.m.lkState q ≠ 3 →
      Runs (.portDisable p q w) s fun n =>
        n.bit F.PORT_CTL_ENABLE q = false ∧ n.lkState q = (if s.m.bit F.PORT_CTL_ENABLE q then 0 else s.m.lkState q) ∧
        Frame (fun k => k = keyOf F.PORT_CTL_ENABLE q ∨ k = keyOf F.PORT_STATUS_STATE q ∨ k = keyOf F.CFG_STATUS_FROZEN_WRITE ∨ k = keyOf F.CFG_FROZEN_ADDR) s.m n) ∧
    (∀ c d', (c = .portDisable p q w ∧ d' = 0 ∨ c = .portReset p q w ∧ getBits w.toNat 0 1 = 1 ∧ s.m.portHeld q = false ∧ d' = 1) →
        s.m.bit F.PORT_CTL_ENABLE q = true → s.m.lkState q = 3 →
      Runs c s fun n =>
        n.lkState q = d' ∧ (∀ h ∈ s.m.liveHerds, ∃ e ∈ n.evq, e.code = 0x0901 ∧ e.dest = h ∧ e.info0 = BitVec.ofNat 64 q) ∧ (n.pt q).inq = [] ∧ (n.pt q).paused = [] ∧
        n.get F.PORT_STATUS_PAUSED q = 0 ∧ (∀ r, r < 32 → r ≠ q → n.lkState r = s.m.lkState r) ∧ n.get F.PORT_CTL_RATE q = s.m.get F.PORT_CTL_RATE q ∧
        (∀ k, 0x00100200 + q * 0x4000 ≤ k → k < 0x00100284 + q * 0x4000 → n.reg k = s.m.reg k) ∧ SameStores s.m n) ∧
    (s.m.bit F.PORT_CTL_ENABLE q = true → (getBits w.toNat 1 1 = 0 → Runs (.portEnable p q w) s fun n => n.lkState q = s.m.lkState q ∧ n.bit F.PORT_CTL_ENABLE q = true) ∧
      (getBits w.toNat 0 1 = 1 → s.m.lkState q ≠ 3 → Runs (.portReset p q w) s fun n => n.lkState q = s.m.lkState q))) ∧
  (∀ (s : State) (t p : Nat), s.m.Inv → p < 32 →
    (s.m.lkState p = 1 →
      Runs (.portTrained t p) s fun n =>
        n.lkState p = 2 ∧ (n.pt p).since = (s.m.advance t).now ∧ (n.pt p).stepOne = (s.m.advance t).now ∧ (n.pt p).agreed = none ∧ (n.pt p).partner = none ∧
        n.sent = s.m.sent ++ [.uanto p 1 false s.m.myGen s.m.myMinor s.m.myCaps] ∧ n.get64 F.PORT_TX_FRAMES_LO p = min (s.m.get64 F.PORT_TX_FRAMES_LO p + 1) (2 ^ 64 - 1) ∧
        Frame (fun k => k ∈ [keyOf F.PORT_STATUS_STATE p, keyOf F.PORT_TX_FRAMES_LO p, keyOf F.PORT_TX_FRAMES_LO p + 4, keyOf F.PORT_TX_BYTES_LO p, keyOf F.PORT_TX_BYTES_LO p + 4]) s.m n) ∧
    (s.m.lkState p = 1 → (s.m.pt p).since + 800 * ms ≤ (s.m.advance t).now →
      Runs (.portTrainingTimeout t p) s fun n =>
        (n.srcState (srcPort p) < 2 → n.lkState p = 4) ∧ (∀ h ∈ s.m.liveHerds, ∃ e ∈ n.evq, e.code = 0x0902 ∧ e.dest = h ∧ e.info0 = BitVec.ofNat 64 p ∧ e.info1 = 0) ∧
        n.get F.FLT_SRC_EVENTS 0 (srcPort p) = min (s.m.get F.FLT_SRC_EVENTS 0 (srcPort p) + 1) (2 ^ F.FLT_SRC_EVENTS.wd - 1) ∧
        ((s.m.pt p).retrain = false → Frame (fun k => fltKey k ∨ k = keyOf F.PORT_STATUS_STATE p) s.m n)) ∧
    ((s.m.advance t).now < (s.m.pt p).since + 800 * ms → Runs (.portTrainingTimeout t p) s fun n => n.evq = s.m.evq ∧ Frame (fun _ => False) s.m n) ∧
    (s.m.lkState p = 4 → (s.m.pt p).since + 1000 * ms ≤ (s.m.advance t).now → s.m.portHeld p = false →
      Runs (.portFaultRetry t p) s fun n => n.lkState p = 1 ∧ n.get F.PORT_STATUS_RATE p = s.m.trainRate p ∧ Frame (fun k => k = keyOf F.PORT_STATUS_STATE p) s.m n) ∧
    ((s.m.advance t).now < (s.m.pt p).since + 1000 * ms → Runs (.portFaultRetry t p) s fun n => Frame (fun _ => False) s.m n) ∧
    (s.m.lkState p = 3 → s.m.portHeld p = false →
      Runs (.linkLoss t p) s fun n =>
        (n.srcState (srcPort p) < 2 → n.lkState p = 1 ∧ n.get F.PORT_STATUS_RATE p = s.m.trainRate p) ∧
        (∀ h ∈ s.m.liveHerds, ∃ e ∈ n.evq, e.code = 0x0901 ∧ e.dest = h ∧ e.info0 = BitVec.ofNat 64 p) ∧
        n.get F.FLT_SRC_EVENTS 0 (srcPort p) = min (s.m.get F.FLT_SRC_EVENTS 0 (srcPort p) + 1) (2 ^ F.FLT_SRC_EVENTS.wd - 1) ∧ SameStores s.m n) ∧
    (s.m.lkState p ≠ 3 → Runs (.linkLoss t p) s fun n => Frame (fun _ => False) s.m n))

/-- Uanto (12_ports_mac.md R328 to R330; 01_architecture.md R34, R35). Every 10 µs an OFFER goes out, or the CONFIRM once SEEN has been sent and received. A partner's
OFFER gives generation and set, or FAULT where its generation or role does not fit; while UP it is only answered. An equal CONFIRM takes the port to UP, another one to step 1. 20 ms
without UP restart the exchange, 200 ms end it in FAULT; equipment without Uanto is taken as such after 100 ms.
Where the spec leaves a point open, the model's choices hold: notes/assumptions 74. -/
def Obligations.UantoExchange : Prop :=
  (∀ (s : State) (t p : Nat) (x : PortSt), s.m.Inv → p < 32 → x = s.m.pt p → s.m.lkState p = 2 →
    ((∀ a, x.lastUanto = some a → a + 10 * us ≤ (s.m.advance t).now) →
      (∀ g v c, x.seenSent = true → x.seenGot = true → x.agreed = some (g, v, c) →
        Runs (.uantoOfferTimer t p) s fun n => n.sent = s.m.sent ++ [.uanto p 2 false g v c] ∧ (n.pt p).confirmSent = true ∧ n.lkState p = 2 ∧ SameStores s.m n) ∧
      (x.seenSent = false ∨ x.seenGot = false →
        Runs (.uantoOfferTimer t p) s fun n =>
          n.sent = s.m.sent ++ [.uanto p 1 x.offerGot s.m.myGen s.m.myMinor s.m.myCaps] ∧ (n.pt p).seenSent = (x.seenSent || x.offerGot) ∧
          (n.pt p).lastUanto = some (s.m.advance t).now ∧ n.lkState p = 2 ∧ SameStores s.m n)) ∧
    (∀ a, x.lastUanto = some a → (s.m.advance t).now < a + 10 * us → Runs (.uantoOfferTimer t p) s fun n => n.sent = s.m.sent ∧ Frame (fun _ => False) s.m n)) ∧
  (∀ (s : State) (t p : Nat) (x : PortSt) (seen : Bool) (o : UantoSide) (rest : List RxKind), s.m.Inv → p < 32 → x = s.m.pt p → x.inq = .uanto false seen o :: rest →
    (s.m.lkState p = 2 → 1 ≤ o.gen → o.gen ≤ 3 → (s.m.role p = 1 ∧ o.role = 1 ∨ s.m.role p = 2 ∧ o.role = 4 ∨ s.m.role p = 3 ∧ o.role = 3) →
      Runs (.uantoOfferReceived t p) s fun n =>
        (n.pt p).inq = rest ∧ n.lkState p = 2 ∧ (n.pt p).offerGot = true ∧ (n.pt p).seenGot = (x.seenGot || seen) ∧
        (n.pt p).agreed = some (min o.gen s.m.myGen, if o.gen = s.m.myGen then min o.minor s.m.myMinor else if o.gen < s.m.myGen then o.minor else s.m.myMinor,
          [nthD s.m.myCaps 0 0 &&& nthD o.caps 0 0, 0, nthD s.m.myCaps 2 0 &&& nthD o.caps 2 0, nthD s.m.myCaps 3 0 &&& nthD o.caps 3 0]) ∧
        n.get F.PORT_UANTO_PEER_MODULE p = o.module % 65536 ∧ n.get F.PORT_UANTO_PEER_PORT_ROLE p = o.port % 256 + o.role % 16 * 256 ∧
        (∀ i, i < 4 → n.reg (F.PORT_UANTO_PCAP.addr + p * 0x4000 + i * 4) = BitVec.ofNat 32 (nthD o.caps i 0)) ∧ n.sent = s.m.sent ∧ SameStores s.m n) ∧
    (s.m.lkState p = 2 → (o.gen = 0 ∨ 3 < o.gen ∨ s.m.roleMatch p o.role = false) →
      Runs (.uantoOfferReceived t p) s fun n =>
        (n.srcState (srcPort p) < 2 → n.lkState p = 4) ∧ (∃ e ∈ n.evq, e.code = 0x0904 ∧ e.dest = 0 ∧ e.info0 = BitVec.ofNat 64 p ∧ e.info1 = BitVec.ofNat 64 o.gen) ∧
        (∀ h ∈ s.m.liveHerds, ∃ e ∈ n.evq, e.code = 0x0902 ∧ e.dest = h ∧ e.info0 = BitVec.ofNat 64 p ∧ e.info1 = 1)) ∧
    (s.m.lkState p = 3 → ∀ g v c, x.agreed = some (g, v, c) →
      Runs (.uantoOfferReceived t p) s fun n =>
        n.sent = s.m.sent ++ [.uanto p 1 true s.m.myGen s.m.myMinor s.m.myCaps, .uanto p 2 false g v c] ∧ n.lkState p = 3 ∧ (n.pt p).agreed = x.agreed ∧ SameStores s.m n)) ∧
  (∀ (s : State) (t p : Nat) (x : PortSt) (seen : Bool) (o : UantoSide) (rest : List RxKind), s.m.Inv → p < 32 → x = s.m.pt p → x.inq = .uanto true seen o :: rest →
    (∀ g v c, s.m.lkState p = 2 → x.agreed = some (g, v, c) →
      (o.gen = g ∧ o.minor = v ∧ o.caps = c → x.retrain = false →
        Runs (.uantoConfirmReceived t p) s fun n =>
          n.lkState p = 3 ∧ n.bit F.PORT_STATUS_SCHED_OUT p = false ∧ n.get F.PORT_UANTO_RES_GEN p = g % 65536 ∧ n.get F.PORT_UANTO_RES_MINOR p = v % 65536 ∧
          (∀ i, i < 4 → n.reg (F.PORT_UANTO_CAP.addr + p * 0x4000 + i * 4) = BitVec.ofNat 32 (nthD c i 0)) ∧ (∃ e ∈ n.evq, e.code = 0x0900 ∧ e.dest = 0 ∧ e.info0 = BitVec.ofNat 64 p) ∧
          (s.m.role p ≠ 1 → n.sent = s.m.sent ++ if x.confirmSent then [] else [.uanto p 2 false g v c]) ∧
          (s.m.role p = 1 → (∃ f : TimeFrame, f.twoWay = true ∧ n.sent = s.m.sent ++ (if x.confirmSent then [] else [.uanto p 2 false g v c]) ++ [.time p f]) ∧
            (n.ltime p).measuring = true ∧ (n.ltime p).done = 0) ∧ SameStores s.m n) ∧
      (¬ (o.gen = g ∧ o.minor = v ∧ o.caps = c) →
        Runs (.uantoConfirmReceived t p) s fun n =>
          n.lkState p = 2 ∧ (n.pt p).stepOne = (s.m.advance t).now ∧ (n.pt p).agreed = none ∧ (n.pt p).offerGot = false ∧ (n.pt p).confirmSent = false ∧
          n.sent = s.m.sent ∧ Frame (fun _ => False) s.m n)) ∧
    (s.m.lkState p = 3 → Runs (.uantoConfirmReceived t p) s fun n => (n.pt p).inq = rest ∧ n.sent = s.m.sent ∧ Frame (fun _ => False) s.m n)) ∧
  (∀ (s : State) (t p : Nat) (x : PortSt), s.m.Inv → p < 32 → x = s.m.pt p → s.m.lkState p = 2 →
    (x.partner.isSome = true ∨ s.m.mayBeSilent p = false →
      (x.since + 200 * ms ≤ (s.m.advance t).now →
        Runs (.uantoRestartTimeout t p) s fun n =>
          (n.srcState (srcPort p) < 2 → n.lkState p = 4) ∧ (∃ e ∈ n.evq, e.code = 0x0904 ∧ e.dest = 0) ∧
          (∀ h ∈ s.m.liveHerds, ∃ e ∈ n.evq, e.code = 0x0902 ∧ e.dest = h ∧ e.info0 = BitVec.ofNat 64 p ∧ e.info1 = 1)) ∧
      ((s.m.advance t).now < x.since + 200 * ms → x.stepOne + 20 * ms ≤ (s.m.advance t).now →
        Runs (.uantoRestartTimeout t p) s fun n =>
          n.lkState p = 2 ∧ (n.pt p).stepOne = (s.m.advance t).now ∧ (n.pt p).restarts = x.restarts + 1 ∧ (n.pt p).agreed = none ∧ Frame (fun _ => False) s.m n)) ∧
    (x.partner = none → s.m.mayBeSilent p = true →
      (Runs (.uantoRestartTimeout t p) s fun n => n.evq = s.m.evq ∧ (n.pt p).restarts = x.restarts ∧ Frame (fun _ => False) s.m n) ∧
      (x.since + 100 * ms ≤ (s.m.advance t).now →
        Runs (.uantoSilentTimeout t p) s fun n =>
          n.lkState p = 3 ∧ n.get F.PORT_UANTO_RES_GEN p = 0 ∧ (∀ i, i < 4 → n.reg (F.PORT_UANTO_CAP.addr + p * 0x4000 + i * 4) = 0) ∧
          (∃ e ∈ n.evq, e.code = 0x0900 ∧ e.dest = 0 ∧ e.info0 = BitVec.ofNat 64 p ∧ e.info1 = 0))) ∧
    ((s.m.advance t).now < x.since + 100 * ms ∨ x.partner.isSome = true ∨ s.m.mayBeSilent p = false →
      Runs (.uantoSilentTimeout t p) s fun n => n.lkState p = 2 ∧ Frame (fun _ => False) s.m n))

/-- Received frames and FEC (12_ports_mac.md R309, R314, R317 to R319, R324, R327; 13_routing_deadlock.md R342; 17_clocks_power_reset.md R420). A frame that fails a check is dropped and
counted for the first reason, and with DIAG noted in the port's ring, at most once per µs; one that passes is counted and passed on. A stopped port group is started by a frame, which
waits. Uncorrectable code words above the limit within a window put the port out of scheduled use.
Where the spec leaves a point open, the model's choices hold: notes/assumptions 73, 74, 77. -/
def Obligations.ReceivedFrames : Prop :=
  (∀ (m : Mach) (p dst : Nat) (u : Bool), m.addrPasses p dst u = true ↔ dst = m.portMac p ∨ dst = 0x0180C2000001 ∨ dst = 0xFFFFFFFFFFFF ∧ (u = true ∨ m.bit F.PORT_CTL_BCAST_EN p = true) ∨
    dst ≠ 0xFFFFFFFFFFFF ∧ dst / 2 ^ 40 % 2 = 1 ∧ ∃ i, i = crcOf polyEthernet ((List.range 6).map fun i => BitVec.ofNat 8 (dst / 2 ^ (40 - 8 * i))) % 512 ∧
      getBits (m.reg (F.PORT_HASH.addr + p * 0x4000 + i / 32 * 4)).toNat (i % 32) 1 = 1) ∧
  (∀ (s : State) (t p r : Nat) (f : RxFrame) (mac u : Bool) (ro : Nat), s.m.Inv → p < 32 → s.m.groupStopped p = false → ro = s.m.role p →
      mac = (match f.kind with | .mac .. => true | _ => false) → u = (match f.kind with | .uanto .. => true | _ => false) →
      (f.badCode = true ∧ r = 4 ∨ f.badCode = false ∧ (f.len < 64 ∧ r = 2 ∨ 16640 < f.len ∧ r = 3 ∨ 64 ≤ f.len ∧ f.len ≤ 16640 ∧ (f.fcs = 1 ∧ r = 1 ∨ f.fcs = 2 ∧ r = 5 ∨ f.fcs = 0 ∧
        ((∃ op e q, f.kind = .mac op e q ∧ op ≠ 1 ∧ op ≠ 0x101 ∧ r = 6) ∨ mac = false ∧ u = false ∧ s.m.portUp p = false ∧ r = 0xB ∨
          mac = false ∧ (u = true ∨ s.m.portUp p = true) ∧ (s.m.addrPasses p f.dst u = false ∧ r = 7 ∨ s.m.addrPasses p f.dst u = true ∧
            (f.kind = .foreign ∧ r = 8 ∨ f.kind = .badVersion ∧ r = 9 ∨ r = 0xA ∧ (f.kind = .payloadType ∨
              ((∃ a, f.kind = .access a) ∨ ∃ a, f.kind = .landed a) ∧ ¬ (ro = 2 ∧ s.m.bit F.PORT_ROLE_PROTO p = false) ∨
              (∃ b q, f.kind = .be b ∧ b.body = .packet q ∧ (ro = 0 ∨ ro = 2 ∧ s.m.bit F.PORT_ROLE_PROTO p = false)) ∨
              (∃ b c, f.kind = .be b ∧ b.body = .chunk c ∧ ro ≠ 1)))))))) →
    (s.m.bit F.PORT_CTL_DIAG p = false →
      Runs (.portFrameReceived t p f) s fun n =>
        n.reg (0x00100240 + p * 0x4000 + r * 4) = BitVec.ofNat 32 (min ((s.m.reg (0x00100240 + p * 0x4000 + r * 4)).toNat + 1) (2 ^ 32 - 1)) ∧ n.rte = s.m.rte ∧
        n.ports = s.m.ports ∧ n.sent = s.m.sent ∧ Frame (fun k => k = 0x00100240 + p * 0x4000 + r * 4) s.m n) ∧
    (∀ i a d, s.m.bit F.PORT_CTL_DIAG p = true → (∀ b, (s.m.pt p).diagAt = some b → b + us ≤ (s.m.advance t).now) → d = s.m.diagSize p → s.m.diagUsed p + 1 < d →
        i = s.m.get F.PORT_DIAG_PTR p % 65536 → a = s.m.get64 F.PORT_DIAG_BASE_LO p / 4096 * 4096 + i % d * 256 → s.m.herd0Peat a 256 = true →
      Runs (.portFrameReceived t p f) s fun n =>
        n.rdBytes .peat a 256 = leBytes 4 (1 + (s.m.pt p).diagPhase * 16 + r * 256 + p * 65536) ++ leBytes 4 (min 0xFFFF f.len) ++ leBytes 8 (s.m.advance t).polder.toNat ++
          List.replicate 16 0 ++ f.data.take 224 ++ List.replicate (224 - (f.data.take 224).length) 0 ∧ StoresBut .peat a 256 s.m n ∧
        n.get F.PORT_DIAG_PTR p % 65536 = (i + 1) % d ∧ n.get F.PORT_DIAG_PTR p / 65536 = s.m.get F.PORT_DIAG_PTR p / 65536 ∧ (n.pt p).diagAt = some (s.m.advance t).now) ∧
    (∀ b, s.m.bit F.PORT_CTL_DIAG p = true → (s.m.pt p).diagAt = some b → (s.m.advance t).now < b + us →
      Runs (.portFrameReceived t p f) s fun n => n.get F.PORT_DIAG_LOST p = min (s.m.get F.PORT_DIAG_LOST p + 1) (2 ^ F.PORT_DIAG_LOST.wd - 1) ∧ n.rte = s.m.rte ∧ SameStores s.m n)) ∧
  (∀ (s : State) (t p : Nat) (f : RxFrame), s.m.Inv → p < 32 → s.m.groupStopped p = false → f.badCode = false → 64 ≤ f.len → f.len ≤ 16640 → f.fcs = 0 →
    (∀ b, f.kind = .be b → s.m.portUp p = true → s.m.addrPasses p f.dst false = true → s.m.laneRoom p b = true →
        ((∃ q, b.body = .packet q) ∧ (s.m.role p = 1 ∧ b.pcp ≠ 6 ∨ s.m.role p = 3 ∨ s.m.role p = 2 ∧ s.m.bit F.PORT_ROLE_PROTO p = true) ∨
          (∃ c, b.body = .chunk c) ∧ s.m.role p = 1 ∧ b.pcp ≠ 6) →
      Runs (.portFrameReceived t p f) s fun n =>
        n.rte.arrived = s.m.rte.arrived ++ [(p, if s.m.role p = 1 then b else { b with epoch := (s.m.advance t).epoch })] ∧
        n.get64 F.PORT_RX_FRAMES_LO p = min (s.m.get64 F.PORT_RX_FRAMES_LO p + 1) (2 ^ 64 - 1) ∧ n.get64 F.PORT_RX_BYTES_LO p = min (s.m.get64 F.PORT_RX_BYTES_LO p + f.len) (2 ^ 64 - 1) ∧
        SameStores s.m n) ∧
    (((∃ op e q, f.kind = .mac op e q ∧ (op = 1 ∨ op = 0x101)) ∨ (∃ c v o, f.kind = .uanto c v o ∧ s.m.addrPasses p f.dst true = true) ∨
        ((∃ a, f.kind = .access a) ∨ ∃ a, f.kind = .landed a) ∧ s.m.portUp p = true ∧ s.m.addrPasses p f.dst false = true ∧ s.m.role p = 2 ∧ s.m.bit F.PORT_ROLE_PROTO p = false) →
      Runs (.portFrameReceived t p f) s fun n =>
        (n.pt p).inq = (s.m.pt p).inq ++ [f.kind] ∧ n.get64 F.PORT_RX_FRAMES_LO p = min (s.m.get64 F.PORT_RX_FRAMES_LO p + 1) (2 ^ 64 - 1) ∧ n.rte = s.m.rte ∧
        Frame (fun k => k ∈ [keyOf F.PORT_RX_FRAMES_LO p, keyOf F.PORT_RX_FRAMES_LO p + 4, keyOf F.PORT_RX_BYTES_LO p, keyOf F.PORT_RX_BYTES_LO p + 4]) s.m n)) ∧
  (∀ (s : State) (t p : Nat) (f : RxFrame), s.m.Inv → p < 32 → s.m.groupStopped p = true → (((s.m.pt p).rxWait.map (·.len)).foldl (· + ·) 0 + f.len ≤ 65536) →
    Runs (.portFrameReceived t p f) s fun n =>
      (n.pt p).rxWait = (s.m.pt p).rxWait ++ [f] ∧ (alGet n.clk.starting (35 + p / 2)).isSome = true ∧
      (∀ k, k < 7 → getBits (s.m.refilled F.PORT_FC_PFC_EN p) k 1 = 1 → alGet (s.m.pt p).xoff k = none → .pause p k 0xFFFF ∈ n.sent) ∧ Frame (fun _ => False) s.m n) ∧
  (∀ (s : State) (t p : Nat) (x : PortSt), s.m.Inv → p < 32 → x = s.m.pt p →
    (s.m.portUp p = true → ∀ c, c = (match x.fecEnd with | some e => if (s.m.advance t).now < e then x.fecCount + 1 else 1 | none => 1) →
      Runs (.fecUncorrectable t p) s fun n =>
        n.get F.PORT_FEC_UNCORR p = min (s.m.get F.PORT_FEC_UNCORR p + 1) (2 ^ 32 - 1) ∧ SameStores s.m n ∧
        ((n.srcState (srcPort p) < 2 ∨ c ≤ s.m.get F.PORT_FEC_LIMIT_COUNT p) → (n.pt p).fecCount = c ∧ n.lkState p = 3) ∧
        (x.fecEnd = none ∨ (∃ e, x.fecEnd = some e ∧ e ≤ (s.m.advance t).now) → (n.pt p).fecEnd = some ((s.m.advance t).now + max 1 (s.m.get F.PORT_FEC_LIMIT_WINDOW_US p) * us)) ∧ ((∃ e, x.fecEnd = some e ∧ (s.m.advance t).now < e) → (n.pt p).fecEnd = x.fecEnd) ∧
        (c ≤ s.m.get F.PORT_FEC_LIMIT_COUNT p → Frame (fun k => k = keyOf F.PORT_FEC_UNCORR p) s.m n) ∧
        (s.m.get F.PORT_FEC_LIMIT_COUNT p < c → n.bit F.PORT_STATUS_SCHED_OUT p = true) ∧
        (s.m.get F.PORT_FEC_LIMIT_COUNT p < c → s.m.bit F.PORT_STATUS_SCHED_OUT p = false →
          ∀ h ∈ s.m.liveHerds, ∃ e ∈ n.evq, e.code = 0x0903 ∧ e.dest = h ∧ e.info0 = BitVec.ofNat 64 p)) ∧
    (∀ e, x.fecEnd = some e → e ≤ (s.m.advance t).now →
      Runs (.fecWindowExpire t p) s fun n => (n.pt p).fecEnd = none ∧ (n.pt p).fecCount = 0 ∧ Frame (fun _ => False) s.m n))

/-- Pauses (12_ports_mac.md R324 to R326). A PAUSE stops priorities 0 to 6, a PFC frame those whose bit is set, for its quanta, and 0 resumes. XOFF goes out when the occupancy reaches
XOFF_KIB, again every 20 µs, and quanta 0 when it has fallen to XON_KIB. The watchdog ends a pause, or an XOFF, that has lasted PAUSE_WD.MS, counts it and raises PORT_PAUSE_STORM.
Where the spec leaves a point open, the model's choices hold: notes/assumptions 72. -/
def Obligations.Pauses : Prop :=
  (∀ (s : State) (t p op en : Nat) (q : List Nat) (rest : List RxKind), s.m.Inv → p < 32 → (s.m.pt p).inq = .mac op en q :: rest → (op = 1 ∨ op = 0x101) →
    ((s.m.refilled F.PORT_FC_MODE p = 1 ∨ s.m.refilled F.PORT_FC_MODE p = 2) → (s.m.pt p).ignore = [] →
      Runs (.pfcReceived t p) s fun n =>
        (n.pt p).inq = rest ∧
        (∀ k, k < 7 → (op = 1 ∨ getBits en k 1 = 1) → ∀ v, v = nthD q (if op = 1 then 0 else k) 0 →
          (v = 0 → alGet (n.pt p).paused k = none ∧ getBits (n.get F.PORT_STATUS_PAUSED p) k 1 = 0) ∧
          (0 < v → alGet (n.pt p).paused k = some ((s.m.advance t).now + (v * 512 * 16000 + rateMbps (s.m.get F.PORT_STATUS_RATE p) - 1) / rateMbps (s.m.get F.PORT_STATUS_RATE p)) ∧
            getBits (n.get F.PORT_STATUS_PAUSED p) k 1 = 1)) ∧
        (∀ k, (7 ≤ k ∨ op = 0x101 ∧ getBits en k 1 = 0) → alGet (n.pt p).paused k = alGet (s.m.pt p).paused k) ∧
        Frame (fun k => k = keyOf F.PORT_STATUS_PAUSED p ∨ k = keyOf F.PORT_PAUSED_US p) s.m n) ∧
    ((s.m.refilled F.PORT_FC_MODE p = 0 ∨ s.m.refilled F.PORT_FC_MODE p = 3) →
      Runs (.pfcReceived t p) s fun n => n.pt p = { s.m.pt p with inq := rest } ∧ Frame (fun _ => False) s.m n)) ∧
  (∀ (s : State) (t p k e : Nat), s.m.Inv → p < 32 → k < 7 → alGet (s.m.pt p).paused k = some e →
    (e ≤ (s.m.advance t).now → alGet (s.m.pt p).ignore k = none →
      Runs (.pauseQuantaExpire t p k) s fun n =>
        alGet (n.pt p).paused k = none ∧ alGet (n.pt p).heldSince k = none ∧ getBits (n.get F.PORT_STATUS_PAUSED p) k 1 = 0 ∧
        Frame (fun k => k = keyOf F.PORT_STATUS_PAUSED p ∨ k = keyOf F.PORT_PAUSED_US p) s.m n) ∧
    ((s.m.advance t).now < e → Runs (.pauseQuantaExpire t p k) s fun n => n.pt p = s.m.pt p ∧ Frame (fun _ => False) s.m n)) ∧
  (∀ (s : State) (t p k o : Nat), s.m.Inv → p < 32 → k < 7 → o = (s.m.prioOf p k + 1023) / 1024 →
    (alGet (s.m.pt p).xoff k = none → alGet (s.m.pt p).mute k = none → s.m.xoffKib p ≤ o → s.m.pfcOn p k = true →
      Runs (.xoffRepeat t p k) s fun n =>
        n.sent = s.m.sent ++ [.pause p k 0xFFFF] ∧ alGet (n.pt p).xoff k = some ((s.m.advance t).now, (s.m.advance t).now) ∧ Frame (fun _ => False) s.m n) ∧
    (∀ a l, alGet (s.m.pt p).xoff k = some (a, l) →
      (o ≤ s.m.xonKib p → Runs (.xoffRepeat t p k) s fun n => n.sent = s.m.sent ++ [.pause p k 0] ∧ alGet (n.pt p).xoff k = none ∧ Frame (fun _ => False) s.m n) ∧
      (s.m.xonKib p < o → l + 20 * us ≤ (s.m.advance t).now →
        Runs (.xoffRepeat t p k) s fun n =>
          n.sent = s.m.sent ++ [.pause p k 0xFFFF] ∧ alGet (n.pt p).xoff k = some (a, (s.m.advance t).now) ∧ Frame (fun _ => False) s.m n) ∧
      (s.m.xonKib p < o → (s.m.advance t).now < l + 20 * us → Runs (.xoffRepeat t p k) s fun n => n.sent = s.m.sent ∧ n.pt p = s.m.pt p ∧ Frame (fun _ => False) s.m n))) ∧
  (∀ (s : State) (t p k a w : Nat), s.m.Inv → p < 32 → k < 7 → w = max 1 (s.m.get F.PORT_PAUSE_WD_MS p) * ms → a + w ≤ (s.m.advance t).now →
    ((s.m.advance t).heldBy p k = true → alGet (s.m.pt p).heldSince k = some a → alGet (s.m.pt p).xoff k = none →
      Runs (.pauseWatchdog t p k) s fun n =>
        alGet (n.pt p).paused k = none ∧ alGet (n.pt p).ignore k = some ((s.m.advance t).now + w) ∧
        n.get F.PORT_PAUSE_WD_COUNT p = min (s.m.get F.PORT_PAUSE_WD_COUNT p + 1) (2 ^ 32 - 1) ∧
        (∃ e ∈ n.evq, e.code = 0x0905 ∧ e.dest = 0 ∧ e.info0 = BitVec.ofNat 64 p ∧ e.info1 = BitVec.ofNat 64 k) ∧
        Frame (fun k => k = keyOf F.PORT_STATUS_PAUSED p ∨ k = keyOf F.PORT_PAUSED_US p ∨ k = keyOf F.PORT_PAUSE_WD_COUNT p) s.m n) ∧
    (∀ l, (s.m.advance t).heldBy p k = false → alGet (s.m.pt p).xoff k = some (a, l) →
      Runs (.pauseWatchdog t p k) s fun n =>
        alGet (n.pt p).xoff k = none ∧ alGet (n.pt p).mute k = some ((s.m.advance t).now + w) ∧
        n.get F.PORT_PAUSE_WD_COUNT p = min (s.m.get F.PORT_PAUSE_WD_COUNT p + 1) (2 ^ 32 - 1) ∧
        (∃ e ∈ n.evq, e.code = 0x0905 ∧ e.dest = 0 ∧ e.info0 = BitVec.ofNat 64 p ∧ e.info1 = BitVec.ofNat 64 k) ∧ n.sent = s.m.sent ∧
        Frame (fun k => k = keyOf F.PORT_PAUSE_WD_COUNT p) s.m n)) ∧
  (∀ (s : State) (t p k e : Nat), s.m.Inv → p < 32 → k < 7 → e ≤ (s.m.advance t).now →
    (alGet (s.m.pt p).ignore k = some e → Runs (.pauseWatchdogEnd t p k) s fun n => alGet (n.pt p).ignore k = none ∧ Frame (fun _ => False) s.m n) ∧
    (alGet (s.m.pt p).mute k = some e → alGet (s.m.pt p).xoff k = none →
      Runs (.pauseWatchdogEnd t p k) s fun n =>
        alGet (n.pt p).mute k = none ∧ (s.m.pfcOn p k = true → s.m.xoffKib p ≤ (s.m.prioOf p k + 1023) / 1024 → n.sent = s.m.sent ++ [.pause p k 0xFFFF]) ∧
        Frame (fun _ => False) s.m n))

/-- Best-effort forwarding and telemetry (13_routing_deadlock.md R332, R336, R337, R339, R340, R342, R346, R351). A frame in transit leaves on the port of its PATH, or the next in
rotation that is UP, by the table of its epoch; a frame for this module stays here; one with no route, no table or no room in the control lane is dropped and counted. The base table is
released at its time, with what it still holds. A snapshot copies the per-port counters and clears them.
Where the spec leaves a point open, the model's choices hold: notes/assumptions 75, 81. -/
def Obligations.RouterForwarding : Prop :=
  (∀ (s : State) (t p : Nat) (f : BeFrame) (rest : List (Nat × BeFrame)), s.m.Inv → s.m.Running → p < 32 → s.m.rte.arrived = (p, f) :: rest →
    (∀ d tb q dl cls vc w k, f.dest = some d → d < 1024 → d ≠ s.m.self → (cls, vc) = (if s.m.role p = 1 then (if f.pcp = 7 then (3, 0) else (f.pcp / 2, f.pcp % 2)) else (beClass f, 0)) →
        (cls = 3 → s.m.role p = 1 → ({ s.m with rte := { s.m.rte with arrived := rest } } : Mach).laneOf p 3 0 + f.bytes ≤ s.m.get F.RTE_POOL2_LANE_KIB p * 1024) →
        (s.m.advance t).tableFor f.epoch = some tb → w = s.m.routeWord tb d → 1 ≤ routeCount w → routeCount w ≤ 4 → k < routeCount w →
        (∀ i, i < k → s.m.portUp (routePort w ((f.path + i) % routeCount w)) = false) → q = routePort w ((f.path + k) % routeCount w) → s.m.portUp q = true →
        dl = routeDl w ((f.path + k) % routeCount w) →
      Runs (.beFrameForward t p) s fun n =>
        n.rte.arrived = rest ∧ n.rte.held = s.m.rte.held ++ [{ inPort := p, cls := cls, vc := vc, out := q, vcOut := max vc dl, table := tb, frame := f }] ∧ n.rte.here = s.m.rte.here ∧
        SameStores s.m n) ∧
    (f.dest = some s.m.self →
      Runs (.beFrameForward t p) s fun n => n.rte.arrived = rest ∧ n.rte.here = s.m.rte.here ++ [(p, f)] ∧ n.rte.held = s.m.rte.held ∧ SameStores s.m n) ∧
    (∀ c : Fld, (f.dest = none ∧ c = F.RTE_NO_ROUTE ∨ ∃ d, f.dest = some d ∧ d ≠ s.m.self ∧ (1024 ≤ d ∧ c = F.RTE_NO_ROUTE ∨ d < 1024 ∧
          (f.pcp = 7 ∧ s.m.role p = 1 ∧ s.m.get F.RTE_POOL2_LANE_KIB p * 1024 < f.bytes ∧ c = F.RTE_CONTROL_DROP ∨
            f.pcp ≠ 7 ∧ s.m.role p = 1 ∧ f.pcp < 6 ∧ ((s.m.advance t).tableFor f.epoch = none ∧ c = F.RTE_EPOCH_DROP ∨
              ∃ tb, (s.m.advance t).tableFor f.epoch = some tb ∧ c = F.RTE_NO_ROUTE ∧ (routeCount (s.m.routeWord tb d) = 0 ∨
                ∀ i, i < 4 → s.m.portUp (routePort (s.m.routeWord tb d) i) = false))))) →
      Runs (.beFrameForward t p) s fun n =>
        n.get c = min (s.m.get c + 1) (2 ^ c.wd - 1) ∧ n.rte.arrived = rest ∧ n.rte.held = s.m.rte.held ∧ n.rte.here = s.m.rte.here ∧ SameStores s.m n)) ∧
  (∀ (s : State) (t : Nat) (e : DWord), s.m.Inv → s.m.plan.baseHoldEnd = some e →
    (reached (s.m.advance t).polder e = true →
      Runs (.baseTableRelease t) s fun n =>
        n.plan.baseHoldEnd = none ∧ n.bit F.RTE_STATUS_BASE_HELD = false ∧ n.rte.held = s.m.rte.held.filter (fun h => h.table != 0) ∧
        n.get F.RTE_EPOCH_DROP = min (s.m.get F.RTE_EPOCH_DROP + (s.m.rte.held.filter (fun h => h.table == 0)).length) (2 ^ F.RTE_EPOCH_DROP.wd - 1) ∧ SameStores s.m n) ∧
    (reached (s.m.advance t).polder e = false → Runs (.baseTableRelease t) s fun n => n.rte = s.m.rte ∧ Frame (fun _ => False) s.m n)) ∧
  (∀ (s : State) (t : Nat), s.m.Inv → s.m.bit F.TEL_CTL_ARM = true →
    (reached (s.m.advance t).polder (BitVec.ofNat 64 (s.m.get64 F.TEL_SNAP_AT_LO)) = true → (s.m.regs.map (·.1)).Nodup →
      Runs (.telemetrySnapshot t) s fun n =>
        (∀ i, i < 0x800 → n.reg (0x03C01000 + i) = s.m.reg (0x00201000 + i)) ∧
        (∀ p o, p < 32 → 4 ≤ o → o < 0x28 → n.reg (0x00201000 + p * 0x40 + o) = 0) ∧ (∀ p, p < 32 → n.reg (0x00201000 + p * 0x40) = s.m.reg (0x00201000 + p * 0x40)) ∧
        n.get64 F.TEL_SNAP_TIME_LO = (s.m.advance t).polder.toNat ∧ n.bit F.TEL_CTL_ARM = false ∧ n.bit F.TEL_CTL_DONE = true ∧
        Frame (fun k => k ∈ [keyOf F.TEL_CTL_ARM, keyOf F.TEL_SNAP_TIME_LO, keyOf F.TEL_SNAP_TIME_LO + 4] ∨ 0x00201000 ≤ k ∧ k < 0x00201800 ∨ 0x03C01000 ≤ k ∧ k < 0x03C01800) s.m n) ∧
    (reached (s.m.advance t).polder (BitVec.ofNat 64 (s.m.get64 F.TEL_SNAP_AT_LO)) = false → Runs (.telemetrySnapshot t) s fun n => Frame (fun _ => False) s.m n))

/-- Herd commands (14_herds.md R352 to R357, R362). Each is refused while one runs, for herd 0, and in a state that takes none. CREATE grants the staged shares and opens the doorbell
window; SET_SHARE grants them where neither a plan's claim, nor the use, nor a pool stands against it; GRANT and REVOKE change PRIV, which at most 16 herds hold; DESTROY of an unused
herd closes its doorbell window.
Where the spec leaves a point open, the model's choices hold: notes/assumptions 82, 83. -/
def Obligations.HerdCommands : Prop :=
  ∀ (s : State) (p : Path) (w : Word) (h : Nat), s.m.Inv → s.m.Steward p F.QE_HERD_CMD_OP.addr → h = s.m.getP p F.QE_HERD_SEL_HERD →
    (∀ c states r, (c, states) ∈ [(Instr.herdCreate p, [0]), (Instr.herdSetShare p, [1, 2]), (Instr.herdReset p w, [1, 2]), (Instr.herdDestroy p, [1]), (Instr.privGrant p, [1, 2, 3]),
          (Instr.privRevoke p, [1, 2, 3])] →
        (s.m.bit F.QE_HERD_CMD_STATUS_BUSY = true ∧ r = 8 ∨ s.m.bit F.QE_HERD_CMD_STATUS_BUSY = false ∧ (h = 0 ∧ r = 6 ∨ h ≠ 0 ∧ s.m.herdState h ∉ states ∧ r = 1)) →
      Runs c s fun n =>
        n.bit F.QE_HERD_CMD_STATUS_REFUSED = true ∧ n.bit F.QE_HERD_CMD_STATUS_DONE = false ∧ n.get F.QE_HERD_CMD_STATUS_REASON = r ∧
        Frame (fun k => k = keyOf F.QE_HERD_CMD_STATUS_BUSY) s.m n) ∧
    (s.m.bit F.QE_HERD_CMD_STATUS_BUSY = false → h ≠ 0 →
      (s.m.herdState h = 0 → (∀ r ∈ allRes, s.m.sharesOthers r - s.m.granted h r + s.m.stagedShare p r + s.m.used 0 r ≤ s.m.pool r) →
        Runs (.herdCreate p) s fun n =>
          n.herdState h = 1 ∧ (∀ r ∈ allRes, n.granted h r = s.m.stagedShare p r) ∧ n.bit F.QE_HERD_CMD_STATUS_DONE = true ∧ n.bit F.QE_HERD_CMD_STATUS_REFUSED = false ∧
          (n.win (doorbellBase + h)).state = 1 ∧ (n.win (doorbellBase + h)).r = true ∧ (n.win (doorbellBase + h)).w = true ∧ (n.win (doorbellBase + h)).atomic = false ∧
          (n.win (doorbellBase + h)).ownerHerd = 0 ∧ (n.win (doorbellBase + h)).peer = s.m.getP p F.QE_HERD_DB_PEER_PEER ∧ (n.win (doorbellBase + h)).base = herdPage h ∧
          n.get F.QE_HERD_STATUS_DB_GEN 0 h = (s.m.win (doorbellBase + h)).gen ∧ StoresBut .peat (s.m.winAddr (doorbellBase + h)) 32 s.m n ∧
          RegsBut (fun k => k = keyOf F.QE_HERD_STATUS_STATE 0 h ∨ k = keyOf F.QE_HERD_CMD_STATUS_BUSY ∨ herdPage h + 0x9010 ≤ k ∧ k < herdPage h + 0x9030) s.m n) ∧
      (∀ r ∈ allRes, s.m.herdState h = 0 → s.m.pool r < s.m.sharesOthers r - s.m.granted h r + s.m.stagedShare p r + s.m.used 0 r →
        Runs (.herdCreate p) s fun n =>
          n.get F.QE_HERD_CMD_STATUS_REASON = 2 ∧ n.bit F.QE_HERD_CMD_STATUS_REFUSED = true ∧ n.herdState h = 0 ∧ Frame (fun k => k = keyOf F.QE_HERD_CMD_STATUS_BUSY) s.m n) ∧
      (s.m.herdState h = 1 ∨ s.m.herdState h = 2 →
        ((∀ r ∈ allRes, s.m.sharesOthers r - s.m.granted h r + s.m.stagedShare p r + s.m.used 0 r ≤ s.m.pool r) →
            (∀ r ∈ allRes, s.m.granted h r ≤ s.m.stagedShare p r ∨
              s.m.bankState 0 ≠ 1 ∧ s.m.bankState 1 ≠ 1 ∧ s.m.planClaim h r ≤ s.m.stagedShare p r ∧ s.m.used h r ≤ s.m.stagedShare p r) →
          Runs (.herdSetShare p) s fun n =>
            (∀ r ∈ allRes, n.granted h r = s.m.stagedShare p r) ∧ n.bit F.QE_HERD_CMD_STATUS_DONE = true ∧ n.bit F.QE_HERD_CMD_STATUS_REFUSED = false ∧
            Frame (fun k => k = keyOf F.QE_HERD_CMD_STATUS_BUSY ∨ herdPage h + 0x9010 ≤ k ∧ k < herdPage h + 0x9030) s.m n) ∧
        (∀ r ∈ allRes, s.m.stagedShare p r < s.m.granted h r →
          (s.m.bankState 0 = 1 ∨ s.m.bankState 1 = 1 →
            Runs (.herdSetShare p) s fun n => n.get F.QE_HERD_CMD_STATUS_REASON = 4 ∧ Frame (fun k => k = keyOf F.QE_HERD_CMD_STATUS_BUSY) s.m n) ∧
          (s.m.bankState 0 ≠ 1 → s.m.bankState 1 ≠ 1 → s.m.stagedShare p r < s.m.planClaim h r →
            Runs (.herdSetShare p) s fun n =>
              n.get F.QE_HERD_CMD_STATUS_REASON = 7 ∧ n.bit F.CFG_STATUS_FROZEN_WRITE = true ∧
              Frame (fun k => k = keyOf F.QE_HERD_CMD_STATUS_BUSY ∨ k = keyOf F.CFG_STATUS_FROZEN_WRITE ∨ k = keyOf F.CFG_FROZEN_ADDR) s.m n) ∧
          (s.m.bankState 0 ≠ 1 → s.m.bankState 1 ≠ 1 → (∀ q ∈ allRes, s.m.planClaim h q ≤ s.m.stagedShare p q) → s.m.stagedShare p r < s.m.used h r →
            Runs (.herdSetShare p) s fun n => n.get F.QE_HERD_CMD_STATUS_REASON = 3 ∧ Frame (fun k => k = keyOf F.QE_HERD_CMD_STATUS_BUSY) s.m n))) ∧
      (s.m.herdState h = 1 → s.m.herdUnused h = true →
        Runs (.herdDestroy p) s fun n =>
          n.herdState h = 4 ∧ n.bit F.QE_HERD_CMD_STATUS_BUSY = true ∧ (n.win (doorbellBase + h)).state = 2 ∧ (∃ c ∈ n.winCloses, c.window = doorbellBase + h ∧ c.steward = true) ∧
          StoresBut .peat (s.m.winAddr (doorbellBase + h)) 32 s.m n) ∧
      (s.m.herdState h = 1 → s.m.herdUnused h = false →
        Runs (.herdDestroy p) s fun n => n.get F.QE_HERD_CMD_STATUS_REASON = 3 ∧ n.herdState h = 1 ∧ Frame (fun k => k = keyOf F.QE_HERD_CMD_STATUS_BUSY) s.m n) ∧
      (s.m.herdState h = 1 ∨ s.m.herdState h = 2 ∨ s.m.herdState h = 3 →
        (s.m.bit F.QE_HERD_STATUS_PRIV 0 h = false → s.m.get F.QE_PRIV_COUNT < 16 →
          Runs (.privGrant p) s fun n =>
            n.bit F.QE_HERD_STATUS_PRIV 0 h = true ∧ n.get F.QE_PRIV_COUNT = s.m.get F.QE_PRIV_COUNT + 1 ∧ n.bit F.QE_HERD_CMD_STATUS_DONE = true ∧ n.herdState h = s.m.herdState h ∧
            Frame (fun k => k ∈ [keyOf F.QE_HERD_STATUS_PRIV 0 h, keyOf F.QE_PRIV_COUNT, keyOf F.QE_HERD_CMD_STATUS_BUSY]) s.m n) ∧
        (s.m.bit F.QE_HERD_STATUS_PRIV 0 h = false → 16 ≤ s.m.get F.QE_PRIV_COUNT →
          Runs (.privGrant p) s fun n => n.get F.QE_HERD_CMD_STATUS_REASON = 5 ∧ Frame (fun k => k = keyOf F.QE_HERD_CMD_STATUS_BUSY) s.m n) ∧
        (s.m.bit F.QE_HERD_STATUS_PRIV 0 h = true → 0 < s.m.get F.QE_PRIV_COUNT →
          Runs (.privRevoke p) s fun n =>
            n.bit F.QE_HERD_STATUS_PRIV 0 h = false ∧ n.get F.QE_PRIV_COUNT + 1 = s.m.get F.QE_PRIV_COUNT ∧ n.bit F.QE_HERD_CMD_STATUS_DONE = true ∧ n.herdState h = s.m.herdState h ∧
            Frame (fun k => k ∈ [keyOf F.QE_HERD_STATUS_PRIV 0 h, keyOf F.QE_PRIV_COUNT, keyOf F.QE_HERD_CMD_STATUS_BUSY]) s.m n) ∧
        (∀ c, (c = .privGrant p ∧ s.m.bit F.QE_HERD_STATUS_PRIV 0 h = true ∨ c = .privRevoke p ∧ s.m.bit F.QE_HERD_STATUS_PRIV 0 h = false) →
          Runs c s fun n => n.bit F.QE_HERD_CMD_STATUS_DONE = true ∧ Frame (fun k => k = keyOf F.QE_HERD_CMD_STATUS_BUSY) s.m n)))

/-- Herd reset (14_herds.md R364 to R366). RESET stops the herd's queues, whose undispatched descriptors are flushed, ends its READY queue pairs in ERROR, revokes its translations and,
unless told to keep them, its windows; what drains is squashed a lease period later; once nothing is left the herd is ACTIVE again, with rings disabled and empty, its Cream cleared, its
halt gone, and HERD_RESET_DONE.
Where the spec leaves a point open, the model's choices hold: notes/assumptions 83, 84. -/
def Obligations.HerdResets : Prop :=
  (∀ (s : State) (p : Path) (w : Word) (h : Nat), s.m.Inv → s.m.Steward p F.QE_HERD_CMD_OP.addr → h = s.m.getP p F.QE_HERD_SEL_HERD → s.m.bit F.QE_HERD_CMD_STATUS_BUSY = false →
      h ≠ 0 → (s.m.herdState h = 1 ∨ s.m.herdState h = 2) →
    Runs (.herdReset p w) s fun n =>
      n.herdState h = 3 ∧ n.bit F.QE_HERD_CMD_STATUS_BUSY = true ∧
      (∃ r, n.herdReset = some r ∧ r.herd = h ∧ (r.squash = true ↔ getBits w.toNat 0 1 = 1) ∧ r.since = s.m.now ∧ (getBits w.toNat 1 1 = 1 → r.windows = [])) ∧
      (∀ k ∈ s.m.sqsOf h, (n.sq k).fetched = [] ∧ (n.sq k).reading = none ∧ (n.sq k).wait = none ∧ (n.sq k).flush = (s.m.sq k).flush ++ (s.m.sq k).fetched) ∧
      (∀ q ∈ s.m.qpsReady h, n.qpState q = 2 ∧ n.get F.BEQ_QP_STATUS_ERR_STATUS 0 q = stFlushed) ∧
      (∃ r ∈ n.xlt.inv, r.page = some h ∧ r.herd = h ∧ r.scope = 0 ∧ r.running = false) ∧ n.cream = s.m.cream ∧ n.flash = s.m.flash) ∧
  (∀ (s : State) (t : Nat) (r : HerdReset), s.m.Inv → s.m.Running → s.m.herdReset = some r →
    (r.squash = false → r.since + s.m.leaseAt r.since ≤ (s.m.advance t).now →
      Runs (.herdResetDrainTimeout t) s fun n =>
        n.herdReset = some { r with squash := true } ∧ (∀ l, ∀ g ∈ (n.ltx l).queue, g.done = 0 → s.m.sqHerd g.sq ≠ r.herd) ∧ n.herdState r.herd = s.m.herdState r.herd) ∧
    ((s.m.advance t).now < r.since + s.m.leaseAt r.since ∨ r.squash = true →
      Runs (.herdResetDrainTimeout t) s fun n => n.herdReset = some r ∧ n.lode = s.m.lode ∧ n.chu = s.m.chu ∧ n.qe = s.m.qe ∧ Frame (fun _ => False) s.m n)) ∧
  (∀ (s : State) (t : Nat) (r : HerdReset), s.m.Inv → s.m.Running → s.m.herdReset = some r → r.herd < 256 → r.herd ≠ 0 →
    ((∀ k ∈ s.m.sqsOf r.herd, s.m.sqSettled k = true) → (∀ w ∈ r.windows, ∀ c ∈ s.m.winCloses, c.window ≠ w) → (∀ l ∈ s.m.chu.launches, l.herd ≠ r.herd) →
        (∀ x ∈ s.m.chu.sram, x.2.2.2 ≠ r.herd) → (∀ y ∈ s.m.xlt.inv, y.page ≠ some r.herd) →
      Runs (.herdResetComplete t) s fun n =>
        n.herdState r.herd = 1 ∧ n.bit F.QE_HERD_CMD_STATUS_BUSY = false ∧ n.bit F.QE_HERD_CMD_STATUS_DONE = true ∧ n.herdReset = none ∧
        getBits (n.get F.QE_HALT (r.herd / 32)) (r.herd % 32) 1 = 0 ∧ (∃ e ∈ n.evq, e.code = 0x0103 ∧ e.dest = r.herd) ∧ (∃ e ∈ n.evq, e.code = 0x0103 ∧ e.dest = 0) ∧
        (∀ k ∈ s.m.sqsOf r.herd, n.bit F.QE_SQ_CFG_ENABLE 0 k = false ∧ n.get F.QE_SQ_PTR_OWN 0 k = 0 ∧ n.get F.QE_SQ_PTR_OTHER 0 k = 0 ∧ n.get F.QE_SQ_STATUS_PHASE 0 k = 1 ∧
          (n.sq k).out = [] ∧ (n.sq k).flush = []) ∧
        (∀ g a, g < 3072 → s.m.get F.CRM_GRAN_STATE 0 g = 1 → s.m.get F.CRM_GRAN_HERD 0 g = r.herd → creamBase g ≤ a → a < creamBase g + 0x10000 → memGet n.cream a = 0) ∧
        n.peat = s.m.peat ∧ n.flash = s.m.flash) ∧
    ((∃ k ∈ s.m.sqsOf r.herd, s.m.sqSettled k = false) ∨ (∃ w ∈ r.windows, ∃ c ∈ s.m.winCloses, c.window = w) ∨ (∃ l ∈ s.m.chu.launches, l.herd = r.herd) ∨
        (∃ y ∈ s.m.xlt.inv, y.page = some r.herd) →
      Runs (.herdResetComplete t) s fun n =>
        n.herdReset = some r ∧ n.herdState r.herd = s.m.herdState r.herd ∧ n.evq = s.m.evq ∧ SameStores s.m n))

/-- Commands of key pages (15_cipher.md R379, R380, R382, R386). Each is refused while an INSTALL of its path runs. ASSIGN gives a FREE page to a herd with room; INSTALL reads an image of
128 bytes through the owner's context, overwrites its key bytes with zeros and runs until they have landed, or names the first check that fails; SWITCH changes a STAGED page's keys;
RELEASE frees a page that nothing names.
Where the spec leaves a point open, the model's choices hold: notes/assumptions 47, 85. -/
def Obligations.KeyPages : Prop :=
  (∀ (s : State) (p : Path) (w : Word) (g ks : Nat), s.m.Inv → s.m.Steward p F.CIPH_PAGE_CMD_OP.addr → s.m.get F.CIPH_STATUS_PRESENT ≠ 0 → g = s.m.getP p F.CIPH_PAGE_SEL_PAGE →
      ks = pathOff p + keyOf F.CIPH_CMD_STATUS_BUSY →
    (∀ c r, c ∈ [Instr.keyPageAssign p w, Instr.keyInstall p w, Instr.keySwitch p, Instr.keyPageRelease p] →
        (s.m.getP p F.CIPH_CMD_STATUS_BUSY = 1 ∧ r = 0x0D ∨ s.m.getP p F.CIPH_CMD_STATUS_BUSY = 0 ∧
          (c = .keyPageAssign p w ∧ (s.m.keyState g ≠ 0 ∧ r = 1 ∨ s.m.keyState g = 0 ∧ (s.m.roomFor (getBits w.toNat 8 8) resKeys 1 = false ∧ r = 2 ∨
              s.m.roomFor (getBits w.toNat 8 8) resKeys 1 = true ∧ s.m.bit F.CIPH_PAGE_STATUS_RECORDED 0 g = false ∧ getBits w.toNat 24 4 ∉ [1, 2] ∧ r = 6)) ∨
            c = .keyInstall p w ∧ s.m.keyState g = 0 ∧ r = 1 ∨ c = .keySwitch p ∧ s.m.keyState g ≠ 3 ∧ r = 1 ∨
            c = .keyPageRelease p ∧ (s.m.keyState g ∉ [1, 2] ∧ r = 1 ∨ s.m.keyState g ∈ [1, 2] ∧ s.m.keyNamed g = true ∧ r = 0x0A))) →
      Runs c s fun n =>
        n.getP p F.CIPH_CMD_STATUS_REFUSED = 1 ∧ n.getP p F.CIPH_CMD_STATUS_DONE = 0 ∧ n.getP p F.CIPH_CMD_STATUS_REASON = r ∧ n.ciph = s.m.ciph ∧ Frame (fun k => k = ks) s.m n) ∧
    (s.m.getP p F.CIPH_CMD_STATUS_BUSY = 0 → s.m.keyState g = 0 → s.m.roomFor (getBits w.toNat 8 8) resKeys 1 = true → getBits w.toNat 24 4 ∈ [1, 2] →
        (s.m.bit F.CIPH_PAGE_STATUS_RECORDED 0 g = true → getBits w.toNat 24 4 = 2 ∧ ((s.m.keyPage g).record.map (·.1)).getD 0 = getBits w.toNat 8 8) →
      Runs (.keyPageAssign p w) s fun n =>
        n.keyState g = 1 ∧ n.get F.CIPH_PAGE_STATUS_KIND 0 g = getBits w.toNat 24 4 ∧ n.get F.CIPH_PAGE_STATUS_HERD 0 g = getBits w.toNat 8 8 ∧
        n.used (getBits w.toNat 8 8) resKeys = s.m.used (getBits w.toNat 8 8) resKeys + 1 ∧ n.getP p F.CIPH_CMD_STATUS_DONE = 1 ∧ n.getP p F.CIPH_CMD_STATUS_REFUSED = 0 ∧
        n.ciph = s.m.ciph ∧ Frame (fun k => k = ks ∨ k = keyOf F.CIPH_PAGE_STATUS_STATE 0 g ∨ k = keyOf F.QE_HERD_USE 3 (getBits w.toNat 8 8)) s.m n) ∧
    (s.m.getP p F.CIPH_CMD_STATUS_BUSY = 0 → s.m.keyState g ≠ 0 →
      ∀ h a va, h = s.m.get F.CIPH_PAGE_STATUS_HERD 0 g → a = w.toNat % 256 → va = (s.m.getP p F.CIPH_PAGE_ADDR_LO + s.m.getP p F.CIPH_PAGE_ADDR_HI * 2 ^ 32) / 128 * 128 →
        (∀ x e, s.m.tile h a accRead 0x1FF va 128 = (x, .error e) →
          Runs (.keyInstall p w) s fun n => n.getP p F.CIPH_CMD_STATUS_REFUSED = 1 ∧ n.getP p F.CIPH_CMD_STATUS_REASON = 9 ∧ n.ciph.installs = s.m.ciph.installs) ∧
        (∀ x segs y b, s.m.tile h a accRead 0x1FF va 128 = (x, .ok segs) → (∀ q ∈ segs, q.target = 0) → x.readSegs segs = (y, b) →
          (∀ r, y.imageReason g b = some r →
            Runs (.keyInstall p w) s fun n => n.getP p F.CIPH_CMD_STATUS_REFUSED = 1 ∧ n.getP p F.CIPH_CMD_STATUS_REASON = r % 256 ∧ n.ciph.installs = s.m.ciph.installs) ∧
          (∀ z, y.imageReason g b = none → y.writeVa h a 0x1FF 9 g 0 (va + 0x40) (List.replicate 64 0) = (z, none) →
            Runs (.keyInstall p w) s fun n =>
              n.getP p F.CIPH_CMD_STATUS_BUSY = 1 ∧ StoresOf z n ∧
              ∃ i, n.ciph.installs = s.m.ciph.installs ++ [i] ∧ i.path = p ∧ i.page = g ∧ i.slot = leAt b 7 1 ∧ i.key = (leAt b 0x40 32, leAt b 0x60 32)))) ∧
    (s.m.getP p F.CIPH_CMD_STATUS_BUSY = 0 → s.m.keyState g = 3 →
      Runs (.keySwitch p) s fun n =>
        n.keyState g = 4 ∧ n.get F.CIPH_PAGE_STATUS_EPOCH 0 g = (s.m.get F.CIPH_PAGE_STATUS_EPOCH 0 g + 1) % 65536 ∧ n.bit F.CIPH_PAGE_STATUS_HELD 0 g = false ∧
        n.get64 F.CIPH_PAGE_USED_LO 0 g = 0 ∧ n.get F.CIPH_PAGE_CHECK_CUR 0 g = s.m.get F.CIPH_PAGE_CHECK_OTHER 0 g ∧
        n.get F.CIPH_PAGE_CHECK_OTHER 0 g = s.m.get F.CIPH_PAGE_CHECK_CUR 0 g ∧ (n.keyPage g).cur = (s.m.keyPage g).other ∧ (n.keyPage g).other = (s.m.keyPage g).cur ∧
        (n.keyPage g).switchAt = s.m.now ∧ (∃ e ∈ n.evq, e.code = 0x0A00 ∧ e.dest = s.m.get F.CIPH_PAGE_STATUS_HERD 0 g ∧ e.info0 = BitVec.ofNat 64 g) ∧
        n.getP p F.CIPH_CMD_STATUS_DONE = 1 ∧ SameStores s.m n) ∧
    (s.m.getP p F.CIPH_CMD_STATUS_BUSY = 0 → s.m.keyState g ∈ [1, 2] → s.m.keyNamed g = false →
      Runs (.keyPageRelease p) s fun n =>
        n.keyState g = 0 ∧ (n.keyPage g).cur = none ∧ (n.keyPage g).other = none ∧ (n.keyPage g).record = none ∧ n.get F.CIPH_PAGE_CHECK_CUR 0 g = 0 ∧
        n.get F.CIPH_PAGE_CHECK_OTHER 0 g = 0 ∧ n.used (s.m.get F.CIPH_PAGE_STATUS_HERD 0 g) resKeys = s.m.used (s.m.get F.CIPH_PAGE_STATUS_HERD 0 g) resKeys - 1 ∧
        (∀ j, j ≠ g → n.keyPage j = s.m.keyPage j) ∧ n.getP p F.CIPH_CMD_STATUS_DONE = 1 ∧ SameStores s.m n)) ∧
  (∀ (m : Mach) (g : Nat) (b : List Byte), m.imageReason g b = none →
    leAt b 0 4 = 0x5059454B ∧ leAt b 8 2 = g ∧ leAt b 4 2 = 1 ∧ leAt b 6 1 = m.get F.CIPH_PAGE_STATUS_KIND 0 g ∧ leAt b 0x0A 1 = m.get F.CIPH_PAGE_STATUS_HERD 0 g ∧ leAt b 7 1 ≤ 2 ∧
    (leAt b 7 1 = 0 → m.keyState g = 1) ∧ (0 < leAt b 7 1 → m.keyState g = 2) ∧ (leAt b 0x10 4 ≠ 0 → leAt b 0x10 4 = (Config.keyCheck (leAt b 0x40 32)).toNat) ∧
    (m.get F.CIPH_PAGE_STATUS_KIND 0 g = 2 → leAt b 0x40 32 ≠ leAt b 0x60 32))

/-- Changes of keys (15_cipher.md R380, R382, R385, R387). Once the zeros have landed an INSTALL takes its key: the first makes the page ACTIVE, the next STAGED, the previous key of an
interrupted walk RETIRING; a page that changed state meanwhile refuses it. A retiring key goes a lease period after the switch of a WIRE page, or when the walk of a STORE page is done.
Where the spec leaves a point open, the model's choices hold: notes/assumptions 85, 86. -/
def Obligations.KeyChanges : Prop :=
  (∀ (s : State) (t : Nat) (p : Path) (x : KeyInstall), s.m.Inv → s.m.Running → s.m.ciph.installs.find? (fun y => decide (pathOff y.path = pathOff p)) = some x → x.page < 1024 →
    (s.m.landed 9 x.page 0 = false →
      Runs (.keyInstallComplete t p) s fun n => n.ciph = s.m.ciph ∧ Frame (fun _ => False) s.m n) ∧
    (s.m.landed 9 x.page 0 = true →
      (x.slot = 0 → s.m.keyState x.page = 1 →
        Runs (.keyInstallComplete t p) s fun n =>
          n.keyState x.page = 2 ∧ (n.keyPage x.page).cur = some x.key ∧ n.get F.CIPH_PAGE_CHECK_CUR 0 x.page = (Config.keyCheck x.key.1).toNat % 2 ^ 32 ∧
          n.get64 F.CIPH_PAGE_USED_LO 0 x.page = 0 ∧ (s.m.bit F.CIPH_PAGE_STATUS_RECORDED 0 x.page = false → n.get F.CIPH_PAGE_STATUS_EPOCH 0 x.page = x.epoch % 65536) ∧
          (s.m.get F.CIPH_PAGE_STATUS_KIND 0 x.page = 1 → n.get F.CIPH_PAGE_LIMIT_LIMIT_LOG2 0 x.page = (if x.limit = 0 then 36 else x.limit % 64)) ∧
          n.getP p F.CIPH_CMD_STATUS_BUSY = 0 ∧ n.getP p F.CIPH_CMD_STATUS_DONE = 1 ∧ n.ciph.installs = s.m.ciph.installs.erase x ∧ SameStores s.m n) ∧
      (x.slot = 1 → s.m.keyState x.page = 2 → s.m.bit F.CIPH_PAGE_STATUS_HELD 0 x.page = false →
        Runs (.keyInstallComplete t p) s fun n =>
          n.keyState x.page = 3 ∧ n.keyPage x.page = { s.m.keyPage x.page with other := some x.key } ∧
          n.get F.CIPH_PAGE_CHECK_OTHER 0 x.page = (Config.keyCheck x.key.1).toNat % 2 ^ 32 ∧ n.getP p F.CIPH_CMD_STATUS_BUSY = 0 ∧ n.getP p F.CIPH_CMD_STATUS_DONE = 1 ∧
          SameStores s.m n) ∧
      (x.slot = 1 → s.m.keyState x.page = 2 → s.m.bit F.CIPH_PAGE_STATUS_HELD 0 x.page = true →
        Runs (.keyInstallComplete t p) s fun n =>
          n.keyState x.page = 4 ∧ (n.keyPage x.page).cur = some x.key ∧ (n.keyPage x.page).other = (s.m.keyPage x.page).cur ∧ n.bit F.CIPH_PAGE_STATUS_HELD 0 x.page = false ∧
          n.get F.CIPH_PAGE_STATUS_EPOCH 0 x.page = (s.m.get F.CIPH_PAGE_STATUS_EPOCH 0 x.page + 1) % 65536) ∧
      (x.slot = 2 → s.m.keyState x.page = 2 →
        Runs (.keyInstallComplete t p) s fun n =>
          n.keyState x.page = 4 ∧ (n.keyPage x.page).other = some x.key ∧ (n.keyPage x.page).cur = (s.m.keyPage x.page).cur ∧ n.bit F.CIPH_PAGE_STATUS_NEEDS_PREV 0 x.page = false) ∧
      ((x.slot = 0 ∧ s.m.keyState x.page ≠ 1 ∨ x.slot ≠ 0 ∧ s.m.keyState x.page ≠ 2) →
        Runs (.keyInstallComplete t p) s fun n =>
          n.getP p F.CIPH_CMD_STATUS_REFUSED = 1 ∧ n.getP p F.CIPH_CMD_STATUS_REASON = 1 ∧ n.getP p F.CIPH_CMD_STATUS_BUSY = 0 ∧ n.keyPage x.page = s.m.keyPage x.page ∧
          Frame (fun k => k = pathOff p + keyOf F.CIPH_CMD_STATUS_BUSY) s.m n))) ∧
  (∀ (s : State) (t g : Nat), s.m.Inv → s.m.Running → g < 1024 → s.m.keyState g = 4 →
    (s.m.get F.CIPH_PAGE_STATUS_KIND 0 g = 1 → (s.m.keyPage g).switchAt + s.m.leaseAt (s.m.keyPage g).switchAt ≤ (s.m.advance t).now →
      Runs (.keyRetireTimeout t g) s fun n =>
        n.keyState g = 2 ∧ n.keyPage g = { s.m.keyPage g with other := none } ∧ n.get F.CIPH_PAGE_CHECK_OTHER 0 g = 0 ∧
        (∃ e ∈ n.evq, e.code = 0x0A01 ∧ e.dest = s.m.get F.CIPH_PAGE_STATUS_HERD 0 g ∧ e.info0 = BitVec.ofNat 64 g) ∧
        Frame (fun k => k = keyOf F.CIPH_PAGE_STATUS_STATE 0 g ∨ k = keyOf F.CIPH_PAGE_CHECK_OTHER 0 g) s.m n) ∧
    ((s.m.advance t).now < (s.m.keyPage g).switchAt + s.m.leaseAt (s.m.keyPage g).switchAt →
      Runs (.keyRetireTimeout t g) s fun n => n.ciph = s.m.ciph ∧ Frame (fun _ => False) s.m n) ∧
    (s.m.get F.CIPH_PAGE_STATUS_KIND 0 g = 2 →
      Runs (.rekeyWalkDone t g) s fun n =>
        n.keyState g = 2 ∧ (n.keyPage g).other = none ∧ (n.keyPage g).cur = (s.m.keyPage g).cur ∧ n.get64 F.CIPH_PAGE_REKEY_LO 0 g = 2 ^ 64 - 1 ∧
        (∃ e ∈ n.evq, e.code = 0x0A01 ∧ e.dest = s.m.get F.CIPH_PAGE_STATUS_HERD 0 g) ∧ (∃ e ∈ n.evq, e.code = 0x0A03 ∧ e.dest = s.m.get F.CIPH_PAGE_STATUS_HERD 0 g) ∧
        Frame (fun k => k ∈ [keyOf F.CIPH_PAGE_STATUS_STATE 0 g, keyOf F.CIPH_PAGE_CHECK_OTHER 0 g, keyOf F.CIPH_PAGE_REKEY_LO 0 g, keyOf F.CIPH_PAGE_REKEY_LO 0 g + 4]) s.m n))

/-- Cipher engines and their randomness (15_cipher.md R388 to R390; 16_faults.md R393). A mismatch is computed again and counted; a second one drops what was computed and fences the
engine. A failed entropy test leaves the engines to run on their generators, until one has made 2^32 blocks and fences itself; when the source passes again those return.
Where the spec leaves a point open, the model's choices hold: notes/assumptions 87, 88. -/
def Obligations.CipherEngines : Prop :=
  (∀ (s : State) (t e : Nat) (loss : CipherLoss), s.m.Inv → e < 4 →
    (getBits (s.m.get F.CIPH_STATUS_PRESENT) e 1 = 1 → s.m.bit F.CIPH_ENG_STATUS_FENCED e = false →
      (Runs (.cipherMismatch t e false loss) s fun n =>
        n.get F.CIPH_ENG_RECOMPUTED e = min (s.m.get F.CIPH_ENG_RECOMPUTED e + 1) (2 ^ 32 - 1) ∧ n.ciph = s.m.ciph ∧
        n.get F.FLT_SRC_EVENTS 0 (srcCiph e) = min (s.m.get F.FLT_SRC_EVENTS 0 (srcCiph e) + 1) (2 ^ F.FLT_SRC_EVENTS.wd - 1) ∧
        (n.srcState (srcCiph e) < 2 → Frame (fun k => fltKey k ∨ k = keyOf F.CIPH_ENG_RECOMPUTED e) s.m n)) ∧
      ((s.m.src (srcCiph e)).handling = .none → s.m.srcState (srcCiph e) < 2 → s.m.handlingCount < 16 →
        Runs (.cipherMismatch t e true loss) s fun n =>
          n.bit F.CIPH_ENG_STATUS_FENCED e = true ∧ getBits (n.get F.CIPH_STATUS_FENCED) e 1 = 1 ∧ 2 ≤ n.srcState (srcCiph e) ∧
          n.get F.CIPH_ENG_RECOMPUTED e = min (s.m.get F.CIPH_ENG_RECOMPUTED e + 1) (2 ^ 32 - 1) ∧ (∀ k c, loss = .frame k c → (k, c) ∈ n.ciph.frames) ∧
          (∀ i, loss = .sector i → i ∈ n.ciph.sectors) ∧ SameStores s.m n)) ∧
    ((getBits (s.m.get F.CIPH_STATUS_PRESENT) e 1 = 0 ∨ s.m.bit F.CIPH_ENG_STATUS_FENCED e = true) → ∀ again,
      Runs (.cipherMismatch t e again loss) s fun n => n.ciph = s.m.ciph ∧ Frame (fun _ => False) s.m n) ∧
    (Runs (.drbgReseed t e) s fun n =>
      n.bit F.CIPH_ENG_STATUS_DRBG_ONLY e = !s.m.bit F.CIPH_STATUS_ENTROPY_OK ∧ n.bit F.CIPH_ENG_STATUS_FENCED e = s.m.bit F.CIPH_ENG_STATUS_FENCED e ∧
      Frame (fun k => k = keyOf F.CIPH_ENG_STATUS_DRBG_ONLY e) s.m n) ∧
    (s.m.bit F.CIPH_ENG_STATUS_DRBG_ONLY e = true → s.m.bit F.CIPH_ENG_STATUS_FENCED e = false →
      Runs (.drbgBlockLimit t e) s fun n =>
        n.bit F.CIPH_ENG_STATUS_FENCED e = true ∧ getBits (n.get F.CIPH_STATUS_FENCED) e 1 = 1 ∧ n.ciph.selfFenced = s.m.ciph.selfFenced ++ [e] ∧
        n.get F.CIPH_ENG_FENCES e = min (s.m.get F.CIPH_ENG_FENCES e + 1) (2 ^ 32 - 1) ∧
        Frame (fun k => k ∈ [keyOf F.CIPH_ENG_STATUS_FENCED e, keyOf F.CIPH_STATUS_FENCED, keyOf F.CIPH_ENG_FENCES e]) s.m n) ∧
    (s.m.bit F.CIPH_ENG_STATUS_DRBG_ONLY e = false ∨ s.m.bit F.CIPH_ENG_STATUS_FENCED e = true →
      Runs (.drbgBlockLimit t e) s fun n => n.ciph = s.m.ciph ∧ Frame (fun _ => False) s.m n)) ∧
  (∀ (s : State) (t test : Nat), s.m.Inv →
    Runs (.entropyTestFail t test) s fun n =>
      n.bit F.CIPH_STATUS_ENTROPY_OK = false ∧ (∀ e, e < 4 → n.bit F.CIPH_ENG_STATUS_DRBG_ONLY e = true) ∧
      (∀ h ∈ s.m.liveHerds, ∃ x ∈ n.evq, x.code = 0x0A04 ∧ x.dest = h ∧ x.info0 = BitVec.ofNat 64 test) ∧
      n.get F.FLT_SRC_EVENTS 0 srcEntropy = min (s.m.get F.FLT_SRC_EVENTS 0 srcEntropy + 1) (2 ^ F.FLT_SRC_EVENTS.wd - 1) ∧
      Frame (fun k => fltKey k ∨ k = keyOf F.CIPH_STATUS_ENTROPY_OK ∨ ∃ e, e < 4 ∧ k = keyOf F.CIPH_ENG_STATUS_DRBG_ONLY e) s.m n) ∧
  (∀ (s : State) (t : Nat), s.m.Inv → (∀ e ∈ s.m.ciph.selfFenced, e < 4) →
    Runs (.entropySourcePass t) s fun n =>
      n.bit F.CIPH_STATUS_ENTROPY_OK = true ∧ n.ciph.selfFenced = [] ∧
      (∀ e ∈ s.m.ciph.selfFenced, n.bit F.CIPH_ENG_STATUS_DRBG_ONLY e = false ∧ (s.m.srcState (srcCiph e) < 2 → n.bit F.CIPH_ENG_STATUS_FENCED e = false) ∧
        (2 ≤ s.m.srcState (srcCiph e) → n.bit F.CIPH_ENG_STATUS_FENCED e = s.m.bit F.CIPH_ENG_STATUS_FENCED e)) ∧
      (∀ e, e < 4 → e ∉ s.m.ciph.selfFenced → n.bit F.CIPH_ENG_STATUS_FENCED e = s.m.bit F.CIPH_ENG_STATUS_FENCED e) ∧
      Frame (fun k => k = keyOf F.CIPH_STATUS_ENTROPY_OK ∨ ∃ e, e < 4 ∧ k = keyOf F.CIPH_ENG_STATUS_DRBG_ONLY e) s.m n)

/-- The steward's commands of the fault collector (16_faults.md R397, R398, R400, R402). CLEAR returns a source to NORMAL with its counts at 0, a fenced unit by way of its return; FENCE
locks a source and takes its unit out of service; on a source under handling either waits. POP removes the oldest record of the fault queue.
Where the spec leaves a point open, the model's choices hold: notes/assumptions 89. -/
def Obligations.FaultCommands : Prop :=
  (∀ (s : State) (p : Path) (x : Nat), s.m.Inv → s.m.Steward p F.FLT_SRC_CMD_OP.addr → x = s.m.getP p F.FLT_SRC_SEL_SOURCE → x < 320 →
    ((s.m.src x).handling ≠ .none → ∀ c op, (c, op) ∈ [(Instr.faultSourceClear p, 1), (Instr.faultSourceFence p, 2)] →
      Runs c s fun n => n.src x = { s.m.src x with pendingCmd := op } ∧ n.flt.queue = s.m.flt.queue ∧ Frame (fun _ => False) s.m n) ∧
    ((s.m.src x).handling = .none →
      (s.m.srcState x = 0 ∨ s.m.srcState x = 1 →
        (s.m.bit F.FLT_SRC_STATUS_UNCOVERED 0 x = false →
          Runs (.faultSourceClear p) s fun n =>
            n.srcState x = 0 ∧ n.get F.FLT_SRC_STATUS_RECOVERIES 0 x = 0 ∧ n.get F.FLT_SRC_STATUS_COUNT 0 x = 0 ∧ (n.src x).windowEnd = none ∧
            (s.m.srcState x = 1 → s.m.flt.queue.length < 512 → n.flt.queue.length = s.m.flt.queue.length + 1) ∧ Frame fltKey s.m n) ∧
        (Runs (.faultSourceFence p) s fun n =>
          n.srcState x = 3 ∧ (n.src x).handling = .fence ∧ (∀ h ∈ s.m.liveHerds, ∃ e ∈ n.evq, e.code = 0x0013 ∧ e.source = x ∧ e.dest = h) ∧
          (x < 64 → n.lkState (x % 32) = 0) ∧ (64 ≤ x → x < 192 → n.bit F.CHU_TILE_STATUS_FENCED 0 (x % 64) = true) ∧
          (280 ≤ x → x < 284 → n.bit F.CIPH_ENG_STATUS_FENCED (x - 280) = true) ∧
          (284 ≤ x → x < 292 → ∀ i, i < 8 → n.bit F.CHU_TILE_STATUS_FENCED 0 ((x - 284) * 8 + i) = true) ∧
          (292 ≤ x → x < 300 → n.bit F.CLK_PLL_COAST (x - 292) = true) ∧ (300 ≤ x → Frame fltKey s.m n))) ∧
      (s.m.srcState x = 2 ∨ s.m.srcState x = 3 →
        (Runs (.faultSourceFence p) s fun n => n.flt = s.m.flt ∧ Frame (fun _ => False) s.m n) ∧
        (Runs (.faultSourceClear p) s fun n =>
          n.srcState x = 0 ∧ n.get F.FLT_SRC_STATUS_RECOVERIES 0 x = 0 ∧ n.get F.FLT_SRC_STATUS_COUNT 0 x = 0 ∧
          (x < 256 ∨ 280 ≤ x → n.bit F.FLT_SRC_STATUS_RETURNING 0 x = true ∧ (n.src x).handling = .return ∧ (n.src x).clearReturn = true) ∧
          (256 ≤ x → x < 280 → (∀ h ∈ s.m.liveHerds, ∃ e ∈ n.evq, e.code = 0x0012 ∧ e.source = x ∧ e.dest = h) ∧ Frame fltKey s.m n) ∧
          (x < 64 → s.m.bit F.PORT_CTL_ENABLE (x % 32) = false → n.lkState (x % 32) = s.m.lkState (x % 32)))))) ∧
  (∀ (s : State) (p : Path), s.m.Inv → s.m.Steward p F.FLT_Q_POP.addr →
    Runs (.faultQueuePop p) s fun n => n.flt.queue = s.m.flt.queue.tail ∧ n.flt.src = s.m.flt.src ∧ (n.flt.queue = [] → n.flt.overflowRaised = false) ∧ Frame (fun _ => False) s.m n)

/-- Windows, quiet periods, returns and handling (16_faults.md R396, R397, R399, R400). A window that ends takes its count with it; a quiet period takes a DEGRADED source to NORMAL and
starts the return of a FENCED one; a unit that passes its check is back in service, counts a recovery and is announced, one that fails is fenced again; a fence, or a degradation once it
is announced, ends its handling.
Where the spec leaves a point open, the model's choices hold: notes/assumptions 89, 90. -/
def Obligations.FaultHandling : Prop :=
  (∀ (s : State) (t x e : Nat), s.m.Inv → (s.m.src x).windowEnd = some e →
    (e ≤ (s.m.advance t).now →
      Runs (.faultWindowExpire t x) s fun n =>
        n.get F.FLT_SRC_STATUS_COUNT 0 x = 0 ∧ n.src x = { s.m.src x with windowEnd := none } ∧ n.srcState x = s.m.srcState x ∧ Frame (fun k => k = keyOf F.FLT_SRC_STATUS_COUNT 0 x) s.m n) ∧
    ((s.m.advance t).now < e → Runs (.faultWindowExpire t x) s fun n => n.flt = s.m.flt ∧ Frame (fun _ => False) s.m n)) ∧
  (∀ (s : State) (t x q : Nat), s.m.Inv → x < 320 → (s.m.src x).handling = .none → q = max 1 (s.m.get F.FLT_CLASS_QUIET_QUIET_MS 0 x) * ms →
    (s.m.srcState x = 1 → s.m.bit F.FLT_SRC_STATUS_UNCOVERED 0 x = false → (s.m.src x).lastEvent + q ≤ (s.m.advance t).now →
      Runs (.quietPeriodExpire t x) s fun n => n.srcState x = 0 ∧ n.get F.FLT_SRC_STATUS_COUNT 0 x = 0 ∧ (n.src x).windowEnd = none ∧ Frame fltKey s.m n) ∧
    (s.m.srcState x = 2 → (x < 256 ∨ 280 ≤ x) → max ((s.m.src x).fenceDone.getD 0) (s.m.src x).lastEvent + q ≤ (s.m.advance t).now → s.m.handlingCount < 16 →
      Runs (.quietPeriodExpire t x) s fun n =>
        n.bit F.FLT_SRC_STATUS_RETURNING 0 x = true ∧ n.srcState x = 2 ∧ (n.src x).handling = .return ∧ (64 ≤ x → Frame fltKey s.m n)) ∧
    ((s.m.advance t).now < (s.m.src x).lastEvent + q → Runs (.quietPeriodExpire t x) s fun n => n.flt = s.m.flt ∧ Frame (fun _ => False) s.m n)) ∧
  (∀ (s : State) (t x : Nat), s.m.Inv → x < 320 → (s.m.src x).handling = .fence → (s.m.src x).pendingCmd = 0 → s.m.flt.waiting = [] → 2 ≤ s.m.srcState x →
    Runs (.fenceComplete t x) s fun n =>
      (n.src x).handling = .none ∧ (n.src x).fenceDone = some (s.m.advance t).now ∧ n.srcState x = s.m.srcState x ∧ n.bit F.FLT_SRC_STATUS_HANDLING 0 x = false ∧
      Frame (fun k => k = keyOf F.FLT_SRC_STATUS_HANDLING 0 x) s.m n) ∧
  (∀ (s : State) (t x : Nat), s.m.Inv → x < 320 → (s.m.src x).handling = .return → (64 ≤ x ∨ s.m.lkState (x % 32) ≠ 1 ∧ s.m.lkState (x % 32) ≠ 2) →
    ((s.m.src x).pendingCmd = 0 → (s.m.src x).fatalMeanwhile = false → (s.m.src x).clearReturn = false → s.m.flt.waiting = [] → s.m.bit F.FLT_SRC_STATUS_UNCOVERED 0 x = false →
      Runs (.unitReturnComplete t x true) s fun n =>
        n.srcState x = 0 ∧ n.get F.FLT_SRC_STATUS_RECOVERIES 0 x = min 255 (s.m.get F.FLT_SRC_STATUS_RECOVERIES 0 x + 1) ∧ n.get F.FLT_SRC_STATUS_COUNT 0 x = 0 ∧
        n.bit F.FLT_SRC_STATUS_RETURNING 0 x = false ∧ (n.src x).handling = .none ∧ (∀ h ∈ s.m.liveHerds, ∃ e ∈ n.evq, e.code = 0x0012 ∧ e.source = x ∧ e.dest = h) ∧
        (64 ≤ x → x < 192 → s.m.tileHeld x (x % 64) = false →
          n.bit F.CHU_TILE_STATUS_FENCED 0 (x % 64) = false ∧ ∀ a, x % 64 * 2 ^ 20 ≤ a → a < (x % 64 + 1) * 2 ^ 20 → memGet n.tsram a = 0) ∧
        (192 ≤ x → x < 256 → ∀ a, (x - 192) * 0x400000 ≤ a → a < (x - 191) * 0x400000 → memGet n.cream a = 0) ∧
        (292 ≤ x → x < 300 → n.bit F.CLK_PLL_COAST (x - 292) = false ∧ n.bit F.CLK_PLL_LOCKED (x - 292) = true) ∧ n.peat = s.m.peat ∧ n.flash = s.m.flash) ∧
    (x < 300 →
      Runs (.unitReturnComplete t x false) s fun n =>
        2 ≤ n.srcState x ∧ (n.src x).handling = .fence ∧ n.bit F.FLT_SRC_STATUS_RETURNING 0 x = false ∧
        n.get F.FLT_SRC_EVENTS 0 x = min (s.m.get F.FLT_SRC_EVENTS 0 x + 1) (2 ^ 32 - 1))) ∧
  (∀ (s : State) (t x : Nat), s.m.Inv → x < 320 → (s.m.src x).handling = .degraded →
    ((∀ e ∈ s.m.evq, e.code = 0x0010 → e.source ≠ x) → (s.m.src x).pendingCmd = 0 → (s.m.src x).fatalMeanwhile = false → s.m.flt.waiting = [] → s.m.srcState x = 1 → s.m.severe x = false →
      Runs (.handlingEnd t x) s fun n =>
        (n.src x).handling = .none ∧ n.srcState x = 1 ∧ n.bit F.FLT_SRC_STATUS_HANDLING 0 x = false ∧ Frame (fun k => k = keyOf F.FLT_SRC_STATUS_HANDLING 0 x) s.m n) ∧
    ((∃ e ∈ s.m.evq, e.code = 0x0010 ∧ e.source = x) → Runs (.handlingEnd t x) s fun n => n.flt = s.m.flt ∧ Frame (fun _ => False) s.m n))

/-- Clock sources and PLLs (17_clocks_power_reset.md R408, R409, R411 to R413, R415; 16_faults.md R397, R404). The stable crystal is taken as reference once; without one 20 ms after power-on
the boot halts; a lost crystal leaves every PLL coasting on the oscillator; a lost oscillator leaves the crystal without a second source. A PLL locks on the reference in use; one that
loses lock coasts and, fenced, hands its domains to the alternate; a returned one takes its own back. -/
def Obligations.ClockSources : Prop :=
  (∀ (s : State) (t : Nat), s.m.Inv →
    (s.m.clk.xtalLost = false → s.m.bit F.CLK_STATUS_XTAL_OK = false →
      Runs (.crystalStable t) s fun n =>
        n.bit F.CLK_STATUS_XTAL_OK = true ∧ n.get F.CLK_STATUS_REF = 0 ∧ n.get F.CLK_STATUS_OSC_DISC = s.m.get F.CLK_STATUS_OSC_OK ∧ n.onOscillator = false ∧
        (∀ k, k < 8 → n.get F.CLK_PLL_REF k = 0) ∧ Frame (fun y => y = keyOf F.CLK_STATUS_REF ∨ ∃ k, k < 8 ∧ y = keyOf F.CLK_PLL_REF k) s.m n) ∧
    (s.m.clk.xtalLost = true ∨ s.m.bit F.CLK_STATUS_XTAL_OK = true → Runs (.crystalStable t) s fun n => n.onOscillator = s.m.onOscillator ∧ Frame (fun _ => False) s.m n) ∧
    (s.m.get F.CLK_BOOT_STEP ≤ 2 → s.m.bit F.CLK_STATUS_XTAL_OK = false → s.m.clk.bootAt + 20 * ms ≤ (s.m.advance t).now → s.m.halted = false →
      Runs (.crystalStartTimeout t) s fun n =>
        n.halted = true ∧ n.bit F.CLK_BOOT_FAILED = true ∧ n.get F.CLK_BOOT_STEP = 2 ∧ n.faultLine = true ∧
        n.get F.FLT_SRC_EVENTS 0 srcXtal = min (s.m.get F.FLT_SRC_EVENTS 0 srcXtal + 1) (2 ^ 32 - 1) ∧ Frame (fun k => fltKey k ∨ k = keyOf F.CLK_BOOT_STEP) s.m n) ∧
    ((s.m.advance t).now < s.m.clk.bootAt + 20 * ms ∨ s.m.bit F.CLK_STATUS_XTAL_OK = true → Runs (.crystalStartTimeout t) s fun n => n.halted = s.m.halted ∧ Frame (fun _ => False) s.m n) ∧
    (s.m.bit F.CLK_STATUS_XTAL_OK = true →
      Runs (.crystalLost t) s fun n =>
        n.bit F.CLK_STATUS_XTAL_OK = false ∧ n.get F.CLK_STATUS_REF = 1 ∧ n.bit F.CLK_STATUS_OSC_DISC = false ∧ n.onOscillator = true ∧ n.clk.xtalLost = true ∧
        (∀ k, k < 8 → n.get F.CLK_PLL_REF k = 1 ∧ n.bit F.CLK_PLL_COAST k = true ∧ n.bit F.CLK_PLL_LOCKED k = false) ∧
        (∀ h ∈ s.m.liveHerds, ∃ e ∈ n.evq, e.code = 0x0B01 ∧ e.source = srcXtal ∧ e.dest = h ∧ e.info1 = 0) ∧
        n.get F.FLT_SRC_EVENTS 0 srcXtal = min (s.m.get F.FLT_SRC_EVENTS 0 srcXtal + 1) (2 ^ 32 - 1) ∧
        Frame (fun y => fltKey y ∨ y = keyOf F.CLK_STATUS_REF ∨ ∃ k, k < 8 ∧ y = keyOf F.CLK_PLL_REF k) s.m n) ∧
    (s.m.bit F.CLK_STATUS_XTAL_OK = false → Runs (.crystalLost t) s fun n => n.clk.xtalLost = s.m.clk.xtalLost ∧ Frame (fun _ => False) s.m n) ∧
    (s.m.bit F.CLK_STATUS_XTAL_OK = true → s.m.bit F.CLK_STATUS_OSC_OK = true →
      Runs (.oscillatorLost t) s fun n =>
        n.bit F.CLK_STATUS_OSC_OK = false ∧ n.bit F.CLK_STATUS_OSC_DISC = false ∧ n.bit F.CLK_STATUS_XTAL_OK = true ∧ n.bit F.FLT_SRC_STATUS_UNCOVERED 0 srcXtal = true ∧ n.onOscillator = s.m.onOscillator ∧
        n.get F.FLT_SRC_EVENTS 0 srcOsc = min (s.m.get F.FLT_SRC_EVENTS 0 srcOsc + 1) (2 ^ 32 - 1) ∧
        (∀ h ∈ s.m.liveHerds, ∃ e ∈ n.evq, e.code = 0x0B01 ∧ e.source = srcOsc ∧ e.dest = h ∧ e.info1 = 1) ∧ Frame (fun y => fltKey y ∨ y = keyOf F.CLK_STATUS_REF) s.m n)) ∧
  (∀ (s : State) (t k : Nat), s.m.Inv → k < 8 →
    (s.m.srcState (srcPll k) < 2 → s.m.bit F.CLK_PLL_LOCKED k = false →
      Runs (.pllLock t k) s fun n =>
        n.bit F.CLK_PLL_LOCKED k = true ∧ n.bit F.CLK_PLL_COAST k = false ∧ n.get F.CLK_PLL_REF k = s.m.get F.CLK_STATUS_REF ∧ Frame (fun y => y = keyOf F.CLK_PLL_REF k) s.m n) ∧
    (2 ≤ s.m.srcState (srcPll k) ∨ s.m.bit F.CLK_PLL_LOCKED k = true → Runs (.pllLock t k) s fun n => Frame (fun _ => False) s.m n) ∧
    (s.m.bit F.CLK_PLL_LOCKED k = true →
      (s.m.bit F.CLK_STATUS_XTAL_OK = false →
        Runs (.pllLoss t k true) s fun n =>
          n.bit F.CLK_PLL_LOCKED k = false ∧ n.bit F.CLK_PLL_COAST k = true ∧ n.flt = s.m.flt ∧ Frame (fun y => y = keyOf F.CLK_PLL_REF k) s.m n) ∧
      (∀ ref, ref = false ∨ s.m.bit F.CLK_STATUS_XTAL_OK = true → (s.m.src (srcPll k)).handling = .none → s.m.srcState (srcPll k) < 2 → s.m.handlingCount < 16 →
        Runs (.pllLoss t k ref) s fun n =>
          n.bit F.CLK_PLL_LOCKED k = false ∧ n.bit F.CLK_PLL_COAST k = true ∧ 2 ≤ n.srcState (srcPll k) ∧
          (∀ d, d < 60 → s.m.get F.CLK_DOM_STATUS_PLL 0 d = k → s.m.bit F.CLK_DOM_STATUS_RUNNING 0 d = true →
            n.get F.CLK_DOM_STATUS_PLL 0 d = Mach.pllAlternate k ∧ n.bit F.CLK_DOM_STATUS_ON_ALT 0 d = true) ∧
          n.bit F.FLT_SRC_STATUS_UNCOVERED 0 (srcPll (Mach.pllAlternate k)) = true ∧
          Frame (fun y => fltKey y ∨ y ∈ [keyOf F.CLK_PLL_REF k, keyOf F.CLK_PLL_REF (Mach.pllAlternate k)] ∨ ∃ d, d < 60 ∧ y = keyOf F.CLK_DOM_STATUS_PLL 0 d) s.m n)) ∧
    (s.m.bit F.CLK_PLL_LOCKED k = false → ∀ ref, Runs (.pllLoss t k ref) s fun n => Frame (fun _ => False) s.m n) ∧
    (s.m.srcState (srcPll k) < 2 → s.m.bit F.CLK_PLL_LOCKED k = true → s.m.active = none →
      Runs (.pllDomainReturn t k) s fun n =>
        (∀ d, d < 60 → domainPll d = some k → s.m.bit F.CLK_DOM_STATUS_ON_ALT 0 d = true → n.get F.CLK_DOM_STATUS_PLL 0 d = k ∧ n.bit F.CLK_DOM_STATUS_ON_ALT 0 d = false) ∧
        n.bit F.CLK_PLL_CARRYING (Mach.pllAlternate k) = false ∧ n.bit F.FLT_SRC_STATUS_UNCOVERED 0 (srcPll (Mach.pllAlternate k)) = false ∧
        Frame (fun y => y ∈ [keyOf F.CLK_PLL_REF (Mach.pllAlternate k), keyOf F.FLT_SRC_STATUS_STATE 0 (srcPll (Mach.pllAlternate k))] ∨ ∃ d, d < 60 ∧ y = keyOf F.CLK_DOM_STATUS_PLL 0 d) s.m n) ∧
    (2 ≤ s.m.srcState (srcPll k) ∨ s.m.bit F.CLK_PLL_LOCKED k = false → Runs (.pllDomainReturn t k) s fun n => Frame (fun _ => False) s.m n))

/-- Clock domains and throttling (17_clocks_power_reset.md R418 to R423). A domain without work for IDLE_US, or planned use within MIN_IDLE, stops, a Peat controller's with the packages in
self-refresh; work starts it; a started one runs from its PLL or the alternate, and what waited at its ports is handled. The throttle level follows the die temperature with hysteresis,
and one more for power above the limit; at the shutdown temperature the module stands by.
Where the spec leaves a point open, the model's choices hold: notes/assumptions 92, 93. -/
def Obligations.ClockDomains : Prop :=
  (∀ (s : State) (t d : Nat), s.m.Inv → d < 60 →
    (∀ idle, (domainIdles d = true → max 1 (s.m.get F.CLK_IDLE_US) * us ≤ idle → (∀ g, (s.m.advance t).plannedGap d = some g → s.m.inForce F.SLU_WAKE_CTL_MIN_IDLE * us ≤ g) →
          s.m.domainBusy d = false → s.m.bit F.CLK_DOM_STATUS_RUNNING 0 d = true → (domainPeat d = true → s.m.active.isSome = true) →
        Runs (.domainIdleStop t d idle) s fun n =>
          n.bit F.CLK_DOM_STATUS_RUNNING 0 d = false ∧ n.bit F.CLK_DOM_STATUS_PLANNED 0 d = false ∧
          (domainPeat d = true → ∀ c, c < 24 → n.bit F.PEAT_C_STATUS_SELF_REFRESH c = true) ∧
          Frame (fun y => y = keyOf F.CLK_DOM_STATUS_PLL 0 d ∨ domainPeat d = true ∧ ∃ c, c < 24 ∧ y = keyOf F.PEAT_C_STATUS_SELF_REFRESH c) s.m n) ∧
      (domainIdles d = false ∨ idle < max 1 (s.m.get F.CLK_IDLE_US) * us ∨ s.m.domainBusy d = true ∨ domainPeat d = true ∧ s.m.active = none →
        Runs (.domainIdleStop t d idle) s fun n => Frame (fun _ => False) s.m n)) ∧
    ((domainPll d).isSome = true → s.m.bit F.CLK_DOM_STATUS_RUNNING 0 d = false → alGet s.m.clk.starting d = none →
      Runs (.domainDemandStart t d) s fun n =>
        alGet n.clk.starting d = some (s.m.advance t).now ∧ n.bit F.CLK_DOM_STATUS_PLANNED 0 d = false ∧ n.bit F.CLK_DOM_STATUS_RUNNING 0 d = false ∧
        Frame (fun y => y = keyOf F.CLK_DOM_STATUS_PLL 0 d) s.m n) ∧
    (domainPll d = none ∨ s.m.bit F.CLK_DOM_STATUS_RUNNING 0 d = true → Runs (.domainDemandStart t d) s fun n => n.clk = s.m.clk ∧ Frame (fun _ => False) s.m n) ∧
    (∀ a, alGet s.m.clk.starting d = some a →
      Runs (.domainStartComplete t d) s fun n =>
        n.bit F.CLK_DOM_STATUS_RUNNING 0 d = true ∧ n.get F.CLK_DOM_STARTS 0 d = min (s.m.get F.CLK_DOM_STARTS 0 d + 1) (2 ^ 32 - 1) ∧ alGet n.clk.starting d = none ∧
        (∀ k, domainPll d = some k → n.get F.CLK_DOM_STATUS_PLL 0 d = (if 2 ≤ s.m.srcState (srcPll k) then Mach.pllAlternate k else k) ∧
          (n.bit F.CLK_DOM_STATUS_ON_ALT 0 d = true ↔ 2 ≤ s.m.srcState (srcPll k))) ∧
        (domainPeat d = true → ∀ c, c < 24 → n.bit F.PEAT_C_STATUS_SELF_REFRESH c = false) ∧
        (35 ≤ d → d < 51 → (n.pt (2 * (d - 35))).rxWait = [] ∧ (n.pt (2 * (d - 35) + 1)).rxWait = []) ∧
        (d < 11 ∨ 51 ≤ d → Frame (fun y => y = keyOf F.CLK_DOM_STATUS_PLL 0 d ∨ y = keyOf F.CLK_DOM_STARTS 0 d) s.m n)) ∧
    (alGet s.m.clk.starting d = none → Runs (.domainStartComplete t d) s fun n => n.clk = s.m.clk ∧ Frame (fun _ => False) s.m n)) ∧
  (∀ (m : Mach) (temp a b c d h : Nat), m.cfg.thermal = (a, b, c, d, h) →
    m.thermalLevel temp = (if c ≤ temp ∨ 3 ≤ m.clk.tempLevel ∧ c < temp + h then 3 else if b ≤ temp ∨ 2 ≤ m.clk.tempLevel ∧ b < temp + h then 2
      else if a ≤ temp ∨ 1 ≤ m.clk.tempLevel ∧ a < temp + h then 1 else 0)) ∧
  (∀ (s : State) (t sensor temp vin pin : Nat) (pkgs : List Nat), s.m.Inv →
    (s.m.asleep = false →
      Runs (.throttleEvaluate t sensor temp vin pin pkgs) s fun n =>
        n.get F.CLK_TEMP_SENSOR = sensor % 256 ∧ n.get F.CLK_TEMP_DIE_MAX = min 255 temp ∧ n.get F.CLK_PWR_VIN = vin % 65536 ∧ n.get F.CLK_PWR_PIN = pin % 65536 ∧ SameStores s.m n ∧
        (temp < s.m.cfg.thermal.2.2.2.1 → ∀ lim over', lim = min 850 (s.m.get F.CLK_PWR_LIMIT_WATTS) * 10 →
            over' = (decide (lim < pin) || s.m.clk.powerOver && decide (lim * 95 < pin * 100)) →
          n.get F.CLK_STATUS_THROTTLE = min 3 (s.m.thermalLevel temp + over'.toNat) ∧ n.clk.tempLevel = s.m.thermalLevel temp ∧ n.clk.powerOver = over' ∧ n.asleep = false ∧
          (n.get F.CLK_STATUS_THROTTLE ≠ s.m.get F.CLK_STATUS_THROTTLE →
            ∀ h ∈ s.m.liveHerds, ∃ e ∈ n.evq, e.code = 0x0B02 ∧ e.source = srcThermal ∧ e.dest = h ∧ e.info1 = BitVec.ofNat 64 temp) ∧
          (n.get F.CLK_STATUS_THROTTLE = s.m.get F.CLK_STATUS_THROTTLE → s.m.thermalLevel temp = s.m.clk.tempLevel → n.evq = s.m.evq)) ∧
        (s.m.cfg.thermal.2.2.2.1 ≤ temp →
          n.get F.CLK_STATUS_THROTTLE = 4 ∧ n.asleep = true ∧ n.clk.trip = true ∧ n.clk.pwrGood = false ∧ (∀ p, p < 32 → n.lkState p = 0) ∧
          ∀ c, c < 24 → n.bit F.PEAT_C_STATUS_SELF_REFRESH c = true)) ∧
    (s.m.asleep = true → Runs (.throttleEvaluate t sensor temp vin pin pkgs) s fun n => n.clk = s.m.clk ∧ Frame (fun _ => False) s.m n))

/-- Resets (17_clocks_power_reset.md R424, R425, R429; 19_module_hardware.md R463, R469; 16_faults.md R397; 10_memory.md R278). A power-on reset leaves every register but CLK_RESET_CAUSE
at its reset value, every queue empty, and the boot at step 1; the Peat store waits for step 7. A warm reset, dropped before boot step 4, restarts the boot at step 3, or at step 4 during
a later step, and keeps the granule table and LOCKED sources. CLK_RESET_CMD acts only with its KEY; the width of a pulse on SYS_RESET_L decides its kind.
Where the spec leaves a point open, the model's choices hold: notes/assumptions 96 to 98. -/
def Obligations.Resets : Prop :=
  (∀ (s : State) (t width cause : Nat) (p : Path) (w : Word) (c : Instr), s.m.Inv →
      (c = .powerOnReset t ∧ s.m.clk.pwrGood = false ∧ cause = 1 ∨
        c = .resetCmdPowerOn p w ∧ s.m.Steward p F.CLK_RESET_CMD_OP.addr ∧ w.toNat % 65536 = 0xA5C3 ∧ getBits w.toNat 28 4 = 2 ∧ cause = 8 ∨
        c = .sysResetPulse t width ∧ 10 * ms + 1600 < width ∧ s.m.clk.input = true ∧ cause = 2) →
    Runs c s fun n =>
      n.reg (keyOf F.CLK_RESET_CAUSE_INPUT) = BitVec.ofNat 32 (cause + 32 * s.m.clk.trip.toNat + 64 * s.m.failStop.toNat) ∧
      (∀ k, k ≠ keyOf F.CLK_RESET_CAUSE_INPUT → n.reg k = regReset s.m.variant k) ∧ n.get F.CLK_BOOT_STEP = Mach.reset.get F.CLK_BOOT_STEP ∧ n.clk.pwrGood = true ∧ n.halted = false ∧
      n.evq = [] ∧ n.qe = Mach.reset.qe ∧ n.lode = Mach.reset.lode ∧ n.beq = Mach.reset.beq ∧ n.rte = Mach.reset.rte ∧ n.coll = Mach.reset.coll ∧ n.chu = Mach.reset.chu ∧
      n.plan = Mach.reset.plan ∧ n.xlt = Mach.reset.xlt ∧ n.flt = Mach.reset.flt ∧ n.ports = [] ∧ n.clk.kept = s.m.clk.kept ∧
      (∀ a, a < 2 ^ 28 → memGet n.cream a = 0 ∧ memGet n.tsram a = 0) ∧ n.peat = s.m.peat ∧ (s.m.cfg.piece = none → s.m.cfg.copy = none → n.flash = s.m.flash)) ∧
  (∀ (s : State) (t width cause : Nat) (p : Path) (w : Word) (c : Instr), s.m.Inv →
      (c = .warmReset t ∧ cause = 4 ∨
        c = .resetCmdWarm p w ∧ s.m.Steward p F.CLK_RESET_CMD_OP.addr ∧ w.toNat % 65536 = 0xA5C3 ∧ getBits w.toNat 28 4 = 1 ∧ cause = 16 ∨
        c = .sysResetPulse t width ∧ us + 1600 < width ∧ width + 1600 < 10 * ms ∧ cause = 4) →
    (s.m.asleep = false → 4 ≤ s.m.get F.CLK_BOOT_STEP →
      Runs c s fun n =>
        n.get F.CLK_BOOT_STEP = (if s.m.get F.CLK_BOOT_STEP ≤ 8 then 4 else 3) ∧
        n.reg (keyOf F.CLK_RESET_CAUSE_INPUT) = BitVec.ofNat 32 (cause + 32 * s.m.clk.trip.toNat + 64 * s.m.failStop.toNat) ∧
        (∀ g, g < 2 ^ 19 → n.get F.PEAT_GRAN 0 g = s.m.get F.PEAT_GRAN 0 g) ∧ n.clk.warmBoot = true ∧ n.halted = false ∧ n.onOscillator = s.m.onOscillator ∧
        ((s.m.regs.map (·.1)).Nodup → ∀ x, x < 320 → (s.m.srcState x = 3 → n.srcState x = 3) ∧ (s.m.srcState x ≠ 3 → (x < 256 ∨ 280 ≤ x) → n.srcState x = 0) ∧
          n.get F.FLT_SRC_STATUS_RECOVERIES 0 x = s.m.get F.FLT_SRC_STATUS_RECOVERIES 0 x) ∧
        (∀ c, c < 24 → n.bit F.PEAT_C_STATUS_SELF_REFRESH c = true) ∧ n.qe = Mach.reset.qe ∧ n.lode = Mach.reset.lode ∧ n.beq = Mach.reset.beq ∧ n.coll = Mach.reset.coll ∧
        (∀ a, a < 2 ^ 28 → memGet n.cream a = 0 ∧ memGet n.tsram a = 0) ∧ n.peat = s.m.peat ∧ (s.m.cfg.piece = none → s.m.cfg.copy = none → n.flash = s.m.flash)) ∧
    (s.m.asleep = true ∨ s.m.get F.CLK_BOOT_STEP < 4 → Runs c s fun n => n.qe = s.m.qe ∧ n.evq = s.m.evq ∧ Frame (fun _ => False) s.m n)) ∧
  (∀ (s : State) (p : Path) (w : Word), s.m.Inv → s.m.Steward p F.CLK_RESET_CMD_OP.addr → w.toNat % 65536 ≠ 0xA5C3 → ∀ c ∈ [Instr.resetCmdWarm p w, Instr.resetCmdPowerOn p w],
    Runs c s fun n =>
      n.get F.FLT_SRC_EVENTS 0 (if p = .mgmt then srcRegMgmt else srcRegFabric) =
        min (s.m.get F.FLT_SRC_EVENTS 0 (if p = .mgmt then srcRegMgmt else srcRegFabric) + 1) (2 ^ 32 - 1) ∧ Frame fltKey s.m n) ∧
  (∀ (s : State) (t width : Nat), s.m.Inv → (width + 1600 < us → Runs (.sysResetPulse t width) s fun n => n.evq = s.m.evq ∧ Frame (fun _ => False) s.m n) ∧
    (s.m.clk.pwrGood = true → Runs (.powerOnReset t) s fun n => n.evq = s.m.evq ∧ Frame (fun _ => False) s.m n))

/-- Boot steps (17_clocks_power_reset.md R426 to R428; 18_config_firmware.md R434 to R437, R446 to R450; 10_memory.md R280). Each step ends when its work is done: 2 with the crystal, 3 with
every PLL, 4 with a verified image, 5 with the configuration image or the defaults, 6 with every port UP, 7 with the packages trained and the store preserved or zeroed, 8 with time. A
step beyond its bound marks the boot FAILED, and the boot goes on. Firmware is copied block by block. The steward leaves bring-up service, and the defaults are announced each minute.
Where the spec leaves a point open, the model's choices hold: notes/assumptions 40, 94, 95, 100, 105. -/
def Obligations.BootSteps : Prop :=
  (∀ (s : State) (t : Nat) (w : BootWork), s.m.Inv → s.m.asleep = false → s.m.halted = false →
    (∀ a b, (a = 1 ∧ b = 2 ∨ a = 2 ∧ s.m.bit F.CLK_STATUS_XTAL_OK = true ∧ b = 3 ∨ a = 6 ∧ (∀ p, p < 32 → s.m.portOn p = true → s.m.lkState p = 3) ∧ b = 7 ∨
          a = 8 ∧ (s.m.tState = tLocked ∨ s.m.tState = tRoot) ∧ b = 9 ∨
          a = 2 ∧ s.m.bit F.CLK_STATUS_XTAL_OK = false ∧ b = 2 ∨ a = 6 ∧ (∃ p, p < 32 ∧ s.m.portOn p = true ∧ s.m.lkState p ≠ 3) ∧ b = 6 ∨
          a = 3 ∧ (∃ k, k < 8 ∧ s.m.bit F.CLK_PLL_LOCKED k = false ∧ s.m.pllOut k = false) ∧ b = 3 ∨ a = 8 ∧ s.m.tState ≠ tLocked ∧ s.m.tState ≠ tRoot ∧ b = 8 ∨ 9 ≤ a ∧ b = a) →
        s.m.get F.CLK_BOOT_STEP = a →
      Runs (.bootStepAdvance t w) s fun n => n.get F.CLK_BOOT_STEP = b ∧ Frame (fun k => k = keyOf F.CLK_BOOT_STEP) s.m n) ∧
    (s.m.get F.CLK_BOOT_STEP = 3 → (∀ k, k < 8 → s.m.bit F.CLK_PLL_LOCKED k = true ∨ s.m.pllOut k = true) →
      Runs (.bootStepAdvance t w) s fun n => n.get F.CLK_BOOT_STEP = 4 ∧ ∀ d, d < 60 → (domainPll d).isSome = true → n.bit F.CLK_DOM_STATUS_RUNNING 0 d = true) ∧
    (s.m.get F.CLK_BOOT_STEP = 4 → s.m.cfg.copy = none →
      (s.m.bootRec.stage ≠ 2 → s.m.fwVerify flActive = 0 →
        Runs (.bootStepAdvance t w) s fun n =>
          n.get F.CLK_BOOT_STEP = 5 ∧ n.get F.BOOT_FW_VERSION = leAt (s.m.flashBytes flActive 256) 0x10 4 ∧ n.get F.BOOT_SEC_VERSION = leAt (s.m.flashBytes flActive 256) 0x14 4) ∧
      (s.m.bootRec.stage ≠ 2 → s.m.fwVerify flActive ≠ 0 → ¬ (s.m.stageComplete = true ∧ s.m.fwVerify flStaging = 0) →
        Runs (.bootStepAdvance t w) s fun n => n.halted = true ∧ n.bit F.CLK_BOOT_FAILED = true ∧ n.get F.CLK_BOOT_STEP = 4 ∧ n.flash = s.m.flash) ∧
      (s.m.bootRec.stage = 2 → s.m.fwVerify flStaging = 0 →
        Runs (.bootStepAdvance t w) s fun n => n.cfg.copy.isSome = true ∧ n.get F.CLK_BOOT_STEP = 4 ∧ n.flash = s.m.flash)) ∧
    (s.m.get F.CLK_BOOT_STEP = 5 →
      (s.m.cfgAccept w.image = true →
        Runs (.bootStepAdvance t w) s fun n =>
          n.get F.CLK_BOOT_STEP = 6 ∧ n.cfg.want = some w.image.reserve ∧ (s.m.cfgHas 13 = false → n.get F.RTE_MODULE_MODULE = leAt (s.m.flashBytes flConfig 256) 0x0C 2)) ∧
      (s.m.cfgAccept w.image = false →
        Runs (.bootStepAdvance t w) s fun n =>
          n.get F.CLK_BOOT_STEP = 6 ∧ n.bit F.CFG_STATUS_DEFAULTS = true ∧ n.get F.RTE_MODULE_MODULE = 1023 ∧ n.cfg.want = none ∧
          ∀ p, p < 32 → n.role p = 1 ∧ n.bit F.PORT_CTL_ENABLE p = true)) ∧
    (s.m.get F.CLK_BOOT_STEP = 7 → s.m.bit F.PEAT_STATUS_ERASED = false →
      (∀ a b, a < 24 → b < 24 → a ≠ b → w.failed = [a, b] → Runs (.bootStepAdvance t w) s fun n => n.halted = true ∧ n.bit F.CLK_BOOT_FAILED = true ∧ n.peat = s.m.peat) ∧
      (∀ new, w.failed = [] → s.m.cfg.want = some new → reserveOk s.m.peatGranules new = true → s.m.peatGranules ≤ 2 ^ 19 → s.m.clk.onDie = false →
          (s.m.clk.kept = none ∨ w.keepOk = false) →
        Runs (.bootStepAdvance t w) s fun n =>
          n.get F.CLK_BOOT_STEP = 8 ∧ n.bit F.PEAT_STATUS_TRAINED = true ∧ n.bit F.PEAT_STATUS_PRESERVED = false ∧ n.clk.onDie = true ∧ n.clk.kept = none ∧ n.cfg.reserve = new ∧
          (∀ g, g < s.m.peatGranules → (∃ r ∈ new, r.2.1 ≤ g ∧ g < r.2.1 + r.2.2) → (n.gran g).state = 1 ∧ (n.gran g).resv = true ∧ (n.gran g).herd = 0) ∧
          (∀ g, g < s.m.peatGranules → (∀ r ∈ new, g < r.2.1 ∨ r.2.1 + r.2.2 ≤ g) → (n.gran g).state = 0) ∧
          (∀ c a, n.mem.granCopy = some c → a < s.m.peatCap → (a < c * 2 ^ 21 ∨ (c + 1) * 2 ^ 21 ≤ a) → memGet n.peat a = 0)))) ∧
  (∀ (s : State) (t i k last : Nat) (d : List Byte), s.m.Inv → s.m.asleep = false → s.m.cfg.copy = some (k, last) → s.m.cfg.journal = some (d, i) → i < k →
    (i + 1 < k →
      Runs (.firmwareCopyBlock t) s fun n =>
        n.flashBytes (flActive + i * 65536) 65536 = s.m.flashBytes (flStaging + i * 65536) 65536 ∧ n.cfg.journal = some (d, i + 1) ∧ n.cfg.copy = s.m.cfg.copy ∧
        StoresBut .flash (flActive + i * 65536) 65536 s.m n ∧ RegsBut (fun _ => False) s.m n) ∧
    (k = i + 1 →
      Runs (.firmwareCopyBlock t) s fun n =>
        n.flashBytes (flActive + i * 65536) 65536 = s.m.flashBytes (flStaging + i * 65536) 65536 ∧ n.cfg.journal = none ∧ n.cfg.copy = none ∧ n.get F.BOOT_STATUS_LAST = last % 16 ∧
        (s.m.bootRec.seq < 2 ^ 32 - 1 → n.bootRec.stage = 0) ∧ RegsBut (fun y => y = keyOf F.BOOT_STATUS_LAST) s.m n)) ∧
  (∀ (s : State) (t a b : Nat) (w : BootWork), s.m.Inv → s.m.get F.CLK_BOOT_STEP = a →
      (a, b) ∈ (if s.m.clk.warmBoot then [(3, 21), (4, 300), (5, 700), (6, 1700), (7, 1750), (8, 3100)] else [(3, 21), (4, 321), (5, 721), (6, 1721), (7, 2721), (8, 3721)]) →
    (s.m.asleep = false → s.m.halted = false → s.m.clk.bootAt + b * ms + s.m.clk.extra < (s.m.advance t).now → a ∉ s.m.clk.overran → s.m.cfg.copy = none → a ≠ 7 →
      Runs (.bootStepOverrun t w) s fun n =>
        n.bit F.CLK_BOOT_FAILED = true ∧ n.clk.overran = s.m.clk.overran ++ [a] ∧ n.get F.CLK_BOOT_STEP = (if a = 6 then 7 else if a = 8 then 9 else a) ∧
        (∀ x, (a, x) ∈ [(4, srcFlash), (5, srcConfig), (8, srcTime)] → n.get F.FLT_SRC_EVENTS 0 x = min (s.m.get F.FLT_SRC_EVENTS 0 x + 1) (2 ^ 32 - 1)) ∧ SameStores s.m n) ∧
    ((s.m.advance t).now ≤ s.m.clk.bootAt + b * ms + s.m.clk.extra ∨ a ∈ s.m.clk.overran → Runs (.bootStepOverrun t w) s fun n => n.clk = s.m.clk ∧ Frame (fun _ => False) s.m n)) ∧
  (∀ (s : State) (p : Path) (w : Word), s.m.Inv → s.m.Steward p F.CLK_SERVICE_LEAVE.addr →
    (s.m.get F.CLK_BOOT_STEP = 9 → s.m.bit F.CFG_STATUS_DEFAULTS = false → w.toNat % 2 = 1 →
      Runs (.serviceLeave p w) s fun n => n.get F.CLK_BOOT_STEP = 10 ∧ n.get F.CLK_STATUS_POWER_STATE = 2 ∧ SameStores s.m n) ∧
    (s.m.get F.CLK_BOOT_STEP ≠ 9 ∨ s.m.bit F.CFG_STATUS_DEFAULTS = true ∨ w.toNat % 2 = 0 → Runs (.serviceLeave p w) s fun n => Frame (fun _ => False) s.m n)) ∧
  (∀ (s : State) (t : Nat) (c : ConfigImage), s.m.Inv → s.m.asleep = false → s.m.bit F.CFG_STATUS_DEFAULTS = true → 9 ≤ s.m.get F.CLK_BOOT_STEP →
      s.m.cfg.defaultsAt + 60000 * ms ≤ (s.m.advance t).now →
    (s.m.cfgAccept c = false →
      Runs (.configDefaultsRepeat t c) s fun n => (∃ e ∈ n.evq, e.code = 0x0B00 ∧ e.source = srcConfig ∧ e.dest = 0) ∧ n.cfg.defaultsAt = (s.m.advance t).now ∧ Frame (fun _ => False) s.m n) ∧
    (s.m.cfgAccept c = true → Runs (.configDefaultsRepeat t c) s fun n => n.evq = s.m.evq ∧ Frame (fun _ => False) s.m n))

/-- The input and the standby rail (19_module_hardware.md R463, R465 to R468; 17_clocks_power_reset.md R421; 10_memory.md R279). The loss of the input stops the module: with peat keep
enabled, supported and the rail present the store stays, else it is gone and the module is OFF; so it is when the rail goes while the input is out. An input above its range is a fault
event once in a second.
Where the spec leaves a point open, the model's choices hold: notes/assumptions 97, 111. -/
def Obligations.PowerSupply : Prop :=
  (∀ (s : State) (t : Nat), s.m.Inv →
    (s.m.clk.input = true →
      Runs (.inputLoss t) s fun n =>
        n.clk.input = false ∧ n.asleep = true ∧ n.clk.pwrGood = false ∧ (∀ p, p < 32 → n.lkState p = 0) ∧
        n.get F.FLT_SRC_EVENTS 0 srcPower = min (s.m.get F.FLT_SRC_EVENTS 0 srcPower + 1) (2 ^ 32 - 1) ∧ n.flash = s.m.flash ∧
        (s.m.clk.onDie = true → s.m.bit F.PEAT_CTL_KEEP_EN = true → s.m.bit F.ID_CAP0_PEAT_KEEP = true → s.m.clk.stby = true →
          n.clk.kept = some (s.m.cfg.under.getD s.m.cfg.reserve) ∧ n.clk.onDie = false ∧ n.clk.off = s.m.clk.off ∧ n.peat = s.m.peat) ∧
        ((s.m.clk.onDie = false ∨ s.m.bit F.PEAT_CTL_KEEP_EN = false ∨ s.m.bit F.ID_CAP0_PEAT_KEEP = false ∨ s.m.clk.stby = false) → (s.m.clk.kept = none ∨ s.m.clk.stby = false) →
          n.clk.off = true ∧ n.clk.kept = none ∧ ∀ a, a < s.m.peatCap → memGet n.peat a = 0)) ∧
    (s.m.clk.input = false → Runs (.inputLoss t) s fun n => n.clk = s.m.clk ∧ Frame (fun _ => False) s.m n) ∧
    (Runs (.standbyRailLoss t) s fun n =>
      n.clk.stby = false ∧ (s.m.clk.input = true ∨ s.m.clk.off = true → n.peat = s.m.peat ∧ n.clk = { s.m.clk with stby := false }) ∧
      (s.m.clk.input = false → s.m.clk.off = false → n.clk.off = true ∧ n.clk.kept = none ∧ ∀ a, a < s.m.peatCap → memGet n.peat a = 0) ∧ RegsBut (fun _ => False) s.m n) ∧
    (∀ c b, (c, b) ∈ [(Instr.standbySenseValid t, true), (Instr.standbySenseLost t, false)] → Runs c s fun n => n.clk = { s.m.clk with stby := b } ∧ Frame (fun _ => False) s.m n) ∧
    (s.m.asleep = false → (∀ a, s.m.clk.highAt = some a → a + 1000 * ms ≤ (s.m.advance t).now) →
      Runs (.highInputEvent t) s fun n =>
        n.clk = { s.m.clk with highAt := some (s.m.advance t).now } ∧ n.get F.FLT_SRC_EVENTS 0 srcPower = min (s.m.get F.FLT_SRC_EVENTS 0 srcPower + 1) (2 ^ 32 - 1) ∧ Frame fltKey s.m n) ∧
    (∀ a, s.m.clk.highAt = some a → (s.m.advance t).now < a + 1000 * ms → Runs (.highInputEvent t) s fun n => n.clk = s.m.clk ∧ Frame (fun _ => False) s.m n))

/-- Staged sets (18_config_firmware.md R439 to R443). A write of CFG_STAGE_DATA, or a direct write that changes what a Staged field will hold, appends an entry; COMMIT sets PENDING, unless
the active plan gives no slack or an entry names a Frozen field of an enabled block; at the apply point every entry takes effect in order, the set is empty and counted; DISCARD empties it. -/
def Obligations.StagedSets : Prop :=
  (∀ (s : State) (p : Path) (w : Word) (a : Nat), s.m.Inv → s.m.Steward p F.CFG_STAGE_DATA.addr → a = s.m.get F.CFG_STAGE_ADDR →
    (∀ r, (s.m.bit F.CFG_STATUS_PENDING = true ∧ r = 3 ∨ s.m.bit F.CFG_STATUS_PENDING = false ∧ stageable a = false ∧ r = 4 ∨
          s.m.bit F.CFG_STATUS_PENDING = false ∧ stageable a = true ∧ 1024 ≤ s.m.cfg.set.length ∧ r = 5) →
      Runs (.stageDataAppend p w) s fun n =>
        n.bit F.CFG_STATUS_REFUSED = true ∧ n.get F.CFG_STATUS_REASON = r ∧ n.cfg = s.m.cfg ∧ (r ≠ 3 → n.get F.CFG_REFUSE_ADDR = a) ∧
        Frame (fun k => k = keyOf F.CFG_STATUS_REASON ∨ r ≠ 3 ∧ k = keyOf F.CFG_REFUSE_ADDR) s.m n) ∧
    (s.m.bit F.CFG_STATUS_PENDING = false → stageable a = true → s.m.cfg.set.length < 1024 →
      Runs (.stageDataAppend p w) s fun n =>
        n.cfg = { s.m.cfg with set := s.m.cfg.set ++ [{ addr := a, value := w, path := p, key := none }] } ∧ n.get F.CFG_STATUS_ENTRIES = s.m.cfg.set.length + 1 ∧
        n.bit F.CFG_STATUS_REFUSED = false ∧ Frame (fun k => k = keyOf F.CFG_STATUS_REASON) s.m n) ∧
    (stageable a = true → a % 4 = 0 ∧ (a < 0x20000 ∨ 0x30000 ≤ a) ∧ (a < 0x40000 ∨ 0x100000 ≤ a) ∧ (a < 0x800000 ∨ 0x1800000 ≤ a) ∧ (a < 0x3D00000 ∨ 0x3F00000 ≤ a))) ∧
  (∀ (s : State) (p : Path) (w : Word) (a k mask sh x : Nat), s.m.Inv → s.m.Steward p a → x = (s.m.reg (pathOff p + keyOf F.FLT_SRC_SEL_SOURCE)).toNat → x < 320 → sh = (s.m.shadowMach.reg k).toNat →
    ((a, k, mask) ∈ [(0x300414, 0x300414, 0xFFFF), (0x300418, 0x300418, 0xFFFFFFFF), (0x200010, 0x200010, 0xFFFFFFFF), (0x200014, 0x200014, 0xFFFFFFFF), (0x200018, 0x200018, 0xFFFFFFFF),
          (0x20001C, 0x20001C, 0xFFFFFFFF), (0x200020, 0x200020, 0xFFFFFFFF), (0x10054, 0x10054, 0xFFFFFFFF), (0x30048, regKey 0x30048 x, 0xFFFFFFFF),
          (0x3004C, regKey 0x3004C x, 0xFFFFFFFF), (0x30050, regKey 0x30050 x, 0xFFFFFFFF)] ∨
        a = 0x3980004 ∧ k = a ∧ mask = 2 ∨ a = 0x300408 ∧ k = a ∧ mask = 2 ∧ w.toNat % 2 = 0 ∧ getBits w.toNat 4 1 = 0) →
    (Runs (.stagedFieldWrite p a w) s fun n =>
      (a = 0x3980004 → n.get F.PEAT_CTL_SCRUB_EN = getBits w.toNat 0 1 ∧ n.get F.PEAT_CTL_SCRUB_HOURS = getBits w.toNat 8 8) ∧
      (a = 0x300408 → getBits (n.reg k).toNat 2 1 = getBits w.toNat 2 1 ∧ getBits (n.reg k).toNat 3 1 = getBits (if s.m.tState = tFree then w else s.m.reg k).toNat 3 1)) ∧
    ((sh ^^^ w.toNat) &&& mask = 0 →
      Runs (.stagedFieldWrite p a w) s fun n => n.cfg = s.m.cfg ∧ (n.reg k).toNat &&& mask = (s.m.reg k).toNat &&& mask ∧
        n.bit F.CFG_STATUS_PENDING_WRITE = s.m.bit F.CFG_STATUS_PENDING_WRITE) ∧
    ((sh ^^^ w.toNat) &&& mask ≠ 0 → s.m.bit F.CFG_STATUS_PENDING = false → s.m.cfg.set.length < 1024 →
      Runs (.stagedFieldWrite p a w) s fun n =>
        (∃ e, n.cfg.set = s.m.cfg.set ++ [e] ∧ e.addr = a ∧ e.value = w ∧ e.path = p) ∧ n.get F.CFG_STATUS_ENTRIES = s.m.cfg.set.length + 1 ∧
        (n.reg k).toNat &&& mask = (s.m.reg k).toNat &&& mask ∧
        Frame (fun y => y = keyOf F.CFG_STATUS_REASON ∨ mask = 2 ∧ (y = a ∨ a = 0x300408 ∧ y = keyOf F.CFG_FROZEN_ADDR)) s.m n) ∧
    ((sh ^^^ w.toNat) &&& mask ≠ 0 → s.m.bit F.CFG_STATUS_PENDING = true →
      Runs (.stagedFieldWrite p a w) s fun n => n.cfg = s.m.cfg ∧ n.bit F.CFG_STATUS_PENDING_WRITE = true ∧ (n.reg k).toNat &&& mask = (s.m.reg k).toNat &&& mask) ∧
    ((sh ^^^ w.toNat) &&& mask ≠ 0 → s.m.bit F.CFG_STATUS_PENDING = false → 1024 ≤ s.m.cfg.set.length →
      Runs (.stagedFieldWrite p a w) s fun n => n.cfg = s.m.cfg ∧ n.get F.CFG_STATUS_REASON = 5 ∧ n.bit F.CFG_STATUS_REFUSED = true ∧ n.get F.CFG_REFUSE_ADDR = a)) ∧
  (∀ (s : State) (p : Path) (w : Word) (e lo : Nat), s.m.Inv → s.m.Steward p 0x200038 → (s.m.reg (pathOff p + 0x200030)).toNat / 65536 % 4 = 0 →
      e = (s.m.reg (pathOff p + 0x200030)).toNat % 1024 → lo = ((alGet s.m.shadow (pathOff p + 0x200034)).getD (s.m.reg (regKey 0x200034 e))).toNat →
    (s.m.bit F.CFG_STATUS_PENDING = true →
      Runs (.stagedFieldWrite p 0x200038 w) s fun n =>
        n.cfg = s.m.cfg ∧ ((s.m.shadowMach.reg (regKey 0x200034 e)).toNat ≠ lo ∨ s.m.shadowMach.reg (regKey 0x200038 e) ≠ w → n.bit F.CFG_STATUS_PENDING_WRITE = true) ∧
        ((s.m.shadowMach.reg (regKey 0x200034 e)).toNat = lo → s.m.shadowMach.reg (regKey 0x200038 e) = w →
          n.bit F.CFG_STATUS_PENDING_WRITE = s.m.bit F.CFG_STATUS_PENDING_WRITE) ∧ Frame (fun y => y = keyOf F.CFG_STATUS_REASON) s.m n) ∧
    (s.m.bit F.CFG_STATUS_PENDING = false → s.m.cfg.set = [] →
      Runs (.stagedFieldWrite p 0x200038 w) s fun n =>
        n.cfg.set.map (fun x => (x.addr, x.value, x.path)) = (if (s.m.reg (regKey 0x200034 e)).toNat = lo then [] else [(0x200034, BitVec.ofNat 32 lo, p)]) ++
          (if s.m.reg (regKey 0x200038 e) = w then [] else [(0x200038, w, p)]) ∧
        Frame (fun y => y = keyOf F.CFG_STATUS_REASON) s.m n)) ∧
  (∀ (s : State) (t : Nat) (c : Instr), s.m.Inv → (c = .powerOnReset t ∧ s.m.clk.pwrGood = false ∨ c = .warmReset t ∧ s.m.asleep = false ∧ 4 ≤ s.m.get F.CLK_BOOT_STEP) →
    Runs c s fun n => n.cfg.set = [] ∧ n.cfg.commitAt = none ∧ n.bit F.CFG_STATUS_PENDING = false) ∧
  (∀ (s : State) (p : Path), s.m.Inv → s.m.Steward p F.CFG_COMMIT_OP.addr →
    (Runs (.discard p) s fun n =>
      n.cfg = { s.m.cfg with commitAt := none, set := [] } ∧ n.bit F.CFG_STATUS_PENDING = false ∧ n.get F.CFG_STATUS_ENTRIES = 0 ∧ Frame (fun k => k = keyOf F.CFG_STATUS_REASON) s.m n) ∧
    (∀ r, (s.m.bit F.CFG_STATUS_PENDING = true ∧ r = 3 ∨ s.m.bit F.CFG_STATUS_PENDING = false ∧ (∃ b x, s.m.active = some (b, x) ∧ (x.slackPeriod = 0 ∨ x.stagedOk = false)) ∧ r = 1) →
      Runs (.commit p) s fun n =>
        n.bit F.CFG_STATUS_REFUSED = true ∧ n.get F.CFG_STATUS_REASON = r ∧ n.bit F.CFG_STATUS_PENDING = s.m.bit F.CFG_STATUS_PENDING ∧ n.cfg = s.m.cfg ∧
        Frame (fun k => k = keyOf F.CFG_STATUS_REASON) s.m n) ∧
    (s.m.bit F.CFG_STATUS_PENDING = false → (∀ b x, s.m.active = some (b, x) → x.slackPeriod ≠ 0 ∧ x.stagedOk = true) →
      (s.m.firstFrozen s.m.cfg.set = none →
        Runs (.commit p) s fun n =>
          n.bit F.CFG_STATUS_PENDING = true ∧ n.bit F.CFG_STATUS_REFUSED = false ∧ n.cfg = { s.m.cfg with commitAt := some s.m.polder } ∧
          Frame (fun k => k = keyOf F.CFG_STATUS_REASON) s.m n) ∧
      (∀ a, s.m.firstFrozen s.m.cfg.set = some a → a < 2 ^ 32 →
        Runs (.commit p) s fun n =>
          n.bit F.CFG_STATUS_PENDING = false ∧ n.bit F.CFG_STATUS_REFUSED = true ∧ n.get F.CFG_STATUS_REASON = 2 ∧ n.get F.CFG_REFUSE_ADDR = a ∧ n.cfg = s.m.cfg ∧
          Frame (fun k => k = keyOf F.CFG_STATUS_REASON ∨ k = keyOf F.CFG_REFUSE_ADDR) s.m n))) ∧
  (∀ (s : State) (t : Nat) (since : DWord) (m : Mach), s.m.Inv → s.m.cfg.commitAt = some since →
      m = ((s.m.advance t).putCfg { s.m.cfg with commitAt := none }).set F.CFG_STATUS_PENDING 0 →
    ((s.m.advance t).applyPoint since = false → Runs (.stagedSetApply t) s fun n => n.cfg = s.m.cfg ∧ Frame (fun _ => False) s.m n) ∧
    ((s.m.advance t).active = none ∨ (s.m.advance t).applyPoint since = true →
      (m.firstFrozen s.m.cfg.set = none → (s.m.cfg.set.foldl Mach.applyEntry m).downs = [] → (s.m.cfg.set.foldl Mach.applyEntry m).tileDowns = [] →
        Runs (.stagedSetApply t) s fun n =>
          n.cfg = { (s.m.cfg.set.foldl Mach.applyEntry m).cfg with set := [] } ∧ n.get F.CFG_STATUS_ENTRIES = 0 ∧ n.bit F.CFG_STATUS_DONE = true ∧
          n.get F.CFG_COMMITS = min ((s.m.cfg.set.foldl Mach.applyEntry m).get F.CFG_COMMITS + 1) (2 ^ F.CFG_COMMITS.wd - 1) ∧
          RegsBut (fun k => k = keyOf F.CFG_STATUS_REASON ∨ k = keyOf F.CFG_COMMITS) (s.m.cfg.set.foldl Mach.applyEntry m) n) ∧
      (∀ a, m.firstFrozen s.m.cfg.set = some a → a < 2 ^ 32 →
        Runs (.stagedSetApply t) s fun n =>
          n.bit F.CFG_STATUS_PENDING = false ∧ n.bit F.CFG_STATUS_REFUSED = true ∧ n.get F.CFG_STATUS_REASON = 2 ∧ n.get F.CFG_REFUSE_ADDR = a ∧ n.cfg.set = s.m.cfg.set ∧
          Frame (fun k => k = keyOf F.CFG_STATUS_REASON ∨ k = keyOf F.CFG_REFUSE_ADDR) s.m n)))

/-- Firmware delivery (18_config_firmware.md R444, R445, R455). BEGIN opens a transfer with every piece missing; WRITE takes a piece from the path's buffer or from herd-0 granules, if its
CRC32C holds; the piece replaces its sector, and only then does its bit say so; the last one makes staging PENDING; ABORT ends a transfer. Each is refused while a piece is written.
Where the spec leaves a point open, the model's choices hold: notes/assumptions 104, 105. -/
def Obligations.FirmwareDelivery : Prop :=
  (∀ (s : State) (p : Path) (toCfg fromSrc : Bool) (i : Nat), s.m.Inv → s.m.Steward p F.FWU_CMD_OP.addr → i = s.m.get F.FWU_INDEX % 16384 →
    (∀ c r, (s.m.bit F.FWU_STATUS_BUSY = true ∧ c ∈ [Instr.fwuBegin p toCfg, Instr.fwuWrite p toCfg fromSrc, Instr.fwuAbort p] ∧ r = 1 ∨
          s.m.bit F.FWU_STATUS_BUSY = false ∧ (c = .fwuBegin p toCfg ∧ (s.m.get F.FWU_PIECES % 16384 = 0 ∨ (if toCfg then 2048 else 8192) < s.m.get F.FWU_PIECES % 16384) ∧ r = 2 ∨
            c = .fwuWrite p toCfg fromSrc ∧ (s.m.bootRec.stage ≠ 1 ∧ r = 3 ∨ s.m.bootRec.stage = 1 ∧ (s.m.targetCfg ≠ toCfg ∧ r = 6 ∨ s.m.targetCfg = toCfg ∧ (s.m.bootRec.pieces ≤ i ∧ r = 2 ∨
              i < s.m.bootRec.pieces ∧ fromSrc = true ∧ (s.m.get64 F.FWU_SRC_LO % 4096 ≠ 0 ∨ s.m.herd0Peat (s.m.get64 F.FWU_SRC_LO) 4096 = false) ∧ r = 7))))) →
      Runs c s fun n =>
        n.bit F.FWU_STATUS_REFUSED = true ∧ n.bit F.FWU_STATUS_DONE = false ∧ n.get F.FWU_STATUS_REASON = r ∧ n.cfg = s.m.cfg ∧ Frame (fun k => k = keyOf F.FWU_STATUS_BUSY) s.m n) ∧
    (s.m.bit F.FWU_STATUS_BUSY = false → s.m.bootRec.seq < 2 ^ 32 - 1 →
      (0 < s.m.get F.FWU_PIECES % 16384 → s.m.get F.FWU_PIECES % 16384 ≤ (if toCfg then 2048 else 8192) →
        Runs (.fwuBegin p toCfg) s fun n =>
          n.bootRec.stage = 1 ∧ n.bootRec.pieces = s.m.get F.FWU_PIECES % 16384 ∧ n.targetCfg = toCfg ∧ (∀ j, j < 32768 → n.pieceIn j = false) ∧ n.bootRec.floor = s.m.bootRec.floor ∧
          n.bootRec.revoke = s.m.bootRec.revoke ∧ n.bit F.FWU_STATUS_DONE = true ∧ n.bit F.FWU_STATUS_REFUSED = false ∧
          (∀ a, 0x2000 ≤ a → (a < flBitmap ∨ flBitmap + 0x1000 ≤ a) → memGet n.flash a = memGet s.m.flash a) ∧ n.peat = s.m.peat ∧ n.cream = s.m.cream ∧
          RegsBut (fun k => k = keyOf F.FWU_STATUS_BUSY) s.m n) ∧
      (Runs (.fwuAbort p) s fun n =>
        n.bootRec.stage = 0 ∧ n.bootRec.floor = s.m.bootRec.floor ∧ n.bootRec.revoke = s.m.bootRec.revoke ∧ n.bit F.FWU_STATUS_DONE = true ∧ n.bit F.FWU_STATUS_REFUSED = false ∧
        StoresBut .flash 0 0x2000 s.m n ∧ RegsBut (fun k => k = keyOf F.FWU_STATUS_BUSY) s.m n)) ∧
    (s.m.bit F.FWU_STATUS_BUSY = false → s.m.bootRec.stage = 1 → s.m.targetCfg = toCfg → i < s.m.bootRec.pieces →
      ∀ d, (fromSrc = true ∧ s.m.get64 F.FWU_SRC_LO % 4096 = 0 ∧ s.m.herd0Peat (s.m.get64 F.FWU_SRC_LO) 4096 = true ∧ d = s.m.rdBytes .peat (s.m.get64 F.FWU_SRC_LO) 4096 ∨
          fromSrc = false ∧ d = (List.range 1024).flatMap (fun x => leBytes 4 (s.m.getP p F.FWU_BUF x))) →
      (crcOf polyCastagnoli d ≠ s.m.get F.FWU_CRC →
        Runs (.fwuWrite p toCfg fromSrc) s fun n =>
          n.bit F.FWU_STATUS_REFUSED = true ∧ n.get F.FWU_STATUS_REASON = 4 ∧ n.get F.FWU_CRC_FAIL = min (s.m.get F.FWU_CRC_FAIL + 1) (2 ^ 32 - 1) ∧ n.cfg = s.m.cfg ∧
          n.get F.FLT_SRC_EVENTS 0 srcFwu = min (s.m.get F.FLT_SRC_EVENTS 0 srcFwu + 1) (2 ^ 32 - 1) ∧
          Frame (fun k => fltKey k ∨ k = keyOf F.FWU_STATUS_BUSY ∨ k = keyOf F.FWU_CRC_FAIL) s.m n) ∧
      (crcOf polyCastagnoli d = s.m.get F.FWU_CRC →
        Runs (.fwuWrite p toCfg fromSrc) s fun n =>
          n.bit F.FWU_STATUS_BUSY = true ∧ n.cfg = { s.m.cfg with piece := some (i, d) } ∧ Frame (fun k => k = keyOf F.FWU_STATUS_BUSY) s.m n))) ∧
  (∀ (s : State) (t : Nat), s.m.Inv →
    (s.m.asleep = true ∨ s.m.cfg.piece = none → ∀ ok, Runs (.fwuPieceWritten t ok) s fun n => n.cfg = s.m.cfg ∧ Frame (fun _ => False) s.m n) ∧
    (∀ i d a, s.m.asleep = false → s.m.cfg.piece = some (i, d) → d.length = 4096 → i < 8192 → a = s.m.targetBase + i * 4096 →
      (Runs (.fwuPieceWritten t true) s fun n =>
        n.flashBytes a 4096 = d ∧ n.pieceIn i = true ∧ (∀ j, j ≠ i → j < 8192 → n.pieceIn j = s.m.pieceIn j) ∧ n.cfg = { s.m.cfg with piece := none } ∧
        n.bit F.FWU_STATUS_BUSY = false ∧ n.bit F.FWU_STATUS_DONE = true ∧ n.bit F.FWU_STATUS_REFUSED = false ∧
        (s.m.targetCfg = false → (∀ j, j < s.m.bootRec.pieces → j ≠ i → s.m.pieceIn j = true) → s.m.bootRec.seq < 2 ^ 32 - 1 → n.bootRec.stage = 2) ∧
        ((s.m.targetCfg = true ∨ ∃ j, j < s.m.bootRec.pieces ∧ j ≠ i ∧ j < 8192 ∧ s.m.pieceIn j = false) → n.bootRec = s.m.bootRec) ∧
        (∀ x, 0x2000 ≤ x → x ≠ flBitmap + i / 8 → (x < a ∨ a + 4096 ≤ x) → memGet n.flash x = memGet s.m.flash x) ∧ n.peat = s.m.peat ∧ n.cream = s.m.cream ∧
        RegsBut (fun k => k = keyOf F.FWU_STATUS_BUSY) s.m n) ∧
      (Runs (.fwuPieceWritten t false) s fun n =>
        n.pieceIn i = s.m.pieceIn i ∧ n.bootRec = s.m.bootRec ∧ n.cfg = { s.m.cfg with piece := none } ∧ n.bit F.FWU_STATUS_BUSY = false ∧ n.bit F.FWU_STATUS_REFUSED = true ∧
        n.get F.FWU_STATUS_REASON = 5 ∧ n.get F.FLT_SRC_EVENTS 0 srcFlash = min (s.m.get F.FLT_SRC_EVENTS 0 srcFlash + 1) (2 ^ 32 - 1) ∧ StoresBut .flash a 4096 s.m n ∧
        RegsBut (fun k => fltKey k ∨ k = keyOf F.FWU_STATUS_BUSY) s.m n)))

/-- Quotes (18_config_firmware.md R451 to R453). The identity key becomes ready once, or fails, and then every quote is refused; GO takes its snapshot at once and waits for the key;
once signed the quote stands in the window of its path, body first.
Where the spec leaves a point open, the model's choices hold: notes/assumptions 47, 107. -/
def Obligations.Quotes : Prop :=
  (∀ (s : State) (t : Nat) (ok : Bool), s.m.Inv →
    (s.m.asleep = false → s.m.halted = false → 5 ≤ s.m.get F.CLK_BOOT_STEP → s.m.bit F.BOOT_STATUS_IDENTITY_READY = false → s.m.bit F.BOOT_STATUS_IDENTITY_FAIL = false →
      (ok = true →
        Runs (.identityKeyReady t ok) s fun n =>
          n.bit F.BOOT_STATUS_IDENTITY_READY = true ∧ n.bit F.BOOT_STATUS_IDENTITY_FAIL = false ∧ n.cfg = s.m.cfg ∧ Frame (fun k => k = keyOf F.BOOT_STATUS_IDENTITY_READY) s.m n) ∧
      (ok = false →
        Runs (.identityKeyReady t ok) s fun n =>
          n.bit F.BOOT_STATUS_IDENTITY_FAIL = true ∧ n.bit F.BOOT_STATUS_IDENTITY_READY = false ∧ n.cfg.quote = none ∧
          n.get F.FLT_SRC_EVENTS 0 srcConfig = min (s.m.get F.FLT_SRC_EVENTS 0 srcConfig + 1) (2 ^ 32 - 1) ∧
          (s.m.cfg.quote.isSome = true → n.bit F.BOOT_QUOTE_STATUS_BUSY = false ∧ n.bit F.BOOT_QUOTE_STATUS_REFUSED = true ∧ n.get F.BOOT_QUOTE_STATUS_REASON = 1) ∧
          Frame (fun k => fltKey k ∨ k = keyOf F.BOOT_STATUS_IDENTITY_READY ∨ s.m.cfg.quote.isSome = true ∧ k = keyOf F.BOOT_QUOTE_STATUS_BUSY) s.m n)) ∧
    (s.m.asleep = true ∨ s.m.halted = true ∨ s.m.get F.CLK_BOOT_STEP < 5 ∨ s.m.bit F.BOOT_STATUS_IDENTITY_READY = true ∨ s.m.bit F.BOOT_STATUS_IDENTITY_FAIL = true →
      Runs (.identityKeyReady t ok) s fun n => n.cfg = s.m.cfg ∧ Frame (fun _ => False) s.m n)) ∧
  (∀ (s : State) (p : Path) (w : Word), s.m.Inv → s.m.Steward p F.BOOT_QUOTE_CMD_GO.addr →
    (w.toNat % 2 = 0 → Runs (.quoteGo p w) s fun n => n.cfg = s.m.cfg ∧ Frame (fun _ => False) s.m n) ∧
    (∀ r, w.toNat % 2 = 1 → (s.m.bit F.BOOT_QUOTE_STATUS_BUSY = true ∧ r = 2 ∨ s.m.bit F.BOOT_QUOTE_STATUS_BUSY = false ∧ s.m.bit F.BOOT_STATUS_IDENTITY_FAIL = true ∧ r = 1) →
      Runs (.quoteGo p w) s fun n =>
        n.bit F.BOOT_QUOTE_STATUS_REFUSED = true ∧ n.get F.BOOT_QUOTE_STATUS_REASON = r ∧ n.cfg = s.m.cfg ∧ Frame (fun k => k = keyOf F.BOOT_QUOTE_STATUS_BUSY) s.m n) ∧
    (w.toNat % 2 = 1 → s.m.bit F.BOOT_QUOTE_STATUS_BUSY = false → s.m.bit F.BOOT_STATUS_IDENTITY_FAIL = false →
      Runs (.quoteGo p w) s fun n =>
        n.bit F.BOOT_QUOTE_STATUS_BUSY = true ∧ n.bit F.BOOT_QUOTE_STATUS_DONE = false ∧ n.bit F.BOOT_QUOTE_STATUS_REFUSED = false ∧
        (∃ b, n.cfg = { s.m.cfg with quote := some (p, b) } ∧ leAt b 8 4 = s.m.get F.RTE_MODULE_MODULE ∧ leAt b 0x0C 4 = s.m.bootRec.floor % 2 ^ 32 ∧ leAt b 0x10 8 = s.m.polder.toNat ∧
          leAt b 0x18 4 = s.m.get F.CFG_COMMITS ∧ (∀ i, i < 8 → leAt b (0x20 + 4 * i) 4 = s.m.getP p F.BOOT_NONCE i) ∧ leAt b 0x40 48 = Config.romDigest.toNat ∧
          (∀ i, i < 12 → leAt b (0x70 + 4 * i) 4 = s.m.get F.BOOT_FW_DIGEST i ∧ leAt b (0xA0 + 4 * i) 4 = s.m.get F.BOOT_CFG_DIGEST i) ∧
          getBits (leAt b 0 4) 8 1 = s.m.get F.CFG_STATUS_DEFAULTS ∧ getBits (leAt b 0 4) 9 1 = s.m.get F.PEAT_STATUS_PRESERVED ∧ getBits (leAt b 0 4) 10 1 = s.m.failStop.toNat) ∧
        Frame (fun k => k = keyOf F.BOOT_QUOTE_STATUS_BUSY) s.m n)) ∧
  (∀ (s : State) (t : Nat), s.m.Inv →
    (s.m.cfg.quote = none ∨ s.m.bit F.BOOT_STATUS_IDENTITY_READY = false → Runs (.quoteSigned t) s fun n => n.cfg = s.m.cfg ∧ Frame (fun _ => False) s.m n) ∧
    (∀ p b, s.m.cfg.quote = some (p, b) → b.length = 384 → s.m.bit F.BOOT_STATUS_IDENTITY_READY = true →
      Runs (.quoteSigned t) s fun n =>
        n.bit F.BOOT_QUOTE_STATUS_BUSY = false ∧ n.bit F.BOOT_QUOTE_STATUS_DONE = true ∧ n.bit F.BOOT_QUOTE_STATUS_REFUSED = false ∧ n.cfg = { s.m.cfg with quote := none } ∧
        (∀ i, i < 96 → n.getP p F.BOOT_QUOTE i = leAt b (4 * i) 4) ∧
        Frame (fun k => k = keyOf F.BOOT_QUOTE_STATUS_BUSY ∨ ∃ i, i < 192 ∧ k = pathOff p + keyOf F.BOOT_QUOTE i) s.m n))

/-- Packets that reach a queue pair (11_best_effort_transport.md R292, R294, R295, R299, R303). One for no queue pair, or for one not READY, is dropped and counted; a duplicate is counted
and acknowledged again; a gap from a foreign peer is answered with a NAK; a SEND in order takes the receive buffer, its bytes and the next PSN; an acknowledgement completes what it covers,
a NAK sends again, a receiver not ready makes the SEND wait, a refusal breaks the queue pair.
Where the spec leaves a point open, the model's choices hold: notes/assumptions 64 to 66. -/
def Obligations.QueuePairPackets : Prop :=
  (∀ (s : State) (t : Nat) (ack : Bool) (c : Instr), s.m.Inv → s.m.Running → (c = .qpPacketReceived t ∧ ack = false ∨ c = .qpAckReceived t ∧ ack = true) →
    ((∀ x ∈ s.m.rte.here, ∀ k, x.2.body = .packet k → Mach.isAck k ≠ ack) → Runs c s fun n => n.rte = s.m.rte ∧ n.beq = s.m.beq ∧ Frame (fun _ => False) s.m n) ∧
    (∀ x k rest, s.m.rte.here = x :: rest → x.2.body = .packet k → Mach.isAck k = ack → (Mach.qpOfQpn k.qpn = none ∨ ∃ q, Mach.qpOfQpn k.qpn = some q ∧ s.m.qpState q ≠ 1) →
      Runs c s fun n =>
        n.get F.BEQ_DROP = min (s.m.get F.BEQ_DROP + 1) (2 ^ F.BEQ_DROP.wd - 1) ∧ n.rte = { s.m.rte with here := rest } ∧ n.beq = s.m.beq ∧
        Frame (fun y => y = keyOf F.BEQ_DROP) s.m n)) ∧
  (∀ (s : State) (t q : Nat) (x : Nat × BeFrame) (k : QpPacket) (rest : List (Nat × BeFrame)), s.m.Inv → s.m.Running → s.m.rte.here = x :: rest → x.2.body = .packet k →
      Mach.qpOfQpn k.qpn = some q → s.m.qpState q = 1 → s.m.qpKey q = none →
    (k.op = .cnp →
      Runs (.qpPacketReceived t) s fun n =>
        n.qp q = { s.m.qp q with heard := (s.m.advance t).now, cnps := (s.m.qp q).cnps + 1 } ∧ n.rte.here = rest ∧
        n.get F.BEQ_QP_CE 0 q = min (s.m.get F.BEQ_QP_CE 0 q + 1) (2 ^ F.BEQ_QP_CE.wd - 1) ∧ Frame (fun y => y = keyOf F.BEQ_QP_CE 0 q) s.m n) ∧
    (k.op = .send → k.ce = false → k.restart = false → (2 ^ 23 ≤ psnDist (s.m.qp q).expect k.psn ∨ k.psn ∈ (s.m.qp q).above) →
      Runs (.qpPacketReceived t) s fun n =>
        n.get F.BEQ_DUP = min (s.m.get F.BEQ_DUP + 1) (2 ^ F.BEQ_DUP.wd - 1) ∧ (n.qp q).expect = (s.m.qp q).expect ∧ (n.qp q).rx = (s.m.qp q).rx ∧ (n.qp q).bufs = (s.m.qp q).bufs ∧
        (∃ a, (n.qp q).replies = (s.m.qp q).replies ++ [a] ∧ a.op = .ack ∧ a.status = 0 ∧ a.cumPsn = (s.m.qp q).expect) ∧ n.rte.here = rest ∧
        Frame (fun y => y = keyOf F.BEQ_DUP) s.m n) ∧
    (k.op = .send → k.ce = false → s.m.qpModulePeer q = false → Mach.isCtl q = false → 0 < psnDist (s.m.qp q).expect k.psn → psnDist (s.m.qp q).expect k.psn < 2 ^ 23 →
        k.psn ∉ (s.m.qp q).above →
      Runs (.qpPacketReceived t) s fun n =>
        (n.qp q).expect = (s.m.qp q).expect ∧ (n.qp q).rx = (s.m.qp q).rx ∧ (n.qp q).bufs = (s.m.qp q).bufs ∧ n.rte.here = rest ∧
        (∃ a, (n.qp q).replies = (s.m.qp q).replies ++ [a] ∧ a.op = .nak ∧ a.syndrome = nakSeq ∧ a.psn = (s.m.qp q).expect) ∧ Frame (fun _ => False) s.m n) ∧
    (∀ b g, k.op = .send → k.ce = false → k.flag = false → k.imm = none → s.m.qpModulePeer q = true → Mach.isCtl q = false → s.m.qpMirror q = none → (s.m.qp q).above = [] →
        (s.m.qp q).rx = [] → k.psn = (s.m.qp q).expect → k.psn < 2 ^ 24 → k.msn = (s.m.qp q).rxMsn → k.msn < 2 ^ 32 → k.offset = 0 → k.msgLen = k.payload.length → (s.m.qp q).unacked < 3 →
        (s.m.qp q).bufs = [b] → b.sq = getBits (s.m.qpCfg q 7) 0 12 → b.segs = some [g] → g.target = 2 → k.payload.length ≤ b.len → k.payload.length ≤ g.len →
        s.m.bit F.XLT_AS_CFG_DIRTY_EN 0 (Mach.asSel (s.m.sqHerd b.sq) b.asid) = false →
      Runs (.qpPacketReceived t) s fun n =>
        (n.qp q).expect = psnNext k.psn 1 ∧ (n.qp q).above = [] ∧ (n.qp q).bufs = [] ∧ (n.qp q).unacked = (s.m.qp q).unacked + 1 ∧ (n.qp q).txEcho = k.txTime ∧ n.rte.here = rest ∧
        (∀ i, i < k.payload.length → memGet n.cream (g.addr + i) = k.payload.getD i 0) ∧
        StoresBut .cream g.addr k.payload.length s.m n ∧
        (k.payload ≠ [] → n.mem.writes = s.m.mem.writes ++ [{ id := s.m.mem.nextWrite, kind := 2, chan := q, msg := k.msn, target := 2, port := g.port }] ∧
          (n.qp q).rxMsn = k.msn ∧ (n.qp q).rx.map (fun y => (y.msn, y.got)) = [(k.msn, [(0, k.payload.length)])]) ∧
        (k.payload = [] → s.m.landed 2 q k.msn = true → (n.qp q).rx = [] ∧ (n.qp q).rxMsn = (k.msn + 1) % 2 ^ 32 ∧
          s.m.Finished n b.sq b.uid { status := stDone, bytes := 0, deadline := false, time := (s.m.advance t).polder.toNat, detail := 0 })) ∧
    (k.op = .nak → k.syndrome = nakSeq → (s.m.qp q).resend = [] → (∀ y ∈ (s.m.qp q).sent, y.tries < s.m.get F.BEQ_RTX_RETRY) → ((s.m.qp q).sent.map (fun y => y.packet.psn)).Nodup →
      Runs (.qpAckReceived t) s fun n =>
        (n.qp q).resend = ((s.m.qp q).sent.filter (fun y => decide (psnDist k.psn y.packet.psn < 2 ^ 23))).map (fun y => { y with tries := y.tries + 1, at' := (s.m.advance t).now }) ∧
        (n.qp q).msgs = (s.m.qp q).msgs ∧ n.rte.here = rest ∧ Frame (fun _ => False) s.m n) ∧
    (∀ y g, k.op = .rnrNak → (s.m.qp q).sent = [y] → y.packet.psn = k.psn → (s.m.qp q).msgs = [g] → g.msn = y.msn → g.wholly = true →
      (g.rnr < s.m.get F.BEQ_RTX_RNR_RETRY →
        Runs (.qpAckReceived t) s fun n =>
          (n.qp q).msgs = [{ g with rnr := g.rnr + 1, rnrAt := some ((s.m.advance t).now + 10 * us) }] ∧ (n.qp q).sent = [y] ∧ n.rte.here = rest ∧ Frame (fun _ => False) s.m n) ∧
      (s.m.get F.BEQ_RTX_RNR_RETRY ≤ g.rnr → Mach.isCtl q = false →
        Runs (.qpAckReceived t) s fun n =>
          n.qpState q = 2 ∧ n.get F.BEQ_QP_STATUS_ERR_STATUS 0 q = stRetryExhausted ∧ (n.qp q).msgs = [] ∧ (n.qp q).sent = [] ∧ SameStores s.m n)) ∧
    (∀ y g sq uid, k.op = .ack → s.m.qpModulePeer q = true → Mach.isCtl q = false → (s.m.qp q).sent = [y] → y.packet.op = .send → (s.m.qp q).msgs = [g] → g.kind = .send → g.msn = y.msn →
        g.wholly = true → g.sq = some (sq, uid) → 2 ^ 23 ≤ psnDist k.cumPsn y.packet.psn →
      (k.status = 0 → g.result = none →
        Runs (.qpAckReceived t) s fun n =>
          (n.qp q).sent = [] ∧ (n.qp q).msgs = [] ∧ (n.qp q).acked = (s.m.qp q).acked + packetBytes y.packet ∧ (n.qp q).ceAcked = (s.m.qp q).ceAcked + k.ceBytes ∧
          s.m.Finished n sq uid { status := stDone, bytes := g.len, deadline := false, time := (s.m.advance t).polder.toNat, detail := 0 } ∧ n.rte.here = rest ∧
          Frame (fun z => z ∈ [keyOf F.BEQ_QP_STATUS_OUT 0 q, keyOf F.BEQ_QP_CE 0 q, keyOf F.BEQ_QP_RTT_LAST 0 q]) s.m n) ∧
      (k.status ≠ 0 → k.status < 256 → k.msn = g.msn → (s.m.qp q).bufs = [] → (s.m.qp q).rx = [] →
        Runs (.qpAckReceived t) s fun n =>
          n.qpState q = 2 ∧ n.get F.BEQ_QP_STATUS_ERR_STATUS 0 q = k.status ∧ (n.qp q).msgs = [] ∧ (∃ c, c.status = k.status ∧ c.bytes = 0 ∧
            (n.sq sq).out = (s.m.sq sq).out.map (fun o => if o.uid = uid ∧ o.comp = none then { o with comp := some c } else o)) ∧ SameStores s.m n)))

/-- Frames of Chaennis accelerator links (12_ports_mac.md R321, R322; 05_queues_descriptors.md R133). A request with an invalid context, or one that its window refuses, is answered with a
NAK; a WRITE writes the translated bytes, a READ is answered with them; a doorbell window takes aligned words only. LANDED acknowledges the writes up to its tag; a write not acknowledged for
a lease period is lost, and fails what waited for it.
Where the spec leaves a point open, the model's choices hold: notes/assumptions 78 to 80. -/
def Obligations.AcceleratorLinks : Prop :=
  (∀ (s : State) (t port : Nat) (f : AccessFrame) (rest : List RxKind) (m : Mach), s.m.Inv → s.m.Running → (s.m.pt port).inq = .access f :: rest →
      m = (s.m.advance t).setPt port { s.m.pt port with inq := rest } →
    (f.op ∉ [1, 2] → Runs (.accessFrameReceived t port) s fun n => n.pt port = { s.m.pt port with inq := rest } ∧ n.sent = s.m.sent ∧ Frame (fun _ => False) s.m n) ∧
    (f.op ∈ [1, 2] → s.m.ctxEntry port f.ctx = none →
      Runs (.accessFrameReceived t port) s fun n => n.sent = s.m.sent ++ [.access port 4 f.tag stContext []] ∧ (n.pt port).inq = rest ∧ SameStores s.m n) ∧
    (∀ c z r len, s.m.ctxEntry port f.ctx = some c → (f.op = 1 ∧ len = f.payload.length ∨ f.op = 2 ∧ f.readLen ≤ 2 ^ 24 ∧ len = f.readLen) →
        m.windowCheck { herd := c / 256, src := some s.m.self, kind := 0, number := port } f.window f.addr len (if f.op = 1 then accWrite else accRead) false none = (z, r) → z.downs = [] → z.tileDowns = [] →
      (∀ st, r = .error st → Runs (.accessFrameReceived t port) s fun n => n.sent = z.sent ++ [.access port 4 f.tag st []] ∧ StoresOf z n) ∧
      (∀ o, r = .ok o → f.window < doorbellBase →
        (f.op = 1 → Runs (.accessFrameReceived t port) s fun n => StoresOf (z.writeSegs o.herd o.asid 10 port f.tag false o.segs f.payload) n) ∧
        (∀ y d, f.op = 2 → z.readSegs o.segs = (y, d) → y.downs = [] → y.tileDowns = [] → d.length ≤ 16384 →
          Runs (.accessFrameReceived t port) s fun n => n.sent = y.sent ++ [.access port 3 f.tag 0 d] ∧ StoresOf y n)) ∧
      (∀ o, r = .ok o → doorbellBase ≤ f.window → (len ≠ 4 ∨ f.addr % 4 ≠ 0) →
        (f.op = 1 → Runs (.accessFrameReceived t port) s fun n => n.sent = z.sent ∧ RegsBut (fun _ => False) z n ∧ StoresOf z n) ∧
        (f.op = 2 → len ≤ 16384 → Runs (.accessFrameReceived t port) s fun n => n.sent = z.sent ++ [.access port 3 f.tag 0 (List.replicate len 0)] ∧ StoresOf z n)))) ∧
  (∀ (s : State) (t port tag : Nat) (rest : List RxKind), s.m.Inv → s.m.Running → (s.m.pt port).inq = .landed tag :: rest →
      (∀ w ∈ (s.m.pt port).writes, seqLe w.1 tag = true → ∀ r ∈ s.m.mem.writes, r.id = w.2.2 → r.kind ≠ 2) →
    Runs (.landedReceived t port) s fun n =>
      (n.pt port).inq = rest ∧ (n.pt port).writes = (s.m.pt port).writes.filter (fun w => !seqLe w.1 tag) ∧
      n.mem.writes = s.m.mem.writes.filter (fun r => !(s.m.pt port).writes.any (fun w => seqLe w.1 tag && w.2.2 == r.id)) ∧ Frame (fun _ => False) s.m n) ∧
  (∀ (s : State) (t port : Nat), s.m.Inv → s.m.Running →
    ((∀ w ∈ (s.m.pt port).writes, (s.m.advance t).now < w.2.1 + s.m.leaseAt w.2.1) →
      Runs (.accelAckTimeout t port) s fun n => n.ports = s.m.ports ∧ n.mem = s.m.mem ∧ Frame (fun _ => False) s.m n) ∧
    (∀ w rest r, (s.m.pt port).writes = w :: rest → w.2.1 + s.m.leaseAt w.2.1 ≤ (s.m.advance t).now → s.m.mem.writes.find? (fun r => r.id == w.2.2) = some r →
      (r.kind ∉ [1, 2, 3, 4, 5, 7] →
        Runs (.accelAckTimeout t port) s fun n =>
          (n.pt port).writes = rest ∧ n.mem.writes = s.m.mem.writes.filter (fun r => r.id != w.2.2) ∧ Frame (fun _ => False) s.m n) ∧
      (∀ l, r.kind = 5 → s.m.launch? r.chan = some l → l.fail = none →
        Runs (.accelAckTimeout t port) s fun n =>
          n.launch? r.chan = some { l with fail := some (stRemoteTimeout, 0) } ∧ (n.pt port).writes = rest ∧ n.mem.writes = s.m.mem.writes.filter (fun r => r.id != w.2.2) ∧
          Frame (fun _ => False) s.m n) ∧
      (∀ f q, (r.kind = 3 ∧ f = F.QE_CQ_STATUS_RING_FAULT ∧ q = r.chan / 65536 ∨ r.kind = 4 ∧ f = F.QE_EQ_STATUS_RING_FAULT ∧ q = r.chan) →
        Runs (.accelAckTimeout t port) s fun n =>
          n.bit f 0 q = true ∧ (n.pt port).writes = rest ∧ n.mem.writes = s.m.mem.writes.filter (fun r => r.id != w.2.2) ∧
          n.get F.FLT_SRC_EVENTS 0 srcQe = min (s.m.get F.FLT_SRC_EVENTS 0 srcQe + 1) (2 ^ 32 - 1) ∧ Frame (fun k => fltKey k ∨ k = keyOf f 0 q) s.m n)))

/-- Writes of registers (00_scope.md R7, R8, R10, R12). A write of a register that commands nothing sets its RW fields, clears the W1C bits written as 1 and leaves the rest; a Frozen field
of an enabled block stays, and FROZEN_WRITE says so; LO of a pair is held back until a write of HI, which sets both; nothing else changes. A misaligned or partial access does nothing and reads 0, and by the model's choice
(notes/assumptions/10) is no fault event; nor is an access that is not served (the model's choice, notes/assumptions/14); a write of a page whose herd is DESTROYING is dropped and captured. A read of a counter that no row advances is free
(the model's choice, notes/assumptions/113) and changes no register.
Where the spec leaves a point open, the model's choices hold: notes/assumptions 10 to 14. -/
def Obligations.RegisterWrites : Prop :=
  (∀ (s : State) (p : Path) (addr : Nat) (w : Word) (l : Loc) (e k v : Nat), s.m.Inv → addr % 4 = 0 → addr ∉ [0x1006C, 0x10080, 0x20100, 0x40004, 0x4000C, 0x3D00000] →
      s.m.served p addr = true → s.m.reaches p addr = true → (∀ h, 0 < h → h < 256 → herdPage h ≤ addr → addr < herdPage (h + 1) → s.m.herdState h ≠ 4) →
      s.m.locate p addr = some l → l.elem = some e → l.key = some k → (∀ f ∈ l.info.fields, f.chg ≠ .staged) → v = Mach.forceHerd l.v l.addr w.toNat →
      (s.m.get F.CIPH_STATUS_PRESENT ≠ 0 ∨ l.addr < 0x3A00000 ∨ 0x3B00000 ≤ l.addr) → s.m.poolsOver l.addr v = false → s.m.pageOwns l = true → s.m.writeCommand false l v = none →
    (l.info.pair = .none →
      Runs (.registerWrite p addr w) s fun n =>
        (∀ f ∈ l.info.fields,
          (f.acc = .rw → f.chg ≠ .frozen ∨ s.m.frozenBy l.addr e = false → getBits (n.reg k).toNat f.lo (f.hi - f.lo + 1) = getBits v f.lo (f.hi - f.lo + 1)) ∧
          (f.acc = .rw → f.chg = .frozen → s.m.frozenBy l.addr e = true →
            getBits (n.reg k).toNat f.lo (f.hi - f.lo + 1) = getBits (s.m.reg k).toNat f.lo (f.hi - f.lo + 1) ∧
            (getBits (s.m.reg k).toNat f.lo (f.hi - f.lo + 1) ≠ getBits v f.lo (f.hi - f.lo + 1) → n.bit F.CFG_STATUS_FROZEN_WRITE = true)) ∧
          (f.acc = .w1c → getBits (n.reg k).toNat f.lo (f.hi - f.lo + 1) =
            getBits (s.m.reg k).toNat f.lo (f.hi - f.lo + 1) &&& (getBits (s.m.reg k).toNat f.lo (f.hi - f.lo + 1) ^^^ getBits v f.lo (f.hi - f.lo + 1))) ∧
          (f.acc ≠ .rw → f.acc ≠ .w1c → getBits (n.reg k).toNat f.lo (f.hi - f.lo + 1) = getBits (s.m.reg k).toNat f.lo (f.hi - f.lo + 1))) ∧
        Frame (fun x => x = k ∨ x = keyOf F.CFG_STATUS_FROZEN_WRITE ∨ x = keyOf F.CFG_FROZEN_ADDR) s.m n) ∧
    (l.info.pair = .lo → Mach.pairRw l = true →
      Runs (.pairLoWrite p addr w) s fun n =>
        alGet n.shadow (ownKey l.v l.addr) = some (BitVec.ofNat 32 v) ∧ (∀ j, j ≠ ownKey l.v l.addr → alGet n.shadow j = alGet s.m.shadow j) ∧ Frame (fun _ => False) s.m n) ∧
    (l.info.pair = .hi → (∀ f ∈ l.info.fields ++ (Mach.loHalf l).info.fields, f.acc = .rw ∧ f.chg = .live) → l.info.fields ≠ [] → l.addr ≠ F.CHU_SEED_HI.addr → 4 ≤ k →
      Runs (.pairHiWrite p addr w) s fun n =>
        (∀ f ∈ l.info.fields, getBits (n.reg k).toNat f.lo (f.hi - f.lo + 1) = getBits v f.lo (f.hi - f.lo + 1)) ∧
        (∀ f ∈ (Mach.loHalf l).info.fields, getBits (n.reg (k - 4)).toNat f.lo (f.hi - f.lo + 1) =
          getBits ((alGet s.m.shadow (ownKey l.v (l.addr - 4))).getD (s.m.reg (k - 4))).toNat f.lo (f.hi - f.lo + 1)) ∧
        alGet n.shadow (ownKey { l.v with path := .mgmt } (l.addr - 4)) = none ∧ alGet n.shadow (ownKey { l.v with path := .fabric 0 } (l.addr - 4)) = none ∧
        Frame (fun x => x = k ∨ x = k - 4) s.m n)) ∧
  (∀ (s : State) (p : Path) (addr size : Nat) (isWrite : Bool) (w : Word), s.m.Inv → (size ≠ 4 ∨ addr % 4 ≠ 0) →
    Runs (.misalignedRegisterAccess p addr size isWrite w) s fun n =>
      (isWrite = false → n.answer = 0) ∧ (isWrite = true → n.answer = s.m.answer) ∧ n.flt = s.m.flt ∧ n.latch = s.m.latch ∧ n.shadow = s.m.shadow ∧ Frame (fun _ => False) s.m n) ∧
  (∀ (s : State) (p : Path) (addr src : Nat) (w : Word), s.m.Inv → addr % 4 = 0 → src = (if p = .mgmt then srcRegMgmt else srcRegFabric) →
    (s.m.served p addr = false →
      (Runs (.unoccupiedRegisterAccess p addr true w) s fun n => n.flt = s.m.flt ∧ Frame (fun _ => False) s.m n) ∧
      (Runs (.unoccupiedRegisterAccess p addr false w) s fun n => n.answer = 0 ∧ n.flt = s.m.flt ∧ Frame (fun _ => False) s.m n)) ∧
    (∀ h, 0 < h → h < 256 → herdPage h ≤ addr → addr < herdPage (h + 1) → s.m.herdState h = 4 → s.m.served p addr = true →
      Runs (.registerWrite p addr w) s fun n => n.get F.FLT_SRC_EVENTS 0 src = min (s.m.get F.FLT_SRC_EVENTS 0 src + 1) (2 ^ 32 - 1) ∧ Frame fltKey s.m n)) ∧
  (∀ (s : State) (p : Path) (addr : Nat) (m : Mach) (l : Loc) (c : Instr), s.m.Inv → m = s.m.putAnswer 0 → addr % 4 = 0 → m.served p addr = true → m.reaches p addr = true →
      m.locate p addr = some l → Mach.uncounted l.addr = true → c ∈ [Instr.pairLoRead p addr, Instr.readClearRegister p addr] →
    Runs c s fun n => n.latch = s.m.latch ∧ n.shadow = s.m.shadow ∧ Frame (fun _ => False) s.m n)

/-- Reads of registers, and accesses that reach none (00_scope.md R7 to R10; 14_herds.md R358; 20_register_index.md R481). A read returns what the register shows and clears its RC fields;
LO of a pair also latches HI, which the next read of HI returns; an access at an unoccupied address, or outside its path's reach, is
dropped or reads 0, and is captured as a register-access fault; what a page's alias may not name is dropped with FOREIGN. -/
def Obligations.RegisterReads : Prop :=
  (∀ (s : State) (p : Path) (addr : Nat) (m : Mach) (l : Loc) (e k : Nat) (c : Instr), s.m.Inv → m = s.m.putAnswer 0 → addr % 4 = 0 → m.served p addr = true →
      m.reaches p addr = true → m.locate p addr = some l → l.elem = some e → l.key = some k → (s.m.get F.CIPH_STATUS_PRESENT ≠ 0 ∨ l.addr < 0x3A00000 ∨ 0x3B00000 ≤ l.addr) →
      m.pageOwns l = true → Mach.uncounted l.addr = false → c ∈ [Instr.pairLoRead p addr, Instr.readClearRegister p addr] →
    (l.info.pair = .none →
      Runs c s fun n =>
        n.answer = BitVec.ofNat 32 (m.readWord l) ∧
        (∀ f ∈ l.info.fields, getBits (n.reg k).toNat f.lo (f.hi - f.lo + 1) = if f.acc = .rc then 0 else getBits (s.m.reg k).toNat f.lo (f.hi - f.lo + 1)) ∧
        Frame (fun x => x = k ∧ ∃ f ∈ l.info.fields, f.acc = .rc) s.m n) ∧
    (l.info.pair = .lo → l.addr ≠ F.CIPH_PAGE_REKEY_LO.addr →
      Runs c s fun n =>
        n.answer = BitVec.ofNat 32 (m.readWord l) ∧ alGet n.latch (ownKey l.v l.addr) = some (BitVec.ofNat 32 (m.readWord (Mach.hiHalf' l))) ∧
        (∀ f ∈ l.info.fields, f.acc = .rc → getBits (n.reg k).toNat f.lo (f.hi - f.lo + 1) = 0) ∧
        (∀ f ∈ (Mach.hiHalf' l).info.fields, f.acc = .rc → getBits (n.reg (k + 4)).toNat f.lo (f.hi - f.lo + 1) = 0) ∧
        Frame (fun x => (x = k ∨ x = k + 4) ∧ ∃ f ∈ l.info.fields ++ (Mach.hiHalf' l).info.fields, f.acc = .rc) s.m n) ∧
    (l.info.pair = .hi →
      (∀ x, alGet s.m.latch (ownKey l.v (l.addr - 4)) = some x →
        Runs c s fun n => n.answer = x ∧ alGet n.latch (ownKey l.v (l.addr - 4)) = none ∧ Frame (fun _ => False) s.m n) ∧
      (alGet s.m.latch (ownKey l.v (l.addr - 4)) = none → Runs c s fun n => n.answer = BitVec.ofNat 32 (m.readWord l) ∧ Frame (fun _ => False) s.m n))) ∧
  (∀ (s : State) (p : Path) (addr src : Nat) (w : Word), s.m.Inv → addr % 4 = 0 → src = (if p = .mgmt then srcRegMgmt else srcRegFabric) →
    (s.m.served p addr = true → (regInfo (resolve p addr).2 = none ∨ s.m.reaches p addr = false) →
      (∀ c ∈ [Instr.registerWrite p addr w, Instr.unoccupiedRegisterAccess p addr true w],
        Runs c s fun n =>
          n.get F.FLT_SRC_EVENTS 0 src = min (s.m.get F.FLT_SRC_EVENTS 0 src + 1) (2 ^ 32 - 1) ∧ n.cfg = s.m.cfg ∧ n.shadow = s.m.shadow ∧
          (s.m.flt.queue.length < 512 → ∃ r ∈ n.flt.queue, (r.getD 0 0).toNat / 2 ^ 8 % 2 ^ 9 = src ∧ (r.getD 0 0).toNat / 2 ^ 17 % 8 = 6 ∧ r.getD 2 0 = BitVec.ofNat 32 addr) ∧
          Frame fltKey s.m n) ∧
      (Runs (.unoccupiedRegisterAccess p addr false w) s fun n =>
        n.answer = 0 ∧ n.get F.FLT_SRC_EVENTS 0 src = min (s.m.get F.FLT_SRC_EVENTS 0 src + 1) (2 ^ 32 - 1) ∧ n.latch = s.m.latch ∧
        (s.m.flt.queue.length < 512 → ∃ r ∈ n.flt.queue, (r.getD 0 0).toNat / 2 ^ 8 % 2 ^ 9 = src ∧ (r.getD 0 0).toNat / 2 ^ 17 % 8 = 5 ∧ r.getD 2 0 = BitVec.ofNat 32 addr) ∧
        Frame fltKey s.m n)) ∧
    (∀ l h, s.m.served p addr = true → s.m.reaches p addr = true → s.m.locate p addr = some l → l.v.page = some h → (h = 0 ∨ s.m.herdState h ≠ 4) → s.m.pageOwns l = false →
      Runs (.registerWrite p addr w) s fun n =>
        n.reg (herdPage h + 0x9004) = 1 ∧ n.get F.FLT_SRC_EVENTS 0 src = min (s.m.get F.FLT_SRC_EVENTS 0 src + 1) (2 ^ 32 - 1) ∧
        Frame (fun x => fltKey x ∨ x = herdPage h + 0x9004) s.m n))

/-- The SMBus and the test access port (19_module_hardware.md R473, R478). A Block Read at the module's address returns a count of 4, the register's bytes and a PEC byte, or zeros while
only some commands answer; another command is not acknowledged, another address not answered. BYPASS delays by one bit; SAMPLE/PRELOAD shifts the pins out and a load in; IDCODE carries PART
and STEPPING; the EXTEST instructions drive the pins while SYS_RESET_L is low, and are BYPASS else; in STANDBY the port is unpowered.
Where the spec leaves a point open, the model's choices hold: notes/assumptions 108 to 110. -/
def Obligations.TestAccess : Prop :=
  (∀ (s : State) (t straps addr cmd : Nat), s.m.Inv →
    (s.m.clk.off = true ∧ s.m.clk.stby = false ∨ addr ≠ 0x58 + straps % 8 → Runs (.smbusBlockRead t straps addr cmd) s fun n => n.sent = s.m.sent ∧ Frame (fun _ => False) s.m n) ∧
    ((s.m.clk.off = false ∨ s.m.clk.stby = true) → addr = 0x58 + straps % 8 →
      (cmd = 0 ∨ 6 < cmd → Runs (.smbusBlockRead t straps addr cmd) s fun n => n.sent = s.m.sent ++ [.smbus none] ∧ Frame (fun _ => False) s.m n) ∧
      (∀ a v, (cmd, a) ∈ [(1, F.ID_PART_PART.addr), (2, F.CLK_STATUS_REF.addr), (3, F.CLK_BOOT_STEP.addr), (4, F.CLK_RESET_CAUSE_INPUT.addr), (5, F.CLK_TEMP_DIE_MAX.addr), (6, F.CLK_PWR_VIN.addr)] →
          v = (if (s.m.asleep = true ∨ s.m.halted = true ∧ s.m.get F.CLK_BOOT_STEP = 2) ∧ cmd ∉ [1, 2, 4] then 0
            else (s.m.reg a).toNat + if cmd = 3 then min 0xFFFF (((s.m.advance t).now - s.m.clk.bootAt) / ms) * 256 else 0) →
        Runs (.smbusBlockRead t straps addr cmd) s fun n =>
          n.sent = s.m.sent ++ [.smbus (some ((4 :: leBytes 4 v) ++ [BitVec.ofNat 8 (pec ([addr * 2, cmd, addr * 2 + 1, 4] ++ (leBytes 4 v).map (fun b => b.toNat)))]))] ∧
          Frame (fun _ => False) s.m n))) ∧
  (∀ (s : State) (t : Nat) (pins tdi : List Bool), s.m.Inv →
    (s.m.asleep = true → ∀ low, ∀ c ∈ [Instr.bypass t tdi, .samplePreload t pins tdi, .idcode t, .extest t low tdi, .extestPulse t low tdi, .extestTrain t low tdi],
      Runs c s fun n => n.sent = s.m.sent ∧ n.clk = s.m.clk ∧ Frame (fun _ => False) s.m n) ∧
    (s.m.asleep = false →
      (∀ c ∈ [Instr.bypass t tdi, .extest t false tdi, .extestPulse t false tdi, .extestTrain t false tdi],
        Runs c s fun n =>
          n.sent = s.m.sent ++ [.tdo ((false :: tdi).dropLast)] ∧
          n.clk = { s.m.clk with tap := 1, tck := some (s.m.advance t).now, bypassBit := (false :: tdi).getLastD false } ∧ Frame (fun _ => False) s.m n) ∧
      (Runs (.samplePreload t pins tdi) s fun n =>
        n.sent = s.m.sent ++ [.tdo ((pins ++ tdi).take tdi.length)] ∧
        n.clk = { s.m.clk with tap := 2, tck := some (s.m.advance t).now, boundary := (pins ++ tdi).drop tdi.length } ∧ Frame (fun _ => False) s.m n) ∧
      (Runs (.idcode t) s fun n =>
        (∃ x, x < 4096 ∧ n.sent = s.m.sent ++
          [.tdo ((List.range 32).map (fun i => (x + s.m.get F.ID_PART_PART * 4096 + s.m.get F.ID_PART_STEPPING % 16 * 2 ^ 28).testBit i))]) ∧
        n.clk = { s.m.clk with tap := 3, tck := some (s.m.advance t).now } ∧ Frame (fun _ => False) s.m n) ∧
      (∀ c kind, (c, kind) ∈ [(Instr.extest t true tdi, 0), (.extestPulse t true tdi, 1), (.extestTrain t true tdi, 2)] →
        Runs c s fun n =>
          ∃ seen : List Bool, seen.length = s.m.clk.boundary.length ∧
            n.sent = s.m.sent ++ [.pins kind s.m.clk.boundary, .tdo ((seen ++ tdi).take tdi.length), .pins kind ((seen ++ tdi).drop tdi.length)] ∧
            n.clk = { s.m.clk with tap := 4 + kind, tck := some (s.m.advance t).now, boundary := (seen ++ tdi).drop tdi.length } ∧ Frame (fun _ => False) s.m n)))

/-- The queue of commands (the block's own step). With a command at the front, a step is that command's effect with the rest of the queue; on an empty queue one unit of 62.5 ps of local
time passes, polder time follows it, and nothing else changes (the model's choice, notes/assumptions/1.md); a word of the opcode table spells no command, for the table gives no bits. -/
def Obligations.StepRunsFront : Prop :=
  (∀ (s : State) (c : Instr) (rest : List Instr), s.pending = c :: rest → step s = exec c { s with pending := rest }) ∧
  (∀ (s : State) (c : Instr) (rest : List Instr), s.pending = c :: rest → ∃ t, step s = .next t ∧ t.pending = rest) ∧
  (∀ s : State, s.m.Inv → s.pending = [] →
    ∃ t, step s = .next t ∧ t.pending = [] ∧ t.m.now = s.m.now + 1 ∧ t.m.polder = (s.m.advance (s.m.now + 1)).polder ∧ Frame (fun _ => False) s.m t.m ∧ t.m.sent = s.m.sent ∧
      t.m.evq = s.m.evq) ∧
  (∀ (s : State) (nbits w : Nat), decodeTableWord nbits w = none ∧ s.withFetchWord nbits w = s)

/-- The state after reset (00_scope.md R10; 01_architecture.md R32; 17_clocks_power_reset.md R424, R429). No command waits; the identity registers hold the values of the variant that the
model takes (ZW-960-A, notes/assumptions/33.md); the boot stands at step 1; every herd but 0 is FREE, every port DISABLED, every bank EMPTY, every source NORMAL, every
key page and queue pair FREE; and every register reads its reset value.
Where the spec leaves a point open, the model's choices hold: notes/assumptions 33, 41 to 43. -/
def Obligations.ResetValues : Prop :=
  State.reset.pending = [] ∧ State.reset.m.get F.ID_PART_PART = 0x960 ∧ State.reset.m.get F.ID_PART_VARIANT = 0x41 ∧ State.reset.m.get F.ID_PART_STEPPING = 1 ∧
  State.reset.m.get F.CLK_BOOT_STEP = 1 ∧ State.reset.m.failStop = false ∧ State.reset.m.halted = false ∧ State.reset.m.asleep = false ∧ (∀ h, h ≠ 0 → h < 256 → State.reset.m.herdState h = 0) ∧
  (∀ p, p < 32 → State.reset.m.lkState p = 0 ∧ State.reset.m.bit F.PORT_CTL_ENABLE p = false) ∧ (∀ b, b < 2 → State.reset.m.bankState b = 0) ∧
  (∀ x, x < 320 → State.reset.m.srcState x = 0 ∧ (State.reset.m.src x).handling = .none) ∧ (∀ g, g < 1024 → State.reset.m.keyState g = 0) ∧ (∀ q, q < 1024 → State.reset.m.qpState q = 0) ∧
  State.reset.m.polder = 0 ∧ State.reset.m.evq = [] ∧ State.reset.m.sent = [] ∧ (∀ (st : Store) (a : Nat), memGet (State.reset.m.base st) a = 0) ∧
  (∀ a, regInfo a ≠ none → a < 0x800000 → State.reset.m.reg a = regReset .zw960a a)

/-- The invariant at reset: every store in its canonical form, and nothing of a command left over. -/
def Obligations.ResetKeepsInvariant : Prop := State.reset.m.Inv

/-- The invariant is kept by every step from every state: whichever command stands at the front, or on an empty queue, the four stores keep their canonical form (addresses rising, no entry
equal to what an unlisted address reads as), and no store change, no loss of a link or tile and no answer owed to the fabric is left over from the command. -/
def Obligations.StepKeepsInvariant : Prop :=
  (∀ s t : State, s.m.Inv → step s = .next t → t.m.Inv) ∧ (∀ (c : Instr) (s t : State), s.m.Inv → exec c s = .next t → t.m.Inv)

end
end

