-- ==== Sys2Proof/Laws/Memory.lean ====
section
/-! SUPPORT. Laws of the byte stores: every operation keeps the canonical form, and what a byte reads as after it. -/
namespace Sys2Proof.Machine

/-- The canonical form as an order of addresses and no zero byte. -/
theorem Memory.wf_iff (l : Memory) : Memory.wf l = true ↔ l.Pairwise (fun x y => x.1 < y.1) ∧ ∀ c ∈ l, c.2 ≠ 0 := by
  induction l with
  | nil => simp [Memory.wf]
  | cons p r ih =>
    obtain ⟨a, b⟩ := p
    cases r with
    | nil => simp [Memory.wf]
    | cons q r =>
      obtain ⟨c, d⟩ := q
      have step : Memory.wf ((a, b) :: (c, d) :: r) = true ↔ (a < c ∧ b ≠ 0) ∧ Memory.wf ((c, d) :: r) = true := by
        simp [Memory.wf, and_assoc]
      rw [step, ih]
      constructor
      · rintro ⟨⟨h1, h2⟩, h3, h4⟩
        refine ⟨List.pairwise_cons.2 ⟨?_, h3⟩, ?_⟩
        · intro x hx
          rcases List.mem_cons.1 hx with e | hx
          · subst e; exact h1
          · exact lt_trans h1 ((List.pairwise_cons.1 h3).1 x hx)
        · intro x hx
          rcases List.mem_cons.1 hx with e | hx
          · subst e; exact h2
          · exact h4 x hx
      · rintro ⟨h1, h2⟩
        obtain ⟨h3, h4⟩ := List.pairwise_cons.1 h1
        exact ⟨⟨h3 (c, d) (by simp), h2 (a, b) (by simp)⟩, h4, fun x hx => h2 x (List.mem_cons_of_mem _ hx)⟩

theorem memPut_mem {mem : Memory} {a : Nat} {b : Byte} {c : Host.Cell} (h : c ∈ memPut mem a b) : (c = (a, b) ∧ b ≠ 0) ∨ c ∈ mem := by
  induction mem with
  | nil =>
    simp only [memPut] at h
    split at h
    · simp at h
    · rename_i hb
      exact .inl ⟨by simpa using h, hb⟩
  | cons p r ih =>
    obtain ⟨k, w⟩ := p
    simp only [memPut] at h
    split at h
    · split at h
      · exact .inr h
      · rename_i hb
        rcases List.mem_cons.1 h with e | h
        · exact .inl ⟨e, hb⟩
        · exact .inr h
    · split at h
      · split at h
        · exact .inr (List.mem_cons_of_mem _ h)
        · rename_i hb
          rcases List.mem_cons.1 h with e | h
          · exact .inl ⟨e, hb⟩
          · exact .inr (List.mem_cons_of_mem _ h)
      · rcases List.mem_cons.1 h with e | h
        · exact .inr (by simp [e])
        · rcases ih h with h | h
          · exact .inl h
          · exact .inr (List.mem_cons_of_mem _ h)

/-- Writing a byte keeps the canonical form. -/
theorem memPut_wf {mem : Memory} (h : Memory.wf mem = true) (a : Nat) (b : Byte) : Memory.wf (memPut mem a b) = true := by
  rw [Memory.wf_iff] at h ⊢
  refine ⟨?_, fun c hc => ?_⟩
  · have hp := h.1
    clear h
    induction mem with
    | nil => simp only [memPut]; split <;> simp
    | cons p r ih =>
      obtain ⟨k, w⟩ := p
      obtain ⟨h1, h2⟩ := List.pairwise_cons.1 hp
      simp only [memPut]
      split
      · rename_i hak
        split
        · exact hp
        · refine List.pairwise_cons.2 ⟨fun x hx => ?_, hp⟩
          rcases List.mem_cons.1 hx with e | hx
          · subst e; exact hak
          · exact lt_trans hak (h1 x hx)
      · split
        · rename_i e
          subst e
          split
          · exact h2
          · exact List.pairwise_cons.2 ⟨h1, h2⟩
        · refine List.pairwise_cons.2 ⟨fun x hx => ?_, ih h2⟩
          rcases memPut_mem hx with ⟨e, _⟩ | hx
          · subst e
            show k < a
            omega
          · exact h1 x hx
  · rcases memPut_mem hc with ⟨e, hb⟩ | hc
    · subst e; exact hb
    · exact h.2 c hc

/-- Writing bytes keeps the canonical form. -/
theorem memWrite_wf {mem : Memory} (h : Memory.wf mem = true) (a : Nat) (d : List Byte) : Memory.wf (memWrite mem a d) = true := by
  induction d generalizing mem a with
  | nil => exact h
  | cons b bs ih => exact ih (memPut_wf h a b) (a + 1)

/-- Setting a range to zero keeps the canonical form. -/
theorem memZero_wf {mem : Memory} (h : Memory.wf mem = true) (lo len : Nat) : Memory.wf (memZero mem lo len) = true := by
  rw [Memory.wf_iff] at h ⊢
  exact ⟨h.1.filter _, fun c hc => h.2 c (List.mem_of_mem_filter hc)⟩

/-- Every change of a store keeps its canonical form. -/
theorem MemOp.apply_wf (st : Store) {mem : Memory} (h : Memory.wf mem = true) (op : MemOp) : Memory.wf (op.apply st mem) = true := by
  cases op with
  | bytes s a d => simp only [MemOp.apply]; split
                   · exact memWrite_wf h a d
                   · exact h
  | zero s lo len => simp only [MemOp.apply]; split
                     · exact memZero_wf h lo len
                     · exact h

/-- Every list of changes of a store keeps its canonical form. -/
theorem applyAll_wf (st : Store) {mem : Memory} (h : Memory.wf mem = true) (ops : List MemOp) :
    Memory.wf (ops.foldr (fun op m => op.apply st m) mem) = true := by
  induction ops with
  | nil => exact h
  | cons op r ih => exact MemOp.apply_wf st ih op

/-! ## What a byte reads as -/

theorem alGet_none_of_lt {mem : Memory} {a : Nat} (h : ∀ c ∈ mem, a < c.1) : alGet mem a = none := by
  induction mem with
  | nil => rfl
  | cons p r ih =>
    obtain ⟨k, w⟩ := p
    have hk : a < k := h (k, w) (by simp)
    simp only [alGet, if_neg (show ¬ a = k by omega)]
    exact ih (fun c hc => h c (List.mem_cons_of_mem _ hc))

/-- A byte written reads back. -/
theorem memGet_memPut_same {mem : Memory} (h : Memory.wf mem = true) (a : Nat) (b : Byte) : memGet (memPut mem a b) a = b := by
  rw [Memory.wf_iff] at h
  have hp := h.1
  clear h
  induction mem with
  | nil =>
    simp only [memPut]
    split
    · rename_i e; simp [memGet, alGet, e]
    · simp [memGet, alGet]
  | cons p r ih =>
    obtain ⟨k, w⟩ := p
    obtain ⟨h1, h2⟩ := List.pairwise_cons.1 hp
    simp only [memPut]
    split
    · rename_i hak
      split
      · rename_i e
        have : alGet ((k, w) :: r) a = none := alGet_none_of_lt (by
          intro c hc
          rcases List.mem_cons.1 hc with e | hc
          · subst e; exact hak
          · exact lt_trans hak (h1 c hc))
        simp [memGet, this, e]
      · simp [memGet, alGet]
    · split
      · rename_i e
        subst e
        split
        · rename_i e
          simp [memGet, alGet_none_of_lt h1, e]
        · simp [memGet, alGet]
      · rename_i hne
        simp only [memGet, alGet, if_neg hne]
        exact ih h2

/-- Every other byte reads as before. -/
theorem memGet_memPut_ne (mem : Memory) {a x : Nat} (b : Byte) (h : x ≠ a) : memGet (memPut mem a b) x = memGet mem x := by
  induction mem with
  | nil => simp only [memPut]; split <;> simp [memGet, alGet, h]
  | cons p r ih =>
    obtain ⟨k, w⟩ := p
    simp only [memPut]
    split
    · split
      · rfl
      · simp [memGet, alGet, h]
    · split
      · rename_i e
        subst e
        split <;> simp [memGet, alGet, h]
      · simp only [memGet, alGet] at ih ⊢
        split
        · rfl
        · exact ih

/-- A byte outside the range written reads as before. -/
theorem memGet_memWrite_out (mem : Memory) (a : Nat) (d : List Byte) {x : Nat} (h : x < a ∨ a + d.length ≤ x) :
    memGet (memWrite mem a d) x = memGet mem x := by
  induction d generalizing mem a with
  | nil => rfl
  | cons b bs ih =>
    have hl : (b :: bs).length = bs.length + 1 := rfl
    simp only [memWrite]
    rw [ih _ _ (by omega), memGet_memPut_ne _ _ (by omega)]

/-- A byte of the range written reads the byte written. -/
theorem memGet_memWrite_in {mem : Memory} (hw : Memory.wf mem = true) (a : Nat) (d : List Byte) {i : Nat} (h : i < d.length) :
    memGet (memWrite mem a d) (a + i) = d[i] := by
  induction d generalizing mem a i with
  | nil => simp at h
  | cons b bs ih =>
    simp only [memWrite]
    cases i with
    | zero => rw [memGet_memWrite_out _ _ _ (by omega)]; exact memGet_memPut_same hw a b
    | succ i =>
      have : a + (i + 1) = a + 1 + i := by omega
      rw [this, ih (memPut_wf hw a b) (a + 1) (by simpa using h)]
      rfl

end Sys2Proof.Machine
end

