-- ==== Sys2Proof/Laws/Ops.lean ====
section
/-! SUPPORT. Laws of tables keyed by a number, of bit fields and of the register file. -/
namespace Sys2Proof.Machine

/-! ## Tables -/

theorem alGet_alPut_same {α : Type} (l : List (Nat × α)) (a : Nat) (v : α) : alGet (alPut l a v) a = some v := by
  induction l with
  | nil => simp [alPut, alGet]
  | cons p r ih =>
    obtain ⟨k, w⟩ := p
    simp only [alPut]
    split
    · simp [alGet]
    · split
      · simp [alGet]
      · rename_i h _
        simp [alGet, h, ih]

theorem alGet_alPut_ne {α : Type} (l : List (Nat × α)) {a b : Nat} (v : α) (h : b ≠ a) : alGet (alPut l a v) b = alGet l b := by
  induction l with
  | nil => simp [alPut, alGet, h]
  | cons p r ih =>
    obtain ⟨k, w⟩ := p
    simp only [alPut]
    split
    · rename_i e
      subst e
      simp [alGet, h]
    · split
      · simp [alGet, h]
      · simp [alGet, ih]

theorem alGet_alDel_same {α : Type} (l : List (Nat × α)) (a : Nat) : alGet (alDel l a) a = none := by
  induction l with
  | nil => rfl
  | cons p r ih =>
    obtain ⟨k, w⟩ := p
    by_cases h : k = a
    · simpa [alDel, h] using ih
    · simp only [alDel, List.filter_cons, bne_iff_ne, ne_eq, h, not_false_eq_true, if_true, alGet, if_neg (Ne.symm h)] at ih ⊢
      exact ih

theorem alGet_alDel_ne {α : Type} (l : List (Nat × α)) {a b : Nat} (h : b ≠ a) : alGet (alDel l a) b = alGet l b := by
  induction l with
  | nil => rfl
  | cons p r ih =>
    obtain ⟨k, w⟩ := p
    by_cases e : k = a
    · subst e
      simpa [alDel, alGet, h] using ih
    · have : alDel ((k, w) :: r) a = (k, w) :: alDel r a := by simp [alDel, e]
      simp [this, alGet, ih]

/-! ## Bit fields -/

theorem getBits_lt (n lo wd : Nat) : getBits n lo wd < 2 ^ wd := Nat.mod_lt _ (Nat.two_pow_pos wd)

theorem getBits_testBit (n lo wd i : Nat) : (getBits n lo wd).testBit i = (decide (i < wd) && n.testBit (lo + i)) := by
  simp only [getBits, Nat.testBit_mod_two_pow, Nat.testBit_div_two_pow]
  rw [Nat.add_comm]

theorem putBits_testBit (n lo wd v i : Nat) :
    (putBits n lo wd v).testBit i =
      if i < lo then n.testBit i else if i < lo + wd then v.testBit (i - lo) else n.testBit i := by
  have e : putBits n lo wd v = 2 ^ lo * (2 ^ wd * (n / 2 ^ (lo + wd)) + v % 2 ^ wd) + n % 2 ^ lo := by
    simp only [putBits, Nat.pow_add]
    ring
  rw [e, Nat.testBit_two_pow_mul_add _ (Nat.mod_lt _ (Nat.two_pow_pos lo)), Nat.testBit_two_pow_mul_add _ (Nat.mod_lt _ (Nat.two_pow_pos wd))]
  by_cases h : i < lo
  · simp [h, Nat.testBit_mod_two_pow]
  · by_cases g : i < lo + wd
    · have : i - lo < wd := by omega
      simp [h, g, this, Nat.testBit_mod_two_pow]
    · have : ¬ i - lo < wd := by omega
      simp only [h, g, this, if_false, Nat.testBit_div_two_pow]
      congr 1
      omega

/-- A field that was put reads back. -/
theorem getBits_putBits_same (n lo wd v : Nat) : getBits (putBits n lo wd v) lo wd = v % 2 ^ wd := by
  apply Nat.eq_of_testBit_eq
  intro i
  rw [getBits_testBit, putBits_testBit, Nat.testBit_mod_two_pow]
  by_cases h : i < wd
  · simp [h]
  · simp [h]

/-- A field that lies apart from the one put is unchanged. -/
theorem getBits_putBits_apart (n lo wd v lo' wd' : Nat) (h : lo' + wd' ≤ lo ∨ lo + wd ≤ lo') :
    getBits (putBits n lo wd v) lo' wd' = getBits n lo' wd' := by
  apply Nat.eq_of_testBit_eq
  intro i
  rw [getBits_testBit, getBits_testBit, putBits_testBit]
  by_cases g : i < wd'
  · rcases h with h | h
    · have : lo' + i < lo := by omega
      simp [g, this]
    · have a : ¬ lo' + i < lo := by omega
      have b : ¬ lo' + i < lo + wd := by omega
      simp [g, a, b]
  · simp [g]

theorem putBits_lt (n lo wd v w : Nat) (hn : n < 2 ^ w) (h : lo + wd ≤ w) : putBits n lo wd v < 2 ^ w := by
  apply Nat.lt_pow_two_of_testBit
  intro i hi
  rw [putBits_testBit]
  have a : ¬ i < lo := by omega
  have b : ¬ i < lo + wd := by omega
  simp only [a, b, if_false]
  exact Nat.testBit_lt_two_pow (Nat.lt_of_lt_of_le hn (Nat.pow_le_pow_right (by omega) hi))

/-! ## The register file -/

namespace Mach

theorem reg_setReg_same (m : Mach) (k : Nat) (w : Word) : (m.setReg k w).reg k = w := by
  simp [reg, setReg, alGet_alPut_same]

theorem reg_setReg_ne (m : Mach) {k j : Nat} (w : Word) (h : j ≠ k) : (m.setReg k w).reg j = m.reg j := by
  simp [reg, setReg, alGet_alPut_ne _ _ h]

theorem reg_setReg (m : Mach) (k j : Nat) (w : Word) : (m.setReg k w).reg j = if j = k then w else m.reg j := by
  by_cases h : j = k
  · subst h
    simp [reg_setReg_same]
  · simp [h, reg_setReg_ne]

/-- A field of a register set as a whole. -/
theorem get_setReg_same (m : Mach) (f : Fld) (i s : Nat) (w : Word) : (m.setReg (fkey f i s) w).get f i s = getBits w.toNat f.lo f.wd := by
  simp [get, reg_setReg_same]

theorem get_setReg_ne (m : Mach) {f : Fld} {i s k : Nat} (w : Word) (h : fkey f i s ≠ k) : (m.setReg k w).get f i s = m.get f i s := by
  simp [get, reg_setReg_ne _ _ h]

theorem set_reg_same (m : Mach) (f : Fld) (v i s : Nat) :
    (m.set f v i s).reg (fkey f i s) = BitVec.ofNat 32 (putBits (m.reg (fkey f i s)).toNat f.lo f.wd v) := by
  simp [set, reg_setReg_same]

/-- Setting a field leaves every other register as it was. -/
theorem set_reg_ne (m : Mach) {f : Fld} {v i s k : Nat} (h : k ≠ fkey f i s) : (m.set f v i s).reg k = m.reg k := by
  simp [set, reg_setReg_ne _ _ h]

/-- A field that was set reads the low bits of the value. -/
theorem get_set_same (m : Mach) (f : Fld) (v i s : Nat) (h : f.lo + f.wd ≤ 32) : (m.set f v i s).get f i s = v % 2 ^ f.wd := by
  have hb : putBits (m.reg (fkey f i s)).toNat f.lo f.wd v < 2 ^ 32 := putBits_lt _ _ _ _ _ (m.reg (fkey f i s)).isLt h
  simp only [get, set_reg_same, BitVec.toNat_ofNat, Nat.mod_eq_of_lt hb, getBits_putBits_same]

/-- A field of another register is unchanged. -/
theorem get_set_ne (m : Mach) {f g : Fld} {v i s j u : Nat} (h : fkey g j u ≠ fkey f i s) : (m.set f v i s).get g j u = m.get g j u := by
  simp [get, set_reg_ne _ h]

/-- A field of the same register that lies apart is unchanged. -/
theorem get_set_apart (m : Mach) {f g : Fld} {v i s j u : Nat} (hk : fkey g j u = fkey f i s) (h : f.lo + f.wd ≤ 32)
    (ha : g.lo + g.wd ≤ f.lo ∨ f.lo + f.wd ≤ g.lo) : (m.set f v i s).get g j u = m.get g j u := by
  have hb : putBits (m.reg (fkey f i s)).toNat f.lo f.wd v < 2 ^ 32 := putBits_lt _ _ _ _ _ (m.reg (fkey f i s)).isLt h
  simp only [get, hk, set_reg_same, BitVec.toNat_ofNat, Nat.mod_eq_of_lt hb, getBits_putBits_apart _ _ _ _ _ _ ha]

/-- A pair that was set reads its 64-bit value. -/
theorem get64_set64_same (m : Mach) (f : Fld) (v i s : Nat) : (m.set64 f v i s).get64 f i s = v % 2 ^ 64 := by
  have h : fkey f i s ≠ fkey f i s + 4 := by omega
  simp only [get64, set64, reg_setReg_same, reg_setReg_ne _ _ h, BitVec.toNat_ofNat]
  omega

/-- Setting a pair leaves every other register as it was. -/
theorem set64_reg_ne (m : Mach) {f : Fld} {v i s k : Nat} (h : k ≠ fkey f i s) (h' : k ≠ fkey f i s + 4) : (m.set64 f v i s).reg k = m.reg k := by
  simp [set64, reg_setReg_ne _ _ h, reg_setReg_ne _ _ h']

end Mach
/-! ## Bytes and checksums -/

theorem leBytes_length (n v : Nat) : (leBytes n v).length = n := by
  induction n generalizing v with
  | zero => rfl
  | succ n ih => simp [leBytes, ih]

theorem leNat_leBytes (n v : Nat) : leNat (leBytes n v) = v % 256 ^ n := by
  induction n generalizing v with
  | zero => simp [leBytes, leNat, Nat.mod_one]
  | succ n ih =>
    simp only [leBytes, leNat, ih, BitVec.toNat_ofNat, Nat.reducePow]
    rw [Nat.pow_succ, Nat.mul_comm (256 ^ n) 256, Nat.mod_mul]

theorem crcByte_lt (poly c b : Nat) (hp : poly < 2 ^ 32) (hc : c < 2 ^ 32) (hb : b < 256) : crcByte poly c b < 2 ^ 32 := by
  have step : ∀ (l : List Nat) (c : Nat), c < 2 ^ 32 → l.foldl (fun c _ => if c % 2 = 1 then (c / 2) ^^^ poly else c / 2) c < 2 ^ 32 := by
    intro l
    induction l with
    | nil => intro c hc; exact hc
    | cons _ l ih =>
      intro c hc
      refine ih _ ?_
      dsimp only
      split
      · exact Nat.xor_lt_two_pow (by omega) hp
      · omega
  exact step _ _ (Nat.xor_lt_two_pow hc (by omega))

theorem crcOf_lt (poly : Nat) (d : List Byte) (hp : poly < 2 ^ 32) : crcOf poly d < 2 ^ 32 := by
  have fold : ∀ (l : List Byte) (c : Nat), c < 2 ^ 32 → l.foldl (fun c b => crcByte poly c b.toNat) c < 2 ^ 32 := by
    intro l
    induction l with
    | nil => intro c hc; exact hc
    | cons b l ih => intro c hc; exact ih _ (crcByte_lt _ _ _ hp hc b.isLt)
  exact Nat.xor_lt_two_pow (fold _ _ (by norm_num)) (by norm_num)

end Sys2Proof.Machine
end

