-- ==== Sys2Proof/Laws/Updates.lean ====
section
/-! SUPPORT. What each named update of one field of the module sets and leaves as it was, each true by unfolding the update once. -/
namespace Sys2Proof.Machine.Mach

/-! ## `putPolder` -/

@[simp] theorem putPolder_variant (m : Mach) (x : DWord) : (m.putPolder x).variant = m.variant := rfl
@[simp] theorem putPolder_now (m : Mach) (x : DWord) : (m.putPolder x).now = m.now := rfl
@[simp] theorem putPolder_polder (m : Mach) (x : DWord) : (m.putPolder x).polder = x := rfl
@[simp] theorem putPolder_rate (m : Mach) (x : DWord) : (m.putPolder x).rate = m.rate := rfl
@[simp] theorem putPolder_rateRem (m : Mach) (x : DWord) : (m.putPolder x).rateRem = m.rateRem := rfl
@[simp] theorem putPolder_freeCtr (m : Mach) (x : DWord) : (m.putPolder x).freeCtr = m.freeCtr := rfl
@[simp] theorem putPolder_regs (m : Mach) (x : DWord) : (m.putPolder x).regs = m.regs := rfl
@[simp] theorem putPolder_tideOld (m : Mach) (x : DWord) : (m.putPolder x).tideOld = m.tideOld := rfl
@[simp] theorem putPolder_refillOld (m : Mach) (x : DWord) : (m.putPolder x).refillOld = m.refillOld := rfl
@[simp] theorem putPolder_latch (m : Mach) (x : DWord) : (m.putPolder x).latch = m.latch := rfl
@[simp] theorem putPolder_shadow (m : Mach) (x : DWord) : (m.putPolder x).shadow = m.shadow := rfl
@[simp] theorem putPolder_answer (m : Mach) (x : DWord) : (m.putPolder x).answer = m.answer := rfl
@[simp] theorem putPolder_peat (m : Mach) (x : DWord) : (m.putPolder x).peat = m.peat := rfl
@[simp] theorem putPolder_cream (m : Mach) (x : DWord) : (m.putPolder x).cream = m.cream := rfl
@[simp] theorem putPolder_tsram (m : Mach) (x : DWord) : (m.putPolder x).tsram = m.tsram := rfl
@[simp] theorem putPolder_flash (m : Mach) (x : DWord) : (m.putPolder x).flash = m.flash := rfl
@[simp] theorem putPolder_wr (m : Mach) (x : DWord) : (m.putPolder x).wr = m.wr := rfl
@[simp] theorem putPolder_evq (m : Mach) (x : DWord) : (m.putPolder x).evq = m.evq := rfl
@[simp] theorem putPolder_flt (m : Mach) (x : DWord) : (m.putPolder x).flt = m.flt := rfl
@[simp] theorem putPolder_halted (m : Mach) (x : DWord) : (m.putPolder x).halted = m.halted := rfl
@[simp] theorem putPolder_plan (m : Mach) (x : DWord) : (m.putPolder x).plan = m.plan := rfl
@[simp] theorem putPolder_tm (m : Mach) (x : DWord) : (m.putPolder x).tm = m.tm := rfl
@[simp] theorem putPolder_sent (m : Mach) (x : DWord) : (m.putPolder x).sent = m.sent := rfl
@[simp] theorem putPolder_onOscillator (m : Mach) (x : DWord) : (m.putPolder x).onOscillator = m.onOscillator := rfl
@[simp] theorem putPolder_xlt (m : Mach) (x : DWord) : (m.putPolder x).xlt = m.xlt := rfl
@[simp] theorem putPolder_winCloses (m : Mach) (x : DWord) : (m.putPolder x).winCloses = m.winCloses := rfl
@[simp] theorem putPolder_mem (m : Mach) (x : DWord) : (m.putPolder x).mem = m.mem := rfl
@[simp] theorem putPolder_qe (m : Mach) (x : DWord) : (m.putPolder x).qe = m.qe := rfl
@[simp] theorem putPolder_lode (m : Mach) (x : DWord) : (m.putPolder x).lode = m.lode := rfl
@[simp] theorem putPolder_ciph (m : Mach) (x : DWord) : (m.putPolder x).ciph = m.ciph := rfl
@[simp] theorem putPolder_beq (m : Mach) (x : DWord) : (m.putPolder x).beq = m.beq := rfl
@[simp] theorem putPolder_rte (m : Mach) (x : DWord) : (m.putPolder x).rte = m.rte := rfl
@[simp] theorem putPolder_ports (m : Mach) (x : DWord) : (m.putPolder x).ports = m.ports := rfl
@[simp] theorem putPolder_fabric (m : Mach) (x : DWord) : (m.putPolder x).fabric = m.fabric := rfl
@[simp] theorem putPolder_clk (m : Mach) (x : DWord) : (m.putPolder x).clk = m.clk := rfl
@[simp] theorem putPolder_downs (m : Mach) (x : DWord) : (m.putPolder x).downs = m.downs := rfl
@[simp] theorem putPolder_tileDowns (m : Mach) (x : DWord) : (m.putPolder x).tileDowns = m.tileDowns := rfl
@[simp] theorem putPolder_chu (m : Mach) (x : DWord) : (m.putPolder x).chu = m.chu := rfl
@[simp] theorem putPolder_cfg (m : Mach) (x : DWord) : (m.putPolder x).cfg = m.cfg := rfl
@[simp] theorem putPolder_coll (m : Mach) (x : DWord) : (m.putPolder x).coll = m.coll := rfl
@[simp] theorem putPolder_herdReset (m : Mach) (x : DWord) : (m.putPolder x).herdReset = m.herdReset := rfl
@[simp] theorem putPolder_leases (m : Mach) (x : DWord) : (m.putPolder x).leases = m.leases := rfl
@[simp] theorem putPolder_reg (m : Mach) (x : DWord) (k : Nat) : (m.putPolder x).reg k = m.reg k := rfl
@[simp] theorem putPolder_get (m : Mach) (x : DWord) (f : Fld) (i s : Nat) : (m.putPolder x).get f i s = m.get f i s := rfl
@[simp] theorem putPolder_bit (m : Mach) (x : DWord) (f : Fld) (i s : Nat) : (m.putPolder x).bit f i s = m.bit f i s := rfl
@[simp] theorem putPolder_get64 (m : Mach) (x : DWord) (f : Fld) (i s : Nat) : (m.putPolder x).get64 f i s = m.get64 f i s := rfl

/-! ## `putRate` -/

@[simp] theorem putRate_variant (m : Mach) (x : Int) : (m.putRate x).variant = m.variant := rfl
@[simp] theorem putRate_now (m : Mach) (x : Int) : (m.putRate x).now = m.now := rfl
@[simp] theorem putRate_polder (m : Mach) (x : Int) : (m.putRate x).polder = m.polder := rfl
@[simp] theorem putRate_rate (m : Mach) (x : Int) : (m.putRate x).rate = x := rfl
@[simp] theorem putRate_rateRem (m : Mach) (x : Int) : (m.putRate x).rateRem = m.rateRem := rfl
@[simp] theorem putRate_freeCtr (m : Mach) (x : Int) : (m.putRate x).freeCtr = m.freeCtr := rfl
@[simp] theorem putRate_regs (m : Mach) (x : Int) : (m.putRate x).regs = m.regs := rfl
@[simp] theorem putRate_tideOld (m : Mach) (x : Int) : (m.putRate x).tideOld = m.tideOld := rfl
@[simp] theorem putRate_refillOld (m : Mach) (x : Int) : (m.putRate x).refillOld = m.refillOld := rfl
@[simp] theorem putRate_latch (m : Mach) (x : Int) : (m.putRate x).latch = m.latch := rfl
@[simp] theorem putRate_shadow (m : Mach) (x : Int) : (m.putRate x).shadow = m.shadow := rfl
@[simp] theorem putRate_answer (m : Mach) (x : Int) : (m.putRate x).answer = m.answer := rfl
@[simp] theorem putRate_peat (m : Mach) (x : Int) : (m.putRate x).peat = m.peat := rfl
@[simp] theorem putRate_cream (m : Mach) (x : Int) : (m.putRate x).cream = m.cream := rfl
@[simp] theorem putRate_tsram (m : Mach) (x : Int) : (m.putRate x).tsram = m.tsram := rfl
@[simp] theorem putRate_flash (m : Mach) (x : Int) : (m.putRate x).flash = m.flash := rfl
@[simp] theorem putRate_wr (m : Mach) (x : Int) : (m.putRate x).wr = m.wr := rfl
@[simp] theorem putRate_evq (m : Mach) (x : Int) : (m.putRate x).evq = m.evq := rfl
@[simp] theorem putRate_flt (m : Mach) (x : Int) : (m.putRate x).flt = m.flt := rfl
@[simp] theorem putRate_halted (m : Mach) (x : Int) : (m.putRate x).halted = m.halted := rfl
@[simp] theorem putRate_plan (m : Mach) (x : Int) : (m.putRate x).plan = m.plan := rfl
@[simp] theorem putRate_tm (m : Mach) (x : Int) : (m.putRate x).tm = m.tm := rfl
@[simp] theorem putRate_sent (m : Mach) (x : Int) : (m.putRate x).sent = m.sent := rfl
@[simp] theorem putRate_onOscillator (m : Mach) (x : Int) : (m.putRate x).onOscillator = m.onOscillator := rfl
@[simp] theorem putRate_xlt (m : Mach) (x : Int) : (m.putRate x).xlt = m.xlt := rfl
@[simp] theorem putRate_winCloses (m : Mach) (x : Int) : (m.putRate x).winCloses = m.winCloses := rfl
@[simp] theorem putRate_mem (m : Mach) (x : Int) : (m.putRate x).mem = m.mem := rfl
@[simp] theorem putRate_qe (m : Mach) (x : Int) : (m.putRate x).qe = m.qe := rfl
@[simp] theorem putRate_lode (m : Mach) (x : Int) : (m.putRate x).lode = m.lode := rfl
@[simp] theorem putRate_ciph (m : Mach) (x : Int) : (m.putRate x).ciph = m.ciph := rfl
@[simp] theorem putRate_beq (m : Mach) (x : Int) : (m.putRate x).beq = m.beq := rfl
@[simp] theorem putRate_rte (m : Mach) (x : Int) : (m.putRate x).rte = m.rte := rfl
@[simp] theorem putRate_ports (m : Mach) (x : Int) : (m.putRate x).ports = m.ports := rfl
@[simp] theorem putRate_fabric (m : Mach) (x : Int) : (m.putRate x).fabric = m.fabric := rfl
@[simp] theorem putRate_clk (m : Mach) (x : Int) : (m.putRate x).clk = m.clk := rfl
@[simp] theorem putRate_downs (m : Mach) (x : Int) : (m.putRate x).downs = m.downs := rfl
@[simp] theorem putRate_tileDowns (m : Mach) (x : Int) : (m.putRate x).tileDowns = m.tileDowns := rfl
@[simp] theorem putRate_chu (m : Mach) (x : Int) : (m.putRate x).chu = m.chu := rfl
@[simp] theorem putRate_cfg (m : Mach) (x : Int) : (m.putRate x).cfg = m.cfg := rfl
@[simp] theorem putRate_coll (m : Mach) (x : Int) : (m.putRate x).coll = m.coll := rfl
@[simp] theorem putRate_herdReset (m : Mach) (x : Int) : (m.putRate x).herdReset = m.herdReset := rfl
@[simp] theorem putRate_leases (m : Mach) (x : Int) : (m.putRate x).leases = m.leases := rfl
@[simp] theorem putRate_reg (m : Mach) (x : Int) (k : Nat) : (m.putRate x).reg k = m.reg k := rfl
@[simp] theorem putRate_get (m : Mach) (x : Int) (f : Fld) (i s : Nat) : (m.putRate x).get f i s = m.get f i s := rfl
@[simp] theorem putRate_bit (m : Mach) (x : Int) (f : Fld) (i s : Nat) : (m.putRate x).bit f i s = m.bit f i s := rfl
@[simp] theorem putRate_get64 (m : Mach) (x : Int) (f : Fld) (i s : Nat) : (m.putRate x).get64 f i s = m.get64 f i s := rfl

/-! ## `putFreeCtr` -/

@[simp] theorem putFreeCtr_variant (m : Mach) (x : Nat) : (m.putFreeCtr x).variant = m.variant := rfl
@[simp] theorem putFreeCtr_now (m : Mach) (x : Nat) : (m.putFreeCtr x).now = m.now := rfl
@[simp] theorem putFreeCtr_polder (m : Mach) (x : Nat) : (m.putFreeCtr x).polder = m.polder := rfl
@[simp] theorem putFreeCtr_rate (m : Mach) (x : Nat) : (m.putFreeCtr x).rate = m.rate := rfl
@[simp] theorem putFreeCtr_rateRem (m : Mach) (x : Nat) : (m.putFreeCtr x).rateRem = m.rateRem := rfl
@[simp] theorem putFreeCtr_freeCtr (m : Mach) (x : Nat) : (m.putFreeCtr x).freeCtr = x := rfl
@[simp] theorem putFreeCtr_regs (m : Mach) (x : Nat) : (m.putFreeCtr x).regs = m.regs := rfl
@[simp] theorem putFreeCtr_tideOld (m : Mach) (x : Nat) : (m.putFreeCtr x).tideOld = m.tideOld := rfl
@[simp] theorem putFreeCtr_refillOld (m : Mach) (x : Nat) : (m.putFreeCtr x).refillOld = m.refillOld := rfl
@[simp] theorem putFreeCtr_latch (m : Mach) (x : Nat) : (m.putFreeCtr x).latch = m.latch := rfl
@[simp] theorem putFreeCtr_shadow (m : Mach) (x : Nat) : (m.putFreeCtr x).shadow = m.shadow := rfl
@[simp] theorem putFreeCtr_answer (m : Mach) (x : Nat) : (m.putFreeCtr x).answer = m.answer := rfl
@[simp] theorem putFreeCtr_peat (m : Mach) (x : Nat) : (m.putFreeCtr x).peat = m.peat := rfl
@[simp] theorem putFreeCtr_cream (m : Mach) (x : Nat) : (m.putFreeCtr x).cream = m.cream := rfl
@[simp] theorem putFreeCtr_tsram (m : Mach) (x : Nat) : (m.putFreeCtr x).tsram = m.tsram := rfl
@[simp] theorem putFreeCtr_flash (m : Mach) (x : Nat) : (m.putFreeCtr x).flash = m.flash := rfl
@[simp] theorem putFreeCtr_wr (m : Mach) (x : Nat) : (m.putFreeCtr x).wr = m.wr := rfl
@[simp] theorem putFreeCtr_evq (m : Mach) (x : Nat) : (m.putFreeCtr x).evq = m.evq := rfl
@[simp] theorem putFreeCtr_flt (m : Mach) (x : Nat) : (m.putFreeCtr x).flt = m.flt := rfl
@[simp] theorem putFreeCtr_halted (m : Mach) (x : Nat) : (m.putFreeCtr x).halted = m.halted := rfl
@[simp] theorem putFreeCtr_plan (m : Mach) (x : Nat) : (m.putFreeCtr x).plan = m.plan := rfl
@[simp] theorem putFreeCtr_tm (m : Mach) (x : Nat) : (m.putFreeCtr x).tm = m.tm := rfl
@[simp] theorem putFreeCtr_sent (m : Mach) (x : Nat) : (m.putFreeCtr x).sent = m.sent := rfl
@[simp] theorem putFreeCtr_onOscillator (m : Mach) (x : Nat) : (m.putFreeCtr x).onOscillator = m.onOscillator := rfl
@[simp] theorem putFreeCtr_xlt (m : Mach) (x : Nat) : (m.putFreeCtr x).xlt = m.xlt := rfl
@[simp] theorem putFreeCtr_winCloses (m : Mach) (x : Nat) : (m.putFreeCtr x).winCloses = m.winCloses := rfl
@[simp] theorem putFreeCtr_mem (m : Mach) (x : Nat) : (m.putFreeCtr x).mem = m.mem := rfl
@[simp] theorem putFreeCtr_qe (m : Mach) (x : Nat) : (m.putFreeCtr x).qe = m.qe := rfl
@[simp] theorem putFreeCtr_lode (m : Mach) (x : Nat) : (m.putFreeCtr x).lode = m.lode := rfl
@[simp] theorem putFreeCtr_ciph (m : Mach) (x : Nat) : (m.putFreeCtr x).ciph = m.ciph := rfl
@[simp] theorem putFreeCtr_beq (m : Mach) (x : Nat) : (m.putFreeCtr x).beq = m.beq := rfl
@[simp] theorem putFreeCtr_rte (m : Mach) (x : Nat) : (m.putFreeCtr x).rte = m.rte := rfl
@[simp] theorem putFreeCtr_ports (m : Mach) (x : Nat) : (m.putFreeCtr x).ports = m.ports := rfl
@[simp] theorem putFreeCtr_fabric (m : Mach) (x : Nat) : (m.putFreeCtr x).fabric = m.fabric := rfl
@[simp] theorem putFreeCtr_clk (m : Mach) (x : Nat) : (m.putFreeCtr x).clk = m.clk := rfl
@[simp] theorem putFreeCtr_downs (m : Mach) (x : Nat) : (m.putFreeCtr x).downs = m.downs := rfl
@[simp] theorem putFreeCtr_tileDowns (m : Mach) (x : Nat) : (m.putFreeCtr x).tileDowns = m.tileDowns := rfl
@[simp] theorem putFreeCtr_chu (m : Mach) (x : Nat) : (m.putFreeCtr x).chu = m.chu := rfl
@[simp] theorem putFreeCtr_cfg (m : Mach) (x : Nat) : (m.putFreeCtr x).cfg = m.cfg := rfl
@[simp] theorem putFreeCtr_coll (m : Mach) (x : Nat) : (m.putFreeCtr x).coll = m.coll := rfl
@[simp] theorem putFreeCtr_herdReset (m : Mach) (x : Nat) : (m.putFreeCtr x).herdReset = m.herdReset := rfl
@[simp] theorem putFreeCtr_leases (m : Mach) (x : Nat) : (m.putFreeCtr x).leases = m.leases := rfl
@[simp] theorem putFreeCtr_reg (m : Mach) (x : Nat) (k : Nat) : (m.putFreeCtr x).reg k = m.reg k := rfl
@[simp] theorem putFreeCtr_get (m : Mach) (x : Nat) (f : Fld) (i s : Nat) : (m.putFreeCtr x).get f i s = m.get f i s := rfl
@[simp] theorem putFreeCtr_bit (m : Mach) (x : Nat) (f : Fld) (i s : Nat) : (m.putFreeCtr x).bit f i s = m.bit f i s := rfl
@[simp] theorem putFreeCtr_get64 (m : Mach) (x : Nat) (f : Fld) (i s : Nat) : (m.putFreeCtr x).get64 f i s = m.get64 f i s := rfl

/-! ## `putRegs` -/

@[simp] theorem putRegs_variant (m : Mach) (x : RegFile) : (m.putRegs x).variant = m.variant := rfl
@[simp] theorem putRegs_now (m : Mach) (x : RegFile) : (m.putRegs x).now = m.now := rfl
@[simp] theorem putRegs_polder (m : Mach) (x : RegFile) : (m.putRegs x).polder = m.polder := rfl
@[simp] theorem putRegs_rate (m : Mach) (x : RegFile) : (m.putRegs x).rate = m.rate := rfl
@[simp] theorem putRegs_rateRem (m : Mach) (x : RegFile) : (m.putRegs x).rateRem = m.rateRem := rfl
@[simp] theorem putRegs_freeCtr (m : Mach) (x : RegFile) : (m.putRegs x).freeCtr = m.freeCtr := rfl
@[simp] theorem putRegs_regs (m : Mach) (x : RegFile) : (m.putRegs x).regs = x := rfl
@[simp] theorem putRegs_tideOld (m : Mach) (x : RegFile) : (m.putRegs x).tideOld = m.tideOld := rfl
@[simp] theorem putRegs_refillOld (m : Mach) (x : RegFile) : (m.putRegs x).refillOld = m.refillOld := rfl
@[simp] theorem putRegs_latch (m : Mach) (x : RegFile) : (m.putRegs x).latch = m.latch := rfl
@[simp] theorem putRegs_shadow (m : Mach) (x : RegFile) : (m.putRegs x).shadow = m.shadow := rfl
@[simp] theorem putRegs_answer (m : Mach) (x : RegFile) : (m.putRegs x).answer = m.answer := rfl
@[simp] theorem putRegs_peat (m : Mach) (x : RegFile) : (m.putRegs x).peat = m.peat := rfl
@[simp] theorem putRegs_cream (m : Mach) (x : RegFile) : (m.putRegs x).cream = m.cream := rfl
@[simp] theorem putRegs_tsram (m : Mach) (x : RegFile) : (m.putRegs x).tsram = m.tsram := rfl
@[simp] theorem putRegs_flash (m : Mach) (x : RegFile) : (m.putRegs x).flash = m.flash := rfl
@[simp] theorem putRegs_wr (m : Mach) (x : RegFile) : (m.putRegs x).wr = m.wr := rfl
@[simp] theorem putRegs_evq (m : Mach) (x : RegFile) : (m.putRegs x).evq = m.evq := rfl
@[simp] theorem putRegs_flt (m : Mach) (x : RegFile) : (m.putRegs x).flt = m.flt := rfl
@[simp] theorem putRegs_halted (m : Mach) (x : RegFile) : (m.putRegs x).halted = m.halted := rfl
@[simp] theorem putRegs_plan (m : Mach) (x : RegFile) : (m.putRegs x).plan = m.plan := rfl
@[simp] theorem putRegs_tm (m : Mach) (x : RegFile) : (m.putRegs x).tm = m.tm := rfl
@[simp] theorem putRegs_sent (m : Mach) (x : RegFile) : (m.putRegs x).sent = m.sent := rfl
@[simp] theorem putRegs_onOscillator (m : Mach) (x : RegFile) : (m.putRegs x).onOscillator = m.onOscillator := rfl
@[simp] theorem putRegs_xlt (m : Mach) (x : RegFile) : (m.putRegs x).xlt = m.xlt := rfl
@[simp] theorem putRegs_winCloses (m : Mach) (x : RegFile) : (m.putRegs x).winCloses = m.winCloses := rfl
@[simp] theorem putRegs_mem (m : Mach) (x : RegFile) : (m.putRegs x).mem = m.mem := rfl
@[simp] theorem putRegs_qe (m : Mach) (x : RegFile) : (m.putRegs x).qe = m.qe := rfl
@[simp] theorem putRegs_lode (m : Mach) (x : RegFile) : (m.putRegs x).lode = m.lode := rfl
@[simp] theorem putRegs_ciph (m : Mach) (x : RegFile) : (m.putRegs x).ciph = m.ciph := rfl
@[simp] theorem putRegs_beq (m : Mach) (x : RegFile) : (m.putRegs x).beq = m.beq := rfl
@[simp] theorem putRegs_rte (m : Mach) (x : RegFile) : (m.putRegs x).rte = m.rte := rfl
@[simp] theorem putRegs_ports (m : Mach) (x : RegFile) : (m.putRegs x).ports = m.ports := rfl
@[simp] theorem putRegs_fabric (m : Mach) (x : RegFile) : (m.putRegs x).fabric = m.fabric := rfl
@[simp] theorem putRegs_clk (m : Mach) (x : RegFile) : (m.putRegs x).clk = m.clk := rfl
@[simp] theorem putRegs_downs (m : Mach) (x : RegFile) : (m.putRegs x).downs = m.downs := rfl
@[simp] theorem putRegs_tileDowns (m : Mach) (x : RegFile) : (m.putRegs x).tileDowns = m.tileDowns := rfl
@[simp] theorem putRegs_chu (m : Mach) (x : RegFile) : (m.putRegs x).chu = m.chu := rfl
@[simp] theorem putRegs_cfg (m : Mach) (x : RegFile) : (m.putRegs x).cfg = m.cfg := rfl
@[simp] theorem putRegs_coll (m : Mach) (x : RegFile) : (m.putRegs x).coll = m.coll := rfl
@[simp] theorem putRegs_herdReset (m : Mach) (x : RegFile) : (m.putRegs x).herdReset = m.herdReset := rfl
@[simp] theorem putRegs_leases (m : Mach) (x : RegFile) : (m.putRegs x).leases = m.leases := rfl

/-! ## `putTideOld` -/

@[simp] theorem putTideOld_variant (m : Mach) (x : RegFile) : (m.putTideOld x).variant = m.variant := rfl
@[simp] theorem putTideOld_now (m : Mach) (x : RegFile) : (m.putTideOld x).now = m.now := rfl
@[simp] theorem putTideOld_polder (m : Mach) (x : RegFile) : (m.putTideOld x).polder = m.polder := rfl
@[simp] theorem putTideOld_rate (m : Mach) (x : RegFile) : (m.putTideOld x).rate = m.rate := rfl
@[simp] theorem putTideOld_rateRem (m : Mach) (x : RegFile) : (m.putTideOld x).rateRem = m.rateRem := rfl
@[simp] theorem putTideOld_freeCtr (m : Mach) (x : RegFile) : (m.putTideOld x).freeCtr = m.freeCtr := rfl
@[simp] theorem putTideOld_regs (m : Mach) (x : RegFile) : (m.putTideOld x).regs = m.regs := rfl
@[simp] theorem putTideOld_tideOld (m : Mach) (x : RegFile) : (m.putTideOld x).tideOld = x := rfl
@[simp] theorem putTideOld_refillOld (m : Mach) (x : RegFile) : (m.putTideOld x).refillOld = m.refillOld := rfl
@[simp] theorem putTideOld_latch (m : Mach) (x : RegFile) : (m.putTideOld x).latch = m.latch := rfl
@[simp] theorem putTideOld_shadow (m : Mach) (x : RegFile) : (m.putTideOld x).shadow = m.shadow := rfl
@[simp] theorem putTideOld_answer (m : Mach) (x : RegFile) : (m.putTideOld x).answer = m.answer := rfl
@[simp] theorem putTideOld_peat (m : Mach) (x : RegFile) : (m.putTideOld x).peat = m.peat := rfl
@[simp] theorem putTideOld_cream (m : Mach) (x : RegFile) : (m.putTideOld x).cream = m.cream := rfl
@[simp] theorem putTideOld_tsram (m : Mach) (x : RegFile) : (m.putTideOld x).tsram = m.tsram := rfl
@[simp] theorem putTideOld_flash (m : Mach) (x : RegFile) : (m.putTideOld x).flash = m.flash := rfl
@[simp] theorem putTideOld_wr (m : Mach) (x : RegFile) : (m.putTideOld x).wr = m.wr := rfl
@[simp] theorem putTideOld_evq (m : Mach) (x : RegFile) : (m.putTideOld x).evq = m.evq := rfl
@[simp] theorem putTideOld_flt (m : Mach) (x : RegFile) : (m.putTideOld x).flt = m.flt := rfl
@[simp] theorem putTideOld_halted (m : Mach) (x : RegFile) : (m.putTideOld x).halted = m.halted := rfl
@[simp] theorem putTideOld_plan (m : Mach) (x : RegFile) : (m.putTideOld x).plan = m.plan := rfl
@[simp] theorem putTideOld_tm (m : Mach) (x : RegFile) : (m.putTideOld x).tm = m.tm := rfl
@[simp] theorem putTideOld_sent (m : Mach) (x : RegFile) : (m.putTideOld x).sent = m.sent := rfl
@[simp] theorem putTideOld_onOscillator (m : Mach) (x : RegFile) : (m.putTideOld x).onOscillator = m.onOscillator := rfl
@[simp] theorem putTideOld_xlt (m : Mach) (x : RegFile) : (m.putTideOld x).xlt = m.xlt := rfl
@[simp] theorem putTideOld_winCloses (m : Mach) (x : RegFile) : (m.putTideOld x).winCloses = m.winCloses := rfl
@[simp] theorem putTideOld_mem (m : Mach) (x : RegFile) : (m.putTideOld x).mem = m.mem := rfl
@[simp] theorem putTideOld_qe (m : Mach) (x : RegFile) : (m.putTideOld x).qe = m.qe := rfl
@[simp] theorem putTideOld_lode (m : Mach) (x : RegFile) : (m.putTideOld x).lode = m.lode := rfl
@[simp] theorem putTideOld_ciph (m : Mach) (x : RegFile) : (m.putTideOld x).ciph = m.ciph := rfl
@[simp] theorem putTideOld_beq (m : Mach) (x : RegFile) : (m.putTideOld x).beq = m.beq := rfl
@[simp] theorem putTideOld_rte (m : Mach) (x : RegFile) : (m.putTideOld x).rte = m.rte := rfl
@[simp] theorem putTideOld_ports (m : Mach) (x : RegFile) : (m.putTideOld x).ports = m.ports := rfl
@[simp] theorem putTideOld_fabric (m : Mach) (x : RegFile) : (m.putTideOld x).fabric = m.fabric := rfl
@[simp] theorem putTideOld_clk (m : Mach) (x : RegFile) : (m.putTideOld x).clk = m.clk := rfl
@[simp] theorem putTideOld_downs (m : Mach) (x : RegFile) : (m.putTideOld x).downs = m.downs := rfl
@[simp] theorem putTideOld_tileDowns (m : Mach) (x : RegFile) : (m.putTideOld x).tileDowns = m.tileDowns := rfl
@[simp] theorem putTideOld_chu (m : Mach) (x : RegFile) : (m.putTideOld x).chu = m.chu := rfl
@[simp] theorem putTideOld_cfg (m : Mach) (x : RegFile) : (m.putTideOld x).cfg = m.cfg := rfl
@[simp] theorem putTideOld_coll (m : Mach) (x : RegFile) : (m.putTideOld x).coll = m.coll := rfl
@[simp] theorem putTideOld_herdReset (m : Mach) (x : RegFile) : (m.putTideOld x).herdReset = m.herdReset := rfl
@[simp] theorem putTideOld_leases (m : Mach) (x : RegFile) : (m.putTideOld x).leases = m.leases := rfl
@[simp] theorem putTideOld_reg (m : Mach) (x : RegFile) (k : Nat) : (m.putTideOld x).reg k = m.reg k := rfl
@[simp] theorem putTideOld_get (m : Mach) (x : RegFile) (f : Fld) (i s : Nat) : (m.putTideOld x).get f i s = m.get f i s := rfl
@[simp] theorem putTideOld_bit (m : Mach) (x : RegFile) (f : Fld) (i s : Nat) : (m.putTideOld x).bit f i s = m.bit f i s := rfl
@[simp] theorem putTideOld_get64 (m : Mach) (x : RegFile) (f : Fld) (i s : Nat) : (m.putTideOld x).get64 f i s = m.get64 f i s := rfl

/-! ## `putRefillOld` -/

@[simp] theorem putRefillOld_variant (m : Mach) (x : RegFile) : (m.putRefillOld x).variant = m.variant := rfl
@[simp] theorem putRefillOld_now (m : Mach) (x : RegFile) : (m.putRefillOld x).now = m.now := rfl
@[simp] theorem putRefillOld_polder (m : Mach) (x : RegFile) : (m.putRefillOld x).polder = m.polder := rfl
@[simp] theorem putRefillOld_rate (m : Mach) (x : RegFile) : (m.putRefillOld x).rate = m.rate := rfl
@[simp] theorem putRefillOld_rateRem (m : Mach) (x : RegFile) : (m.putRefillOld x).rateRem = m.rateRem := rfl
@[simp] theorem putRefillOld_freeCtr (m : Mach) (x : RegFile) : (m.putRefillOld x).freeCtr = m.freeCtr := rfl
@[simp] theorem putRefillOld_regs (m : Mach) (x : RegFile) : (m.putRefillOld x).regs = m.regs := rfl
@[simp] theorem putRefillOld_tideOld (m : Mach) (x : RegFile) : (m.putRefillOld x).tideOld = m.tideOld := rfl
@[simp] theorem putRefillOld_refillOld (m : Mach) (x : RegFile) : (m.putRefillOld x).refillOld = x := rfl
@[simp] theorem putRefillOld_latch (m : Mach) (x : RegFile) : (m.putRefillOld x).latch = m.latch := rfl
@[simp] theorem putRefillOld_shadow (m : Mach) (x : RegFile) : (m.putRefillOld x).shadow = m.shadow := rfl
@[simp] theorem putRefillOld_answer (m : Mach) (x : RegFile) : (m.putRefillOld x).answer = m.answer := rfl
@[simp] theorem putRefillOld_peat (m : Mach) (x : RegFile) : (m.putRefillOld x).peat = m.peat := rfl
@[simp] theorem putRefillOld_cream (m : Mach) (x : RegFile) : (m.putRefillOld x).cream = m.cream := rfl
@[simp] theorem putRefillOld_tsram (m : Mach) (x : RegFile) : (m.putRefillOld x).tsram = m.tsram := rfl
@[simp] theorem putRefillOld_flash (m : Mach) (x : RegFile) : (m.putRefillOld x).flash = m.flash := rfl
@[simp] theorem putRefillOld_wr (m : Mach) (x : RegFile) : (m.putRefillOld x).wr = m.wr := rfl
@[simp] theorem putRefillOld_evq (m : Mach) (x : RegFile) : (m.putRefillOld x).evq = m.evq := rfl
@[simp] theorem putRefillOld_flt (m : Mach) (x : RegFile) : (m.putRefillOld x).flt = m.flt := rfl
@[simp] theorem putRefillOld_halted (m : Mach) (x : RegFile) : (m.putRefillOld x).halted = m.halted := rfl
@[simp] theorem putRefillOld_plan (m : Mach) (x : RegFile) : (m.putRefillOld x).plan = m.plan := rfl
@[simp] theorem putRefillOld_tm (m : Mach) (x : RegFile) : (m.putRefillOld x).tm = m.tm := rfl
@[simp] theorem putRefillOld_sent (m : Mach) (x : RegFile) : (m.putRefillOld x).sent = m.sent := rfl
@[simp] theorem putRefillOld_onOscillator (m : Mach) (x : RegFile) : (m.putRefillOld x).onOscillator = m.onOscillator := rfl
@[simp] theorem putRefillOld_xlt (m : Mach) (x : RegFile) : (m.putRefillOld x).xlt = m.xlt := rfl
@[simp] theorem putRefillOld_winCloses (m : Mach) (x : RegFile) : (m.putRefillOld x).winCloses = m.winCloses := rfl
@[simp] theorem putRefillOld_mem (m : Mach) (x : RegFile) : (m.putRefillOld x).mem = m.mem := rfl
@[simp] theorem putRefillOld_qe (m : Mach) (x : RegFile) : (m.putRefillOld x).qe = m.qe := rfl
@[simp] theorem putRefillOld_lode (m : Mach) (x : RegFile) : (m.putRefillOld x).lode = m.lode := rfl
@[simp] theorem putRefillOld_ciph (m : Mach) (x : RegFile) : (m.putRefillOld x).ciph = m.ciph := rfl
@[simp] theorem putRefillOld_beq (m : Mach) (x : RegFile) : (m.putRefillOld x).beq = m.beq := rfl
@[simp] theorem putRefillOld_rte (m : Mach) (x : RegFile) : (m.putRefillOld x).rte = m.rte := rfl
@[simp] theorem putRefillOld_ports (m : Mach) (x : RegFile) : (m.putRefillOld x).ports = m.ports := rfl
@[simp] theorem putRefillOld_fabric (m : Mach) (x : RegFile) : (m.putRefillOld x).fabric = m.fabric := rfl
@[simp] theorem putRefillOld_clk (m : Mach) (x : RegFile) : (m.putRefillOld x).clk = m.clk := rfl
@[simp] theorem putRefillOld_downs (m : Mach) (x : RegFile) : (m.putRefillOld x).downs = m.downs := rfl
@[simp] theorem putRefillOld_tileDowns (m : Mach) (x : RegFile) : (m.putRefillOld x).tileDowns = m.tileDowns := rfl
@[simp] theorem putRefillOld_chu (m : Mach) (x : RegFile) : (m.putRefillOld x).chu = m.chu := rfl
@[simp] theorem putRefillOld_cfg (m : Mach) (x : RegFile) : (m.putRefillOld x).cfg = m.cfg := rfl
@[simp] theorem putRefillOld_coll (m : Mach) (x : RegFile) : (m.putRefillOld x).coll = m.coll := rfl
@[simp] theorem putRefillOld_herdReset (m : Mach) (x : RegFile) : (m.putRefillOld x).herdReset = m.herdReset := rfl
@[simp] theorem putRefillOld_leases (m : Mach) (x : RegFile) : (m.putRefillOld x).leases = m.leases := rfl
@[simp] theorem putRefillOld_reg (m : Mach) (x : RegFile) (k : Nat) : (m.putRefillOld x).reg k = m.reg k := rfl
@[simp] theorem putRefillOld_get (m : Mach) (x : RegFile) (f : Fld) (i s : Nat) : (m.putRefillOld x).get f i s = m.get f i s := rfl
@[simp] theorem putRefillOld_bit (m : Mach) (x : RegFile) (f : Fld) (i s : Nat) : (m.putRefillOld x).bit f i s = m.bit f i s := rfl
@[simp] theorem putRefillOld_get64 (m : Mach) (x : RegFile) (f : Fld) (i s : Nat) : (m.putRefillOld x).get64 f i s = m.get64 f i s := rfl

/-! ## `putLatch` -/

@[simp] theorem putLatch_variant (m : Mach) (x : RegFile) : (m.putLatch x).variant = m.variant := rfl
@[simp] theorem putLatch_now (m : Mach) (x : RegFile) : (m.putLatch x).now = m.now := rfl
@[simp] theorem putLatch_polder (m : Mach) (x : RegFile) : (m.putLatch x).polder = m.polder := rfl
@[simp] theorem putLatch_rate (m : Mach) (x : RegFile) : (m.putLatch x).rate = m.rate := rfl
@[simp] theorem putLatch_rateRem (m : Mach) (x : RegFile) : (m.putLatch x).rateRem = m.rateRem := rfl
@[simp] theorem putLatch_freeCtr (m : Mach) (x : RegFile) : (m.putLatch x).freeCtr = m.freeCtr := rfl
@[simp] theorem putLatch_regs (m : Mach) (x : RegFile) : (m.putLatch x).regs = m.regs := rfl
@[simp] theorem putLatch_tideOld (m : Mach) (x : RegFile) : (m.putLatch x).tideOld = m.tideOld := rfl
@[simp] theorem putLatch_refillOld (m : Mach) (x : RegFile) : (m.putLatch x).refillOld = m.refillOld := rfl
@[simp] theorem putLatch_latch (m : Mach) (x : RegFile) : (m.putLatch x).latch = x := rfl
@[simp] theorem putLatch_shadow (m : Mach) (x : RegFile) : (m.putLatch x).shadow = m.shadow := rfl
@[simp] theorem putLatch_answer (m : Mach) (x : RegFile) : (m.putLatch x).answer = m.answer := rfl
@[simp] theorem putLatch_peat (m : Mach) (x : RegFile) : (m.putLatch x).peat = m.peat := rfl
@[simp] theorem putLatch_cream (m : Mach) (x : RegFile) : (m.putLatch x).cream = m.cream := rfl
@[simp] theorem putLatch_tsram (m : Mach) (x : RegFile) : (m.putLatch x).tsram = m.tsram := rfl
@[simp] theorem putLatch_flash (m : Mach) (x : RegFile) : (m.putLatch x).flash = m.flash := rfl
@[simp] theorem putLatch_wr (m : Mach) (x : RegFile) : (m.putLatch x).wr = m.wr := rfl
@[simp] theorem putLatch_evq (m : Mach) (x : RegFile) : (m.putLatch x).evq = m.evq := rfl
@[simp] theorem putLatch_flt (m : Mach) (x : RegFile) : (m.putLatch x).flt = m.flt := rfl
@[simp] theorem putLatch_halted (m : Mach) (x : RegFile) : (m.putLatch x).halted = m.halted := rfl
@[simp] theorem putLatch_plan (m : Mach) (x : RegFile) : (m.putLatch x).plan = m.plan := rfl
@[simp] theorem putLatch_tm (m : Mach) (x : RegFile) : (m.putLatch x).tm = m.tm := rfl
@[simp] theorem putLatch_sent (m : Mach) (x : RegFile) : (m.putLatch x).sent = m.sent := rfl
@[simp] theorem putLatch_onOscillator (m : Mach) (x : RegFile) : (m.putLatch x).onOscillator = m.onOscillator := rfl
@[simp] theorem putLatch_xlt (m : Mach) (x : RegFile) : (m.putLatch x).xlt = m.xlt := rfl
@[simp] theorem putLatch_winCloses (m : Mach) (x : RegFile) : (m.putLatch x).winCloses = m.winCloses := rfl
@[simp] theorem putLatch_mem (m : Mach) (x : RegFile) : (m.putLatch x).mem = m.mem := rfl
@[simp] theorem putLatch_qe (m : Mach) (x : RegFile) : (m.putLatch x).qe = m.qe := rfl
@[simp] theorem putLatch_lode (m : Mach) (x : RegFile) : (m.putLatch x).lode = m.lode := rfl
@[simp] theorem putLatch_ciph (m : Mach) (x : RegFile) : (m.putLatch x).ciph = m.ciph := rfl
@[simp] theorem putLatch_beq (m : Mach) (x : RegFile) : (m.putLatch x).beq = m.beq := rfl
@[simp] theorem putLatch_rte (m : Mach) (x : RegFile) : (m.putLatch x).rte = m.rte := rfl
@[simp] theorem putLatch_ports (m : Mach) (x : RegFile) : (m.putLatch x).ports = m.ports := rfl
@[simp] theorem putLatch_fabric (m : Mach) (x : RegFile) : (m.putLatch x).fabric = m.fabric := rfl
@[simp] theorem putLatch_clk (m : Mach) (x : RegFile) : (m.putLatch x).clk = m.clk := rfl
@[simp] theorem putLatch_downs (m : Mach) (x : RegFile) : (m.putLatch x).downs = m.downs := rfl
@[simp] theorem putLatch_tileDowns (m : Mach) (x : RegFile) : (m.putLatch x).tileDowns = m.tileDowns := rfl
@[simp] theorem putLatch_chu (m : Mach) (x : RegFile) : (m.putLatch x).chu = m.chu := rfl
@[simp] theorem putLatch_cfg (m : Mach) (x : RegFile) : (m.putLatch x).cfg = m.cfg := rfl
@[simp] theorem putLatch_coll (m : Mach) (x : RegFile) : (m.putLatch x).coll = m.coll := rfl
@[simp] theorem putLatch_herdReset (m : Mach) (x : RegFile) : (m.putLatch x).herdReset = m.herdReset := rfl
@[simp] theorem putLatch_leases (m : Mach) (x : RegFile) : (m.putLatch x).leases = m.leases := rfl
@[simp] theorem putLatch_reg (m : Mach) (x : RegFile) (k : Nat) : (m.putLatch x).reg k = m.reg k := rfl
@[simp] theorem putLatch_get (m : Mach) (x : RegFile) (f : Fld) (i s : Nat) : (m.putLatch x).get f i s = m.get f i s := rfl
@[simp] theorem putLatch_bit (m : Mach) (x : RegFile) (f : Fld) (i s : Nat) : (m.putLatch x).bit f i s = m.bit f i s := rfl
@[simp] theorem putLatch_get64 (m : Mach) (x : RegFile) (f : Fld) (i s : Nat) : (m.putLatch x).get64 f i s = m.get64 f i s := rfl

/-! ## `putShadow` -/

@[simp] theorem putShadow_variant (m : Mach) (x : RegFile) : (m.putShadow x).variant = m.variant := rfl
@[simp] theorem putShadow_now (m : Mach) (x : RegFile) : (m.putShadow x).now = m.now := rfl
@[simp] theorem putShadow_polder (m : Mach) (x : RegFile) : (m.putShadow x).polder = m.polder := rfl
@[simp] theorem putShadow_rate (m : Mach) (x : RegFile) : (m.putShadow x).rate = m.rate := rfl
@[simp] theorem putShadow_rateRem (m : Mach) (x : RegFile) : (m.putShadow x).rateRem = m.rateRem := rfl
@[simp] theorem putShadow_freeCtr (m : Mach) (x : RegFile) : (m.putShadow x).freeCtr = m.freeCtr := rfl
@[simp] theorem putShadow_regs (m : Mach) (x : RegFile) : (m.putShadow x).regs = m.regs := rfl
@[simp] theorem putShadow_tideOld (m : Mach) (x : RegFile) : (m.putShadow x).tideOld = m.tideOld := rfl
@[simp] theorem putShadow_refillOld (m : Mach) (x : RegFile) : (m.putShadow x).refillOld = m.refillOld := rfl
@[simp] theorem putShadow_latch (m : Mach) (x : RegFile) : (m.putShadow x).latch = m.latch := rfl
@[simp] theorem putShadow_shadow (m : Mach) (x : RegFile) : (m.putShadow x).shadow = x := rfl
@[simp] theorem putShadow_answer (m : Mach) (x : RegFile) : (m.putShadow x).answer = m.answer := rfl
@[simp] theorem putShadow_peat (m : Mach) (x : RegFile) : (m.putShadow x).peat = m.peat := rfl
@[simp] theorem putShadow_cream (m : Mach) (x : RegFile) : (m.putShadow x).cream = m.cream := rfl
@[simp] theorem putShadow_tsram (m : Mach) (x : RegFile) : (m.putShadow x).tsram = m.tsram := rfl
@[simp] theorem putShadow_flash (m : Mach) (x : RegFile) : (m.putShadow x).flash = m.flash := rfl
@[simp] theorem putShadow_wr (m : Mach) (x : RegFile) : (m.putShadow x).wr = m.wr := rfl
@[simp] theorem putShadow_evq (m : Mach) (x : RegFile) : (m.putShadow x).evq = m.evq := rfl
@[simp] theorem putShadow_flt (m : Mach) (x : RegFile) : (m.putShadow x).flt = m.flt := rfl
@[simp] theorem putShadow_halted (m : Mach) (x : RegFile) : (m.putShadow x).halted = m.halted := rfl
@[simp] theorem putShadow_plan (m : Mach) (x : RegFile) : (m.putShadow x).plan = m.plan := rfl
@[simp] theorem putShadow_tm (m : Mach) (x : RegFile) : (m.putShadow x).tm = m.tm := rfl
@[simp] theorem putShadow_sent (m : Mach) (x : RegFile) : (m.putShadow x).sent = m.sent := rfl
@[simp] theorem putShadow_onOscillator (m : Mach) (x : RegFile) : (m.putShadow x).onOscillator = m.onOscillator := rfl
@[simp] theorem putShadow_xlt (m : Mach) (x : RegFile) : (m.putShadow x).xlt = m.xlt := rfl
@[simp] theorem putShadow_winCloses (m : Mach) (x : RegFile) : (m.putShadow x).winCloses = m.winCloses := rfl
@[simp] theorem putShadow_mem (m : Mach) (x : RegFile) : (m.putShadow x).mem = m.mem := rfl
@[simp] theorem putShadow_qe (m : Mach) (x : RegFile) : (m.putShadow x).qe = m.qe := rfl
@[simp] theorem putShadow_lode (m : Mach) (x : RegFile) : (m.putShadow x).lode = m.lode := rfl
@[simp] theorem putShadow_ciph (m : Mach) (x : RegFile) : (m.putShadow x).ciph = m.ciph := rfl
@[simp] theorem putShadow_beq (m : Mach) (x : RegFile) : (m.putShadow x).beq = m.beq := rfl
@[simp] theorem putShadow_rte (m : Mach) (x : RegFile) : (m.putShadow x).rte = m.rte := rfl
@[simp] theorem putShadow_ports (m : Mach) (x : RegFile) : (m.putShadow x).ports = m.ports := rfl
@[simp] theorem putShadow_fabric (m : Mach) (x : RegFile) : (m.putShadow x).fabric = m.fabric := rfl
@[simp] theorem putShadow_clk (m : Mach) (x : RegFile) : (m.putShadow x).clk = m.clk := rfl
@[simp] theorem putShadow_downs (m : Mach) (x : RegFile) : (m.putShadow x).downs = m.downs := rfl
@[simp] theorem putShadow_tileDowns (m : Mach) (x : RegFile) : (m.putShadow x).tileDowns = m.tileDowns := rfl
@[simp] theorem putShadow_chu (m : Mach) (x : RegFile) : (m.putShadow x).chu = m.chu := rfl
@[simp] theorem putShadow_cfg (m : Mach) (x : RegFile) : (m.putShadow x).cfg = m.cfg := rfl
@[simp] theorem putShadow_coll (m : Mach) (x : RegFile) : (m.putShadow x).coll = m.coll := rfl
@[simp] theorem putShadow_herdReset (m : Mach) (x : RegFile) : (m.putShadow x).herdReset = m.herdReset := rfl
@[simp] theorem putShadow_leases (m : Mach) (x : RegFile) : (m.putShadow x).leases = m.leases := rfl
@[simp] theorem putShadow_reg (m : Mach) (x : RegFile) (k : Nat) : (m.putShadow x).reg k = m.reg k := rfl
@[simp] theorem putShadow_get (m : Mach) (x : RegFile) (f : Fld) (i s : Nat) : (m.putShadow x).get f i s = m.get f i s := rfl
@[simp] theorem putShadow_bit (m : Mach) (x : RegFile) (f : Fld) (i s : Nat) : (m.putShadow x).bit f i s = m.bit f i s := rfl
@[simp] theorem putShadow_get64 (m : Mach) (x : RegFile) (f : Fld) (i s : Nat) : (m.putShadow x).get64 f i s = m.get64 f i s := rfl

/-! ## `putAnswer` -/

@[simp] theorem putAnswer_variant (m : Mach) (x : Word) : (m.putAnswer x).variant = m.variant := rfl
@[simp] theorem putAnswer_now (m : Mach) (x : Word) : (m.putAnswer x).now = m.now := rfl
@[simp] theorem putAnswer_polder (m : Mach) (x : Word) : (m.putAnswer x).polder = m.polder := rfl
@[simp] theorem putAnswer_rate (m : Mach) (x : Word) : (m.putAnswer x).rate = m.rate := rfl
@[simp] theorem putAnswer_rateRem (m : Mach) (x : Word) : (m.putAnswer x).rateRem = m.rateRem := rfl
@[simp] theorem putAnswer_freeCtr (m : Mach) (x : Word) : (m.putAnswer x).freeCtr = m.freeCtr := rfl
@[simp] theorem putAnswer_regs (m : Mach) (x : Word) : (m.putAnswer x).regs = m.regs := rfl
@[simp] theorem putAnswer_tideOld (m : Mach) (x : Word) : (m.putAnswer x).tideOld = m.tideOld := rfl
@[simp] theorem putAnswer_refillOld (m : Mach) (x : Word) : (m.putAnswer x).refillOld = m.refillOld := rfl
@[simp] theorem putAnswer_latch (m : Mach) (x : Word) : (m.putAnswer x).latch = m.latch := rfl
@[simp] theorem putAnswer_shadow (m : Mach) (x : Word) : (m.putAnswer x).shadow = m.shadow := rfl
@[simp] theorem putAnswer_answer (m : Mach) (x : Word) : (m.putAnswer x).answer = x := rfl
@[simp] theorem putAnswer_peat (m : Mach) (x : Word) : (m.putAnswer x).peat = m.peat := rfl
@[simp] theorem putAnswer_cream (m : Mach) (x : Word) : (m.putAnswer x).cream = m.cream := rfl
@[simp] theorem putAnswer_tsram (m : Mach) (x : Word) : (m.putAnswer x).tsram = m.tsram := rfl
@[simp] theorem putAnswer_flash (m : Mach) (x : Word) : (m.putAnswer x).flash = m.flash := rfl
@[simp] theorem putAnswer_wr (m : Mach) (x : Word) : (m.putAnswer x).wr = m.wr := rfl
@[simp] theorem putAnswer_evq (m : Mach) (x : Word) : (m.putAnswer x).evq = m.evq := rfl
@[simp] theorem putAnswer_flt (m : Mach) (x : Word) : (m.putAnswer x).flt = m.flt := rfl
@[simp] theorem putAnswer_halted (m : Mach) (x : Word) : (m.putAnswer x).halted = m.halted := rfl
@[simp] theorem putAnswer_plan (m : Mach) (x : Word) : (m.putAnswer x).plan = m.plan := rfl
@[simp] theorem putAnswer_tm (m : Mach) (x : Word) : (m.putAnswer x).tm = m.tm := rfl
@[simp] theorem putAnswer_sent (m : Mach) (x : Word) : (m.putAnswer x).sent = m.sent := rfl
@[simp] theorem putAnswer_onOscillator (m : Mach) (x : Word) : (m.putAnswer x).onOscillator = m.onOscillator := rfl
@[simp] theorem putAnswer_xlt (m : Mach) (x : Word) : (m.putAnswer x).xlt = m.xlt := rfl
@[simp] theorem putAnswer_winCloses (m : Mach) (x : Word) : (m.putAnswer x).winCloses = m.winCloses := rfl
@[simp] theorem putAnswer_mem (m : Mach) (x : Word) : (m.putAnswer x).mem = m.mem := rfl
@[simp] theorem putAnswer_qe (m : Mach) (x : Word) : (m.putAnswer x).qe = m.qe := rfl
@[simp] theorem putAnswer_lode (m : Mach) (x : Word) : (m.putAnswer x).lode = m.lode := rfl
@[simp] theorem putAnswer_ciph (m : Mach) (x : Word) : (m.putAnswer x).ciph = m.ciph := rfl
@[simp] theorem putAnswer_beq (m : Mach) (x : Word) : (m.putAnswer x).beq = m.beq := rfl
@[simp] theorem putAnswer_rte (m : Mach) (x : Word) : (m.putAnswer x).rte = m.rte := rfl
@[simp] theorem putAnswer_ports (m : Mach) (x : Word) : (m.putAnswer x).ports = m.ports := rfl
@[simp] theorem putAnswer_fabric (m : Mach) (x : Word) : (m.putAnswer x).fabric = m.fabric := rfl
@[simp] theorem putAnswer_clk (m : Mach) (x : Word) : (m.putAnswer x).clk = m.clk := rfl
@[simp] theorem putAnswer_downs (m : Mach) (x : Word) : (m.putAnswer x).downs = m.downs := rfl
@[simp] theorem putAnswer_tileDowns (m : Mach) (x : Word) : (m.putAnswer x).tileDowns = m.tileDowns := rfl
@[simp] theorem putAnswer_chu (m : Mach) (x : Word) : (m.putAnswer x).chu = m.chu := rfl
@[simp] theorem putAnswer_cfg (m : Mach) (x : Word) : (m.putAnswer x).cfg = m.cfg := rfl
@[simp] theorem putAnswer_coll (m : Mach) (x : Word) : (m.putAnswer x).coll = m.coll := rfl
@[simp] theorem putAnswer_herdReset (m : Mach) (x : Word) : (m.putAnswer x).herdReset = m.herdReset := rfl
@[simp] theorem putAnswer_leases (m : Mach) (x : Word) : (m.putAnswer x).leases = m.leases := rfl
@[simp] theorem putAnswer_reg (m : Mach) (x : Word) (k : Nat) : (m.putAnswer x).reg k = m.reg k := rfl
@[simp] theorem putAnswer_get (m : Mach) (x : Word) (f : Fld) (i s : Nat) : (m.putAnswer x).get f i s = m.get f i s := rfl
@[simp] theorem putAnswer_bit (m : Mach) (x : Word) (f : Fld) (i s : Nat) : (m.putAnswer x).bit f i s = m.bit f i s := rfl
@[simp] theorem putAnswer_get64 (m : Mach) (x : Word) (f : Fld) (i s : Nat) : (m.putAnswer x).get64 f i s = m.get64 f i s := rfl

/-! ## `putEvq` -/

@[simp] theorem putEvq_variant (m : Mach) (x : List Event) : (m.putEvq x).variant = m.variant := rfl
@[simp] theorem putEvq_now (m : Mach) (x : List Event) : (m.putEvq x).now = m.now := rfl
@[simp] theorem putEvq_polder (m : Mach) (x : List Event) : (m.putEvq x).polder = m.polder := rfl
@[simp] theorem putEvq_rate (m : Mach) (x : List Event) : (m.putEvq x).rate = m.rate := rfl
@[simp] theorem putEvq_rateRem (m : Mach) (x : List Event) : (m.putEvq x).rateRem = m.rateRem := rfl
@[simp] theorem putEvq_freeCtr (m : Mach) (x : List Event) : (m.putEvq x).freeCtr = m.freeCtr := rfl
@[simp] theorem putEvq_regs (m : Mach) (x : List Event) : (m.putEvq x).regs = m.regs := rfl
@[simp] theorem putEvq_tideOld (m : Mach) (x : List Event) : (m.putEvq x).tideOld = m.tideOld := rfl
@[simp] theorem putEvq_refillOld (m : Mach) (x : List Event) : (m.putEvq x).refillOld = m.refillOld := rfl
@[simp] theorem putEvq_latch (m : Mach) (x : List Event) : (m.putEvq x).latch = m.latch := rfl
@[simp] theorem putEvq_shadow (m : Mach) (x : List Event) : (m.putEvq x).shadow = m.shadow := rfl
@[simp] theorem putEvq_answer (m : Mach) (x : List Event) : (m.putEvq x).answer = m.answer := rfl
@[simp] theorem putEvq_peat (m : Mach) (x : List Event) : (m.putEvq x).peat = m.peat := rfl
@[simp] theorem putEvq_cream (m : Mach) (x : List Event) : (m.putEvq x).cream = m.cream := rfl
@[simp] theorem putEvq_tsram (m : Mach) (x : List Event) : (m.putEvq x).tsram = m.tsram := rfl
@[simp] theorem putEvq_flash (m : Mach) (x : List Event) : (m.putEvq x).flash = m.flash := rfl
@[simp] theorem putEvq_wr (m : Mach) (x : List Event) : (m.putEvq x).wr = m.wr := rfl
@[simp] theorem putEvq_evq (m : Mach) (x : List Event) : (m.putEvq x).evq = x := rfl
@[simp] theorem putEvq_flt (m : Mach) (x : List Event) : (m.putEvq x).flt = m.flt := rfl
@[simp] theorem putEvq_halted (m : Mach) (x : List Event) : (m.putEvq x).halted = m.halted := rfl
@[simp] theorem putEvq_plan (m : Mach) (x : List Event) : (m.putEvq x).plan = m.plan := rfl
@[simp] theorem putEvq_tm (m : Mach) (x : List Event) : (m.putEvq x).tm = m.tm := rfl
@[simp] theorem putEvq_sent (m : Mach) (x : List Event) : (m.putEvq x).sent = m.sent := rfl
@[simp] theorem putEvq_onOscillator (m : Mach) (x : List Event) : (m.putEvq x).onOscillator = m.onOscillator := rfl
@[simp] theorem putEvq_xlt (m : Mach) (x : List Event) : (m.putEvq x).xlt = m.xlt := rfl
@[simp] theorem putEvq_winCloses (m : Mach) (x : List Event) : (m.putEvq x).winCloses = m.winCloses := rfl
@[simp] theorem putEvq_mem (m : Mach) (x : List Event) : (m.putEvq x).mem = m.mem := rfl
@[simp] theorem putEvq_qe (m : Mach) (x : List Event) : (m.putEvq x).qe = m.qe := rfl
@[simp] theorem putEvq_lode (m : Mach) (x : List Event) : (m.putEvq x).lode = m.lode := rfl
@[simp] theorem putEvq_ciph (m : Mach) (x : List Event) : (m.putEvq x).ciph = m.ciph := rfl
@[simp] theorem putEvq_beq (m : Mach) (x : List Event) : (m.putEvq x).beq = m.beq := rfl
@[simp] theorem putEvq_rte (m : Mach) (x : List Event) : (m.putEvq x).rte = m.rte := rfl
@[simp] theorem putEvq_ports (m : Mach) (x : List Event) : (m.putEvq x).ports = m.ports := rfl
@[simp] theorem putEvq_fabric (m : Mach) (x : List Event) : (m.putEvq x).fabric = m.fabric := rfl
@[simp] theorem putEvq_clk (m : Mach) (x : List Event) : (m.putEvq x).clk = m.clk := rfl
@[simp] theorem putEvq_downs (m : Mach) (x : List Event) : (m.putEvq x).downs = m.downs := rfl
@[simp] theorem putEvq_tileDowns (m : Mach) (x : List Event) : (m.putEvq x).tileDowns = m.tileDowns := rfl
@[simp] theorem putEvq_chu (m : Mach) (x : List Event) : (m.putEvq x).chu = m.chu := rfl
@[simp] theorem putEvq_cfg (m : Mach) (x : List Event) : (m.putEvq x).cfg = m.cfg := rfl
@[simp] theorem putEvq_coll (m : Mach) (x : List Event) : (m.putEvq x).coll = m.coll := rfl
@[simp] theorem putEvq_herdReset (m : Mach) (x : List Event) : (m.putEvq x).herdReset = m.herdReset := rfl
@[simp] theorem putEvq_leases (m : Mach) (x : List Event) : (m.putEvq x).leases = m.leases := rfl
@[simp] theorem putEvq_reg (m : Mach) (x : List Event) (k : Nat) : (m.putEvq x).reg k = m.reg k := rfl
@[simp] theorem putEvq_get (m : Mach) (x : List Event) (f : Fld) (i s : Nat) : (m.putEvq x).get f i s = m.get f i s := rfl
@[simp] theorem putEvq_bit (m : Mach) (x : List Event) (f : Fld) (i s : Nat) : (m.putEvq x).bit f i s = m.bit f i s := rfl
@[simp] theorem putEvq_get64 (m : Mach) (x : List Event) (f : Fld) (i s : Nat) : (m.putEvq x).get64 f i s = m.get64 f i s := rfl

/-! ## `putFlt` -/

@[simp] theorem putFlt_variant (m : Mach) (x : FltSt) : (m.putFlt x).variant = m.variant := rfl
@[simp] theorem putFlt_now (m : Mach) (x : FltSt) : (m.putFlt x).now = m.now := rfl
@[simp] theorem putFlt_polder (m : Mach) (x : FltSt) : (m.putFlt x).polder = m.polder := rfl
@[simp] theorem putFlt_rate (m : Mach) (x : FltSt) : (m.putFlt x).rate = m.rate := rfl
@[simp] theorem putFlt_rateRem (m : Mach) (x : FltSt) : (m.putFlt x).rateRem = m.rateRem := rfl
@[simp] theorem putFlt_freeCtr (m : Mach) (x : FltSt) : (m.putFlt x).freeCtr = m.freeCtr := rfl
@[simp] theorem putFlt_regs (m : Mach) (x : FltSt) : (m.putFlt x).regs = m.regs := rfl
@[simp] theorem putFlt_tideOld (m : Mach) (x : FltSt) : (m.putFlt x).tideOld = m.tideOld := rfl
@[simp] theorem putFlt_refillOld (m : Mach) (x : FltSt) : (m.putFlt x).refillOld = m.refillOld := rfl
@[simp] theorem putFlt_latch (m : Mach) (x : FltSt) : (m.putFlt x).latch = m.latch := rfl
@[simp] theorem putFlt_shadow (m : Mach) (x : FltSt) : (m.putFlt x).shadow = m.shadow := rfl
@[simp] theorem putFlt_answer (m : Mach) (x : FltSt) : (m.putFlt x).answer = m.answer := rfl
@[simp] theorem putFlt_peat (m : Mach) (x : FltSt) : (m.putFlt x).peat = m.peat := rfl
@[simp] theorem putFlt_cream (m : Mach) (x : FltSt) : (m.putFlt x).cream = m.cream := rfl
@[simp] theorem putFlt_tsram (m : Mach) (x : FltSt) : (m.putFlt x).tsram = m.tsram := rfl
@[simp] theorem putFlt_flash (m : Mach) (x : FltSt) : (m.putFlt x).flash = m.flash := rfl
@[simp] theorem putFlt_wr (m : Mach) (x : FltSt) : (m.putFlt x).wr = m.wr := rfl
@[simp] theorem putFlt_evq (m : Mach) (x : FltSt) : (m.putFlt x).evq = m.evq := rfl
@[simp] theorem putFlt_flt (m : Mach) (x : FltSt) : (m.putFlt x).flt = x := rfl
@[simp] theorem putFlt_halted (m : Mach) (x : FltSt) : (m.putFlt x).halted = m.halted := rfl
@[simp] theorem putFlt_plan (m : Mach) (x : FltSt) : (m.putFlt x).plan = m.plan := rfl
@[simp] theorem putFlt_tm (m : Mach) (x : FltSt) : (m.putFlt x).tm = m.tm := rfl
@[simp] theorem putFlt_sent (m : Mach) (x : FltSt) : (m.putFlt x).sent = m.sent := rfl
@[simp] theorem putFlt_onOscillator (m : Mach) (x : FltSt) : (m.putFlt x).onOscillator = m.onOscillator := rfl
@[simp] theorem putFlt_xlt (m : Mach) (x : FltSt) : (m.putFlt x).xlt = m.xlt := rfl
@[simp] theorem putFlt_winCloses (m : Mach) (x : FltSt) : (m.putFlt x).winCloses = m.winCloses := rfl
@[simp] theorem putFlt_mem (m : Mach) (x : FltSt) : (m.putFlt x).mem = m.mem := rfl
@[simp] theorem putFlt_qe (m : Mach) (x : FltSt) : (m.putFlt x).qe = m.qe := rfl
@[simp] theorem putFlt_lode (m : Mach) (x : FltSt) : (m.putFlt x).lode = m.lode := rfl
@[simp] theorem putFlt_ciph (m : Mach) (x : FltSt) : (m.putFlt x).ciph = m.ciph := rfl
@[simp] theorem putFlt_beq (m : Mach) (x : FltSt) : (m.putFlt x).beq = m.beq := rfl
@[simp] theorem putFlt_rte (m : Mach) (x : FltSt) : (m.putFlt x).rte = m.rte := rfl
@[simp] theorem putFlt_ports (m : Mach) (x : FltSt) : (m.putFlt x).ports = m.ports := rfl
@[simp] theorem putFlt_fabric (m : Mach) (x : FltSt) : (m.putFlt x).fabric = m.fabric := rfl
@[simp] theorem putFlt_clk (m : Mach) (x : FltSt) : (m.putFlt x).clk = m.clk := rfl
@[simp] theorem putFlt_downs (m : Mach) (x : FltSt) : (m.putFlt x).downs = m.downs := rfl
@[simp] theorem putFlt_tileDowns (m : Mach) (x : FltSt) : (m.putFlt x).tileDowns = m.tileDowns := rfl
@[simp] theorem putFlt_chu (m : Mach) (x : FltSt) : (m.putFlt x).chu = m.chu := rfl
@[simp] theorem putFlt_cfg (m : Mach) (x : FltSt) : (m.putFlt x).cfg = m.cfg := rfl
@[simp] theorem putFlt_coll (m : Mach) (x : FltSt) : (m.putFlt x).coll = m.coll := rfl
@[simp] theorem putFlt_herdReset (m : Mach) (x : FltSt) : (m.putFlt x).herdReset = m.herdReset := rfl
@[simp] theorem putFlt_leases (m : Mach) (x : FltSt) : (m.putFlt x).leases = m.leases := rfl
@[simp] theorem putFlt_reg (m : Mach) (x : FltSt) (k : Nat) : (m.putFlt x).reg k = m.reg k := rfl
@[simp] theorem putFlt_get (m : Mach) (x : FltSt) (f : Fld) (i s : Nat) : (m.putFlt x).get f i s = m.get f i s := rfl
@[simp] theorem putFlt_bit (m : Mach) (x : FltSt) (f : Fld) (i s : Nat) : (m.putFlt x).bit f i s = m.bit f i s := rfl
@[simp] theorem putFlt_get64 (m : Mach) (x : FltSt) (f : Fld) (i s : Nat) : (m.putFlt x).get64 f i s = m.get64 f i s := rfl

/-! ## `putHalted` -/

@[simp] theorem putHalted_variant (m : Mach) (x : Bool) : (m.putHalted x).variant = m.variant := rfl
@[simp] theorem putHalted_now (m : Mach) (x : Bool) : (m.putHalted x).now = m.now := rfl
@[simp] theorem putHalted_polder (m : Mach) (x : Bool) : (m.putHalted x).polder = m.polder := rfl
@[simp] theorem putHalted_rate (m : Mach) (x : Bool) : (m.putHalted x).rate = m.rate := rfl
@[simp] theorem putHalted_rateRem (m : Mach) (x : Bool) : (m.putHalted x).rateRem = m.rateRem := rfl
@[simp] theorem putHalted_freeCtr (m : Mach) (x : Bool) : (m.putHalted x).freeCtr = m.freeCtr := rfl
@[simp] theorem putHalted_regs (m : Mach) (x : Bool) : (m.putHalted x).regs = m.regs := rfl
@[simp] theorem putHalted_tideOld (m : Mach) (x : Bool) : (m.putHalted x).tideOld = m.tideOld := rfl
@[simp] theorem putHalted_refillOld (m : Mach) (x : Bool) : (m.putHalted x).refillOld = m.refillOld := rfl
@[simp] theorem putHalted_latch (m : Mach) (x : Bool) : (m.putHalted x).latch = m.latch := rfl
@[simp] theorem putHalted_shadow (m : Mach) (x : Bool) : (m.putHalted x).shadow = m.shadow := rfl
@[simp] theorem putHalted_answer (m : Mach) (x : Bool) : (m.putHalted x).answer = m.answer := rfl
@[simp] theorem putHalted_peat (m : Mach) (x : Bool) : (m.putHalted x).peat = m.peat := rfl
@[simp] theorem putHalted_cream (m : Mach) (x : Bool) : (m.putHalted x).cream = m.cream := rfl
@[simp] theorem putHalted_tsram (m : Mach) (x : Bool) : (m.putHalted x).tsram = m.tsram := rfl
@[simp] theorem putHalted_flash (m : Mach) (x : Bool) : (m.putHalted x).flash = m.flash := rfl
@[simp] theorem putHalted_wr (m : Mach) (x : Bool) : (m.putHalted x).wr = m.wr := rfl
@[simp] theorem putHalted_evq (m : Mach) (x : Bool) : (m.putHalted x).evq = m.evq := rfl
@[simp] theorem putHalted_flt (m : Mach) (x : Bool) : (m.putHalted x).flt = m.flt := rfl
@[simp] theorem putHalted_halted (m : Mach) (x : Bool) : (m.putHalted x).halted = x := rfl
@[simp] theorem putHalted_plan (m : Mach) (x : Bool) : (m.putHalted x).plan = m.plan := rfl
@[simp] theorem putHalted_tm (m : Mach) (x : Bool) : (m.putHalted x).tm = m.tm := rfl
@[simp] theorem putHalted_sent (m : Mach) (x : Bool) : (m.putHalted x).sent = m.sent := rfl
@[simp] theorem putHalted_onOscillator (m : Mach) (x : Bool) : (m.putHalted x).onOscillator = m.onOscillator := rfl
@[simp] theorem putHalted_xlt (m : Mach) (x : Bool) : (m.putHalted x).xlt = m.xlt := rfl
@[simp] theorem putHalted_winCloses (m : Mach) (x : Bool) : (m.putHalted x).winCloses = m.winCloses := rfl
@[simp] theorem putHalted_mem (m : Mach) (x : Bool) : (m.putHalted x).mem = m.mem := rfl
@[simp] theorem putHalted_qe (m : Mach) (x : Bool) : (m.putHalted x).qe = m.qe := rfl
@[simp] theorem putHalted_lode (m : Mach) (x : Bool) : (m.putHalted x).lode = m.lode := rfl
@[simp] theorem putHalted_ciph (m : Mach) (x : Bool) : (m.putHalted x).ciph = m.ciph := rfl
@[simp] theorem putHalted_beq (m : Mach) (x : Bool) : (m.putHalted x).beq = m.beq := rfl
@[simp] theorem putHalted_rte (m : Mach) (x : Bool) : (m.putHalted x).rte = m.rte := rfl
@[simp] theorem putHalted_ports (m : Mach) (x : Bool) : (m.putHalted x).ports = m.ports := rfl
@[simp] theorem putHalted_fabric (m : Mach) (x : Bool) : (m.putHalted x).fabric = m.fabric := rfl
@[simp] theorem putHalted_clk (m : Mach) (x : Bool) : (m.putHalted x).clk = m.clk := rfl
@[simp] theorem putHalted_downs (m : Mach) (x : Bool) : (m.putHalted x).downs = m.downs := rfl
@[simp] theorem putHalted_tileDowns (m : Mach) (x : Bool) : (m.putHalted x).tileDowns = m.tileDowns := rfl
@[simp] theorem putHalted_chu (m : Mach) (x : Bool) : (m.putHalted x).chu = m.chu := rfl
@[simp] theorem putHalted_cfg (m : Mach) (x : Bool) : (m.putHalted x).cfg = m.cfg := rfl
@[simp] theorem putHalted_coll (m : Mach) (x : Bool) : (m.putHalted x).coll = m.coll := rfl
@[simp] theorem putHalted_herdReset (m : Mach) (x : Bool) : (m.putHalted x).herdReset = m.herdReset := rfl
@[simp] theorem putHalted_leases (m : Mach) (x : Bool) : (m.putHalted x).leases = m.leases := rfl
@[simp] theorem putHalted_reg (m : Mach) (x : Bool) (k : Nat) : (m.putHalted x).reg k = m.reg k := rfl
@[simp] theorem putHalted_get (m : Mach) (x : Bool) (f : Fld) (i s : Nat) : (m.putHalted x).get f i s = m.get f i s := rfl
@[simp] theorem putHalted_bit (m : Mach) (x : Bool) (f : Fld) (i s : Nat) : (m.putHalted x).bit f i s = m.bit f i s := rfl
@[simp] theorem putHalted_get64 (m : Mach) (x : Bool) (f : Fld) (i s : Nat) : (m.putHalted x).get64 f i s = m.get64 f i s := rfl

/-! ## `putPlan` -/

@[simp] theorem putPlan_variant (m : Mach) (x : PlanSt) : (m.putPlan x).variant = m.variant := rfl
@[simp] theorem putPlan_now (m : Mach) (x : PlanSt) : (m.putPlan x).now = m.now := rfl
@[simp] theorem putPlan_polder (m : Mach) (x : PlanSt) : (m.putPlan x).polder = m.polder := rfl
@[simp] theorem putPlan_rate (m : Mach) (x : PlanSt) : (m.putPlan x).rate = m.rate := rfl
@[simp] theorem putPlan_rateRem (m : Mach) (x : PlanSt) : (m.putPlan x).rateRem = m.rateRem := rfl
@[simp] theorem putPlan_freeCtr (m : Mach) (x : PlanSt) : (m.putPlan x).freeCtr = m.freeCtr := rfl
@[simp] theorem putPlan_regs (m : Mach) (x : PlanSt) : (m.putPlan x).regs = m.regs := rfl
@[simp] theorem putPlan_tideOld (m : Mach) (x : PlanSt) : (m.putPlan x).tideOld = m.tideOld := rfl
@[simp] theorem putPlan_refillOld (m : Mach) (x : PlanSt) : (m.putPlan x).refillOld = m.refillOld := rfl
@[simp] theorem putPlan_latch (m : Mach) (x : PlanSt) : (m.putPlan x).latch = m.latch := rfl
@[simp] theorem putPlan_shadow (m : Mach) (x : PlanSt) : (m.putPlan x).shadow = m.shadow := rfl
@[simp] theorem putPlan_answer (m : Mach) (x : PlanSt) : (m.putPlan x).answer = m.answer := rfl
@[simp] theorem putPlan_peat (m : Mach) (x : PlanSt) : (m.putPlan x).peat = m.peat := rfl
@[simp] theorem putPlan_cream (m : Mach) (x : PlanSt) : (m.putPlan x).cream = m.cream := rfl
@[simp] theorem putPlan_tsram (m : Mach) (x : PlanSt) : (m.putPlan x).tsram = m.tsram := rfl
@[simp] theorem putPlan_flash (m : Mach) (x : PlanSt) : (m.putPlan x).flash = m.flash := rfl
@[simp] theorem putPlan_wr (m : Mach) (x : PlanSt) : (m.putPlan x).wr = m.wr := rfl
@[simp] theorem putPlan_evq (m : Mach) (x : PlanSt) : (m.putPlan x).evq = m.evq := rfl
@[simp] theorem putPlan_flt (m : Mach) (x : PlanSt) : (m.putPlan x).flt = m.flt := rfl
@[simp] theorem putPlan_halted (m : Mach) (x : PlanSt) : (m.putPlan x).halted = m.halted := rfl
@[simp] theorem putPlan_plan (m : Mach) (x : PlanSt) : (m.putPlan x).plan = x := rfl
@[simp] theorem putPlan_tm (m : Mach) (x : PlanSt) : (m.putPlan x).tm = m.tm := rfl
@[simp] theorem putPlan_sent (m : Mach) (x : PlanSt) : (m.putPlan x).sent = m.sent := rfl
@[simp] theorem putPlan_onOscillator (m : Mach) (x : PlanSt) : (m.putPlan x).onOscillator = m.onOscillator := rfl
@[simp] theorem putPlan_xlt (m : Mach) (x : PlanSt) : (m.putPlan x).xlt = m.xlt := rfl
@[simp] theorem putPlan_winCloses (m : Mach) (x : PlanSt) : (m.putPlan x).winCloses = m.winCloses := rfl
@[simp] theorem putPlan_mem (m : Mach) (x : PlanSt) : (m.putPlan x).mem = m.mem := rfl
@[simp] theorem putPlan_qe (m : Mach) (x : PlanSt) : (m.putPlan x).qe = m.qe := rfl
@[simp] theorem putPlan_lode (m : Mach) (x : PlanSt) : (m.putPlan x).lode = m.lode := rfl
@[simp] theorem putPlan_ciph (m : Mach) (x : PlanSt) : (m.putPlan x).ciph = m.ciph := rfl
@[simp] theorem putPlan_beq (m : Mach) (x : PlanSt) : (m.putPlan x).beq = m.beq := rfl
@[simp] theorem putPlan_rte (m : Mach) (x : PlanSt) : (m.putPlan x).rte = m.rte := rfl
@[simp] theorem putPlan_ports (m : Mach) (x : PlanSt) : (m.putPlan x).ports = m.ports := rfl
@[simp] theorem putPlan_fabric (m : Mach) (x : PlanSt) : (m.putPlan x).fabric = m.fabric := rfl
@[simp] theorem putPlan_clk (m : Mach) (x : PlanSt) : (m.putPlan x).clk = m.clk := rfl
@[simp] theorem putPlan_downs (m : Mach) (x : PlanSt) : (m.putPlan x).downs = m.downs := rfl
@[simp] theorem putPlan_tileDowns (m : Mach) (x : PlanSt) : (m.putPlan x).tileDowns = m.tileDowns := rfl
@[simp] theorem putPlan_chu (m : Mach) (x : PlanSt) : (m.putPlan x).chu = m.chu := rfl
@[simp] theorem putPlan_cfg (m : Mach) (x : PlanSt) : (m.putPlan x).cfg = m.cfg := rfl
@[simp] theorem putPlan_coll (m : Mach) (x : PlanSt) : (m.putPlan x).coll = m.coll := rfl
@[simp] theorem putPlan_herdReset (m : Mach) (x : PlanSt) : (m.putPlan x).herdReset = m.herdReset := rfl
@[simp] theorem putPlan_leases (m : Mach) (x : PlanSt) : (m.putPlan x).leases = m.leases := rfl
@[simp] theorem putPlan_reg (m : Mach) (x : PlanSt) (k : Nat) : (m.putPlan x).reg k = m.reg k := rfl
@[simp] theorem putPlan_get (m : Mach) (x : PlanSt) (f : Fld) (i s : Nat) : (m.putPlan x).get f i s = m.get f i s := rfl
@[simp] theorem putPlan_bit (m : Mach) (x : PlanSt) (f : Fld) (i s : Nat) : (m.putPlan x).bit f i s = m.bit f i s := rfl
@[simp] theorem putPlan_get64 (m : Mach) (x : PlanSt) (f : Fld) (i s : Nat) : (m.putPlan x).get64 f i s = m.get64 f i s := rfl

/-! ## `putTm` -/

@[simp] theorem putTm_variant (m : Mach) (x : TimeSt) : (m.putTm x).variant = m.variant := rfl
@[simp] theorem putTm_now (m : Mach) (x : TimeSt) : (m.putTm x).now = m.now := rfl
@[simp] theorem putTm_polder (m : Mach) (x : TimeSt) : (m.putTm x).polder = m.polder := rfl
@[simp] theorem putTm_rate (m : Mach) (x : TimeSt) : (m.putTm x).rate = m.rate := rfl
@[simp] theorem putTm_rateRem (m : Mach) (x : TimeSt) : (m.putTm x).rateRem = m.rateRem := rfl
@[simp] theorem putTm_freeCtr (m : Mach) (x : TimeSt) : (m.putTm x).freeCtr = m.freeCtr := rfl
@[simp] theorem putTm_regs (m : Mach) (x : TimeSt) : (m.putTm x).regs = m.regs := rfl
@[simp] theorem putTm_tideOld (m : Mach) (x : TimeSt) : (m.putTm x).tideOld = m.tideOld := rfl
@[simp] theorem putTm_refillOld (m : Mach) (x : TimeSt) : (m.putTm x).refillOld = m.refillOld := rfl
@[simp] theorem putTm_latch (m : Mach) (x : TimeSt) : (m.putTm x).latch = m.latch := rfl
@[simp] theorem putTm_shadow (m : Mach) (x : TimeSt) : (m.putTm x).shadow = m.shadow := rfl
@[simp] theorem putTm_answer (m : Mach) (x : TimeSt) : (m.putTm x).answer = m.answer := rfl
@[simp] theorem putTm_peat (m : Mach) (x : TimeSt) : (m.putTm x).peat = m.peat := rfl
@[simp] theorem putTm_cream (m : Mach) (x : TimeSt) : (m.putTm x).cream = m.cream := rfl
@[simp] theorem putTm_tsram (m : Mach) (x : TimeSt) : (m.putTm x).tsram = m.tsram := rfl
@[simp] theorem putTm_flash (m : Mach) (x : TimeSt) : (m.putTm x).flash = m.flash := rfl
@[simp] theorem putTm_wr (m : Mach) (x : TimeSt) : (m.putTm x).wr = m.wr := rfl
@[simp] theorem putTm_evq (m : Mach) (x : TimeSt) : (m.putTm x).evq = m.evq := rfl
@[simp] theorem putTm_flt (m : Mach) (x : TimeSt) : (m.putTm x).flt = m.flt := rfl
@[simp] theorem putTm_halted (m : Mach) (x : TimeSt) : (m.putTm x).halted = m.halted := rfl
@[simp] theorem putTm_plan (m : Mach) (x : TimeSt) : (m.putTm x).plan = m.plan := rfl
@[simp] theorem putTm_tm (m : Mach) (x : TimeSt) : (m.putTm x).tm = x := rfl
@[simp] theorem putTm_sent (m : Mach) (x : TimeSt) : (m.putTm x).sent = m.sent := rfl
@[simp] theorem putTm_onOscillator (m : Mach) (x : TimeSt) : (m.putTm x).onOscillator = m.onOscillator := rfl
@[simp] theorem putTm_xlt (m : Mach) (x : TimeSt) : (m.putTm x).xlt = m.xlt := rfl
@[simp] theorem putTm_winCloses (m : Mach) (x : TimeSt) : (m.putTm x).winCloses = m.winCloses := rfl
@[simp] theorem putTm_mem (m : Mach) (x : TimeSt) : (m.putTm x).mem = m.mem := rfl
@[simp] theorem putTm_qe (m : Mach) (x : TimeSt) : (m.putTm x).qe = m.qe := rfl
@[simp] theorem putTm_lode (m : Mach) (x : TimeSt) : (m.putTm x).lode = m.lode := rfl
@[simp] theorem putTm_ciph (m : Mach) (x : TimeSt) : (m.putTm x).ciph = m.ciph := rfl
@[simp] theorem putTm_beq (m : Mach) (x : TimeSt) : (m.putTm x).beq = m.beq := rfl
@[simp] theorem putTm_rte (m : Mach) (x : TimeSt) : (m.putTm x).rte = m.rte := rfl
@[simp] theorem putTm_ports (m : Mach) (x : TimeSt) : (m.putTm x).ports = m.ports := rfl
@[simp] theorem putTm_fabric (m : Mach) (x : TimeSt) : (m.putTm x).fabric = m.fabric := rfl
@[simp] theorem putTm_clk (m : Mach) (x : TimeSt) : (m.putTm x).clk = m.clk := rfl
@[simp] theorem putTm_downs (m : Mach) (x : TimeSt) : (m.putTm x).downs = m.downs := rfl
@[simp] theorem putTm_tileDowns (m : Mach) (x : TimeSt) : (m.putTm x).tileDowns = m.tileDowns := rfl
@[simp] theorem putTm_chu (m : Mach) (x : TimeSt) : (m.putTm x).chu = m.chu := rfl
@[simp] theorem putTm_cfg (m : Mach) (x : TimeSt) : (m.putTm x).cfg = m.cfg := rfl
@[simp] theorem putTm_coll (m : Mach) (x : TimeSt) : (m.putTm x).coll = m.coll := rfl
@[simp] theorem putTm_herdReset (m : Mach) (x : TimeSt) : (m.putTm x).herdReset = m.herdReset := rfl
@[simp] theorem putTm_leases (m : Mach) (x : TimeSt) : (m.putTm x).leases = m.leases := rfl
@[simp] theorem putTm_reg (m : Mach) (x : TimeSt) (k : Nat) : (m.putTm x).reg k = m.reg k := rfl
@[simp] theorem putTm_get (m : Mach) (x : TimeSt) (f : Fld) (i s : Nat) : (m.putTm x).get f i s = m.get f i s := rfl
@[simp] theorem putTm_bit (m : Mach) (x : TimeSt) (f : Fld) (i s : Nat) : (m.putTm x).bit f i s = m.bit f i s := rfl
@[simp] theorem putTm_get64 (m : Mach) (x : TimeSt) (f : Fld) (i s : Nat) : (m.putTm x).get64 f i s = m.get64 f i s := rfl

/-! ## `putSent` -/

@[simp] theorem putSent_variant (m : Mach) (x : List Out) : (m.putSent x).variant = m.variant := rfl
@[simp] theorem putSent_now (m : Mach) (x : List Out) : (m.putSent x).now = m.now := rfl
@[simp] theorem putSent_polder (m : Mach) (x : List Out) : (m.putSent x).polder = m.polder := rfl
@[simp] theorem putSent_rate (m : Mach) (x : List Out) : (m.putSent x).rate = m.rate := rfl
@[simp] theorem putSent_rateRem (m : Mach) (x : List Out) : (m.putSent x).rateRem = m.rateRem := rfl
@[simp] theorem putSent_freeCtr (m : Mach) (x : List Out) : (m.putSent x).freeCtr = m.freeCtr := rfl
@[simp] theorem putSent_regs (m : Mach) (x : List Out) : (m.putSent x).regs = m.regs := rfl
@[simp] theorem putSent_tideOld (m : Mach) (x : List Out) : (m.putSent x).tideOld = m.tideOld := rfl
@[simp] theorem putSent_refillOld (m : Mach) (x : List Out) : (m.putSent x).refillOld = m.refillOld := rfl
@[simp] theorem putSent_latch (m : Mach) (x : List Out) : (m.putSent x).latch = m.latch := rfl
@[simp] theorem putSent_shadow (m : Mach) (x : List Out) : (m.putSent x).shadow = m.shadow := rfl
@[simp] theorem putSent_answer (m : Mach) (x : List Out) : (m.putSent x).answer = m.answer := rfl
@[simp] theorem putSent_peat (m : Mach) (x : List Out) : (m.putSent x).peat = m.peat := rfl
@[simp] theorem putSent_cream (m : Mach) (x : List Out) : (m.putSent x).cream = m.cream := rfl
@[simp] theorem putSent_tsram (m : Mach) (x : List Out) : (m.putSent x).tsram = m.tsram := rfl
@[simp] theorem putSent_flash (m : Mach) (x : List Out) : (m.putSent x).flash = m.flash := rfl
@[simp] theorem putSent_wr (m : Mach) (x : List Out) : (m.putSent x).wr = m.wr := rfl
@[simp] theorem putSent_evq (m : Mach) (x : List Out) : (m.putSent x).evq = m.evq := rfl
@[simp] theorem putSent_flt (m : Mach) (x : List Out) : (m.putSent x).flt = m.flt := rfl
@[simp] theorem putSent_halted (m : Mach) (x : List Out) : (m.putSent x).halted = m.halted := rfl
@[simp] theorem putSent_plan (m : Mach) (x : List Out) : (m.putSent x).plan = m.plan := rfl
@[simp] theorem putSent_tm (m : Mach) (x : List Out) : (m.putSent x).tm = m.tm := rfl
@[simp] theorem putSent_sent (m : Mach) (x : List Out) : (m.putSent x).sent = x := rfl
@[simp] theorem putSent_onOscillator (m : Mach) (x : List Out) : (m.putSent x).onOscillator = m.onOscillator := rfl
@[simp] theorem putSent_xlt (m : Mach) (x : List Out) : (m.putSent x).xlt = m.xlt := rfl
@[simp] theorem putSent_winCloses (m : Mach) (x : List Out) : (m.putSent x).winCloses = m.winCloses := rfl
@[simp] theorem putSent_mem (m : Mach) (x : List Out) : (m.putSent x).mem = m.mem := rfl
@[simp] theorem putSent_qe (m : Mach) (x : List Out) : (m.putSent x).qe = m.qe := rfl
@[simp] theorem putSent_lode (m : Mach) (x : List Out) : (m.putSent x).lode = m.lode := rfl
@[simp] theorem putSent_ciph (m : Mach) (x : List Out) : (m.putSent x).ciph = m.ciph := rfl
@[simp] theorem putSent_beq (m : Mach) (x : List Out) : (m.putSent x).beq = m.beq := rfl
@[simp] theorem putSent_rte (m : Mach) (x : List Out) : (m.putSent x).rte = m.rte := rfl
@[simp] theorem putSent_ports (m : Mach) (x : List Out) : (m.putSent x).ports = m.ports := rfl
@[simp] theorem putSent_fabric (m : Mach) (x : List Out) : (m.putSent x).fabric = m.fabric := rfl
@[simp] theorem putSent_clk (m : Mach) (x : List Out) : (m.putSent x).clk = m.clk := rfl
@[simp] theorem putSent_downs (m : Mach) (x : List Out) : (m.putSent x).downs = m.downs := rfl
@[simp] theorem putSent_tileDowns (m : Mach) (x : List Out) : (m.putSent x).tileDowns = m.tileDowns := rfl
@[simp] theorem putSent_chu (m : Mach) (x : List Out) : (m.putSent x).chu = m.chu := rfl
@[simp] theorem putSent_cfg (m : Mach) (x : List Out) : (m.putSent x).cfg = m.cfg := rfl
@[simp] theorem putSent_coll (m : Mach) (x : List Out) : (m.putSent x).coll = m.coll := rfl
@[simp] theorem putSent_herdReset (m : Mach) (x : List Out) : (m.putSent x).herdReset = m.herdReset := rfl
@[simp] theorem putSent_leases (m : Mach) (x : List Out) : (m.putSent x).leases = m.leases := rfl
@[simp] theorem putSent_reg (m : Mach) (x : List Out) (k : Nat) : (m.putSent x).reg k = m.reg k := rfl
@[simp] theorem putSent_get (m : Mach) (x : List Out) (f : Fld) (i s : Nat) : (m.putSent x).get f i s = m.get f i s := rfl
@[simp] theorem putSent_bit (m : Mach) (x : List Out) (f : Fld) (i s : Nat) : (m.putSent x).bit f i s = m.bit f i s := rfl
@[simp] theorem putSent_get64 (m : Mach) (x : List Out) (f : Fld) (i s : Nat) : (m.putSent x).get64 f i s = m.get64 f i s := rfl

/-! ## `putOnOscillator` -/

@[simp] theorem putOnOscillator_variant (m : Mach) (x : Bool) : (m.putOnOscillator x).variant = m.variant := rfl
@[simp] theorem putOnOscillator_now (m : Mach) (x : Bool) : (m.putOnOscillator x).now = m.now := rfl
@[simp] theorem putOnOscillator_polder (m : Mach) (x : Bool) : (m.putOnOscillator x).polder = m.polder := rfl
@[simp] theorem putOnOscillator_rate (m : Mach) (x : Bool) : (m.putOnOscillator x).rate = m.rate := rfl
@[simp] theorem putOnOscillator_rateRem (m : Mach) (x : Bool) : (m.putOnOscillator x).rateRem = m.rateRem := rfl
@[simp] theorem putOnOscillator_freeCtr (m : Mach) (x : Bool) : (m.putOnOscillator x).freeCtr = m.freeCtr := rfl
@[simp] theorem putOnOscillator_regs (m : Mach) (x : Bool) : (m.putOnOscillator x).regs = m.regs := rfl
@[simp] theorem putOnOscillator_tideOld (m : Mach) (x : Bool) : (m.putOnOscillator x).tideOld = m.tideOld := rfl
@[simp] theorem putOnOscillator_refillOld (m : Mach) (x : Bool) : (m.putOnOscillator x).refillOld = m.refillOld := rfl
@[simp] theorem putOnOscillator_latch (m : Mach) (x : Bool) : (m.putOnOscillator x).latch = m.latch := rfl
@[simp] theorem putOnOscillator_shadow (m : Mach) (x : Bool) : (m.putOnOscillator x).shadow = m.shadow := rfl
@[simp] theorem putOnOscillator_answer (m : Mach) (x : Bool) : (m.putOnOscillator x).answer = m.answer := rfl
@[simp] theorem putOnOscillator_peat (m : Mach) (x : Bool) : (m.putOnOscillator x).peat = m.peat := rfl
@[simp] theorem putOnOscillator_cream (m : Mach) (x : Bool) : (m.putOnOscillator x).cream = m.cream := rfl
@[simp] theorem putOnOscillator_tsram (m : Mach) (x : Bool) : (m.putOnOscillator x).tsram = m.tsram := rfl
@[simp] theorem putOnOscillator_flash (m : Mach) (x : Bool) : (m.putOnOscillator x).flash = m.flash := rfl
@[simp] theorem putOnOscillator_wr (m : Mach) (x : Bool) : (m.putOnOscillator x).wr = m.wr := rfl
@[simp] theorem putOnOscillator_evq (m : Mach) (x : Bool) : (m.putOnOscillator x).evq = m.evq := rfl
@[simp] theorem putOnOscillator_flt (m : Mach) (x : Bool) : (m.putOnOscillator x).flt = m.flt := rfl
@[simp] theorem putOnOscillator_halted (m : Mach) (x : Bool) : (m.putOnOscillator x).halted = m.halted := rfl
@[simp] theorem putOnOscillator_plan (m : Mach) (x : Bool) : (m.putOnOscillator x).plan = m.plan := rfl
@[simp] theorem putOnOscillator_tm (m : Mach) (x : Bool) : (m.putOnOscillator x).tm = m.tm := rfl
@[simp] theorem putOnOscillator_sent (m : Mach) (x : Bool) : (m.putOnOscillator x).sent = m.sent := rfl
@[simp] theorem putOnOscillator_onOscillator (m : Mach) (x : Bool) : (m.putOnOscillator x).onOscillator = x := rfl
@[simp] theorem putOnOscillator_xlt (m : Mach) (x : Bool) : (m.putOnOscillator x).xlt = m.xlt := rfl
@[simp] theorem putOnOscillator_winCloses (m : Mach) (x : Bool) : (m.putOnOscillator x).winCloses = m.winCloses := rfl
@[simp] theorem putOnOscillator_mem (m : Mach) (x : Bool) : (m.putOnOscillator x).mem = m.mem := rfl
@[simp] theorem putOnOscillator_qe (m : Mach) (x : Bool) : (m.putOnOscillator x).qe = m.qe := rfl
@[simp] theorem putOnOscillator_lode (m : Mach) (x : Bool) : (m.putOnOscillator x).lode = m.lode := rfl
@[simp] theorem putOnOscillator_ciph (m : Mach) (x : Bool) : (m.putOnOscillator x).ciph = m.ciph := rfl
@[simp] theorem putOnOscillator_beq (m : Mach) (x : Bool) : (m.putOnOscillator x).beq = m.beq := rfl
@[simp] theorem putOnOscillator_rte (m : Mach) (x : Bool) : (m.putOnOscillator x).rte = m.rte := rfl
@[simp] theorem putOnOscillator_ports (m : Mach) (x : Bool) : (m.putOnOscillator x).ports = m.ports := rfl
@[simp] theorem putOnOscillator_fabric (m : Mach) (x : Bool) : (m.putOnOscillator x).fabric = m.fabric := rfl
@[simp] theorem putOnOscillator_clk (m : Mach) (x : Bool) : (m.putOnOscillator x).clk = m.clk := rfl
@[simp] theorem putOnOscillator_downs (m : Mach) (x : Bool) : (m.putOnOscillator x).downs = m.downs := rfl
@[simp] theorem putOnOscillator_tileDowns (m : Mach) (x : Bool) : (m.putOnOscillator x).tileDowns = m.tileDowns := rfl
@[simp] theorem putOnOscillator_chu (m : Mach) (x : Bool) : (m.putOnOscillator x).chu = m.chu := rfl
@[simp] theorem putOnOscillator_cfg (m : Mach) (x : Bool) : (m.putOnOscillator x).cfg = m.cfg := rfl
@[simp] theorem putOnOscillator_coll (m : Mach) (x : Bool) : (m.putOnOscillator x).coll = m.coll := rfl
@[simp] theorem putOnOscillator_herdReset (m : Mach) (x : Bool) : (m.putOnOscillator x).herdReset = m.herdReset := rfl
@[simp] theorem putOnOscillator_leases (m : Mach) (x : Bool) : (m.putOnOscillator x).leases = m.leases := rfl
@[simp] theorem putOnOscillator_reg (m : Mach) (x : Bool) (k : Nat) : (m.putOnOscillator x).reg k = m.reg k := rfl
@[simp] theorem putOnOscillator_get (m : Mach) (x : Bool) (f : Fld) (i s : Nat) : (m.putOnOscillator x).get f i s = m.get f i s := rfl
@[simp] theorem putOnOscillator_bit (m : Mach) (x : Bool) (f : Fld) (i s : Nat) : (m.putOnOscillator x).bit f i s = m.bit f i s := rfl
@[simp] theorem putOnOscillator_get64 (m : Mach) (x : Bool) (f : Fld) (i s : Nat) : (m.putOnOscillator x).get64 f i s = m.get64 f i s := rfl

/-! ## `putXlt` -/

@[simp] theorem putXlt_variant (m : Mach) (x : XltSt) : (m.putXlt x).variant = m.variant := rfl
@[simp] theorem putXlt_now (m : Mach) (x : XltSt) : (m.putXlt x).now = m.now := rfl
@[simp] theorem putXlt_polder (m : Mach) (x : XltSt) : (m.putXlt x).polder = m.polder := rfl
@[simp] theorem putXlt_rate (m : Mach) (x : XltSt) : (m.putXlt x).rate = m.rate := rfl
@[simp] theorem putXlt_rateRem (m : Mach) (x : XltSt) : (m.putXlt x).rateRem = m.rateRem := rfl
@[simp] theorem putXlt_freeCtr (m : Mach) (x : XltSt) : (m.putXlt x).freeCtr = m.freeCtr := rfl
@[simp] theorem putXlt_regs (m : Mach) (x : XltSt) : (m.putXlt x).regs = m.regs := rfl
@[simp] theorem putXlt_tideOld (m : Mach) (x : XltSt) : (m.putXlt x).tideOld = m.tideOld := rfl
@[simp] theorem putXlt_refillOld (m : Mach) (x : XltSt) : (m.putXlt x).refillOld = m.refillOld := rfl
@[simp] theorem putXlt_latch (m : Mach) (x : XltSt) : (m.putXlt x).latch = m.latch := rfl
@[simp] theorem putXlt_shadow (m : Mach) (x : XltSt) : (m.putXlt x).shadow = m.shadow := rfl
@[simp] theorem putXlt_answer (m : Mach) (x : XltSt) : (m.putXlt x).answer = m.answer := rfl
@[simp] theorem putXlt_peat (m : Mach) (x : XltSt) : (m.putXlt x).peat = m.peat := rfl
@[simp] theorem putXlt_cream (m : Mach) (x : XltSt) : (m.putXlt x).cream = m.cream := rfl
@[simp] theorem putXlt_tsram (m : Mach) (x : XltSt) : (m.putXlt x).tsram = m.tsram := rfl
@[simp] theorem putXlt_flash (m : Mach) (x : XltSt) : (m.putXlt x).flash = m.flash := rfl
@[simp] theorem putXlt_wr (m : Mach) (x : XltSt) : (m.putXlt x).wr = m.wr := rfl
@[simp] theorem putXlt_evq (m : Mach) (x : XltSt) : (m.putXlt x).evq = m.evq := rfl
@[simp] theorem putXlt_flt (m : Mach) (x : XltSt) : (m.putXlt x).flt = m.flt := rfl
@[simp] theorem putXlt_halted (m : Mach) (x : XltSt) : (m.putXlt x).halted = m.halted := rfl
@[simp] theorem putXlt_plan (m : Mach) (x : XltSt) : (m.putXlt x).plan = m.plan := rfl
@[simp] theorem putXlt_tm (m : Mach) (x : XltSt) : (m.putXlt x).tm = m.tm := rfl
@[simp] theorem putXlt_sent (m : Mach) (x : XltSt) : (m.putXlt x).sent = m.sent := rfl
@[simp] theorem putXlt_onOscillator (m : Mach) (x : XltSt) : (m.putXlt x).onOscillator = m.onOscillator := rfl
@[simp] theorem putXlt_xlt (m : Mach) (x : XltSt) : (m.putXlt x).xlt = x := rfl
@[simp] theorem putXlt_winCloses (m : Mach) (x : XltSt) : (m.putXlt x).winCloses = m.winCloses := rfl
@[simp] theorem putXlt_mem (m : Mach) (x : XltSt) : (m.putXlt x).mem = m.mem := rfl
@[simp] theorem putXlt_qe (m : Mach) (x : XltSt) : (m.putXlt x).qe = m.qe := rfl
@[simp] theorem putXlt_lode (m : Mach) (x : XltSt) : (m.putXlt x).lode = m.lode := rfl
@[simp] theorem putXlt_ciph (m : Mach) (x : XltSt) : (m.putXlt x).ciph = m.ciph := rfl
@[simp] theorem putXlt_beq (m : Mach) (x : XltSt) : (m.putXlt x).beq = m.beq := rfl
@[simp] theorem putXlt_rte (m : Mach) (x : XltSt) : (m.putXlt x).rte = m.rte := rfl
@[simp] theorem putXlt_ports (m : Mach) (x : XltSt) : (m.putXlt x).ports = m.ports := rfl
@[simp] theorem putXlt_fabric (m : Mach) (x : XltSt) : (m.putXlt x).fabric = m.fabric := rfl
@[simp] theorem putXlt_clk (m : Mach) (x : XltSt) : (m.putXlt x).clk = m.clk := rfl
@[simp] theorem putXlt_downs (m : Mach) (x : XltSt) : (m.putXlt x).downs = m.downs := rfl
@[simp] theorem putXlt_tileDowns (m : Mach) (x : XltSt) : (m.putXlt x).tileDowns = m.tileDowns := rfl
@[simp] theorem putXlt_chu (m : Mach) (x : XltSt) : (m.putXlt x).chu = m.chu := rfl
@[simp] theorem putXlt_cfg (m : Mach) (x : XltSt) : (m.putXlt x).cfg = m.cfg := rfl
@[simp] theorem putXlt_coll (m : Mach) (x : XltSt) : (m.putXlt x).coll = m.coll := rfl
@[simp] theorem putXlt_herdReset (m : Mach) (x : XltSt) : (m.putXlt x).herdReset = m.herdReset := rfl
@[simp] theorem putXlt_leases (m : Mach) (x : XltSt) : (m.putXlt x).leases = m.leases := rfl
@[simp] theorem putXlt_reg (m : Mach) (x : XltSt) (k : Nat) : (m.putXlt x).reg k = m.reg k := rfl
@[simp] theorem putXlt_get (m : Mach) (x : XltSt) (f : Fld) (i s : Nat) : (m.putXlt x).get f i s = m.get f i s := rfl
@[simp] theorem putXlt_bit (m : Mach) (x : XltSt) (f : Fld) (i s : Nat) : (m.putXlt x).bit f i s = m.bit f i s := rfl
@[simp] theorem putXlt_get64 (m : Mach) (x : XltSt) (f : Fld) (i s : Nat) : (m.putXlt x).get64 f i s = m.get64 f i s := rfl

/-! ## `putWinCloses` -/

@[simp] theorem putWinCloses_variant (m : Mach) (x : List WinClose) : (m.putWinCloses x).variant = m.variant := rfl
@[simp] theorem putWinCloses_now (m : Mach) (x : List WinClose) : (m.putWinCloses x).now = m.now := rfl
@[simp] theorem putWinCloses_polder (m : Mach) (x : List WinClose) : (m.putWinCloses x).polder = m.polder := rfl
@[simp] theorem putWinCloses_rate (m : Mach) (x : List WinClose) : (m.putWinCloses x).rate = m.rate := rfl
@[simp] theorem putWinCloses_rateRem (m : Mach) (x : List WinClose) : (m.putWinCloses x).rateRem = m.rateRem := rfl
@[simp] theorem putWinCloses_freeCtr (m : Mach) (x : List WinClose) : (m.putWinCloses x).freeCtr = m.freeCtr := rfl
@[simp] theorem putWinCloses_regs (m : Mach) (x : List WinClose) : (m.putWinCloses x).regs = m.regs := rfl
@[simp] theorem putWinCloses_tideOld (m : Mach) (x : List WinClose) : (m.putWinCloses x).tideOld = m.tideOld := rfl
@[simp] theorem putWinCloses_refillOld (m : Mach) (x : List WinClose) : (m.putWinCloses x).refillOld = m.refillOld := rfl
@[simp] theorem putWinCloses_latch (m : Mach) (x : List WinClose) : (m.putWinCloses x).latch = m.latch := rfl
@[simp] theorem putWinCloses_shadow (m : Mach) (x : List WinClose) : (m.putWinCloses x).shadow = m.shadow := rfl
@[simp] theorem putWinCloses_answer (m : Mach) (x : List WinClose) : (m.putWinCloses x).answer = m.answer := rfl
@[simp] theorem putWinCloses_peat (m : Mach) (x : List WinClose) : (m.putWinCloses x).peat = m.peat := rfl
@[simp] theorem putWinCloses_cream (m : Mach) (x : List WinClose) : (m.putWinCloses x).cream = m.cream := rfl
@[simp] theorem putWinCloses_tsram (m : Mach) (x : List WinClose) : (m.putWinCloses x).tsram = m.tsram := rfl
@[simp] theorem putWinCloses_flash (m : Mach) (x : List WinClose) : (m.putWinCloses x).flash = m.flash := rfl
@[simp] theorem putWinCloses_wr (m : Mach) (x : List WinClose) : (m.putWinCloses x).wr = m.wr := rfl
@[simp] theorem putWinCloses_evq (m : Mach) (x : List WinClose) : (m.putWinCloses x).evq = m.evq := rfl
@[simp] theorem putWinCloses_flt (m : Mach) (x : List WinClose) : (m.putWinCloses x).flt = m.flt := rfl
@[simp] theorem putWinCloses_halted (m : Mach) (x : List WinClose) : (m.putWinCloses x).halted = m.halted := rfl
@[simp] theorem putWinCloses_plan (m : Mach) (x : List WinClose) : (m.putWinCloses x).plan = m.plan := rfl
@[simp] theorem putWinCloses_tm (m : Mach) (x : List WinClose) : (m.putWinCloses x).tm = m.tm := rfl
@[simp] theorem putWinCloses_sent (m : Mach) (x : List WinClose) : (m.putWinCloses x).sent = m.sent := rfl
@[simp] theorem putWinCloses_onOscillator (m : Mach) (x : List WinClose) : (m.putWinCloses x).onOscillator = m.onOscillator := rfl
@[simp] theorem putWinCloses_xlt (m : Mach) (x : List WinClose) : (m.putWinCloses x).xlt = m.xlt := rfl
@[simp] theorem putWinCloses_winCloses (m : Mach) (x : List WinClose) : (m.putWinCloses x).winCloses = x := rfl
@[simp] theorem putWinCloses_mem (m : Mach) (x : List WinClose) : (m.putWinCloses x).mem = m.mem := rfl
@[simp] theorem putWinCloses_qe (m : Mach) (x : List WinClose) : (m.putWinCloses x).qe = m.qe := rfl
@[simp] theorem putWinCloses_lode (m : Mach) (x : List WinClose) : (m.putWinCloses x).lode = m.lode := rfl
@[simp] theorem putWinCloses_ciph (m : Mach) (x : List WinClose) : (m.putWinCloses x).ciph = m.ciph := rfl
@[simp] theorem putWinCloses_beq (m : Mach) (x : List WinClose) : (m.putWinCloses x).beq = m.beq := rfl
@[simp] theorem putWinCloses_rte (m : Mach) (x : List WinClose) : (m.putWinCloses x).rte = m.rte := rfl
@[simp] theorem putWinCloses_ports (m : Mach) (x : List WinClose) : (m.putWinCloses x).ports = m.ports := rfl
@[simp] theorem putWinCloses_fabric (m : Mach) (x : List WinClose) : (m.putWinCloses x).fabric = m.fabric := rfl
@[simp] theorem putWinCloses_clk (m : Mach) (x : List WinClose) : (m.putWinCloses x).clk = m.clk := rfl
@[simp] theorem putWinCloses_downs (m : Mach) (x : List WinClose) : (m.putWinCloses x).downs = m.downs := rfl
@[simp] theorem putWinCloses_tileDowns (m : Mach) (x : List WinClose) : (m.putWinCloses x).tileDowns = m.tileDowns := rfl
@[simp] theorem putWinCloses_chu (m : Mach) (x : List WinClose) : (m.putWinCloses x).chu = m.chu := rfl
@[simp] theorem putWinCloses_cfg (m : Mach) (x : List WinClose) : (m.putWinCloses x).cfg = m.cfg := rfl
@[simp] theorem putWinCloses_coll (m : Mach) (x : List WinClose) : (m.putWinCloses x).coll = m.coll := rfl
@[simp] theorem putWinCloses_herdReset (m : Mach) (x : List WinClose) : (m.putWinCloses x).herdReset = m.herdReset := rfl
@[simp] theorem putWinCloses_leases (m : Mach) (x : List WinClose) : (m.putWinCloses x).leases = m.leases := rfl
@[simp] theorem putWinCloses_reg (m : Mach) (x : List WinClose) (k : Nat) : (m.putWinCloses x).reg k = m.reg k := rfl
@[simp] theorem putWinCloses_get (m : Mach) (x : List WinClose) (f : Fld) (i s : Nat) : (m.putWinCloses x).get f i s = m.get f i s := rfl
@[simp] theorem putWinCloses_bit (m : Mach) (x : List WinClose) (f : Fld) (i s : Nat) : (m.putWinCloses x).bit f i s = m.bit f i s := rfl
@[simp] theorem putWinCloses_get64 (m : Mach) (x : List WinClose) (f : Fld) (i s : Nat) : (m.putWinCloses x).get64 f i s = m.get64 f i s := rfl

/-! ## `putMem` -/

@[simp] theorem putMem_variant (m : Mach) (x : MemSt) : (m.putMem x).variant = m.variant := rfl
@[simp] theorem putMem_now (m : Mach) (x : MemSt) : (m.putMem x).now = m.now := rfl
@[simp] theorem putMem_polder (m : Mach) (x : MemSt) : (m.putMem x).polder = m.polder := rfl
@[simp] theorem putMem_rate (m : Mach) (x : MemSt) : (m.putMem x).rate = m.rate := rfl
@[simp] theorem putMem_rateRem (m : Mach) (x : MemSt) : (m.putMem x).rateRem = m.rateRem := rfl
@[simp] theorem putMem_freeCtr (m : Mach) (x : MemSt) : (m.putMem x).freeCtr = m.freeCtr := rfl
@[simp] theorem putMem_regs (m : Mach) (x : MemSt) : (m.putMem x).regs = m.regs := rfl
@[simp] theorem putMem_tideOld (m : Mach) (x : MemSt) : (m.putMem x).tideOld = m.tideOld := rfl
@[simp] theorem putMem_refillOld (m : Mach) (x : MemSt) : (m.putMem x).refillOld = m.refillOld := rfl
@[simp] theorem putMem_latch (m : Mach) (x : MemSt) : (m.putMem x).latch = m.latch := rfl
@[simp] theorem putMem_shadow (m : Mach) (x : MemSt) : (m.putMem x).shadow = m.shadow := rfl
@[simp] theorem putMem_answer (m : Mach) (x : MemSt) : (m.putMem x).answer = m.answer := rfl
@[simp] theorem putMem_peat (m : Mach) (x : MemSt) : (m.putMem x).peat = m.peat := rfl
@[simp] theorem putMem_cream (m : Mach) (x : MemSt) : (m.putMem x).cream = m.cream := rfl
@[simp] theorem putMem_tsram (m : Mach) (x : MemSt) : (m.putMem x).tsram = m.tsram := rfl
@[simp] theorem putMem_flash (m : Mach) (x : MemSt) : (m.putMem x).flash = m.flash := rfl
@[simp] theorem putMem_wr (m : Mach) (x : MemSt) : (m.putMem x).wr = m.wr := rfl
@[simp] theorem putMem_evq (m : Mach) (x : MemSt) : (m.putMem x).evq = m.evq := rfl
@[simp] theorem putMem_flt (m : Mach) (x : MemSt) : (m.putMem x).flt = m.flt := rfl
@[simp] theorem putMem_halted (m : Mach) (x : MemSt) : (m.putMem x).halted = m.halted := rfl
@[simp] theorem putMem_plan (m : Mach) (x : MemSt) : (m.putMem x).plan = m.plan := rfl
@[simp] theorem putMem_tm (m : Mach) (x : MemSt) : (m.putMem x).tm = m.tm := rfl
@[simp] theorem putMem_sent (m : Mach) (x : MemSt) : (m.putMem x).sent = m.sent := rfl
@[simp] theorem putMem_onOscillator (m : Mach) (x : MemSt) : (m.putMem x).onOscillator = m.onOscillator := rfl
@[simp] theorem putMem_xlt (m : Mach) (x : MemSt) : (m.putMem x).xlt = m.xlt := rfl
@[simp] theorem putMem_winCloses (m : Mach) (x : MemSt) : (m.putMem x).winCloses = m.winCloses := rfl
@[simp] theorem putMem_mem (m : Mach) (x : MemSt) : (m.putMem x).mem = x := rfl
@[simp] theorem putMem_qe (m : Mach) (x : MemSt) : (m.putMem x).qe = m.qe := rfl
@[simp] theorem putMem_lode (m : Mach) (x : MemSt) : (m.putMem x).lode = m.lode := rfl
@[simp] theorem putMem_ciph (m : Mach) (x : MemSt) : (m.putMem x).ciph = m.ciph := rfl
@[simp] theorem putMem_beq (m : Mach) (x : MemSt) : (m.putMem x).beq = m.beq := rfl
@[simp] theorem putMem_rte (m : Mach) (x : MemSt) : (m.putMem x).rte = m.rte := rfl
@[simp] theorem putMem_ports (m : Mach) (x : MemSt) : (m.putMem x).ports = m.ports := rfl
@[simp] theorem putMem_fabric (m : Mach) (x : MemSt) : (m.putMem x).fabric = m.fabric := rfl
@[simp] theorem putMem_clk (m : Mach) (x : MemSt) : (m.putMem x).clk = m.clk := rfl
@[simp] theorem putMem_downs (m : Mach) (x : MemSt) : (m.putMem x).downs = m.downs := rfl
@[simp] theorem putMem_tileDowns (m : Mach) (x : MemSt) : (m.putMem x).tileDowns = m.tileDowns := rfl
@[simp] theorem putMem_chu (m : Mach) (x : MemSt) : (m.putMem x).chu = m.chu := rfl
@[simp] theorem putMem_cfg (m : Mach) (x : MemSt) : (m.putMem x).cfg = m.cfg := rfl
@[simp] theorem putMem_coll (m : Mach) (x : MemSt) : (m.putMem x).coll = m.coll := rfl
@[simp] theorem putMem_herdReset (m : Mach) (x : MemSt) : (m.putMem x).herdReset = m.herdReset := rfl
@[simp] theorem putMem_leases (m : Mach) (x : MemSt) : (m.putMem x).leases = m.leases := rfl
@[simp] theorem putMem_reg (m : Mach) (x : MemSt) (k : Nat) : (m.putMem x).reg k = m.reg k := rfl
@[simp] theorem putMem_get (m : Mach) (x : MemSt) (f : Fld) (i s : Nat) : (m.putMem x).get f i s = m.get f i s := rfl
@[simp] theorem putMem_bit (m : Mach) (x : MemSt) (f : Fld) (i s : Nat) : (m.putMem x).bit f i s = m.bit f i s := rfl
@[simp] theorem putMem_get64 (m : Mach) (x : MemSt) (f : Fld) (i s : Nat) : (m.putMem x).get64 f i s = m.get64 f i s := rfl

/-! ## `putQe` -/

@[simp] theorem putQe_variant (m : Mach) (x : QeSt) : (m.putQe x).variant = m.variant := rfl
@[simp] theorem putQe_now (m : Mach) (x : QeSt) : (m.putQe x).now = m.now := rfl
@[simp] theorem putQe_polder (m : Mach) (x : QeSt) : (m.putQe x).polder = m.polder := rfl
@[simp] theorem putQe_rate (m : Mach) (x : QeSt) : (m.putQe x).rate = m.rate := rfl
@[simp] theorem putQe_rateRem (m : Mach) (x : QeSt) : (m.putQe x).rateRem = m.rateRem := rfl
@[simp] theorem putQe_freeCtr (m : Mach) (x : QeSt) : (m.putQe x).freeCtr = m.freeCtr := rfl
@[simp] theorem putQe_regs (m : Mach) (x : QeSt) : (m.putQe x).regs = m.regs := rfl
@[simp] theorem putQe_tideOld (m : Mach) (x : QeSt) : (m.putQe x).tideOld = m.tideOld := rfl
@[simp] theorem putQe_refillOld (m : Mach) (x : QeSt) : (m.putQe x).refillOld = m.refillOld := rfl
@[simp] theorem putQe_latch (m : Mach) (x : QeSt) : (m.putQe x).latch = m.latch := rfl
@[simp] theorem putQe_shadow (m : Mach) (x : QeSt) : (m.putQe x).shadow = m.shadow := rfl
@[simp] theorem putQe_answer (m : Mach) (x : QeSt) : (m.putQe x).answer = m.answer := rfl
@[simp] theorem putQe_peat (m : Mach) (x : QeSt) : (m.putQe x).peat = m.peat := rfl
@[simp] theorem putQe_cream (m : Mach) (x : QeSt) : (m.putQe x).cream = m.cream := rfl
@[simp] theorem putQe_tsram (m : Mach) (x : QeSt) : (m.putQe x).tsram = m.tsram := rfl
@[simp] theorem putQe_flash (m : Mach) (x : QeSt) : (m.putQe x).flash = m.flash := rfl
@[simp] theorem putQe_wr (m : Mach) (x : QeSt) : (m.putQe x).wr = m.wr := rfl
@[simp] theorem putQe_evq (m : Mach) (x : QeSt) : (m.putQe x).evq = m.evq := rfl
@[simp] theorem putQe_flt (m : Mach) (x : QeSt) : (m.putQe x).flt = m.flt := rfl
@[simp] theorem putQe_halted (m : Mach) (x : QeSt) : (m.putQe x).halted = m.halted := rfl
@[simp] theorem putQe_plan (m : Mach) (x : QeSt) : (m.putQe x).plan = m.plan := rfl
@[simp] theorem putQe_tm (m : Mach) (x : QeSt) : (m.putQe x).tm = m.tm := rfl
@[simp] theorem putQe_sent (m : Mach) (x : QeSt) : (m.putQe x).sent = m.sent := rfl
@[simp] theorem putQe_onOscillator (m : Mach) (x : QeSt) : (m.putQe x).onOscillator = m.onOscillator := rfl
@[simp] theorem putQe_xlt (m : Mach) (x : QeSt) : (m.putQe x).xlt = m.xlt := rfl
@[simp] theorem putQe_winCloses (m : Mach) (x : QeSt) : (m.putQe x).winCloses = m.winCloses := rfl
@[simp] theorem putQe_mem (m : Mach) (x : QeSt) : (m.putQe x).mem = m.mem := rfl
@[simp] theorem putQe_qe (m : Mach) (x : QeSt) : (m.putQe x).qe = x := rfl
@[simp] theorem putQe_lode (m : Mach) (x : QeSt) : (m.putQe x).lode = m.lode := rfl
@[simp] theorem putQe_ciph (m : Mach) (x : QeSt) : (m.putQe x).ciph = m.ciph := rfl
@[simp] theorem putQe_beq (m : Mach) (x : QeSt) : (m.putQe x).beq = m.beq := rfl
@[simp] theorem putQe_rte (m : Mach) (x : QeSt) : (m.putQe x).rte = m.rte := rfl
@[simp] theorem putQe_ports (m : Mach) (x : QeSt) : (m.putQe x).ports = m.ports := rfl
@[simp] theorem putQe_fabric (m : Mach) (x : QeSt) : (m.putQe x).fabric = m.fabric := rfl
@[simp] theorem putQe_clk (m : Mach) (x : QeSt) : (m.putQe x).clk = m.clk := rfl
@[simp] theorem putQe_downs (m : Mach) (x : QeSt) : (m.putQe x).downs = m.downs := rfl
@[simp] theorem putQe_tileDowns (m : Mach) (x : QeSt) : (m.putQe x).tileDowns = m.tileDowns := rfl
@[simp] theorem putQe_chu (m : Mach) (x : QeSt) : (m.putQe x).chu = m.chu := rfl
@[simp] theorem putQe_cfg (m : Mach) (x : QeSt) : (m.putQe x).cfg = m.cfg := rfl
@[simp] theorem putQe_coll (m : Mach) (x : QeSt) : (m.putQe x).coll = m.coll := rfl
@[simp] theorem putQe_herdReset (m : Mach) (x : QeSt) : (m.putQe x).herdReset = m.herdReset := rfl
@[simp] theorem putQe_leases (m : Mach) (x : QeSt) : (m.putQe x).leases = m.leases := rfl
@[simp] theorem putQe_reg (m : Mach) (x : QeSt) (k : Nat) : (m.putQe x).reg k = m.reg k := rfl
@[simp] theorem putQe_get (m : Mach) (x : QeSt) (f : Fld) (i s : Nat) : (m.putQe x).get f i s = m.get f i s := rfl
@[simp] theorem putQe_bit (m : Mach) (x : QeSt) (f : Fld) (i s : Nat) : (m.putQe x).bit f i s = m.bit f i s := rfl
@[simp] theorem putQe_get64 (m : Mach) (x : QeSt) (f : Fld) (i s : Nat) : (m.putQe x).get64 f i s = m.get64 f i s := rfl

/-! ## `putLode` -/

@[simp] theorem putLode_variant (m : Mach) (x : LodeSt) : (m.putLode x).variant = m.variant := rfl
@[simp] theorem putLode_now (m : Mach) (x : LodeSt) : (m.putLode x).now = m.now := rfl
@[simp] theorem putLode_polder (m : Mach) (x : LodeSt) : (m.putLode x).polder = m.polder := rfl
@[simp] theorem putLode_rate (m : Mach) (x : LodeSt) : (m.putLode x).rate = m.rate := rfl
@[simp] theorem putLode_rateRem (m : Mach) (x : LodeSt) : (m.putLode x).rateRem = m.rateRem := rfl
@[simp] theorem putLode_freeCtr (m : Mach) (x : LodeSt) : (m.putLode x).freeCtr = m.freeCtr := rfl
@[simp] theorem putLode_regs (m : Mach) (x : LodeSt) : (m.putLode x).regs = m.regs := rfl
@[simp] theorem putLode_tideOld (m : Mach) (x : LodeSt) : (m.putLode x).tideOld = m.tideOld := rfl
@[simp] theorem putLode_refillOld (m : Mach) (x : LodeSt) : (m.putLode x).refillOld = m.refillOld := rfl
@[simp] theorem putLode_latch (m : Mach) (x : LodeSt) : (m.putLode x).latch = m.latch := rfl
@[simp] theorem putLode_shadow (m : Mach) (x : LodeSt) : (m.putLode x).shadow = m.shadow := rfl
@[simp] theorem putLode_answer (m : Mach) (x : LodeSt) : (m.putLode x).answer = m.answer := rfl
@[simp] theorem putLode_peat (m : Mach) (x : LodeSt) : (m.putLode x).peat = m.peat := rfl
@[simp] theorem putLode_cream (m : Mach) (x : LodeSt) : (m.putLode x).cream = m.cream := rfl
@[simp] theorem putLode_tsram (m : Mach) (x : LodeSt) : (m.putLode x).tsram = m.tsram := rfl
@[simp] theorem putLode_flash (m : Mach) (x : LodeSt) : (m.putLode x).flash = m.flash := rfl
@[simp] theorem putLode_wr (m : Mach) (x : LodeSt) : (m.putLode x).wr = m.wr := rfl
@[simp] theorem putLode_evq (m : Mach) (x : LodeSt) : (m.putLode x).evq = m.evq := rfl
@[simp] theorem putLode_flt (m : Mach) (x : LodeSt) : (m.putLode x).flt = m.flt := rfl
@[simp] theorem putLode_halted (m : Mach) (x : LodeSt) : (m.putLode x).halted = m.halted := rfl
@[simp] theorem putLode_plan (m : Mach) (x : LodeSt) : (m.putLode x).plan = m.plan := rfl
@[simp] theorem putLode_tm (m : Mach) (x : LodeSt) : (m.putLode x).tm = m.tm := rfl
@[simp] theorem putLode_sent (m : Mach) (x : LodeSt) : (m.putLode x).sent = m.sent := rfl
@[simp] theorem putLode_onOscillator (m : Mach) (x : LodeSt) : (m.putLode x).onOscillator = m.onOscillator := rfl
@[simp] theorem putLode_xlt (m : Mach) (x : LodeSt) : (m.putLode x).xlt = m.xlt := rfl
@[simp] theorem putLode_winCloses (m : Mach) (x : LodeSt) : (m.putLode x).winCloses = m.winCloses := rfl
@[simp] theorem putLode_mem (m : Mach) (x : LodeSt) : (m.putLode x).mem = m.mem := rfl
@[simp] theorem putLode_qe (m : Mach) (x : LodeSt) : (m.putLode x).qe = m.qe := rfl
@[simp] theorem putLode_lode (m : Mach) (x : LodeSt) : (m.putLode x).lode = x := rfl
@[simp] theorem putLode_ciph (m : Mach) (x : LodeSt) : (m.putLode x).ciph = m.ciph := rfl
@[simp] theorem putLode_beq (m : Mach) (x : LodeSt) : (m.putLode x).beq = m.beq := rfl
@[simp] theorem putLode_rte (m : Mach) (x : LodeSt) : (m.putLode x).rte = m.rte := rfl
@[simp] theorem putLode_ports (m : Mach) (x : LodeSt) : (m.putLode x).ports = m.ports := rfl
@[simp] theorem putLode_fabric (m : Mach) (x : LodeSt) : (m.putLode x).fabric = m.fabric := rfl
@[simp] theorem putLode_clk (m : Mach) (x : LodeSt) : (m.putLode x).clk = m.clk := rfl
@[simp] theorem putLode_downs (m : Mach) (x : LodeSt) : (m.putLode x).downs = m.downs := rfl
@[simp] theorem putLode_tileDowns (m : Mach) (x : LodeSt) : (m.putLode x).tileDowns = m.tileDowns := rfl
@[simp] theorem putLode_chu (m : Mach) (x : LodeSt) : (m.putLode x).chu = m.chu := rfl
@[simp] theorem putLode_cfg (m : Mach) (x : LodeSt) : (m.putLode x).cfg = m.cfg := rfl
@[simp] theorem putLode_coll (m : Mach) (x : LodeSt) : (m.putLode x).coll = m.coll := rfl
@[simp] theorem putLode_herdReset (m : Mach) (x : LodeSt) : (m.putLode x).herdReset = m.herdReset := rfl
@[simp] theorem putLode_leases (m : Mach) (x : LodeSt) : (m.putLode x).leases = m.leases := rfl
@[simp] theorem putLode_reg (m : Mach) (x : LodeSt) (k : Nat) : (m.putLode x).reg k = m.reg k := rfl
@[simp] theorem putLode_get (m : Mach) (x : LodeSt) (f : Fld) (i s : Nat) : (m.putLode x).get f i s = m.get f i s := rfl
@[simp] theorem putLode_bit (m : Mach) (x : LodeSt) (f : Fld) (i s : Nat) : (m.putLode x).bit f i s = m.bit f i s := rfl
@[simp] theorem putLode_get64 (m : Mach) (x : LodeSt) (f : Fld) (i s : Nat) : (m.putLode x).get64 f i s = m.get64 f i s := rfl

/-! ## `putCiph` -/

@[simp] theorem putCiph_variant (m : Mach) (x : CiphSt) : (m.putCiph x).variant = m.variant := rfl
@[simp] theorem putCiph_now (m : Mach) (x : CiphSt) : (m.putCiph x).now = m.now := rfl
@[simp] theorem putCiph_polder (m : Mach) (x : CiphSt) : (m.putCiph x).polder = m.polder := rfl
@[simp] theorem putCiph_rate (m : Mach) (x : CiphSt) : (m.putCiph x).rate = m.rate := rfl
@[simp] theorem putCiph_rateRem (m : Mach) (x : CiphSt) : (m.putCiph x).rateRem = m.rateRem := rfl
@[simp] theorem putCiph_freeCtr (m : Mach) (x : CiphSt) : (m.putCiph x).freeCtr = m.freeCtr := rfl
@[simp] theorem putCiph_regs (m : Mach) (x : CiphSt) : (m.putCiph x).regs = m.regs := rfl
@[simp] theorem putCiph_tideOld (m : Mach) (x : CiphSt) : (m.putCiph x).tideOld = m.tideOld := rfl
@[simp] theorem putCiph_refillOld (m : Mach) (x : CiphSt) : (m.putCiph x).refillOld = m.refillOld := rfl
@[simp] theorem putCiph_latch (m : Mach) (x : CiphSt) : (m.putCiph x).latch = m.latch := rfl
@[simp] theorem putCiph_shadow (m : Mach) (x : CiphSt) : (m.putCiph x).shadow = m.shadow := rfl
@[simp] theorem putCiph_answer (m : Mach) (x : CiphSt) : (m.putCiph x).answer = m.answer := rfl
@[simp] theorem putCiph_peat (m : Mach) (x : CiphSt) : (m.putCiph x).peat = m.peat := rfl
@[simp] theorem putCiph_cream (m : Mach) (x : CiphSt) : (m.putCiph x).cream = m.cream := rfl
@[simp] theorem putCiph_tsram (m : Mach) (x : CiphSt) : (m.putCiph x).tsram = m.tsram := rfl
@[simp] theorem putCiph_flash (m : Mach) (x : CiphSt) : (m.putCiph x).flash = m.flash := rfl
@[simp] theorem putCiph_wr (m : Mach) (x : CiphSt) : (m.putCiph x).wr = m.wr := rfl
@[simp] theorem putCiph_evq (m : Mach) (x : CiphSt) : (m.putCiph x).evq = m.evq := rfl
@[simp] theorem putCiph_flt (m : Mach) (x : CiphSt) : (m.putCiph x).flt = m.flt := rfl
@[simp] theorem putCiph_halted (m : Mach) (x : CiphSt) : (m.putCiph x).halted = m.halted := rfl
@[simp] theorem putCiph_plan (m : Mach) (x : CiphSt) : (m.putCiph x).plan = m.plan := rfl
@[simp] theorem putCiph_tm (m : Mach) (x : CiphSt) : (m.putCiph x).tm = m.tm := rfl
@[simp] theorem putCiph_sent (m : Mach) (x : CiphSt) : (m.putCiph x).sent = m.sent := rfl
@[simp] theorem putCiph_onOscillator (m : Mach) (x : CiphSt) : (m.putCiph x).onOscillator = m.onOscillator := rfl
@[simp] theorem putCiph_xlt (m : Mach) (x : CiphSt) : (m.putCiph x).xlt = m.xlt := rfl
@[simp] theorem putCiph_winCloses (m : Mach) (x : CiphSt) : (m.putCiph x).winCloses = m.winCloses := rfl
@[simp] theorem putCiph_mem (m : Mach) (x : CiphSt) : (m.putCiph x).mem = m.mem := rfl
@[simp] theorem putCiph_qe (m : Mach) (x : CiphSt) : (m.putCiph x).qe = m.qe := rfl
@[simp] theorem putCiph_lode (m : Mach) (x : CiphSt) : (m.putCiph x).lode = m.lode := rfl
@[simp] theorem putCiph_ciph (m : Mach) (x : CiphSt) : (m.putCiph x).ciph = x := rfl
@[simp] theorem putCiph_beq (m : Mach) (x : CiphSt) : (m.putCiph x).beq = m.beq := rfl
@[simp] theorem putCiph_rte (m : Mach) (x : CiphSt) : (m.putCiph x).rte = m.rte := rfl
@[simp] theorem putCiph_ports (m : Mach) (x : CiphSt) : (m.putCiph x).ports = m.ports := rfl
@[simp] theorem putCiph_fabric (m : Mach) (x : CiphSt) : (m.putCiph x).fabric = m.fabric := rfl
@[simp] theorem putCiph_clk (m : Mach) (x : CiphSt) : (m.putCiph x).clk = m.clk := rfl
@[simp] theorem putCiph_downs (m : Mach) (x : CiphSt) : (m.putCiph x).downs = m.downs := rfl
@[simp] theorem putCiph_tileDowns (m : Mach) (x : CiphSt) : (m.putCiph x).tileDowns = m.tileDowns := rfl
@[simp] theorem putCiph_chu (m : Mach) (x : CiphSt) : (m.putCiph x).chu = m.chu := rfl
@[simp] theorem putCiph_cfg (m : Mach) (x : CiphSt) : (m.putCiph x).cfg = m.cfg := rfl
@[simp] theorem putCiph_coll (m : Mach) (x : CiphSt) : (m.putCiph x).coll = m.coll := rfl
@[simp] theorem putCiph_herdReset (m : Mach) (x : CiphSt) : (m.putCiph x).herdReset = m.herdReset := rfl
@[simp] theorem putCiph_leases (m : Mach) (x : CiphSt) : (m.putCiph x).leases = m.leases := rfl
@[simp] theorem putCiph_reg (m : Mach) (x : CiphSt) (k : Nat) : (m.putCiph x).reg k = m.reg k := rfl
@[simp] theorem putCiph_get (m : Mach) (x : CiphSt) (f : Fld) (i s : Nat) : (m.putCiph x).get f i s = m.get f i s := rfl
@[simp] theorem putCiph_bit (m : Mach) (x : CiphSt) (f : Fld) (i s : Nat) : (m.putCiph x).bit f i s = m.bit f i s := rfl
@[simp] theorem putCiph_get64 (m : Mach) (x : CiphSt) (f : Fld) (i s : Nat) : (m.putCiph x).get64 f i s = m.get64 f i s := rfl

/-! ## `putBeq` -/

@[simp] theorem putBeq_variant (m : Mach) (x : BeqSt) : (m.putBeq x).variant = m.variant := rfl
@[simp] theorem putBeq_now (m : Mach) (x : BeqSt) : (m.putBeq x).now = m.now := rfl
@[simp] theorem putBeq_polder (m : Mach) (x : BeqSt) : (m.putBeq x).polder = m.polder := rfl
@[simp] theorem putBeq_rate (m : Mach) (x : BeqSt) : (m.putBeq x).rate = m.rate := rfl
@[simp] theorem putBeq_rateRem (m : Mach) (x : BeqSt) : (m.putBeq x).rateRem = m.rateRem := rfl
@[simp] theorem putBeq_freeCtr (m : Mach) (x : BeqSt) : (m.putBeq x).freeCtr = m.freeCtr := rfl
@[simp] theorem putBeq_regs (m : Mach) (x : BeqSt) : (m.putBeq x).regs = m.regs := rfl
@[simp] theorem putBeq_tideOld (m : Mach) (x : BeqSt) : (m.putBeq x).tideOld = m.tideOld := rfl
@[simp] theorem putBeq_refillOld (m : Mach) (x : BeqSt) : (m.putBeq x).refillOld = m.refillOld := rfl
@[simp] theorem putBeq_latch (m : Mach) (x : BeqSt) : (m.putBeq x).latch = m.latch := rfl
@[simp] theorem putBeq_shadow (m : Mach) (x : BeqSt) : (m.putBeq x).shadow = m.shadow := rfl
@[simp] theorem putBeq_answer (m : Mach) (x : BeqSt) : (m.putBeq x).answer = m.answer := rfl
@[simp] theorem putBeq_peat (m : Mach) (x : BeqSt) : (m.putBeq x).peat = m.peat := rfl
@[simp] theorem putBeq_cream (m : Mach) (x : BeqSt) : (m.putBeq x).cream = m.cream := rfl
@[simp] theorem putBeq_tsram (m : Mach) (x : BeqSt) : (m.putBeq x).tsram = m.tsram := rfl
@[simp] theorem putBeq_flash (m : Mach) (x : BeqSt) : (m.putBeq x).flash = m.flash := rfl
@[simp] theorem putBeq_wr (m : Mach) (x : BeqSt) : (m.putBeq x).wr = m.wr := rfl
@[simp] theorem putBeq_evq (m : Mach) (x : BeqSt) : (m.putBeq x).evq = m.evq := rfl
@[simp] theorem putBeq_flt (m : Mach) (x : BeqSt) : (m.putBeq x).flt = m.flt := rfl
@[simp] theorem putBeq_halted (m : Mach) (x : BeqSt) : (m.putBeq x).halted = m.halted := rfl
@[simp] theorem putBeq_plan (m : Mach) (x : BeqSt) : (m.putBeq x).plan = m.plan := rfl
@[simp] theorem putBeq_tm (m : Mach) (x : BeqSt) : (m.putBeq x).tm = m.tm := rfl
@[simp] theorem putBeq_sent (m : Mach) (x : BeqSt) : (m.putBeq x).sent = m.sent := rfl
@[simp] theorem putBeq_onOscillator (m : Mach) (x : BeqSt) : (m.putBeq x).onOscillator = m.onOscillator := rfl
@[simp] theorem putBeq_xlt (m : Mach) (x : BeqSt) : (m.putBeq x).xlt = m.xlt := rfl
@[simp] theorem putBeq_winCloses (m : Mach) (x : BeqSt) : (m.putBeq x).winCloses = m.winCloses := rfl
@[simp] theorem putBeq_mem (m : Mach) (x : BeqSt) : (m.putBeq x).mem = m.mem := rfl
@[simp] theorem putBeq_qe (m : Mach) (x : BeqSt) : (m.putBeq x).qe = m.qe := rfl
@[simp] theorem putBeq_lode (m : Mach) (x : BeqSt) : (m.putBeq x).lode = m.lode := rfl
@[simp] theorem putBeq_ciph (m : Mach) (x : BeqSt) : (m.putBeq x).ciph = m.ciph := rfl
@[simp] theorem putBeq_beq (m : Mach) (x : BeqSt) : (m.putBeq x).beq = x := rfl
@[simp] theorem putBeq_rte (m : Mach) (x : BeqSt) : (m.putBeq x).rte = m.rte := rfl
@[simp] theorem putBeq_ports (m : Mach) (x : BeqSt) : (m.putBeq x).ports = m.ports := rfl
@[simp] theorem putBeq_fabric (m : Mach) (x : BeqSt) : (m.putBeq x).fabric = m.fabric := rfl
@[simp] theorem putBeq_clk (m : Mach) (x : BeqSt) : (m.putBeq x).clk = m.clk := rfl
@[simp] theorem putBeq_downs (m : Mach) (x : BeqSt) : (m.putBeq x).downs = m.downs := rfl
@[simp] theorem putBeq_tileDowns (m : Mach) (x : BeqSt) : (m.putBeq x).tileDowns = m.tileDowns := rfl
@[simp] theorem putBeq_chu (m : Mach) (x : BeqSt) : (m.putBeq x).chu = m.chu := rfl
@[simp] theorem putBeq_cfg (m : Mach) (x : BeqSt) : (m.putBeq x).cfg = m.cfg := rfl
@[simp] theorem putBeq_coll (m : Mach) (x : BeqSt) : (m.putBeq x).coll = m.coll := rfl
@[simp] theorem putBeq_herdReset (m : Mach) (x : BeqSt) : (m.putBeq x).herdReset = m.herdReset := rfl
@[simp] theorem putBeq_leases (m : Mach) (x : BeqSt) : (m.putBeq x).leases = m.leases := rfl
@[simp] theorem putBeq_reg (m : Mach) (x : BeqSt) (k : Nat) : (m.putBeq x).reg k = m.reg k := rfl
@[simp] theorem putBeq_get (m : Mach) (x : BeqSt) (f : Fld) (i s : Nat) : (m.putBeq x).get f i s = m.get f i s := rfl
@[simp] theorem putBeq_bit (m : Mach) (x : BeqSt) (f : Fld) (i s : Nat) : (m.putBeq x).bit f i s = m.bit f i s := rfl
@[simp] theorem putBeq_get64 (m : Mach) (x : BeqSt) (f : Fld) (i s : Nat) : (m.putBeq x).get64 f i s = m.get64 f i s := rfl

/-! ## `putRte` -/

@[simp] theorem putRte_variant (m : Mach) (x : RteSt) : (m.putRte x).variant = m.variant := rfl
@[simp] theorem putRte_now (m : Mach) (x : RteSt) : (m.putRte x).now = m.now := rfl
@[simp] theorem putRte_polder (m : Mach) (x : RteSt) : (m.putRte x).polder = m.polder := rfl
@[simp] theorem putRte_rate (m : Mach) (x : RteSt) : (m.putRte x).rate = m.rate := rfl
@[simp] theorem putRte_rateRem (m : Mach) (x : RteSt) : (m.putRte x).rateRem = m.rateRem := rfl
@[simp] theorem putRte_freeCtr (m : Mach) (x : RteSt) : (m.putRte x).freeCtr = m.freeCtr := rfl
@[simp] theorem putRte_regs (m : Mach) (x : RteSt) : (m.putRte x).regs = m.regs := rfl
@[simp] theorem putRte_tideOld (m : Mach) (x : RteSt) : (m.putRte x).tideOld = m.tideOld := rfl
@[simp] theorem putRte_refillOld (m : Mach) (x : RteSt) : (m.putRte x).refillOld = m.refillOld := rfl
@[simp] theorem putRte_latch (m : Mach) (x : RteSt) : (m.putRte x).latch = m.latch := rfl
@[simp] theorem putRte_shadow (m : Mach) (x : RteSt) : (m.putRte x).shadow = m.shadow := rfl
@[simp] theorem putRte_answer (m : Mach) (x : RteSt) : (m.putRte x).answer = m.answer := rfl
@[simp] theorem putRte_peat (m : Mach) (x : RteSt) : (m.putRte x).peat = m.peat := rfl
@[simp] theorem putRte_cream (m : Mach) (x : RteSt) : (m.putRte x).cream = m.cream := rfl
@[simp] theorem putRte_tsram (m : Mach) (x : RteSt) : (m.putRte x).tsram = m.tsram := rfl
@[simp] theorem putRte_flash (m : Mach) (x : RteSt) : (m.putRte x).flash = m.flash := rfl
@[simp] theorem putRte_wr (m : Mach) (x : RteSt) : (m.putRte x).wr = m.wr := rfl
@[simp] theorem putRte_evq (m : Mach) (x : RteSt) : (m.putRte x).evq = m.evq := rfl
@[simp] theorem putRte_flt (m : Mach) (x : RteSt) : (m.putRte x).flt = m.flt := rfl
@[simp] theorem putRte_halted (m : Mach) (x : RteSt) : (m.putRte x).halted = m.halted := rfl
@[simp] theorem putRte_plan (m : Mach) (x : RteSt) : (m.putRte x).plan = m.plan := rfl
@[simp] theorem putRte_tm (m : Mach) (x : RteSt) : (m.putRte x).tm = m.tm := rfl
@[simp] theorem putRte_sent (m : Mach) (x : RteSt) : (m.putRte x).sent = m.sent := rfl
@[simp] theorem putRte_onOscillator (m : Mach) (x : RteSt) : (m.putRte x).onOscillator = m.onOscillator := rfl
@[simp] theorem putRte_xlt (m : Mach) (x : RteSt) : (m.putRte x).xlt = m.xlt := rfl
@[simp] theorem putRte_winCloses (m : Mach) (x : RteSt) : (m.putRte x).winCloses = m.winCloses := rfl
@[simp] theorem putRte_mem (m : Mach) (x : RteSt) : (m.putRte x).mem = m.mem := rfl
@[simp] theorem putRte_qe (m : Mach) (x : RteSt) : (m.putRte x).qe = m.qe := rfl
@[simp] theorem putRte_lode (m : Mach) (x : RteSt) : (m.putRte x).lode = m.lode := rfl
@[simp] theorem putRte_ciph (m : Mach) (x : RteSt) : (m.putRte x).ciph = m.ciph := rfl
@[simp] theorem putRte_beq (m : Mach) (x : RteSt) : (m.putRte x).beq = m.beq := rfl
@[simp] theorem putRte_rte (m : Mach) (x : RteSt) : (m.putRte x).rte = x := rfl
@[simp] theorem putRte_ports (m : Mach) (x : RteSt) : (m.putRte x).ports = m.ports := rfl
@[simp] theorem putRte_fabric (m : Mach) (x : RteSt) : (m.putRte x).fabric = m.fabric := rfl
@[simp] theorem putRte_clk (m : Mach) (x : RteSt) : (m.putRte x).clk = m.clk := rfl
@[simp] theorem putRte_downs (m : Mach) (x : RteSt) : (m.putRte x).downs = m.downs := rfl
@[simp] theorem putRte_tileDowns (m : Mach) (x : RteSt) : (m.putRte x).tileDowns = m.tileDowns := rfl
@[simp] theorem putRte_chu (m : Mach) (x : RteSt) : (m.putRte x).chu = m.chu := rfl
@[simp] theorem putRte_cfg (m : Mach) (x : RteSt) : (m.putRte x).cfg = m.cfg := rfl
@[simp] theorem putRte_coll (m : Mach) (x : RteSt) : (m.putRte x).coll = m.coll := rfl
@[simp] theorem putRte_herdReset (m : Mach) (x : RteSt) : (m.putRte x).herdReset = m.herdReset := rfl
@[simp] theorem putRte_leases (m : Mach) (x : RteSt) : (m.putRte x).leases = m.leases := rfl
@[simp] theorem putRte_reg (m : Mach) (x : RteSt) (k : Nat) : (m.putRte x).reg k = m.reg k := rfl
@[simp] theorem putRte_get (m : Mach) (x : RteSt) (f : Fld) (i s : Nat) : (m.putRte x).get f i s = m.get f i s := rfl
@[simp] theorem putRte_bit (m : Mach) (x : RteSt) (f : Fld) (i s : Nat) : (m.putRte x).bit f i s = m.bit f i s := rfl
@[simp] theorem putRte_get64 (m : Mach) (x : RteSt) (f : Fld) (i s : Nat) : (m.putRte x).get64 f i s = m.get64 f i s := rfl

/-! ## `putPorts` -/

@[simp] theorem putPorts_variant (m : Mach) (x : List (Nat × PortSt)) : (m.putPorts x).variant = m.variant := rfl
@[simp] theorem putPorts_now (m : Mach) (x : List (Nat × PortSt)) : (m.putPorts x).now = m.now := rfl
@[simp] theorem putPorts_polder (m : Mach) (x : List (Nat × PortSt)) : (m.putPorts x).polder = m.polder := rfl
@[simp] theorem putPorts_rate (m : Mach) (x : List (Nat × PortSt)) : (m.putPorts x).rate = m.rate := rfl
@[simp] theorem putPorts_rateRem (m : Mach) (x : List (Nat × PortSt)) : (m.putPorts x).rateRem = m.rateRem := rfl
@[simp] theorem putPorts_freeCtr (m : Mach) (x : List (Nat × PortSt)) : (m.putPorts x).freeCtr = m.freeCtr := rfl
@[simp] theorem putPorts_regs (m : Mach) (x : List (Nat × PortSt)) : (m.putPorts x).regs = m.regs := rfl
@[simp] theorem putPorts_tideOld (m : Mach) (x : List (Nat × PortSt)) : (m.putPorts x).tideOld = m.tideOld := rfl
@[simp] theorem putPorts_refillOld (m : Mach) (x : List (Nat × PortSt)) : (m.putPorts x).refillOld = m.refillOld := rfl
@[simp] theorem putPorts_latch (m : Mach) (x : List (Nat × PortSt)) : (m.putPorts x).latch = m.latch := rfl
@[simp] theorem putPorts_shadow (m : Mach) (x : List (Nat × PortSt)) : (m.putPorts x).shadow = m.shadow := rfl
@[simp] theorem putPorts_answer (m : Mach) (x : List (Nat × PortSt)) : (m.putPorts x).answer = m.answer := rfl
@[simp] theorem putPorts_peat (m : Mach) (x : List (Nat × PortSt)) : (m.putPorts x).peat = m.peat := rfl
@[simp] theorem putPorts_cream (m : Mach) (x : List (Nat × PortSt)) : (m.putPorts x).cream = m.cream := rfl
@[simp] theorem putPorts_tsram (m : Mach) (x : List (Nat × PortSt)) : (m.putPorts x).tsram = m.tsram := rfl
@[simp] theorem putPorts_flash (m : Mach) (x : List (Nat × PortSt)) : (m.putPorts x).flash = m.flash := rfl
@[simp] theorem putPorts_wr (m : Mach) (x : List (Nat × PortSt)) : (m.putPorts x).wr = m.wr := rfl
@[simp] theorem putPorts_evq (m : Mach) (x : List (Nat × PortSt)) : (m.putPorts x).evq = m.evq := rfl
@[simp] theorem putPorts_flt (m : Mach) (x : List (Nat × PortSt)) : (m.putPorts x).flt = m.flt := rfl
@[simp] theorem putPorts_halted (m : Mach) (x : List (Nat × PortSt)) : (m.putPorts x).halted = m.halted := rfl
@[simp] theorem putPorts_plan (m : Mach) (x : List (Nat × PortSt)) : (m.putPorts x).plan = m.plan := rfl
@[simp] theorem putPorts_tm (m : Mach) (x : List (Nat × PortSt)) : (m.putPorts x).tm = m.tm := rfl
@[simp] theorem putPorts_sent (m : Mach) (x : List (Nat × PortSt)) : (m.putPorts x).sent = m.sent := rfl
@[simp] theorem putPorts_onOscillator (m : Mach) (x : List (Nat × PortSt)) : (m.putPorts x).onOscillator = m.onOscillator := rfl
@[simp] theorem putPorts_xlt (m : Mach) (x : List (Nat × PortSt)) : (m.putPorts x).xlt = m.xlt := rfl
@[simp] theorem putPorts_winCloses (m : Mach) (x : List (Nat × PortSt)) : (m.putPorts x).winCloses = m.winCloses := rfl
@[simp] theorem putPorts_mem (m : Mach) (x : List (Nat × PortSt)) : (m.putPorts x).mem = m.mem := rfl
@[simp] theorem putPorts_qe (m : Mach) (x : List (Nat × PortSt)) : (m.putPorts x).qe = m.qe := rfl
@[simp] theorem putPorts_lode (m : Mach) (x : List (Nat × PortSt)) : (m.putPorts x).lode = m.lode := rfl
@[simp] theorem putPorts_ciph (m : Mach) (x : List (Nat × PortSt)) : (m.putPorts x).ciph = m.ciph := rfl
@[simp] theorem putPorts_beq (m : Mach) (x : List (Nat × PortSt)) : (m.putPorts x).beq = m.beq := rfl
@[simp] theorem putPorts_rte (m : Mach) (x : List (Nat × PortSt)) : (m.putPorts x).rte = m.rte := rfl
@[simp] theorem putPorts_ports (m : Mach) (x : List (Nat × PortSt)) : (m.putPorts x).ports = x := rfl
@[simp] theorem putPorts_fabric (m : Mach) (x : List (Nat × PortSt)) : (m.putPorts x).fabric = m.fabric := rfl
@[simp] theorem putPorts_clk (m : Mach) (x : List (Nat × PortSt)) : (m.putPorts x).clk = m.clk := rfl
@[simp] theorem putPorts_downs (m : Mach) (x : List (Nat × PortSt)) : (m.putPorts x).downs = m.downs := rfl
@[simp] theorem putPorts_tileDowns (m : Mach) (x : List (Nat × PortSt)) : (m.putPorts x).tileDowns = m.tileDowns := rfl
@[simp] theorem putPorts_chu (m : Mach) (x : List (Nat × PortSt)) : (m.putPorts x).chu = m.chu := rfl
@[simp] theorem putPorts_cfg (m : Mach) (x : List (Nat × PortSt)) : (m.putPorts x).cfg = m.cfg := rfl
@[simp] theorem putPorts_coll (m : Mach) (x : List (Nat × PortSt)) : (m.putPorts x).coll = m.coll := rfl
@[simp] theorem putPorts_herdReset (m : Mach) (x : List (Nat × PortSt)) : (m.putPorts x).herdReset = m.herdReset := rfl
@[simp] theorem putPorts_leases (m : Mach) (x : List (Nat × PortSt)) : (m.putPorts x).leases = m.leases := rfl
@[simp] theorem putPorts_reg (m : Mach) (x : List (Nat × PortSt)) (k : Nat) : (m.putPorts x).reg k = m.reg k := rfl
@[simp] theorem putPorts_get (m : Mach) (x : List (Nat × PortSt)) (f : Fld) (i s : Nat) : (m.putPorts x).get f i s = m.get f i s := rfl
@[simp] theorem putPorts_bit (m : Mach) (x : List (Nat × PortSt)) (f : Fld) (i s : Nat) : (m.putPorts x).bit f i s = m.bit f i s := rfl
@[simp] theorem putPorts_get64 (m : Mach) (x : List (Nat × PortSt)) (f : Fld) (i s : Nat) : (m.putPorts x).get64 f i s = m.get64 f i s := rfl

/-! ## `putFabric` -/

@[simp] theorem putFabric_variant (m : Mach) (x : List FabricOp) : (m.putFabric x).variant = m.variant := rfl
@[simp] theorem putFabric_now (m : Mach) (x : List FabricOp) : (m.putFabric x).now = m.now := rfl
@[simp] theorem putFabric_polder (m : Mach) (x : List FabricOp) : (m.putFabric x).polder = m.polder := rfl
@[simp] theorem putFabric_rate (m : Mach) (x : List FabricOp) : (m.putFabric x).rate = m.rate := rfl
@[simp] theorem putFabric_rateRem (m : Mach) (x : List FabricOp) : (m.putFabric x).rateRem = m.rateRem := rfl
@[simp] theorem putFabric_freeCtr (m : Mach) (x : List FabricOp) : (m.putFabric x).freeCtr = m.freeCtr := rfl
@[simp] theorem putFabric_regs (m : Mach) (x : List FabricOp) : (m.putFabric x).regs = m.regs := rfl
@[simp] theorem putFabric_tideOld (m : Mach) (x : List FabricOp) : (m.putFabric x).tideOld = m.tideOld := rfl
@[simp] theorem putFabric_refillOld (m : Mach) (x : List FabricOp) : (m.putFabric x).refillOld = m.refillOld := rfl
@[simp] theorem putFabric_latch (m : Mach) (x : List FabricOp) : (m.putFabric x).latch = m.latch := rfl
@[simp] theorem putFabric_shadow (m : Mach) (x : List FabricOp) : (m.putFabric x).shadow = m.shadow := rfl
@[simp] theorem putFabric_answer (m : Mach) (x : List FabricOp) : (m.putFabric x).answer = m.answer := rfl
@[simp] theorem putFabric_peat (m : Mach) (x : List FabricOp) : (m.putFabric x).peat = m.peat := rfl
@[simp] theorem putFabric_cream (m : Mach) (x : List FabricOp) : (m.putFabric x).cream = m.cream := rfl
@[simp] theorem putFabric_tsram (m : Mach) (x : List FabricOp) : (m.putFabric x).tsram = m.tsram := rfl
@[simp] theorem putFabric_flash (m : Mach) (x : List FabricOp) : (m.putFabric x).flash = m.flash := rfl
@[simp] theorem putFabric_wr (m : Mach) (x : List FabricOp) : (m.putFabric x).wr = m.wr := rfl
@[simp] theorem putFabric_evq (m : Mach) (x : List FabricOp) : (m.putFabric x).evq = m.evq := rfl
@[simp] theorem putFabric_flt (m : Mach) (x : List FabricOp) : (m.putFabric x).flt = m.flt := rfl
@[simp] theorem putFabric_halted (m : Mach) (x : List FabricOp) : (m.putFabric x).halted = m.halted := rfl
@[simp] theorem putFabric_plan (m : Mach) (x : List FabricOp) : (m.putFabric x).plan = m.plan := rfl
@[simp] theorem putFabric_tm (m : Mach) (x : List FabricOp) : (m.putFabric x).tm = m.tm := rfl
@[simp] theorem putFabric_sent (m : Mach) (x : List FabricOp) : (m.putFabric x).sent = m.sent := rfl
@[simp] theorem putFabric_onOscillator (m : Mach) (x : List FabricOp) : (m.putFabric x).onOscillator = m.onOscillator := rfl
@[simp] theorem putFabric_xlt (m : Mach) (x : List FabricOp) : (m.putFabric x).xlt = m.xlt := rfl
@[simp] theorem putFabric_winCloses (m : Mach) (x : List FabricOp) : (m.putFabric x).winCloses = m.winCloses := rfl
@[simp] theorem putFabric_mem (m : Mach) (x : List FabricOp) : (m.putFabric x).mem = m.mem := rfl
@[simp] theorem putFabric_qe (m : Mach) (x : List FabricOp) : (m.putFabric x).qe = m.qe := rfl
@[simp] theorem putFabric_lode (m : Mach) (x : List FabricOp) : (m.putFabric x).lode = m.lode := rfl
@[simp] theorem putFabric_ciph (m : Mach) (x : List FabricOp) : (m.putFabric x).ciph = m.ciph := rfl
@[simp] theorem putFabric_beq (m : Mach) (x : List FabricOp) : (m.putFabric x).beq = m.beq := rfl
@[simp] theorem putFabric_rte (m : Mach) (x : List FabricOp) : (m.putFabric x).rte = m.rte := rfl
@[simp] theorem putFabric_ports (m : Mach) (x : List FabricOp) : (m.putFabric x).ports = m.ports := rfl
@[simp] theorem putFabric_fabric (m : Mach) (x : List FabricOp) : (m.putFabric x).fabric = x := rfl
@[simp] theorem putFabric_clk (m : Mach) (x : List FabricOp) : (m.putFabric x).clk = m.clk := rfl
@[simp] theorem putFabric_downs (m : Mach) (x : List FabricOp) : (m.putFabric x).downs = m.downs := rfl
@[simp] theorem putFabric_tileDowns (m : Mach) (x : List FabricOp) : (m.putFabric x).tileDowns = m.tileDowns := rfl
@[simp] theorem putFabric_chu (m : Mach) (x : List FabricOp) : (m.putFabric x).chu = m.chu := rfl
@[simp] theorem putFabric_cfg (m : Mach) (x : List FabricOp) : (m.putFabric x).cfg = m.cfg := rfl
@[simp] theorem putFabric_coll (m : Mach) (x : List FabricOp) : (m.putFabric x).coll = m.coll := rfl
@[simp] theorem putFabric_herdReset (m : Mach) (x : List FabricOp) : (m.putFabric x).herdReset = m.herdReset := rfl
@[simp] theorem putFabric_leases (m : Mach) (x : List FabricOp) : (m.putFabric x).leases = m.leases := rfl
@[simp] theorem putFabric_reg (m : Mach) (x : List FabricOp) (k : Nat) : (m.putFabric x).reg k = m.reg k := rfl
@[simp] theorem putFabric_get (m : Mach) (x : List FabricOp) (f : Fld) (i s : Nat) : (m.putFabric x).get f i s = m.get f i s := rfl
@[simp] theorem putFabric_bit (m : Mach) (x : List FabricOp) (f : Fld) (i s : Nat) : (m.putFabric x).bit f i s = m.bit f i s := rfl
@[simp] theorem putFabric_get64 (m : Mach) (x : List FabricOp) (f : Fld) (i s : Nat) : (m.putFabric x).get64 f i s = m.get64 f i s := rfl

/-! ## `putClk` -/

@[simp] theorem putClk_variant (m : Mach) (x : ClkSt) : (m.putClk x).variant = m.variant := rfl
@[simp] theorem putClk_now (m : Mach) (x : ClkSt) : (m.putClk x).now = m.now := rfl
@[simp] theorem putClk_polder (m : Mach) (x : ClkSt) : (m.putClk x).polder = m.polder := rfl
@[simp] theorem putClk_rate (m : Mach) (x : ClkSt) : (m.putClk x).rate = m.rate := rfl
@[simp] theorem putClk_rateRem (m : Mach) (x : ClkSt) : (m.putClk x).rateRem = m.rateRem := rfl
@[simp] theorem putClk_freeCtr (m : Mach) (x : ClkSt) : (m.putClk x).freeCtr = m.freeCtr := rfl
@[simp] theorem putClk_regs (m : Mach) (x : ClkSt) : (m.putClk x).regs = m.regs := rfl
@[simp] theorem putClk_tideOld (m : Mach) (x : ClkSt) : (m.putClk x).tideOld = m.tideOld := rfl
@[simp] theorem putClk_refillOld (m : Mach) (x : ClkSt) : (m.putClk x).refillOld = m.refillOld := rfl
@[simp] theorem putClk_latch (m : Mach) (x : ClkSt) : (m.putClk x).latch = m.latch := rfl
@[simp] theorem putClk_shadow (m : Mach) (x : ClkSt) : (m.putClk x).shadow = m.shadow := rfl
@[simp] theorem putClk_answer (m : Mach) (x : ClkSt) : (m.putClk x).answer = m.answer := rfl
@[simp] theorem putClk_peat (m : Mach) (x : ClkSt) : (m.putClk x).peat = m.peat := rfl
@[simp] theorem putClk_cream (m : Mach) (x : ClkSt) : (m.putClk x).cream = m.cream := rfl
@[simp] theorem putClk_tsram (m : Mach) (x : ClkSt) : (m.putClk x).tsram = m.tsram := rfl
@[simp] theorem putClk_flash (m : Mach) (x : ClkSt) : (m.putClk x).flash = m.flash := rfl
@[simp] theorem putClk_wr (m : Mach) (x : ClkSt) : (m.putClk x).wr = m.wr := rfl
@[simp] theorem putClk_evq (m : Mach) (x : ClkSt) : (m.putClk x).evq = m.evq := rfl
@[simp] theorem putClk_flt (m : Mach) (x : ClkSt) : (m.putClk x).flt = m.flt := rfl
@[simp] theorem putClk_halted (m : Mach) (x : ClkSt) : (m.putClk x).halted = m.halted := rfl
@[simp] theorem putClk_plan (m : Mach) (x : ClkSt) : (m.putClk x).plan = m.plan := rfl
@[simp] theorem putClk_tm (m : Mach) (x : ClkSt) : (m.putClk x).tm = m.tm := rfl
@[simp] theorem putClk_sent (m : Mach) (x : ClkSt) : (m.putClk x).sent = m.sent := rfl
@[simp] theorem putClk_onOscillator (m : Mach) (x : ClkSt) : (m.putClk x).onOscillator = m.onOscillator := rfl
@[simp] theorem putClk_xlt (m : Mach) (x : ClkSt) : (m.putClk x).xlt = m.xlt := rfl
@[simp] theorem putClk_winCloses (m : Mach) (x : ClkSt) : (m.putClk x).winCloses = m.winCloses := rfl
@[simp] theorem putClk_mem (m : Mach) (x : ClkSt) : (m.putClk x).mem = m.mem := rfl
@[simp] theorem putClk_qe (m : Mach) (x : ClkSt) : (m.putClk x).qe = m.qe := rfl
@[simp] theorem putClk_lode (m : Mach) (x : ClkSt) : (m.putClk x).lode = m.lode := rfl
@[simp] theorem putClk_ciph (m : Mach) (x : ClkSt) : (m.putClk x).ciph = m.ciph := rfl
@[simp] theorem putClk_beq (m : Mach) (x : ClkSt) : (m.putClk x).beq = m.beq := rfl
@[simp] theorem putClk_rte (m : Mach) (x : ClkSt) : (m.putClk x).rte = m.rte := rfl
@[simp] theorem putClk_ports (m : Mach) (x : ClkSt) : (m.putClk x).ports = m.ports := rfl
@[simp] theorem putClk_fabric (m : Mach) (x : ClkSt) : (m.putClk x).fabric = m.fabric := rfl
@[simp] theorem putClk_clk (m : Mach) (x : ClkSt) : (m.putClk x).clk = x := rfl
@[simp] theorem putClk_downs (m : Mach) (x : ClkSt) : (m.putClk x).downs = m.downs := rfl
@[simp] theorem putClk_tileDowns (m : Mach) (x : ClkSt) : (m.putClk x).tileDowns = m.tileDowns := rfl
@[simp] theorem putClk_chu (m : Mach) (x : ClkSt) : (m.putClk x).chu = m.chu := rfl
@[simp] theorem putClk_cfg (m : Mach) (x : ClkSt) : (m.putClk x).cfg = m.cfg := rfl
@[simp] theorem putClk_coll (m : Mach) (x : ClkSt) : (m.putClk x).coll = m.coll := rfl
@[simp] theorem putClk_herdReset (m : Mach) (x : ClkSt) : (m.putClk x).herdReset = m.herdReset := rfl
@[simp] theorem putClk_leases (m : Mach) (x : ClkSt) : (m.putClk x).leases = m.leases := rfl
@[simp] theorem putClk_reg (m : Mach) (x : ClkSt) (k : Nat) : (m.putClk x).reg k = m.reg k := rfl
@[simp] theorem putClk_get (m : Mach) (x : ClkSt) (f : Fld) (i s : Nat) : (m.putClk x).get f i s = m.get f i s := rfl
@[simp] theorem putClk_bit (m : Mach) (x : ClkSt) (f : Fld) (i s : Nat) : (m.putClk x).bit f i s = m.bit f i s := rfl
@[simp] theorem putClk_get64 (m : Mach) (x : ClkSt) (f : Fld) (i s : Nat) : (m.putClk x).get64 f i s = m.get64 f i s := rfl

/-! ## `putDowns` -/

@[simp] theorem putDowns_variant (m : Mach) (x : List Nat) : (m.putDowns x).variant = m.variant := rfl
@[simp] theorem putDowns_now (m : Mach) (x : List Nat) : (m.putDowns x).now = m.now := rfl
@[simp] theorem putDowns_polder (m : Mach) (x : List Nat) : (m.putDowns x).polder = m.polder := rfl
@[simp] theorem putDowns_rate (m : Mach) (x : List Nat) : (m.putDowns x).rate = m.rate := rfl
@[simp] theorem putDowns_rateRem (m : Mach) (x : List Nat) : (m.putDowns x).rateRem = m.rateRem := rfl
@[simp] theorem putDowns_freeCtr (m : Mach) (x : List Nat) : (m.putDowns x).freeCtr = m.freeCtr := rfl
@[simp] theorem putDowns_regs (m : Mach) (x : List Nat) : (m.putDowns x).regs = m.regs := rfl
@[simp] theorem putDowns_tideOld (m : Mach) (x : List Nat) : (m.putDowns x).tideOld = m.tideOld := rfl
@[simp] theorem putDowns_refillOld (m : Mach) (x : List Nat) : (m.putDowns x).refillOld = m.refillOld := rfl
@[simp] theorem putDowns_latch (m : Mach) (x : List Nat) : (m.putDowns x).latch = m.latch := rfl
@[simp] theorem putDowns_shadow (m : Mach) (x : List Nat) : (m.putDowns x).shadow = m.shadow := rfl
@[simp] theorem putDowns_answer (m : Mach) (x : List Nat) : (m.putDowns x).answer = m.answer := rfl
@[simp] theorem putDowns_peat (m : Mach) (x : List Nat) : (m.putDowns x).peat = m.peat := rfl
@[simp] theorem putDowns_cream (m : Mach) (x : List Nat) : (m.putDowns x).cream = m.cream := rfl
@[simp] theorem putDowns_tsram (m : Mach) (x : List Nat) : (m.putDowns x).tsram = m.tsram := rfl
@[simp] theorem putDowns_flash (m : Mach) (x : List Nat) : (m.putDowns x).flash = m.flash := rfl
@[simp] theorem putDowns_wr (m : Mach) (x : List Nat) : (m.putDowns x).wr = m.wr := rfl
@[simp] theorem putDowns_evq (m : Mach) (x : List Nat) : (m.putDowns x).evq = m.evq := rfl
@[simp] theorem putDowns_flt (m : Mach) (x : List Nat) : (m.putDowns x).flt = m.flt := rfl
@[simp] theorem putDowns_halted (m : Mach) (x : List Nat) : (m.putDowns x).halted = m.halted := rfl
@[simp] theorem putDowns_plan (m : Mach) (x : List Nat) : (m.putDowns x).plan = m.plan := rfl
@[simp] theorem putDowns_tm (m : Mach) (x : List Nat) : (m.putDowns x).tm = m.tm := rfl
@[simp] theorem putDowns_sent (m : Mach) (x : List Nat) : (m.putDowns x).sent = m.sent := rfl
@[simp] theorem putDowns_onOscillator (m : Mach) (x : List Nat) : (m.putDowns x).onOscillator = m.onOscillator := rfl
@[simp] theorem putDowns_xlt (m : Mach) (x : List Nat) : (m.putDowns x).xlt = m.xlt := rfl
@[simp] theorem putDowns_winCloses (m : Mach) (x : List Nat) : (m.putDowns x).winCloses = m.winCloses := rfl
@[simp] theorem putDowns_mem (m : Mach) (x : List Nat) : (m.putDowns x).mem = m.mem := rfl
@[simp] theorem putDowns_qe (m : Mach) (x : List Nat) : (m.putDowns x).qe = m.qe := rfl
@[simp] theorem putDowns_lode (m : Mach) (x : List Nat) : (m.putDowns x).lode = m.lode := rfl
@[simp] theorem putDowns_ciph (m : Mach) (x : List Nat) : (m.putDowns x).ciph = m.ciph := rfl
@[simp] theorem putDowns_beq (m : Mach) (x : List Nat) : (m.putDowns x).beq = m.beq := rfl
@[simp] theorem putDowns_rte (m : Mach) (x : List Nat) : (m.putDowns x).rte = m.rte := rfl
@[simp] theorem putDowns_ports (m : Mach) (x : List Nat) : (m.putDowns x).ports = m.ports := rfl
@[simp] theorem putDowns_fabric (m : Mach) (x : List Nat) : (m.putDowns x).fabric = m.fabric := rfl
@[simp] theorem putDowns_clk (m : Mach) (x : List Nat) : (m.putDowns x).clk = m.clk := rfl
@[simp] theorem putDowns_downs (m : Mach) (x : List Nat) : (m.putDowns x).downs = x := rfl
@[simp] theorem putDowns_tileDowns (m : Mach) (x : List Nat) : (m.putDowns x).tileDowns = m.tileDowns := rfl
@[simp] theorem putDowns_chu (m : Mach) (x : List Nat) : (m.putDowns x).chu = m.chu := rfl
@[simp] theorem putDowns_cfg (m : Mach) (x : List Nat) : (m.putDowns x).cfg = m.cfg := rfl
@[simp] theorem putDowns_coll (m : Mach) (x : List Nat) : (m.putDowns x).coll = m.coll := rfl
@[simp] theorem putDowns_herdReset (m : Mach) (x : List Nat) : (m.putDowns x).herdReset = m.herdReset := rfl
@[simp] theorem putDowns_leases (m : Mach) (x : List Nat) : (m.putDowns x).leases = m.leases := rfl
@[simp] theorem putDowns_reg (m : Mach) (x : List Nat) (k : Nat) : (m.putDowns x).reg k = m.reg k := rfl
@[simp] theorem putDowns_get (m : Mach) (x : List Nat) (f : Fld) (i s : Nat) : (m.putDowns x).get f i s = m.get f i s := rfl
@[simp] theorem putDowns_bit (m : Mach) (x : List Nat) (f : Fld) (i s : Nat) : (m.putDowns x).bit f i s = m.bit f i s := rfl
@[simp] theorem putDowns_get64 (m : Mach) (x : List Nat) (f : Fld) (i s : Nat) : (m.putDowns x).get64 f i s = m.get64 f i s := rfl

/-! ## `putTileDowns` -/

@[simp] theorem putTileDowns_variant (m : Mach) (x : List Nat) : (m.putTileDowns x).variant = m.variant := rfl
@[simp] theorem putTileDowns_now (m : Mach) (x : List Nat) : (m.putTileDowns x).now = m.now := rfl
@[simp] theorem putTileDowns_polder (m : Mach) (x : List Nat) : (m.putTileDowns x).polder = m.polder := rfl
@[simp] theorem putTileDowns_rate (m : Mach) (x : List Nat) : (m.putTileDowns x).rate = m.rate := rfl
@[simp] theorem putTileDowns_rateRem (m : Mach) (x : List Nat) : (m.putTileDowns x).rateRem = m.rateRem := rfl
@[simp] theorem putTileDowns_freeCtr (m : Mach) (x : List Nat) : (m.putTileDowns x).freeCtr = m.freeCtr := rfl
@[simp] theorem putTileDowns_regs (m : Mach) (x : List Nat) : (m.putTileDowns x).regs = m.regs := rfl
@[simp] theorem putTileDowns_tideOld (m : Mach) (x : List Nat) : (m.putTileDowns x).tideOld = m.tideOld := rfl
@[simp] theorem putTileDowns_refillOld (m : Mach) (x : List Nat) : (m.putTileDowns x).refillOld = m.refillOld := rfl
@[simp] theorem putTileDowns_latch (m : Mach) (x : List Nat) : (m.putTileDowns x).latch = m.latch := rfl
@[simp] theorem putTileDowns_shadow (m : Mach) (x : List Nat) : (m.putTileDowns x).shadow = m.shadow := rfl
@[simp] theorem putTileDowns_answer (m : Mach) (x : List Nat) : (m.putTileDowns x).answer = m.answer := rfl
@[simp] theorem putTileDowns_peat (m : Mach) (x : List Nat) : (m.putTileDowns x).peat = m.peat := rfl
@[simp] theorem putTileDowns_cream (m : Mach) (x : List Nat) : (m.putTileDowns x).cream = m.cream := rfl
@[simp] theorem putTileDowns_tsram (m : Mach) (x : List Nat) : (m.putTileDowns x).tsram = m.tsram := rfl
@[simp] theorem putTileDowns_flash (m : Mach) (x : List Nat) : (m.putTileDowns x).flash = m.flash := rfl
@[simp] theorem putTileDowns_wr (m : Mach) (x : List Nat) : (m.putTileDowns x).wr = m.wr := rfl
@[simp] theorem putTileDowns_evq (m : Mach) (x : List Nat) : (m.putTileDowns x).evq = m.evq := rfl
@[simp] theorem putTileDowns_flt (m : Mach) (x : List Nat) : (m.putTileDowns x).flt = m.flt := rfl
@[simp] theorem putTileDowns_halted (m : Mach) (x : List Nat) : (m.putTileDowns x).halted = m.halted := rfl
@[simp] theorem putTileDowns_plan (m : Mach) (x : List Nat) : (m.putTileDowns x).plan = m.plan := rfl
@[simp] theorem putTileDowns_tm (m : Mach) (x : List Nat) : (m.putTileDowns x).tm = m.tm := rfl
@[simp] theorem putTileDowns_sent (m : Mach) (x : List Nat) : (m.putTileDowns x).sent = m.sent := rfl
@[simp] theorem putTileDowns_onOscillator (m : Mach) (x : List Nat) : (m.putTileDowns x).onOscillator = m.onOscillator := rfl
@[simp] theorem putTileDowns_xlt (m : Mach) (x : List Nat) : (m.putTileDowns x).xlt = m.xlt := rfl
@[simp] theorem putTileDowns_winCloses (m : Mach) (x : List Nat) : (m.putTileDowns x).winCloses = m.winCloses := rfl
@[simp] theorem putTileDowns_mem (m : Mach) (x : List Nat) : (m.putTileDowns x).mem = m.mem := rfl
@[simp] theorem putTileDowns_qe (m : Mach) (x : List Nat) : (m.putTileDowns x).qe = m.qe := rfl
@[simp] theorem putTileDowns_lode (m : Mach) (x : List Nat) : (m.putTileDowns x).lode = m.lode := rfl
@[simp] theorem putTileDowns_ciph (m : Mach) (x : List Nat) : (m.putTileDowns x).ciph = m.ciph := rfl
@[simp] theorem putTileDowns_beq (m : Mach) (x : List Nat) : (m.putTileDowns x).beq = m.beq := rfl
@[simp] theorem putTileDowns_rte (m : Mach) (x : List Nat) : (m.putTileDowns x).rte = m.rte := rfl
@[simp] theorem putTileDowns_ports (m : Mach) (x : List Nat) : (m.putTileDowns x).ports = m.ports := rfl
@[simp] theorem putTileDowns_fabric (m : Mach) (x : List Nat) : (m.putTileDowns x).fabric = m.fabric := rfl
@[simp] theorem putTileDowns_clk (m : Mach) (x : List Nat) : (m.putTileDowns x).clk = m.clk := rfl
@[simp] theorem putTileDowns_downs (m : Mach) (x : List Nat) : (m.putTileDowns x).downs = m.downs := rfl
@[simp] theorem putTileDowns_tileDowns (m : Mach) (x : List Nat) : (m.putTileDowns x).tileDowns = x := rfl
@[simp] theorem putTileDowns_chu (m : Mach) (x : List Nat) : (m.putTileDowns x).chu = m.chu := rfl
@[simp] theorem putTileDowns_cfg (m : Mach) (x : List Nat) : (m.putTileDowns x).cfg = m.cfg := rfl
@[simp] theorem putTileDowns_coll (m : Mach) (x : List Nat) : (m.putTileDowns x).coll = m.coll := rfl
@[simp] theorem putTileDowns_herdReset (m : Mach) (x : List Nat) : (m.putTileDowns x).herdReset = m.herdReset := rfl
@[simp] theorem putTileDowns_leases (m : Mach) (x : List Nat) : (m.putTileDowns x).leases = m.leases := rfl
@[simp] theorem putTileDowns_reg (m : Mach) (x : List Nat) (k : Nat) : (m.putTileDowns x).reg k = m.reg k := rfl
@[simp] theorem putTileDowns_get (m : Mach) (x : List Nat) (f : Fld) (i s : Nat) : (m.putTileDowns x).get f i s = m.get f i s := rfl
@[simp] theorem putTileDowns_bit (m : Mach) (x : List Nat) (f : Fld) (i s : Nat) : (m.putTileDowns x).bit f i s = m.bit f i s := rfl
@[simp] theorem putTileDowns_get64 (m : Mach) (x : List Nat) (f : Fld) (i s : Nat) : (m.putTileDowns x).get64 f i s = m.get64 f i s := rfl

/-! ## `putChu` -/

@[simp] theorem putChu_variant (m : Mach) (x : ChuSt) : (m.putChu x).variant = m.variant := rfl
@[simp] theorem putChu_now (m : Mach) (x : ChuSt) : (m.putChu x).now = m.now := rfl
@[simp] theorem putChu_polder (m : Mach) (x : ChuSt) : (m.putChu x).polder = m.polder := rfl
@[simp] theorem putChu_rate (m : Mach) (x : ChuSt) : (m.putChu x).rate = m.rate := rfl
@[simp] theorem putChu_rateRem (m : Mach) (x : ChuSt) : (m.putChu x).rateRem = m.rateRem := rfl
@[simp] theorem putChu_freeCtr (m : Mach) (x : ChuSt) : (m.putChu x).freeCtr = m.freeCtr := rfl
@[simp] theorem putChu_regs (m : Mach) (x : ChuSt) : (m.putChu x).regs = m.regs := rfl
@[simp] theorem putChu_tideOld (m : Mach) (x : ChuSt) : (m.putChu x).tideOld = m.tideOld := rfl
@[simp] theorem putChu_refillOld (m : Mach) (x : ChuSt) : (m.putChu x).refillOld = m.refillOld := rfl
@[simp] theorem putChu_latch (m : Mach) (x : ChuSt) : (m.putChu x).latch = m.latch := rfl
@[simp] theorem putChu_shadow (m : Mach) (x : ChuSt) : (m.putChu x).shadow = m.shadow := rfl
@[simp] theorem putChu_answer (m : Mach) (x : ChuSt) : (m.putChu x).answer = m.answer := rfl
@[simp] theorem putChu_peat (m : Mach) (x : ChuSt) : (m.putChu x).peat = m.peat := rfl
@[simp] theorem putChu_cream (m : Mach) (x : ChuSt) : (m.putChu x).cream = m.cream := rfl
@[simp] theorem putChu_tsram (m : Mach) (x : ChuSt) : (m.putChu x).tsram = m.tsram := rfl
@[simp] theorem putChu_flash (m : Mach) (x : ChuSt) : (m.putChu x).flash = m.flash := rfl
@[simp] theorem putChu_wr (m : Mach) (x : ChuSt) : (m.putChu x).wr = m.wr := rfl
@[simp] theorem putChu_evq (m : Mach) (x : ChuSt) : (m.putChu x).evq = m.evq := rfl
@[simp] theorem putChu_flt (m : Mach) (x : ChuSt) : (m.putChu x).flt = m.flt := rfl
@[simp] theorem putChu_halted (m : Mach) (x : ChuSt) : (m.putChu x).halted = m.halted := rfl
@[simp] theorem putChu_plan (m : Mach) (x : ChuSt) : (m.putChu x).plan = m.plan := rfl
@[simp] theorem putChu_tm (m : Mach) (x : ChuSt) : (m.putChu x).tm = m.tm := rfl
@[simp] theorem putChu_sent (m : Mach) (x : ChuSt) : (m.putChu x).sent = m.sent := rfl
@[simp] theorem putChu_onOscillator (m : Mach) (x : ChuSt) : (m.putChu x).onOscillator = m.onOscillator := rfl
@[simp] theorem putChu_xlt (m : Mach) (x : ChuSt) : (m.putChu x).xlt = m.xlt := rfl
@[simp] theorem putChu_winCloses (m : Mach) (x : ChuSt) : (m.putChu x).winCloses = m.winCloses := rfl
@[simp] theorem putChu_mem (m : Mach) (x : ChuSt) : (m.putChu x).mem = m.mem := rfl
@[simp] theorem putChu_qe (m : Mach) (x : ChuSt) : (m.putChu x).qe = m.qe := rfl
@[simp] theorem putChu_lode (m : Mach) (x : ChuSt) : (m.putChu x).lode = m.lode := rfl
@[simp] theorem putChu_ciph (m : Mach) (x : ChuSt) : (m.putChu x).ciph = m.ciph := rfl
@[simp] theorem putChu_beq (m : Mach) (x : ChuSt) : (m.putChu x).beq = m.beq := rfl
@[simp] theorem putChu_rte (m : Mach) (x : ChuSt) : (m.putChu x).rte = m.rte := rfl
@[simp] theorem putChu_ports (m : Mach) (x : ChuSt) : (m.putChu x).ports = m.ports := rfl
@[simp] theorem putChu_fabric (m : Mach) (x : ChuSt) : (m.putChu x).fabric = m.fabric := rfl
@[simp] theorem putChu_clk (m : Mach) (x : ChuSt) : (m.putChu x).clk = m.clk := rfl
@[simp] theorem putChu_downs (m : Mach) (x : ChuSt) : (m.putChu x).downs = m.downs := rfl
@[simp] theorem putChu_tileDowns (m : Mach) (x : ChuSt) : (m.putChu x).tileDowns = m.tileDowns := rfl
@[simp] theorem putChu_chu (m : Mach) (x : ChuSt) : (m.putChu x).chu = x := rfl
@[simp] theorem putChu_cfg (m : Mach) (x : ChuSt) : (m.putChu x).cfg = m.cfg := rfl
@[simp] theorem putChu_coll (m : Mach) (x : ChuSt) : (m.putChu x).coll = m.coll := rfl
@[simp] theorem putChu_herdReset (m : Mach) (x : ChuSt) : (m.putChu x).herdReset = m.herdReset := rfl
@[simp] theorem putChu_leases (m : Mach) (x : ChuSt) : (m.putChu x).leases = m.leases := rfl
@[simp] theorem putChu_reg (m : Mach) (x : ChuSt) (k : Nat) : (m.putChu x).reg k = m.reg k := rfl
@[simp] theorem putChu_get (m : Mach) (x : ChuSt) (f : Fld) (i s : Nat) : (m.putChu x).get f i s = m.get f i s := rfl
@[simp] theorem putChu_bit (m : Mach) (x : ChuSt) (f : Fld) (i s : Nat) : (m.putChu x).bit f i s = m.bit f i s := rfl
@[simp] theorem putChu_get64 (m : Mach) (x : ChuSt) (f : Fld) (i s : Nat) : (m.putChu x).get64 f i s = m.get64 f i s := rfl

/-! ## `putCfg` -/

@[simp] theorem putCfg_variant (m : Mach) (x : CfgSt) : (m.putCfg x).variant = m.variant := rfl
@[simp] theorem putCfg_now (m : Mach) (x : CfgSt) : (m.putCfg x).now = m.now := rfl
@[simp] theorem putCfg_polder (m : Mach) (x : CfgSt) : (m.putCfg x).polder = m.polder := rfl
@[simp] theorem putCfg_rate (m : Mach) (x : CfgSt) : (m.putCfg x).rate = m.rate := rfl
@[simp] theorem putCfg_rateRem (m : Mach) (x : CfgSt) : (m.putCfg x).rateRem = m.rateRem := rfl
@[simp] theorem putCfg_freeCtr (m : Mach) (x : CfgSt) : (m.putCfg x).freeCtr = m.freeCtr := rfl
@[simp] theorem putCfg_regs (m : Mach) (x : CfgSt) : (m.putCfg x).regs = m.regs := rfl
@[simp] theorem putCfg_tideOld (m : Mach) (x : CfgSt) : (m.putCfg x).tideOld = m.tideOld := rfl
@[simp] theorem putCfg_refillOld (m : Mach) (x : CfgSt) : (m.putCfg x).refillOld = m.refillOld := rfl
@[simp] theorem putCfg_latch (m : Mach) (x : CfgSt) : (m.putCfg x).latch = m.latch := rfl
@[simp] theorem putCfg_shadow (m : Mach) (x : CfgSt) : (m.putCfg x).shadow = m.shadow := rfl
@[simp] theorem putCfg_answer (m : Mach) (x : CfgSt) : (m.putCfg x).answer = m.answer := rfl
@[simp] theorem putCfg_peat (m : Mach) (x : CfgSt) : (m.putCfg x).peat = m.peat := rfl
@[simp] theorem putCfg_cream (m : Mach) (x : CfgSt) : (m.putCfg x).cream = m.cream := rfl
@[simp] theorem putCfg_tsram (m : Mach) (x : CfgSt) : (m.putCfg x).tsram = m.tsram := rfl
@[simp] theorem putCfg_flash (m : Mach) (x : CfgSt) : (m.putCfg x).flash = m.flash := rfl
@[simp] theorem putCfg_wr (m : Mach) (x : CfgSt) : (m.putCfg x).wr = m.wr := rfl
@[simp] theorem putCfg_evq (m : Mach) (x : CfgSt) : (m.putCfg x).evq = m.evq := rfl
@[simp] theorem putCfg_flt (m : Mach) (x : CfgSt) : (m.putCfg x).flt = m.flt := rfl
@[simp] theorem putCfg_halted (m : Mach) (x : CfgSt) : (m.putCfg x).halted = m.halted := rfl
@[simp] theorem putCfg_plan (m : Mach) (x : CfgSt) : (m.putCfg x).plan = m.plan := rfl
@[simp] theorem putCfg_tm (m : Mach) (x : CfgSt) : (m.putCfg x).tm = m.tm := rfl
@[simp] theorem putCfg_sent (m : Mach) (x : CfgSt) : (m.putCfg x).sent = m.sent := rfl
@[simp] theorem putCfg_onOscillator (m : Mach) (x : CfgSt) : (m.putCfg x).onOscillator = m.onOscillator := rfl
@[simp] theorem putCfg_xlt (m : Mach) (x : CfgSt) : (m.putCfg x).xlt = m.xlt := rfl
@[simp] theorem putCfg_winCloses (m : Mach) (x : CfgSt) : (m.putCfg x).winCloses = m.winCloses := rfl
@[simp] theorem putCfg_mem (m : Mach) (x : CfgSt) : (m.putCfg x).mem = m.mem := rfl
@[simp] theorem putCfg_qe (m : Mach) (x : CfgSt) : (m.putCfg x).qe = m.qe := rfl
@[simp] theorem putCfg_lode (m : Mach) (x : CfgSt) : (m.putCfg x).lode = m.lode := rfl
@[simp] theorem putCfg_ciph (m : Mach) (x : CfgSt) : (m.putCfg x).ciph = m.ciph := rfl
@[simp] theorem putCfg_beq (m : Mach) (x : CfgSt) : (m.putCfg x).beq = m.beq := rfl
@[simp] theorem putCfg_rte (m : Mach) (x : CfgSt) : (m.putCfg x).rte = m.rte := rfl
@[simp] theorem putCfg_ports (m : Mach) (x : CfgSt) : (m.putCfg x).ports = m.ports := rfl
@[simp] theorem putCfg_fabric (m : Mach) (x : CfgSt) : (m.putCfg x).fabric = m.fabric := rfl
@[simp] theorem putCfg_clk (m : Mach) (x : CfgSt) : (m.putCfg x).clk = m.clk := rfl
@[simp] theorem putCfg_downs (m : Mach) (x : CfgSt) : (m.putCfg x).downs = m.downs := rfl
@[simp] theorem putCfg_tileDowns (m : Mach) (x : CfgSt) : (m.putCfg x).tileDowns = m.tileDowns := rfl
@[simp] theorem putCfg_chu (m : Mach) (x : CfgSt) : (m.putCfg x).chu = m.chu := rfl
@[simp] theorem putCfg_cfg (m : Mach) (x : CfgSt) : (m.putCfg x).cfg = x := rfl
@[simp] theorem putCfg_coll (m : Mach) (x : CfgSt) : (m.putCfg x).coll = m.coll := rfl
@[simp] theorem putCfg_herdReset (m : Mach) (x : CfgSt) : (m.putCfg x).herdReset = m.herdReset := rfl
@[simp] theorem putCfg_leases (m : Mach) (x : CfgSt) : (m.putCfg x).leases = m.leases := rfl
@[simp] theorem putCfg_reg (m : Mach) (x : CfgSt) (k : Nat) : (m.putCfg x).reg k = m.reg k := rfl
@[simp] theorem putCfg_get (m : Mach) (x : CfgSt) (f : Fld) (i s : Nat) : (m.putCfg x).get f i s = m.get f i s := rfl
@[simp] theorem putCfg_bit (m : Mach) (x : CfgSt) (f : Fld) (i s : Nat) : (m.putCfg x).bit f i s = m.bit f i s := rfl
@[simp] theorem putCfg_get64 (m : Mach) (x : CfgSt) (f : Fld) (i s : Nat) : (m.putCfg x).get64 f i s = m.get64 f i s := rfl

/-! ## `putColl` -/

@[simp] theorem putColl_variant (m : Mach) (x : CollSt) : (m.putColl x).variant = m.variant := rfl
@[simp] theorem putColl_now (m : Mach) (x : CollSt) : (m.putColl x).now = m.now := rfl
@[simp] theorem putColl_polder (m : Mach) (x : CollSt) : (m.putColl x).polder = m.polder := rfl
@[simp] theorem putColl_rate (m : Mach) (x : CollSt) : (m.putColl x).rate = m.rate := rfl
@[simp] theorem putColl_rateRem (m : Mach) (x : CollSt) : (m.putColl x).rateRem = m.rateRem := rfl
@[simp] theorem putColl_freeCtr (m : Mach) (x : CollSt) : (m.putColl x).freeCtr = m.freeCtr := rfl
@[simp] theorem putColl_regs (m : Mach) (x : CollSt) : (m.putColl x).regs = m.regs := rfl
@[simp] theorem putColl_tideOld (m : Mach) (x : CollSt) : (m.putColl x).tideOld = m.tideOld := rfl
@[simp] theorem putColl_refillOld (m : Mach) (x : CollSt) : (m.putColl x).refillOld = m.refillOld := rfl
@[simp] theorem putColl_latch (m : Mach) (x : CollSt) : (m.putColl x).latch = m.latch := rfl
@[simp] theorem putColl_shadow (m : Mach) (x : CollSt) : (m.putColl x).shadow = m.shadow := rfl
@[simp] theorem putColl_answer (m : Mach) (x : CollSt) : (m.putColl x).answer = m.answer := rfl
@[simp] theorem putColl_peat (m : Mach) (x : CollSt) : (m.putColl x).peat = m.peat := rfl
@[simp] theorem putColl_cream (m : Mach) (x : CollSt) : (m.putColl x).cream = m.cream := rfl
@[simp] theorem putColl_tsram (m : Mach) (x : CollSt) : (m.putColl x).tsram = m.tsram := rfl
@[simp] theorem putColl_flash (m : Mach) (x : CollSt) : (m.putColl x).flash = m.flash := rfl
@[simp] theorem putColl_wr (m : Mach) (x : CollSt) : (m.putColl x).wr = m.wr := rfl
@[simp] theorem putColl_evq (m : Mach) (x : CollSt) : (m.putColl x).evq = m.evq := rfl
@[simp] theorem putColl_flt (m : Mach) (x : CollSt) : (m.putColl x).flt = m.flt := rfl
@[simp] theorem putColl_halted (m : Mach) (x : CollSt) : (m.putColl x).halted = m.halted := rfl
@[simp] theorem putColl_plan (m : Mach) (x : CollSt) : (m.putColl x).plan = m.plan := rfl
@[simp] theorem putColl_tm (m : Mach) (x : CollSt) : (m.putColl x).tm = m.tm := rfl
@[simp] theorem putColl_sent (m : Mach) (x : CollSt) : (m.putColl x).sent = m.sent := rfl
@[simp] theorem putColl_onOscillator (m : Mach) (x : CollSt) : (m.putColl x).onOscillator = m.onOscillator := rfl
@[simp] theorem putColl_xlt (m : Mach) (x : CollSt) : (m.putColl x).xlt = m.xlt := rfl
@[simp] theorem putColl_winCloses (m : Mach) (x : CollSt) : (m.putColl x).winCloses = m.winCloses := rfl
@[simp] theorem putColl_mem (m : Mach) (x : CollSt) : (m.putColl x).mem = m.mem := rfl
@[simp] theorem putColl_qe (m : Mach) (x : CollSt) : (m.putColl x).qe = m.qe := rfl
@[simp] theorem putColl_lode (m : Mach) (x : CollSt) : (m.putColl x).lode = m.lode := rfl
@[simp] theorem putColl_ciph (m : Mach) (x : CollSt) : (m.putColl x).ciph = m.ciph := rfl
@[simp] theorem putColl_beq (m : Mach) (x : CollSt) : (m.putColl x).beq = m.beq := rfl
@[simp] theorem putColl_rte (m : Mach) (x : CollSt) : (m.putColl x).rte = m.rte := rfl
@[simp] theorem putColl_ports (m : Mach) (x : CollSt) : (m.putColl x).ports = m.ports := rfl
@[simp] theorem putColl_fabric (m : Mach) (x : CollSt) : (m.putColl x).fabric = m.fabric := rfl
@[simp] theorem putColl_clk (m : Mach) (x : CollSt) : (m.putColl x).clk = m.clk := rfl
@[simp] theorem putColl_downs (m : Mach) (x : CollSt) : (m.putColl x).downs = m.downs := rfl
@[simp] theorem putColl_tileDowns (m : Mach) (x : CollSt) : (m.putColl x).tileDowns = m.tileDowns := rfl
@[simp] theorem putColl_chu (m : Mach) (x : CollSt) : (m.putColl x).chu = m.chu := rfl
@[simp] theorem putColl_cfg (m : Mach) (x : CollSt) : (m.putColl x).cfg = m.cfg := rfl
@[simp] theorem putColl_coll (m : Mach) (x : CollSt) : (m.putColl x).coll = x := rfl
@[simp] theorem putColl_herdReset (m : Mach) (x : CollSt) : (m.putColl x).herdReset = m.herdReset := rfl
@[simp] theorem putColl_leases (m : Mach) (x : CollSt) : (m.putColl x).leases = m.leases := rfl
@[simp] theorem putColl_reg (m : Mach) (x : CollSt) (k : Nat) : (m.putColl x).reg k = m.reg k := rfl
@[simp] theorem putColl_get (m : Mach) (x : CollSt) (f : Fld) (i s : Nat) : (m.putColl x).get f i s = m.get f i s := rfl
@[simp] theorem putColl_bit (m : Mach) (x : CollSt) (f : Fld) (i s : Nat) : (m.putColl x).bit f i s = m.bit f i s := rfl
@[simp] theorem putColl_get64 (m : Mach) (x : CollSt) (f : Fld) (i s : Nat) : (m.putColl x).get64 f i s = m.get64 f i s := rfl

/-! ## `putHerdReset` -/

@[simp] theorem putHerdReset_variant (m : Mach) (x : Option HerdReset) : (m.putHerdReset x).variant = m.variant := rfl
@[simp] theorem putHerdReset_now (m : Mach) (x : Option HerdReset) : (m.putHerdReset x).now = m.now := rfl
@[simp] theorem putHerdReset_polder (m : Mach) (x : Option HerdReset) : (m.putHerdReset x).polder = m.polder := rfl
@[simp] theorem putHerdReset_rate (m : Mach) (x : Option HerdReset) : (m.putHerdReset x).rate = m.rate := rfl
@[simp] theorem putHerdReset_rateRem (m : Mach) (x : Option HerdReset) : (m.putHerdReset x).rateRem = m.rateRem := rfl
@[simp] theorem putHerdReset_freeCtr (m : Mach) (x : Option HerdReset) : (m.putHerdReset x).freeCtr = m.freeCtr := rfl
@[simp] theorem putHerdReset_regs (m : Mach) (x : Option HerdReset) : (m.putHerdReset x).regs = m.regs := rfl
@[simp] theorem putHerdReset_tideOld (m : Mach) (x : Option HerdReset) : (m.putHerdReset x).tideOld = m.tideOld := rfl
@[simp] theorem putHerdReset_refillOld (m : Mach) (x : Option HerdReset) : (m.putHerdReset x).refillOld = m.refillOld := rfl
@[simp] theorem putHerdReset_latch (m : Mach) (x : Option HerdReset) : (m.putHerdReset x).latch = m.latch := rfl
@[simp] theorem putHerdReset_shadow (m : Mach) (x : Option HerdReset) : (m.putHerdReset x).shadow = m.shadow := rfl
@[simp] theorem putHerdReset_answer (m : Mach) (x : Option HerdReset) : (m.putHerdReset x).answer = m.answer := rfl
@[simp] theorem putHerdReset_peat (m : Mach) (x : Option HerdReset) : (m.putHerdReset x).peat = m.peat := rfl
@[simp] theorem putHerdReset_cream (m : Mach) (x : Option HerdReset) : (m.putHerdReset x).cream = m.cream := rfl
@[simp] theorem putHerdReset_tsram (m : Mach) (x : Option HerdReset) : (m.putHerdReset x).tsram = m.tsram := rfl
@[simp] theorem putHerdReset_flash (m : Mach) (x : Option HerdReset) : (m.putHerdReset x).flash = m.flash := rfl
@[simp] theorem putHerdReset_wr (m : Mach) (x : Option HerdReset) : (m.putHerdReset x).wr = m.wr := rfl
@[simp] theorem putHerdReset_evq (m : Mach) (x : Option HerdReset) : (m.putHerdReset x).evq = m.evq := rfl
@[simp] theorem putHerdReset_flt (m : Mach) (x : Option HerdReset) : (m.putHerdReset x).flt = m.flt := rfl
@[simp] theorem putHerdReset_halted (m : Mach) (x : Option HerdReset) : (m.putHerdReset x).halted = m.halted := rfl
@[simp] theorem putHerdReset_plan (m : Mach) (x : Option HerdReset) : (m.putHerdReset x).plan = m.plan := rfl
@[simp] theorem putHerdReset_tm (m : Mach) (x : Option HerdReset) : (m.putHerdReset x).tm = m.tm := rfl
@[simp] theorem putHerdReset_sent (m : Mach) (x : Option HerdReset) : (m.putHerdReset x).sent = m.sent := rfl
@[simp] theorem putHerdReset_onOscillator (m : Mach) (x : Option HerdReset) : (m.putHerdReset x).onOscillator = m.onOscillator := rfl
@[simp] theorem putHerdReset_xlt (m : Mach) (x : Option HerdReset) : (m.putHerdReset x).xlt = m.xlt := rfl
@[simp] theorem putHerdReset_winCloses (m : Mach) (x : Option HerdReset) : (m.putHerdReset x).winCloses = m.winCloses := rfl
@[simp] theorem putHerdReset_mem (m : Mach) (x : Option HerdReset) : (m.putHerdReset x).mem = m.mem := rfl
@[simp] theorem putHerdReset_qe (m : Mach) (x : Option HerdReset) : (m.putHerdReset x).qe = m.qe := rfl
@[simp] theorem putHerdReset_lode (m : Mach) (x : Option HerdReset) : (m.putHerdReset x).lode = m.lode := rfl
@[simp] theorem putHerdReset_ciph (m : Mach) (x : Option HerdReset) : (m.putHerdReset x).ciph = m.ciph := rfl
@[simp] theorem putHerdReset_beq (m : Mach) (x : Option HerdReset) : (m.putHerdReset x).beq = m.beq := rfl
@[simp] theorem putHerdReset_rte (m : Mach) (x : Option HerdReset) : (m.putHerdReset x).rte = m.rte := rfl
@[simp] theorem putHerdReset_ports (m : Mach) (x : Option HerdReset) : (m.putHerdReset x).ports = m.ports := rfl
@[simp] theorem putHerdReset_fabric (m : Mach) (x : Option HerdReset) : (m.putHerdReset x).fabric = m.fabric := rfl
@[simp] theorem putHerdReset_clk (m : Mach) (x : Option HerdReset) : (m.putHerdReset x).clk = m.clk := rfl
@[simp] theorem putHerdReset_downs (m : Mach) (x : Option HerdReset) : (m.putHerdReset x).downs = m.downs := rfl
@[simp] theorem putHerdReset_tileDowns (m : Mach) (x : Option HerdReset) : (m.putHerdReset x).tileDowns = m.tileDowns := rfl
@[simp] theorem putHerdReset_chu (m : Mach) (x : Option HerdReset) : (m.putHerdReset x).chu = m.chu := rfl
@[simp] theorem putHerdReset_cfg (m : Mach) (x : Option HerdReset) : (m.putHerdReset x).cfg = m.cfg := rfl
@[simp] theorem putHerdReset_coll (m : Mach) (x : Option HerdReset) : (m.putHerdReset x).coll = m.coll := rfl
@[simp] theorem putHerdReset_herdReset (m : Mach) (x : Option HerdReset) : (m.putHerdReset x).herdReset = x := rfl
@[simp] theorem putHerdReset_leases (m : Mach) (x : Option HerdReset) : (m.putHerdReset x).leases = m.leases := rfl
@[simp] theorem putHerdReset_reg (m : Mach) (x : Option HerdReset) (k : Nat) : (m.putHerdReset x).reg k = m.reg k := rfl
@[simp] theorem putHerdReset_get (m : Mach) (x : Option HerdReset) (f : Fld) (i s : Nat) : (m.putHerdReset x).get f i s = m.get f i s := rfl
@[simp] theorem putHerdReset_bit (m : Mach) (x : Option HerdReset) (f : Fld) (i s : Nat) : (m.putHerdReset x).bit f i s = m.bit f i s := rfl
@[simp] theorem putHerdReset_get64 (m : Mach) (x : Option HerdReset) (f : Fld) (i s : Nat) : (m.putHerdReset x).get64 f i s = m.get64 f i s := rfl

end Sys2Proof.Machine.Mach
end

