-- ==== Sys2Proof/Laws/State.lean ====
section
/-! SUPPORT. What each named update of the module leaves as it was: one lemma per field per update, each true by unfolding the update once; the registers that an update
of something else leaves alone; and the frame of every meaning. -/
namespace Sys2Proof.Machine.Mach

/-! ## `setReg` -/

@[simp] theorem setReg_variant (m : Mach) (k : Nat) (w : Word) : (m.setReg k w).variant = m.variant := rfl
@[simp] theorem setReg_now (m : Mach) (k : Nat) (w : Word) : (m.setReg k w).now = m.now := rfl
@[simp] theorem setReg_polder (m : Mach) (k : Nat) (w : Word) : (m.setReg k w).polder = m.polder := rfl
@[simp] theorem setReg_rate (m : Mach) (k : Nat) (w : Word) : (m.setReg k w).rate = m.rate := rfl
@[simp] theorem setReg_rateRem (m : Mach) (k : Nat) (w : Word) : (m.setReg k w).rateRem = m.rateRem := rfl
@[simp] theorem setReg_freeCtr (m : Mach) (k : Nat) (w : Word) : (m.setReg k w).freeCtr = m.freeCtr := rfl
@[simp] theorem setReg_tideOld (m : Mach) (k : Nat) (w : Word) : (m.setReg k w).tideOld = m.tideOld := rfl
@[simp] theorem setReg_refillOld (m : Mach) (k : Nat) (w : Word) : (m.setReg k w).refillOld = m.refillOld := rfl
@[simp] theorem setReg_latch (m : Mach) (k : Nat) (w : Word) : (m.setReg k w).latch = m.latch := rfl
@[simp] theorem setReg_shadow (m : Mach) (k : Nat) (w : Word) : (m.setReg k w).shadow = m.shadow := rfl
@[simp] theorem setReg_answer (m : Mach) (k : Nat) (w : Word) : (m.setReg k w).answer = m.answer := rfl
@[simp] theorem setReg_peat (m : Mach) (k : Nat) (w : Word) : (m.setReg k w).peat = m.peat := rfl
@[simp] theorem setReg_cream (m : Mach) (k : Nat) (w : Word) : (m.setReg k w).cream = m.cream := rfl
@[simp] theorem setReg_tsram (m : Mach) (k : Nat) (w : Word) : (m.setReg k w).tsram = m.tsram := rfl
@[simp] theorem setReg_flash (m : Mach) (k : Nat) (w : Word) : (m.setReg k w).flash = m.flash := rfl
@[simp] theorem setReg_wr (m : Mach) (k : Nat) (w : Word) : (m.setReg k w).wr = m.wr := rfl
@[simp] theorem setReg_evq (m : Mach) (k : Nat) (w : Word) : (m.setReg k w).evq = m.evq := rfl
@[simp] theorem setReg_flt (m : Mach) (k : Nat) (w : Word) : (m.setReg k w).flt = m.flt := rfl
@[simp] theorem setReg_halted (m : Mach) (k : Nat) (w : Word) : (m.setReg k w).halted = m.halted := rfl
@[simp] theorem setReg_plan (m : Mach) (k : Nat) (w : Word) : (m.setReg k w).plan = m.plan := rfl
@[simp] theorem setReg_tm (m : Mach) (k : Nat) (w : Word) : (m.setReg k w).tm = m.tm := rfl
@[simp] theorem setReg_sent (m : Mach) (k : Nat) (w : Word) : (m.setReg k w).sent = m.sent := rfl
@[simp] theorem setReg_onOscillator (m : Mach) (k : Nat) (w : Word) : (m.setReg k w).onOscillator = m.onOscillator := rfl
@[simp] theorem setReg_xlt (m : Mach) (k : Nat) (w : Word) : (m.setReg k w).xlt = m.xlt := rfl
@[simp] theorem setReg_winCloses (m : Mach) (k : Nat) (w : Word) : (m.setReg k w).winCloses = m.winCloses := rfl
@[simp] theorem setReg_mem (m : Mach) (k : Nat) (w : Word) : (m.setReg k w).mem = m.mem := rfl
@[simp] theorem setReg_qe (m : Mach) (k : Nat) (w : Word) : (m.setReg k w).qe = m.qe := rfl
@[simp] theorem setReg_lode (m : Mach) (k : Nat) (w : Word) : (m.setReg k w).lode = m.lode := rfl
@[simp] theorem setReg_ciph (m : Mach) (k : Nat) (w : Word) : (m.setReg k w).ciph = m.ciph := rfl
@[simp] theorem setReg_beq (m : Mach) (k : Nat) (w : Word) : (m.setReg k w).beq = m.beq := rfl
@[simp] theorem setReg_rte (m : Mach) (k : Nat) (w : Word) : (m.setReg k w).rte = m.rte := rfl
@[simp] theorem setReg_ports (m : Mach) (k : Nat) (w : Word) : (m.setReg k w).ports = m.ports := rfl
@[simp] theorem setReg_fabric (m : Mach) (k : Nat) (w : Word) : (m.setReg k w).fabric = m.fabric := rfl
@[simp] theorem setReg_clk (m : Mach) (k : Nat) (w : Word) : (m.setReg k w).clk = m.clk := rfl
@[simp] theorem setReg_downs (m : Mach) (k : Nat) (w : Word) : (m.setReg k w).downs = m.downs := rfl
@[simp] theorem setReg_tileDowns (m : Mach) (k : Nat) (w : Word) : (m.setReg k w).tileDowns = m.tileDowns := rfl
@[simp] theorem setReg_chu (m : Mach) (k : Nat) (w : Word) : (m.setReg k w).chu = m.chu := rfl
@[simp] theorem setReg_cfg (m : Mach) (k : Nat) (w : Word) : (m.setReg k w).cfg = m.cfg := rfl
@[simp] theorem setReg_coll (m : Mach) (k : Nat) (w : Word) : (m.setReg k w).coll = m.coll := rfl
@[simp] theorem setReg_herdReset (m : Mach) (k : Nat) (w : Word) : (m.setReg k w).herdReset = m.herdReset := rfl
@[simp] theorem setReg_leases (m : Mach) (k : Nat) (w : Word) : (m.setReg k w).leases = m.leases := rfl

/-! ## `set` -/

@[simp] theorem set_variant (m : Mach) (f : Fld) (v i e : Nat) : (m.set f v i e).variant = m.variant := rfl
@[simp] theorem set_now (m : Mach) (f : Fld) (v i e : Nat) : (m.set f v i e).now = m.now := rfl
@[simp] theorem set_polder (m : Mach) (f : Fld) (v i e : Nat) : (m.set f v i e).polder = m.polder := rfl
@[simp] theorem set_rate (m : Mach) (f : Fld) (v i e : Nat) : (m.set f v i e).rate = m.rate := rfl
@[simp] theorem set_rateRem (m : Mach) (f : Fld) (v i e : Nat) : (m.set f v i e).rateRem = m.rateRem := rfl
@[simp] theorem set_freeCtr (m : Mach) (f : Fld) (v i e : Nat) : (m.set f v i e).freeCtr = m.freeCtr := rfl
@[simp] theorem set_tideOld (m : Mach) (f : Fld) (v i e : Nat) : (m.set f v i e).tideOld = m.tideOld := rfl
@[simp] theorem set_refillOld (m : Mach) (f : Fld) (v i e : Nat) : (m.set f v i e).refillOld = m.refillOld := rfl
@[simp] theorem set_latch (m : Mach) (f : Fld) (v i e : Nat) : (m.set f v i e).latch = m.latch := rfl
@[simp] theorem set_shadow (m : Mach) (f : Fld) (v i e : Nat) : (m.set f v i e).shadow = m.shadow := rfl
@[simp] theorem set_answer (m : Mach) (f : Fld) (v i e : Nat) : (m.set f v i e).answer = m.answer := rfl
@[simp] theorem set_peat (m : Mach) (f : Fld) (v i e : Nat) : (m.set f v i e).peat = m.peat := rfl
@[simp] theorem set_cream (m : Mach) (f : Fld) (v i e : Nat) : (m.set f v i e).cream = m.cream := rfl
@[simp] theorem set_tsram (m : Mach) (f : Fld) (v i e : Nat) : (m.set f v i e).tsram = m.tsram := rfl
@[simp] theorem set_flash (m : Mach) (f : Fld) (v i e : Nat) : (m.set f v i e).flash = m.flash := rfl
@[simp] theorem set_wr (m : Mach) (f : Fld) (v i e : Nat) : (m.set f v i e).wr = m.wr := rfl
@[simp] theorem set_evq (m : Mach) (f : Fld) (v i e : Nat) : (m.set f v i e).evq = m.evq := rfl
@[simp] theorem set_flt (m : Mach) (f : Fld) (v i e : Nat) : (m.set f v i e).flt = m.flt := rfl
@[simp] theorem set_halted (m : Mach) (f : Fld) (v i e : Nat) : (m.set f v i e).halted = m.halted := rfl
@[simp] theorem set_plan (m : Mach) (f : Fld) (v i e : Nat) : (m.set f v i e).plan = m.plan := rfl
@[simp] theorem set_tm (m : Mach) (f : Fld) (v i e : Nat) : (m.set f v i e).tm = m.tm := rfl
@[simp] theorem set_sent (m : Mach) (f : Fld) (v i e : Nat) : (m.set f v i e).sent = m.sent := rfl
@[simp] theorem set_onOscillator (m : Mach) (f : Fld) (v i e : Nat) : (m.set f v i e).onOscillator = m.onOscillator := rfl
@[simp] theorem set_xlt (m : Mach) (f : Fld) (v i e : Nat) : (m.set f v i e).xlt = m.xlt := rfl
@[simp] theorem set_winCloses (m : Mach) (f : Fld) (v i e : Nat) : (m.set f v i e).winCloses = m.winCloses := rfl
@[simp] theorem set_mem (m : Mach) (f : Fld) (v i e : Nat) : (m.set f v i e).mem = m.mem := rfl
@[simp] theorem set_qe (m : Mach) (f : Fld) (v i e : Nat) : (m.set f v i e).qe = m.qe := rfl
@[simp] theorem set_lode (m : Mach) (f : Fld) (v i e : Nat) : (m.set f v i e).lode = m.lode := rfl
@[simp] theorem set_ciph (m : Mach) (f : Fld) (v i e : Nat) : (m.set f v i e).ciph = m.ciph := rfl
@[simp] theorem set_beq (m : Mach) (f : Fld) (v i e : Nat) : (m.set f v i e).beq = m.beq := rfl
@[simp] theorem set_rte (m : Mach) (f : Fld) (v i e : Nat) : (m.set f v i e).rte = m.rte := rfl
@[simp] theorem set_ports (m : Mach) (f : Fld) (v i e : Nat) : (m.set f v i e).ports = m.ports := rfl
@[simp] theorem set_fabric (m : Mach) (f : Fld) (v i e : Nat) : (m.set f v i e).fabric = m.fabric := rfl
@[simp] theorem set_clk (m : Mach) (f : Fld) (v i e : Nat) : (m.set f v i e).clk = m.clk := rfl
@[simp] theorem set_downs (m : Mach) (f : Fld) (v i e : Nat) : (m.set f v i e).downs = m.downs := rfl
@[simp] theorem set_tileDowns (m : Mach) (f : Fld) (v i e : Nat) : (m.set f v i e).tileDowns = m.tileDowns := rfl
@[simp] theorem set_chu (m : Mach) (f : Fld) (v i e : Nat) : (m.set f v i e).chu = m.chu := rfl
@[simp] theorem set_cfg (m : Mach) (f : Fld) (v i e : Nat) : (m.set f v i e).cfg = m.cfg := rfl
@[simp] theorem set_coll (m : Mach) (f : Fld) (v i e : Nat) : (m.set f v i e).coll = m.coll := rfl
@[simp] theorem set_herdReset (m : Mach) (f : Fld) (v i e : Nat) : (m.set f v i e).herdReset = m.herdReset := rfl
@[simp] theorem set_leases (m : Mach) (f : Fld) (v i e : Nat) : (m.set f v i e).leases = m.leases := rfl

/-! ## `inc` -/

@[simp] theorem inc_variant (m : Mach) (f : Fld) (n i e : Nat) : (m.inc f n i e).variant = m.variant := rfl
@[simp] theorem inc_now (m : Mach) (f : Fld) (n i e : Nat) : (m.inc f n i e).now = m.now := rfl
@[simp] theorem inc_polder (m : Mach) (f : Fld) (n i e : Nat) : (m.inc f n i e).polder = m.polder := rfl
@[simp] theorem inc_rate (m : Mach) (f : Fld) (n i e : Nat) : (m.inc f n i e).rate = m.rate := rfl
@[simp] theorem inc_rateRem (m : Mach) (f : Fld) (n i e : Nat) : (m.inc f n i e).rateRem = m.rateRem := rfl
@[simp] theorem inc_freeCtr (m : Mach) (f : Fld) (n i e : Nat) : (m.inc f n i e).freeCtr = m.freeCtr := rfl
@[simp] theorem inc_tideOld (m : Mach) (f : Fld) (n i e : Nat) : (m.inc f n i e).tideOld = m.tideOld := rfl
@[simp] theorem inc_refillOld (m : Mach) (f : Fld) (n i e : Nat) : (m.inc f n i e).refillOld = m.refillOld := rfl
@[simp] theorem inc_latch (m : Mach) (f : Fld) (n i e : Nat) : (m.inc f n i e).latch = m.latch := rfl
@[simp] theorem inc_shadow (m : Mach) (f : Fld) (n i e : Nat) : (m.inc f n i e).shadow = m.shadow := rfl
@[simp] theorem inc_answer (m : Mach) (f : Fld) (n i e : Nat) : (m.inc f n i e).answer = m.answer := rfl
@[simp] theorem inc_peat (m : Mach) (f : Fld) (n i e : Nat) : (m.inc f n i e).peat = m.peat := rfl
@[simp] theorem inc_cream (m : Mach) (f : Fld) (n i e : Nat) : (m.inc f n i e).cream = m.cream := rfl
@[simp] theorem inc_tsram (m : Mach) (f : Fld) (n i e : Nat) : (m.inc f n i e).tsram = m.tsram := rfl
@[simp] theorem inc_flash (m : Mach) (f : Fld) (n i e : Nat) : (m.inc f n i e).flash = m.flash := rfl
@[simp] theorem inc_wr (m : Mach) (f : Fld) (n i e : Nat) : (m.inc f n i e).wr = m.wr := rfl
@[simp] theorem inc_evq (m : Mach) (f : Fld) (n i e : Nat) : (m.inc f n i e).evq = m.evq := rfl
@[simp] theorem inc_flt (m : Mach) (f : Fld) (n i e : Nat) : (m.inc f n i e).flt = m.flt := rfl
@[simp] theorem inc_halted (m : Mach) (f : Fld) (n i e : Nat) : (m.inc f n i e).halted = m.halted := rfl
@[simp] theorem inc_plan (m : Mach) (f : Fld) (n i e : Nat) : (m.inc f n i e).plan = m.plan := rfl
@[simp] theorem inc_tm (m : Mach) (f : Fld) (n i e : Nat) : (m.inc f n i e).tm = m.tm := rfl
@[simp] theorem inc_sent (m : Mach) (f : Fld) (n i e : Nat) : (m.inc f n i e).sent = m.sent := rfl
@[simp] theorem inc_onOscillator (m : Mach) (f : Fld) (n i e : Nat) : (m.inc f n i e).onOscillator = m.onOscillator := rfl
@[simp] theorem inc_xlt (m : Mach) (f : Fld) (n i e : Nat) : (m.inc f n i e).xlt = m.xlt := rfl
@[simp] theorem inc_winCloses (m : Mach) (f : Fld) (n i e : Nat) : (m.inc f n i e).winCloses = m.winCloses := rfl
@[simp] theorem inc_mem (m : Mach) (f : Fld) (n i e : Nat) : (m.inc f n i e).mem = m.mem := rfl
@[simp] theorem inc_qe (m : Mach) (f : Fld) (n i e : Nat) : (m.inc f n i e).qe = m.qe := rfl
@[simp] theorem inc_lode (m : Mach) (f : Fld) (n i e : Nat) : (m.inc f n i e).lode = m.lode := rfl
@[simp] theorem inc_ciph (m : Mach) (f : Fld) (n i e : Nat) : (m.inc f n i e).ciph = m.ciph := rfl
@[simp] theorem inc_beq (m : Mach) (f : Fld) (n i e : Nat) : (m.inc f n i e).beq = m.beq := rfl
@[simp] theorem inc_rte (m : Mach) (f : Fld) (n i e : Nat) : (m.inc f n i e).rte = m.rte := rfl
@[simp] theorem inc_ports (m : Mach) (f : Fld) (n i e : Nat) : (m.inc f n i e).ports = m.ports := rfl
@[simp] theorem inc_fabric (m : Mach) (f : Fld) (n i e : Nat) : (m.inc f n i e).fabric = m.fabric := rfl
@[simp] theorem inc_clk (m : Mach) (f : Fld) (n i e : Nat) : (m.inc f n i e).clk = m.clk := rfl
@[simp] theorem inc_downs (m : Mach) (f : Fld) (n i e : Nat) : (m.inc f n i e).downs = m.downs := rfl
@[simp] theorem inc_tileDowns (m : Mach) (f : Fld) (n i e : Nat) : (m.inc f n i e).tileDowns = m.tileDowns := rfl
@[simp] theorem inc_chu (m : Mach) (f : Fld) (n i e : Nat) : (m.inc f n i e).chu = m.chu := rfl
@[simp] theorem inc_cfg (m : Mach) (f : Fld) (n i e : Nat) : (m.inc f n i e).cfg = m.cfg := rfl
@[simp] theorem inc_coll (m : Mach) (f : Fld) (n i e : Nat) : (m.inc f n i e).coll = m.coll := rfl
@[simp] theorem inc_herdReset (m : Mach) (f : Fld) (n i e : Nat) : (m.inc f n i e).herdReset = m.herdReset := rfl
@[simp] theorem inc_leases (m : Mach) (f : Fld) (n i e : Nat) : (m.inc f n i e).leases = m.leases := rfl

/-! ## `set64` -/

@[simp] theorem set64_variant (m : Mach) (f : Fld) (v i e : Nat) : (m.set64 f v i e).variant = m.variant := rfl
@[simp] theorem set64_now (m : Mach) (f : Fld) (v i e : Nat) : (m.set64 f v i e).now = m.now := rfl
@[simp] theorem set64_polder (m : Mach) (f : Fld) (v i e : Nat) : (m.set64 f v i e).polder = m.polder := rfl
@[simp] theorem set64_rate (m : Mach) (f : Fld) (v i e : Nat) : (m.set64 f v i e).rate = m.rate := rfl
@[simp] theorem set64_rateRem (m : Mach) (f : Fld) (v i e : Nat) : (m.set64 f v i e).rateRem = m.rateRem := rfl
@[simp] theorem set64_freeCtr (m : Mach) (f : Fld) (v i e : Nat) : (m.set64 f v i e).freeCtr = m.freeCtr := rfl
@[simp] theorem set64_tideOld (m : Mach) (f : Fld) (v i e : Nat) : (m.set64 f v i e).tideOld = m.tideOld := rfl
@[simp] theorem set64_refillOld (m : Mach) (f : Fld) (v i e : Nat) : (m.set64 f v i e).refillOld = m.refillOld := rfl
@[simp] theorem set64_latch (m : Mach) (f : Fld) (v i e : Nat) : (m.set64 f v i e).latch = m.latch := rfl
@[simp] theorem set64_shadow (m : Mach) (f : Fld) (v i e : Nat) : (m.set64 f v i e).shadow = m.shadow := rfl
@[simp] theorem set64_answer (m : Mach) (f : Fld) (v i e : Nat) : (m.set64 f v i e).answer = m.answer := rfl
@[simp] theorem set64_peat (m : Mach) (f : Fld) (v i e : Nat) : (m.set64 f v i e).peat = m.peat := rfl
@[simp] theorem set64_cream (m : Mach) (f : Fld) (v i e : Nat) : (m.set64 f v i e).cream = m.cream := rfl
@[simp] theorem set64_tsram (m : Mach) (f : Fld) (v i e : Nat) : (m.set64 f v i e).tsram = m.tsram := rfl
@[simp] theorem set64_flash (m : Mach) (f : Fld) (v i e : Nat) : (m.set64 f v i e).flash = m.flash := rfl
@[simp] theorem set64_wr (m : Mach) (f : Fld) (v i e : Nat) : (m.set64 f v i e).wr = m.wr := rfl
@[simp] theorem set64_evq (m : Mach) (f : Fld) (v i e : Nat) : (m.set64 f v i e).evq = m.evq := rfl
@[simp] theorem set64_flt (m : Mach) (f : Fld) (v i e : Nat) : (m.set64 f v i e).flt = m.flt := rfl
@[simp] theorem set64_halted (m : Mach) (f : Fld) (v i e : Nat) : (m.set64 f v i e).halted = m.halted := rfl
@[simp] theorem set64_plan (m : Mach) (f : Fld) (v i e : Nat) : (m.set64 f v i e).plan = m.plan := rfl
@[simp] theorem set64_tm (m : Mach) (f : Fld) (v i e : Nat) : (m.set64 f v i e).tm = m.tm := rfl
@[simp] theorem set64_sent (m : Mach) (f : Fld) (v i e : Nat) : (m.set64 f v i e).sent = m.sent := rfl
@[simp] theorem set64_onOscillator (m : Mach) (f : Fld) (v i e : Nat) : (m.set64 f v i e).onOscillator = m.onOscillator := rfl
@[simp] theorem set64_xlt (m : Mach) (f : Fld) (v i e : Nat) : (m.set64 f v i e).xlt = m.xlt := rfl
@[simp] theorem set64_winCloses (m : Mach) (f : Fld) (v i e : Nat) : (m.set64 f v i e).winCloses = m.winCloses := rfl
@[simp] theorem set64_mem (m : Mach) (f : Fld) (v i e : Nat) : (m.set64 f v i e).mem = m.mem := rfl
@[simp] theorem set64_qe (m : Mach) (f : Fld) (v i e : Nat) : (m.set64 f v i e).qe = m.qe := rfl
@[simp] theorem set64_lode (m : Mach) (f : Fld) (v i e : Nat) : (m.set64 f v i e).lode = m.lode := rfl
@[simp] theorem set64_ciph (m : Mach) (f : Fld) (v i e : Nat) : (m.set64 f v i e).ciph = m.ciph := rfl
@[simp] theorem set64_beq (m : Mach) (f : Fld) (v i e : Nat) : (m.set64 f v i e).beq = m.beq := rfl
@[simp] theorem set64_rte (m : Mach) (f : Fld) (v i e : Nat) : (m.set64 f v i e).rte = m.rte := rfl
@[simp] theorem set64_ports (m : Mach) (f : Fld) (v i e : Nat) : (m.set64 f v i e).ports = m.ports := rfl
@[simp] theorem set64_fabric (m : Mach) (f : Fld) (v i e : Nat) : (m.set64 f v i e).fabric = m.fabric := rfl
@[simp] theorem set64_clk (m : Mach) (f : Fld) (v i e : Nat) : (m.set64 f v i e).clk = m.clk := rfl
@[simp] theorem set64_downs (m : Mach) (f : Fld) (v i e : Nat) : (m.set64 f v i e).downs = m.downs := rfl
@[simp] theorem set64_tileDowns (m : Mach) (f : Fld) (v i e : Nat) : (m.set64 f v i e).tileDowns = m.tileDowns := rfl
@[simp] theorem set64_chu (m : Mach) (f : Fld) (v i e : Nat) : (m.set64 f v i e).chu = m.chu := rfl
@[simp] theorem set64_cfg (m : Mach) (f : Fld) (v i e : Nat) : (m.set64 f v i e).cfg = m.cfg := rfl
@[simp] theorem set64_coll (m : Mach) (f : Fld) (v i e : Nat) : (m.set64 f v i e).coll = m.coll := rfl
@[simp] theorem set64_herdReset (m : Mach) (f : Fld) (v i e : Nat) : (m.set64 f v i e).herdReset = m.herdReset := rfl
@[simp] theorem set64_leases (m : Mach) (f : Fld) (v i e : Nat) : (m.set64 f v i e).leases = m.leases := rfl

/-! ## `inc64` -/

@[simp] theorem inc64_variant (m : Mach) (f : Fld) (n i e : Nat) : (m.inc64 f n i e).variant = m.variant := rfl
@[simp] theorem inc64_now (m : Mach) (f : Fld) (n i e : Nat) : (m.inc64 f n i e).now = m.now := rfl
@[simp] theorem inc64_polder (m : Mach) (f : Fld) (n i e : Nat) : (m.inc64 f n i e).polder = m.polder := rfl
@[simp] theorem inc64_rate (m : Mach) (f : Fld) (n i e : Nat) : (m.inc64 f n i e).rate = m.rate := rfl
@[simp] theorem inc64_rateRem (m : Mach) (f : Fld) (n i e : Nat) : (m.inc64 f n i e).rateRem = m.rateRem := rfl
@[simp] theorem inc64_freeCtr (m : Mach) (f : Fld) (n i e : Nat) : (m.inc64 f n i e).freeCtr = m.freeCtr := rfl
@[simp] theorem inc64_tideOld (m : Mach) (f : Fld) (n i e : Nat) : (m.inc64 f n i e).tideOld = m.tideOld := rfl
@[simp] theorem inc64_refillOld (m : Mach) (f : Fld) (n i e : Nat) : (m.inc64 f n i e).refillOld = m.refillOld := rfl
@[simp] theorem inc64_latch (m : Mach) (f : Fld) (n i e : Nat) : (m.inc64 f n i e).latch = m.latch := rfl
@[simp] theorem inc64_shadow (m : Mach) (f : Fld) (n i e : Nat) : (m.inc64 f n i e).shadow = m.shadow := rfl
@[simp] theorem inc64_answer (m : Mach) (f : Fld) (n i e : Nat) : (m.inc64 f n i e).answer = m.answer := rfl
@[simp] theorem inc64_peat (m : Mach) (f : Fld) (n i e : Nat) : (m.inc64 f n i e).peat = m.peat := rfl
@[simp] theorem inc64_cream (m : Mach) (f : Fld) (n i e : Nat) : (m.inc64 f n i e).cream = m.cream := rfl
@[simp] theorem inc64_tsram (m : Mach) (f : Fld) (n i e : Nat) : (m.inc64 f n i e).tsram = m.tsram := rfl
@[simp] theorem inc64_flash (m : Mach) (f : Fld) (n i e : Nat) : (m.inc64 f n i e).flash = m.flash := rfl
@[simp] theorem inc64_wr (m : Mach) (f : Fld) (n i e : Nat) : (m.inc64 f n i e).wr = m.wr := rfl
@[simp] theorem inc64_evq (m : Mach) (f : Fld) (n i e : Nat) : (m.inc64 f n i e).evq = m.evq := rfl
@[simp] theorem inc64_flt (m : Mach) (f : Fld) (n i e : Nat) : (m.inc64 f n i e).flt = m.flt := rfl
@[simp] theorem inc64_halted (m : Mach) (f : Fld) (n i e : Nat) : (m.inc64 f n i e).halted = m.halted := rfl
@[simp] theorem inc64_plan (m : Mach) (f : Fld) (n i e : Nat) : (m.inc64 f n i e).plan = m.plan := rfl
@[simp] theorem inc64_tm (m : Mach) (f : Fld) (n i e : Nat) : (m.inc64 f n i e).tm = m.tm := rfl
@[simp] theorem inc64_sent (m : Mach) (f : Fld) (n i e : Nat) : (m.inc64 f n i e).sent = m.sent := rfl
@[simp] theorem inc64_onOscillator (m : Mach) (f : Fld) (n i e : Nat) : (m.inc64 f n i e).onOscillator = m.onOscillator := rfl
@[simp] theorem inc64_xlt (m : Mach) (f : Fld) (n i e : Nat) : (m.inc64 f n i e).xlt = m.xlt := rfl
@[simp] theorem inc64_winCloses (m : Mach) (f : Fld) (n i e : Nat) : (m.inc64 f n i e).winCloses = m.winCloses := rfl
@[simp] theorem inc64_mem (m : Mach) (f : Fld) (n i e : Nat) : (m.inc64 f n i e).mem = m.mem := rfl
@[simp] theorem inc64_qe (m : Mach) (f : Fld) (n i e : Nat) : (m.inc64 f n i e).qe = m.qe := rfl
@[simp] theorem inc64_lode (m : Mach) (f : Fld) (n i e : Nat) : (m.inc64 f n i e).lode = m.lode := rfl
@[simp] theorem inc64_ciph (m : Mach) (f : Fld) (n i e : Nat) : (m.inc64 f n i e).ciph = m.ciph := rfl
@[simp] theorem inc64_beq (m : Mach) (f : Fld) (n i e : Nat) : (m.inc64 f n i e).beq = m.beq := rfl
@[simp] theorem inc64_rte (m : Mach) (f : Fld) (n i e : Nat) : (m.inc64 f n i e).rte = m.rte := rfl
@[simp] theorem inc64_ports (m : Mach) (f : Fld) (n i e : Nat) : (m.inc64 f n i e).ports = m.ports := rfl
@[simp] theorem inc64_fabric (m : Mach) (f : Fld) (n i e : Nat) : (m.inc64 f n i e).fabric = m.fabric := rfl
@[simp] theorem inc64_clk (m : Mach) (f : Fld) (n i e : Nat) : (m.inc64 f n i e).clk = m.clk := rfl
@[simp] theorem inc64_downs (m : Mach) (f : Fld) (n i e : Nat) : (m.inc64 f n i e).downs = m.downs := rfl
@[simp] theorem inc64_tileDowns (m : Mach) (f : Fld) (n i e : Nat) : (m.inc64 f n i e).tileDowns = m.tileDowns := rfl
@[simp] theorem inc64_chu (m : Mach) (f : Fld) (n i e : Nat) : (m.inc64 f n i e).chu = m.chu := rfl
@[simp] theorem inc64_cfg (m : Mach) (f : Fld) (n i e : Nat) : (m.inc64 f n i e).cfg = m.cfg := rfl
@[simp] theorem inc64_coll (m : Mach) (f : Fld) (n i e : Nat) : (m.inc64 f n i e).coll = m.coll := rfl
@[simp] theorem inc64_herdReset (m : Mach) (f : Fld) (n i e : Nat) : (m.inc64 f n i e).herdReset = m.herdReset := rfl
@[simp] theorem inc64_leases (m : Mach) (f : Fld) (n i e : Nat) : (m.inc64 f n i e).leases = m.leases := rfl

/-! ## `setP` -/

@[simp] theorem setP_variant (m : Mach) (p : Path) (f : Fld) (v i : Nat) : (m.setP p f v i).variant = m.variant := rfl
@[simp] theorem setP_now (m : Mach) (p : Path) (f : Fld) (v i : Nat) : (m.setP p f v i).now = m.now := rfl
@[simp] theorem setP_polder (m : Mach) (p : Path) (f : Fld) (v i : Nat) : (m.setP p f v i).polder = m.polder := rfl
@[simp] theorem setP_rate (m : Mach) (p : Path) (f : Fld) (v i : Nat) : (m.setP p f v i).rate = m.rate := rfl
@[simp] theorem setP_rateRem (m : Mach) (p : Path) (f : Fld) (v i : Nat) : (m.setP p f v i).rateRem = m.rateRem := rfl
@[simp] theorem setP_freeCtr (m : Mach) (p : Path) (f : Fld) (v i : Nat) : (m.setP p f v i).freeCtr = m.freeCtr := rfl
@[simp] theorem setP_tideOld (m : Mach) (p : Path) (f : Fld) (v i : Nat) : (m.setP p f v i).tideOld = m.tideOld := rfl
@[simp] theorem setP_refillOld (m : Mach) (p : Path) (f : Fld) (v i : Nat) : (m.setP p f v i).refillOld = m.refillOld := rfl
@[simp] theorem setP_latch (m : Mach) (p : Path) (f : Fld) (v i : Nat) : (m.setP p f v i).latch = m.latch := rfl
@[simp] theorem setP_shadow (m : Mach) (p : Path) (f : Fld) (v i : Nat) : (m.setP p f v i).shadow = m.shadow := rfl
@[simp] theorem setP_answer (m : Mach) (p : Path) (f : Fld) (v i : Nat) : (m.setP p f v i).answer = m.answer := rfl
@[simp] theorem setP_peat (m : Mach) (p : Path) (f : Fld) (v i : Nat) : (m.setP p f v i).peat = m.peat := rfl
@[simp] theorem setP_cream (m : Mach) (p : Path) (f : Fld) (v i : Nat) : (m.setP p f v i).cream = m.cream := rfl
@[simp] theorem setP_tsram (m : Mach) (p : Path) (f : Fld) (v i : Nat) : (m.setP p f v i).tsram = m.tsram := rfl
@[simp] theorem setP_flash (m : Mach) (p : Path) (f : Fld) (v i : Nat) : (m.setP p f v i).flash = m.flash := rfl
@[simp] theorem setP_wr (m : Mach) (p : Path) (f : Fld) (v i : Nat) : (m.setP p f v i).wr = m.wr := rfl
@[simp] theorem setP_evq (m : Mach) (p : Path) (f : Fld) (v i : Nat) : (m.setP p f v i).evq = m.evq := rfl
@[simp] theorem setP_flt (m : Mach) (p : Path) (f : Fld) (v i : Nat) : (m.setP p f v i).flt = m.flt := rfl
@[simp] theorem setP_halted (m : Mach) (p : Path) (f : Fld) (v i : Nat) : (m.setP p f v i).halted = m.halted := rfl
@[simp] theorem setP_plan (m : Mach) (p : Path) (f : Fld) (v i : Nat) : (m.setP p f v i).plan = m.plan := rfl
@[simp] theorem setP_tm (m : Mach) (p : Path) (f : Fld) (v i : Nat) : (m.setP p f v i).tm = m.tm := rfl
@[simp] theorem setP_sent (m : Mach) (p : Path) (f : Fld) (v i : Nat) : (m.setP p f v i).sent = m.sent := rfl
@[simp] theorem setP_onOscillator (m : Mach) (p : Path) (f : Fld) (v i : Nat) : (m.setP p f v i).onOscillator = m.onOscillator := rfl
@[simp] theorem setP_xlt (m : Mach) (p : Path) (f : Fld) (v i : Nat) : (m.setP p f v i).xlt = m.xlt := rfl
@[simp] theorem setP_winCloses (m : Mach) (p : Path) (f : Fld) (v i : Nat) : (m.setP p f v i).winCloses = m.winCloses := rfl
@[simp] theorem setP_mem (m : Mach) (p : Path) (f : Fld) (v i : Nat) : (m.setP p f v i).mem = m.mem := rfl
@[simp] theorem setP_qe (m : Mach) (p : Path) (f : Fld) (v i : Nat) : (m.setP p f v i).qe = m.qe := rfl
@[simp] theorem setP_lode (m : Mach) (p : Path) (f : Fld) (v i : Nat) : (m.setP p f v i).lode = m.lode := rfl
@[simp] theorem setP_ciph (m : Mach) (p : Path) (f : Fld) (v i : Nat) : (m.setP p f v i).ciph = m.ciph := rfl
@[simp] theorem setP_beq (m : Mach) (p : Path) (f : Fld) (v i : Nat) : (m.setP p f v i).beq = m.beq := rfl
@[simp] theorem setP_rte (m : Mach) (p : Path) (f : Fld) (v i : Nat) : (m.setP p f v i).rte = m.rte := rfl
@[simp] theorem setP_ports (m : Mach) (p : Path) (f : Fld) (v i : Nat) : (m.setP p f v i).ports = m.ports := rfl
@[simp] theorem setP_fabric (m : Mach) (p : Path) (f : Fld) (v i : Nat) : (m.setP p f v i).fabric = m.fabric := rfl
@[simp] theorem setP_clk (m : Mach) (p : Path) (f : Fld) (v i : Nat) : (m.setP p f v i).clk = m.clk := rfl
@[simp] theorem setP_downs (m : Mach) (p : Path) (f : Fld) (v i : Nat) : (m.setP p f v i).downs = m.downs := rfl
@[simp] theorem setP_tileDowns (m : Mach) (p : Path) (f : Fld) (v i : Nat) : (m.setP p f v i).tileDowns = m.tileDowns := rfl
@[simp] theorem setP_chu (m : Mach) (p : Path) (f : Fld) (v i : Nat) : (m.setP p f v i).chu = m.chu := rfl
@[simp] theorem setP_cfg (m : Mach) (p : Path) (f : Fld) (v i : Nat) : (m.setP p f v i).cfg = m.cfg := rfl
@[simp] theorem setP_coll (m : Mach) (p : Path) (f : Fld) (v i : Nat) : (m.setP p f v i).coll = m.coll := rfl
@[simp] theorem setP_herdReset (m : Mach) (p : Path) (f : Fld) (v i : Nat) : (m.setP p f v i).herdReset = m.herdReset := rfl
@[simp] theorem setP_leases (m : Mach) (p : Path) (f : Fld) (v i : Nat) : (m.setP p f v i).leases = m.leases := rfl

/-! ## `setV` -/

@[simp] theorem setV_variant (m : Mach) (p : Via) (f : Fld) (v i : Nat) : (m.setV p f v i).variant = m.variant := rfl
@[simp] theorem setV_now (m : Mach) (p : Via) (f : Fld) (v i : Nat) : (m.setV p f v i).now = m.now := rfl
@[simp] theorem setV_polder (m : Mach) (p : Via) (f : Fld) (v i : Nat) : (m.setV p f v i).polder = m.polder := rfl
@[simp] theorem setV_rate (m : Mach) (p : Via) (f : Fld) (v i : Nat) : (m.setV p f v i).rate = m.rate := rfl
@[simp] theorem setV_rateRem (m : Mach) (p : Via) (f : Fld) (v i : Nat) : (m.setV p f v i).rateRem = m.rateRem := rfl
@[simp] theorem setV_freeCtr (m : Mach) (p : Via) (f : Fld) (v i : Nat) : (m.setV p f v i).freeCtr = m.freeCtr := rfl
@[simp] theorem setV_tideOld (m : Mach) (p : Via) (f : Fld) (v i : Nat) : (m.setV p f v i).tideOld = m.tideOld := rfl
@[simp] theorem setV_refillOld (m : Mach) (p : Via) (f : Fld) (v i : Nat) : (m.setV p f v i).refillOld = m.refillOld := rfl
@[simp] theorem setV_latch (m : Mach) (p : Via) (f : Fld) (v i : Nat) : (m.setV p f v i).latch = m.latch := rfl
@[simp] theorem setV_shadow (m : Mach) (p : Via) (f : Fld) (v i : Nat) : (m.setV p f v i).shadow = m.shadow := rfl
@[simp] theorem setV_answer (m : Mach) (p : Via) (f : Fld) (v i : Nat) : (m.setV p f v i).answer = m.answer := rfl
@[simp] theorem setV_peat (m : Mach) (p : Via) (f : Fld) (v i : Nat) : (m.setV p f v i).peat = m.peat := rfl
@[simp] theorem setV_cream (m : Mach) (p : Via) (f : Fld) (v i : Nat) : (m.setV p f v i).cream = m.cream := rfl
@[simp] theorem setV_tsram (m : Mach) (p : Via) (f : Fld) (v i : Nat) : (m.setV p f v i).tsram = m.tsram := rfl
@[simp] theorem setV_flash (m : Mach) (p : Via) (f : Fld) (v i : Nat) : (m.setV p f v i).flash = m.flash := rfl
@[simp] theorem setV_wr (m : Mach) (p : Via) (f : Fld) (v i : Nat) : (m.setV p f v i).wr = m.wr := rfl
@[simp] theorem setV_evq (m : Mach) (p : Via) (f : Fld) (v i : Nat) : (m.setV p f v i).evq = m.evq := rfl
@[simp] theorem setV_flt (m : Mach) (p : Via) (f : Fld) (v i : Nat) : (m.setV p f v i).flt = m.flt := rfl
@[simp] theorem setV_halted (m : Mach) (p : Via) (f : Fld) (v i : Nat) : (m.setV p f v i).halted = m.halted := rfl
@[simp] theorem setV_plan (m : Mach) (p : Via) (f : Fld) (v i : Nat) : (m.setV p f v i).plan = m.plan := rfl
@[simp] theorem setV_tm (m : Mach) (p : Via) (f : Fld) (v i : Nat) : (m.setV p f v i).tm = m.tm := rfl
@[simp] theorem setV_sent (m : Mach) (p : Via) (f : Fld) (v i : Nat) : (m.setV p f v i).sent = m.sent := rfl
@[simp] theorem setV_onOscillator (m : Mach) (p : Via) (f : Fld) (v i : Nat) : (m.setV p f v i).onOscillator = m.onOscillator := rfl
@[simp] theorem setV_xlt (m : Mach) (p : Via) (f : Fld) (v i : Nat) : (m.setV p f v i).xlt = m.xlt := rfl
@[simp] theorem setV_winCloses (m : Mach) (p : Via) (f : Fld) (v i : Nat) : (m.setV p f v i).winCloses = m.winCloses := rfl
@[simp] theorem setV_mem (m : Mach) (p : Via) (f : Fld) (v i : Nat) : (m.setV p f v i).mem = m.mem := rfl
@[simp] theorem setV_qe (m : Mach) (p : Via) (f : Fld) (v i : Nat) : (m.setV p f v i).qe = m.qe := rfl
@[simp] theorem setV_lode (m : Mach) (p : Via) (f : Fld) (v i : Nat) : (m.setV p f v i).lode = m.lode := rfl
@[simp] theorem setV_ciph (m : Mach) (p : Via) (f : Fld) (v i : Nat) : (m.setV p f v i).ciph = m.ciph := rfl
@[simp] theorem setV_beq (m : Mach) (p : Via) (f : Fld) (v i : Nat) : (m.setV p f v i).beq = m.beq := rfl
@[simp] theorem setV_rte (m : Mach) (p : Via) (f : Fld) (v i : Nat) : (m.setV p f v i).rte = m.rte := rfl
@[simp] theorem setV_ports (m : Mach) (p : Via) (f : Fld) (v i : Nat) : (m.setV p f v i).ports = m.ports := rfl
@[simp] theorem setV_fabric (m : Mach) (p : Via) (f : Fld) (v i : Nat) : (m.setV p f v i).fabric = m.fabric := rfl
@[simp] theorem setV_clk (m : Mach) (p : Via) (f : Fld) (v i : Nat) : (m.setV p f v i).clk = m.clk := rfl
@[simp] theorem setV_downs (m : Mach) (p : Via) (f : Fld) (v i : Nat) : (m.setV p f v i).downs = m.downs := rfl
@[simp] theorem setV_tileDowns (m : Mach) (p : Via) (f : Fld) (v i : Nat) : (m.setV p f v i).tileDowns = m.tileDowns := rfl
@[simp] theorem setV_chu (m : Mach) (p : Via) (f : Fld) (v i : Nat) : (m.setV p f v i).chu = m.chu := rfl
@[simp] theorem setV_cfg (m : Mach) (p : Via) (f : Fld) (v i : Nat) : (m.setV p f v i).cfg = m.cfg := rfl
@[simp] theorem setV_coll (m : Mach) (p : Via) (f : Fld) (v i : Nat) : (m.setV p f v i).coll = m.coll := rfl
@[simp] theorem setV_herdReset (m : Mach) (p : Via) (f : Fld) (v i : Nat) : (m.setV p f v i).herdReset = m.herdReset := rfl
@[simp] theorem setV_leases (m : Mach) (p : Via) (f : Fld) (v i : Nat) : (m.setV p f v i).leases = m.leases := rfl

/-! ## `cmdDone` -/

@[simp] theorem cmdDone_variant (m : Mach) (d r : Fld) (e : Nat) : (m.cmdDone d r e).variant = m.variant := rfl
@[simp] theorem cmdDone_now (m : Mach) (d r : Fld) (e : Nat) : (m.cmdDone d r e).now = m.now := rfl
@[simp] theorem cmdDone_polder (m : Mach) (d r : Fld) (e : Nat) : (m.cmdDone d r e).polder = m.polder := rfl
@[simp] theorem cmdDone_rate (m : Mach) (d r : Fld) (e : Nat) : (m.cmdDone d r e).rate = m.rate := rfl
@[simp] theorem cmdDone_rateRem (m : Mach) (d r : Fld) (e : Nat) : (m.cmdDone d r e).rateRem = m.rateRem := rfl
@[simp] theorem cmdDone_freeCtr (m : Mach) (d r : Fld) (e : Nat) : (m.cmdDone d r e).freeCtr = m.freeCtr := rfl
@[simp] theorem cmdDone_tideOld (m : Mach) (d r : Fld) (e : Nat) : (m.cmdDone d r e).tideOld = m.tideOld := rfl
@[simp] theorem cmdDone_refillOld (m : Mach) (d r : Fld) (e : Nat) : (m.cmdDone d r e).refillOld = m.refillOld := rfl
@[simp] theorem cmdDone_latch (m : Mach) (d r : Fld) (e : Nat) : (m.cmdDone d r e).latch = m.latch := rfl
@[simp] theorem cmdDone_shadow (m : Mach) (d r : Fld) (e : Nat) : (m.cmdDone d r e).shadow = m.shadow := rfl
@[simp] theorem cmdDone_answer (m : Mach) (d r : Fld) (e : Nat) : (m.cmdDone d r e).answer = m.answer := rfl
@[simp] theorem cmdDone_peat (m : Mach) (d r : Fld) (e : Nat) : (m.cmdDone d r e).peat = m.peat := rfl
@[simp] theorem cmdDone_cream (m : Mach) (d r : Fld) (e : Nat) : (m.cmdDone d r e).cream = m.cream := rfl
@[simp] theorem cmdDone_tsram (m : Mach) (d r : Fld) (e : Nat) : (m.cmdDone d r e).tsram = m.tsram := rfl
@[simp] theorem cmdDone_flash (m : Mach) (d r : Fld) (e : Nat) : (m.cmdDone d r e).flash = m.flash := rfl
@[simp] theorem cmdDone_wr (m : Mach) (d r : Fld) (e : Nat) : (m.cmdDone d r e).wr = m.wr := rfl
@[simp] theorem cmdDone_evq (m : Mach) (d r : Fld) (e : Nat) : (m.cmdDone d r e).evq = m.evq := rfl
@[simp] theorem cmdDone_flt (m : Mach) (d r : Fld) (e : Nat) : (m.cmdDone d r e).flt = m.flt := rfl
@[simp] theorem cmdDone_halted (m : Mach) (d r : Fld) (e : Nat) : (m.cmdDone d r e).halted = m.halted := rfl
@[simp] theorem cmdDone_plan (m : Mach) (d r : Fld) (e : Nat) : (m.cmdDone d r e).plan = m.plan := rfl
@[simp] theorem cmdDone_tm (m : Mach) (d r : Fld) (e : Nat) : (m.cmdDone d r e).tm = m.tm := rfl
@[simp] theorem cmdDone_sent (m : Mach) (d r : Fld) (e : Nat) : (m.cmdDone d r e).sent = m.sent := rfl
@[simp] theorem cmdDone_onOscillator (m : Mach) (d r : Fld) (e : Nat) : (m.cmdDone d r e).onOscillator = m.onOscillator := rfl
@[simp] theorem cmdDone_xlt (m : Mach) (d r : Fld) (e : Nat) : (m.cmdDone d r e).xlt = m.xlt := rfl
@[simp] theorem cmdDone_winCloses (m : Mach) (d r : Fld) (e : Nat) : (m.cmdDone d r e).winCloses = m.winCloses := rfl
@[simp] theorem cmdDone_mem (m : Mach) (d r : Fld) (e : Nat) : (m.cmdDone d r e).mem = m.mem := rfl
@[simp] theorem cmdDone_qe (m : Mach) (d r : Fld) (e : Nat) : (m.cmdDone d r e).qe = m.qe := rfl
@[simp] theorem cmdDone_lode (m : Mach) (d r : Fld) (e : Nat) : (m.cmdDone d r e).lode = m.lode := rfl
@[simp] theorem cmdDone_ciph (m : Mach) (d r : Fld) (e : Nat) : (m.cmdDone d r e).ciph = m.ciph := rfl
@[simp] theorem cmdDone_beq (m : Mach) (d r : Fld) (e : Nat) : (m.cmdDone d r e).beq = m.beq := rfl
@[simp] theorem cmdDone_rte (m : Mach) (d r : Fld) (e : Nat) : (m.cmdDone d r e).rte = m.rte := rfl
@[simp] theorem cmdDone_ports (m : Mach) (d r : Fld) (e : Nat) : (m.cmdDone d r e).ports = m.ports := rfl
@[simp] theorem cmdDone_fabric (m : Mach) (d r : Fld) (e : Nat) : (m.cmdDone d r e).fabric = m.fabric := rfl
@[simp] theorem cmdDone_clk (m : Mach) (d r : Fld) (e : Nat) : (m.cmdDone d r e).clk = m.clk := rfl
@[simp] theorem cmdDone_downs (m : Mach) (d r : Fld) (e : Nat) : (m.cmdDone d r e).downs = m.downs := rfl
@[simp] theorem cmdDone_tileDowns (m : Mach) (d r : Fld) (e : Nat) : (m.cmdDone d r e).tileDowns = m.tileDowns := rfl
@[simp] theorem cmdDone_chu (m : Mach) (d r : Fld) (e : Nat) : (m.cmdDone d r e).chu = m.chu := rfl
@[simp] theorem cmdDone_cfg (m : Mach) (d r : Fld) (e : Nat) : (m.cmdDone d r e).cfg = m.cfg := rfl
@[simp] theorem cmdDone_coll (m : Mach) (d r : Fld) (e : Nat) : (m.cmdDone d r e).coll = m.coll := rfl
@[simp] theorem cmdDone_herdReset (m : Mach) (d r : Fld) (e : Nat) : (m.cmdDone d r e).herdReset = m.herdReset := rfl
@[simp] theorem cmdDone_leases (m : Mach) (d r : Fld) (e : Nat) : (m.cmdDone d r e).leases = m.leases := rfl

/-! ## `cmdRefused` -/

@[simp] theorem cmdRefused_variant (m : Mach) (d r c : Fld) (n e : Nat) : (m.cmdRefused d r c n e).variant = m.variant := rfl
@[simp] theorem cmdRefused_now (m : Mach) (d r c : Fld) (n e : Nat) : (m.cmdRefused d r c n e).now = m.now := rfl
@[simp] theorem cmdRefused_polder (m : Mach) (d r c : Fld) (n e : Nat) : (m.cmdRefused d r c n e).polder = m.polder := rfl
@[simp] theorem cmdRefused_rate (m : Mach) (d r c : Fld) (n e : Nat) : (m.cmdRefused d r c n e).rate = m.rate := rfl
@[simp] theorem cmdRefused_rateRem (m : Mach) (d r c : Fld) (n e : Nat) : (m.cmdRefused d r c n e).rateRem = m.rateRem := rfl
@[simp] theorem cmdRefused_freeCtr (m : Mach) (d r c : Fld) (n e : Nat) : (m.cmdRefused d r c n e).freeCtr = m.freeCtr := rfl
@[simp] theorem cmdRefused_tideOld (m : Mach) (d r c : Fld) (n e : Nat) : (m.cmdRefused d r c n e).tideOld = m.tideOld := rfl
@[simp] theorem cmdRefused_refillOld (m : Mach) (d r c : Fld) (n e : Nat) : (m.cmdRefused d r c n e).refillOld = m.refillOld := rfl
@[simp] theorem cmdRefused_latch (m : Mach) (d r c : Fld) (n e : Nat) : (m.cmdRefused d r c n e).latch = m.latch := rfl
@[simp] theorem cmdRefused_shadow (m : Mach) (d r c : Fld) (n e : Nat) : (m.cmdRefused d r c n e).shadow = m.shadow := rfl
@[simp] theorem cmdRefused_answer (m : Mach) (d r c : Fld) (n e : Nat) : (m.cmdRefused d r c n e).answer = m.answer := rfl
@[simp] theorem cmdRefused_peat (m : Mach) (d r c : Fld) (n e : Nat) : (m.cmdRefused d r c n e).peat = m.peat := rfl
@[simp] theorem cmdRefused_cream (m : Mach) (d r c : Fld) (n e : Nat) : (m.cmdRefused d r c n e).cream = m.cream := rfl
@[simp] theorem cmdRefused_tsram (m : Mach) (d r c : Fld) (n e : Nat) : (m.cmdRefused d r c n e).tsram = m.tsram := rfl
@[simp] theorem cmdRefused_flash (m : Mach) (d r c : Fld) (n e : Nat) : (m.cmdRefused d r c n e).flash = m.flash := rfl
@[simp] theorem cmdRefused_wr (m : Mach) (d r c : Fld) (n e : Nat) : (m.cmdRefused d r c n e).wr = m.wr := rfl
@[simp] theorem cmdRefused_evq (m : Mach) (d r c : Fld) (n e : Nat) : (m.cmdRefused d r c n e).evq = m.evq := rfl
@[simp] theorem cmdRefused_flt (m : Mach) (d r c : Fld) (n e : Nat) : (m.cmdRefused d r c n e).flt = m.flt := rfl
@[simp] theorem cmdRefused_halted (m : Mach) (d r c : Fld) (n e : Nat) : (m.cmdRefused d r c n e).halted = m.halted := rfl
@[simp] theorem cmdRefused_plan (m : Mach) (d r c : Fld) (n e : Nat) : (m.cmdRefused d r c n e).plan = m.plan := rfl
@[simp] theorem cmdRefused_tm (m : Mach) (d r c : Fld) (n e : Nat) : (m.cmdRefused d r c n e).tm = m.tm := rfl
@[simp] theorem cmdRefused_sent (m : Mach) (d r c : Fld) (n e : Nat) : (m.cmdRefused d r c n e).sent = m.sent := rfl
@[simp] theorem cmdRefused_onOscillator (m : Mach) (d r c : Fld) (n e : Nat) : (m.cmdRefused d r c n e).onOscillator = m.onOscillator := rfl
@[simp] theorem cmdRefused_xlt (m : Mach) (d r c : Fld) (n e : Nat) : (m.cmdRefused d r c n e).xlt = m.xlt := rfl
@[simp] theorem cmdRefused_winCloses (m : Mach) (d r c : Fld) (n e : Nat) : (m.cmdRefused d r c n e).winCloses = m.winCloses := rfl
@[simp] theorem cmdRefused_mem (m : Mach) (d r c : Fld) (n e : Nat) : (m.cmdRefused d r c n e).mem = m.mem := rfl
@[simp] theorem cmdRefused_qe (m : Mach) (d r c : Fld) (n e : Nat) : (m.cmdRefused d r c n e).qe = m.qe := rfl
@[simp] theorem cmdRefused_lode (m : Mach) (d r c : Fld) (n e : Nat) : (m.cmdRefused d r c n e).lode = m.lode := rfl
@[simp] theorem cmdRefused_ciph (m : Mach) (d r c : Fld) (n e : Nat) : (m.cmdRefused d r c n e).ciph = m.ciph := rfl
@[simp] theorem cmdRefused_beq (m : Mach) (d r c : Fld) (n e : Nat) : (m.cmdRefused d r c n e).beq = m.beq := rfl
@[simp] theorem cmdRefused_rte (m : Mach) (d r c : Fld) (n e : Nat) : (m.cmdRefused d r c n e).rte = m.rte := rfl
@[simp] theorem cmdRefused_ports (m : Mach) (d r c : Fld) (n e : Nat) : (m.cmdRefused d r c n e).ports = m.ports := rfl
@[simp] theorem cmdRefused_fabric (m : Mach) (d r c : Fld) (n e : Nat) : (m.cmdRefused d r c n e).fabric = m.fabric := rfl
@[simp] theorem cmdRefused_clk (m : Mach) (d r c : Fld) (n e : Nat) : (m.cmdRefused d r c n e).clk = m.clk := rfl
@[simp] theorem cmdRefused_downs (m : Mach) (d r c : Fld) (n e : Nat) : (m.cmdRefused d r c n e).downs = m.downs := rfl
@[simp] theorem cmdRefused_tileDowns (m : Mach) (d r c : Fld) (n e : Nat) : (m.cmdRefused d r c n e).tileDowns = m.tileDowns := rfl
@[simp] theorem cmdRefused_chu (m : Mach) (d r c : Fld) (n e : Nat) : (m.cmdRefused d r c n e).chu = m.chu := rfl
@[simp] theorem cmdRefused_cfg (m : Mach) (d r c : Fld) (n e : Nat) : (m.cmdRefused d r c n e).cfg = m.cfg := rfl
@[simp] theorem cmdRefused_coll (m : Mach) (d r c : Fld) (n e : Nat) : (m.cmdRefused d r c n e).coll = m.coll := rfl
@[simp] theorem cmdRefused_herdReset (m : Mach) (d r c : Fld) (n e : Nat) : (m.cmdRefused d r c n e).herdReset = m.herdReset := rfl
@[simp] theorem cmdRefused_leases (m : Mach) (d r c : Fld) (n e : Nat) : (m.cmdRefused d r c n e).leases = m.leases := rfl

/-! ## `advance` -/

@[simp] theorem advance_variant (m : Mach) (t : Nat) : (m.advance t).variant = m.variant := rfl
@[simp] theorem advance_rate (m : Mach) (t : Nat) : (m.advance t).rate = m.rate := rfl
@[simp] theorem advance_freeCtr (m : Mach) (t : Nat) : (m.advance t).freeCtr = m.freeCtr := rfl
@[simp] theorem advance_regs (m : Mach) (t : Nat) : (m.advance t).regs = m.regs := rfl
@[simp] theorem advance_tideOld (m : Mach) (t : Nat) : (m.advance t).tideOld = m.tideOld := rfl
@[simp] theorem advance_refillOld (m : Mach) (t : Nat) : (m.advance t).refillOld = m.refillOld := rfl
@[simp] theorem advance_latch (m : Mach) (t : Nat) : (m.advance t).latch = m.latch := rfl
@[simp] theorem advance_shadow (m : Mach) (t : Nat) : (m.advance t).shadow = m.shadow := rfl
@[simp] theorem advance_answer (m : Mach) (t : Nat) : (m.advance t).answer = m.answer := rfl
@[simp] theorem advance_peat (m : Mach) (t : Nat) : (m.advance t).peat = m.peat := rfl
@[simp] theorem advance_cream (m : Mach) (t : Nat) : (m.advance t).cream = m.cream := rfl
@[simp] theorem advance_tsram (m : Mach) (t : Nat) : (m.advance t).tsram = m.tsram := rfl
@[simp] theorem advance_flash (m : Mach) (t : Nat) : (m.advance t).flash = m.flash := rfl
@[simp] theorem advance_wr (m : Mach) (t : Nat) : (m.advance t).wr = m.wr := rfl
@[simp] theorem advance_evq (m : Mach) (t : Nat) : (m.advance t).evq = m.evq := rfl
@[simp] theorem advance_flt (m : Mach) (t : Nat) : (m.advance t).flt = m.flt := rfl
@[simp] theorem advance_halted (m : Mach) (t : Nat) : (m.advance t).halted = m.halted := rfl
@[simp] theorem advance_plan (m : Mach) (t : Nat) : (m.advance t).plan = m.plan := rfl
@[simp] theorem advance_tm (m : Mach) (t : Nat) : (m.advance t).tm = m.tm := rfl
@[simp] theorem advance_sent (m : Mach) (t : Nat) : (m.advance t).sent = m.sent := rfl
@[simp] theorem advance_onOscillator (m : Mach) (t : Nat) : (m.advance t).onOscillator = m.onOscillator := rfl
@[simp] theorem advance_xlt (m : Mach) (t : Nat) : (m.advance t).xlt = m.xlt := rfl
@[simp] theorem advance_winCloses (m : Mach) (t : Nat) : (m.advance t).winCloses = m.winCloses := rfl
@[simp] theorem advance_mem (m : Mach) (t : Nat) : (m.advance t).mem = m.mem := rfl
@[simp] theorem advance_qe (m : Mach) (t : Nat) : (m.advance t).qe = m.qe := rfl
@[simp] theorem advance_lode (m : Mach) (t : Nat) : (m.advance t).lode = m.lode := rfl
@[simp] theorem advance_ciph (m : Mach) (t : Nat) : (m.advance t).ciph = m.ciph := rfl
@[simp] theorem advance_beq (m : Mach) (t : Nat) : (m.advance t).beq = m.beq := rfl
@[simp] theorem advance_rte (m : Mach) (t : Nat) : (m.advance t).rte = m.rte := rfl
@[simp] theorem advance_ports (m : Mach) (t : Nat) : (m.advance t).ports = m.ports := rfl
@[simp] theorem advance_fabric (m : Mach) (t : Nat) : (m.advance t).fabric = m.fabric := rfl
@[simp] theorem advance_clk (m : Mach) (t : Nat) : (m.advance t).clk = m.clk := rfl
@[simp] theorem advance_downs (m : Mach) (t : Nat) : (m.advance t).downs = m.downs := rfl
@[simp] theorem advance_tileDowns (m : Mach) (t : Nat) : (m.advance t).tileDowns = m.tileDowns := rfl
@[simp] theorem advance_chu (m : Mach) (t : Nat) : (m.advance t).chu = m.chu := rfl
@[simp] theorem advance_cfg (m : Mach) (t : Nat) : (m.advance t).cfg = m.cfg := rfl
@[simp] theorem advance_coll (m : Mach) (t : Nat) : (m.advance t).coll = m.coll := rfl
@[simp] theorem advance_herdReset (m : Mach) (t : Nat) : (m.advance t).herdReset = m.herdReset := rfl
@[simp] theorem advance_leases (m : Mach) (t : Nat) : (m.advance t).leases = m.leases := rfl
@[simp] theorem advance_reg (m : Mach) (t : Nat) (key : Nat) : (m.advance t).reg key = m.reg key := rfl
@[simp] theorem advance_get (m : Mach) (t : Nat) (g : Fld) (j u : Nat) : (m.advance t).get g j u = m.get g j u := rfl
@[simp] theorem advance_bit (m : Mach) (t : Nat) (g : Fld) (j u : Nat) : (m.advance t).bit g j u = m.bit g j u := rfl

/-! ## `raise` -/

@[simp] theorem raise_variant (m : Mach) (c u h : Nat) (rs : List Nat) (x y : Nat) : (m.raise c u h rs x y).variant = m.variant := rfl
@[simp] theorem raise_now (m : Mach) (c u h : Nat) (rs : List Nat) (x y : Nat) : (m.raise c u h rs x y).now = m.now := rfl
@[simp] theorem raise_polder (m : Mach) (c u h : Nat) (rs : List Nat) (x y : Nat) : (m.raise c u h rs x y).polder = m.polder := rfl
@[simp] theorem raise_rate (m : Mach) (c u h : Nat) (rs : List Nat) (x y : Nat) : (m.raise c u h rs x y).rate = m.rate := rfl
@[simp] theorem raise_rateRem (m : Mach) (c u h : Nat) (rs : List Nat) (x y : Nat) : (m.raise c u h rs x y).rateRem = m.rateRem := rfl
@[simp] theorem raise_freeCtr (m : Mach) (c u h : Nat) (rs : List Nat) (x y : Nat) : (m.raise c u h rs x y).freeCtr = m.freeCtr := rfl
@[simp] theorem raise_regs (m : Mach) (c u h : Nat) (rs : List Nat) (x y : Nat) : (m.raise c u h rs x y).regs = m.regs := rfl
@[simp] theorem raise_tideOld (m : Mach) (c u h : Nat) (rs : List Nat) (x y : Nat) : (m.raise c u h rs x y).tideOld = m.tideOld := rfl
@[simp] theorem raise_refillOld (m : Mach) (c u h : Nat) (rs : List Nat) (x y : Nat) : (m.raise c u h rs x y).refillOld = m.refillOld := rfl
@[simp] theorem raise_latch (m : Mach) (c u h : Nat) (rs : List Nat) (x y : Nat) : (m.raise c u h rs x y).latch = m.latch := rfl
@[simp] theorem raise_shadow (m : Mach) (c u h : Nat) (rs : List Nat) (x y : Nat) : (m.raise c u h rs x y).shadow = m.shadow := rfl
@[simp] theorem raise_answer (m : Mach) (c u h : Nat) (rs : List Nat) (x y : Nat) : (m.raise c u h rs x y).answer = m.answer := rfl
@[simp] theorem raise_peat (m : Mach) (c u h : Nat) (rs : List Nat) (x y : Nat) : (m.raise c u h rs x y).peat = m.peat := rfl
@[simp] theorem raise_cream (m : Mach) (c u h : Nat) (rs : List Nat) (x y : Nat) : (m.raise c u h rs x y).cream = m.cream := rfl
@[simp] theorem raise_tsram (m : Mach) (c u h : Nat) (rs : List Nat) (x y : Nat) : (m.raise c u h rs x y).tsram = m.tsram := rfl
@[simp] theorem raise_flash (m : Mach) (c u h : Nat) (rs : List Nat) (x y : Nat) : (m.raise c u h rs x y).flash = m.flash := rfl
@[simp] theorem raise_wr (m : Mach) (c u h : Nat) (rs : List Nat) (x y : Nat) : (m.raise c u h rs x y).wr = m.wr := rfl
@[simp] theorem raise_flt (m : Mach) (c u h : Nat) (rs : List Nat) (x y : Nat) : (m.raise c u h rs x y).flt = m.flt := rfl
@[simp] theorem raise_halted (m : Mach) (c u h : Nat) (rs : List Nat) (x y : Nat) : (m.raise c u h rs x y).halted = m.halted := rfl
@[simp] theorem raise_plan (m : Mach) (c u h : Nat) (rs : List Nat) (x y : Nat) : (m.raise c u h rs x y).plan = m.plan := rfl
@[simp] theorem raise_tm (m : Mach) (c u h : Nat) (rs : List Nat) (x y : Nat) : (m.raise c u h rs x y).tm = m.tm := rfl
@[simp] theorem raise_sent (m : Mach) (c u h : Nat) (rs : List Nat) (x y : Nat) : (m.raise c u h rs x y).sent = m.sent := rfl
@[simp] theorem raise_onOscillator (m : Mach) (c u h : Nat) (rs : List Nat) (x y : Nat) : (m.raise c u h rs x y).onOscillator = m.onOscillator := rfl
@[simp] theorem raise_xlt (m : Mach) (c u h : Nat) (rs : List Nat) (x y : Nat) : (m.raise c u h rs x y).xlt = m.xlt := rfl
@[simp] theorem raise_winCloses (m : Mach) (c u h : Nat) (rs : List Nat) (x y : Nat) : (m.raise c u h rs x y).winCloses = m.winCloses := rfl
@[simp] theorem raise_mem (m : Mach) (c u h : Nat) (rs : List Nat) (x y : Nat) : (m.raise c u h rs x y).mem = m.mem := rfl
@[simp] theorem raise_qe (m : Mach) (c u h : Nat) (rs : List Nat) (x y : Nat) : (m.raise c u h rs x y).qe = m.qe := rfl
@[simp] theorem raise_lode (m : Mach) (c u h : Nat) (rs : List Nat) (x y : Nat) : (m.raise c u h rs x y).lode = m.lode := rfl
@[simp] theorem raise_ciph (m : Mach) (c u h : Nat) (rs : List Nat) (x y : Nat) : (m.raise c u h rs x y).ciph = m.ciph := rfl
@[simp] theorem raise_beq (m : Mach) (c u h : Nat) (rs : List Nat) (x y : Nat) : (m.raise c u h rs x y).beq = m.beq := rfl
@[simp] theorem raise_rte (m : Mach) (c u h : Nat) (rs : List Nat) (x y : Nat) : (m.raise c u h rs x y).rte = m.rte := rfl
@[simp] theorem raise_ports (m : Mach) (c u h : Nat) (rs : List Nat) (x y : Nat) : (m.raise c u h rs x y).ports = m.ports := rfl
@[simp] theorem raise_fabric (m : Mach) (c u h : Nat) (rs : List Nat) (x y : Nat) : (m.raise c u h rs x y).fabric = m.fabric := rfl
@[simp] theorem raise_clk (m : Mach) (c u h : Nat) (rs : List Nat) (x y : Nat) : (m.raise c u h rs x y).clk = m.clk := rfl
@[simp] theorem raise_downs (m : Mach) (c u h : Nat) (rs : List Nat) (x y : Nat) : (m.raise c u h rs x y).downs = m.downs := rfl
@[simp] theorem raise_tileDowns (m : Mach) (c u h : Nat) (rs : List Nat) (x y : Nat) : (m.raise c u h rs x y).tileDowns = m.tileDowns := rfl
@[simp] theorem raise_chu (m : Mach) (c u h : Nat) (rs : List Nat) (x y : Nat) : (m.raise c u h rs x y).chu = m.chu := rfl
@[simp] theorem raise_cfg (m : Mach) (c u h : Nat) (rs : List Nat) (x y : Nat) : (m.raise c u h rs x y).cfg = m.cfg := rfl
@[simp] theorem raise_coll (m : Mach) (c u h : Nat) (rs : List Nat) (x y : Nat) : (m.raise c u h rs x y).coll = m.coll := rfl
@[simp] theorem raise_herdReset (m : Mach) (c u h : Nat) (rs : List Nat) (x y : Nat) : (m.raise c u h rs x y).herdReset = m.herdReset := rfl
@[simp] theorem raise_leases (m : Mach) (c u h : Nat) (rs : List Nat) (x y : Nat) : (m.raise c u h rs x y).leases = m.leases := rfl
@[simp] theorem raise_reg (m : Mach) (c u h : Nat) (rs : List Nat) (x y : Nat) (key : Nat) : (m.raise c u h rs x y).reg key = m.reg key := rfl
@[simp] theorem raise_get (m : Mach) (c u h : Nat) (rs : List Nat) (x y : Nat) (g : Fld) (j n : Nat) : (m.raise c u h rs x y).get g j n = m.get g j n := rfl
@[simp] theorem raise_bit (m : Mach) (c u h : Nat) (rs : List Nat) (x y : Nat) (g : Fld) (j n : Nat) : (m.raise c u h rs x y).bit g j n = m.bit g j n := rfl

/-! ## `wrBytes` -/

@[simp] theorem wrBytes_variant (m : Mach) (st : Store) (a : Nat) (d : List Byte) : (m.wrBytes st a d).variant = m.variant := rfl
@[simp] theorem wrBytes_now (m : Mach) (st : Store) (a : Nat) (d : List Byte) : (m.wrBytes st a d).now = m.now := rfl
@[simp] theorem wrBytes_polder (m : Mach) (st : Store) (a : Nat) (d : List Byte) : (m.wrBytes st a d).polder = m.polder := rfl
@[simp] theorem wrBytes_rate (m : Mach) (st : Store) (a : Nat) (d : List Byte) : (m.wrBytes st a d).rate = m.rate := rfl
@[simp] theorem wrBytes_rateRem (m : Mach) (st : Store) (a : Nat) (d : List Byte) : (m.wrBytes st a d).rateRem = m.rateRem := rfl
@[simp] theorem wrBytes_freeCtr (m : Mach) (st : Store) (a : Nat) (d : List Byte) : (m.wrBytes st a d).freeCtr = m.freeCtr := rfl
@[simp] theorem wrBytes_regs (m : Mach) (st : Store) (a : Nat) (d : List Byte) : (m.wrBytes st a d).regs = m.regs := rfl
@[simp] theorem wrBytes_tideOld (m : Mach) (st : Store) (a : Nat) (d : List Byte) : (m.wrBytes st a d).tideOld = m.tideOld := rfl
@[simp] theorem wrBytes_refillOld (m : Mach) (st : Store) (a : Nat) (d : List Byte) : (m.wrBytes st a d).refillOld = m.refillOld := rfl
@[simp] theorem wrBytes_latch (m : Mach) (st : Store) (a : Nat) (d : List Byte) : (m.wrBytes st a d).latch = m.latch := rfl
@[simp] theorem wrBytes_shadow (m : Mach) (st : Store) (a : Nat) (d : List Byte) : (m.wrBytes st a d).shadow = m.shadow := rfl
@[simp] theorem wrBytes_answer (m : Mach) (st : Store) (a : Nat) (d : List Byte) : (m.wrBytes st a d).answer = m.answer := rfl
@[simp] theorem wrBytes_peat (m : Mach) (st : Store) (a : Nat) (d : List Byte) : (m.wrBytes st a d).peat = m.peat := rfl
@[simp] theorem wrBytes_cream (m : Mach) (st : Store) (a : Nat) (d : List Byte) : (m.wrBytes st a d).cream = m.cream := rfl
@[simp] theorem wrBytes_tsram (m : Mach) (st : Store) (a : Nat) (d : List Byte) : (m.wrBytes st a d).tsram = m.tsram := rfl
@[simp] theorem wrBytes_flash (m : Mach) (st : Store) (a : Nat) (d : List Byte) : (m.wrBytes st a d).flash = m.flash := rfl
@[simp] theorem wrBytes_evq (m : Mach) (st : Store) (a : Nat) (d : List Byte) : (m.wrBytes st a d).evq = m.evq := rfl
@[simp] theorem wrBytes_flt (m : Mach) (st : Store) (a : Nat) (d : List Byte) : (m.wrBytes st a d).flt = m.flt := rfl
@[simp] theorem wrBytes_halted (m : Mach) (st : Store) (a : Nat) (d : List Byte) : (m.wrBytes st a d).halted = m.halted := rfl
@[simp] theorem wrBytes_plan (m : Mach) (st : Store) (a : Nat) (d : List Byte) : (m.wrBytes st a d).plan = m.plan := rfl
@[simp] theorem wrBytes_tm (m : Mach) (st : Store) (a : Nat) (d : List Byte) : (m.wrBytes st a d).tm = m.tm := rfl
@[simp] theorem wrBytes_sent (m : Mach) (st : Store) (a : Nat) (d : List Byte) : (m.wrBytes st a d).sent = m.sent := rfl
@[simp] theorem wrBytes_onOscillator (m : Mach) (st : Store) (a : Nat) (d : List Byte) : (m.wrBytes st a d).onOscillator = m.onOscillator := rfl
@[simp] theorem wrBytes_xlt (m : Mach) (st : Store) (a : Nat) (d : List Byte) : (m.wrBytes st a d).xlt = m.xlt := rfl
@[simp] theorem wrBytes_winCloses (m : Mach) (st : Store) (a : Nat) (d : List Byte) : (m.wrBytes st a d).winCloses = m.winCloses := rfl
@[simp] theorem wrBytes_mem (m : Mach) (st : Store) (a : Nat) (d : List Byte) : (m.wrBytes st a d).mem = m.mem := rfl
@[simp] theorem wrBytes_qe (m : Mach) (st : Store) (a : Nat) (d : List Byte) : (m.wrBytes st a d).qe = m.qe := rfl
@[simp] theorem wrBytes_lode (m : Mach) (st : Store) (a : Nat) (d : List Byte) : (m.wrBytes st a d).lode = m.lode := rfl
@[simp] theorem wrBytes_ciph (m : Mach) (st : Store) (a : Nat) (d : List Byte) : (m.wrBytes st a d).ciph = m.ciph := rfl
@[simp] theorem wrBytes_beq (m : Mach) (st : Store) (a : Nat) (d : List Byte) : (m.wrBytes st a d).beq = m.beq := rfl
@[simp] theorem wrBytes_rte (m : Mach) (st : Store) (a : Nat) (d : List Byte) : (m.wrBytes st a d).rte = m.rte := rfl
@[simp] theorem wrBytes_ports (m : Mach) (st : Store) (a : Nat) (d : List Byte) : (m.wrBytes st a d).ports = m.ports := rfl
@[simp] theorem wrBytes_fabric (m : Mach) (st : Store) (a : Nat) (d : List Byte) : (m.wrBytes st a d).fabric = m.fabric := rfl
@[simp] theorem wrBytes_clk (m : Mach) (st : Store) (a : Nat) (d : List Byte) : (m.wrBytes st a d).clk = m.clk := rfl
@[simp] theorem wrBytes_downs (m : Mach) (st : Store) (a : Nat) (d : List Byte) : (m.wrBytes st a d).downs = m.downs := rfl
@[simp] theorem wrBytes_tileDowns (m : Mach) (st : Store) (a : Nat) (d : List Byte) : (m.wrBytes st a d).tileDowns = m.tileDowns := rfl
@[simp] theorem wrBytes_chu (m : Mach) (st : Store) (a : Nat) (d : List Byte) : (m.wrBytes st a d).chu = m.chu := rfl
@[simp] theorem wrBytes_cfg (m : Mach) (st : Store) (a : Nat) (d : List Byte) : (m.wrBytes st a d).cfg = m.cfg := rfl
@[simp] theorem wrBytes_coll (m : Mach) (st : Store) (a : Nat) (d : List Byte) : (m.wrBytes st a d).coll = m.coll := rfl
@[simp] theorem wrBytes_herdReset (m : Mach) (st : Store) (a : Nat) (d : List Byte) : (m.wrBytes st a d).herdReset = m.herdReset := rfl
@[simp] theorem wrBytes_leases (m : Mach) (st : Store) (a : Nat) (d : List Byte) : (m.wrBytes st a d).leases = m.leases := rfl
@[simp] theorem wrBytes_reg (m : Mach) (st : Store) (a : Nat) (d : List Byte) (key : Nat) : (m.wrBytes st a d).reg key = m.reg key := rfl
@[simp] theorem wrBytes_get (m : Mach) (st : Store) (a : Nat) (d : List Byte) (g : Fld) (j u : Nat) : (m.wrBytes st a d).get g j u = m.get g j u := rfl
@[simp] theorem wrBytes_bit (m : Mach) (st : Store) (a : Nat) (d : List Byte) (g : Fld) (j u : Nat) : (m.wrBytes st a d).bit g j u = m.bit g j u := rfl

/-! ## `wrZero` -/

@[simp] theorem wrZero_variant (m : Mach) (st : Store) (a n : Nat) : (m.wrZero st a n).variant = m.variant := rfl
@[simp] theorem wrZero_now (m : Mach) (st : Store) (a n : Nat) : (m.wrZero st a n).now = m.now := rfl
@[simp] theorem wrZero_polder (m : Mach) (st : Store) (a n : Nat) : (m.wrZero st a n).polder = m.polder := rfl
@[simp] theorem wrZero_rate (m : Mach) (st : Store) (a n : Nat) : (m.wrZero st a n).rate = m.rate := rfl
@[simp] theorem wrZero_rateRem (m : Mach) (st : Store) (a n : Nat) : (m.wrZero st a n).rateRem = m.rateRem := rfl
@[simp] theorem wrZero_freeCtr (m : Mach) (st : Store) (a n : Nat) : (m.wrZero st a n).freeCtr = m.freeCtr := rfl
@[simp] theorem wrZero_regs (m : Mach) (st : Store) (a n : Nat) : (m.wrZero st a n).regs = m.regs := rfl
@[simp] theorem wrZero_tideOld (m : Mach) (st : Store) (a n : Nat) : (m.wrZero st a n).tideOld = m.tideOld := rfl
@[simp] theorem wrZero_refillOld (m : Mach) (st : Store) (a n : Nat) : (m.wrZero st a n).refillOld = m.refillOld := rfl
@[simp] theorem wrZero_latch (m : Mach) (st : Store) (a n : Nat) : (m.wrZero st a n).latch = m.latch := rfl
@[simp] theorem wrZero_shadow (m : Mach) (st : Store) (a n : Nat) : (m.wrZero st a n).shadow = m.shadow := rfl
@[simp] theorem wrZero_answer (m : Mach) (st : Store) (a n : Nat) : (m.wrZero st a n).answer = m.answer := rfl
@[simp] theorem wrZero_peat (m : Mach) (st : Store) (a n : Nat) : (m.wrZero st a n).peat = m.peat := rfl
@[simp] theorem wrZero_cream (m : Mach) (st : Store) (a n : Nat) : (m.wrZero st a n).cream = m.cream := rfl
@[simp] theorem wrZero_tsram (m : Mach) (st : Store) (a n : Nat) : (m.wrZero st a n).tsram = m.tsram := rfl
@[simp] theorem wrZero_flash (m : Mach) (st : Store) (a n : Nat) : (m.wrZero st a n).flash = m.flash := rfl
@[simp] theorem wrZero_evq (m : Mach) (st : Store) (a n : Nat) : (m.wrZero st a n).evq = m.evq := rfl
@[simp] theorem wrZero_flt (m : Mach) (st : Store) (a n : Nat) : (m.wrZero st a n).flt = m.flt := rfl
@[simp] theorem wrZero_halted (m : Mach) (st : Store) (a n : Nat) : (m.wrZero st a n).halted = m.halted := rfl
@[simp] theorem wrZero_plan (m : Mach) (st : Store) (a n : Nat) : (m.wrZero st a n).plan = m.plan := rfl
@[simp] theorem wrZero_tm (m : Mach) (st : Store) (a n : Nat) : (m.wrZero st a n).tm = m.tm := rfl
@[simp] theorem wrZero_sent (m : Mach) (st : Store) (a n : Nat) : (m.wrZero st a n).sent = m.sent := rfl
@[simp] theorem wrZero_onOscillator (m : Mach) (st : Store) (a n : Nat) : (m.wrZero st a n).onOscillator = m.onOscillator := rfl
@[simp] theorem wrZero_xlt (m : Mach) (st : Store) (a n : Nat) : (m.wrZero st a n).xlt = m.xlt := rfl
@[simp] theorem wrZero_winCloses (m : Mach) (st : Store) (a n : Nat) : (m.wrZero st a n).winCloses = m.winCloses := rfl
@[simp] theorem wrZero_mem (m : Mach) (st : Store) (a n : Nat) : (m.wrZero st a n).mem = m.mem := rfl
@[simp] theorem wrZero_qe (m : Mach) (st : Store) (a n : Nat) : (m.wrZero st a n).qe = m.qe := rfl
@[simp] theorem wrZero_lode (m : Mach) (st : Store) (a n : Nat) : (m.wrZero st a n).lode = m.lode := rfl
@[simp] theorem wrZero_ciph (m : Mach) (st : Store) (a n : Nat) : (m.wrZero st a n).ciph = m.ciph := rfl
@[simp] theorem wrZero_beq (m : Mach) (st : Store) (a n : Nat) : (m.wrZero st a n).beq = m.beq := rfl
@[simp] theorem wrZero_rte (m : Mach) (st : Store) (a n : Nat) : (m.wrZero st a n).rte = m.rte := rfl
@[simp] theorem wrZero_ports (m : Mach) (st : Store) (a n : Nat) : (m.wrZero st a n).ports = m.ports := rfl
@[simp] theorem wrZero_fabric (m : Mach) (st : Store) (a n : Nat) : (m.wrZero st a n).fabric = m.fabric := rfl
@[simp] theorem wrZero_clk (m : Mach) (st : Store) (a n : Nat) : (m.wrZero st a n).clk = m.clk := rfl
@[simp] theorem wrZero_downs (m : Mach) (st : Store) (a n : Nat) : (m.wrZero st a n).downs = m.downs := rfl
@[simp] theorem wrZero_tileDowns (m : Mach) (st : Store) (a n : Nat) : (m.wrZero st a n).tileDowns = m.tileDowns := rfl
@[simp] theorem wrZero_chu (m : Mach) (st : Store) (a n : Nat) : (m.wrZero st a n).chu = m.chu := rfl
@[simp] theorem wrZero_cfg (m : Mach) (st : Store) (a n : Nat) : (m.wrZero st a n).cfg = m.cfg := rfl
@[simp] theorem wrZero_coll (m : Mach) (st : Store) (a n : Nat) : (m.wrZero st a n).coll = m.coll := rfl
@[simp] theorem wrZero_herdReset (m : Mach) (st : Store) (a n : Nat) : (m.wrZero st a n).herdReset = m.herdReset := rfl
@[simp] theorem wrZero_leases (m : Mach) (st : Store) (a n : Nat) : (m.wrZero st a n).leases = m.leases := rfl
@[simp] theorem wrZero_reg (m : Mach) (st : Store) (a n : Nat) (key : Nat) : (m.wrZero st a n).reg key = m.reg key := rfl
@[simp] theorem wrZero_get (m : Mach) (st : Store) (a n : Nat) (g : Fld) (j u : Nat) : (m.wrZero st a n).get g j u = m.get g j u := rfl
@[simp] theorem wrZero_bit (m : Mach) (st : Store) (a n : Nat) (g : Fld) (j u : Nat) : (m.wrZero st a n).bit g j u = m.bit g j u := rfl

/-! ## `setPt` -/

@[simp] theorem setPt_variant (m : Mach) (p : Nat) (x : PortSt) : (m.setPt p x).variant = m.variant := rfl
@[simp] theorem setPt_now (m : Mach) (p : Nat) (x : PortSt) : (m.setPt p x).now = m.now := rfl
@[simp] theorem setPt_polder (m : Mach) (p : Nat) (x : PortSt) : (m.setPt p x).polder = m.polder := rfl
@[simp] theorem setPt_rate (m : Mach) (p : Nat) (x : PortSt) : (m.setPt p x).rate = m.rate := rfl
@[simp] theorem setPt_rateRem (m : Mach) (p : Nat) (x : PortSt) : (m.setPt p x).rateRem = m.rateRem := rfl
@[simp] theorem setPt_freeCtr (m : Mach) (p : Nat) (x : PortSt) : (m.setPt p x).freeCtr = m.freeCtr := rfl
@[simp] theorem setPt_regs (m : Mach) (p : Nat) (x : PortSt) : (m.setPt p x).regs = m.regs := rfl
@[simp] theorem setPt_tideOld (m : Mach) (p : Nat) (x : PortSt) : (m.setPt p x).tideOld = m.tideOld := rfl
@[simp] theorem setPt_refillOld (m : Mach) (p : Nat) (x : PortSt) : (m.setPt p x).refillOld = m.refillOld := rfl
@[simp] theorem setPt_latch (m : Mach) (p : Nat) (x : PortSt) : (m.setPt p x).latch = m.latch := rfl
@[simp] theorem setPt_shadow (m : Mach) (p : Nat) (x : PortSt) : (m.setPt p x).shadow = m.shadow := rfl
@[simp] theorem setPt_answer (m : Mach) (p : Nat) (x : PortSt) : (m.setPt p x).answer = m.answer := rfl
@[simp] theorem setPt_peat (m : Mach) (p : Nat) (x : PortSt) : (m.setPt p x).peat = m.peat := rfl
@[simp] theorem setPt_cream (m : Mach) (p : Nat) (x : PortSt) : (m.setPt p x).cream = m.cream := rfl
@[simp] theorem setPt_tsram (m : Mach) (p : Nat) (x : PortSt) : (m.setPt p x).tsram = m.tsram := rfl
@[simp] theorem setPt_flash (m : Mach) (p : Nat) (x : PortSt) : (m.setPt p x).flash = m.flash := rfl
@[simp] theorem setPt_wr (m : Mach) (p : Nat) (x : PortSt) : (m.setPt p x).wr = m.wr := rfl
@[simp] theorem setPt_evq (m : Mach) (p : Nat) (x : PortSt) : (m.setPt p x).evq = m.evq := rfl
@[simp] theorem setPt_flt (m : Mach) (p : Nat) (x : PortSt) : (m.setPt p x).flt = m.flt := rfl
@[simp] theorem setPt_halted (m : Mach) (p : Nat) (x : PortSt) : (m.setPt p x).halted = m.halted := rfl
@[simp] theorem setPt_plan (m : Mach) (p : Nat) (x : PortSt) : (m.setPt p x).plan = m.plan := rfl
@[simp] theorem setPt_tm (m : Mach) (p : Nat) (x : PortSt) : (m.setPt p x).tm = m.tm := rfl
@[simp] theorem setPt_sent (m : Mach) (p : Nat) (x : PortSt) : (m.setPt p x).sent = m.sent := rfl
@[simp] theorem setPt_onOscillator (m : Mach) (p : Nat) (x : PortSt) : (m.setPt p x).onOscillator = m.onOscillator := rfl
@[simp] theorem setPt_xlt (m : Mach) (p : Nat) (x : PortSt) : (m.setPt p x).xlt = m.xlt := rfl
@[simp] theorem setPt_winCloses (m : Mach) (p : Nat) (x : PortSt) : (m.setPt p x).winCloses = m.winCloses := rfl
@[simp] theorem setPt_mem (m : Mach) (p : Nat) (x : PortSt) : (m.setPt p x).mem = m.mem := rfl
@[simp] theorem setPt_qe (m : Mach) (p : Nat) (x : PortSt) : (m.setPt p x).qe = m.qe := rfl
@[simp] theorem setPt_lode (m : Mach) (p : Nat) (x : PortSt) : (m.setPt p x).lode = m.lode := rfl
@[simp] theorem setPt_ciph (m : Mach) (p : Nat) (x : PortSt) : (m.setPt p x).ciph = m.ciph := rfl
@[simp] theorem setPt_beq (m : Mach) (p : Nat) (x : PortSt) : (m.setPt p x).beq = m.beq := rfl
@[simp] theorem setPt_rte (m : Mach) (p : Nat) (x : PortSt) : (m.setPt p x).rte = m.rte := rfl
@[simp] theorem setPt_fabric (m : Mach) (p : Nat) (x : PortSt) : (m.setPt p x).fabric = m.fabric := rfl
@[simp] theorem setPt_clk (m : Mach) (p : Nat) (x : PortSt) : (m.setPt p x).clk = m.clk := rfl
@[simp] theorem setPt_downs (m : Mach) (p : Nat) (x : PortSt) : (m.setPt p x).downs = m.downs := rfl
@[simp] theorem setPt_tileDowns (m : Mach) (p : Nat) (x : PortSt) : (m.setPt p x).tileDowns = m.tileDowns := rfl
@[simp] theorem setPt_chu (m : Mach) (p : Nat) (x : PortSt) : (m.setPt p x).chu = m.chu := rfl
@[simp] theorem setPt_cfg (m : Mach) (p : Nat) (x : PortSt) : (m.setPt p x).cfg = m.cfg := rfl
@[simp] theorem setPt_coll (m : Mach) (p : Nat) (x : PortSt) : (m.setPt p x).coll = m.coll := rfl
@[simp] theorem setPt_herdReset (m : Mach) (p : Nat) (x : PortSt) : (m.setPt p x).herdReset = m.herdReset := rfl
@[simp] theorem setPt_leases (m : Mach) (p : Nat) (x : PortSt) : (m.setPt p x).leases = m.leases := rfl
@[simp] theorem setPt_reg (m : Mach) (p : Nat) (x : PortSt) (key : Nat) : (m.setPt p x).reg key = m.reg key := rfl
@[simp] theorem setPt_get (m : Mach) (p : Nat) (x : PortSt) (g : Fld) (j u : Nat) : (m.setPt p x).get g j u = m.get g j u := rfl
@[simp] theorem setPt_bit (m : Mach) (p : Nat) (x : PortSt) (g : Fld) (j u : Nat) : (m.setPt p x).bit g j u = m.bit g j u := rfl

/-! ## `setSrc` -/

@[simp] theorem setSrc_variant (m : Mach) (p : Nat) (x : FltSrc) : (m.setSrc p x).variant = m.variant := rfl
@[simp] theorem setSrc_now (m : Mach) (p : Nat) (x : FltSrc) : (m.setSrc p x).now = m.now := rfl
@[simp] theorem setSrc_polder (m : Mach) (p : Nat) (x : FltSrc) : (m.setSrc p x).polder = m.polder := rfl
@[simp] theorem setSrc_rate (m : Mach) (p : Nat) (x : FltSrc) : (m.setSrc p x).rate = m.rate := rfl
@[simp] theorem setSrc_rateRem (m : Mach) (p : Nat) (x : FltSrc) : (m.setSrc p x).rateRem = m.rateRem := rfl
@[simp] theorem setSrc_freeCtr (m : Mach) (p : Nat) (x : FltSrc) : (m.setSrc p x).freeCtr = m.freeCtr := rfl
@[simp] theorem setSrc_regs (m : Mach) (p : Nat) (x : FltSrc) : (m.setSrc p x).regs = m.regs := rfl
@[simp] theorem setSrc_tideOld (m : Mach) (p : Nat) (x : FltSrc) : (m.setSrc p x).tideOld = m.tideOld := rfl
@[simp] theorem setSrc_refillOld (m : Mach) (p : Nat) (x : FltSrc) : (m.setSrc p x).refillOld = m.refillOld := rfl
@[simp] theorem setSrc_latch (m : Mach) (p : Nat) (x : FltSrc) : (m.setSrc p x).latch = m.latch := rfl
@[simp] theorem setSrc_shadow (m : Mach) (p : Nat) (x : FltSrc) : (m.setSrc p x).shadow = m.shadow := rfl
@[simp] theorem setSrc_answer (m : Mach) (p : Nat) (x : FltSrc) : (m.setSrc p x).answer = m.answer := rfl
@[simp] theorem setSrc_peat (m : Mach) (p : Nat) (x : FltSrc) : (m.setSrc p x).peat = m.peat := rfl
@[simp] theorem setSrc_cream (m : Mach) (p : Nat) (x : FltSrc) : (m.setSrc p x).cream = m.cream := rfl
@[simp] theorem setSrc_tsram (m : Mach) (p : Nat) (x : FltSrc) : (m.setSrc p x).tsram = m.tsram := rfl
@[simp] theorem setSrc_flash (m : Mach) (p : Nat) (x : FltSrc) : (m.setSrc p x).flash = m.flash := rfl
@[simp] theorem setSrc_wr (m : Mach) (p : Nat) (x : FltSrc) : (m.setSrc p x).wr = m.wr := rfl
@[simp] theorem setSrc_evq (m : Mach) (p : Nat) (x : FltSrc) : (m.setSrc p x).evq = m.evq := rfl
@[simp] theorem setSrc_halted (m : Mach) (p : Nat) (x : FltSrc) : (m.setSrc p x).halted = m.halted := rfl
@[simp] theorem setSrc_plan (m : Mach) (p : Nat) (x : FltSrc) : (m.setSrc p x).plan = m.plan := rfl
@[simp] theorem setSrc_tm (m : Mach) (p : Nat) (x : FltSrc) : (m.setSrc p x).tm = m.tm := rfl
@[simp] theorem setSrc_sent (m : Mach) (p : Nat) (x : FltSrc) : (m.setSrc p x).sent = m.sent := rfl
@[simp] theorem setSrc_onOscillator (m : Mach) (p : Nat) (x : FltSrc) : (m.setSrc p x).onOscillator = m.onOscillator := rfl
@[simp] theorem setSrc_xlt (m : Mach) (p : Nat) (x : FltSrc) : (m.setSrc p x).xlt = m.xlt := rfl
@[simp] theorem setSrc_winCloses (m : Mach) (p : Nat) (x : FltSrc) : (m.setSrc p x).winCloses = m.winCloses := rfl
@[simp] theorem setSrc_mem (m : Mach) (p : Nat) (x : FltSrc) : (m.setSrc p x).mem = m.mem := rfl
@[simp] theorem setSrc_qe (m : Mach) (p : Nat) (x : FltSrc) : (m.setSrc p x).qe = m.qe := rfl
@[simp] theorem setSrc_lode (m : Mach) (p : Nat) (x : FltSrc) : (m.setSrc p x).lode = m.lode := rfl
@[simp] theorem setSrc_ciph (m : Mach) (p : Nat) (x : FltSrc) : (m.setSrc p x).ciph = m.ciph := rfl
@[simp] theorem setSrc_beq (m : Mach) (p : Nat) (x : FltSrc) : (m.setSrc p x).beq = m.beq := rfl
@[simp] theorem setSrc_rte (m : Mach) (p : Nat) (x : FltSrc) : (m.setSrc p x).rte = m.rte := rfl
@[simp] theorem setSrc_ports (m : Mach) (p : Nat) (x : FltSrc) : (m.setSrc p x).ports = m.ports := rfl
@[simp] theorem setSrc_fabric (m : Mach) (p : Nat) (x : FltSrc) : (m.setSrc p x).fabric = m.fabric := rfl
@[simp] theorem setSrc_clk (m : Mach) (p : Nat) (x : FltSrc) : (m.setSrc p x).clk = m.clk := rfl
@[simp] theorem setSrc_downs (m : Mach) (p : Nat) (x : FltSrc) : (m.setSrc p x).downs = m.downs := rfl
@[simp] theorem setSrc_tileDowns (m : Mach) (p : Nat) (x : FltSrc) : (m.setSrc p x).tileDowns = m.tileDowns := rfl
@[simp] theorem setSrc_chu (m : Mach) (p : Nat) (x : FltSrc) : (m.setSrc p x).chu = m.chu := rfl
@[simp] theorem setSrc_cfg (m : Mach) (p : Nat) (x : FltSrc) : (m.setSrc p x).cfg = m.cfg := rfl
@[simp] theorem setSrc_coll (m : Mach) (p : Nat) (x : FltSrc) : (m.setSrc p x).coll = m.coll := rfl
@[simp] theorem setSrc_herdReset (m : Mach) (p : Nat) (x : FltSrc) : (m.setSrc p x).herdReset = m.herdReset := rfl
@[simp] theorem setSrc_leases (m : Mach) (p : Nat) (x : FltSrc) : (m.setSrc p x).leases = m.leases := rfl
@[simp] theorem setSrc_reg (m : Mach) (p : Nat) (x : FltSrc) (key : Nat) : (m.setSrc p x).reg key = m.reg key := rfl
@[simp] theorem setSrc_get (m : Mach) (p : Nat) (x : FltSrc) (g : Fld) (j u : Nat) : (m.setSrc p x).get g j u = m.get g j u := rfl
@[simp] theorem setSrc_bit (m : Mach) (p : Nat) (x : FltSrc) (g : Fld) (j u : Nat) : (m.setSrc p x).bit g j u = m.bit g j u := rfl

/-! ## `emitOut` -/

@[simp] theorem emitOut_variant (m : Mach) (o : Out) : (m.emitOut o).variant = m.variant := rfl
@[simp] theorem emitOut_now (m : Mach) (o : Out) : (m.emitOut o).now = m.now := rfl
@[simp] theorem emitOut_polder (m : Mach) (o : Out) : (m.emitOut o).polder = m.polder := rfl
@[simp] theorem emitOut_rate (m : Mach) (o : Out) : (m.emitOut o).rate = m.rate := rfl
@[simp] theorem emitOut_rateRem (m : Mach) (o : Out) : (m.emitOut o).rateRem = m.rateRem := rfl
@[simp] theorem emitOut_freeCtr (m : Mach) (o : Out) : (m.emitOut o).freeCtr = m.freeCtr := rfl
@[simp] theorem emitOut_regs (m : Mach) (o : Out) : (m.emitOut o).regs = m.regs := rfl
@[simp] theorem emitOut_tideOld (m : Mach) (o : Out) : (m.emitOut o).tideOld = m.tideOld := rfl
@[simp] theorem emitOut_refillOld (m : Mach) (o : Out) : (m.emitOut o).refillOld = m.refillOld := rfl
@[simp] theorem emitOut_latch (m : Mach) (o : Out) : (m.emitOut o).latch = m.latch := rfl
@[simp] theorem emitOut_shadow (m : Mach) (o : Out) : (m.emitOut o).shadow = m.shadow := rfl
@[simp] theorem emitOut_answer (m : Mach) (o : Out) : (m.emitOut o).answer = m.answer := rfl
@[simp] theorem emitOut_peat (m : Mach) (o : Out) : (m.emitOut o).peat = m.peat := rfl
@[simp] theorem emitOut_cream (m : Mach) (o : Out) : (m.emitOut o).cream = m.cream := rfl
@[simp] theorem emitOut_tsram (m : Mach) (o : Out) : (m.emitOut o).tsram = m.tsram := rfl
@[simp] theorem emitOut_flash (m : Mach) (o : Out) : (m.emitOut o).flash = m.flash := rfl
@[simp] theorem emitOut_wr (m : Mach) (o : Out) : (m.emitOut o).wr = m.wr := rfl
@[simp] theorem emitOut_evq (m : Mach) (o : Out) : (m.emitOut o).evq = m.evq := rfl
@[simp] theorem emitOut_flt (m : Mach) (o : Out) : (m.emitOut o).flt = m.flt := rfl
@[simp] theorem emitOut_halted (m : Mach) (o : Out) : (m.emitOut o).halted = m.halted := rfl
@[simp] theorem emitOut_plan (m : Mach) (o : Out) : (m.emitOut o).plan = m.plan := rfl
@[simp] theorem emitOut_tm (m : Mach) (o : Out) : (m.emitOut o).tm = m.tm := rfl
@[simp] theorem emitOut_onOscillator (m : Mach) (o : Out) : (m.emitOut o).onOscillator = m.onOscillator := rfl
@[simp] theorem emitOut_xlt (m : Mach) (o : Out) : (m.emitOut o).xlt = m.xlt := rfl
@[simp] theorem emitOut_winCloses (m : Mach) (o : Out) : (m.emitOut o).winCloses = m.winCloses := rfl
@[simp] theorem emitOut_mem (m : Mach) (o : Out) : (m.emitOut o).mem = m.mem := rfl
@[simp] theorem emitOut_qe (m : Mach) (o : Out) : (m.emitOut o).qe = m.qe := rfl
@[simp] theorem emitOut_lode (m : Mach) (o : Out) : (m.emitOut o).lode = m.lode := rfl
@[simp] theorem emitOut_ciph (m : Mach) (o : Out) : (m.emitOut o).ciph = m.ciph := rfl
@[simp] theorem emitOut_beq (m : Mach) (o : Out) : (m.emitOut o).beq = m.beq := rfl
@[simp] theorem emitOut_rte (m : Mach) (o : Out) : (m.emitOut o).rte = m.rte := rfl
@[simp] theorem emitOut_ports (m : Mach) (o : Out) : (m.emitOut o).ports = m.ports := rfl
@[simp] theorem emitOut_fabric (m : Mach) (o : Out) : (m.emitOut o).fabric = m.fabric := rfl
@[simp] theorem emitOut_clk (m : Mach) (o : Out) : (m.emitOut o).clk = m.clk := rfl
@[simp] theorem emitOut_downs (m : Mach) (o : Out) : (m.emitOut o).downs = m.downs := rfl
@[simp] theorem emitOut_tileDowns (m : Mach) (o : Out) : (m.emitOut o).tileDowns = m.tileDowns := rfl
@[simp] theorem emitOut_chu (m : Mach) (o : Out) : (m.emitOut o).chu = m.chu := rfl
@[simp] theorem emitOut_cfg (m : Mach) (o : Out) : (m.emitOut o).cfg = m.cfg := rfl
@[simp] theorem emitOut_coll (m : Mach) (o : Out) : (m.emitOut o).coll = m.coll := rfl
@[simp] theorem emitOut_herdReset (m : Mach) (o : Out) : (m.emitOut o).herdReset = m.herdReset := rfl
@[simp] theorem emitOut_leases (m : Mach) (o : Out) : (m.emitOut o).leases = m.leases := rfl
@[simp] theorem emitOut_reg (m : Mach) (o : Out) (key : Nat) : (m.emitOut o).reg key = m.reg key := rfl
@[simp] theorem emitOut_get (m : Mach) (o : Out) (g : Fld) (j u : Nat) : (m.emitOut o).get g j u = m.get g j u := rfl
@[simp] theorem emitOut_bit (m : Mach) (o : Out) (g : Fld) (j u : Nat) : (m.emitOut o).bit g j u = m.bit g j u := rfl

/-! ## `answerWord` -/

@[simp] theorem answerWord_variant (m : Mach) (n : Nat) : (m.answerWord n).variant = m.variant := rfl
@[simp] theorem answerWord_now (m : Mach) (n : Nat) : (m.answerWord n).now = m.now := rfl
@[simp] theorem answerWord_polder (m : Mach) (n : Nat) : (m.answerWord n).polder = m.polder := rfl
@[simp] theorem answerWord_rate (m : Mach) (n : Nat) : (m.answerWord n).rate = m.rate := rfl
@[simp] theorem answerWord_rateRem (m : Mach) (n : Nat) : (m.answerWord n).rateRem = m.rateRem := rfl
@[simp] theorem answerWord_freeCtr (m : Mach) (n : Nat) : (m.answerWord n).freeCtr = m.freeCtr := rfl
@[simp] theorem answerWord_regs (m : Mach) (n : Nat) : (m.answerWord n).regs = m.regs := rfl
@[simp] theorem answerWord_tideOld (m : Mach) (n : Nat) : (m.answerWord n).tideOld = m.tideOld := rfl
@[simp] theorem answerWord_refillOld (m : Mach) (n : Nat) : (m.answerWord n).refillOld = m.refillOld := rfl
@[simp] theorem answerWord_latch (m : Mach) (n : Nat) : (m.answerWord n).latch = m.latch := rfl
@[simp] theorem answerWord_shadow (m : Mach) (n : Nat) : (m.answerWord n).shadow = m.shadow := rfl
@[simp] theorem answerWord_peat (m : Mach) (n : Nat) : (m.answerWord n).peat = m.peat := rfl
@[simp] theorem answerWord_cream (m : Mach) (n : Nat) : (m.answerWord n).cream = m.cream := rfl
@[simp] theorem answerWord_tsram (m : Mach) (n : Nat) : (m.answerWord n).tsram = m.tsram := rfl
@[simp] theorem answerWord_flash (m : Mach) (n : Nat) : (m.answerWord n).flash = m.flash := rfl
@[simp] theorem answerWord_wr (m : Mach) (n : Nat) : (m.answerWord n).wr = m.wr := rfl
@[simp] theorem answerWord_evq (m : Mach) (n : Nat) : (m.answerWord n).evq = m.evq := rfl
@[simp] theorem answerWord_flt (m : Mach) (n : Nat) : (m.answerWord n).flt = m.flt := rfl
@[simp] theorem answerWord_halted (m : Mach) (n : Nat) : (m.answerWord n).halted = m.halted := rfl
@[simp] theorem answerWord_plan (m : Mach) (n : Nat) : (m.answerWord n).plan = m.plan := rfl
@[simp] theorem answerWord_tm (m : Mach) (n : Nat) : (m.answerWord n).tm = m.tm := rfl
@[simp] theorem answerWord_sent (m : Mach) (n : Nat) : (m.answerWord n).sent = m.sent := rfl
@[simp] theorem answerWord_onOscillator (m : Mach) (n : Nat) : (m.answerWord n).onOscillator = m.onOscillator := rfl
@[simp] theorem answerWord_xlt (m : Mach) (n : Nat) : (m.answerWord n).xlt = m.xlt := rfl
@[simp] theorem answerWord_winCloses (m : Mach) (n : Nat) : (m.answerWord n).winCloses = m.winCloses := rfl
@[simp] theorem answerWord_mem (m : Mach) (n : Nat) : (m.answerWord n).mem = m.mem := rfl
@[simp] theorem answerWord_qe (m : Mach) (n : Nat) : (m.answerWord n).qe = m.qe := rfl
@[simp] theorem answerWord_lode (m : Mach) (n : Nat) : (m.answerWord n).lode = m.lode := rfl
@[simp] theorem answerWord_ciph (m : Mach) (n : Nat) : (m.answerWord n).ciph = m.ciph := rfl
@[simp] theorem answerWord_beq (m : Mach) (n : Nat) : (m.answerWord n).beq = m.beq := rfl
@[simp] theorem answerWord_rte (m : Mach) (n : Nat) : (m.answerWord n).rte = m.rte := rfl
@[simp] theorem answerWord_ports (m : Mach) (n : Nat) : (m.answerWord n).ports = m.ports := rfl
@[simp] theorem answerWord_fabric (m : Mach) (n : Nat) : (m.answerWord n).fabric = m.fabric := rfl
@[simp] theorem answerWord_clk (m : Mach) (n : Nat) : (m.answerWord n).clk = m.clk := rfl
@[simp] theorem answerWord_downs (m : Mach) (n : Nat) : (m.answerWord n).downs = m.downs := rfl
@[simp] theorem answerWord_tileDowns (m : Mach) (n : Nat) : (m.answerWord n).tileDowns = m.tileDowns := rfl
@[simp] theorem answerWord_chu (m : Mach) (n : Nat) : (m.answerWord n).chu = m.chu := rfl
@[simp] theorem answerWord_cfg (m : Mach) (n : Nat) : (m.answerWord n).cfg = m.cfg := rfl
@[simp] theorem answerWord_coll (m : Mach) (n : Nat) : (m.answerWord n).coll = m.coll := rfl
@[simp] theorem answerWord_herdReset (m : Mach) (n : Nat) : (m.answerWord n).herdReset = m.herdReset := rfl
@[simp] theorem answerWord_leases (m : Mach) (n : Nat) : (m.answerWord n).leases = m.leases := rfl
@[simp] theorem answerWord_reg (m : Mach) (n : Nat) (key : Nat) : (m.answerWord n).reg key = m.reg key := rfl
@[simp] theorem answerWord_get (m : Mach) (n : Nat) (g : Fld) (j u : Nat) : (m.answerWord n).get g j u = m.get g j u := rfl
@[simp] theorem answerWord_bit (m : Mach) (n : Nat) (g : Fld) (j u : Nat) : (m.answerWord n).bit g j u = m.bit g j u := rfl

/-! ## Time -/

/-- Local time after an advance: the later of the two. -/
@[simp] theorem advance_now (m : Mach) (t : Nat) : (m.advance t).now = max m.now t := by
  simp only [advance]
  omega

/-- An advance to a time that has passed changes nothing but the remainder of the rate corrections, which stays below a unit. -/
theorem advance_polder_of_le (m : Mach) (t : Nat) (h : t ≤ m.now) (h0 : 0 ≤ m.rateRem) (h1 : m.rateRem < 1000000000) : (m.advance t).polder = m.polder := by
  have e : t - m.now = 0 := by omega
  simp only [advance, e]
  have : ((0 : Nat) : Int) * m.rate = 0 := by simp
  rw [this, Int.add_zero, Int.ediv_eq_zero_of_lt h0 h1]
  simp

/-! ## The frame of a meaning -/

/-- Where no link or tile was lost, nothing is left to absorb. -/
theorem absorb_of_nil {m : Mach} (h : m.downs = []) (g : m.tileDowns = []) : m.absorb = m := by
  simp [absorb, h, g]

end Sys2Proof.Machine.Mach

namespace Sys2Proof.Machine

/-- The module as a meaning finds it: nothing written, nothing lost, no access to perform. -/
def clean (m : Mach) : Mach := { m with wr := [], downs := [], tileDowns := [], fabric := [] }

theorem commit_eq (s : State) (f : Mach → Mach) : commit s f = .next { s with m := settle s.m ((f (clean s.m)).absorb) } := rfl

@[simp] theorem clean_variant (m : Mach) : (clean m).variant = m.variant := rfl
@[simp] theorem clean_now (m : Mach) : (clean m).now = m.now := rfl
@[simp] theorem clean_polder (m : Mach) : (clean m).polder = m.polder := rfl
@[simp] theorem clean_rate (m : Mach) : (clean m).rate = m.rate := rfl
@[simp] theorem clean_rateRem (m : Mach) : (clean m).rateRem = m.rateRem := rfl
@[simp] theorem clean_freeCtr (m : Mach) : (clean m).freeCtr = m.freeCtr := rfl
@[simp] theorem clean_regs (m : Mach) : (clean m).regs = m.regs := rfl
@[simp] theorem clean_tideOld (m : Mach) : (clean m).tideOld = m.tideOld := rfl
@[simp] theorem clean_refillOld (m : Mach) : (clean m).refillOld = m.refillOld := rfl
@[simp] theorem clean_latch (m : Mach) : (clean m).latch = m.latch := rfl
@[simp] theorem clean_shadow (m : Mach) : (clean m).shadow = m.shadow := rfl
@[simp] theorem clean_answer (m : Mach) : (clean m).answer = m.answer := rfl
@[simp] theorem clean_peat (m : Mach) : (clean m).peat = m.peat := rfl
@[simp] theorem clean_cream (m : Mach) : (clean m).cream = m.cream := rfl
@[simp] theorem clean_tsram (m : Mach) : (clean m).tsram = m.tsram := rfl
@[simp] theorem clean_flash (m : Mach) : (clean m).flash = m.flash := rfl
@[simp] theorem clean_wr (m : Mach) : (clean m).wr = [] := rfl
@[simp] theorem clean_evq (m : Mach) : (clean m).evq = m.evq := rfl
@[simp] theorem clean_flt (m : Mach) : (clean m).flt = m.flt := rfl
@[simp] theorem clean_halted (m : Mach) : (clean m).halted = m.halted := rfl
@[simp] theorem clean_plan (m : Mach) : (clean m).plan = m.plan := rfl
@[simp] theorem clean_tm (m : Mach) : (clean m).tm = m.tm := rfl
@[simp] theorem clean_sent (m : Mach) : (clean m).sent = m.sent := rfl
@[simp] theorem clean_onOscillator (m : Mach) : (clean m).onOscillator = m.onOscillator := rfl
@[simp] theorem clean_xlt (m : Mach) : (clean m).xlt = m.xlt := rfl
@[simp] theorem clean_winCloses (m : Mach) : (clean m).winCloses = m.winCloses := rfl
@[simp] theorem clean_mem (m : Mach) : (clean m).mem = m.mem := rfl
@[simp] theorem clean_qe (m : Mach) : (clean m).qe = m.qe := rfl
@[simp] theorem clean_lode (m : Mach) : (clean m).lode = m.lode := rfl
@[simp] theorem clean_ciph (m : Mach) : (clean m).ciph = m.ciph := rfl
@[simp] theorem clean_beq (m : Mach) : (clean m).beq = m.beq := rfl
@[simp] theorem clean_rte (m : Mach) : (clean m).rte = m.rte := rfl
@[simp] theorem clean_ports (m : Mach) : (clean m).ports = m.ports := rfl
@[simp] theorem clean_fabric (m : Mach) : (clean m).fabric = [] := rfl
@[simp] theorem clean_clk (m : Mach) : (clean m).clk = m.clk := rfl
@[simp] theorem clean_downs (m : Mach) : (clean m).downs = [] := rfl
@[simp] theorem clean_tileDowns (m : Mach) : (clean m).tileDowns = [] := rfl
@[simp] theorem clean_chu (m : Mach) : (clean m).chu = m.chu := rfl
@[simp] theorem clean_cfg (m : Mach) : (clean m).cfg = m.cfg := rfl
@[simp] theorem clean_coll (m : Mach) : (clean m).coll = m.coll := rfl
@[simp] theorem clean_herdReset (m : Mach) : (clean m).herdReset = m.herdReset := rfl
@[simp] theorem clean_leases (m : Mach) : (clean m).leases = m.leases := rfl
@[simp] theorem clean_reg (m : Mach) (key : Nat) : (clean m).reg key = m.reg key := rfl
@[simp] theorem clean_get (m : Mach) (g : Fld) (j u : Nat) : (clean m).get g j u = m.get g j u := rfl
@[simp] theorem clean_bit (m : Mach) (g : Fld) (j u : Nat) : (clean m).bit g j u = m.bit g j u := rfl

@[simp] theorem settle_variant (m x : Mach) : (settle m x).variant = m.variant := rfl
@[simp] theorem settle_now (m x : Mach) : (settle m x).now = x.now := rfl
@[simp] theorem settle_polder (m x : Mach) : (settle m x).polder = x.polder := rfl
@[simp] theorem settle_rate (m x : Mach) : (settle m x).rate = x.rate := rfl
@[simp] theorem settle_rateRem (m x : Mach) : (settle m x).rateRem = x.rateRem := rfl
@[simp] theorem settle_freeCtr (m x : Mach) : (settle m x).freeCtr = x.freeCtr := rfl
@[simp] theorem settle_regs (m x : Mach) : (settle m x).regs = x.regs := rfl
@[simp] theorem settle_tideOld (m x : Mach) : (settle m x).tideOld = x.tideOld := rfl
@[simp] theorem settle_refillOld (m x : Mach) : (settle m x).refillOld = x.refillOld := rfl
@[simp] theorem settle_latch (m x : Mach) : (settle m x).latch = x.latch := rfl
@[simp] theorem settle_shadow (m x : Mach) : (settle m x).shadow = x.shadow := rfl
@[simp] theorem settle_answer (m x : Mach) : (settle m x).answer = x.answer := rfl
@[simp] theorem settle_peat (m x : Mach) : (settle m x).peat = x.wr.foldr (fun op mem => op.apply .peat mem) m.peat := rfl
@[simp] theorem settle_cream (m x : Mach) : (settle m x).cream = x.wr.foldr (fun op mem => op.apply .cream mem) m.cream := rfl
@[simp] theorem settle_tsram (m x : Mach) : (settle m x).tsram = x.wr.foldr (fun op mem => op.apply .tsram mem) m.tsram := rfl
@[simp] theorem settle_flash (m x : Mach) : (settle m x).flash = x.wr.foldr (fun op mem => op.apply .flash mem) m.flash := rfl
@[simp] theorem settle_wr (m x : Mach) : (settle m x).wr = [] := rfl
@[simp] theorem settle_evq (m x : Mach) : (settle m x).evq = x.evq := rfl
@[simp] theorem settle_flt (m x : Mach) : (settle m x).flt = x.flt := rfl
@[simp] theorem settle_halted (m x : Mach) : (settle m x).halted = x.halted := rfl
@[simp] theorem settle_plan (m x : Mach) : (settle m x).plan = x.plan := rfl
@[simp] theorem settle_tm (m x : Mach) : (settle m x).tm = x.tm := rfl
@[simp] theorem settle_sent (m x : Mach) : (settle m x).sent = x.sent := rfl
@[simp] theorem settle_onOscillator (m x : Mach) : (settle m x).onOscillator = x.onOscillator := rfl
@[simp] theorem settle_xlt (m x : Mach) : (settle m x).xlt = x.xlt := rfl
@[simp] theorem settle_winCloses (m x : Mach) : (settle m x).winCloses = x.winCloses := rfl
@[simp] theorem settle_mem (m x : Mach) : (settle m x).mem = x.mem := rfl
@[simp] theorem settle_qe (m x : Mach) : (settle m x).qe = x.qe := rfl
@[simp] theorem settle_lode (m x : Mach) : (settle m x).lode = x.lode := rfl
@[simp] theorem settle_ciph (m x : Mach) : (settle m x).ciph = x.ciph := rfl
@[simp] theorem settle_beq (m x : Mach) : (settle m x).beq = x.beq := rfl
@[simp] theorem settle_rte (m x : Mach) : (settle m x).rte = x.rte := rfl
@[simp] theorem settle_ports (m x : Mach) : (settle m x).ports = x.ports := rfl
@[simp] theorem settle_fabric (m x : Mach) : (settle m x).fabric = [] := rfl
@[simp] theorem settle_clk (m x : Mach) : (settle m x).clk = x.clk := rfl
@[simp] theorem settle_downs (m x : Mach) : (settle m x).downs = [] := rfl
@[simp] theorem settle_tileDowns (m x : Mach) : (settle m x).tileDowns = [] := rfl
@[simp] theorem settle_chu (m x : Mach) : (settle m x).chu = x.chu := rfl
@[simp] theorem settle_cfg (m x : Mach) : (settle m x).cfg = x.cfg := rfl
@[simp] theorem settle_coll (m x : Mach) : (settle m x).coll = x.coll := rfl
@[simp] theorem settle_herdReset (m x : Mach) : (settle m x).herdReset = x.herdReset := rfl
@[simp] theorem settle_leases (m x : Mach) : (settle m x).leases = x.leases := rfl

/-- A register after the frame of a meaning that keeps the order code. -/
theorem settle_reg (m x : Mach) (key : Nat) (h : x.variant = m.variant) : (settle m x).reg key = x.reg key := by
  simp [Mach.reg, h]

/-- A field after the frame of a meaning that keeps the order code. -/
theorem settle_get (m x : Mach) (g : Fld) (j u : Nat) (h : x.variant = m.variant) : (settle m x).get g j u = x.get g j u := by
  simp [Mach.get, settle_reg m x _ h]

/-- A meaning that loses no link and no tile leaves what its effect says. -/
theorem commit_of_nil (s : State) (f : Mach → Mach) (h : (f (clean s.m)).downs = []) (g : (f (clean s.m)).tileDowns = []) :
    commit s f = .next { s with m := settle s.m (f (clean s.m)) } := by
  rw [commit_eq, Mach.absorb_of_nil h g]

end Sys2Proof.Machine
end

