-- ==== Sys2Proof/Laws/Frame.lean ====
section
/-! SUPPORT. Laws of the terms of Safety.lean: how to show that a command runs, what its frame is, and that an access reaches its register. -/
namespace Sys2Proof.Machine

theorem clean_of_inv {m : Mach} (h : m.Inv) : clean m = m := by
  obtain ⟨-, -, -, -, h1, h2, h3, h4⟩ := h
  cases m
  simp only at h1 h2 h3 h4
  simp [clean, h1, h2, h3, h4]

/-- How to show what a command does: its meaning is `commit` of `f`, which loses no link and no tile. -/
theorem runs_of_commit {c : Instr} {s : State} {P : Mach → Prop} {f : Mach → Mach} (hc : Sys2Proof.Machine.exec c s = commit s f) (hi : s.m.Inv)
    (hd : (f s.m).downs = []) (ht : (f s.m).tileDowns = []) (h : P (settle s.m (f s.m))) : Runs c s P := by
  refine ⟨_, hc.trans (commit_of_nil s f ?_ ?_), rfl, ?_⟩ <;> rw [clean_of_inv hi] <;> assumption

theorem RegsBut.refl (K : Nat → Prop) (m : Mach) : RegsBut K m m := fun _ _ => rfl

theorem RegsBut.setReg {K : Nat → Prop} {m x : Mach} (h : RegsBut K m x) {k : Nat} (w : Word) (hk : K k) : RegsBut K m (x.setReg k w) := by
  intro j hj
  have : j ≠ k := fun e => hj (e ▸ hk)
  rw [Mach.reg_setReg_ne _ _ this, h j hj]

theorem RegsBut.set {K : Nat → Prop} {m x : Mach} (h : RegsBut K m x) {f : Fld} {v i s : Nat} (hk : K (keyOf f i s)) : RegsBut K m (x.set f v i s) :=
  h.setReg _ hk

theorem RegsBut.inc {K : Nat → Prop} {m x : Mach} (h : RegsBut K m x) {f : Fld} {v i s : Nat} (hk : K (keyOf f i s)) : RegsBut K m (x.inc f v i s) :=
  h.setReg _ hk

theorem RegsBut.set64 {K : Nat → Prop} {m x : Mach} (h : RegsBut K m x) {f : Fld} {v i s : Nat} (hk : K (keyOf f i s)) (hl : K (keyOf f i s + 4)) :
    RegsBut K m (x.set64 f v i s) := (h.setReg _ hk).setReg _ hl

/-- An update that leaves the register file and the order code alone. -/
theorem RegsBut.of_regs {K : Nat → Prop} {m x y : Mach} (h : RegsBut K m x) (hv : y.variant = x.variant) (hr : y.regs = x.regs) : RegsBut K m y := by
  intro k hk
  rw [← h k hk]
  simp [Mach.reg, hv, hr]

theorem sameStores_settle {m x : Mach} (h : x.wr = []) : SameStores m (settle m x) := by
  intro st a
  cases st <;> simp [Mach.base, h]

theorem frame_settle {K : Nat → Prop} {m x : Mach} (hv : x.variant = m.variant) (hw : x.wr = []) (h : RegsBut K m x) : Frame K m (settle m x) := by
  refine ⟨fun k hk => ?_, sameStores_settle hw⟩
  rw [settle_reg m x k hv]
  exact h k hk

/-- The gate lets an admitted access through. -/
theorem Mach.gate_of_admits {m : Mach} {v : Via} {addr : Nat} (h : m.Admits v addr) (f : Mach → Mach) : m.gate v addr f = f m := by
  obtain ⟨p, g⟩ := v
  unfold Mach.Admits Mach.admits at h
  rw [Bool.and_eq_true, Bool.and_eq_true] at h
  obtain ⟨⟨h1, h2⟩, h3⟩ := h
  simp only [Mach.gate, h1]
  cases p <;> cases g <;> simp_all

theorem Mach.stewardGate_of_admits {m : Mach} {p : Path} {addr : Nat} (h : m.Steward p addr) (f : Mach → Mach) : m.stewardGate p addr f = f m :=
  Mach.gate_of_admits h f

/-- Running engines do what they are given. -/
theorem Mach.engines_of_running {m : Mach} (h : m.Running) (f : Mach → Mach) : m.engines f = f m := by
  obtain ⟨h1, h2, h3⟩ := h
  simp [Mach.engines, h1, h2, h3]

theorem Mach.Inv.no_wr {m : Mach} (h : m.Inv) : m.wr = [] := h.2.2.2.2.1
theorem Mach.Inv.no_fabric {m : Mach} (h : m.Inv) : m.fabric = [] := h.2.2.2.2.2.1
theorem Mach.Inv.no_downs {m : Mach} (h : m.Inv) : m.downs = [] := h.2.2.2.2.2.2.1
theorem Mach.Inv.no_tileDowns {m : Mach} (h : m.Inv) : m.tileDowns = [] := h.2.2.2.2.2.2.2

end Sys2Proof.Machine
end

