-- ==== Sys2Proof/Laws/Fault.lean ====
section
/-! SUPPORT. What a fault event can touch (16_faults.md R392 to R400): registers, the collector, the queue of events, and the ports and tiles that a fence takes out of
service; everything else stays. -/
namespace Sys2Proof.Machine

/-- `y` differs from `x` at most in what a fault event can touch: registers, collector, queue of events, ports, and the lists of ports and tiles gone. -/
structure FaultTouch (x y : Mach) : Prop where
  variant : y.variant = x.variant
  now : y.now = x.now
  polder : y.polder = x.polder
  rate : y.rate = x.rate
  rateRem : y.rateRem = x.rateRem
  freeCtr : y.freeCtr = x.freeCtr
  tideOld : y.tideOld = x.tideOld
  refillOld : y.refillOld = x.refillOld
  latch : y.latch = x.latch
  shadow : y.shadow = x.shadow
  answer : y.answer = x.answer
  peat : y.peat = x.peat
  cream : y.cream = x.cream
  tsram : y.tsram = x.tsram
  flash : y.flash = x.flash
  wr : y.wr = x.wr
  halted : y.halted = x.halted
  plan : y.plan = x.plan
  tm : y.tm = x.tm
  sent : y.sent = x.sent
  onOscillator : y.onOscillator = x.onOscillator
  xlt : y.xlt = x.xlt
  winCloses : y.winCloses = x.winCloses
  mem : y.mem = x.mem
  qe : y.qe = x.qe
  lode : y.lode = x.lode
  ciph : y.ciph = x.ciph
  beq : y.beq = x.beq
  rte : y.rte = x.rte
  fabric : y.fabric = x.fabric
  clk : y.clk = x.clk
  chu : y.chu = x.chu
  cfg : y.cfg = x.cfg
  coll : y.coll = x.coll
  herdReset : y.herdReset = x.herdReset
  leases : y.leases = x.leases

namespace FaultTouch

theorem refl (x : Mach) : FaultTouch x x := by constructor <;> rfl

theorem trans {x y z : Mach} (h : FaultTouch x y) (g : FaultTouch y z) : FaultTouch x z := by
  constructor
  · exact g.variant.trans h.variant
  · exact g.now.trans h.now
  · exact g.polder.trans h.polder
  · exact g.rate.trans h.rate
  · exact g.rateRem.trans h.rateRem
  · exact g.freeCtr.trans h.freeCtr
  · exact g.tideOld.trans h.tideOld
  · exact g.refillOld.trans h.refillOld
  · exact g.latch.trans h.latch
  · exact g.shadow.trans h.shadow
  · exact g.answer.trans h.answer
  · exact g.peat.trans h.peat
  · exact g.cream.trans h.cream
  · exact g.tsram.trans h.tsram
  · exact g.flash.trans h.flash
  · exact g.wr.trans h.wr
  · exact g.halted.trans h.halted
  · exact g.plan.trans h.plan
  · exact g.tm.trans h.tm
  · exact g.sent.trans h.sent
  · exact g.onOscillator.trans h.onOscillator
  · exact g.xlt.trans h.xlt
  · exact g.winCloses.trans h.winCloses
  · exact g.mem.trans h.mem
  · exact g.qe.trans h.qe
  · exact g.lode.trans h.lode
  · exact g.ciph.trans h.ciph
  · exact g.beq.trans h.beq
  · exact g.rte.trans h.rte
  · exact g.fabric.trans h.fabric
  · exact g.clk.trans h.clk
  · exact g.chu.trans h.chu
  · exact g.cfg.trans h.cfg
  · exact g.coll.trans h.coll
  · exact g.herdReset.trans h.herdReset
  · exact g.leases.trans h.leases

theorem setReg (x : Mach) (k : Nat) (w : Word) : FaultTouch x (x.setReg k w) := by constructor <;> rfl
theorem set (x : Mach) (f : Fld) (v i s : Nat) : FaultTouch x (x.set f v i s) := by constructor <;> rfl
theorem inc (x : Mach) (f : Fld) (v i s : Nat) : FaultTouch x (x.inc f v i s) := by constructor <;> rfl
theorem raise (x : Mach) (code source herd : Nat) (dest : List Nat) (a b : Nat) : FaultTouch x (x.raise code source herd dest a b) := by
  constructor <;> rfl
theorem setFlt (x : Mach) (y : FltSt) : FaultTouch x { x with flt := y } := by constructor <;> rfl
theorem setSrc (x : Mach) (s : Nat) (y : FltSrc) : FaultTouch x (x.setSrc s y) := by constructor <;> rfl
theorem setPt (x : Mach) (p : Nat) (y : PortSt) : FaultTouch x (x.setPt p y) := by constructor <;> rfl
theorem setDowns (x : Mach) (l : List Nat) : FaultTouch x { x with downs := l } := by constructor <;> rfl
theorem setTileDowns (x : Mach) (l : List Nat) : FaultTouch x { x with tileDowns := l } := by constructor <;> rfl

theorem foldl {α : Type} (g : Mach → α → Mach) (h : ∀ m a, FaultTouch m (g m a)) (l : List α) (x : Mach) : FaultTouch x (l.foldl g x) := by
  induction l generalizing x with
  | nil => exact refl x
  | cons a r ih => exact (h x a).trans (ih (g x a))

theorem ite {c : Prop} [Decidable c] {x y z : Mach} (h : FaultTouch x y) (g : FaultTouch x z) : FaultTouch x (if c then y else z) := by
  split <;> assumption

theorem fltQueue (x : Mach) (s : Nat) (r : List Word) : FaultTouch x (x.fltQueue s r) :=
  ite (setFlt _ _) (ite ((inc _ _ _ _ _).trans (set _ _ _ _ _)) ((((inc _ _ _ _ _).trans (set _ _ _ _ _)).trans (setFlt _ _)).trans (raise _ _ _ _ _ _ _)))

theorem srcMove (x : Mach) (s v : Nat) : FaultTouch x (x.srcMove s v) := (set x _ v 0 s).trans (fltQueue _ _ _)

theorem setHandling (x : Mach) (s : Nat) (h : Handling) : FaultTouch x (x.setHandling s h) := (setSrc _ _ _).trans (set _ _ _ _ _)

theorem closeWindow (x : Mach) (s : Nat) : FaultTouch x (x.closeWindow s) := (setSrc _ _ _).trans (set _ _ _ _ _)

theorem degrade (x : Mach) (s : Nat) : FaultTouch x (x.degrade s) := ((srcMove x s 1).trans (raise _ _ _ _ _ _ _)).trans (setHandling _ _ _)

theorem setUncovered (x : Mach) (s : Nat) (b : Bool) : FaultTouch x (x.setUncovered s b) := ite ((set x _ _ _ _).trans (degrade _ _)) (set x _ _ _ _)

theorem erasePackage (x : Mach) (c : Nat) : FaultTouch x (x.erasePackage c) :=
  ite (refl _) (((set _ _ _ _ _).trans (set _ _ _ _ _)).trans (set _ _ _ _ _))

theorem pllMoveDomains (x : Mach) (k : Nat) : FaultTouch x (x.pllMoveDomains k) :=
  foldl _ (fun _ _ => ite (((set _ _ _ _ _).trans (set _ _ _ _ _)).trans (set _ _ _ _ _)) (refl _)) _ _

theorem fenceTile (x : Mach) (t : Nat) : FaultTouch x (x.fenceTile t) := (set _ _ _ _ _).trans (setTileDowns _ _)

theorem portDown (x : Mach) (p st : Nat) : FaultTouch x (x.portDown p st) :=
  (setPt x p _).trans ((ite ((setDowns _ _).trans (raise _ _ _ _ _ _ _)) (refl _)).trans (set _ _ _ _ _))

theorem cipherFence (x : Mach) (e : Nat) : FaultTouch x (x.cipherFence e) := ((set _ _ _ _ _).trans (set _ _ _ _ _)).trans (inc _ _ _ _ _)

theorem fenceUnit (x : Mach) (s : Nat) : FaultTouch x (x.fenceUnit s) :=
  ite (portDown _ _ _) <| ite (fenceTile _ _) <| ite (refl _) <| ite (erasePackage _ _) <| ite (cipherFence _ _) <|
    ite (foldl _ (fun _ _ => fenceTile _ _) _ _) <| ite (((set x _ _ _ _).trans (pllMoveDomains _ _)).trans (setUncovered _ _ _)) (refl _)

theorem fenceStart (x : Mach) (s : Nat) (b : Bool) : FaultTouch x (x.fenceStart s b) :=
  (srcMove x s _).trans <| (fenceUnit _ _).trans <| (raise _ _ _ _ _ _ _).trans <| (set _ _ _ _ _).trans <| (setHandling _ _ _).trans (setSrc _ _ _)

theorem evalSource (x : Mach) (s : Nat) (f : Bool) : FaultTouch x (x.evalSource s f) :=
  ite (refl _) <| ite (refl _) <| ite ((setSrc _ _ _).trans (setFlt _ _)) <| ite (fenceStart _ _ _) (degrade _ _)

theorem fault (x : Mach) (s k : Nat) (i : FltInfo) : FaultTouch x (x.fault s k i) := by
  unfold Mach.fault
  extract_lets y isOpen count wend fatal m1 m2 st sev reacts fences limit after r m3 m4
  have h4 : FaultTouch x m4 := (((((setSrc x s _).trans (set _ _ _ 0 s)).trans (inc _ _ 1 0 s)).trans (fltQueue m2 s r)).trans
    (ite (refl _) ((set _ _ _ _ _).trans (foldl _ (fun _ _ => set _ _ _ _ _) _ _))) : FaultTouch x m4)
  split
  · exact h4.trans (evalSource _ _ _)
  · split
    · exact h4.trans (fenceStart _ _ _)
    · split
      · exact h4.trans (setSrc _ _ _)
      · exact h4

theorem regFault (x : Mach) (p : Path) (a : Nat) (w : Bool) : FaultTouch x (x.regFault p a w) := by
  cases p <;> exact fault _ _ _ _

end FaultTouch

/-- `y` differs from `x` at most in registers of FLT, the collector and the queue of events. -/
structure FltOnly (x y : Mach) : Prop where
  touch : FaultTouch x y
  ports : y.ports = x.ports
  downs : y.downs = x.downs
  tileDowns : y.tileDowns = x.tileDowns
  reg : RegsBut fltKey x y

namespace FltOnly

theorem refl (x : Mach) : FltOnly x x := ⟨.refl x, rfl, rfl, rfl, fun _ _ => rfl⟩

theorem trans {x y z : Mach} (h : FltOnly x y) (g : FltOnly y z) : FltOnly x z :=
  ⟨h.touch.trans g.touch, g.ports.trans h.ports, g.downs.trans h.downs, g.tileDowns.trans h.tileDowns,
   fun k hk => (g.reg k hk).trans (h.reg k hk)⟩

theorem set (x : Mach) (f : Fld) (v i s : Nat) (h : fltKey (keyOf f i s)) : FltOnly x (x.set f v i s) :=
  ⟨.set _ _ _ _ _, rfl, rfl, rfl, (RegsBut.refl _ _).set h⟩

theorem inc (x : Mach) (f : Fld) (v i s : Nat) (h : fltKey (keyOf f i s)) : FltOnly x (x.inc f v i s) :=
  ⟨.inc _ _ _ _ _, rfl, rfl, rfl, (RegsBut.refl _ _).inc h⟩

theorem raise (x : Mach) (code source herd : Nat) (dest : List Nat) (a b : Nat) : FltOnly x (x.raise code source herd dest a b) :=
  ⟨.raise _ _ _ _ _ _ _, rfl, rfl, rfl, fun _ _ => rfl⟩

theorem setFlt (x : Mach) (y : FltSt) : FltOnly x { x with flt := y } := ⟨.setFlt _ _, rfl, rfl, rfl, fun _ _ => rfl⟩

theorem setSrc (x : Mach) (s : Nat) (y : FltSrc) : FltOnly x (x.setSrc s y) := ⟨.setSrc _ _ _, rfl, rfl, rfl, fun _ _ => rfl⟩

theorem foldl {α : Type} (g : Mach → α → Mach) (l : List α) (h : ∀ m, ∀ a ∈ l, FltOnly m (g m a)) (x : Mach) : FltOnly x (l.foldl g x) := by
  induction l generalizing x with
  | nil => exact refl x
  | cons a r ih => exact (h x a (by simp)).trans (ih (fun m b hb => h m b (by simp [hb])) (g x a))

theorem ite {c : Prop} [Decidable c] {x y z : Mach} (h : FltOnly x y) (g : FltOnly x z) : FltOnly x (if c then y else z) := by
  split <;> assumption

/-- The sources whose number is below 512 have their registers in FLT. -/
theorem key (f : Fld) (i s : Nat) (ha : 0x00030000 ≤ f.addr + f.step * i) (hb : f.addr + f.step * i < 0x00040000) (hs : s < 512) : fltKey (keyOf f i s) := by
  simp only [fltKey, keyOf, Mach.fkey, regKey, fabricCopy, regSpan]
  omega

theorem fltQueue (x : Mach) (s : Nat) (hs : s < 512) (r : List Word) : FltOnly x (x.fltQueue s r) :=
  ite (setFlt _ _) (ite ((inc _ _ _ _ _ (key _ _ _ (by decide) (by decide) hs)).trans (set _ _ _ _ _ (key _ _ _ (by decide) (by decide) (by decide))))
    ((((inc _ _ _ _ _ (key _ _ _ (by decide) (by decide) hs)).trans (set _ _ _ _ _ (key _ _ _ (by decide) (by decide) (by decide)))).trans (setFlt _ _)).trans
      (raise _ _ _ _ _ _ _)))

theorem srcMove (x : Mach) (s v : Nat) (hs : s < 512) : FltOnly x (x.srcMove s v) :=
  (set x _ v 0 s (key _ _ _ (by decide) (by decide) hs)).trans (fltQueue _ _ hs _)

theorem setHandling (x : Mach) (s : Nat) (h : Handling) (hs : s < 512) : FltOnly x (x.setHandling s h) :=
  (setSrc _ _ _).trans (set _ _ _ _ _ (key _ _ _ (by decide) (by decide) hs))

theorem closeWindow (x : Mach) (s : Nat) (hs : s < 512) : FltOnly x (x.closeWindow s) :=
  (setSrc _ _ _).trans (set _ _ _ _ _ (key _ _ _ (by decide) (by decide) hs))

theorem degrade (x : Mach) (s : Nat) (hs : s < 512) : FltOnly x (x.degrade s) :=
  ((srcMove x s 1 hs).trans (raise _ _ _ _ _ _ _)).trans (setHandling _ _ _ hs)

/-- A source from 300 up fences nothing (R398). -/
theorem fenceUnit (x : Mach) (s : Nat) (h : 300 ≤ s) : x.fenceUnit s = x := by
  unfold Mach.fenceUnit
  simp only [show ¬ s < 64 by omega, show ¬ s < 192 by omega, show ¬ s < 256 by omega, show ¬ s < 280 by omega, show ¬ s < 284 by omega,
    show ¬ s < 292 by omega, show ¬ s < 300 by omega, if_false]

theorem fenceStart (x : Mach) (s : Nat) (b : Bool) (h : 300 ≤ s) (hs : s < 512) : FltOnly x (x.fenceStart s b) := by
  have e : ∀ v, FltOnly x ((x.srcMove s v).fenceUnit s) := fun v => by rw [fenceUnit _ _ h]; exact srcMove x s v hs
  exact (e _).trans <| (raise _ _ _ _ _ _ _).trans <| (set _ _ _ _ _ (key _ _ _ (by decide) (by decide) hs)).trans <|
    (setHandling _ _ _ hs).trans (setSrc _ _ _)

theorem evalSource (x : Mach) (s : Nat) (f : Bool) (h : 300 ≤ s) (hs : s < 512) : FltOnly x (x.evalSource s f) :=
  ite (refl _) <| ite (refl _) <| ite ((setSrc _ _ _).trans (setFlt _ _)) <| ite (fenceStart _ _ _ h hs) (degrade _ _ hs)

/-- A fault event of a source that fences nothing touches the collector alone. -/
theorem fault (x : Mach) (s k : Nat) (i : FltInfo) (h : 300 ≤ s) (hs : s < 512) : FltOnly x (x.fault s k i) := by
  unfold Mach.fault
  extract_lets y isOpen count wend fatal m1 m2 st sev reacts fences limit after r m3 m4
  have h4 : FltOnly x m4 := (((((setSrc x s _).trans (set _ _ _ 0 s (key _ _ _ (by decide) (by decide) hs))).trans
    (inc _ _ 1 0 s (key _ _ _ (by decide) (by decide) hs))).trans (fltQueue m2 s hs r)).trans
    (ite (refl _) ((set _ _ _ _ _ (key _ _ _ (by decide) (by decide) hs)).trans (foldl _ _ (fun _ a ha => set _ _ _ _ _ (by
      have : a < 8 := List.mem_range.1 ha
      exact key _ _ _ (by simp only []; omega) (by simp only []; omega) hs)) _))) : FltOnly x m4)
  split
  · exact h4.trans (evalSource _ _ _ h hs)
  · split
    · exact h4.trans (fenceStart _ _ _ h hs)
    · split
      · exact h4.trans (setSrc _ _ _)
      · exact h4

theorem regFault (x : Mach) (p : Path) (a : Nat) (w : Bool) : FltOnly x (x.regFault p a w) := by
  cases p <;> exact fault _ _ _ _ (by decide) (by decide)

end FltOnly
end Sys2Proof.Machine
end

