-- ==== Sys2Proof/WellFormed.lean ====
section
/-! DEFINITION. Which operands name something that the part has: the range of every number that a command carries (00_scope.md R7; the counts of 01_architecture.md
and of each block's chapter). A command with an operand out of range names nothing; the meanings take it as one whose condition does not hold. -/
namespace Sys2Proof

/-- Herds are 0 to 255 (14_herds.md R352). -/
def Path.wf : Path → Bool
  | .mgmt => true
  | .fabric h => decide (h < 256)

/-- A page belongs to a herd. -/
def Via.wf (v : Via) : Bool := v.path.wf && (v.page.map (fun h => decide (h < 256))).getD true

/-- Register addresses lie within 64 MiB (00_scope.md R7). -/
def addrOk (a : Nat) : Bool := decide (a < 0x04000000)

/-- Ports 0 to 31 (12_ports_mac.md R331). -/
def portOk' (p : Nat) : Bool := decide (p < 32)

/-- Submission and completion queues 0 to 4,095 (05_queues_descriptors.md R126). -/
def queueOk (k : Nat) : Bool := decide (k < 4096)

/-- Lode endpoints 0 to 16,383 (04_lodes_ordering.md R125). -/
def lodeOk (l : Nat) : Bool := decide (l < 16384)

/-- Windows 0 to 1,048,575 (06_translation_windows.md R165). -/
def windowOk (w : Nat) : Bool := decide (w < 2 ^ 20)

/-- Queue pairs 0 to 65,535 and the control connections behind them (11_best_effort_transport.md R289, R292). -/
def qpOk (q : Nat) : Bool := decide (q < 66560)

/-- Tiles 0 to 63 (07_churn_arithmetic.md R177). -/
def tileOk (t : Nat) : Bool := decide (t < 64)

/-- Collective groups 0 to 4,095 (09_collectives.md R235). -/
def groupOk (g : Nat) : Bool := decide (g < 4096)

/-- Clock domains 0 to 59 (17_clocks_power_reset.md R416), PLLs 0 to 7 (R412). -/
def domainOk (d : Nat) : Bool := decide (d < 60)
def pllOk (k : Nat) : Bool := decide (k < 8)

/-- Fault sources 0 to 319 (16_faults.md R392). -/
def sourceOk (s : Nat) : Bool := decide (s < 320)

/-- Mirror regions 0 to 63 (10_memory.md R281), key pages 0 to 1,023 (15_cipher.md R391), cipher engines 0 to 3 (R391). -/
def regionOk (r : Nat) : Bool := decide (r < 64)
def pageOk (p : Nat) : Bool := decide (p < 1024)
def engineOk (e : Nat) : Bool := decide (e < 4)

/-- Whether the operands of a command name what the part has. -/
def Instr.wf : Instr → Bool
  | .registerWrite p addr _ => p.wf && addrOk addr
  | .pairLoRead p addr => p.wf && addrOk addr
  | .pairLoWrite p addr _ => p.wf && addrOk addr
  | .pairHiWrite p addr _ => p.wf && addrOk addr
  | .readClearRegister p addr => p.wf && addrOk addr
  | .misalignedRegisterAccess p a _ _ _ => p.wf && addrOk a
  | .unoccupiedRegisterAccess p a _ _ => p.wf && addrOk a
  | .timeFrameTimer _ => true
  | .timeFrameReceived _ port _ f => portOk' port && decide (f.depth < 256)
  | .parentLostTimeout _ _ => true
  | .holdLimitExceeded _ => true
  | .delayExchangeTimeout _ port => portOk' port
  | .ppsInEdge _ _ => true
  | .ppsAnchorTimeout _ => true
  | .ppsOutSecond _ => true
  | .ppsOutFall _ => true
  | .timeSet p => p.wf
  | .timeCapture p => p.wf
  | .planLoad p bank => p.wf && decide (bank < 2)
  | .planCheckComplete _ b => decide (b < 2)
  | .planArm p bank => p.wf && decide (bank < 2)
  | .planClear p bank => p.wf && decide (bank < 2)
  | .planUnload p bank => p.wf && decide (bank < 2)
  | .planActivate _ => true
  | .planRetire _ => true
  | .tideBoundary _ => true
  | .slotOpen _ port => portOk' port
  | .lodeFrameAccept _ l => lodeOk l
  | .lodeDeadlineTimeout _ l => lodeOk l
  | .schedFrameReceived _ p f => portOk' p && decide (f.epoch < 2)
  | .schedFrameRoute _ p => portOk' p
  | .plannedWake _ d => domainOk d
  | .plannedDomainStop _ d => domainOk d
  | .lodeFrameReceived _ => true
  | .lodeLeaseLoss _ l => lodeOk l
  | .heldFrameRelease _ l => lodeOk l
  | .memoryWriteAck _ _ => true
  | .lodeFlagWrite _ l => lodeOk l
  | .lodeAtomicPerform _ l => lodeOk l
  | .receiptSend _ l => lodeOk l
  | .receiptTimer _ l => lodeOk l
  | .receiptReceived _ => true
  | .receiptTimeout _ l => lodeOk l
  | .completionWrite _ k => queueOk k
  | .completionHeaderWrite _ c => queueOk c
  | .rxCompletionWrite _ l => lodeOk l
  | .waitCountSatisfied _ k => queueOk k
  | .waitCountTimeout _ k => queueOk k
  | .sqDoorbell p h q _ => p.wf && decide (h < 256) && queueOk q
  | .cqDoorbell p h c _ => p.wf && decide (h < 256) && queueOk c
  | .eqDoorbell p h _ => p.wf && decide (h < 256)
  | .sqReadComplete _ k _ => queueOk k
  | .sqRefetchTimer _ k => queueOk k
  | .stalePhaseTimeout _ k => queueOk k
  | .lodeWrite _ k => queueOk k
  | .lodeAtomic _ k => queueOk k
  | .qpSend _ k => queueOk k
  | .qpWrite _ k => queueOk k
  | .qpRead _ k => queueOk k
  | .qpAtomic _ k => queueOk k
  | .qpRecv _ k => queueOk k
  | .churnLaunch _ k => queueOk k
  | .waitCount _ k => queueOk k
  | .nop _ k => queueOk k
  | .allReduce _ k => queueOk k
  | .reduceScatter _ k => queueOk k
  | .allGather _ k => queueOk k
  | .broadcast _ k => queueOk k
  | .allReduceLowrank _ k => queueOk k
  | .reduceScatterAdam _ k => queueOk k
  | .rerun _ k => queueOk k
  | .eventRingWrite _ => true
  | .sqEnable v _ => v.wf
  | .sqDisable v _ => v.wf
  | .cqDisable p _ => p.wf
  | .rxBindEnable p _ => p.wf
  | .ringBaseWrite v k _ => v.wf && decide (k < 3)
  | .asEnable p _ => p.wf
  | .transferTileChecked _ _ q => qpOk q
  | .invalidateAll v _ => v.wf
  | .invalidateContext v _ => v.wf
  | .invalidateRange v _ => v.wf
  | .invalidateStart _ => true
  | .invalidateDone _ => true
  | .windowOpen v w => v.wf && windowOk w
  | .windowClose v w => v.wf && windowOk w
  | .windowRead v w => v.wf && windowOk w
  | .windowCloseComplete _ w => windowOk w
  | .windowCloseTimeout _ w => windowOk w
  | .dirtyHarvest p _ => p.wf
  | .dirtyHarvestDone _ => true
  | .seedWrite v _ => v.wf
  | .churnCheckDetect _ t => tileOk t
  | .launchPassEnd _ _ _ _ _ => true
  | .tileSramEcc _ t w _ => tileOk t && decide (w < 131072)
  | .tileSramScrub _ t _ => tileOk t
  | .tileSramClear _ t => tileOk t
  | .programLoad v _ => v.wf
  | .programCheckComplete _ e => decide (e < 1024)
  | .programUnload v => v.wf
  | .launchArgsRead _ _ => true
  | .launchStartScheduled _ _ => true
  | .launchStartUnscheduled _ _ => true
  | .launchBudgetExceeded _ _ => true
  | .streamOverrun _ _ _ _ => true
  | .launchComplete _ _ => true
  | .dynChunkSend _ g => groupOk g
  | .dynChunkRto _ g _ => groupOk g
  | .chunkFrameReceived _ => true
  | .generationDelivered _ g _ => groupOk g
  | .groupTimeout _ g => groupOk g
  | .collCreate v => v.wf
  | .collDestroy v => v.wf
  | .collReset v => v.wf
  | .collRelease v => v.wf
  | .creamGranuleAssign p _ => p.wf
  | .creamGranuleRelease p _ => p.wf
  | .peatGranuleAssign p _ => p.wf
  | .peatGranuleRelease p _ => p.wf
  | .granuleClearDone _ c g => decide (g < if c then 3072 else 524288)
  | .creamEcc _ w _ => decide (w < 2 ^ 25)
  | .creamScrub _ _ => true
  | .peatSymbolError _ _ ps => ps.all (fun c => decide (c < 24))
  | .peatScrub _ ps => ps.all (fun c => decide (c < 24))
  | .mirrorStart p => p.wf
  | .mirrorSeal p => p.wf
  | .mirrorStop p => p.wf
  | .mirrorRollback p => p.wf
  | .mirrorSectorShip _ r => regionOk r
  | .mirrorSealSend _ r => regionOk r
  | .mirrorMessageReceived _ => true
  | .mirrorSealApply _ r => regionOk r
  | .mirrorOrphanTimeout _ r => regionOk r
  | .qpCreate v => v.wf
  | .qpDestroy v => v.wf
  | .qpReset v => v.wf
  | .qpPacketReceived _ => true
  | .qpAckTimer _ q => qpOk q
  | .qpAckReceived _ => true
  | .qpRtoExpire _ q => qpOk q
  | .qpRnrRetry _ q => qpOk q
  | .qpLeaseTimeout _ q => qpOk q
  | .ccRateUpdate _ q => qpOk q
  | .beFrameSend _ p => portOk' p
  | .rateRefill _ => true
  | .qpSample _ q => qpOk q
  | .violationReportReceived _ => true
  | .portEnable p port _ => p.wf && portOk' port
  | .portDisable p port _ => p.wf && portOk' port
  | .portReset p port _ => p.wf && portOk' port
  | .portTrained _ port => portOk' port
  | .portTrainingTimeout _ port => portOk' port
  | .portFaultRetry _ port => portOk' port
  | .linkLoss _ port => portOk' port
  | .uantoOfferTimer _ port => portOk' port
  | .uantoOfferReceived _ port => portOk' port
  | .uantoConfirmReceived _ port => portOk' port
  | .uantoRestartTimeout _ port => portOk' port
  | .uantoSilentTimeout _ port => portOk' port
  | .fecUncorrectable _ port => portOk' port
  | .fecWindowExpire _ port => portOk' port
  | .portFrameReceived _ p f => portOk' p && decide (f.fcs < 3)
  | .pfcReceived _ port => portOk' port
  | .pauseQuantaExpire _ port prio => portOk' port && decide (prio < 8)
  | .xoffRepeat _ port prio => portOk' port && decide (prio < 8)
  | .pauseWatchdog _ port prio => portOk' port && decide (prio < 8)
  | .accessFrameReceived _ port => portOk' port
  | .landedReceived _ port => portOk' port
  | .accelAckTimeout _ port => portOk' port
  | .beFrameForward _ port => portOk' port
  | .baseTableRelease _ => true
  | .telemetrySnapshot _ => true
  | .herdCreate p => p.wf
  | .herdSetShare p => p.wf
  | .herdReset p _ => p.wf
  | .herdDestroy p => p.wf
  | .privGrant p => p.wf
  | .privRevoke p => p.wf
  | .herdResetDrainTimeout _ => true
  | .herdResetComplete _ => true
  | .keyPageAssign p _ => p.wf
  | .keyInstall p _ => p.wf
  | .keyInstallComplete _ p => p.wf
  | .keySwitch p => p.wf
  | .keyPageRelease p => p.wf
  | .keyRetireTimeout _ g => pageOk g
  | .rekeyWalkDone _ g => pageOk g
  | .cipherMismatch _ e _ _ => engineOk e
  | .drbgReseed _ e => engineOk e
  | .entropyTestFail _ _ => true
  | .drbgBlockLimit _ e => engineOk e
  | .fenceComplete _ src => sourceOk src
  | .faultWindowExpire _ src => sourceOk src
  | .quietPeriodExpire _ src => sourceOk src
  | .unitReturnComplete _ src _ => sourceOk src
  | .handlingEnd _ src => sourceOk src
  | .faultSourceClear p => p.wf
  | .faultSourceFence p => p.wf
  | .faultQueuePop p => p.wf
  | .crystalStable _ => true
  | .crystalStartTimeout _ => true
  | .crystalLost _ => true
  | .oscillatorLost _ => true
  | .pllLoss _ k _ => pllOk k
  | .pllLock _ k => pllOk k
  | .pllDomainReturn _ k => pllOk k
  | .domainIdleStop _ d _ => domainOk d
  | .domainDemandStart _ d => domainOk d
  | .throttleEvaluate _ s t v w ps => decide (s < 256) && decide (t < 256) && decide (v < 65536) && decide (w < 65536) && decide (ps.length ≤ 24) && ps.all (fun c => decide (c < 256))
  | .powerOnReset _ => true
  | .warmReset _ => true
  | .resetCmdWarm p _ => p.wf
  | .resetCmdPowerOn p _ => p.wf
  | .sysResetPulse _ _ => true
  | .bootStepAdvance _ w => w.failed.all (fun c => decide (c < 24))
  | .firmwareCopyBlock _ => true
  | .bootStepOverrun _ w => w.failed.all (fun c => decide (c < 24))
  | .serviceLeave p _ => p.wf
  | .configDefaultsRepeat _ _ => true
  | .stageDataAppend p _ => p.wf
  | .stagedFieldWrite p addr _ => p.wf && addrOk addr
  | .commit p => p.wf
  | .discard p => p.wf
  | .stagedSetApply _ => true
  | .fwuBegin p _ => p.wf
  | .fwuWrite p _ _ => p.wf
  | .fwuAbort p => p.wf
  | .fwuPieceWritten _ _ => true
  | .identityKeyReady _ _ => true
  | .quoteGo p _ => p.wf
  | .quoteSigned _ => true
  | .inputLoss _ => true
  | .highInputEvent _ => true
  | .standbyRailLoss _ => true
  | .standbySenseValid _ => true
  | .smbusBlockRead _ s a c => decide (s < 8) && decide (a < 128) && decide (c < 256)
  | .bypass _ _ => true
  | .samplePreload _ _ _ => true
  | .idcode _ => true
  | .extest _ _ _ => true
  | .extestPulse _ _ _ => true
  | .extestTrain _ _ _ => true
  | .pauseWatchdogEnd _ port prio => portOk' port && decide (prio < 8)
  | .entropySourcePass _ => true
  | .domainStartComplete _ d => domainOk d
  | .standbySenseLost _ => true
  | .mirrorRollbackDone _ r => regionOk r

end Sys2Proof
end

