-- ==== Sys2Proof/Tests/Slice0.lean ====
section
/-! SUPPORT. The model's own tests, each about one command on a small state, and for every statement of Certificates/Slice0/Obligations.lean with hypotheses a concrete
state and operands that meet them (`wit_`). Expected values come from the rules that the statement cites. -/
namespace Sys2Proof.Tests
open Sys2Proof Sys2Proof.Machine
set_option Elab.async false

/-- The module after one command. -/
def after (c : Instr) (m : Mach) : Mach :=
  match exec c { pending := [], m := m } with
  | .next t => t.m
  | .fault _ => m
  | .refused _ => m

/-- The module with bytes in its Peat from an address up. -/
def withPeat (m : Mach) (a : Nat) (d : List Byte) : Mach := { m with peat := memWrite m.peat a d }

/-! ## Polder time -/

/-- A root with SLU_TIME_SET at its last value. -/
def mRoot : Mach := (Mach.reset.set F.SLU_TIME_STATUS_STATE 5).set64 F.SLU_TIME_SET_LO (2 ^ 64 - 1)
theorem wit_timeSet : mRoot.Inv ∧ mRoot.Steward .mgmt 0x00300408 ∧ mRoot.tState = tRoot ∧ mRoot.planBound = false := by decide +kernel
theorem test_timeSet : (after (.timeSet .mgmt) mRoot).polder = 0xFFFFFFFFFFFFFFFF := by decide +kernel
theorem wit_timeCapture : mRoot.Inv ∧ mRoot.Steward (.fabric 0) 0x00300408 := by decide +kernel
theorem test_timeCapture : (after (.timeCapture .mgmt) (mRoot.putPolder 0x123456789A)).get64 F.SLU_CAPTURE_LO = 0x123456789A := by decide +kernel
theorem wit_ppsInEdge : mRoot.Inv ∧ true ≠ mRoot.bit F.SLU_TIME_CTL_PPS_IN_EDGE := by decide +kernel
theorem test_ppsInEdge : (after (.ppsInEdge 77 true) mRoot).get64 F.SLU_PPS_CAP_LO = 77 := by decide +kernel
def mAnchored : Mach := mRoot.set F.SLU_TIME_STATUS_ANCHORED 1
theorem wit_ppsAnchorTimeout : mAnchored.Inv ∧ mAnchored.tState = tRoot ∧ mAnchored.bit F.SLU_TIME_STATUS_ANCHORED = true ∧
    mAnchored.tm.lastEdge + 1500 * ms ≤ (mAnchored.advance (1500 * ms)).now := by decide +kernel
theorem test_ppsAnchorTimeout : ((after (.ppsAnchorTimeout (1500 * ms)) mAnchored).evq.map (·.code)) = [0x0205] := by decide +kernel
def mPps : Mach := mRoot.set F.SLU_TIME_CTL_PPS_OUT_EN 1
theorem wit_ppsOutSecond : mPps.Inv ∧ (mPps.advance secondUnits).polder.toNat / secondUnits ≠ mPps.tm.ppsSecond ∧ mPps.tState = tRoot ∧
    mPps.bit F.SLU_TIME_CTL_PPS_OUT_EN = true := by decide +kernel
theorem test_ppsOutSecond : (after (.ppsOutSecond secondUnits) mPps).tm.ppsOut = true ∧ (after (.ppsOutSecond (secondUnits - 1)) mPps).tm.ppsOut = false := by
  decide +kernel
def mPpsHigh : Mach := mRoot.putTm { mRoot.tm with ppsOut := true }
theorem wit_ppsOutFall : mPpsHigh.Inv ∧ mPpsHigh.tm.ppsOut = true ∧ mPpsHigh.tm.ppsRise + 100 * ms ≤ (mPpsHigh.advance (100 * ms)).now := by decide +kernel
theorem test_ppsOutFall : (after (.ppsOutFall (100 * ms)) mPpsHigh).tm.ppsOut = false ∧ (after (.ppsOutFall (100 * ms - 1)) mPpsHigh).tm.ppsOut = true := by
  decide +kernel
/-- A root with two FABRIC ports UP. -/
def mTwoUp : Mach := (((mRoot.set F.PORT_STATUS_STATE 3 0).set F.PORT_STATUS_STATE 3 31).set F.PORT_ROLE_ROLE 1 0).set F.PORT_ROLE_ROLE 1 31
theorem wit_timeFrameTimer : mTwoUp.Inv ∧ mTwoUp.active = none ∧ mTwoUp.tState ≠ tFree ∧ mTwoUp.tm.nextFrame ≤ (mTwoUp.advance 0).now := by decide +kernel
theorem test_timeFrameTimer : (after (.timeFrameTimer 0) mTwoUp).sent.length = 2 ∧ (after (.timeFrameTimer 0) mTwoUp).tm.nextFrame = 22282240 := by decide +kernel
def tfr : TimeFrame :=
  { root := true, anchored := false, holdover := false, stopped := false, stepped := false, twoWay := false, depth := 3, rootId := 9, seq := 1,
    txPrev := 0, rxLast := 0, txPrevFrac := 0, rxLastFrac := 0, errPs := 100, rxSeq := 0 }
/-- A LOCKED follower whose tree names port 5 as the link to its parent. -/
def mLocked : Mach :=
  (((Mach.reset.set F.SLU_TIME_STATUS_STATE 2).set F.PORT_STATUS_STATE 3 5).set F.SLU_LINK_DELAY_VALID 1 5).putTm
    { Mach.reset.tm with
      tree := some { role := 0, hasBackup := false, primaryPort := 5, primaryModule := 1, backupPort := 0, depth := 1, backupModule := 0, backupDepth := 0,
                     primarySlots := [], backupSlots := [] }
      parent0 := { Mach.reset.tm.parent0 with valid := true } }
theorem wit_timeFrameReceived : mLocked.Inv ∧ mLocked.portUp 5 = true ∧ mLocked.tree.isSome = true ∧ mLocked.parentPort 0 = some 5 ∧
    mLocked.bit F.SLU_LINK_DELAY_VALID 5 = true ∧ mLocked.tState = tLocked ∧ mLocked.followed = 0 := by decide +kernel
theorem test_timeFrameReceived : (after (.timeFrameReceived 10 5 0 tfr) mLocked).errShown = 125 ∧
    (after (.timeFrameReceived 10 5 0 tfr) mLocked).get F.SLU_TIME_STATUS_DEPTH = 4 := by decide +kernel
theorem wit_parentLostTimeout : mLocked.Inv ∧ (mLocked.parent 0).valid = true ∧
    (mLocked.advance 66862720).thirdDue 0 = some 66846720 ∧ reached (mLocked.advance 66862720).polder (66846720 + BitVec.ofNat 64 us) = true := by decide +kernel
theorem test_parentLostTimeout : (after (.parentLostTimeout 66862720 false) mLocked).tState = tHoldover ∧
    (after (.parentLostTimeout 66862719 false) mLocked).tState = tLocked := by decide +kernel
def mOver : Mach := mLocked.putTm { mLocked.tm with errBase := 1201 * errDen }
theorem wit_holdLimitExceeded : mOver.Inv ∧ mOver.active = none ∧ mOver.tState = tLocked ∧ (mOver.advance 0).errOverLimit = true := by decide +kernel
theorem test_holdLimitExceeded : (after (.holdLimitExceeded 0) mOver).tState = tStopped ∧ ((after (.holdLimitExceeded 0) mOver).evq.map (·.code)) = [0x0010, 0x0204] := by
  decide +kernel
def mExchange : Mach := mLocked.setLtime 5 { mLocked.ltime 5 with measuring := true, began := some 0 }
theorem wit_delayExchangeTimeout : mExchange.Inv ∧ (mExchange.ltime 5).measuring = true ∧ (mExchange.ltime 5).began = some 0 ∧
    0 + 10 * us ≤ (mExchange.advance (10 * us)).now := by decide +kernel
theorem test_delayExchangeTimeout : ((after (.delayExchangeTimeout (10 * us) 5) mExchange).ltime 5).discarded = 1 := by decide +kernel

/-! ## Plans -/

/-- A plan of four slots that says nothing: tides of four slots from polder time 0. -/
def pl0 : Plan :=
  { module := 0, modules := 2, planId := 7, tideBase := 0, tideLen := 4, maxFlight := 1000, slackPeriod := 0, slackPhase := 0, grandMaster := 0, standbyGm := 0,
    stagedOk := false, ppsAnchor := false, epoch := 1, capReq := [], links := [], slots := [], lodesOut := [], lodesIn := [], resvs := [], tree := [], groups := [],
    progs := [], routes := [], proof := [] }
def bankOf (p : Plan) : Bank := { image := [], plan := some p, stopAt := none, unload := false }
/-- A module with a plan in bank 0 and the bank in a state. -/
def mBank (p : Plan) (st : Nat) : Mach := (Mach.reset.putPlan { Mach.reset.plan with bank0 := bankOf p }).set F.SLU_BANK_STATUS_BANK0 st
def mRegion : Mach := withPeat (Mach.reset.set64 F.SLU_PLAN_REGION_LO 0x1000) 0x1008 [3]
theorem wit_planLoad : mRegion.Inv ∧ mRegion.Steward .mgmt 0x00300008 ∧ mRegion.bankState 1 = 0 ∧ mRegion.get64 F.SLU_PLAN_REGION_LO ≠ 2 ^ 64 - 1 ∧
    mRegion.get F.CLK_BOOT_STEP ≠ 9 := by decide +kernel
theorem test_planLoad : (after (.planLoad .mgmt 0) mRegion).bankState 0 = 1 ∧ ((after (.planLoad .mgmt 0) mRegion).bank 0).image = [0, 0, 0] := by decide +kernel
def mServe : Mach := (mRegion.set F.CLK_BOOT_STEP 9).set F.CFG_STATUS_DEFAULTS 0
theorem wit_planLoad_service : mServe.Inv ∧ mServe.Steward .mgmt 0x00300008 ∧ mServe.get F.CLK_BOOT_STEP = 9 ∧ mServe.bit F.CFG_STATUS_DEFAULTS = false ∧
    (∀ q, q < 32 → mServe.get F.PORT_STATUS_STATE q ≠ 3) ∧ (∀ q, q < 32 → (mServe.pt q).retrain = false) := by decide +kernel
theorem test_planLoad_service : (after (.planLoad .mgmt 0) mServe).get F.CLK_BOOT_STEP = 10 := by decide +kernel
def mArm : Mach := (mBank { pl0 with tideBase := 1600000 } 3).set F.SLU_TIME_STATUS_STATE 2
theorem wit_planArm : mArm.Inv ∧ mArm.Steward .mgmt 0x00300008 ∧ mArm.bankState 0 = 3 ∧ (mArm.bank 0).plan = some { pl0 with tideBase := 1600000 } ∧
    mArm.tState = tLocked ∧ mArm.bankState (1 - 0) ≠ 6 ∧ mArm.active = none ∧
    (100 * us : Nat) ≤ timeDiff (BitVec.ofNat 64 1600000) mArm.polder := by decide +kernel
theorem test_planArm : (after (.planArm .mgmt 0) mArm).bankState 0 = 4 ∧
    (after (.planArm .mgmt 0) (mArm.putPolder 1)).bit F.SLU_BANK_STATUS_ARM_REFUSED = true := by decide +kernel
def mArm2 : Mach := (((mBank { pl0 with tideBase := 21760, epoch := 0 } 3).set F.SLU_BANK_STATUS_BANK1 5).putPlan
  { (mBank { pl0 with tideBase := 21760, epoch := 0 } 3).plan with bank1 := bankOf pl0 }).set F.SLU_TIME_STATUS_STATE 5
theorem wit_planArm_active : mArm2.Inv ∧ mArm2.Steward .mgmt 0x00300008 ∧ mArm2.bankState 0 = 3 ∧ mArm2.bankState 1 ≠ 6 ∧ mArm2.tState = tRoot ∧
    mArm2.active = some (1, pl0) ∧ (pl0.tideUnits : Nat) ≤ timeDiff (BitVec.ofNat 64 21760) mArm2.polder ∧
    timeDiff (BitVec.ofNat 64 21760) (BitVec.ofNat 64 pl0.tideBase) % (pl0.tideUnits : Nat) = 0 := by decide +kernel
theorem wit_planArm_refused : (mBank pl0 3).Inv ∧ (mBank pl0 3).Steward .mgmt 0x00300008 ∧ (mBank pl0 3).bankState 0 = 3 ∧
    ¬ ((mBank pl0 3).tState = tLocked ∨ (mBank pl0 3).tState = tRoot) := by decide +kernel
theorem test_planArm_refused : (after (.planArm .mgmt 0) (mBank pl0 3)).bit F.SLU_BANK_STATUS_ARM_REFUSED = true := by decide +kernel
theorem wit_planClear : (mBank pl0 4).Inv ∧ (mBank pl0 4).Steward .mgmt 0x00300008 ∧ (mBank pl0 4).bankState 0 = 4 := by decide +kernel
theorem test_planClear : (after (.planClear .mgmt 0) (mBank pl0 4)).bankState 0 = 0 ∧ ((after (.planClear .mgmt 0) (mBank pl0 4)).bank 0).plan = none := by decide +kernel
theorem wit_planUnload : (mBank pl0 5).Inv ∧ (mBank pl0 5).Steward .mgmt 0x00300008 ∧ (mBank pl0 5).bankState 0 = 5 ∧ ((mBank pl0 5).bank 0).plan = some pl0 := by
  decide +kernel
theorem test_planUnload : (after (.planUnload .mgmt 0) (mBank pl0 5)).bankState 0 = 6 ∧
    ((after (.planUnload .mgmt 0) (mBank pl0 5)).bank 0).stopAt = some 10880 := by decide +kernel
theorem wit_planDropped : Mach.reset.Inv ∧ Mach.reset.Steward .mgmt 0x00300008 ∧ Mach.reset.bankState 1 ≠ 3 ∧ Mach.reset.bankState 1 < 2 ∧ Mach.reset.bankState 1 ≠ 5 ∧
    (mBank pl0 5).bankState 0 ≠ 0 ∧ (mBank pl0 5).bankState 0 ≠ 2 := by decide +kernel
theorem test_planDropped : (after (.planLoad .mgmt 0) (mBank pl0 5)).bit F.SLU_BANK_STATUS_CMD_DROPPED = true := by decide +kernel
def mCheck : Mach := Mach.reset.set F.SLU_BANK_STATUS_BANK1 1
theorem wit_planCheckComplete : mCheck.Inv ∧ mCheck.Running ∧ mCheck.bankState 1 = 1 ∧ (∀ q, q < 32 → mCheck.retraining q = false) := by decide +kernel
theorem test_planCheckComplete : (after (.planCheckComplete 0 1) mCheck).bankState 1 = 2 ∧ (after (.planCheckComplete 0 1) mCheck).get F.SLU_REFUSE_CODE_CODE = 1 := by
  decide +kernel
theorem wit_planActivate : (mBank pl0 4).Inv ∧ (mBank pl0 4).Running ∧ (mBank pl0 4).bankIn 4 = some (0, pl0) ∧
    reached ((mBank pl0 4).advance 0).polder (BitVec.ofNat 64 pl0.tideBase) = true ∧ (mBank pl0 4).lode.tx = [] ∧ (mBank pl0 4).lode.rx = [] ∧
    (mBank pl0 4).coll.groups = [] ∧ pl0.isSlack 0 = false := by decide +kernel
theorem test_planActivate : (after (.planActivate 0) (mBank pl0 4)).bankState 0 = 5 ∧ (after (.planActivate 0) (mBank pl0 4)).get F.SLU_MAX_FLIGHT = 1000 := by decide +kernel
theorem wit_tideBoundary : (mBank pl0 5).Inv ∧ (mBank pl0 5).Running ∧ (mBank pl0 5).active = some (0, pl0) ∧
    pl0.tideAt ((mBank pl0 5).advance 10880).polder = some 1 ∧ (mBank pl0 5).plan.tideNo < 1 := by decide +kernel
theorem test_tideBoundary : (after (.tideBoundary 10880) (mBank pl0 5)).plan.tideNo = 1 ∧ (after (.tideBoundary 10879) (mBank pl0 5)).plan.tideNo = 0 := by decide +kernel
def mRetire : Mach := (Mach.reset.putPlan { Mach.reset.plan with bank0 := { bankOf pl0 with stopAt := some 0 } }).set F.SLU_BANK_STATUS_BANK0 6
theorem wit_planRetire : mRetire.Inv ∧ mRetire.Running ∧ mRetire.retiring = some (0, pl0) ∧ (mRetire.bank 0).stopAt = some 0 ∧ (mRetire.bank 0).unload = false ∧
    reached (mRetire.advance 1000).polder (0 + BitVec.ofNat 64 pl0.maxFlight) = true ∧ mRetire.rte.held = [] := by decide +kernel
theorem test_planRetire : (after (.planRetire 1000) mRetire).bankState 0 = 0 ∧ (after (.planRetire 999) mRetire).bankState 0 = 6 := by decide +kernel
/-- Slot 1 of port 2 is that of lode 9. -/
def lo9 : LodeOut :=
  { lode := 9, herd := 1, covered := false, encrypted := false, coll := false, dstModule := 3, hops := 1, shadowHops := 0, dstLode := 4, port := 2, shadowPort := 0, slots := 1,
    keyPage := 0, latency := 7000, shadowLatency := 0, slotList := [1], shadowList := [], path := [], shadowPath := [] }
def lk2 : LinkRec := { port := 2, peerPort := 0, peerModule := 3, cable := 10, pad := 0, phase := 0, peerPhase := 0 }
def plSlot : Plan := { pl0 with slots := [{ port := 2, slot := 1, kind := 1, ref := 9 }, { port := 2, slot := 2, kind := 4, ref := 0 }], lodesOut := [lo9], links := [lk2] }
def lf9 : LodeFrame :=
  { first := true, last := true, flag := false, atomic := false, resync := false, dstLode := 4, seq := 0, frameIdx := 0, msgLen := 1, window := 0, woffset := 0,
    payload := [1], cipher := none }
def acc9 : AccFrame := { epoch := 1, slot := 1, shadowSlot := none, sent := false, shadowSent := true, frame := lf9 }
def mSlot : Mach := ((mBank plSlot 5).set F.PORT_STATUS_STATE 3 2).set F.SLU_TIME_STATUS_STATE 5 |>.setLtx 9 { freshTx with frames := [acc9] }
theorem wit_slotOpen : mSlot.Inv ∧ mSlot.Running ∧ (mSlot.advance 2720).slotNow 2 = some (plSlot, 1) ∧
    mSlot.plan.opened.contains (2, plSlot.opening 2 1) = false ∧ plSlot.kindIn 2 1 = (1, 9) ∧ plSlot.out 9 = some lo9 ∧ lo9.coll = false ∧
    (mSlot.ltx 9).frames.find? (fun x => x.epoch == plSlot.epoch && (x.slot == 1 && !x.sent)) = some acc9 ∧ mSlot.schedUp 2 = true ∧
    mSlot.portCiphers 2 lo9.encrypted = true ∧ mSlot.ciph.frames = [] := by decide +kernel
theorem test_slotOpen : (after (.slotOpen 2720 2) mSlot).sent = [.sched 2 { epoch := 1, dstModule := 3, tailOk := true, shadow := false, body := .lode lf9 }] ∧
    (after (.slotOpen 2719 2) mSlot).sent = [] := by decide +kernel
theorem wit_slotOpen_time : (mSlot.advance 5440).slotNow 2 = some (plSlot, 2) ∧ mSlot.plan.opened.contains (2, plSlot.opening 2 2) = false ∧
    plSlot.kindIn 2 2 = (4, 0) ∧ mSlot.tState ≠ tFree ∧ mSlot.get F.PORT_STATUS_STATE 2 = 3 := by decide +kernel
/-- The slot of port 2 plans domain 36, its port group; the domain stands still. -/
def mWake : Mach := (mBank plSlot 5).set F.CLK_DOM_STATUS_RUNNING 0 0 36
theorem wit_plannedWake : mWake.Inv ∧ mWake.Running ∧ (mWake.advance 0).plannedGap 36 = some 2720 ∧ 2720 ≤ 2 * us ∧ mWake.bit F.CLK_DOM_STATUS_RUNNING 0 36 = false ∧
    alGet mWake.clk.starting 36 = none := by decide +kernel
theorem test_plannedWake : alGet (after (.plannedWake 0 36) mWake).clk.starting 36 = some 0 := by decide +kernel
def mStop : Mach := ((mBank { plSlot with tideLen := 20 } 5).set F.SLU_WAKE_CTL_PLAN_WAKE 1).set F.SLU_WAKE_CTL_MIN_IDLE 2 |>.set F.CLK_DOM_STATUS_RUNNING 1 0 36
theorem wit_plannedDomainStop : mStop.Inv ∧ mStop.Running ∧ (mStop.advance 8160).plannedGap 36 = some 48960 ∧
    mStop.inForce F.SLU_WAKE_CTL_MIN_IDLE * us ≤ 48960 ∧ mStop.active.isSome = true ∧ mStop.inForce F.SLU_WAKE_CTL_PLAN_WAKE = 1 ∧
    mStop.bit F.CLK_DOM_STATUS_RUNNING 0 36 = true ∧ alGet mStop.clk.starting 36 = none ∧ mStop.domainBusy 36 = false := by decide +kernel
theorem test_plannedDomainStop : (after (.plannedDomainStop 8160 36) mStop).bit F.CLK_DOM_STATUS_RUNNING 0 36 = false := by decide +kernel

/-! ## Lodes -/

/-- SQ 3 of herd 1 holds one accepted descriptor of the words given, and the address space of its ASID 0 is enabled. -/
def withDesc (m : Mach) (words : List Nat) : Mach :=
  (((m.set F.QE_SQ_CFG_ENABLE 1 0 3).set F.QE_SQ_CFG_HERD 1 0 3).set F.XLT_AS_CFG_ENABLE 1 0 (Mach.asSel 1 0)).setSq 3
    { fetched := [{ index := 7, words := words }], out := [], reading := none, refetchAt := none, claims := [], wait := none, paused := false, flush := [] }
def dsc (words : List Nat) : Desc := { index := 7, words := words }
/-- A flag-only LODE_WRITE to lode 9, tag 0xABCD, and a LODE_ATOMIC ADD of 5. -/
def dFlag : List Nat := [0xABCD00010101, 9, 0, 0, 0, 2, 8, 99]
def dAtomic : List Nat := [0xABCD00000201, 9, 1, 2, 16, 5, 0, 0]
def mPlan : Mach := mBank plSlot 5
theorem wit_lodeAbsent : (withDesc Mach.reset dFlag).Inv ∧ ((withDesc Mach.reset dFlag).advance 32).Dispatches 3 (dsc dFlag) false ∧
    (withDesc Mach.reset dFlag).outRec (dsc dFlag).target = none ∧ (dsc dFlag).opcode = 1 := by decide +kernel
theorem wit_lodeAbsent_atomic : (withDesc Mach.reset dAtomic).Inv ∧ ((withDesc Mach.reset dAtomic).advance 32).Dispatches 3 (dsc dAtomic) false ∧
    (withDesc Mach.reset dAtomic).outRec (dsc dAtomic).target = none ∧ (dsc dAtomic).opcode = 2 := by decide +kernel
theorem wit_lodeWrite : (withDesc mPlan dFlag).Inv ∧ ((withDesc mPlan dFlag).advance 32).Dispatches 3 (dsc dFlag) (lo9.herd != (withDesc mPlan dFlag).sqHerd 3) ∧
    (dsc dFlag).opcode = 1 ∧ (withDesc mPlan dFlag).outRec (dsc dFlag).target = some lo9 ∧
    lodeBytes (dsc dFlag).length (dsc dFlag).flag false ≤ lo9.slots * frameMax := by decide +kernel
theorem test_lodeWrite : ((after (.lodeWrite 32 3) (withDesc mPlan dFlag)).ltx 9).queue.map (fun g => (g.len, g.flag)) = [(0, some (2, 8, 99))] ∧
    ((after (.lodeWrite 31 3) (withDesc mPlan dFlag)).ltx 9).queue = [] := by decide +kernel
theorem wit_lodeAtomic : (withDesc mPlan dAtomic).Inv ∧
    ((withDesc mPlan dAtomic).advance 32).Dispatches 3 (dsc dAtomic) (lo9.herd != (withDesc mPlan dAtomic).sqHerd 3) ∧ (dsc dAtomic).opcode = 2 ∧
    (withDesc mPlan dAtomic).outRec (dsc dAtomic).target = some lo9 ∧ 16 ≤ lo9.slots * frameMax := by decide +kernel
theorem test_lodeAtomic : ((after (.lodeAtomic 32 3) (withDesc mPlan dAtomic)).ltx 9).queue.map (fun g => (g.woffset, g.atomic)) = [(16, some (1, 5))] := by decide +kernel
def msg9 : LodeMsg :=
  { sq := 3, uid := 4, segs := [], len := 0, window := 2, woffset := 0, flag := some (2, 8, 99), atomic := none, resync := false, done := 0, firstSeq := 0 }
def mAccept : Mach := mPlan.setLtx 9 { freshTx with queue := [msg9], seq := 0xFFFFFFFF }
theorem wit_lodeFrameAccept : mAccept.Inv ∧ mAccept.Running ∧ mAccept.plan? = some plSlot ∧ mAccept.outRec 9 = some lo9 ∧ (mAccept.ltx 9).queue = [msg9] ∧
    (mAccept.advance 0).nextSlot plSlot lo9 none = some (1, none) := by decide +kernel
theorem test_lodeFrameAccept : ((after (.lodeFrameAccept 0 9) mAccept).ltx 9).seq = 0 ∧
    ((after (.lodeFrameAccept 0 9) mAccept).ltx 9).frames.map (fun a => (a.slot, a.frame.payload)) =
      [(1, [2, 0, 0, 0, 0, 0, 0, 0, 8, 0, 0, 0, 0, 0, 0, 0, 99, 0, 0, 0, 0, 0, 0, 0])] := by decide +kernel
def aw9 : Awaited := { sq := 3, uid := 4, bytes := 77, window := 2, firstSeq := 5, lastSeq := 6, deadline := 1000, lease := 16000000 }
/-- A descriptor of SQ 3 whose message awaits its receipt; port 2, the lode's only path, is not UP. -/
def mAwait : Mach := ((withDesc mPlan dFlag).setLtx 9 { freshTx with awaited := [aw9] }).setSq 3
  { fetched := [], out := [{ uid := 4, index := 1, tag := 2, opcode := 1, comp := none }], reading := none, refetchAt := none, claims := [], wait := none,
    paused := false, flush := [] }
theorem wit_lodeDeadlineTimeout : mAwait.Inv ∧ mAwait.Running ∧ mAwait.outRec 9 = some lo9 ∧ (mAwait.ltx 9).awaited = [aw9] ∧ mAwait.lodeHasPath lo9 = false ∧
    reached (mAwait.advance 1000).polder aw9.deadline = true := by decide +kernel
theorem test_lodeDeadlineTimeout : ((after (.lodeDeadlineTimeout 1000 9) mAwait).sq 3).out.map (fun o => o.comp) =
      [some { status := 0x30, bytes := 77, deadline := true, time := 1000, detail := 0 }] ∧
    ((after (.lodeDeadlineTimeout 999 9) mAwait).ltx 9).awaited = [aw9] := by decide +kernel
theorem wit_receiptTimeout : mAwait.Inv ∧ mAwait.Running ∧ (mAwait.ltx 9).awaited = [aw9] ∧
    reached (mAwait.advance 16001000).polder (aw9.deadline + BitVec.ofNat 64 aw9.lease) = true := by decide +kernel
theorem test_receiptTimeout : ((after (.receiptTimeout 16001000 9) mAwait).ltx 9).awaited = [] ∧ ((after (.receiptTimeout 16000999 9) mAwait).ltx 9).awaited = [aw9] := by
  decide +kernel
/-- A receipt of outcome DONE for SEQs 5 to 6 of lode 9. -/
def rcpt : CtlMsg := { src := 3, bytes := leBytes 32 0x31 ++ leBytes 4 1 ++ leBytes 4 9 ++ leBytes 4 5 ++ leBytes 4 6 }
def mReceipt : Mach := mAwait.putBeq { mAwait.beq with ctl := [rcpt] }
theorem wit_receiptReceived : mReceipt.Inv ∧ mReceipt.Running ∧ mReceipt.beq.ctl.find? (fun c => leAt c.bytes 0 1 / 16 == 3) = some rcpt ∧
    leAt (rcpt.bytes.drop 32) 1 1 = stDone ∧ leAt (rcpt.bytes.drop 32) 4 4 = 9 ∧
    (mReceipt.ltx 9).awaited.filter (fun w => seqLe (leAt (rcpt.bytes.drop 32) 8 4) w.firstSeq && seqLe w.lastSeq (leAt (rcpt.bytes.drop 32) 12 4)) = [aw9] := by
  decide +kernel
theorem test_receiptReceived : ((after (.receiptReceived 5) mReceipt).sq 3).out.map (fun o => o.comp) =
    [some { status := 0x00, bytes := 77, deadline := true, time := 1000, detail := 0 }] := by decide +kernel
def li4 : LodeIn := { lode := 4, srcModule := 3, covered := false, encrypted := false, srcLode := 8, herd := 1, keyPage := 0 }
def mIn (x : LodeRx) : Mach := (mBank { pl0 with lodesIn := [li4] } 5).setLrx 4 x
def inHere (f : LodeFrame) (m : Mach) : Mach :=
  m.putLode { m.lode with here := [{ port := 0, at' := 0, frame := { epoch := 1, dstModule := 0, tailOk := true, shadow := false, body := .lode f } }] }
def rm4 : RxMsg :=
  { first := 8, last := none, len := 32, arrival := 1, window := 2, base := 0, herd := 1, asid := 0, segs := [{ target := 0, port := 0, addr := 0x1000, va := 0, len := 16385 }],
    flag := none, atomic := none, fail := none, resolved := false, done := false, reported := false, rxDone := false, when' := 0, since := 0 }
/-- The second and last frame of a message of 16,385 bytes. -/
def lf2 : LodeFrame :=
  { first := false, last := true, flag := false, atomic := false, resync := false, dstLode := 4, seq := 9, frameIdx := 1, msgLen := 16385, window := 2, woffset := 16384,
    payload := [0x5A], cipher := none }
def rxHalf : LodeRx := { freshRx with lowest := 8, placed := [8], msgs := [rm4] }
def mLast : Mach := inHere lf2 (mIn rxHalf)
def mUnknown : Mach := inHere lf9 (mBank pl0 5)
def mDup : Mach := inHere { lf2 with seq := 7 } (mIn rxHalf)
theorem wit_lodeFrame_unknown : mUnknown.Inv ∧ mUnknown.Running ∧ (mUnknown.advance 0).takeHere.isSome = true ∧ mUnknown.inRec lf9.dstLode = none := by decide +kernel
theorem test_lodeFrame_unknown : (after (.lodeFrameReceived 0) mUnknown).get F.SLU_LODE_UNKNOWN = 1 ∧ (after (.lodeFrameReceived 0) mUnknown).lode.here = [] := by decide +kernel
theorem wit_lodeFrame_dup : mDup.Inv ∧ mDup.Running ∧ ((mDup.advance 0).takeHere.map (fun x => (x.1, x.2.1))) = some ({ lf2 with seq := 7 }, false) ∧
    mDup.inRec 4 = some li4 ∧ seqLe (mDup.lrx 4).lowest 7 = false := by decide +kernel
theorem wit_lodeFrame_last : mLast.Inv ∧ mLast.Running ∧ ((mLast.advance 0).takeHere.map (fun x => (x.1, x.2.1))) = some (lf2, false) ∧ mLast.inRec 4 = some li4 ∧
    (mLast.lrx 4).msgs = [rm4] ∧ rm4.first = lf2.seq - 1 ∧ (mLast.lrx 4).lowest = rm4.first ∧ rm4.first ∈ (mLast.lrx 4).placed ∧
    lf2.seq ∉ (mLast.lrx 4).placed ∧ (mLast.lrx 4).top.2 = none := by decide +kernel
theorem test_lodeFrame_last : ((after (.lodeFrameReceived 0) mLast).lrx 4).lowest = 10 ∧ memGet (after (.lodeFrameReceived 0) mLast).peat 0x5000 = 0x5A := by decide +kernel
theorem wit_lodeLeaseLoss : (mIn rxHalf).Inv ∧ (mIn rxHalf).Running ∧ (mIn rxHalf).inRec 4 = some li4 ∧
    ((mIn rxHalf).lrx 4).lastArrival + (mIn rxHalf).leaseAt ((mIn rxHalf).lrx 4).lastArrival ≤ ((mIn rxHalf).advance 16000000000).now ∧
    rm4 ∈ ((mIn rxHalf).lrx 4).msgs ∧ (((mIn rxHalf).lrx 4).lowest + 1) % 2 ^ 32 ∉ ((mIn rxHalf).lrx 4).placed ∧
    (((mIn rxHalf).lrx 4).lowest + 1) % 2 ^ 32 ∉ ((mIn rxHalf).lrx 4).lost := by decide +kernel
theorem test_lodeLeaseLoss : ((after (.lodeLeaseLoss 16000000000 4) (mIn rxHalf)).lrx 4).broken = some (0x80, 8) := by decide +kernel
def mHeld : Mach := mIn { rxHalf with held := [lf2], placed := [9, 8] }
theorem wit_heldFrameRelease : mHeld.Inv ∧ mHeld.Running ∧
    (mHeld.lrx 4).held.find? (fun f => Mach.rxTurn (mHeld.lrx 4) ((f.seq + 2 ^ 32 - f.frameIdx) % 2 ^ 32)) = some lf2 ∧
    Mach.rxFind (mHeld.lrx 4) ((lf2.seq + 2 ^ 32 - lf2.frameIdx) % 2 ^ 32) = some rm4 := by decide +kernel
theorem test_heldFrameRelease : ((after (.heldFrameRelease 0 4) mHeld).lrx 4).held = [] ∧ memGet (after (.heldFrameRelease 0 4) mHeld).peat 0x5000 = 0x5A := by decide +kernel
def sg8 : Seg := { target := 0, port := 0, addr := 0x2000, va := 0, len := 8 }
def rmFlag : RxMsg := { rm4 with last := some 8, resolved := true, flag := some ([sg8], 0x1122, 1, 0) }
def mFlag : Mach := mIn { freshRx with lowest := 9, msgs := [rmFlag] }
theorem wit_lodeFlagWrite : mFlag.Inv ∧ mFlag.Running ∧ mFlag.flagReady 4 = some rmFlag ∧ mFlag.bit F.XLT_AS_CFG_DIRTY_EN 0 (Mach.asSel 1 0) = false := by decide +kernel
theorem test_lodeFlagWrite : (after (.lodeFlagWrite 0 4) mFlag).rdBytes .peat 0x2000 8 = [0x22, 0x11, 0, 0, 0, 0, 0, 0] := by decide +kernel
def rmAtomic : RxMsg := { rm4 with last := some 8, resolved := true, atomic := some (0x3000, 1, 0xFFFFFFFFFFFFFFFF), segs := [{ sg8 with addr := 0x3000 }] }
def mAtomic : Mach := withPeat (mIn { freshRx with lowest := 9, msgs := [rmAtomic] }) 0x3000 [5]
theorem wit_lodeAtomicPerform : mAtomic.Inv ∧ mAtomic.Running ∧ mAtomic.flagReady 4 = some rmAtomic ∧
    mAtomic.bit F.XLT_AS_CFG_DIRTY_EN 0 (Mach.asSel rmAtomic.herd rmAtomic.asid) = false := by decide +kernel
theorem test_lodeAtomicPerform : (after (.lodeAtomicPerform 0 4) mAtomic).rdBytes .peat 0x3000 8 = [4, 0, 0, 0, 0, 0, 0, 0] := by decide +kernel
def rmDone : RxMsg := { rm4 with last := some 9, resolved := true, done := true }
def mReport : Mach := mIn { freshRx with lowest := 10, msgs := [rmDone] }
theorem wit_receiptSend : mReport.Inv ∧ mReport.Running ∧ mReport.inRec 4 = some li4 ∧ (mReport.lrx 4).msgs.filter (fun g => !g.reported) = [rmDone] ∧
    mReport.reportable 4 rmDone = true ∧ rmDone.since + us ≤ (mReport.advance 16000).now ∧ (mReport.lrx 4).msgs.find? (fun g => !g.reported) = some rmDone := by decide +kernel
theorem test_receiptSend : ((after (.receiptSend 0 4) mReport).qp (ctlQp 3)).msgs.map (fun x => x.data.drop 32) =
    [[1, 0, 0, 0, 8, 0, 0, 0, 8, 0, 0, 0, 9, 0, 0, 0]] := by decide +kernel
theorem test_receiptTimer : ((after (.receiptTimer 16000 4) mReport).lrx 4).msgs = [] ∧ ((after (.receiptTimer 15999 4) mReport).lrx 4).msgs = [rmDone] := by decide +kernel
def mBound : Mach := (mReport.set F.QE_RX_BIND_ENABLE 1 0 4).set F.QE_RX_BIND_CQ 5 0 4
theorem wit_rxCompletionWrite : mBound.Inv ∧ mBound.Running ∧ (mBound.lrx 4).msgs.find? (fun g => !g.rxDone) = some rmDone ∧ mBound.reportable 4 rmDone = true ∧
    mBound.bit F.QE_RX_BIND_ENABLE 0 4 = true ∧ mBound.bit F.QE_CQ_CFG_ENABLE 0 (mBound.get F.QE_RX_BIND_CQ 0 4) = false := by decide +kernel
theorem test_rxCompletionWrite : (after (.rxCompletionWrite 0 4) mBound).get F.QE_CQ_DROP 0 5 = 1 := by decide +kernel
def mPort6 : Mach := (mBank { pl0 with links := [{ lk2 with port := 6, pad := 40 }] } 5).set F.PORT_STATUS_STATE 3 6
def sf (dst : Nat) : SchedFrame := { epoch := 1, dstModule := dst, tailOk := true, shadow := false, body := .lode lf9 }
theorem wit_schedFrameReceived : mPort6.Inv ∧ mPort6.Running ∧ mPort6.get F.PORT_STATUS_STATE 6 = 3 := by decide +kernel
theorem test_schedFrameReceived : (after (.schedFrameReceived 10 6 (sf 0)) mPort6).lode.pads.map (·.at') = [50] := by decide +kernel
def mPad (e dst : Nat) : Mach :=
  let m := mBank pl0 5
  m.putLode { m.lode with pads := [{ port := 6, at' := 50, frame := { sf dst with epoch := e } }] }
theorem wit_schedFrameRoute : (mPad 1 0).Inv ∧ (mPad 1 0).Running ∧
    (mPad 1 0).lode.pads.find? (fun x => x.port == 6 && decide (x.at' ≤ ((mPad 1 0).advance 50).now)) = some { port := 6, at' := 50, frame := sf 0 } ∧
    (mPad 1 0).livePlans.find? (fun pl => pl.epoch == 1) = some pl0 ∧ (mPad 1 0).self = 0 := by decide +kernel
theorem test_schedFrameRoute : ((after (.schedFrameRoute 50 6) (mPad 1 0)).lode.here.length, (after (.schedFrameRoute 50 6) (mPad 1 2)).get F.RTE_SCHED_DROP,
    (after (.schedFrameRoute 50 6) (mPad 0 0)).get F.SLU_EPOCH_DROP) = (1, 1, 1) := by decide +kernel
theorem wit_schedFrameRoute_drop : (∀ q r, pl0.kindIn q r ≠ (3, 6)) ∧ (mPad 0 0).livePlans.find? (fun pl => pl.epoch == 0) = none ∧
    (alGet (mPad 0 0).plan.drops 6).getD 0 < 15 := by
  refine ⟨fun q r => ?_, by decide +kernel, by decide +kernel⟩
  simp [Plan.kindIn, Plan.slotAt, Plan.isSlack, pl0]

/-! ## Queues -/

/-- SQ 3 (ring at 0x10000, CQ 5), CQ 5 (ring at 0x20000) and the event ring (at 0x30000) of herd 1, all enabled, in its address space 0, whose first 2 MiB are the granule 0
of Peat, assigned to it; page tables at 0, 0x1000 and 0x2000, and their leaf entry pinned. -/
def mQ0 : Mach :=
  ((((((((((((((Mach.reset.set F.QE_SQ_CFG_ENABLE 1 0 3).set F.QE_SQ_CFG_HERD 1 0 3).set64 F.QE_SQ_BASE_LO 0x10000 0 3).set F.QE_SQ_CQ_CQ 5 0 3).set
    F.QE_CQ_CFG_ENABLE 1 0 5).set F.QE_CQ_CFG_HERD 1 0 5).set64 F.QE_CQ_BASE_LO 0x20000 0 5).set F.QE_EQ_CFG_ENABLE 1 0 1).set64 F.QE_EQ_BASE_LO 0x30000 0 1).set
    F.XLT_AS_CFG_ENABLE 1 0 (Mach.asSel 1 0)).set F.PEAT_GRAN (granWord { granOf 0 with state := 1, herd := 1, asid := 0x1F }) 0 0).set
    F.QE_SQ_STATUS_PHASE 1 0 3).set F.QE_CQ_STATUS_PHASE 1 0 5).set F.QE_EQ_STATUS_PHASE 1 0 1).set F.QE_HERD_STATUS_STATE 1 0 1
def mTables : Mach := withPeat (withPeat (withPeat mQ0 0 (leBytes 8 0x1101)) 0x1000 (leBytes 8 0x2101)) 0x2000 (leBytes 8 0x10F)
def mQ : Mach := mTables.putXlt { mTables.xlt with pins := [(7, [{ herd := 1, asid := 0, level := 1, tag := 0, entry := 0x10F }])] }
def sqBase : Sq := { fetched := [], out := [], reading := none, refetchAt := none, claims := [], wait := none, paused := false, flush := [] }
theorem wit_sqDoorbell : mQ.Inv ∧ mQ.served (.fabric 1) (herdPage 1 + 4 * 3) = true ∧ mQ.failStop = false ∧ mQ.herdState 1 ≠ 4 ∧ mQ.herdState 1 ≠ 3 ∧ mQ.sqHerd 3 = 1 ∧
    mQ.bit F.QE_SQ_CFG_ENABLE 0 3 = true ∧ mQ.herdHalted 1 = false ∧ (mQ.sq 3).fetched.length < 32 ∧ (mQ.sq 3).reading = none ∧ (mQ.sq 3).wait = none ∧
    (mQ.sq 3).claims = [] ∧ ringDist (mQ.sqSize 3) (mQ.sqTail 3) (mQ.sqHead 3) < ringDist (mQ.sqSize 3) (mQ.sqTail 3) (2 % 65536 % mQ.sqSize 3) ∧
    0 < ringDist (mQ.sqSize 3) (mQ.sqHead 3) (2 % 65536 % mQ.sqSize 3) := by decide +kernel
theorem test_sqDoorbell : (after (.sqDoorbell (.fabric 1) 1 3 66) mQ).sqTail 3 = 2 ∧ ((after (.sqDoorbell (.fabric 1) 1 3 66) mQ).sq 3).claims = [(2, 0)] := by decide +kernel
theorem wit_sqDoorbell_foreign : mQ.served .mgmt (herdPage 2 + 4 * 3) = true ∧ mQ.herdState 2 ≠ 4 ∧ mQ.sqHerd 3 ≠ 2 := by decide +kernel
theorem test_sqDoorbell_foreign : (after (.sqDoorbell .mgmt 2 3 2) mQ).bit F.QE_STATUS_DB_FOREIGN = true ∧ (after (.sqDoorbell .mgmt 2 3 2) mQ).sqTail 3 = 0 := by decide +kernel
theorem wit_cqDoorbell : mQ.served .mgmt (herdPage 1 + 0x4000 + 4 * 5) = true ∧ mQ.cqHerd 5 = 1 := by decide +kernel
theorem test_cqDoorbell : (after (.cqDoorbell .mgmt 1 5 65) mQ).get F.QE_CQ_PTR_OTHER 0 5 = 1 ∧ (after (.cqDoorbell .mgmt 1 5 65) mQ).bit F.QE_CQ_STATUS_FULL 0 5 = true := by
  decide +kernel
theorem wit_eqDoorbell : mQ.served .mgmt (herdPage 1 + 0x8000) = true ∧ (alGet mQ.qe.lost 1).getD 0 = 0 := by decide +kernel
theorem test_eqDoorbell : (after (.eqDoorbell .mgmt 1 65) mQ).get F.QE_EQ_PTR_OTHER 0 1 = 1 ∧ (after (.eqDoorbell .mgmt 1 65) mQ).bit F.QE_EQ_STATUS_FULL 0 1 = true := by
  decide +kernel
def nopBytes (phase : Nat) : List Byte := leBytes 8 (1 + phase * 16 + 0x3F * 256 + 0x77 * 2 ^ 32)
def mRead : Mach := (withPeat mQ 0x10000 (nopBytes 1)).setSq 3 { sqBase with reading := some (0, 1, true) }
theorem wit_sqReadComplete : mRead.Inv ∧ mRead.Running ∧ (mRead.sq 3).reading = some (0, 1, true) ∧
    ((((mRead.advance 100).setSq 3 { mRead.sq 3 with reading := none }).tile (mRead.sqHerd 3) (mRead.get F.QE_SQ_CFG_ASID 0 3) accRead srcQe
      (mRead.ringBase F.QE_SQ_BASE_LO 3 + 64 * mRead.sqHead 3) 64).2.toOption = some [{ target := 0, port := 0, addr := 0x10000, va := 0x10000, len := 64 }]) := by decide +kernel
theorem test_sqReadComplete : ((after (.sqReadComplete 100 3 []) mRead).sq 3).fetched.map (fun d => (d.index, d.opcode, d.tag)) = [(0, 0x3F, 0x77)] ∧
    (after (.sqReadComplete 100 3 []) mRead).sqHead 3 = 1 := by decide +kernel
def mStale : Mach := mQ.setSq 3 { sqBase with refetchAt := some 100, claims := [(1, 0)] }
theorem wit_sqRefetchTimer : (mStale.set F.QE_SQ_PTR_OTHER 1 0 3).Inv ∧ mStale.Running ∧ (mStale.sq 3).refetchAt = some 100 ∧
    (mStale.sq 3).claims ≠ [] ∧ 0 < ringDist (mStale.sqSize 3) (mStale.sqHead 3) ((mStale.set F.QE_SQ_PTR_OTHER 1 0 3).sqTail 3) := by decide +kernel
theorem test_sqRefetchTimer : ((after (.sqRefetchTimer 100 3) (mStale.set F.QE_SQ_PTR_OTHER 1 0 3)).sq 3).reading.isSome = true ∧
    ((after (.sqRefetchTimer 99 3) (mStale.set F.QE_SQ_PTR_OTHER 1 0 3)).sq 3).reading.isSome = false := by decide +kernel
theorem wit_stalePhaseTimeout : mStale.Inv ∧ mStale.Running ∧ (mStale.sq 3).claims = [(1, 0)] ∧ 0 + mStale.leaseAt 0 ≤ (mStale.advance 16000000000).now ∧
    (mStale.sq 3).refetchAt.isSome = true ∧ mStale.bit F.QE_SQ_CFG_ENABLE 0 3 = true ∧ mStale.sqHerd 3 ≠ 0 := by decide +kernel
theorem test_stalePhaseTimeout : ((after (.stalePhaseTimeout 16000000000 3) mStale).sq 3).out.map (fun o => o.comp.map (fun c => (c.status, c.detail))) = [some (0x60, 6)] ∧
    (after (.stalePhaseTimeout 16000000000 3) mStale).get F.QE_HERD_STATUS_STATE 0 1 = 2 := by decide +kernel
def mOff : Mach := (mQ.set F.QE_SQ_CFG_ENABLE 0 0 3).setReg (herdPage 1 + 0x8010) 3
theorem wit_sqEnable : mOff.Inv ∧ mOff.Admits { path := .mgmt, page := some 1 } 0x0040010C ∧ mOff.selSq { path := .mgmt, page := some 1 } = 3 ∧ mOff.sqHerd 3 = 1 ∧
    mOff.bit F.QE_SQ_CFG_ENABLE 0 3 = false ∧ (mOff.sqCfgFields { path := .mgmt, page := some 1 } 3 1 false).bindingsOn 5 = [] ∧
    (mOff.sqCfgFields { path := .mgmt, page := some 1 } 3 1 false).cqHerd 5 = 1 := by decide +kernel
theorem test_sqEnable : (after (.sqEnable { path := .mgmt, page := some 1 } 1) mOff).bit F.QE_SQ_CFG_ENABLE 0 3 = true ∧
    (after (.sqEnable { path := .mgmt, page := some 1 } 1) (mOff.set F.QE_RX_BIND_ENABLE 1 0 9 |>.set F.QE_RX_BIND_CQ 5 0 9)).bit F.QE_STATUS_BIND_REFUSED = true := by
  decide +kernel
theorem test_sqDisable : (after (.sqDisable { path := .mgmt, page := some 1 } 0) (mStale.setReg (herdPage 1 + 0x8010) 3)).bit F.QE_SQ_STATUS_IDLE 0 3 = true := by
  decide +kernel
def outDone : OutDesc := { uid := 4, index := 1, tag := 0x77, opcode := 0x3F, comp := some { status := 0, bytes := 0, deadline := false, time := 9, detail := 0 } }
def mComp : Mach := mQ.setSq 3 { sqBase with out := [outDone] }
theorem wit_completionWrite : mComp.Inv ∧ mComp.Running ∧ mComp.get F.QE_SQ_CQ_CQ 0 3 = 5 ∧
    (mComp.sq 3).out[((mComp.cq 5).headers.filter (fun h => h.sq == some 3)).length]? = some outDone ∧ mComp.bit F.QE_CQ_STATUS_RING_FAULT 0 5 = false ∧
    mComp.bit F.QE_CQ_CFG_ENABLE 0 5 = true ∧ mComp.cqNext 5 = (0, 1) ∧
    ((mComp.advance 0).writeVa 1 0 srcQe 3 (5 * 65536 + 0) 0 (0x20000 + 32 * 0 + 8)
      ((Mach.compBytes 1 false 3 1 0x77 { status := 0, bytes := 0, deadline := false, time := 9, detail := 0 }).drop 8)).2 = none := by decide +kernel
theorem test_completionWrite : (after (.completionWrite 0 3) mComp).rdBytes .peat 0x20000 32 = List.replicate 16 0 ++ leBytes 8 9 ++ leBytes 8 0 ∧
    ((after (.completionWrite 0 3) mComp).cq 5).headers.map (fun h => h.bytes) = [[0x11, 0, 3, 0, 1, 0, 0x77, 0]] := by decide +kernel
def mHeader : Mach := mComp.setCq 5 { headers := [{ index := 63, bytes := [0x11, 0, 3, 0, 1, 0, 0x77, 0], sq := some 3, status := 0 }], overrun := false }
theorem wit_completionHeaderWrite : mHeader.Inv ∧ mHeader.Running ∧ mHeader.landed 3 (5 * 65536 + 63) 0 = true ∧
    ((mHeader.advance 0).writeVa 1 0 srcQe 3 (5 * 65536 + 63) 1 (0x20000 + 32 * 63) [0x11, 0, 3, 0, 1, 0, 0x77, 0]).2 = none := by decide +kernel
theorem test_completionHeaderWrite : ((after (.completionHeaderWrite 0 5) mHeader).get F.QE_CQ_PTR_OWN 0 5, (after (.completionHeaderWrite 0 5) mHeader).get F.QE_SQ_COUNT 0 3,
    (after (.completionHeaderWrite 0 5) mHeader).get F.QE_CQ_STATUS_PHASE 0 5) = (0, 1, 0) := by decide +kernel
def evt (dest : Nat) : Event := { code := 0x0302, source := 300, herd := 0, dest := dest, info0 := 1, info1 := 2, time := 3 }
def mEvt (dest : Nat) : Mach := mQ.putEvq [evt dest]
theorem wit_eventRingWrite : (mEvt 1).Inv ∧ (mEvt 1).Running ∧ (mEvt 1).evq = [evt 1] ∧ (alGet (mEvt 1).qe.lost 1).getD 0 = 0 ∧ (mEvt 1).eqOpen 1 = true ∧
    2 ≤ (mEvt 1).eqFree 1 ∧ (mEvt 1).eqOpen 2 = false ∧
    ((((mEvt 1).advance 0).putEvq []).writeVa 1 0 srcQe 4 1 0 (0x30000 + 8) (leBytes 8 3 ++ leBytes 8 1 ++ leBytes 8 2)).2 = none ∧
    (((((mEvt 1).advance 0).putEvq []).writeVa 1 0 srcQe 4 1 0 (0x30000 + 8) (leBytes 8 3 ++ leBytes 8 1 ++ leBytes 8 2)).1.writeVa 1 0 srcQe 4 1 0 0x30000
      (leBytes 8 (1 + 16 + 0x0302 * 2 ^ 16 + 300 * 2 ^ 32))).2 = none := by decide +kernel
theorem test_eventRingWrite : (after (.eventRingWrite 0) (mEvt 1)).rdBytes .peat 0x30000 32 =
      [0x11, 0, 0x02, 0x03, 0x2C, 1, 0, 0, 3, 0, 0, 0, 0, 0, 0, 0, 1, 0, 0, 0, 0, 0, 0, 0, 2, 0, 0, 0, 0, 0, 0, 0] ∧
    (after (.eventRingWrite 0) (mEvt 2)).get F.QE_EQ_LOST 0 2 = 1 := by decide +kernel
theorem wit_cqDisable : (mQ.setP .mgmt F.QE_CQ_SEL_INDEX 6).Steward .mgmt 0x0040020C ∧ (mQ.set F.QE_CQ_CFG_ENABLE 1 0 6).bit F.QE_CQ_CFG_ENABLE 0 6 = true ∧
    (mQ.set F.QE_CQ_CFG_ENABLE 1 0 6).sqsServed 6 = [] ∧ mQ.bindingsOn 6 = [] ∧ mQ.sqsServed 5 ≠ [] ∧ mQ.bit F.QE_CQ_CFG_ENABLE 0 5 = true ∧
    (mQ.setP .mgmt F.QE_CQ_SEL_INDEX 6).getP .mgmt F.QE_CQ_SEL_INDEX % 4096 = 6 := by decide +kernel
theorem test_cqDisable : (after (.cqDisable .mgmt 0x06000000) ((mQ.setP .mgmt F.QE_CQ_SEL_INDEX 6).set F.QE_CQ_CFG_ENABLE 1 0 6)).bit F.QE_CQ_CFG_ENABLE 0 6 = false ∧
    (after (.cqDisable .mgmt 0x06000100) (mQ.setP .mgmt F.QE_CQ_SEL_INDEX 5)).bit F.QE_CQ_CFG_ENABLE 0 5 = true ∧
    (after (.cqDisable .mgmt 0x06000100) (mQ.setP .mgmt F.QE_CQ_SEL_INDEX 5)).bit F.CFG_STATUS_FROZEN_WRITE = true := by decide +kernel
def mBind : Mach := (mIn freshRx).setP .mgmt F.QE_RX_SEL_INDEX 4 |>.set F.QE_CQ_CFG_HERD 1 0 5
theorem wit_rxBindEnable : mBind.Inv ∧ mBind.Steward .mgmt 0x00400404 ∧ mBind.getP .mgmt F.QE_RX_SEL_INDEX % 16384 = 4 ∧ mBind.bit F.QE_RX_BIND_ENABLE 0 4 = false ∧
    mBind.sqsServed 5 = [] ∧ ((mBind.plan?.bind (fun pl => pl.inc 4)).map (fun l => l.herd == mBind.cqHerd 5)).getD false = true := by decide +kernel
theorem test_rxBindEnable : (after (.rxBindEnable .mgmt 0x80000005) mBind).bit F.QE_RX_BIND_ENABLE 0 4 = true ∧
    (after (.rxBindEnable .mgmt 0x80000006) mBind).bit F.QE_RX_BIND_ENABLE 0 4 = false := by decide +kernel
theorem wit_ringBaseWrite : (mOff.setP .mgmt F.QE_SQ_SEL_INDEX 3).Inv ∧ (mOff.setP .mgmt F.QE_SQ_SEL_INDEX 3).Admits { path := .mgmt, page := none } (F.QE_SQ_BASE_LO.addr + 4) ∧
    (mOff.setP .mgmt F.QE_SQ_SEL_INDEX 3).getP .mgmt F.QE_SQ_SEL_INDEX % 4096 = 3 ∧ mOff.bit F.QE_SQ_CFG_ENABLE 0 3 = false := by decide +kernel
theorem test_ringBaseWrite : (after (.ringBaseWrite { path := .mgmt, page := none } 0 1) (mOff.setP .mgmt F.QE_SQ_SEL_INDEX 3)).get64 F.QE_SQ_BASE_LO 0 3 = 0x100010000 := by
  decide +kernel
/-- WAIT_COUNT on SQ 4's count reaching 2, with its failures at 0; and a NOP. -/
def dWait : List Nat := [0xABCD00003001, 4, 2, 0, 0, 0, 0, 0]
def dNop : List Nat := [0xABCD00003F01, 0, 0, 0, 0, 0, 0, 0]
def mWait : Mach := (withDesc Mach.reset dWait).set F.QE_SQ_CFG_HERD 1 0 4
theorem wit_waitCount : mWait.Inv ∧ (mWait.advance 32).Dispatches 3 (dsc dWait)
    (mWait.sqHerd ((dsc dWait).target % 4096) != mWait.sqHerd 3 || (dsc dWait).target == 3) ∧ (dsc dWait).opcode = 0x30 := by decide +kernel
theorem test_waitCount : ((after (.waitCount 32 3) mWait).sq 3).wait = some { uid := 0, queue := 4, target := 2, failBase := 0, expires := 1600000032 } := by decide +kernel
def mWaiting (n : Nat) : Mach := (mWait.set F.QE_SQ_COUNT n 0 4).setSq 3
  { sqBase with out := [{ uid := 9, index := 0, tag := 0, opcode := 0x30, comp := none }], wait := some { uid := 9, queue := 4, target := 2, failBase := 0, expires := 100 } }
theorem wit_waitCountSatisfied : (mWaiting 2).Inv ∧ (mWaiting 2).Running ∧
    0 ≤ (BitVec.ofNat 32 ((mWaiting 2).get F.QE_SQ_COUNT 0 4) - BitVec.ofNat 32 2).toInt := by decide +kernel
theorem test_waitCountSatisfied : ((after (.waitCountSatisfied 0 3) (mWaiting 2)).sq 3).out.map (fun o => o.comp.map (·.status)) = [some 0] ∧
    ((after (.waitCountSatisfied 0 3) (mWaiting 1)).sq 3).wait.isSome = true := by decide +kernel
theorem wit_waitCountTimeout : (mWaiting 1).Running ∧ 100 ≤ ((mWaiting 1).advance 100).now := by decide +kernel
theorem test_waitCountTimeout : ((after (.waitCountTimeout 100 3) (mWaiting 1)).sq 3).out.map (fun o => o.comp.map (·.status)) = [some 0x30] ∧
    (after (.waitCountTimeout 100 3) (mWaiting 1)).bit F.QE_SQ_CFG_ENABLE 0 3 = false := by decide +kernel
theorem wit_nop : (withDesc Mach.reset dNop).Inv ∧ ((withDesc Mach.reset dNop).advance 32).Dispatches 3 (dsc dNop) false ∧ (dsc dNop).opcode = 0x3F := by decide +kernel
theorem test_nop : ((after (.nop 32 3) (withDesc Mach.reset dNop)).sq 3).out.map (fun o => (o.tag, o.comp.map (·.status))) = [(0xABCD, some 0)] := by decide +kernel

/-! ## Queue pairs -/

/-- Queue pair 12 of herd 1, to module 3, in a state; its herd's share is 4 queue pairs. -/
def mQp (st : Nat) : Mach :=
  ((((((Mach.reset.set F.BEQ_QP_STATUS_STATE st 0 12).set F.BEQ_QP_CFG (1 + 3 * 65536) 0 12).set F.BEQ_QP_CFG 0x22 1 12).set F.BEQ_QP_CFG 0x30 2 12).set
    F.BEQ_QP_CFG (0x01000000 + 0x40) 3 12).set F.BEQ_QP_CFG 0x00100000 4 12).set F.BEQ_QP_CFG (256 * 65536) 5 12 |>.set F.BEQ_QP_CFG 1 6 12 |>.setGranted 1 resQps 4
def dSend : List Nat := [0xABCD00001001, 12 + 8 * 2 ^ 32, 0x4000, 0, 0, 0, 0, 0]
theorem wit_qpSend : (withDesc (mQp 1) dSend).Inv ∧ ((withDesc (mQp 1) dSend).advance 32).Dispatches 3 (dsc dSend) ((withDesc (mQp 1) dSend).qpForeign 3 (dsc dSend)) ∧
    (dsc dSend).opcode = 0x10 ∧ (withDesc (mQp 1) dSend).qpMirror 12 = none ∧ (withDesc (mQp 1) dSend).qpState 12 = 1 := by decide +kernel
theorem test_qpSend : ((after (.qpSend 32 3) (withDesc (mQp 1) dSend)).qp 12).msgs.map (fun g => (g.va, g.len)) = [(0x4000, 8)] := by decide +kernel
def dQpWrite : List Nat := [0xABCD00001101, 12 + 8 * 2 ^ 32, 0x4000, 5, 64, 0, 0, 0]
def dQpRead : List Nat := [0xABCD00001201, 12 + 8 * 2 ^ 32, 0x4000, 5, 64, 0, 0, 0]
def dQpAtomic : List Nat := [0xABCD00001301, 12, 1, 5, 64, 7, 0, 0]
def dQpRecv : List Nat := [0xABCD00001401, 12 + 8 * 2 ^ 32, 0x4000, 0, 0, 0, 0, 0]
theorem wit_qpWrite : ∀ d ∈ [dQpWrite, dQpRead, dQpAtomic, dQpRecv],
    ((withDesc (mQp 1) d).advance 32).Dispatches 3 (dsc d) ((withDesc (mQp 1) d).qpForeign 3 (dsc d)) ∧ (withDesc (mQp 1) d).qpMirror (dsc d).target = none := by decide +kernel
theorem wit_qpError : ((withDesc (mQp 2) dQpWrite).advance 32).Dispatches 3 (dsc dQpWrite) ((withDesc (mQp 2) dQpWrite).qpForeign 3 (dsc dQpWrite)) ∧
    (withDesc (mQp 2) dQpWrite).qpState (dsc dQpWrite).target = 2 := by decide +kernel
theorem test_qpWrite : ((after (.qpWrite 32 3) (withDesc (mQp 1) dQpWrite)).qp 12).msgs.map (fun g => (g.window, g.woffset)) = [(5, 64)] ∧
    ((after (.qpWrite 32 3) (withDesc ((mQp 2).set F.BEQ_QP_STATUS_ERR_STATUS 0x31 0 12) dQpWrite)).sq 3).out.map (fun o => o.comp.map (·.status)) = [some 0x31] := by
  decide +kernel
theorem test_qpRead : ((after (.qpRead 32 3) (withDesc (mQp 1) dQpRead)).qp 12).msgs.map (fun g => g.kind) = [.read] := by decide +kernel
theorem test_qpAtomic : ((after (.qpAtomic 32 3) (withDesc (mQp 1) dQpAtomic)).qp 12).msgs.map (fun g => (g.len, g.atomicOp, g.operand)) = [(0, 1, 7)] := by decide +kernel
theorem test_qpRecv : ((after (.qpRecv 32 3) (withDesc (mQp 1) dQpRecv)).qp 12).bufs.map (fun b => (b.va, b.len)) = [(0x4000, 8)] := by decide +kernel
def vPage1 : Via := { path := .fabric 1, page := some 1 }
def mQpCmd (st : Nat) : Mach := (mQp st).setV vPage1 F.BEQ_QP_SEL_QP 12
theorem wit_qpCreate : (mQpCmd 0).Inv ∧ (mQpCmd 0).Admits vPage1 F.BEQ_QP_CMD_OP.addr ∧ (mQpCmd 0).selQp vPage1 = 12 ∧ (mQpCmd 0).qpReach vPage1 12 = true ∧
    (mQpCmd 0).qpState 12 = 0 ∧ ((mQpCmd 0).set F.BEQ_QP_CFG ((mQpCmd 0).qpCfg 12 0 / 256 * 256 + 1) 0 12).qpCreateCheck 12 1 = none := by decide +kernel
theorem test_qpCreate : (after (.qpCreate vPage1) (mQpCmd 0)).qpState 12 = 1 ∧ ((after (.qpCreate vPage1) (mQpCmd 0)).qp 12).psn = 0x30 ∧
    (after (.qpCreate vPage1) (mQpCmd 0)).used 1 resQps = 1 := by decide +kernel
theorem wit_qpDestroy : (mQpCmd 1).Inv ∧ (mQpCmd 1).Admits vPage1 F.BEQ_QP_CMD_OP.addr ∧ (mQpCmd 1).qpReach vPage1 12 = true ∧ (mQpCmd 1).qpState 12 ≠ 0 ∧
    (mQpCmd 1).qpBusy 12 = false ∧ ((mQpCmd 1).setQp 12 { freshQp with bufs := [{ sq := 3, uid := 1, va := 0, asid := 0, len := 8, segs := none }] }).qpBusy 12 = true := by
  decide +kernel
theorem test_qpDestroy : (after (.qpDestroy vPage1) (mQpCmd 1)).qpState 12 = 0 ∧
    (after (.qpDestroy vPage1) ((mQpCmd 1).setQp 12 { freshQp with bufs := [{ sq := 3, uid := 1, va := 0, asid := 0, len := 8, segs := none }] })).get
      F.BEQ_QP_STATUS_REASON 0 12 = 4 := by decide +kernel
theorem wit_qpReset : (mQpCmd 2).Inv ∧ (mQpCmd 2).Admits vPage1 F.BEQ_QP_CMD_OP.addr ∧ (mQpCmd 2).qpReach vPage1 12 = true ∧ (mQpCmd 2).qpState 12 = 2 := by decide +kernel
theorem test_qpReset : (after (.qpReset vPage1) (mQpCmd 2)).qpState 12 = 1 ∧ (after (.qpReset vPage1) (mQpCmd 1)).get F.BEQ_QP_STATUS_REASON 0 12 = 1 := by decide +kernel
def mAck : Mach := (mQp 1).setQp 12 { freshQp with ackSince := some 100, unacked := 2, expect := 0x41, ceSince := 500, txEcho := 90 }
theorem wit_qpAckTimer : mAck.Inv ∧ mAck.Running ∧ (mAck.qp 12).ackSince = some 100 ∧ 100 + 2 * us ≤ (mAck.advance 32100).now := by decide +kernel
theorem test_qpAckTimer : ((after (.qpAckTimer 32100 12) mAck).qp 12).replies.map (fun k => (k.psn, k.cumPsn, k.ceBytes, k.txTime)) = [(0x40, 0x41, 500, 90)] ∧
    ((after (.qpAckTimer 32099 12) mAck).qp 12).replies = [] := by decide +kernel
def pk (psn : Nat) : QpPacket := { blankPacket with op := .send, qpn := 0x22, psn := psn }
def mSent (tries : Nat) : Mach := (mQp 1).setQp 12 { freshQp with sent := [{ packet := pk 5, msn := 0, port := 2, at' := 0, tries := tries }], psn := 6 }
theorem wit_qpRtoExpire : (mSent 0).Inv ∧ (mSent 0).Running ∧
    ((mSent 0).qp 12).sent.find? (fun y => !(((mSent 0).qp 12).msgs.find? (fun g => g.msn == y.msn && g.rnrAt.isSome)).isSome &&
      !(((mSent 0).qp 12).resend.any (fun z => z.packet.psn == y.packet.psn)) && decide (y.at' + (mSent 0).qpRto 12 y.tries ≤ ((mSent 0).advance 1600000).now)) =
      some { packet := pk 5, msn := 0, port := 2, at' := 0, tries := 0 } ∧ 0 < (mSent 0).get F.BEQ_RTX_RETRY := by decide +kernel
theorem test_qpRtoExpire : ((after (.qpRtoExpire 1600000 12) (mSent 0)).qp 12).resend.map (fun x => (x.packet.psn, x.tries, x.at')) = [(5, 1, 1600000)] ∧
    (after (.qpRtoExpire 20000000000000 12) (mSent 7)).get F.BEQ_QP_STATUS_ERR_STATUS 0 12 = 0x31 := by decide +kernel
def gRnr : QpMsg := { blankMsg with msn := 0, kind := .send, cut := 8, wholly := true, rnr := 1, rnrAt := some 160000 }
def mRnr : Mach := (mQp 1).setQp 12 { freshQp with msgs := [gRnr], sent := [{ packet := pk 5, msn := 0, port := 2, at' := 0, tries := 0 }] }
theorem wit_qpRnrRetry : mRnr.Inv ∧ mRnr.Running ∧ gRnr.rnrAt = some 160000 ∧ 160000 ≤ (mRnr.advance 160000).now ∧ (mRnr.qp 12).msgs = [gRnr] := by decide +kernel
theorem test_qpRnrRetry : ((after (.qpRnrRetry 160000 12) mRnr).qp 12).resend.length = 1 ∧ ((after (.qpRnrRetry 159999 12) mRnr).qp 12).resend.length = 0 := by decide +kernel
theorem wit_qpLeaseTimeout : (mSent 0).Inv ∧ (mSent 0).Running ∧ (mSent 0).qpState 12 = 1 ∧ ((mSent 0).qp 12).sent ≠ [] ∧
    ((mSent 0).qp 12).heard + (mSent 0).leaseAt ((mSent 0).qp 12).heard ≤ ((mSent 0).advance 16000000000).now := by decide +kernel
theorem test_qpLeaseTimeout : (after (.qpLeaseTimeout 16000000000 12) (mSent 0)).get F.BEQ_QP_STATUS_ERR_STATUS 0 12 = 0x30 := by decide +kernel
theorem wit_ccRateUpdate : (mQp 1).Inv ∧ (mQp 1).Running ∧ (mQp 1).qpState 12 = 1 ∧
    ((mQp 1).qp 12).rateAt + max 1 ((mQp 1).get F.BEQ_CC_CTL_INTERVAL) * us ≤ ((mQp 1).advance 16000000).now ∧ ((mQp 1).advance 16000000).pathRate 12 < 2 ^ 32 := by
  decide +kernel
theorem test_ccRateUpdate : ((after (.ccRateUpdate 16000000 12) ((mQp 1).setQp 12 { freshQp with cnps := 3 })).qp 12).cnps = 0 := by decide +kernel
def mSample : Mach := (mSent 0).set F.CLK_BOOT_STEP 11
theorem wit_qpSample : mSample.Inv ∧ mSample.Running ∧ mSample.hwmMode = false ∧
    (mSample.qp 12).sampleAt + max 1 (mSample.get F.BEQ_CTL_SAMPLE_US) * us ≤ (mSample.advance 16000000).now := by decide +kernel
theorem test_qpSample : (after (.qpSample 16000000 12) (mSample.setQp 12 { freshQp with msgs := [{ blankMsg with len := 3000, cut := 952 }] })).get F.BEQ_QP_SAMPLE_DEPTH 0 12 = 2 := by
  decide +kernel
def hCtl : Held := { inPort := 1, cls := 3, vc := 0, out := 4, vcOut := 0, table := 0, frame := { epoch := 0, pcp := 7, dest := some 3, path := 0, bytes := 100, ect := true,
                                                                                                   body := .packet (pk 5) } }
/-- Port 4 is UP; module 3 is reached on it by every path. -/
def mUp4 (x : Qp) : Mach := ((((mQp 1).set F.PORT_STATUS_STATE 3 4).set F.PORT_ROLE_ROLE 1 4).set64 F.RTE_ENTRY_LO (1 + 4 * 256) 0 3).setQp 12 x
def mFwd : Mach := let m := mUp4 freshQp; m.putRte { m.rte with held := [hCtl] }
theorem wit_beFrameSend_control : mFwd.Inv ∧ mFwd.Running ∧ mFwd.portUp 4 = true ∧ mFwd.ciph.frames = [] ∧ (mFwd.advance 0).heldFor 4 (fun c => c == 3) = [hCtl] ∧
    (mFwd.advance 0).freeTime 4 100 = true := by decide +kernel
theorem test_beFrameSend_control : (after (.beFrameSend 0 4) mFwd).rte.held = [] ∧ (after (.beFrameSend 0 4) mFwd).get64 F.PORT_TX_FRAMES_LO 4 = 1 := by decide +kernel
def mReply : Mach := mUp4 { freshQp with replies := [{ pk 5 with op := .ack }] }
theorem wit_beFrameSend_reply : (mReply.advance 0).heldFor 4 (fun c => c == 3) = [] ∧ (mReply.advance 0).replyOn 4 true = none ∧ (mReply.advance 0).ctlOn 4 = none ∧
    (mReply.advance 0).heldFor 4 (fun c => c == 2) = [] ∧ (mReply.advance 0).replyOn 4 false = some (12, 0, { pk 5 with op := .ack }) ∧ mReply.qpKey 12 = none ∧
    (mReply.advance 0).heldBy 4 ((mReply.advance 0).qpFrame 12 4 0 { pk 5 with op := .ack }).pcp = false ∧
    (mReply.advance 0).freeTime 4 (packetBytes { pk 5 with op := .ack }) = true := by decide +kernel
theorem test_beFrameSend_reply : ((after (.beFrameSend 0 4) mReply).qp 12).replies = [] ∧ (after (.beFrameSend 0 4) mReply).sent.length = 1 := by decide +kernel
def mAgain : Mach := mUp4 { freshQp with resend := [{ packet := pk 5, msn := 0, port := 4, at' := 0, tries := 1 }], pacer := 1 }
theorem wit_beFrameSend_origin : (mAgain.advance 0).heldFor 4 (fun c => c == 3) = [] ∧ (mAgain.advance 0).replyOn 4 true = none ∧ (mAgain.advance 0).ctlOn 4 = none ∧
    (mAgain.advance 0).heldFor 4 (fun c => c == 2) = [] ∧ (mAgain.advance 0).replyOn 4 false = none ∧ (mAgain.advance 0).heldFor 4 (fun c => c == 0 || c == 1) = [] ∧
    (mAgain.advance 0).clientPick 4 = some 1 ∧ (mAgain.advance 0).qpPick 4 1 = some 12 ∧ (mAgain.advance 0).qpPort 12 = some (4, 0) ∧ mAgain.qpKey 12 = none ∧
    (mAgain.advance 0).heldBy 4 0 = false ∧ (mAgain.advance 0).freeTime 4 (((mAgain.advance 0).clientNext 4 1).getD 0) = true := by decide +kernel
theorem test_beFrameSend_origin : (after (.beFrameSend 0 4) mAgain).get F.BEQ_QP_RETX 0 12 = 1 ∧ (after (.beFrameSend 0 4) mAgain).sent.length = 1 := by decide +kernel
theorem wit_rateRefill : Mach.reset.Inv ∧ (if Mach.reset.beq.interval = 0 then 1000 * ns else Mach.reset.beq.refillAt) ≤ (Mach.reset.advance 16000).now := by decide +kernel
theorem test_rateRefill : (after (.rateRefill 16000) (Mach.reset.set F.BEQ_REFILL_INTERVAL_NS 50)).beq.refillAt = 17600 := by decide +kernel
/-- A report that names queue pair 12 and window 5. -/
def rpt : CtlMsg := { src := 3, bytes := leBytes 32 0x81 ++ leBytes 4 (1 + 2 * 256) ++ leBytes 4 12 ++ leBytes 4 5 ++ leBytes 12 0 ++ leBytes 8 77 }
def mRpt (priv : Nat) : Mach := let m := (mQp 1).set F.QE_HERD_STATUS_PRIV priv 0 1; m.putBeq { m.beq with ctl := [rpt] }
theorem wit_violationReport : (mRpt 1).Inv ∧ (mRpt 1).Running ∧ (mRpt 1).beq.ctl.find? (fun c => leAt c.bytes 0 1 / 16 == 8) = some rpt ∧
    (leAt (rpt.bytes.drop 32) 0x18 8, leAt (rpt.bytes.drop 32) 8 4) ∉ (mRpt 1).beq.reports ∧
    (mRpt 1).reportHerd (leAt (rpt.bytes.drop 32) 0 4 / 256 % 16) (leAt (rpt.bytes.drop 32) 4 4) = some 1 ∧ (mRpt 1).bit F.QE_HERD_STATUS_PRIV 0 1 = true ∧
    (Mach.reset).reportHerd 2 12 = none := by decide +kernel
theorem test_violationReport : (after (.violationReportReceived 0) (mRpt 1)).evq.map (fun e => (e.code, e.dest, e.info0, e.info1)) = [(0x0502, 1, 5, 3)] ∧
    (after (.violationReportReceived 0) (mRpt 0)).get F.FLT_VIOL_COUNT = 1 := by decide +kernel
def wr1 : WriteRec := { id := 6, kind := 3, chan := 0, msg := 0, target := 0, port := 0 }
theorem wit_memoryWriteAck : (Mach.reset.putMem { Mach.reset.mem with writes := [wr1] }).Inv ∧ [wr1].find? (fun w => w.id == 6) = some wr1 ∧ wr1.kind ≠ 2 := by decide +kernel
theorem test_memoryWriteAck : (after (.memoryWriteAck 0 6) (Mach.reset.putMem { Mach.reset.mem with writes := [wr1] })).mem.writes = [] := by decide +kernel

/-! ## Translation and windows -/

def mAs (share : Nat) : Mach := ((Mach.reset.setP .mgmt F.XLT_AS_SEL_HERD 1).setP .mgmt F.XLT_AS_SEL_ASID 2).setGranted 1 resAsids share
theorem wit_asEnable : (mAs 1).Inv ∧ (mAs 1).Steward .mgmt F.XLT_AS_CFG_ENABLE.addr ∧ (mAs 1).getP .mgmt F.XLT_AS_SEL_HERD = 1 ∧ (mAs 1).getP .mgmt F.XLT_AS_SEL_ASID = 2 ∧
    (mAs 1).asEnabled 1 2 = false ∧ (mAs 1).roomFor 1 resAsids 1 = true ∧ (mAs 1).asCount < 1024 ∧ (mAs 0).roomFor 1 resAsids 1 = false := by decide +kernel
theorem test_asEnable : (after (.asEnable .mgmt 0x00090000) (mAs 1)).asEnabled 1 2 = true ∧ (after (.asEnable .mgmt 0x00090000) (mAs 0)).bit F.XLT_STATUS_AS_REFUSED = true := by
  decide +kernel
def vBlock : Via := { path := .mgmt, page := none }
/-- Two cached entries of contexts (1, 0) and (2, 0). -/
def mCache : Mach := Mach.reset.putXlt { Mach.reset.xlt with cache := [{ herd := 1, asid := 0, level := 0, tag := 5, entry := 1 }, { herd := 2, asid := 0, level := 0, tag := 5, entry := 1 }] }
theorem wit_invalidate : mCache.Inv ∧ mCache.Admits vBlock F.XLT_INV_GO.addr ∧ mCache.getInv none F.XLT_STATUS_INV_BUSY = 0 ∧
    (mCache.setInv none F.XLT_STATUS_INV_BUSY 1).Admits vBlock F.XLT_INV_GO.addr ∧ (mCache.setInv none F.XLT_STATUS_INV_BUSY 1).getInv none F.XLT_STATUS_INV_BUSY = 1 := by
  decide +kernel
theorem test_invalidateAll : (after (.invalidateAll vBlock 0) mCache).xlt.cache = [] := by decide +kernel
theorem test_invalidateContext : (after (.invalidateContext vBlock 0x0200) mCache).xlt.cache.map (·.herd) = [1] := by decide +kernel
theorem test_invalidateRange : (after (.invalidateRange vBlock 0x0100) ((mCache.setReg (Mach.invKey none F.XLT_INV_VA_LO) 0x5000).setInv none F.XLT_INV_PAGES 1)).xlt.cache.map (·.herd) = [2] ∧
    (after (.invalidateRange vBlock 0x0100) ((mCache.setReg (Mach.invKey none F.XLT_INV_VA_LO) 0x6000).setInv none F.XLT_INV_PAGES 1)).xlt.cache.map (·.herd) = [1, 2] := by
  decide +kernel
def rq (running : Bool) : InvReq := { page := none, scope := 1, herd := 1, asid := 0, va := 0, pages := 0, running := running, blockers := [] }
def mInv (running : Bool) : Mach := mCache.putXlt { mCache.xlt with inv := [rq running] }
theorem wit_invalidateStart : (mInv false).Inv ∧ (mInv false).xlt.inv = [rq false] ∧ (mInv false).xlt.inv.any (fun y => y.running) = false := by decide +kernel
theorem test_invalidateStart : (after (.invalidateStart 0) (mInv false)).xlt.cache.map (·.herd) = [2] := by decide +kernel
theorem wit_invalidateDone : (mInv true).Inv ∧ (mInv true).xlt.inv.find? (fun y => y.running) = some (rq true) ∧ (∀ b ∈ (rq true).blockers, b ∉ (mInv true).inFlight.map (·.1)) := by
  decide +kernel
def mBlocked : Mach :=
  (mCache.putXlt { mCache.xlt with inv := [{ rq true with blockers := [(4, 12, 1)] }] }).setQp 12
    { freshQp with bufs := [{ sq := 3, uid := 1, va := 0, asid := 0, len := 8, segs := none }] }
theorem wit_invalidateDone_blocked : mBlocked.Inv ∧ mBlocked.xlt.inv.find? (fun y => y.running) = some { rq true with blockers := [(4, 12, 1)] } ∧
    (∃ b ∈ [((4, 12, 1) : Nat × Nat × Nat)], b ∈ mBlocked.inFlight.map (·.1)) := by decide +kernel
theorem test_invalidateDone : (after (.invalidateDone 0) (mInv true)).getInv none F.XLT_STATUS_INV_DONE = 1 ∧ (after (.invalidateDone 0) mBlocked).xlt.inv.length = 1 := by decide +kernel
theorem wit_dirtyHarvest : Mach.reset.Inv ∧ Mach.reset.Steward .mgmt F.XLT_DIRTY_CMD_GO.addr ∧ Mach.reset.bit F.XLT_STATUS_DIRTY_BUSY = false := by decide +kernel
theorem test_dirtyHarvest : (after (.dirtyHarvest .mgmt 1) (Mach.reset.set F.XLT_STATUS_DIRTY_BUSY 1)).bit F.XLT_STATUS_CMD_DROPPED = true := by decide +kernel
def mHarvest : Mach := withPeat (Mach.reset.putXlt { Mach.reset.xlt with harvest := some (0x100, 2, 0x200) }) 0x108 [7]
theorem wit_dirtyHarvestDone : mHarvest.Inv ∧ mHarvest.xlt.harvest = some (0x100, 2, 0x200) ∧ 0x100 + 8 * 2 ≤ 0x200 := by decide +kernel
theorem test_dirtyHarvestDone : (after (.dirtyHarvestDone 0) mHarvest).peat.map (fun c => (c.1, c.2)) = [(0x208, 7)] := by decide +kernel
/-- Herd 1 may open four windows; an entry of 4 KiB at 0x5000, writable, is staged by the steward. -/
def mWin : Mach :=
  (((mQ.setGranted 1 resWindows 4).setV vBlock F.WIN_ENTRY 0x101 0).setV vBlock F.WIN_ENTRY 0xFFFF0001 1).setV vBlock F.WIN_ENTRY 0x5000 2 |>.setV vBlock F.WIN_ENTRY 0x1000 4 |>.set64
    F.WIN_TABLE_LO 0x100000
theorem wit_windowOpen : mWin.Inv ∧ mWin.Admits vBlock F.WIN_CMD_OP.addr ∧ (mWin.win 9).state = 0 ∧ (mWin.winStaged vBlock).version = 1 ∧ (mWin.winStaged vBlock).base % 4096 = 0 ∧
    0 < (mWin.winStaged vBlock).limit ∧ (mWin.winStaged vBlock).limit ≤ 2 ^ 48 ∧ (mWin.winStaged vBlock).base + (mWin.winStaged vBlock).limit ≤ 2 ^ 57 ∧
    mWin.asEnabled (mWin.winStaged vBlock).ownerHerd (mWin.winStaged vBlock).ownerAsid = true ∧ mWin.roomFor (mWin.winStaged vBlock).ownerHerd resWindows 1 = true ∧
    (mWin.winStaged vBlock).sched = false := by decide +kernel
theorem test_windowOpen : ((after (.windowOpen vBlock 9) mWin).win 9).base = 0x5000 ∧ (after (.windowOpen vBlock 9) mWin).rdBytes .peat 0x100120 2 = [0x11, 1] := by decide +kernel
/-- Window 9 in a state, generation 0xFFFF. -/
def mWinSt (st : Nat) : Mach := withPeat mWin 0x100120 (winBytes
  { version := 1, state := st, sched := false, r := true, w := true, atomic := false, gen := 0xFFFF, ownerHerd := 1, ownerAsid := 0, peer := 0xFFFF, base := 0x5000, limit := 0x1000, rev := 0 })
theorem wit_windowClose : (mWinSt 1).Inv ∧ (mWinSt 1).Admits vBlock F.WIN_CMD_OP.addr ∧ (mWinSt 1).winReach vBlock 9 = true ∧ ((mWinSt 1).win 9).state = 1 ∧ ((mWinSt 2).win 9).state ≠ 1 := by
  decide +kernel
theorem test_windowClose : ((after (.windowClose vBlock 9) (mWinSt 1)).win 9).state = 2 ∧ (after (.windowClose vBlock 9) (mWinSt 2)).getV vBlock F.WIN_CMD_STATUS_REASON = 2 := by decide +kernel
theorem test_windowRead : (after (.windowRead vBlock 9) (mWinSt 1)).getV vBlock F.WIN_ENTRY 0 = 0xFFFF0191 := by decide +kernel
def wc9 : WinClose := { window := 9, since := 0, via := some vBlock, steward := true }
def mClosing : Mach := (mWinSt 2).putWinCloses [wc9]
theorem wit_windowCloseComplete : mClosing.Inv ∧ mClosing.winCloses.find? (fun c => c.window == 9) = some wc9 ∧ mClosing.winWaits 9 = false ∧
    wc9.since + mClosing.leaseAt wc9.since ≤ (mClosing.advance 16000000000).now := by decide +kernel
/-- A message that came before the close waits. -/
def mClosingWait : Mach := (withPeat mClosing 0x100138 [5]).setLrx 4 { freshRx with msgs := [{ rm4 with window := 9 }] }
theorem wit_windowCloseComplete_waits : mClosingWait.Inv ∧ mClosingWait.winCloses.find? (fun c => c.window == 9) = some wc9 ∧ mClosingWait.winWaits 9 = true := by decide +kernel
theorem test_windowCloseComplete : ((after (.windowCloseComplete 0 9) mClosing).win 9).state = 0 ∧ ((after (.windowCloseComplete 0 9) mClosing).win 9).gen = 0 ∧
    ((after (.windowCloseComplete 0 9) mClosingWait).win 9).state = 2 := by decide +kernel
theorem test_windowCloseTimeout : ((after (.windowCloseTimeout 16000000000 9) mClosingWait).win 9).state = 0 ∧ (after (.windowCloseTimeout 1 9) mClosingWait).winCloses = [wc9] := by decide +kernel

/-! ## Churn -/

theorem wit_seedWrite : Mach.reset.Inv ∧ Mach.reset.Admits vBlock F.CHU_SEED_HI.addr ∧ Mach.reset.Admits { path := .fabric 0, page := none } F.CHU_SEED_HI.addr := by decide +kernel
theorem test_seedWrite : (after (.seedWrite vBlock 7) (((Mach.reset.setP .mgmt F.CHU_TILE_SEL_TILE 63).setReg (viaKey vBlock F.CHU_SEED_LO) 0).putShadow
    [(viaKey vBlock F.CHU_SEED_LO, 5)])).get64 F.CHU_SEED_LO 0 63 = 0x700000005 := by decide +kernel
/-- A launch of SEAL for herd 1 on tiles 2 and 9, its argument block at 0x4000 of Peat, its only stream Cream bytes 0 to 63. -/
def la (st : Nat) : Launch :=
  { uid := 4, sq := 3, herd := 1, asid := 0, entry := 11, sched := false, argSegs := [{ target := 0, port := 0, addr := 0x4000, va := 0x4000, len := 48 }]
    args := leBytes 16 1 ++ leBytes 8 64 ++ leBytes 8 5 ++ leBytes 8 0 ++ leBytes 8 64, state := st, mask := 0x204, owner := 0
    streams := [([{ target := 2, port := 0, addr := 0, va := 0, len := 64 }], 64)], cost := 65, seeds := [(0, 0), (0, 0)], readyAt := 0, since := 0, staged := [], done := 0, flags := 33
    kres := 0, again := false, fail := none }
def mCh (l : Launch) : Mach :=
  ((((((withPeat (Mach.reset.setSq 3 { sqBase with out := [{ uid := 4, index := 1, tag := 0x77, opcode := 0x28, comp := none }] }) 0x4000 (la 0).args).putChu
    { Mach.reset.chu with launches := [l] }).set F.CRM_GRAN_STATE 1 0 0).set F.CRM_GRAN_HERD 1 0 0).set F.CHU_TILE_STATUS_BUSY (if l.state = 2 then 1 else 0) 0 2).set
    F.CHU_TILE_STATUS_BUSY (if l.state = 2 then 1 else 0) 0 9).set F.CLK_DOM_STATUS_RUNNING 1 0 3 |>.set F.CLK_DOM_STATUS_RUNNING 1 0 4
theorem wit_churnCheckDetect : (mCh (la 2)).Inv ∧ (mCh (la 2)).Running ∧ (mCh (la 2)).launchOn 9 = some (la 2) ∧ (la 2).again = false ∧
    (after (.churnCheckDetect 0 9) (mCh (la 2))).srcState (srcTile 9) < 2 ∧ (mCh { la 2 with again := true }).launchOn 9 = some { la 2 with again := true } := by decide +kernel
theorem test_churnCheckDetect : (after (.churnCheckDetect 0 9) (mCh (la 2))).chu.launches.map (·.again) = [true] ∧
    (after (.churnCheckDetect 0 9) (mCh { la 2 with again := true })).chu.launches.map (fun l => (l.state, l.fail)) = [(3, some (0x71, 0))] := by decide +kernel
theorem test_tileSramEcc : (after (.tileSramEcc 0 9 100 false) (mCh (la 2))).get F.CHU_ECC_CORRECTED 0 9 = 1 ∧
    (after (.tileSramEcc 0 2 100 true) (mCh (la 2))).chu.launches.map (fun l => (l.state, l.fail)) = [(3, some (0x80, 0))] := by decide +kernel
theorem wit_tileSramScrub : (Mach.reset.set F.CHU_CTL_SCRUB_EN 1).Inv ∧ (Mach.reset.set F.CHU_CTL_SCRUB_EN 1).Running ∧ (Mach.reset.set F.CHU_CTL_SCRUB_EN 1).bit F.CHU_CTL_SCRUB_EN = true ∧
    (Mach.reset.set F.CHU_CTL_SCRUB_EN 1).bit F.CHU_TILE_STATUS_BUSY 0 63 = false := by decide +kernel
theorem test_tileSramScrub : (after (.tileSramScrub 0 63 1) (Mach.reset.set F.CHU_CTL_SCRUB_EN 1)).get F.CHU_ECC_CORRECTED 0 63 = 1 ∧
    alGet (after (.tileSramScrub 0 63 0) ((Mach.reset.set F.CHU_CTL_SCRUB_EN 1).putChu { Mach.reset.chu with scrub := [(63, 131071)] })).chu.scrub 63 = some 0 := by decide +kernel
def mClear : Mach :=
  { (Mach.reset.putChu { Mach.reset.chu with clears := [(9, 4096, 16)], sram := [(9, 4096, 8192, 1)] }).set F.CHU_TILE_STATUS_CLEARING 1 0 9 with
    tsram := [(9 * 2 ^ 20 + 4095, 1), (9 * 2 ^ 20 + 4096, 2), (9 * 2 ^ 20 + 4111, 3), (9 * 2 ^ 20 + 4112, 4)] }
theorem wit_tileSramClear : mClear.Inv ∧ mClear.Running ∧ mClear.chu.clears.find? (fun c => c.1 == 9) = some (9, 4096, 16) := by decide +kernel
theorem test_tileSramClear : (after (.tileSramClear 0 9) mClear).tsram.map (·.2) = [1, 4] ∧ (after (.tileSramClear 0 9) mClear).bit F.CHU_TILE_STATUS_CLEARING 0 9 = false := by
  decide +kernel
/-- Entry 70 is selected, and entry 71 holds a program of herd 1 in a state. -/
def pe (st : Nat) : ProgEnt := { herd := 1, state := st, image := [], bad := none }
def mPr (e : Nat) (ps : List (Nat × ProgEnt)) : Mach := (Mach.reset.setP .mgmt F.CHU_PROG_SEL_PROGRAM e).putChu { Mach.reset.chu with progs := ps }
theorem wit_programLoad : (mPr 70 []).Inv ∧ (mPr 70 []).Admits vBlock F.CHU_PROG_CMD_OP.addr ∧ (mPr 70 []).getV vBlock F.CHU_PROG_SEL_PROGRAM = 70 ∧ (mPr 70 []).prog 70 = none ∧
    (mPr 70 []).progBusy = false ∧ (mPr 3 []).getV vBlock F.CHU_PROG_SEL_PROGRAM = 3 ∧ (mPr 70 [(71, pe 1)]).progBusy = true := by decide +kernel
theorem test_programLoad : ((after (.programLoad vBlock 0x10000100) (mPr 70 [])).prog 70).map (fun x => (x.herd, x.state)) = some (1, 1) ∧
    (after (.programLoad vBlock 0x10000100) (mPr 3 [])).get F.CHU_PROG_STATUS_REASON 0 3 = 0x0C ∧
    (after (.programLoad vBlock 0x10000100) (mPr 70 [(71, pe 1)])).get F.CHU_PROG_STATUS_REASON 0 70 = 0x0B := by decide +kernel
theorem wit_programCheckComplete : (mPr 70 [(71, pe 1)]).Inv ∧ (mPr 70 [(71, pe 1)]).Running ∧ (mPr 70 [(71, pe 1)]).prog 71 = some (pe 1) ∧
    (mPr 70 [(71, pe 1)]).loadCheck 71 (pe 1) = some (1, 0x60) := by decide +kernel
theorem test_programCheckComplete : (after (.programCheckComplete 0 71) (mPr 70 [(71, pe 1)])).get F.CHU_PROG_STATUS_REASON 0 71 = 1 ∧
    (after (.programCheckComplete 0 71) (mPr 70 [(71, pe 1)])).chu.progs = [] := by decide +kernel
theorem wit_programUnload : (mPr 71 [(71, pe 2)]).Inv ∧ (mPr 71 [(71, pe 2)]).Admits vBlock F.CHU_PROG_CMD_OP.addr ∧ (mPr 71 [(71, pe 2)]).getV vBlock F.CHU_PROG_SEL_PROGRAM = 71 ∧
    (mPr 71 [(71, pe 2)]).prog 71 = some (pe 2) ∧ (mPr 71 [(71, pe 2)]).progBusy = false ∧ (mPr 71 [(71, pe 2)]).progNamed 71 = false ∧
    (mPr 71 [(71, pe 2)]).progRuns 71 = false := by decide +kernel
/-- A plan bank names the program of entry 71. -/
def mNamed : Mach := (mBank { pl0 with progs := [{ library := 0, herd := 1, digest := progDigest [], tiles := 4, owner := 1, shapeMax := [] }] } 3).putChu
  { Mach.reset.chu with progs := [(71, pe 2)] } |>.setP .mgmt F.CHU_PROG_SEL_PROGRAM 71
theorem wit_programUnload_named : mNamed.Inv ∧ mNamed.Admits vBlock F.CHU_PROG_CMD_OP.addr ∧ mNamed.getV vBlock F.CHU_PROG_SEL_PROGRAM = 71 ∧ mNamed.prog 71 = some (pe 2) ∧
    mNamed.progBusy = false ∧ mNamed.progNamed 71 = true := by decide +kernel
theorem test_programUnload : (after (.programUnload vBlock) (mPr 71 [(71, pe 2)])).chu.progs = [] ∧
    (after (.programUnload vBlock) mNamed).get F.CHU_PROG_STATUS_REASON 0 71 = 0x0C := by decide +kernel
def dLaunch : List Nat := [0xABCD00002801, 11 + 48 * 2 ^ 32, 0x4000, 0x204, 0, 0, 0, 0]
theorem wit_churnLaunch : (withDesc Mach.reset dLaunch).Inv ∧
    ((withDesc Mach.reset dLaunch).advance 32).Dispatches 3 (dsc dLaunch) ((withDesc Mach.reset dLaunch).progForeign 3 (dsc dLaunch)) ∧ (dsc dLaunch).opcode = 0x28 ∧
    (dsc dLaunch).target = 11 := by decide +kernel
/-- The descriptor stands in SQ 3 of a module whose tables map its argument block. -/
def mLaunch : Mach := mQ.setSq 3 { sqBase with fetched := [dsc dLaunch] }
theorem test_churnLaunch : (after (.churnLaunch 32 3) mLaunch).chu.launches.map (fun l => (l.entry, l.mask, l.state)) = [(11, 0x204, 0)] := by decide +kernel
theorem wit_launchArgsRead : (mCh (la 0)).Inv ∧ (mCh (la 0)).Running ∧ (mCh (la 0)).launch? 4 = some (la 0) ∧ (((mCh (la 0)).advance 0).readSegs (la 0).argSegs).2 = (la 0).args ∧
    ((((mCh (la 0)).advance 0).readSegs (la 0).argSegs).1.launchCheck (la 0) 48 (la 0).args).toOption.map (·.1) = some 0x204 ∧
    (((((mCh (la 0)).advance 0).readSegs (la 0).argSegs).1.streamChecks 1 0 (srcTile 2)
      ((((mCh (la 0)).advance 0).readSegs (la 0).argSegs).1.launchStreams 11 (la 0).args)).2.toOption = some (la 0).streams) ∧
    ((((mCh { la 0 with entry := 1 }).advance 0).readSegs (la 0).argSegs).1.launchCheck { la 0 with entry := 1 } 48 (la 0).args).toOption = none := by decide +kernel
theorem test_launchArgsRead : (after (.launchArgsRead 0 4) (mCh (la 0))).chu.launches.map (fun l => (l.state, l.cost)) = [(1, 65)] ∧
    (after (.launchArgsRead 0 4) (mCh { la 0 with entry := 1 })).get F.CHU_LAUNCH_REFUSE_REASON = 2 := by decide +kernel
theorem wit_launchStartUnscheduled : (mCh (la 1)).Inv ∧ (mCh (la 1)).launch? 4 = some (la 1) ∧ (mCh (la 1)).tilesFree (la 1).mask = true ∧ (mCh (la 1)).get F.CLK_STATUS_THROTTLE < 3 ∧
    (mCh (la 1)).chu.launches.takeWhile (fun x => x.uid != (la 1).uid) = [] ∧ Mach.tilesOf (la 1).mask = [2, 9] ∧
    ((mCh (la 1)).advance 0).tileUnreserved 2 (cycleUnits ((la 1).cost + recomputeCycles)) = true ∧ ((mCh (la 1)).advance 0).tileUnreserved 9 (cycleUnits ((la 1).cost + recomputeCycles)) = true ∧
    (∀ i ∈ [2, 9], (mCh (la 1)).bit F.CLK_DOM_STATUS_RUNNING 0 (3 + i / 8) = true ∧ (mCh (la 1)).sramClearing i = false ∧
      ((mCh (la 1)).advance 0).sramPlace (la 1) i ((mCh (la 1)).sramNeed (la 1)) = some (0, 0) ∧ (mCh (la 1)).sramForeign i 0 0 1 = false) := by decide +kernel
theorem test_launchStart : (after (.launchStartUnscheduled 0 4) (mCh (la 1))).chu.launches.map (fun l => (l.state, l.seeds)) = [(2, [(0, 0), (0, 0)])] ∧
    (after (.launchStartUnscheduled 0 4) (mCh (la 1))).get F.CHU_LAUNCH_CTR_L 0 9 = 1 ∧ (after (.launchStartUnscheduled 0 4) (mCh (la 1))).bit F.CHU_TILE_STATUS_BUSY 0 2 = true := by
  decide +kernel
/-- A plan in force gives owner 1 the tiles 2 and 9 for the first slots of every tide. -/
def laS : Launch := { la 1 with sched := true, owner := 1 }
def mSched : Mach := (mBank { pl0 with resvs := [{ type := 2, rversion := 1, owner := 1, herd := 1, start := 0, length := 4, period := 0, tphase := 0, amount := 0, units := 0x204 }] } 5).putChu
  { Mach.reset.chu with launches := [laS] } |>.set F.CLK_DOM_STATUS_RUNNING 1 0 3 |>.set F.CLK_DOM_STATUS_RUNNING 1 0 4
theorem wit_launchStartScheduled : mSched.Inv ∧ mSched.Running ∧ mSched.launch? 4 = some laS ∧ mSched.tilesFree laS.mask = true ∧ (mSched.advance (4 * slotUnits)).occurrenceOpens laS = true ∧
    (mSched.chu.launches.find? (fun x => x.sched && x.state == 1 && x.owner == laS.owner && x.entry == laS.entry)).map (fun x => x.uid) = some laS.uid ∧
    (∀ i ∈ Mach.tilesOf laS.mask, mSched.bit F.CLK_DOM_STATUS_RUNNING 0 (3 + i / 8) = true ∧ mSched.sramClearing i = false ∧
      (mSched.advance (4 * slotUnits)).sramPlace laS i (mSched.sramNeed laS) = some (0, 0) ∧ mSched.sramForeign i 0 0 1 = false) := by decide +kernel
theorem test_launchStartScheduled : (after (.launchStartScheduled (4 * slotUnits) 4) mSched).chu.launches.map (·.state) = [2] ∧
    (after (.launchStartScheduled (5 * slotUnits) 4) mSched).chu.launches.map (·.state) = [1] := by decide +kernel
/-- A launch of REDUCE_SCALE whose shapes are all 0. -/
def laK : Launch := { la 2 with entry := 1, args := [], streams := [] }
theorem wit_launchPassEnd : (mCh laK).Inv ∧ (mCh laK).launch? 4 = some laK ∧ ((Mach.kernelIn laK).run laK.done ((Mach.kernelIn laK).units - laK.done)).2 = none := by decide +kernel
/-- A launch of a user program with one Cream stream, of 64 bytes, that it writes. -/
def laU : Launch := { la 2 with entry := 70 }
def imgU : List Byte := leBytes 8 0x100000000000 ++ List.replicate 0x30 0 ++ leBytes 4 1 ++ leBytes 4 0x80 ++ List.replicate 0x40 0 ++
  leBytes 8 (3 + 1 * 2 ^ 16 + 0x90 * 2 ^ 32) ++ leBytes 8 8 ++ leBytes 8 (4 + 32 * 2 ^ 16 + 64 * 2 ^ 32)
def mUser : Mach := (mCh laU).putChu { (mCh laU).chu with progs := [(70, { pe 2 with image := imgU })] }
def passU : ProgPass := { writes := [(0, 8, [1, 2])], flags := 65, kresult := 9 }
theorem wit_launchPassEnd_user : mUser.Inv ∧ mUser.launch? 4 = some laU ∧
    (∀ w ∈ passU.writes, (nthD (mUser.launchStreams laU.entry laU.args) w.1 (false, false, false, 0, 0, 0)).2.2.1 = true ∧ w.2.1 + w.2.2.length ≤ (nthD laU.streams w.1 ([], 0)).2) := by
  decide +kernel
theorem test_launchPassEnd : (after (.launchPassEnd 0 4 0 true passU) mUser).cream = [(8, 1), (9, 2)] ∧
    (after (.launchPassEnd 0 4 0 true passU) mUser).chu.launches.map (fun l => (l.state, l.flags, l.kres)) = [(3, 33, 9)] ∧
    (after (.launchPassEnd 0 4 0 true passU) mUser).get F.CHU_EXC_INVALID 0 9 = 1 := by decide +kernel
theorem wit_launchBudgetExceeded : (la 2).since + cycleUnits ((la 2).cost + recomputeCycles) ≤ ((mCh (la 2)).advance 30000).now ∧ (mCh (la 2)).launch? 4 = some (la 2) := by decide +kernel
theorem test_launchBudgetExceeded : (after (.launchBudgetExceeded 26937 4) (mCh (la 2))).chu.launches.map (·.fail) = [none] ∧
    (after (.launchBudgetExceeded 26938 4) (mCh (la 2))).chu.launches.map (·.fail) = [some (0x71, 0)] := by decide +kernel
theorem wit_streamOverrun : 0 < (la 2).streams.length ∧ (nthD (la 2).streams 0 ([], 0)).2 ≤ 64 ∧ (mCh (la 2)).bit F.XLT_FAULT_INFO_VALID = false := by decide +kernel
theorem test_streamOverrun : (after (.streamOverrun 0 4 0 64) (mCh (la 2))).chu.launches.map (·.fail) = [some (0x10, 64)] ∧
    (after (.streamOverrun 0 4 0 63) (mCh (la 2))).chu.launches.map (·.state) = [2] := by decide +kernel
def mWrites : Mach := (mCh (la 3)).putMem { (mCh (la 3)).mem with writes := [{ id := 0, kind := 5, chan := 4, msg := 0, target := 0, port := 0 }] }
theorem wit_launchComplete : (mCh (la 3)).launch? 4 = some (la 3) ∧ (mCh (la 3)).landed 5 4 0 = true ∧ mWrites.Inv ∧ mWrites.Running ∧ mWrites.launch? 4 = some (la 3) ∧
    mWrites.landed 5 4 0 = false := by decide +kernel
theorem test_launchComplete : ((after (.launchComplete 0 4) ((mCh (la 3)).set F.CHU_CTL_EXC_EVENT 1)).sq 3).out.map (fun o => o.comp.map (fun c => (c.status, c.detail))) = [some (0, 33)] ∧
    (after (.launchComplete 0 4) ((mCh (la 3)).set F.CHU_CTL_EXC_EVENT 1)).evq.map (·.code) = [0x0600] := by decide +kernel

/-! ## Collectives -/

/-- Dynamic group 5 of herd 1, member 1 of 3 between modules 7 and 8, in place. -/
def gd : GroupRec :=
  { group := 5, herd := 1, inPlace := true, members := 3, rank := 1, predModule := 7, succModule := 8, fwdLode := 0, backLode := 0, credits := 4, timeoutMs := 2, hop := 0,
    maxBytes := 4096, keepBase := 0, keepAsid := 0, owner := 0 }
def gx : Grp := freshGrp gd true 1
def mG (x : Grp) : Mach := mQ.setGrp 5 x
/-- A COLL_START of an operation on group 5: 48 bytes of FP32 at 0x40000, to 0x50000, generation 0, root 1. -/
def dColl (op : Nat) : List Nat := [0xABCD00002001, 5 + 48 * 2 ^ 32, 0x40000, 0x50000, op + 1 * 256, if op = 0x7F then 3 else 1, 0xFF, 0]
def mStart (op : Nat) (x : Grp) : Mach := (mG x).setSq 3 { sqBase with fetched := [dsc (dColl op)] }
theorem wit_collStart : (mStart 1 gx).Inv ∧ ((mStart 1 gx).advance 32).Dispatches 3 (dsc (dColl 1)) ((mStart 1 gx).collForeign 3 (dsc (dColl 1))) ∧ (dsc (dColl 1)).opcode = 0x20 ∧
    (dsc (dColl 1)).bits 4 0 8 = 1 ∧ (mStart 1 gx).grp? (dsc (dColl 1)).target = some gx ∧ gx.gens = [] ∧ gx.early = [] ∧ gx.held = [] ∧
    (dsc (dColl 1)).bits 4 32 32 = (mStart 1 gx).get F.COLL_GEN_NEXT 0 5 ∧ (mStart 1 gx).startBad gx 1 1 1 0 48 = false ∧
    (((mStart 1 gx).advance 32).tile 1 0 accRead srcColl 0x40000 48).2.toOption = some [{ target := 0, port := 0, addr := 0x40000, va := 0x40000, len := 48 }] ∧
    ((((mStart 1 gx).advance 32).tile 1 0 accRead srcColl 0x40000 48).1.tile 1 0 accWrite srcColl 0x50000 (Mach.dstBytes gx 1 48 1)).2.toOption.isSome = true := by decide +kernel
theorem test_allReduce : ((after (.allReduce 32 3) (mStart 1 gx)).grp? 5).map (fun x => x.gens.map (fun y => (y.state, y.avail.map (fun a => (a.1, a.2.1, a.2.2.length))))) =
    some [(1, [(0, 0, 16)])] := by decide +kernel
theorem test_reduceScatter : ((after (.reduceScatter 32 3) (mStart 2 gx)).grp? 5).map (fun x => x.gens.map (fun y => (y.state, y.need))) = some [(1, 32)] := by decide +kernel
theorem test_allGather : ((after (.allGather 32 3) (mStart 3 gx)).grp? 5).map (fun x => x.gens.map (fun y => (y.state, y.need))) = some [(1, 96)] := by decide +kernel
theorem wit_broadcast : ((mStart 4 gx).advance 32).Dispatches 3 (dsc (dColl 4)) ((mStart 4 gx).collForeign 3 (dsc (dColl 4))) ∧ (dsc (dColl 4)).bits 5 0 10 = gx.def'.rank ∧
    (mStart 4 gx).startBad gx 4 1 1 0 48 = false := by decide +kernel
theorem test_broadcast : ((after (.broadcast 32 3) (mStart 4 gx)).grp? 5).map (fun x => x.gens.map (fun y => (y.state, y.dst, y.avail.map (fun a => (a.1, a.2.2.length))))) =
    some [(1, [], [(0, 48)])] := by decide +kernel
theorem wit_collStart_fails : (mQ.setSq 3 { sqBase with fetched := [dsc (dColl 2)] }).Inv ∧
    ((mQ.setSq 3 { sqBase with fetched := [dsc (dColl 2)] }).advance 32).Dispatches 3 (dsc (dColl 2)) ((mQ.setSq 3 { sqBase with fetched := [dsc (dColl 2)] }).collForeign 3 (dsc (dColl 2))) ∧
    (mQ.setSq 3 { sqBase with fetched := [dsc (dColl 2)] }).grp? 5 = none ∧ (mStart 1 { gx with broken := true }).grp? 5 = some { gx with broken := true } ∧
    ((mStart 1 gx).set F.COLL_GEN_NEXT 1 0 5).get F.COLL_GEN_NEXT 0 5 ≠ (dsc (dColl 1)).bits 4 32 32 := by decide +kernel
/-- The blocks of a fused start at 0x60000: REDUCE_SCATTER_ADAM with five empty streams, the first in Cream. -/
def mAdam : Mach := (((mStart 0x11 gx).set F.CLK_BOOT_STEP 11).set F.CRM_GRAN_STATE 1 0 0).set F.CRM_GRAN_HERD 1 0 0
def dAdam : List Nat := [0xABCD00002001, 5 + 48 * 2 ^ 32, 0x40000, 0, 0x11 + 1 * 256, 0x60000, 0xFF, 0]
def mAdam' : Mach := mAdam.setSq 3 { sqBase with fetched := [dsc dAdam] }
theorem wit_reduceScatterAdam : mAdam'.Inv ∧ (mAdam'.advance 32).Dispatches 3 (dsc dAdam) (mAdam'.collForeign 3 (dsc dAdam)) ∧ (dsc dAdam).length ≠ 0 ∧
    (((mAdam'.advance 32).fusedBlocks 1 0 0x11 0x60000).2.toOption.isSome = true) ∧
    ((((mAdam'.advance 32).fusedBlocks 1 0 0x11 0x60000).1.tile 1 0 accRead srcColl 0x40000 48).2.toOption.isSome = true) ∧ mAdam'.startBad gx 0x11 1 1 0 48 = false := by decide +kernel
theorem test_reduceScatterAdam : ((after (.reduceScatterAdam 32 3) mAdam').grp? 5).map (fun x => x.gens.map (fun y => (y.op, y.state))) = some [(0x11, 1)] := by decide +kernel
def dLow : List Nat := [0xABCD00002001, 5, 0, 0, 0x10, 0x60000, 0xFF, 0]
/-- The compress block at 0x60000 is of 64 and 80 bytes, the expand block of 64 and 48; DTYPE is FP32, every shape 0. -/
def mLow : Mach := withPeat (mAdam.setSq 3 { sqBase with fetched := [dsc dLow] }) 0x60030 [1]
theorem wit_allReduceLowrank : mLow.Inv ∧ (mLow.advance 32).Dispatches 3 (dsc dLow) (mLow.collForeign 3 (dsc dLow)) ∧
    ((mLow.advance 32).fusedBlocks 1 0 0x10 0x60000).2.toOption.map (fun a => (a.1.length, a.2.length)) = some (256, 8) ∧
    (((mLow.advance 32).fusedBlocks 1 0 0x10 0x60000).2.toOption.map (fun a => mLow.startBad gx 0x10 (Mach.argScalar a.1 4 % 2 ^ 32) (Mach.argScalar a.1 4 % 2 ^ 32) 0
      (packedBytes (Mach.argScalar a.1 4 % 2 ^ 32) (Mach.argScalar a.1 0 % 2 ^ 32 * (Mach.argScalar a.1 2 % 2 ^ 32))))) = some false := by decide +kernel
theorem test_allReduceLowrank : ((after (.allReduceLowrank 32 3) mLow).grp? 5).map (fun x => x.gens.map (fun y => y.op)) = some [0x10] := by decide +kernel
/-- A revoked generation 3, and one that runs. -/
def gen3 (op st : Nat) : Gen :=
  { gen := 3, op := op, dtype := 1, wire := 1, mode := 0, scale := 0, len := 48, root := 0, rerun := none, sq := 3, uid := 4, asid := 0, state := st, given := false
    src := [{ target := 0, port := 0, addr := 0x40000, va := 0x40000, len := 48 }], curd := none, whey := none, dst := [{ target := 0, port := 0, addr := 0x50000, va := 0x50000, len := 48 }],
    out := [], args := [], streams := [], avail := [], recv := 0, need := 32, expanded := false, confirm := false, began := 0, again := false }
theorem wit_rerun : (mStart 0x7F { gx with gens := [gen3 1 4] }).Inv ∧
    ((mStart 0x7F { gx with gens := [gen3 1 4] }).advance 32).Dispatches 3 (dsc (dColl 0x7F)) ((mStart 0x7F { gx with gens := [gen3 1 4] }).collForeign 3 (dsc (dColl 0x7F))) ∧
    (mStart 0x7F { gx with gens := [gen3 1 4] }).grp? 5 = some { gx with gens := [gen3 1 4] } ∧ (gen3 1 4).gen = (dsc (dColl 0x7F)).bits 5 0 32 ∧
    (((mStart 0x7F { gx with gens := [gen3 1 4] }).advance 32).tile 1 0 accWrite srcColl 0x50000 (Mach.dstBytes gx 1 48 1)).2.toOption.isSome = true := by decide +kernel
theorem test_rerun : ((after (.rerun 32 3) (mStart 0x7F { gx with gens := [gen3 1 4] })).grp? 5).map (fun x => x.gens.map (fun y => (y.gen, y.state, y.rerun))) =
    some [(3, 4, none), (0, 1, some 3)] := by decide +kernel
theorem wit_dynChunkSend : (mG { gx with due := true, freed := 2 }).Inv ∧ (mG { gx with due := true, freed := 2 }).Running ∧ Mach.dynReady { gx with due := true, freed := 2 } = true ∧
    (mG { gx with due := true, freed := 2 }).grp? 5 = some { gx with due := true, freed := 2 } ∧
    (∀ p ∈ (mG { gx with due := true, freed := 2 }).coll.groups, p.1 = 5) ∧ Mach.dynReady gx = false := by decide +kernel
theorem test_dynChunkSend : (after (.dynChunkSend 0 5) (mG { gx with due := true, freed := 2 })).beq.dyn.map (fun f => (f.1, f.2.back, f.2.credit)) = [(7, true, 2)] ∧
    (after (.dynChunkSend 0 5) (mG { gx with gens := [{ gen3 1 1 with avail := [(0, 0, [1, 2, 3, 4])] }] })).beq.dyn.map
      (fun f => (f.1, f.2.seq, f.2.pieces.map (fun p => (p.gen, p.data)))) = [(8, 0, [(3, [1, 2, 3, 4])])] := by decide +kernel
def cf (tok : Nat) (ps : List Piece) : ChunkFrame :=
  { dynamic := true, back := false, dstLode := 5, seq := 0, group := 5, pieces := ps, token := tok, tokenGen := 3, credit := 0, ack := 2 ^ 32 - 1, cipher := none }
def gUn (tries : Nat) : Grp := { gx with succ := { gx.succ with unacked := [(cf 1 [], 0, tries)] } }
theorem wit_dynChunkRto : (mG (gUn 1)).Inv ∧ (mG (gUn 1)).Running ∧ (mG (gUn 1)).grp? 5 = some (gUn 1) ∧
    0 + (mG (gUn 1)).get F.BEQ_RTX_RTO_MIN * us * 2 ^ 1 ≤ ((mG (gUn 1)).advance (4096 * us)).now ∧ 1 < (mG (gUn 1)).get F.BEQ_RTX_RETRY ∧
    ((mG (gUn 1)).set F.BEQ_RTX_RETRY 1).get F.BEQ_RTX_RETRY ≤ 1 := by decide +kernel
theorem test_dynChunkRto : (after (.dynChunkRto (4096 * us) 5 false) (mG (gUn 1))).beq.dyn.map (·.1) = [8] ∧
    ((after (.dynChunkRto (4096 * us) 5 false) ((mG (gUn 1)).set F.BEQ_RTX_RETRY 1)).grp? 5).map (·.broken) = some true := by decide +kernel
def beOf (c : ChunkFrame) : Nat × BeFrame :=
  (2, { dest := some 0, bytes := 114, epoch := 0, pcp := 0, path := 0, ect := false, body := .chunk c })
def mCf (x : Grp) (c : ChunkFrame) : Mach := (mG x).putRte { (mG x).rte with here := [beOf c] }
def pc (crc : Nat) : Piece := { gen := 3, step := 0, offset := 0, crc := crc, data := leBytes 4 0x3F800000 }
def goodCrc : Nat := KIn.sealCrc (leBytes 4 0x3F800000) 3 % 2 ^ 32
def gRun (op st : Nat) : Grp := { gx with gens := [gen3 op st] }
theorem wit_chunkFrameReceived : (mCf (gRun 1 1) (cf 0 [pc 0])).Inv ∧ (mCf (gRun 1 1) (cf 0 [pc 0])).Running ∧
    ((mCf (gRun 1 1) (cf 0 [pc 0])).advance 0).takeChunk.map (fun x => (x.1, x.2.1)) = some (cf 0 [pc 0], none) ∧ goodCrc ≠ 0 ∧ (cf 0 [pc 0]).seq = (gRun 1 1).pred.rx ∧
    seqLe (gRun 1 1).pred.rx 0 = true ∧ seqLe 1 (cf 0 [pc 0]).seq = false ∧ Mach.gen? (gRun 1 1) 3 = some (gen3 1 1) ∧ (pc 0).step + 2 ≤ gd.members ∧
    gd.members ≤ ({ pc goodCrc with step := 2 } : Piece).step + 1 ∧ ({ pc goodCrc with step := 2 } : Piece).step + 3 ≤ 2 * gd.members := by decide +kernel
theorem test_chunkFrameReceived : (after (.chunkFrameReceived 0) (mCf (gRun 1 1) (cf 0 [pc 0]))).get F.COLL_CRC_FAIL 0 5 = 1 ∧
    ((after (.chunkFrameReceived 0) (mCf (gRun 3 1) (cf 0 [{ pc goodCrc with step := 2 }]))).rdBytes .peat 0x50000 4 = leBytes 4 0x3F800000) := by decide +kernel
theorem test_chunkFrameReceived_unknown : (after (.chunkFrameReceived 0) (mCf (gRun 1 1) { cf 0 [pc 0] with group := 6 })).get F.BEQ_DROP = 1 := by decide +kernel
/-- A partial sum of 1.0 and the own 1.0 of segment 2 become 2.0, which goes on as step 1. -/
theorem test_chunkFrameReceived_add : ((after (.chunkFrameReceived 0) (withPeat (mCf (gRun 1 1) (cf 0 [pc goodCrc])) 0x40020 (leBytes 4 0x3F800000))).grp? 5).map
    (fun x => x.gens.map (fun y => (y.recv, y.avail.map (fun a => (a.1, a.2.1, leNat a.2.2))))) = some [(4, [(1, 0, 0x40000000)])] := by decide +kernel
theorem wit_tokens : ((mCf (gRun 1 3) (cf 2 [])).advance 0).takeChunk.map (fun x => (x.1, x.2.1)) = some (cf 2 [], none) ∧ Mach.gen? (gRun 1 3) (cf 2 []).tokenGen = some (gen3 1 3) ∧
    (gen3 1 3).whey = none ∧ (gen3 1 3).rerun = none ∧ gd.rank ≠ 0 := by decide +kernel
theorem test_tokens : (after (.chunkFrameReceived 0) (mCf (gRun 1 3) (cf 2 []))).get F.COLL_GEN_SEALED 0 5 = 3 ∧
    (after (.chunkFrameReceived 0) (mCf (gRun 1 3) (cf 2 []))).evq.map (fun e => (e.code, e.dest)) = [(0x0700, 1)] ∧
    (after (.chunkFrameReceived 0) (mCf (gRun 1 3) (cf 3 []))).get F.COLL_REVOKES 0 5 = 1 ∧
    ((after (.chunkFrameReceived 0) (mCf (gRun 1 3) (cf 1 []))).grp? 5).map (·.fwdTokens) = some [(1, 3)] ∧
    ((after (.chunkFrameReceived 0) (mCf (gRun 1 3) (cf 4 []))).grp? 5).map (·.broken) = some true := by decide +kernel
/-- A chunk frame of a scheduled group, over endpoint 4. -/
def cfS : ChunkFrame := { cf 0 [pc 0] with dynamic := false, dstLode := 4 }
def mCfS (x : LodeRx) : Mach := ((mIn x).setGrp 5 { gRun 1 1 with dynamic := false, def' := { gd with predModule := li4.srcModule } }).putLode
  { (mIn x).lode with here := [{ port := 2, frame := { shadow := false, epoch := 1, dstModule := 0, tailOk := true, body := .chunk cfS }, at' := 0 }] }
theorem wit_chunkSched : (mCfS { freshRx with lowest := 9 }).Inv ∧ (mCfS freshRx).Running ∧
    ((mCfS { freshRx with lowest := 9 }).advance 0).takeChunk.map (fun x => (x.1, x.2.1)) = some (cfS, some false) ∧ (mCfS { freshRx with lowest := 9 }).inRec 4 = some li4 ∧
    seqLe ((mCfS { freshRx with lowest := 9 }).lrx 4).lowest cfS.seq = false ∧ ((mCfS freshRx).dropGrp 5).grp? 5 = none ∧
    (((mCfS freshRx).dropGrp 5).advance 0).takeChunk.map (fun x => (x.1, x.2.1)) = some (cfS, some false) := by decide +kernel
theorem test_chunkSched : (after (.chunkFrameReceived 0) (mCfS { freshRx with lowest := 9 })).get F.SLU_LODE_DUP = 1 ∧
    (after (.chunkFrameReceived 0) ((mCfS freshRx).dropGrp 5)).get F.SLU_LODE_UNKNOWN = 1 ∧
    (after (.chunkFrameReceived 0) (mCfS freshRx)).get F.COLL_CRC_FAIL 0 5 = 1 := by decide +kernel
theorem wit_generationDelivered : (mG { gx with gens := [{ gen3 1 1 with recv := 32 }] }).Inv ∧ (mG { gx with gens := [{ gen3 1 1 with recv := 32 }] }).Running ∧
    (mG { gx with gens := [{ gen3 1 1 with recv := 32 }] }).genLanded 5 3 = true ∧ (gen3 1 1).need ≤ 32 ∧
    (mG (gRun 0x11 5)).grp? 5 = some (gRun 0x11 5) ∧ (mG (gRun 0x11 5)).genLanded 5 3 = true ∧
    ((mG (gRun 1 1)).putMem { (mG (gRun 1 1)).mem with writes := [{ id := 0, kind := 7, chan := 5, msg := 3, target := 0, port := 0 }] }).genLanded 5 3 = false := by decide +kernel
def mDeliver (x : Grp) : Mach := (mG x).setSq 3 { sqBase with out := [{ uid := 4, index := 1, tag := 0x77, opcode := 0x20, comp := none }] }
theorem test_generationDelivered : ((after (.generationDelivered 0 5 3) (mDeliver { gx with gens := [{ gen3 1 1 with recv := 32 }] })).sq 3).out.map
      (fun o => o.comp.map (fun c => (c.status, c.bytes, c.detail))) = [some (1, 48, 0x500000003)] ∧
    ((after (.generationDelivered 0 5 3) (mDeliver (gRun 0x11 5))).sq 3).out.map (fun o => o.comp.map (fun c => c.status)) = [some 0] := by decide +kernel
theorem wit_groupTimeout : (mG (gRun 1 1)).Inv ∧ (mG (gRun 1 1)).Running ∧ (mG (gRun 1 1)).grp? 5 = some (gRun 1 1) ∧
    max (gen3 1 1).began (gRun 1 1).heard + (mG (gRun 1 1)).groupTimeoutUnits (gRun 1 1) ≤ ((mG (gRun 1 1)).advance (2 * ms)).now ∧
    ((mG (gRun 1 1)).advance (2 * ms - 1)).now < max (gen3 1 1).began (gRun 1 1).heard + (mG (gRun 1 1)).groupTimeoutUnits (gRun 1 1) := by decide +kernel
theorem test_groupTimeout : ((after (.groupTimeout (2 * ms) 5) (mG (gRun 1 1))).grp? 5).map (·.broken) = some true ∧
    ((after (.groupTimeout (2 * ms - 1) 5) (mG (gRun 1 1))).grp? 5).map (·.broken) = some false := by decide +kernel
def tileMsg (va : Nat) : QpMsg := { Mach.qpMsgOf (dsc dSend) 3 4 .send with va := va, segs := none }
/-- A message of queue pair 12 waits for its tile at an address that herd 1 maps, or at one beyond its tables. -/
def mTile (va : Nat) : Mach := (mQ.set F.BEQ_QP_CFG (1 + 3 * 65536) 0 12).setQp 12
  { freshQp with msgs := [tileMsg va], bufs := [{ sq := 3, uid := 4, va := va, asid := 0, len := 8, segs := none }] } |>.setSq 3
  { sqBase with out := [{ uid := 4, index := 1, tag := 0x77, opcode := 0x10, comp := none }] }
theorem wit_transferTileChecked : (mTile 0x4000).Inv ∧ (mTile 0x4000).Running ∧ ((mTile 0x4000).qp 12).msgs.find? (fun g => g.segs.isNone) = some (tileMsg 0x4000) ∧
    (((mTile 0x4000).advance 0).tile ((mTile 0x4000).qpHerd 12) (tileMsg 0x4000).asid accRead srcBeq 0x4000 8).2.toOption.isSome = true ∧
    (((mTile (2 ^ 57)).advance 0).tile ((mTile (2 ^ 57)).qpHerd 12) (tileMsg (2 ^ 57)).asid accRead srcBeq (2 ^ 57) 8).2.toOption.isSome = false ∧
    ((mTile 0x4000).qp 12).bufs.find? (fun b => b.segs.isNone) = some { sq := 3, uid := 4, va := 0x4000, asid := 0, len := 8, segs := none } ∧
    (((mTile 0x4000).advance 0).tile ((mTile 0x4000).sqHerd 3) 0 accWrite srcBeq 0x4000 8).2.toOption.isSome = true := by decide +kernel
theorem test_transferTileChecked : ((after (.transferTileChecked 0 0 12) (mTile 0x4000)).qp 12).msgs.map (fun g => g.segs.map (fun l => l.map (fun x => (x.addr, x.len)))) = [some [(0x4000, 8)]] ∧
    ((after (.transferTileChecked 0 0 12) (mTile (2 ^ 57))).sq 3).out.map (fun o => o.comp.map (fun c => c.status)) = [some 0x10] ∧
    ((after (.transferTileChecked 0 1 12) (mTile 0x4000)).qp 12).bufs.map (fun b => b.segs.isSome) = [true] := by decide +kernel
/-- COLL_DYN of the steward stages group 5 of herd 1, which may have one group and has two granules of Cream. -/
def mCmd : Mach :=
  ((((((((((Mach.reset.setV vBlock F.COLL_DYN (5 + 1 * 65536) 0).setV vBlock F.COLL_DYN (3 + 1 * 65536) 1).setV vBlock F.COLL_DYN (7 + 8 * 65536) 2).setV vBlock F.COLL_DYN (4 + 1 * 65536) 3).setV
    vBlock F.COLL_DYN 4096 4).setGranted 1 resGroups 1).set F.CRM_GRAN_STATE 1 0 0).set F.CRM_GRAN_HERD 1 0 0).set F.CRM_GRAN_STATE 1 0 1).set F.CRM_GRAN_HERD 1 0 1).setV vBlock
    F.COLL_SEL_GROUP 5 |>.setV vBlock F.COLL_GEN_ARG 3
theorem wit_collCreate : mCmd.Inv ∧ mCmd.Admits vBlock F.COLL_CMD_OP.addr ∧ (mCmd.stagedGroup vBlock).1.group = 5 ∧ (mCmd.stagedGroup vBlock).2 = 1 ∧ mCmd.grp? 5 = none ∧
    mCmd.roomFor 1 resGroups 1 = true ∧ (mCmd.stagedGroup vBlock).1.members = 3 ∧ (mCmd.stagedGroup vBlock).1.rank = 1 ∧ (mCmd.stagedGroup vBlock).1.credits = 4 ∧
    (mCmd.stagedGroup vBlock).1.maxBytes = 4096 ∧ 4 * 16384 ≤ mCmd.creamFree 1 ∧ ((mCmd.setGrp 5 gx).grp? 5).isSome = true ∧
    (mCmd.setGranted 1 resGroups 0).roomFor 1 resGroups 1 = false := by decide +kernel
theorem test_collCreate : ((after (.collCreate vBlock) mCmd).grp? 5).map (fun x => (x.def'.members, x.dynamic, x.weight)) = some (3, true, 1) ∧
    (after (.collCreate vBlock) (mCmd.setGrp 5 gx)).getV vBlock F.COLL_CMD_STATUS_REASON = 1 ∧
    (after (.collCreate vBlock) (mCmd.set F.CRM_GRAN_STATE 0 0 0 |>.set F.CRM_GRAN_STATE 0 0 1)).getV vBlock F.COLL_CMD_STATUS_REASON = 4 := by decide +kernel
def mCmdG (x : Grp) : Mach := (mCmd.setGrp 5 x).setUsed 1 resGroups 1
theorem wit_collDestroy : (mCmdG gx).Inv ∧ (mCmdG gx).Admits vBlock F.COLL_CMD_OP.addr ∧ (mCmdG gx).getV vBlock F.COLL_SEL_GROUP = 5 ∧ (mCmdG gx).grp? 5 = some gx ∧ gx.dynamic = true ∧
    0 < (mCmdG gx).used 1 resGroups ∧ (mCmdG { gx with dynamic := false }).grp? 5 = some { gx with dynamic := false } ∧ mCmd.getV vBlock F.COLL_SEL_GROUP = 5 := by decide +kernel
theorem test_collDestroy : (after (.collDestroy vBlock) (mCmdG gx)).coll.groups.length = 0 ∧ (after (.collDestroy vBlock) (mCmdG gx)).used 1 resGroups = 0 ∧
    (after (.collDestroy vBlock) (mCmdG { gx with dynamic := false })).getV vBlock F.COLL_CMD_STATUS_REASON = 6 ∧
    (after (.collDestroy vBlock) mCmd).getV vBlock F.COLL_CMD_STATUS_REASON = 2 := by decide +kernel
theorem test_collReset : ((after (.collReset vBlock) (mCmdG { gx with broken := true })).grp? 5).map (·.broken) = some false ∧
    (after (.collReset vBlock) (mCmdG { gx with broken := true })).get F.COLL_GEN_NEXT 0 5 = 3 := by decide +kernel
theorem wit_collRelease : (mCmdG (gRun 1 4)).Inv ∧ (mCmdG (gRun 1 4)).grp? 5 = some (gRun 1 4) ∧ Mach.gen? (gRun 1 4) ((mCmdG (gRun 1 4)).getV vBlock F.COLL_GEN_ARG) = some (gen3 1 4) ∧
    Mach.gen? (gRun 1 3) ((mCmdG (gRun 1 3)).getV vBlock F.COLL_GEN_ARG) = some (gen3 1 3) := by decide +kernel
theorem test_collRelease : ((after (.collRelease vBlock) (mCmdG (gRun 1 4))).grp? 5).map (fun x => x.gens.length) = some 0 ∧
    (after (.collRelease vBlock) (mCmdG (gRun 1 3))).getV vBlock F.COLL_CMD_STATUS_REASON = 8 := by decide +kernel
/-- Group 5 is scheduled and runs on tiles 2 and 9. -/
def mDet (again : Bool) : Mach := mSched.setGrp 5 { gx with dynamic := false, def' := { gd with owner := 1 }, gens := [{ gen3 1 1 with again := again }] } |>.putChu Mach.reset.chu
theorem wit_churnCheckDetect_coll : (mDet false).Inv ∧ (mDet false).Running ∧ (mDet false).launchOn 9 = none ∧
    ((mDet false).coll.groups.find? (fun p => !p.2.dynamic && ((mDet false).grpTiles p.2).contains 9 && p.2.gens.any (fun y => y.state == 1))).map (·.1) = some 5 ∧
    ((mDet false).grp? 5).isSome = true := by decide +kernel
theorem test_churnCheckDetect_coll : (after (.churnCheckDetect 0 9) (mDet false)).get F.CHU_RESIDUE_RECOMPUTED 0 9 = 1 ∧
    (after (.churnCheckDetect 0 9) (mDet true)).get F.COLL_REVOKES 0 5 = 1 := by decide +kernel

/-! ## Stores -/

/-- The steward has selected granule 8 and staged an entry of herd 1, which may have three granules; the table's copy begins at granule 16. -/
def mGr (stage share : Nat) : Mach :=
  (((Mach.reset.setP .mgmt F.PEAT_GRAN_SEL_GRANULE 8).setP .mgmt F.PEAT_GRAN_STAGE stage).setGranted 1 resPeat share).putMem { Mach.reset.mem with granCopy := some 16 }
theorem wit_peatGranuleAssign : (mGr 0x1F01 3).Inv ∧ (mGr 0x1F01 3).Steward .mgmt F.PEAT_GRAN_CMD_OP.addr ∧ (mGr 0x1F01 3).bit F.PEAT_CMD_STATUS_BUSY = false ∧
    (mGr 0x1F01 3).getP .mgmt F.PEAT_GRAN_SEL_GRANULE = 8 ∧ 8 + 3 ≤ (mGr 0x1F01 3).peatGranules ∧ (granOf ((mGr 0x1F01 3).getP .mgmt F.PEAT_GRAN_STAGE)).herd = 1 ∧
    (granOf ((mGr 0x1F01 3).getP .mgmt F.PEAT_GRAN_STAGE)).crypt = false ∧ (mGr 0x1F01 3).roomFor 1 resPeat 3 = true ∧
    (∀ i, i < 3 → ((mGr 0x1F01 3).gran (8 + i)).state = 0 ∧ ((mGr 0x1F01 3).gran (8 + i)).resv = false) ∧ (mGr 0x1F01 0).roomFor 1 resPeat 1 = false := by decide +kernel
theorem test_peatGranuleAssign : (after (.peatGranuleAssign .mgmt 3) (mGr 0x1F01 3)).get F.PEAT_GRAN 0 10 = 0x40001F01 ∧
    (after (.peatGranuleAssign .mgmt 3) (mGr 0x1F01 3)).rdBytes .peat (2 ^ 25 + 40) 8 = leBytes 8 0x40001F01 ∧
    (after (.peatGranuleAssign .mgmt 3) (mGr 0x1F01 2)).get F.PEAT_CMD_STATUS_REASON = 3 ∧ (after (.peatGranuleAssign .mgmt 3) (mGr 0x1F01 2)).get F.PEAT_CMD_STATUS_AT = 10 := by
  decide +kernel
/-- Key page 4 is a page of herd 1 for stores. -/
def mGrKey : Mach := (((mGr 0x08041F01 3).set F.CIPH_PAGE_STATUS_STATE 2 0 4).set F.CIPH_PAGE_STATUS_HERD 1 0 4).set F.CIPH_PAGE_STATUS_KIND 2 0 4
theorem wit_peatGranuleAssign_crypt : mGrKey.Inv ∧ mGrKey.Steward .mgmt F.PEAT_GRAN_CMD_OP.addr ∧ (granOf (mGrKey.getP .mgmt F.PEAT_GRAN_STAGE)).crypt = true ∧
    (granOf (mGrKey.getP .mgmt F.PEAT_GRAN_STAGE)).keyPage = 4 ∧ mGrKey.bit F.ID_CAP0_PEAT_CRYPT = true ∧ mGrKey.keyState 4 ≠ 0 ∧ (mGrKey.gran 8).state = 0 ∧
    mGrKey.roomFor 1 resPeat 1 = true := by decide +kernel
theorem test_peatGranuleAssign_crypt : ((after (.peatGranuleAssign .mgmt 0) mGrKey).gran 8).state = 2 ∧ (after (.peatGranuleAssign .mgmt 0) (mGr 0x08041F01 3)).get F.PEAT_CMD_STATUS_REASON = 6 := by
  decide +kernel
def mGrHeld (w : Nat) : Mach := (mGr 0 0).set F.PEAT_GRAN w 0 8
theorem wit_peatGranuleRelease : (mGrHeld 0x40001F01).Inv ∧ ((mGrHeld 0x40001F01).gran 8).state = 1 ∧ ((mGrHeld 0x40001F01).gran 8).resv = false ∧
    ((mGrHeld 0x40001F01).gran 8).mirror = false ∧ ((mGrHeld 0x60000000).gran 8).resv = true := by decide +kernel
theorem test_peatGranuleRelease : ((after (.peatGranuleRelease .mgmt 1) (mGrHeld 0x40001F01)).gran 8).state = 2 ∧
    (after (.peatGranuleRelease .mgmt 1) (mGrHeld 0x60000000)).get F.PEAT_CMD_STATUS_REASON = 4 := by decide +kernel
def mGrClear (assign : Bool) : Mach :=
  (withPeat (((mGrHeld 0x80001F01).setPeatJob (some { lo := 8, hi := 9, refused := false, assign := assign })).set F.PEAT_CMD_STATUS_BUSY 1) (8 * 2 ^ 21 + 5) [7]).set F.CLK_BOOT_STEP 11
theorem wit_granuleClearDone : (mGrClear false).Inv ∧ ((mGrClear false).gran 8).state = 2 ∧ 8 ≤ (mGrClear false).get F.CLK_BOOT_STEP ∧ (mGrClear false).cfg.hold = false ∧
    (mGrClear false).mem.granCopy = some 16 ∧ (8 + 1) * 2 ^ 21 ≤ 16 * 2 ^ 21 + 4 * 8 ∧ (((mGrClear false).listed F.PEAT_GRAN.addr).map (·.1)) = [8] := by decide +kernel
theorem test_granuleClearDone : ((after (.granuleClearDone 0 false 8) (mGrClear false)).gran 8).state = 0 ∧ ((after (.granuleClearDone 0 false 8) (mGrClear true)).gran 8).state = 1 ∧
    memGet (after (.granuleClearDone 0 false 8) (mGrClear false)).peat (8 * 2 ^ 21 + 5) = 0 ∧ (after (.granuleClearDone 0 false 8) (mGrClear true)).bit F.PEAT_CMD_STATUS_DONE = true := by
  decide +kernel
def mCr (share : Nat) : Mach := (Mach.reset.setP .mgmt F.CRM_GRAN_SEL_GRANULE 3071).setGranted 1 resCream share
theorem wit_creamGranuleAssign : (mCr 1).Inv ∧ (mCr 1).Steward .mgmt F.CRM_GRAN_CMD_OP.addr ∧ (mCr 1).bit F.CRM_CMD_STATUS_BUSY = false ∧
    (mCr 1).getP .mgmt F.CRM_GRAN_SEL_GRANULE = 3071 ∧ (mCr 1).get F.CRM_GRAN_STATE 0 3071 = 0 ∧ (mCr 1).roomFor 1 resCream 1 = true ∧ (mCr 0).roomFor 1 resCream 1 = false := by decide +kernel
theorem test_creamGranuleAssign : (after (.creamGranuleAssign .mgmt 0x00100001) (mCr 1)).reg (keyOf F.CRM_GRAN_STATE 0 3071) = 0x40000001 ∧
    (after (.creamGranuleAssign .mgmt 0x00100002) (mCr 2)).get F.CRM_CMD_STATUS_REASON = 5 ∧ (after (.creamGranuleAssign .mgmt 0x00100002) (mCr 2)).get F.CRM_CMD_STATUS_AT = 3072 := by
  decide +kernel
def mCrHeld (st : Nat) : Mach := ((mCr 1).set F.CRM_GRAN_STATE st 0 3071).set F.CRM_GRAN_HERD 1 0 3071
theorem wit_creamGranuleRelease : (mCrHeld 1).Inv ∧ (mCrHeld 1).get F.CRM_GRAN_STATE 0 3071 = 1 ∧ (mCrHeld 1).creamPlanned 3071 = false ∧ (mCrHeld 2).get F.CRM_GRAN_STATE 0 3071 = 2 := by
  decide +kernel
theorem test_creamGranuleRelease : (after (.creamGranuleRelease .mgmt 1) (mCrHeld 1)).get F.CRM_GRAN_STATE 0 3071 = 2 ∧
    (after (.creamGranuleRelease .mgmt 1) (mCrHeld 2)).get F.CRM_CMD_STATUS_REASON = 2 := by decide +kernel
theorem test_creamClearDone : (after (.granuleClearDone 0 true 3071) ({ mCrHeld 2 with cream := [(creamBase 3071, 1), (creamBase 3071 + 0xFFFF, 2)] })).cream = [] ∧
    (after (.granuleClearDone 0 true 3071) (mCrHeld 2)).get F.CRM_GRAN_STATE 0 3071 = 0 := by decide +kernel
theorem wit_creamEcc : Mach.reset.Inv ∧ creamMapped (100 * 8) = true ∧ creamMapped (0x300000 / 8 * 8) = false := by decide +kernel
theorem test_creamEcc : (after (.creamEcc 0 100 false) Mach.reset).get F.CRM_ECC_CORRECTED = 1 ∧ (after (.creamEcc 0 100 true) Mach.reset).mem.badWords = [100] := by decide +kernel
/-- The scrubber has come to the last word of bank 0. -/
def mScrub : Mach := (Mach.reset.set F.CRM_CTL_SCRUB_EN 1).putMem { Mach.reset.mem with scrubWord := 0x300000 / 8 - 1 }
theorem wit_creamScrub : mScrub.Inv ∧ mScrub.Running ∧ mScrub.bit F.CRM_CTL_SCRUB_EN = true ∧ creamMapped (mScrub.mem.scrubWord * 8) = true := by decide +kernel
theorem test_creamScrub : (after (.creamScrub 0 0) mScrub).mem.scrubWord = 0x400000 / 8 ∧ (after (.creamScrub 0 1) mScrub).get F.CRM_ECC_CORRECTED = 1 := by decide +kernel
theorem wit_peatSymbolError : Mach.reset.Inv ∧ 100 * 768 < Mach.reset.peatCap ∧ Mach.reset.bit F.PEAT_STATUS_ERASED = false ∧
    ((Mach.reset.set F.PEAT_STATUS_ERASED 1).set F.PEAT_STATUS_ERASED_PKG 9).get F.PEAT_STATUS_ERASED_PKG ≠ 3 := by decide +kernel
theorem test_peatSymbolError : (after (.peatSymbolError 0 100 [3]) Mach.reset).get F.PEAT_C_SYMERR 3 = 1 ∧ (after (.peatSymbolError 0 100 [3, 4]) Mach.reset).mem.badLines = [100] ∧
    (after (.peatSymbolError 0 100 [3]) ((Mach.reset.set F.PEAT_STATUS_ERASED 1).set F.PEAT_STATUS_ERASED_PKG 9)).mem.badLines = [100] := by decide +kernel
theorem wit_peatScrub : (Mach.reset.set F.PEAT_CTL_SCRUB_EN 1).Inv ∧ (Mach.reset.set F.PEAT_CTL_SCRUB_EN 1).bit F.PEAT_CTL_SCRUB_EN = true ∧
    (Mach.reset.set F.PEAT_CTL_SCRUB_EN 1).get F.CLK_STATUS_THROTTLE < 3 ∧ 3 ≤ (Mach.reset.set F.CLK_STATUS_THROTTLE 3).get F.CLK_STATUS_THROTTLE := by decide +kernel
theorem test_peatScrub : (after (.peatScrub 0 []) (Mach.reset.set F.PEAT_CTL_SCRUB_EN 1)).mem.scrubLine = 1 ∧
    (after (.peatScrub 0 [2]) ((Mach.reset.set F.PEAT_CTL_SCRUB_EN 1).set F.CLK_STATUS_THROTTLE 3)).mem.scrubLine = 0 := by decide +kernel
/-- Region 2 is granule 8 of herd 1, over queue pair 12, to region 6 of its peer; its bitmap, or its journal of one granule, is granule 9. -/
def mMir (recv : Nat) : Mach :=
  ((((((((Mach.reset.setP .mgmt F.PEAT_MIR_SEL_REGION 2).set F.PEAT_MIR_CFG (1 + recv * 256) 0 2).set F.PEAT_MIR_CFG 6 1 2).set F.PEAT_MIR_CFG 12 2 2).set F.PEAT_MIR_CFG 8 3 2).set
    F.PEAT_MIR_CFG 1 4 2).set F.PEAT_MIR_CFG 9 5 2).set F.PEAT_MIR_CFG 1 6 2).set F.PEAT_GRAN 0x40001F01 0 8 |>.set F.PEAT_GRAN 0x20000000 0 9
def mir0 : Mirror :=
  { dirty := [], captured := [], snaps := [], journal := [], lastMsg := 0, sealing := 0xFFFFFFFF, setSize := 0, torn := false, sealSent := false, sealGot := none, rolling := false, sealedNo := none }
def mMirS (recv st : Nat) (x : Mirror) : Mach := ((mMir recv).set F.PEAT_MIR_STATUS_STATE st 0 2).setMirror 2 x
theorem wit_mirrorStart : (mMir 0).Inv ∧ (mMir 0).Steward .mgmt F.PEAT_MIR_CMD_OP.addr ∧ (mMir 0).getP .mgmt F.PEAT_MIR_SEL_REGION = 2 ∧ (mMir 0).bit F.ID_CAP0_MIRROR = true ∧
    ((mMir 0).mirror 2).rolling = false ∧ (mMir 0).mirConfigOk 2 = true ∧ (mMir 1).mirConfigOk 2 = true ∧ (mMir 0).mirState 2 = 0 ∧
    ((mMir 0).set F.PEAT_MIR_CFG 0 4 2).mirConfigOk 2 = false ∧ ((mMirS 1 5 mir0).set F.PEAT_MIR_EPOCH 4 0 2).get F.PEAT_MIR_EPOCH 0 2 ≠ 0xFFFFFFFF := by decide +kernel
theorem test_mirrorStart : ((after (.mirrorStart .mgmt) (mMir 0)).mirror 2).dirty = [(0, 512)] ∧ (after (.mirrorStart .mgmt) (mMir 1)).mirState 2 = 3 ∧
    (after (.mirrorStart .mgmt) ((mMir 0).set F.PEAT_MIR_CFG 0 4 2)).get F.PEAT_MIR_STATUS_REASON 0 2 = 2 := by decide +kernel
theorem test_mirrorSeal : ((after (.mirrorSeal .mgmt) (mMirS 0 1 { mir0 with dirty := [(3, 5)] })).mirror 2).captured = [(3, 5)] ∧
    ((after (.mirrorSeal .mgmt) (mMirS 0 1 { mir0 with dirty := [(3, 5)] })).mirror 2).sealing = 0 := by decide +kernel
theorem test_mirrorStop : (after (.mirrorStop .mgmt) (mMirS 0 2 mir0)).evq.map (fun e => (e.code, e.dest)) = [(0x0803, 1), (0x0803, 0)] ∧ (after (.mirrorStop .mgmt) (mMirS 1 3 mir0)).evq = [] := by
  decide +kernel
theorem test_mirrorRollback : ((after (.mirrorRollback .mgmt) ((mMirS 1 5 mir0).set F.PEAT_MIR_EPOCH 4 0 2)).mirror 2).rolling = true ∧
    (after (.mirrorRollback .mgmt) ((mMirS 1 5 mir0).set F.PEAT_MIR_EPOCH 0xFFFFFFFF 0 2)).get F.PEAT_MIR_STATUS_REASON 0 2 = 3 := by decide +kernel
theorem wit_mirrorSectorShip : (mMirS 0 1 { mir0 with dirty := [(3, 5)] }).Inv ∧ (mMirS 0 1 { mir0 with dirty := [(3, 5)] }).Running ∧
    (mMirS 0 1 { mir0 with dirty := [(3, 5)] }).mirState 2 = 1 ∧ ivFirst ((mMirS 0 1 { mir0 with dirty := [(3, 5)] }).mirror 2).dirty = some 3 := by decide +kernel
theorem test_mirrorSectorShip : ((after (.mirrorSectorShip 0 2) (mMirS 0 1 { mir0 with dirty := [(3, 5)] })).mirror 2).dirty = [(4, 5)] ∧
    ((after (.mirrorSectorShip 0 2) (mMirS 0 1 { mir0 with dirty := [(3, 5)] })).qp 12).msgs.map (fun g => (g.len, g.mirror)) = [(4128, some (2, 3))] := by decide +kernel
theorem wit_mirrorSealSend : (mMirS 0 2 mir0).Inv ∧ (mMirS 0 2 mir0).Running ∧ ((mMirS 0 2 mir0).mirror 2).captured = [] ∧ (mMirS 0 2 mir0).mirState 2 = 2 ∧
    ((mMirS 0 2 { mir0 with torn := true }).mirror 2).torn = true := by decide +kernel
theorem test_mirrorSealSend : ((after (.mirrorSealSend 0 2) (mMirS 0 2 { mir0 with sealing := 9, setSize := 2 })).qp 12).msgs.map (fun g => g.data.take 20) =
      [[0x21, 6, 0, 0, 9, 0, 0, 0, 1, 0, 0, 0, 0, 0, 0, 0, 2, 0, 0, 0]] ∧
    (after (.mirrorSealSend 0 2) (mMirS 0 2 { mir0 with torn := true })).bit F.PEAT_MIR_STATUS_TORN 0 2 = true := by decide +kernel
/-- Messages for region 2: SECTOR 3 with 4,096 zero bytes as MSEQ 1, a SEAL and a SEAL_ACK of epoch 9. -/
def mMsg (recv st : Nat) (x : Mirror) (b : List Byte) : Mach :=
  (mMirS recv st x).putMem { (mMirS recv st x).mem with mirIn := [(12, b)] }
def secMsg : List Byte := Mach.mirBytes 1 2 0 1 3 (List.replicate 4096 0)
theorem wit_mirrorMessage : (mMsg 1 3 mir0 secMsg).Inv ∧ (mMsg 1 3 mir0 secMsg).Running ∧ (mMsg 1 3 mir0 secMsg).mem.mirIn.map (·.1) = [12] ∧
    (mMsg 1 3 mir0 secMsg).qpMirror 12 = some 2 ∧ getBits (leAt secMsg 0 4) 0 4 = 1 ∧ getBits (leAt secMsg 0 4) 8 8 = 2 ∧ getBits (leAt secMsg 0 4) 4 4 = 1 ∧ secMsg.length = 4128 ∧
    leAt secMsg 8 8 = (mMsg 1 3 mir0 secMsg).get64 F.PEAT_MIR_SEQ_LO 0 2 + 1 ∧ leAt secMsg 16 4 = 3 ∧ 3 < (mMsg 1 3 mir0 secMsg).mirSectors 2 ∧
    (mMsg 1 3 mir0 secMsg).bit F.PEAT_MIR_STATUS_JOURNAL_FULL 0 2 = false ∧ 0 < (mMsg 1 3 mir0 secMsg).mirCapacity 2 ∧
    ((mMsg 1 3 mir0 secMsg).set F.PEAT_MIR_CFG 0 6 2).mirCapacity 2 ≤ 0 := by decide +kernel
theorem mirBytes_crc (kind region epoch mseq sector : Nat) (d : List Byte) (hd : d ≠ []) :
    leAt (Mach.mirBytes kind region epoch mseq sector d) 20 4 = crcOf polyCastagnoli ((Mach.mirBytes kind region epoch mseq sector d).drop 32) := by
  have hc : crcOf polyCastagnoli d < 256 ^ 4 := by have := crcOf_lt polyCastagnoli d (by decide); omega
  have he : d.isEmpty = false := by cases d <;> simp_all
  have h1 : (Mach.mirBytes kind region epoch mseq sector d).drop 32 = d := by simp [Mach.mirBytes, leBytes]
  rw [h1]
  simp [Mach.mirBytes, leAt, leBytes_length, List.drop_append, List.take_append, he]
  rw [show leNat _ = leNat (leBytes 4 (crcOf polyCastagnoli d)) from by simp [leBytes], leNat_leBytes, Nat.mod_eq_of_lt hc]
theorem wit_mirrorMessage_crc : leAt secMsg 20 4 = crcOf polyCastagnoli (secMsg.drop 32) := mirBytes_crc 1 2 0 1 3 _ (by decide +kernel)
/-- A SEAL and a SEAL_ACK of epoch 9 for region 2. -/
theorem wit_mirrorSeal_message : (mMsg 1 3 mir0 (Mach.mirBytes 2 2 9 1 0 [])).qpMirror 12 = some 2 ∧ (Mach.mirBytes 2 2 9 1 0 []).length = 32 ∧
    getBits (leAt (Mach.mirBytes 2 2 9 1 0 []) 0 4) 4 4 = 2 ∧ leAt (Mach.mirBytes 2 2 9 1 0 []) 8 8 = (mMsg 1 3 mir0 (Mach.mirBytes 2 2 9 1 0 [])).get64 F.PEAT_MIR_SEQ_LO 0 2 + 1 ∧
    getBits (leAt (Mach.mirBytes 3 2 9 1 0 []) 0 4) 4 4 = 3 ∧ leAt (Mach.mirBytes 3 2 9 1 0 []) 4 4 = 9 := by decide +kernel
theorem test_mirrorMessage : ((after (.mirrorMessageReceived 0) (mMsg 1 3 mir0 (Mach.mirBytes 2 2 9 1 0 []))).mirror 2).sealGot = some 9 ∧
    (after (.mirrorMessageReceived 0) (mMsg 0 2 { mir0 with sealSent := true, sealing := 9 } (Mach.mirBytes 3 2 9 1 0 []))).get F.PEAT_MIR_EPOCH 0 2 = 9 ∧
    (after (.mirrorMessageReceived 0) (mMsg 1 3 mir0 (Mach.mirBytes 2 2 9 2 0 []))).mirState 2 = 5 := by decide +kernel
theorem wit_mirrorSealApply : (mMirS 1 3 { mir0 with sealGot := some 9, journal := [(3, [])] }).Inv ∧ (mMirS 1 3 { mir0 with sealGot := some 9, journal := [(3, [])] }).Running ∧
    (mMirS 1 3 { mir0 with sealGot := some 9, journal := [(3, [])] }).landed 8 2 (2 ^ 64) = true ∧
    ((mMirS 1 3 mir0).putMem { (mMirS 1 3 { mir0 with sealGot := some 9 }).mem with writes := [{ id := 0, kind := 8, chan := 2, msg := 1, target := 0, port := 0 }] }).landed 8 2 (2 ^ 64) = false := by
  decide +kernel
theorem test_mirrorSealApply : (after (.mirrorSealApply 0 2) (mMirS 1 3 { mir0 with sealGot := some 9, journal := [(3, [])] })).get F.PEAT_MIR_EPOCH 0 2 = 9 ∧
    ((after (.mirrorSealApply 0 2) (mMirS 1 3 { mir0 with sealGot := some 9, journal := [(3, [])] })).mirror 2).journal.length = 0 := by decide +kernel
theorem wit_mirrorOrphanTimeout : (mMirS 1 3 mir0).Inv ∧ (mMirS 1 3 mir0).mirState 2 = 3 ∧ ((mMirS 1 3 mir0).mirror 2).lastMsg + (mMirS 1 3 mir0).leaseAt 0 ≤ ((mMirS 1 3 mir0).advance 16000000000).now ∧
    ((mMirS 1 3 mir0).advance 5).now < ((mMirS 1 3 mir0).mirror 2).lastMsg + (mMirS 1 3 mir0).leaseAt 0 := by decide +kernel
theorem test_mirrorOrphanTimeout : (after (.mirrorOrphanTimeout 16000000000 2) (mMirS 1 3 mir0)).mirState 2 = 4 ∧ (after (.mirrorOrphanTimeout 5 2) (mMirS 1 3 mir0)).mirState 2 = 3 := by decide +kernel
def mRoll : Mach := withPeat (mMirS 1 5 { mir0 with rolling := true, journal := [(3, List.replicate 4096 0)] }) (8 * 2 ^ 21 + 3 * 4096) [7]
theorem wit_mirrorRollbackDone : mRoll.Inv ∧ mRoll.Running ∧ (mRoll.mirror 2).rolling = true ∧ ((mRoll.mirror 2).journal.map (·.1)) = [3] ∧
    (∀ j ∈ (mRoll.mirror 2).journal, j.2.length = 4096 ∧ j.1 < mRoll.mirSectors 2) ∧ mRoll.mem.granCopy = none := by decide +kernel
theorem test_mirrorRollbackDone : (after (.mirrorRollbackDone 0 2) (mMirS 1 5 { mir0 with rolling := true })).mirState 2 = 0 := by decide +kernel

/-! ## Ports -/

/-- Port 5, a FABRIC port, in a link state, with what the port knows. -/
def mPort (st : Nat) (x : PortSt) : Mach := ((Mach.reset.set F.PORT_STATUS_STATE st 5).set F.PORT_ROLE_ROLE 1 5).setPt 5 x
def mPortOn (st : Nat) : Mach := (mPort st freshPort).set F.PORT_CTL_ENABLE 1 5
theorem wit_portEnable : (mPort 0 freshPort).Inv ∧ (mPort 0 freshPort).Steward .mgmt (F.PORT_CTL_ENABLE.addr + 5 * 0x4000) ∧ (mPort 0 freshPort).bit F.PORT_CTL_ENABLE 5 = false ∧
    (mPort 0 freshPort).lkState 5 ≠ 3 ∧ (mPort 0 freshPort).portHeld 5 = false ∧ ((mPort 0 freshPort).set F.QE_STATUS_FAIL_STOP 1).portHeld 5 = true ∧
    (mPortOn 3).lkState 5 = 3 ∧ (mPortOn 3).bit F.PORT_CTL_ENABLE 5 = true ∧ (mPortOn 3).portHeld 5 = false ∧ 0 ∈ (mPortOn 3).liveHerds := by decide +kernel
theorem test_portEnable : (after (.portEnable .mgmt 5 0x48) (mPort 0 freshPort)).lkState 5 = 1 ∧ (after (.portEnable .mgmt 5 0x48) (mPort 0 freshPort)).get F.PORT_STATUS_RATE 5 = 1 ∧
    (after (.portEnable .mgmt 5 0x30) ((mPort 0 freshPort).set F.CLK_BOOT_STEP 11)).get F.PORT_STATUS_RATE 5 = 3 := by decide +kernel
theorem test_portDisable : (after (.portDisable .mgmt 5 1) (mPortOn 3)).lkState 5 = 0 ∧ (after (.portDisable .mgmt 5 1) (mPortOn 3)).evq.map (·.code) = [0x0901] ∧
    (after (.portDisable .mgmt 5 1) (mPortOn 1)).evq = [] := by decide +kernel
theorem test_portReset : (after (.portReset .mgmt 5 1) (mPortOn 3)).lkState 5 = 1 ∧ (after (.portReset .mgmt 5 1) (mPortOn 2)).lkState 5 = 2 := by decide +kernel
theorem wit_portTrained : (mPort 1 freshPort).Inv ∧ (mPort 1 freshPort).lkState 5 = 1 ∧ (mPort 1 freshPort).trainRate 5 = 1 := by decide +kernel
theorem test_portTrained : (after (.portTrained 32 5) (mPort 1 freshPort)).lkState 5 = 2 ∧
    (after (.portTrained 32 5) (mPort 1 freshPort)).sent = [.uanto 5 1 false 1 0 [0x1FF4, 1581120, 0x1FFF, 0x7FF]] := by decide +kernel
theorem wit_portTrainingTimeout : (mPort 1 freshPort).Inv ∧ ((mPort 1 freshPort).pt 5).since + 800 * ms ≤ ((mPort 1 freshPort).advance (800 * ms)).now ∧
    ((mPort 1 freshPort).pt 5).retrain = false := by decide +kernel
theorem test_portTrainingTimeout : (after (.portTrainingTimeout (800 * ms) 5) (mPort 1 freshPort)).lkState 5 = 4 ∧
    (after (.portTrainingTimeout (800 * ms - 1) 5) (mPort 1 freshPort)).lkState 5 = 1 := by decide +kernel
theorem wit_portFaultRetry : (mPort 4 freshPort).Inv ∧ (mPort 4 freshPort).lkState 5 = 4 ∧ (mPort 4 freshPort).portHeld 5 = false ∧
    ((mPort 4 freshPort).pt 5).since + 1000 * ms ≤ ((mPort 4 freshPort).advance (1000 * ms)).now := by decide +kernel
theorem test_portFaultRetry : (after (.portFaultRetry (1000 * ms) 5) (mPort 4 freshPort)).lkState 5 = 1 ∧ (after (.portFaultRetry (999 * ms) 5) (mPort 4 freshPort)).lkState 5 = 4 := by
  decide +kernel
theorem test_linkLoss : (after (.linkLoss 0 5) (mPortOn 3)).lkState 5 = 1 ∧ (after (.linkLoss 0 5) (mPortOn 3)).srcState (srcPort 5) < 2 ∧
    (after (.linkLoss 0 5) (mPortOn 3)).get F.FLT_SRC_EVENTS 0 (srcPort 5) = 1 := by decide +kernel
/-- The partner of the worked example of R330: a generation-2 module at minor 1. -/
def m9 : UantoSide := { role := 1, gen := 2, minor := 1, module := 9, port := 7, caps := [0x3FF4, 0, 0x1FFF, 0xFFF] }
def ag9 : Nat × Nat × List Nat := (1, 0, [0x1FF4, 0, 0x1FFF, 0x7FF])
def xUp : PortSt := { freshPort with offerGot := true, seenSent := true, seenGot := true, partner := some m9, agreed := some ag9 }
theorem wit_uantoOfferTimer : (mPort 2 xUp).Inv ∧ (mPort 2 xUp).lkState 5 = 2 ∧ (mPort 2 xUp).pt 5 = xUp ∧ xUp.lastUanto = none ∧ xUp.agreed = some ag9 ∧
    ((mPort 2 { xUp with lastUanto := some 0 }).advance (10 * us - 1)).now < 0 + 10 * us := by decide +kernel
theorem test_uantoOfferTimer : (after (.uantoOfferTimer 0 5) (mPort 2 xUp)).sent = [.uanto 5 2 false 1 0 [0x1FF4, 0, 0x1FFF, 0x7FF]] ∧
    (after (.uantoOfferTimer 0 5) (mPort 2 { xUp with seenGot := false })).sent = [.uanto 5 1 true 1 0 [0x1FF4, 1581120, 0x1FFF, 0x7FF]] := by decide +kernel
theorem wit_uantoOfferReceived : (mPort 2 { freshPort with inq := [.uanto false true m9] }).Inv ∧ 1 ≤ m9.gen ∧ m9.gen ≤ 3 ∧ (mPort 2 freshPort).role 5 = 1 ∧ m9.role = 1 ∧
    (mPort 2 freshPort).roleMatch 5 4 = false := by decide +kernel
theorem test_uantoOfferReceived : ((after (.uantoOfferReceived 0 5) (mPort 2 { freshPort with inq := [.uanto false true m9] })).pt 5).agreed = some ag9 ∧
    (after (.uantoOfferReceived 0 5) (mPort 2 { freshPort with inq := [.uanto false true m9] })).reg (keyOf F.PORT_UANTO_PEER_MODULE 5) = 0x00090107 := by decide +kernel
theorem test_uantoOfferReceived_bad : (after (.uantoOfferReceived 0 5) (mPort 2 { freshPort with inq := [.uanto false true { m9 with gen := 4 }] })).lkState 5 = 4 ∧
    (after (.uantoOfferReceived 0 5) (mPort 2 { freshPort with inq := [.uanto false true { m9 with role := 4 }] })).evq.map (·.code) = [0x0904, 0x0902, 0x0010] ∧
    (after (.uantoOfferReceived 0 5) (mPort 3 { xUp with inq := [.uanto false true m9] })).sent.length = 2 := by decide +kernel
def cf9 : UantoSide := { m9 with gen := 1, minor := 0, caps := [0x1FF4, 0, 0x1FFF, 0x7FF] }
theorem wit_uantoConfirmReceived : (mPort 2 { xUp with inq := [.uanto true false cf9] }).Inv ∧ cf9.gen = ag9.1 ∧ cf9.minor = ag9.2.1 ∧ cf9.caps = ag9.2.2 ∧ xUp.retrain = false ∧ m9.gen ≠ ag9.1 := by
  decide +kernel
theorem test_uantoConfirmReceived : (after (.uantoConfirmReceived 0 5) (mPort 2 { xUp with inq := [.uanto true false cf9] })).lkState 5 = 3 ∧
    (after (.uantoConfirmReceived 0 5) (mPort 2 { xUp with inq := [.uanto true false cf9] })).sent.length = 2 ∧
    (after (.uantoConfirmReceived 0 5) (mPort 2 { xUp with inq := [.uanto true false m9] })).lkState 5 = 2 ∧
    ((after (.uantoConfirmReceived 0 5) (mPort 2 { xUp with inq := [.uanto true false m9] })).pt 5).agreed = none := by decide +kernel
theorem wit_uantoRestartTimeout : ((mPort 2 freshPort).advance (20 * ms)).now < freshPort.since + 200 * ms ∧ freshPort.stepOne + 20 * ms ≤ ((mPort 2 freshPort).advance (20 * ms)).now ∧
    (mPort 2 freshPort).mayBeSilent 5 = false ∧ ((mPort 2 freshPort).set F.PORT_ROLE_ROLE 3 5).mayBeSilent 5 = true ∧ freshPort.partner = none := by decide +kernel
theorem test_uantoRestartTimeout : ((after (.uantoRestartTimeout (20 * ms) 5) (mPort 2 freshPort)).pt 5).restarts = 1 ∧
    (after (.uantoRestartTimeout (200 * ms) 5) (mPort 2 freshPort)).lkState 5 = 4 ∧
    (after (.uantoRestartTimeout (200 * ms) 5) ((mPort 2 freshPort).set F.PORT_ROLE_ROLE 3 5)).lkState 5 = 2 := by decide +kernel
theorem test_uantoSilentTimeout : (after (.uantoSilentTimeout (100 * ms) 5) ((mPort 2 freshPort).set F.PORT_ROLE_ROLE 3 5)).lkState 5 = 3 ∧
    (after (.uantoSilentTimeout (100 * ms) 5) (mPort 2 freshPort)).lkState 5 = 2 := by decide +kernel
/-- Frames to the address that always passes. -/
def rx (k : RxKind) : RxFrame := { badCode := false, len := 64, fcs := 0, dst := 0x0180C2000001, kind := k, data := [7] }
def beF : BeFrame := { epoch := 0, pcp := 4, dest := some 9, path := 1, bytes := 300, ect := false, body := .packet { blankPacket with op := .send } }
def mRx : Mach := (mPort 3 freshPort).set F.RTE_POOL_LANE_KIB 1 5
theorem wit_portFrameReceived : mRx.Inv ∧ mRx.groupStopped 5 = false ∧ mRx.portUp 5 = true ∧ mRx.addrPasses 5 0x0180C2000001 false = true ∧ mRx.laneRoom 5 beF = true ∧
    mRx.addrPasses 5 9 false = false ∧ mRx.bit F.PORT_CTL_DIAG 5 = false ∧ mRx.role 5 = 1 ∧ beF.pcp ≠ 6 := by decide +kernel
theorem test_portFrameReceived : (after (.portFrameReceived 0 5 (rx (.be beF))) mRx).rte.arrived = [(5, beF)] ∧
    [{ rx .foreign with badCode := true, len := 1 }, { rx .foreign with len := 63 }, { rx .foreign with len := 16641, fcs := 1 }, { rx .foreign with fcs := 1 }, { rx .foreign with fcs := 2 },
      rx (.mac 2 0 []), { rx .foreign with dst := 9 }, rx .foreign, rx .badVersion, rx (.landed 3)].map (fun f =>
      (List.range 12).find? (fun r => (after (.portFrameReceived 0 5 f) mRx).reg (0x00100240 + 5 * 0x4000 + r * 4) == 1)) =
      [some 4, some 2, some 3, some 1, some 5, some 6, some 7, some 8, some 9, some 10] := by decide +kernel
def mDiag : Mach := (((mRx.set F.PORT_CTL_DIAG 1 5).set64 F.PORT_DIAG_BASE_LO (8 * 2 ^ 21) 5).set F.PEAT_GRAN 0x40000000 0 8).set F.PORT_DIAG_PTR 63 5 |>.set F.PORT_DIAG_PTR (62 * 65536 + 61) 5
theorem wit_portFrameReceived_diag : mDiag.Inv ∧ mDiag.bit F.PORT_CTL_DIAG 5 = true ∧ (mDiag.pt 5).diagAt = none ∧ mDiag.diagSize 5 = 64 ∧
    ((mDiag.set F.PORT_DIAG_PTR 62 5).diagUsed 5 + 1 < 64) ∧ mDiag.herd0Peat (mDiag.get64 F.PORT_DIAG_BASE_LO 5 / 4096 * 4096 + 62 % 64 * 256) 256 = true := by decide +kernel
theorem test_portFrameReceived_diag : ((after (.portFrameReceived 0 5 (rx .foreign)) (mDiag.set F.PORT_DIAG_PTR 62 5)).rdBytes .peat (8 * 2 ^ 21 + 62 * 256) 6) = [0x11, 8, 5, 0, 64, 0] ∧
    (after (.portFrameReceived 0 5 (rx .foreign)) (mDiag.set F.PORT_DIAG_PTR 62 5)).get F.PORT_DIAG_PTR 5 = 63 ∧
    (after (.portFrameReceived 0 5 (rx .foreign)) mDiag).get F.PORT_DIAG_LOST 5 = 1 := by decide +kernel
theorem test_portFrameReceived_inq : ((after (.portFrameReceived 0 5 (rx (.uanto false true m9))) (mPort 2 freshPort)).pt 5).inq.length = 1 ∧
    (after (.portFrameReceived 0 5 (rx (.uanto false true m9))) (mPort 2 freshPort)).get64 F.PORT_RX_BYTES_LO 5 = 64 := by decide +kernel
def mGrpStop : Mach := (mRx.set F.CLK_DOM_STATUS_PLANNED 1 0 37).set F.CLK_DOM_STATUS_RUNNING 0 0 37
theorem wit_portFrameReceived_stopped : mGrpStop.Inv ∧ mGrpStop.groupStopped 5 = true ∧ ((mGrpStop.pt 5).rxWait.map (·.len)).foldl (· + ·) 0 + 64 ≤ 65536 ∧
    getBits (mGrpStop.refilled F.PORT_FC_PFC_EN 5) 6 1 = 1 ∧ alGet (mGrpStop.pt 5).xoff 6 = none := by decide +kernel
theorem test_portFrameReceived_stopped : (after (.portFrameReceived 0 5 (rx .foreign)) mGrpStop).sent.length = 7 ∧ (alGet (after (.portFrameReceived 0 5 (rx .foreign)) mGrpStop).clk.starting 37) = some 0 := by
  decide +kernel
def mFec (n : Nat) : Mach := (mPort 3 { freshPort with fecEnd := some us, fecCount := n }).set F.PORT_FEC_LIMIT_COUNT 8 5
theorem wit_fecUncorrectable : (mFec 8).Inv ∧ (mFec 8).portUp 5 = true ∧ (mFec 8).get F.PORT_FEC_LIMIT_COUNT 5 = 8 ∧ ((mFec 8).pt 5).fecEnd = some us ∧ us ≤ ((mFec 8).advance us).now := by
  decide +kernel
theorem test_fecUncorrectable : (after (.fecUncorrectable 0 5) (mFec 8)).bit F.PORT_STATUS_SCHED_OUT 5 = true ∧ (after (.fecUncorrectable 0 5) (mFec 7)).bit F.PORT_STATUS_SCHED_OUT 5 = false ∧
    (after (.fecUncorrectable us 5) (mFec 8)).pt 5 = { freshPort with fecEnd := some (us + 1000 * us), fecCount := 1 } ∧
    (after (.fecWindowExpire us 5) (mFec 8)).pt 5 = freshPort := by decide +kernel
def mPause (q : List Nat) (en op : Nat) : Mach := mPort 3 { freshPort with inq := [.mac op en q] }
theorem wit_pfcReceived : (mPause [4] 0 1).Inv ∧ (mPause [4] 0 1).refilled F.PORT_FC_MODE 5 = 1 ∧ ((mPause [4] 0 1).pt 5).ignore = [] ∧
    ((mPause [4] 0 1).set F.PORT_FC_MODE 3 5).refilled F.PORT_FC_MODE 5 = 3 := by decide +kernel
theorem test_pfcReceived : (after (.pfcReceived 100 5) (mPause [4] 0 1)).get F.PORT_STATUS_PAUSED 5 = 0x7F ∧
    ((after (.pfcReceived 100 5) (mPause [9, 5, 9] 0x82 0x101)).pt 5).paused = [(1, 100 + 52)] ∧
    (after (.pfcReceived 100 5) ((mPause [4] 0 1).set F.PORT_FC_MODE 3 5)).get F.PORT_STATUS_PAUSED 5 = 0 := by decide +kernel
def mHeldP : Mach := (mPort 3 { freshPort with paused := [(1, 20 * ms)], heldSince := [(1, 0)] }).set F.PORT_STATUS_PAUSED 2 5
theorem wit_pauseQuantaExpire : mHeldP.Inv ∧ alGet (mHeldP.pt 5).paused 1 = some (20 * ms) ∧ alGet (mHeldP.pt 5).ignore 1 = none ∧ (mHeldP.advance (10 * ms)).heldBy 5 1 = true ∧
    alGet (mHeldP.pt 5).heldSince 1 = some 0 ∧ 0 + max 1 (mHeldP.get F.PORT_PAUSE_WD_MS 5) * ms ≤ (mHeldP.advance (10 * ms)).now := by decide +kernel
theorem test_pauseQuantaExpire : (after (.pauseQuantaExpire (20 * ms) 5 1) mHeldP).get F.PORT_STATUS_PAUSED 5 = 0 ∧ (after (.pauseQuantaExpire (20 * ms - 1) 5 1) mHeldP).get F.PORT_STATUS_PAUSED 5 = 2 := by
  decide +kernel
/-- Priority 4 of port 5 holds 300 bytes; XOFF is asserted since 0. -/
def mXoff (k : Nat) (x : PortSt) : Mach := (((mPort 3 x).set F.PORT_PFC_THRESH_XOFF_KIB k 5).set F.PORT_PFC_THRESH_XON_KIB 0 5).set F.RTE_POOL_LANE_KIB 100 5 |>.putRte
  { Mach.reset.rte with arrived := [(5, beF)] }
theorem wit_xoffRepeat : (mXoff 1 freshPort).Inv ∧ (mXoff 1 freshPort).xoffKib 5 ≤ ((mXoff 1 freshPort).prioOf 5 4 + 1023) / 1024 ∧ (mXoff 1 freshPort).pfcOn 5 4 = true ∧
    (mXoff 1 freshPort).xonKib 5 < ((mXoff 1 freshPort).prioOf 5 4 + 1023) / 1024 ∧ (mXoff 1 freshPort).prioOf 5 3 ≤ (mXoff 1 freshPort).xonKib 5 := by decide +kernel
theorem test_xoffRepeat : (after (.xoffRepeat 9 5 4) (mXoff 1 freshPort)).sent = [.pause 5 4 0xFFFF] ∧
    (after (.xoffRepeat (20 * us) 5 4) (mXoff 1 { freshPort with xoff := [(4, 0, 0)] })).sent = [.pause 5 4 0xFFFF] ∧
    (after (.xoffRepeat (20 * us - 1) 5 4) (mXoff 1 { freshPort with xoff := [(4, 0, 0)] })).sent = [] ∧
    (after (.xoffRepeat 9 5 3) (mXoff 1 { freshPort with xoff := [(3, 0, 0)] })).sent = [.pause 5 3 0] := by decide +kernel
theorem test_pauseWatchdog : ((after (.pauseWatchdog (10 * ms) 5 1) mHeldP).pt 5).ignore = [(1, 20 * ms)] ∧ (after (.pauseWatchdog (10 * ms - 1) 5 1) mHeldP).get F.PORT_PAUSE_WD_COUNT 5 = 0 ∧
    ((after (.pauseWatchdog (10 * ms) 5 4) (mXoff 1 { freshPort with xoff := [(4, 0, 0)] })).pt 5).mute = [(4, 20 * ms)] ∧
    (after (.pauseWatchdog (10 * ms) 5 4) (mXoff 1 { freshPort with xoff := [(4, 0, 0)] })).get F.PORT_PAUSE_WD_COUNT 5 = 1 := by decide +kernel
theorem wit_pauseWatchdogEnd : (mXoff 1 { freshPort with mute := [(4, 7)], ignore := [(4, 7)] }).Inv ∧ 7 ≤ ((mXoff 1 freshPort).advance 7).now := by decide +kernel
theorem test_pauseWatchdogEnd : (after (.pauseWatchdogEnd 7 5 4) (mXoff 1 { freshPort with mute := [(4, 7)], ignore := [(4, 7)] })).sent = [.pause 5 4 0xFFFF] ∧
    ((after (.pauseWatchdogEnd 7 5 4) (mXoff 1 { freshPort with mute := [(4, 7)], ignore := [(4, 7)] })).pt 5).ignore = [] := by decide +kernel
/-- Module 9 lies behind ports 6 and 7 of the base table; only port 7 is UP. -/
def mRoute : Mach := ((mXoff 1 freshPort).set64 F.RTE_ENTRY_LO (2 + 2 ^ 4 + 6 * 2 ^ 8 + 7 * 2 ^ 16) 0 9).set F.PORT_STATUS_STATE 3 7
theorem wit_beFrameForward : mRoute.Inv ∧ mRoute.Running ∧ mRoute.rte.arrived = [(5, beF)] ∧ mRoute.self ≠ 9 ∧ mRoute.tableFor 0 = some 0 ∧ routeCount (mRoute.routeWord 0 9) = 2 ∧
    mRoute.portUp (routePort (mRoute.routeWord 0 9) 1) = true ∧ mRoute.portUp (routePort (mRoute.routeWord 0 9) 0) = false ∧ routeCount (mRoute.routeWord 0 8) = 0 ∧ mRoute.self = 0 := by
  decide +kernel
theorem test_beFrameForward : (after (.beFrameForward 0 5) mRoute).rte.held.map (fun h => (h.out, h.cls, h.vcOut)) = [(7, 2, 0)] ∧
    (after (.beFrameForward 0 5) (mRoute.putRte { mRoute.rte with arrived := [(5, { beF with dest := some 8 })] })).get F.RTE_NO_ROUTE = 1 ∧
    (after (.beFrameForward 0 5) (mRoute.putRte { mRoute.rte with arrived := [(5, { beF with dest := some 0 })] })).rte.here.length = 1 := by decide +kernel
def mBase : Mach := (mRoute.putPlan { mRoute.plan with baseHoldEnd := some 100 }).putRte { mRoute.rte with held := [{ inPort := 5, cls := 2, vc := 0, out := 7, vcOut := 0, table := 0, frame := beF }] }
theorem wit_baseTableRelease : mBase.Inv ∧ mBase.plan.baseHoldEnd = some 100 ∧ reached (mBase.advance 100).polder 100 = true ∧ reached (mBase.advance 99).polder 100 = false := by decide +kernel
theorem test_baseTableRelease : (after (.baseTableRelease 100) mBase).rte.held = [] ∧ (after (.baseTableRelease 100) mBase).get F.RTE_EPOCH_DROP = 1 ∧
    (after (.baseTableRelease 99) mBase).rte.held.length = 1 := by decide +kernel
def mTel : Mach := ((((Mach.reset.set F.TEL_CTL_ARM 1).set64 F.TEL_SNAP_AT_LO 100).set F.RTE_P_DEPTH 3 31).set F.RTE_P_DEPTH_HWM 9 31).set F.TEL_RTE_P_DEPTH 1 2
theorem wit_telemetrySnapshot : mTel.Inv ∧ mTel.bit F.TEL_CTL_ARM = true ∧ reached (mTel.advance 100).polder (BitVec.ofNat 64 (mTel.get64 F.TEL_SNAP_AT_LO)) = true ∧
    (mTel.regs.map (·.1)).Nodup ∧ reached (mTel.advance 99).polder (BitVec.ofNat 64 (mTel.get64 F.TEL_SNAP_AT_LO)) = false := by decide +kernel
theorem test_telemetrySnapshot : (after (.telemetrySnapshot 100) mTel).get F.TEL_RTE_P_DEPTH_HWM 31 = 9 ∧ (after (.telemetrySnapshot 100) mTel).get F.RTE_P_DEPTH_HWM 31 = 0 ∧
    (after (.telemetrySnapshot 100) mTel).get F.RTE_P_DEPTH 31 = 3 ∧ (after (.telemetrySnapshot 100) mTel).get F.TEL_RTE_P_DEPTH 2 = 0 ∧ (after (.telemetrySnapshot 99) mTel).bit F.TEL_CTL_ARM = true := by
  decide +kernel

/-! ## Herds -/

/-- The steward has selected herd 5, in a state, with two queues granted and `n` staged. -/
def mHerd (st n : Nat) : Mach :=
  (((Mach.reset.setP .mgmt F.QE_HERD_SEL_HERD 5).setP .mgmt F.QE_HERD_SHARE n 0).set F.QE_HERD_STATUS_STATE st 0 5).setGranted 5 resSqs 2
theorem wit_herdCommands : (mHerd 0 3).Inv ∧ (mHerd 0 3).Steward .mgmt F.QE_HERD_CMD_OP.addr ∧ (mHerd 0 3).getP .mgmt F.QE_HERD_SEL_HERD = 5 ∧
    (mHerd 0 3).bit F.QE_HERD_CMD_STATUS_BUSY = false ∧ ((mHerd 0 3).set F.QE_HERD_CMD_STATUS_BUSY 1).bit F.QE_HERD_CMD_STATUS_BUSY = true ∧ (mHerd 0 3).herdState 5 = 0 ∧
    (∀ r ∈ allRes, (mHerd 0 3).sharesOthers r - (mHerd 0 3).granted 5 r + (mHerd 0 3).stagedShare .mgmt r + (mHerd 0 3).used 0 r ≤ (mHerd 0 3).pool r) := by decide +kernel
theorem wit_herdCreate_pool : (mHerd 0 5000).pool resSqs < (mHerd 0 5000).sharesOthers resSqs - (mHerd 0 5000).granted 5 resSqs + (mHerd 0 5000).stagedShare .mgmt resSqs +
    (mHerd 0 5000).used 0 resSqs := by decide +kernel
theorem test_herdCreate : (after (.herdCreate .mgmt) (mHerd 0 3)).herdState 5 = 1 ∧ (after (.herdCreate .mgmt) (mHerd 0 3)).granted 5 resSqs = 3 ∧
    ((after (.herdCreate .mgmt) (mHerd 0 3)).win (doorbellBase + 5)).base = 0x00850000 ∧ (after (.herdCreate .mgmt) (mHerd 0 5000)).get F.QE_HERD_CMD_STATUS_REASON = 2 := by decide +kernel
theorem test_herdCommand_refused : (after (.herdCreate .mgmt) (mHerd 1 3)).get F.QE_HERD_CMD_STATUS_REASON = 1 ∧
    (after (.herdCreate .mgmt) ((mHerd 0 3).setP .mgmt F.QE_HERD_SEL_HERD 0)).get F.QE_HERD_CMD_STATUS_REASON = 6 := by decide +kernel
theorem wit_herdSetShare : (mHerd 1 1).stagedShare .mgmt resSqs < (mHerd 1 1).granted 5 resSqs ∧ (mHerd 1 1).bankState 0 ≠ 1 ∧ (mHerd 1 1).bankState 1 ≠ 1 ∧
    (∀ r ∈ allRes, (mHerd 1 1).planClaim 5 r ≤ (mHerd 1 1).stagedShare .mgmt r ∧ (mHerd 1 1).used 5 r ≤ (mHerd 1 1).stagedShare .mgmt r) ∧
    ((mHerd 1 1).set F.SLU_BANK_STATUS_BANK1 1).bankState 1 = 1 ∧ ((mHerd 1 1).setUsed 5 resSqs 2).used 5 resSqs = 2 := by decide +kernel
theorem test_herdSetShare : (after (.herdSetShare .mgmt) (mHerd 1 1)).granted 5 resSqs = 1 ∧
    (after (.herdSetShare .mgmt) ((mHerd 1 1).set F.SLU_BANK_STATUS_BANK1 1)).get F.QE_HERD_CMD_STATUS_REASON = 4 ∧
    (after (.herdSetShare .mgmt) ((mHerd 1 1).setUsed 5 resSqs 2)).get F.QE_HERD_CMD_STATUS_REASON = 3 := by decide +kernel
/-- A plan of herd 5 with a lode, while its lode share is lowered. -/
def mClaim : Mach := ((mBank { plSlot with lodesOut := [{ lo9 with herd := 5 }] } 5).setP .mgmt F.QE_HERD_SEL_HERD 5).set F.QE_HERD_STATUS_STATE 2 0 5 |>.setGranted 5 resLodes 1
theorem wit_herdSetShare_frozen : mClaim.Inv ∧ mClaim.herdState 5 = 2 ∧ mClaim.stagedShare .mgmt resLodes < mClaim.granted 5 resLodes ∧
    mClaim.stagedShare .mgmt resLodes < mClaim.planClaim 5 resLodes ∧ mClaim.bankState 0 ≠ 1 ∧ mClaim.bankState 1 ≠ 1 := by decide +kernel
theorem test_herdSetShare_frozen : (after (.herdSetShare .mgmt) mClaim).get F.QE_HERD_CMD_STATUS_REASON = 7 ∧ (after (.herdSetShare .mgmt) mClaim).get F.CFG_FROZEN_ADDR = 0x00401008 := by
  decide +kernel
theorem wit_herdDestroy : (mHerd 1 0).herdUnused 5 = true ∧ ((mHerd 1 0).setUsed 5 resSqs 1).herdUnused 5 = false := by decide +kernel
theorem test_herdDestroy : (after (.herdDestroy .mgmt) (mHerd 1 0)).herdState 5 = 4 ∧ (after (.herdDestroy .mgmt) (mHerd 1 0)).winCloses.map (·.window) = [doorbellBase + 5] ∧
    (after (.herdDestroy .mgmt) ((mHerd 1 0).setUsed 5 resSqs 1)).get F.QE_HERD_CMD_STATUS_REASON = 3 := by decide +kernel
def mPriv (priv n : Nat) : Mach := ((mHerd 2 0).set F.QE_HERD_STATUS_PRIV priv 0 5).set F.QE_PRIV_COUNT n
theorem wit_priv : (mPriv 0 15).bit F.QE_HERD_STATUS_PRIV 0 5 = false ∧ (mPriv 0 15).get F.QE_PRIV_COUNT < 16 ∧ 16 ≤ (mPriv 0 16).get F.QE_PRIV_COUNT ∧
    (mPriv 1 16).bit F.QE_HERD_STATUS_PRIV 0 5 = true ∧ 0 < (mPriv 1 16).get F.QE_PRIV_COUNT := by decide +kernel
theorem test_privGrant : (after (.privGrant .mgmt) (mPriv 0 15)).get F.QE_PRIV_COUNT = 16 ∧ (after (.privGrant .mgmt) (mPriv 0 16)).get F.QE_HERD_CMD_STATUS_REASON = 5 ∧
    (after (.privGrant .mgmt) (mPriv 1 16)).bit F.QE_HERD_CMD_STATUS_DONE = true := by decide +kernel
theorem test_privRevoke : (after (.privRevoke .mgmt) (mPriv 1 16)).get F.QE_PRIV_COUNT = 15 ∧ (after (.privRevoke .mgmt) (mPriv 0 3)).get F.QE_PRIV_COUNT = 3 := by decide +kernel
/-- Queue 3 of herd 1 has an accepted descriptor, queue pair 12 is READY; the steward resets herd 1. -/
def mHr : Mach := ((((mQp 1).set F.QE_SQ_CFG_HERD 1 0 3).setP .mgmt F.QE_HERD_SEL_HERD 1).set F.QE_HERD_STATUS_STATE 1 0 1).setSq 3 { sqBase with fetched := [dsc dNop] }
theorem wit_herdReset : mHr.Inv ∧ mHr.Steward .mgmt F.QE_HERD_CMD_OP.addr ∧ mHr.getP .mgmt F.QE_HERD_SEL_HERD = 1 ∧ mHr.bit F.QE_HERD_CMD_STATUS_BUSY = false ∧ mHr.herdState 1 = 1 ∧
    3 ∈ mHr.sqsOf 1 ∧ 12 ∈ mHr.qpsReady 1 := by decide +kernel
theorem test_herdReset : (after (.herdReset .mgmt 0x30000003) mHr).herdState 1 = 3 ∧ ((after (.herdReset .mgmt 0x30000003) mHr).sq 3).flush.length = 1 ∧
    (after (.herdReset .mgmt 0x30000003) mHr).qpState 12 = 2 ∧ (after (.herdReset .mgmt 0x30000003) mHr).herdReset.map (·.squash) = some true := by decide +kernel
def hr1 : HerdReset := { herd := 1, squash := false, since := 0, windows := [] }
def mDrain (r : HerdReset) : Mach := ((mHr.setSq 3 sqBase).set F.QE_HERD_STATUS_STATE 3 0 1 |>.setLtx 9 { freshTx with queue := [{ msg9 with sq := 3, done := 0 }] }).putHerdReset (some r)
theorem wit_herdResetDrainTimeout : (mDrain hr1).Inv ∧ (mDrain hr1).Running ∧ (mDrain hr1).herdReset = some hr1 ∧ hr1.since + (mDrain hr1).leaseAt hr1.since ≤ ((mDrain hr1).advance (100 * ms)).now ∧
    ((mDrain hr1).advance (100 * ms - 1)).now < hr1.since + (mDrain hr1).leaseAt hr1.since := by decide +kernel
theorem test_herdResetDrainTimeout : ((after (.herdResetDrainTimeout (100 * ms)) (mDrain hr1)).ltx 9).queue = [] ∧ ((after (.herdResetDrainTimeout (100 * ms - 1)) (mDrain hr1)).ltx 9).queue.length = 1 := by
  decide +kernel
/-- Nothing of herd 1 is left but granule 2 of its Cream. -/
def mHrEnd : Mach := { (((mDrain hr1).set F.CRM_GRAN_STATE 1 0 2).set F.CRM_GRAN_HERD 1 0 2).set F.QE_HALT 2 0 with cream := [(creamBase 2, 9)], evq := [] }
theorem wit_herdResetComplete : mHrEnd.Inv ∧ mHrEnd.Running ∧ (∀ k ∈ mHrEnd.sqsOf 1, mHrEnd.sqSettled k = true) ∧ mHrEnd.chu.launches = [] ∧ mHrEnd.chu.sram = [] ∧ mHrEnd.xlt.inv = [] ∧
    mHrEnd.get F.CRM_GRAN_STATE 0 2 = 1 ∧ mHrEnd.get F.CRM_GRAN_HERD 0 2 = 1 ∧ (mHrEnd.setSq 3 { sqBase with out := [outDone] }).sqSettled 3 = false := by decide +kernel
theorem test_herdResetComplete : (after (.herdResetComplete 0) mHrEnd).herdState 1 = 1 ∧ (after (.herdResetComplete 0) mHrEnd).cream = [] ∧ (after (.herdResetComplete 0) mHrEnd).get F.QE_HALT 0 = 0 ∧
    (after (.herdResetComplete 0) mHrEnd).evq.map (fun e => (e.code, e.dest)) = [(0x0103, 1), (0x0103, 0)] ∧
    (after (.herdResetComplete 0) (mHrEnd.setSq 3 { sqBase with out := [outDone] })).herdState 1 = 3 := by decide +kernel

/-! ## Keys -/

/-- Key page 4 of herd 1, in a state and of a kind; the steward has selected it, and the address of an image. -/
def mKey (st kind : Nat) : Mach :=
  (((((mQ.setP .mgmt F.CIPH_PAGE_SEL_PAGE 4).setP .mgmt F.CIPH_PAGE_ADDR_LO 0x40000).set F.CIPH_PAGE_STATUS_STATE st 0 4).set F.CIPH_PAGE_STATUS_KIND kind 0 4).set
    F.CIPH_PAGE_STATUS_HERD 1 0 4).setGranted 1 resKeys 1
theorem wit_keyCommands : (mKey 0 0).Inv ∧ (mKey 0 0).Steward .mgmt F.CIPH_PAGE_CMD_OP.addr ∧ (mKey 0 0).get F.CIPH_STATUS_PRESENT ≠ 0 ∧ (mKey 0 0).getP .mgmt F.CIPH_PAGE_SEL_PAGE = 4 ∧
    (mKey 0 0).getP .mgmt F.CIPH_CMD_STATUS_BUSY = 0 ∧ ((mKey 0 0).setP .mgmt F.CIPH_CMD_STATUS_BUSY 1).getP .mgmt F.CIPH_CMD_STATUS_BUSY = 1 ∧ (mKey 0 0).keyState 4 = 0 ∧
    (mKey 0 0).roomFor 1 resKeys 1 = true ∧ (mKey 0 0).roomFor 2 resKeys 1 = false ∧ (mKey 0 0).bit F.CIPH_PAGE_STATUS_RECORDED 0 4 = false := by decide +kernel
theorem test_keyPageAssign : (after (.keyPageAssign .mgmt 0x11000100) (mKey 0 0)).keyState 4 = 1 ∧ (after (.keyPageAssign .mgmt 0x11000100) (mKey 0 0)).get F.CIPH_PAGE_STATUS_KIND 0 4 = 1 ∧
    (after (.keyPageAssign .mgmt 0x11000200) (mKey 0 0)).getP .mgmt F.CIPH_CMD_STATUS_REASON = 2 ∧ (after (.keyPageAssign .mgmt 0x13000100) (mKey 0 0)).getP .mgmt F.CIPH_CMD_STATUS_REASON = 6 ∧
    (after (.keyPageAssign .mgmt 0x11000100) (mKey 1 0)).getP .mgmt F.CIPH_CMD_STATUS_REASON = 1 := by decide +kernel
/-- A key page image: kind, slot, version 1, page 4, herd 1, keys of 1s and 2s. -/
def keyImg (kind slot : Nat) : List Byte :=
  leBytes 4 0x5059454B ++ leBytes 2 1 ++ leBytes 1 kind ++ leBytes 1 slot ++ leBytes 2 4 ++ leBytes 1 1 ++ leBytes 1 0 ++ leBytes 2 7 ++ List.replicate 50 0 ++
    List.replicate 32 1 ++ List.replicate 32 2
def mImg (st : Nat) (b : List Byte) : Mach := withPeat (mKey st 1) 0x40000 b
theorem wit_imageReason : (keyImg 1 0).length = 128 ∧ (mKey 1 1).imageReason 4 (keyImg 1 0) = none ∧ (mKey 2 1).imageReason 4 (keyImg 1 1) = none ∧ (mKey 2 1).imageReason 4 (keyImg 1 0) = some 1 ∧
    (mKey 1 1).imageReason 4 (keyImg 2 0) = some 6 := by decide +kernel
theorem wit_keyInstall : ((mImg 1 (keyImg 1 0)).tile 1 0 accRead 0x1FF 0x40000 128).2.toOption = some [{ target := 0, port := 0, addr := 0x40000, va := 0x40000, len := 128 }] ∧
    ((mImg 1 (keyImg 1 0)).readSegs [{ target := 0, port := 0, addr := 0x40000, va := 0x40000, len := 128 }]).2 = keyImg 1 0 ∧
    ((mImg 1 (keyImg 1 0)).writeVa 1 0 0x1FF 9 4 0 0x40040 (List.replicate 64 0)).2 = none ∧ ((mImg 1 (keyImg 1 0)).tile 1 1 accRead 0x1FF 0x40000 128).2.toOption = none := by decide +kernel
theorem test_keyInstall : (after (.keyInstall .mgmt 0x20000000) (mImg 1 (keyImg 1 0))).getP .mgmt F.CIPH_CMD_STATUS_BUSY = 1 ∧
    (after (.keyInstall .mgmt 0x20000000) (mImg 1 (keyImg 1 0))).ciph.installs.map (fun x => (x.page, x.slot, x.epoch)) = [(4, 0, 7)] ∧
    memGet (after (.keyInstall .mgmt 0x20000000) (mImg 1 (keyImg 1 0))).peat 0x4007F = 0 ∧ memGet (after (.keyInstall .mgmt 0x20000000) (mImg 1 (keyImg 1 0))).peat 0x40000 = 0x4B := by
  decide +kernel
theorem test_keyInstall_refused : (after (.keyInstall .mgmt 0x20000000) (mImg 2 (keyImg 1 0))).getP .mgmt F.CIPH_CMD_STATUS_REASON = 1 ∧
    (after (.keyInstall .mgmt 0x20000001) (mImg 1 (keyImg 1 0))).getP .mgmt F.CIPH_CMD_STATUS_REASON = 9 := by decide +kernel
def kp2 : KeyPage := { cur := some (1, 2), other := some (3, 4), switchAt := 0, record := none }
def mKeys (st kind : Nat) : Mach := (((mKey st kind).setKeyPage 4 kp2).set F.CIPH_PAGE_CHECK_OTHER 77 0 4).set F.CIPH_PAGE_STATUS_EPOCH 65535 0 4
theorem wit_keySwitch : (mKeys 3 1).Inv ∧ (mKeys 3 1).keyState 4 = 3 ∧ (mKeys 1 1).keyState 4 = 1 ∧ (mKeys 2 1).keyNamed 4 = false ∧ ((mKeys 2 1).set F.PEAT_GRAN 0x48040001 0 8).keyNamed 4 = true := by
  decide +kernel
theorem test_keySwitch : (after (.keySwitch .mgmt) (mKeys 3 1)).keyState 4 = 4 ∧ (after (.keySwitch .mgmt) (mKeys 3 1)).get F.CIPH_PAGE_STATUS_EPOCH 0 4 = 0 ∧
    (after (.keySwitch .mgmt) (mKeys 3 1)).get F.CIPH_PAGE_CHECK_CUR 0 4 = 77 ∧ (after (.keySwitch .mgmt) (mKeys 2 1)).getP .mgmt F.CIPH_CMD_STATUS_REASON = 1 := by decide +kernel
theorem test_keyPageRelease : (after (.keyPageRelease .mgmt) (mKeys 2 1)).keyState 4 = 0 ∧ (after (.keyPageRelease .mgmt) (mKeys 2 1)).get F.CIPH_PAGE_CHECK_OTHER 0 4 = 0 ∧
    (after (.keyPageRelease .mgmt) ((mKeys 2 1).set F.PEAT_GRAN 0x48040001 0 8)).getP .mgmt F.CIPH_CMD_STATUS_REASON = 0x0A := by decide +kernel
def ki (slot : Nat) : KeyInstall := { path := .mgmt, page := 4, slot := slot, key := (5, 6), limit := 0, epoch := 7 }
def mTake (st slot : Nat) : Mach := (mKeys st 1).putCiph { (mKeys st 1).ciph with installs := [ki slot] }
theorem wit_keyInstallComplete : (mTake 1 0).Inv ∧ (mTake 1 0).Running ∧ (mTake 1 0).ciph.installs.find? (fun y => decide (pathOff y.path = pathOff .mgmt)) = some (ki 0) ∧
    (mTake 1 0).landed 9 4 0 = true ∧ ((mTake 1 0).handOver 9 4 0 0 0).landed 9 4 0 = false ∧ (mTake 1 0).keyState 4 = 1 ∧ (mTake 2 1).keyState 4 = 2 ∧
    (mTake 2 1).bit F.CIPH_PAGE_STATUS_HELD 0 4 = false ∧ ((mTake 2 1).set F.CIPH_PAGE_STATUS_HELD 1 0 4).bit F.CIPH_PAGE_STATUS_HELD 0 4 = true ∧ (mTake 3 0).keyState 4 ≠ 1 := by decide +kernel
theorem test_keyInstallComplete : (after (.keyInstallComplete 0 .mgmt) (mTake 1 0)).keyState 4 = 2 ∧ (after (.keyInstallComplete 0 .mgmt) (mTake 1 0)).get F.CIPH_PAGE_STATUS_EPOCH 0 4 = 7 ∧
    (after (.keyInstallComplete 0 .mgmt) (mTake 1 0)).get F.CIPH_PAGE_LIMIT_LIMIT_LOG2 0 4 = 36 ∧ (after (.keyInstallComplete 0 .mgmt) (mTake 2 1)).keyState 4 = 3 ∧
    ((after (.keyInstallComplete 0 .mgmt) (mTake 2 1)).keyPage 4).other = some (5, 6) := by decide +kernel
theorem test_keyInstallComplete_late : (after (.keyInstallComplete 0 .mgmt) ((mTake 2 1).set F.CIPH_PAGE_STATUS_HELD 1 0 4)).keyState 4 = 4 ∧
    (after (.keyInstallComplete 0 .mgmt) (mTake 2 2)).keyState 4 = 4 ∧ (after (.keyInstallComplete 0 .mgmt) (mTake 3 0)).getP .mgmt F.CIPH_CMD_STATUS_REASON = 1 := by decide +kernel
theorem wit_keyRetire : (mKeys 4 1).Inv ∧ (mKeys 4 1).Running ∧ (mKeys 4 1).keyState 4 = 4 ∧ (mKeys 4 1).get F.CIPH_PAGE_STATUS_KIND 0 4 = 1 ∧ (mKeys 4 2).get F.CIPH_PAGE_STATUS_KIND 0 4 = 2 ∧
    ((mKeys 4 1).keyPage 4).switchAt + (mKeys 4 1).leaseAt 0 ≤ ((mKeys 4 1).advance (100 * ms)).now := by decide +kernel
theorem test_keyRetireTimeout : (after (.keyRetireTimeout (100 * ms) 4) (mKeys 4 1)).keyState 4 = 2 ∧ ((after (.keyRetireTimeout (100 * ms) 4) (mKeys 4 1)).keyPage 4).other = none ∧
    (after (.keyRetireTimeout (100 * ms - 1) 4) (mKeys 4 1)).keyState 4 = 4 := by decide +kernel
theorem test_rekeyWalkDone : (after (.rekeyWalkDone 0 4) (mKeys 4 2)).keyState 4 = 2 ∧ (after (.rekeyWalkDone 0 4) (mKeys 4 2)).evq.map (·.code) = [0x0A01, 0x0A03] := by decide +kernel
theorem wit_cipherMismatch : Mach.reset.Inv ∧ getBits (Mach.reset.get F.CIPH_STATUS_PRESENT) 2 1 = 1 ∧ Mach.reset.bit F.CIPH_ENG_STATUS_FENCED 2 = false ∧
    (Mach.reset.src (srcCiph 2)).handling = .none ∧ Mach.reset.srcState (srcCiph 2) < 2 ∧ Mach.reset.handlingCount < 16 ∧
    (Mach.reset.set F.CIPH_ENG_STATUS_FENCED 1 2).bit F.CIPH_ENG_STATUS_FENCED 2 = true := by decide +kernel
theorem test_cipherMismatch : (after (.cipherMismatch 0 2 false .nothing) Mach.reset).get F.CIPH_ENG_RECOMPUTED 2 = 1 ∧
    (after (.cipherMismatch 0 2 true (.frame 1 9)) Mach.reset).bit F.CIPH_ENG_STATUS_FENCED 2 = true ∧ (after (.cipherMismatch 0 2 true (.frame 1 9)) Mach.reset).ciph.frames = [(1, 9)] := by
  decide +kernel
def mDrbg : Mach := (Mach.reset.set F.CIPH_ENG_STATUS_DRBG_ONLY 1 2).set F.CIPH_STATUS_ENTROPY_OK 1
theorem wit_drbgBlockLimit : mDrbg.Inv ∧ mDrbg.bit F.CIPH_ENG_STATUS_DRBG_ONLY 2 = true ∧ mDrbg.bit F.CIPH_ENG_STATUS_FENCED 2 = false ∧ mDrbg.bit F.CIPH_ENG_STATUS_DRBG_ONLY 1 = false := by decide +kernel
theorem test_drbgBlockLimit : (after (.drbgBlockLimit 0 2) mDrbg).ciph.selfFenced = [2] ∧ (after (.drbgBlockLimit 0 2) mDrbg).get F.CIPH_ENG_FENCES 2 = 1 ∧
    (after (.drbgReseed 0 2) mDrbg).bit F.CIPH_ENG_STATUS_DRBG_ONLY 2 = false := by decide +kernel
theorem test_entropyTestFail : (after (.entropyTestFail 0 1) mDrbg).bit F.CIPH_ENG_STATUS_DRBG_ONLY 1 = true ∧ (after (.entropyTestFail 0 1) mDrbg).bit F.CIPH_STATUS_ENTROPY_OK = false ∧
    0x0A04 ∈ (after (.entropyTestFail 0 1) mDrbg).evq.map (·.code) := by decide +kernel
def mSelf : Mach := (mDrbg.set F.CIPH_ENG_STATUS_FENCED 1 2).putCiph { mDrbg.ciph with selfFenced := [2] }
theorem wit_entropySourcePass : mSelf.Inv ∧ (∀ e ∈ mSelf.ciph.selfFenced, e < 4) ∧ mSelf.srcState (srcCiph 2) < 2 ∧ 2 ≤ (mSelf.set F.FLT_SRC_STATUS_STATE 3 0 (srcCiph 2)).srcState (srcCiph 2) := by
  decide +kernel
theorem test_entropySourcePass : (after (.entropySourcePass 0) mSelf).bit F.CIPH_ENG_STATUS_FENCED 2 = false ∧
    (after (.entropySourcePass 0) (mSelf.set F.FLT_SRC_STATUS_STATE 3 0 (srcCiph 2))).bit F.CIPH_ENG_STATUS_FENCED 2 = true := by decide +kernel

/-! ## Faults -/

/-- A module with herd 1 whose source x, selected on the management path, is in a state of FLT_SRC_STATUS with counts, and in a state of the collector. -/
def mSrc (x st : Nat) (f : FltSrc) : Mach :=
  (((((mQ.setSrc x f).set F.FLT_SRC_STATUS_STATE st 0 x).set F.FLT_SRC_STATUS_COUNT 3 0 x).set F.FLT_SRC_STATUS_RECOVERIES 2 0 x).set F.FLT_SRC_STATUS_HANDLING
    (if f.handling = .none then 0 else 1) 0 x).setP .mgmt F.FLT_SRC_SEL_SOURCE x
/-- A source under handling. -/
def under (h : Handling) : FltSrc := { Mach.freshSrc with handling := h }
theorem wit_faultCommands : (mSrc 70 0 Mach.freshSrc).Inv ∧ (mSrc 70 0 Mach.freshSrc).Steward .mgmt F.FLT_SRC_CMD_OP.addr ∧ (mSrc 70 0 Mach.freshSrc).getP .mgmt F.FLT_SRC_SEL_SOURCE = 70 ∧
    ((mSrc 70 0 Mach.freshSrc).src 70).handling = .none ∧ (mSrc 70 1 Mach.freshSrc).srcState 70 = 1 ∧ (mSrc 70 1 Mach.freshSrc).bit F.FLT_SRC_STATUS_UNCOVERED 0 70 = false ∧
    (mSrc 70 1 Mach.freshSrc).flt.queue.length < 512 := by decide +kernel
theorem wit_faultCommands_states : (mSrc 70 2 Mach.freshSrc).Inv ∧ (mSrc 70 2 Mach.freshSrc).srcState 70 = 2 ∧ (mSrc 319 3 Mach.freshSrc).Inv ∧ (mSrc 319 3 Mach.freshSrc).srcState 319 = 3 ∧
    (mSrc 319 3 Mach.freshSrc).getP .mgmt F.FLT_SRC_SEL_SOURCE = 319 ∧ (mSrc 256 2 Mach.freshSrc).Inv ∧ (mSrc 256 2 Mach.freshSrc).getP .mgmt F.FLT_SRC_SEL_SOURCE = 256 ∧
    (mSrc 33 3 Mach.freshSrc).Inv ∧ (mSrc 33 3 Mach.freshSrc).bit F.PORT_CTL_ENABLE 1 = false ∧ (mSrc 0 1 (under .degraded)).Inv ∧ ((mSrc 0 1 (under .degraded)).src 0).handling ≠ .none ∧
    (mSrc 0 1 Mach.freshSrc).Steward .mgmt F.FLT_Q_POP.addr := by decide +kernel
theorem test_faultSourceClear : (after (.faultSourceClear .mgmt) (mSrc 70 1 Mach.freshSrc)).srcState 70 = 0 ∧
    (after (.faultSourceClear .mgmt) (mSrc 70 1 Mach.freshSrc)).get F.FLT_SRC_STATUS_RECOVERIES 0 70 = 0 ∧
    ((after (.faultSourceClear .mgmt) (mSrc 319 3 Mach.freshSrc)).src 319).handling = .return ∧
    0x0012 ∈ (after (.faultSourceClear .mgmt) (mSrc 256 2 Mach.freshSrc)).evq.map (·.code) ∧ ((after (.faultSourceClear .mgmt) (mSrc 0 1 (under .degraded))).src 0).pendingCmd = 1 := by
  decide +kernel
theorem test_faultSourceFence : (after (.faultSourceFence .mgmt) (mSrc 70 0 Mach.freshSrc)).srcState 70 = 3 ∧
    (after (.faultSourceFence .mgmt) (mSrc 70 0 Mach.freshSrc)).bit F.CHU_TILE_STATUS_FENCED 0 6 = true ∧
    (after (.faultSourceFence .mgmt) (mSrc 293 1 Mach.freshSrc)).bit F.CLK_PLL_COAST 1 = true ∧ (after (.faultSourceFence .mgmt) (mSrc 70 2 Mach.freshSrc)).srcState 70 = 2 := by decide +kernel
def mFltQ : Mach := mQ.putFlt { mQ.flt with queue := [[1], [2]], overflowRaised := true }
theorem test_faultQueuePop : (after (.faultQueuePop .mgmt) mFltQ).flt.queue = [[2]] ∧ (after (.faultQueuePop .mgmt) mFltQ).flt.overflowRaised = true ∧
    (after (.faultQueuePop .mgmt) (after (.faultQueuePop .mgmt) mFltQ)).flt.overflowRaised = false := by decide +kernel
def mWindow : Mach := mSrc 70 1 { Mach.freshSrc with windowEnd := some 50 }
theorem wit_faultWindowExpire : mWindow.Inv ∧ (mWindow.src 70).windowEnd = some 50 ∧ 50 ≤ (mWindow.advance 50).now ∧ (mWindow.advance 49).now < 50 := by decide +kernel
theorem test_faultWindowExpire : (after (.faultWindowExpire 50 70) mWindow).get F.FLT_SRC_STATUS_COUNT 0 70 = 0 ∧ (after (.faultWindowExpire 49 70) mWindow).get F.FLT_SRC_STATUS_COUNT 0 70 = 3 := by
  decide +kernel
theorem wit_quietPeriodExpire : (max 1 ((mSrc 70 1 Mach.freshSrc).get F.FLT_CLASS_QUIET_QUIET_MS 0 70) * ms ≤ 65536 * ms) ∧
    ((mSrc 70 1 Mach.freshSrc).src 70).lastEvent + max 1 ((mSrc 70 1 Mach.freshSrc).get F.FLT_CLASS_QUIET_QUIET_MS 0 70) * ms ≤ ((mSrc 70 1 Mach.freshSrc).advance (65536 * ms)).now ∧
    max (((mSrc 70 2 Mach.freshSrc).src 70).fenceDone.getD 0) ((mSrc 70 2 Mach.freshSrc).src 70).lastEvent + max 1 ((mSrc 70 2 Mach.freshSrc).get F.FLT_CLASS_QUIET_QUIET_MS 0 70) * ms ≤
      ((mSrc 70 2 Mach.freshSrc).advance (65536 * ms)).now ∧ (mSrc 70 2 Mach.freshSrc).handlingCount < 16 ∧
    ((mSrc 70 1 Mach.freshSrc).advance 0).now < ((mSrc 70 1 Mach.freshSrc).src 70).lastEvent + max 1 ((mSrc 70 1 Mach.freshSrc).get F.FLT_CLASS_QUIET_QUIET_MS 0 70) * ms := by decide +kernel
theorem test_quietPeriodExpire : (after (.quietPeriodExpire (65536 * ms) 70) (mSrc 70 1 Mach.freshSrc)).srcState 70 = 0 ∧
    ((after (.quietPeriodExpire (65536 * ms) 70) (mSrc 70 2 Mach.freshSrc)).src 70).handling = .return ∧
    ((after (.quietPeriodExpire (65536 * ms) 256) (mSrc 256 2 Mach.freshSrc)).src 256).handling = .none := by decide +kernel
theorem wit_fenceComplete : (mSrc 70 2 (under .fence)).Inv ∧ ((mSrc 70 2 (under .fence)).src 70).handling = .fence ∧ ((mSrc 70 2 (under .fence)).src 70).pendingCmd = 0 ∧
    (mSrc 70 2 (under .fence)).flt.waiting = [] ∧ 2 ≤ (mSrc 70 2 (under .fence)).srcState 70 := by decide +kernel
theorem test_fenceComplete : ((after (.fenceComplete 9 70) (mSrc 70 2 (under .fence))).src 70).fenceDone = some (((mSrc 70 2 (under .fence)).now + 9)) ∧
    (after (.fenceComplete 9 70) (mSrc 70 2 (under .fence))).bit F.FLT_SRC_STATUS_HANDLING 0 70 = false := by decide +kernel
def mBack (x : Nat) : Mach := (mSrc x 2 (under .return)).set F.FLT_SRC_STATUS_RETURNING 1 0 x
theorem wit_unitReturnComplete : (mBack 70).Inv ∧ ((mBack 70).src 70).handling = .return ∧ ((mBack 70).src 70).pendingCmd = 0 ∧ ((mBack 70).src 70).fatalMeanwhile = false ∧
    ((mBack 70).src 70).clearReturn = false ∧ (mBack 70).flt.waiting = [] ∧ (mBack 70).bit F.FLT_SRC_STATUS_UNCOVERED 0 70 = false ∧ (mBack 70).tileHeld 70 6 = false ∧
    (mBack 192).Inv ∧ ((mBack 192).src 192).handling = .return ∧ (mBack 299).Inv ∧ ((mBack 299).src 299).handling = .return ∧ (mBack 1).Inv ∧ (mBack 1).lkState 1 ≠ 1 ∧ (mBack 1).lkState 1 ≠ 2 ∧
    (mBack 319).Inv ∧ ((mBack 319).src 319).handling = .return := by decide +kernel
theorem test_unitReturnComplete : (after (.unitReturnComplete 0 299 true) (mBack 299)).srcState 299 = 0 ∧
    (after (.unitReturnComplete 0 299 true) (mBack 299)).get F.FLT_SRC_STATUS_RECOVERIES 0 299 = 3 ∧ (after (.unitReturnComplete 0 299 true) (mBack 299)).bit F.CLK_PLL_LOCKED 7 = true ∧
    2 ≤ (after (.unitReturnComplete 0 299 false) (mBack 299)).srcState 299 ∧ ((after (.unitReturnComplete 0 299 false) (mBack 299)).src 299).handling = .fence := by decide +kernel
def mDegr : Mach := mSrc 70 1 (under .degraded)
def mDegrWait : Mach := mDegr.putEvq [{ evt 0 with code := 0x0010, source := 70 }]
theorem wit_handlingEnd : mDegr.Inv ∧ (mDegr.src 70).handling = .degraded ∧ (∀ e ∈ mDegr.evq, e.code = 0x0010 → e.source ≠ 70) ∧ (mDegr.src 70).pendingCmd = 0 ∧
    (mDegr.src 70).fatalMeanwhile = false ∧ mDegr.flt.waiting = [] ∧ mDegr.srcState 70 = 1 ∧ mDegr.severe 70 = false ∧ mDegrWait.Inv ∧ (mDegrWait.src 70).handling = .degraded ∧
    (∃ e ∈ mDegrWait.evq, e.code = 0x0010 ∧ e.source = 70) := by decide +kernel
theorem test_handlingEnd : ((after (.handlingEnd 0 70) mDegr).src 70).handling = .none ∧ (after (.handlingEnd 0 70) mDegr).srcState 70 = 1 ∧
    ((after (.handlingEnd 0 70) mDegrWait).src 70).handling = .degraded := by decide +kernel

/-! ## Clocks -/

def mX (ok : Nat) : Mach := mQ.set F.CLK_STATUS_XTAL_OK ok
theorem wit_crystalStable : (mX 0).Inv ∧ (mX 0).clk.xtalLost = false ∧ (mX 0).bit F.CLK_STATUS_XTAL_OK = false ∧ (mX 1).Inv ∧ (mX 1).bit F.CLK_STATUS_XTAL_OK = true := by decide +kernel
theorem test_crystalStable : (after (.crystalStable 0) (mX 0)).bit F.CLK_STATUS_XTAL_OK = true ∧ (after (.crystalStable 0) (mX 0)).onOscillator = false ∧
    (after (.crystalStable 0) ((mX 0).putClk { (mX 0).clk with xtalLost := true })).bit F.CLK_STATUS_XTAL_OK = false := by decide +kernel
def mEarly : Mach := (mX 0).set F.CLK_BOOT_STEP 2
theorem wit_crystalStartTimeout : mEarly.Inv ∧ mEarly.get F.CLK_BOOT_STEP ≤ 2 ∧ mEarly.clk.bootAt + 20 * ms ≤ (mEarly.advance (20 * ms)).now ∧ mEarly.halted = false ∧
    (mEarly.advance 0).now < mEarly.clk.bootAt + 20 * ms := by decide +kernel
theorem test_crystalStartTimeout : (after (.crystalStartTimeout (20 * ms)) mEarly).halted = true ∧ (after (.crystalStartTimeout (20 * ms)) mEarly).faultLine = true ∧
    (after (.crystalStartTimeout (20 * ms - 1)) mEarly).halted = false := by decide +kernel
theorem test_crystalLost : (after (.crystalLost 0) (mX 1)).bit F.CLK_PLL_COAST 7 = true ∧ (after (.crystalLost 0) (mX 1)).get F.CLK_STATUS_REF = 1 ∧
    0x0B01 ∈ (after (.crystalLost 0) (mX 1)).evq.map (·.code) ∧ (after (.crystalLost 0) (mX 0)).clk.xtalLost = false := by decide +kernel
def mOsc : Mach := (mX 1).set F.CLK_STATUS_OSC_OK 1
theorem wit_oscillatorLost : mOsc.Inv ∧ mOsc.bit F.CLK_STATUS_XTAL_OK = true ∧ mOsc.bit F.CLK_STATUS_OSC_OK = true := by decide +kernel
theorem test_oscillatorLost : (after (.oscillatorLost 0) mOsc).bit F.CLK_STATUS_OSC_OK = false ∧ (after (.oscillatorLost 0) mOsc).get F.FLT_SRC_EVENTS 0 srcOsc = 1 ∧
    1 ∈ (after (.oscillatorLost 0) mOsc).evq.map (·.info1.toNat) := by decide +kernel
/-- PLL 3 locked or not, its source in a state, the crystal there or not, and domain 12 running from it. -/
def mPll (locked st xtal : Nat) : Mach :=
  ((((mX xtal).set F.CLK_PLL_LOCKED locked 3).set F.FLT_SRC_STATUS_STATE st 0 (srcPll 3)).set F.CLK_DOM_STATUS_PLL 3 0 12).set F.CLK_DOM_STATUS_RUNNING 1 0 12
theorem wit_pllLock : (mPll 0 0 1).Inv ∧ (mPll 0 0 1).srcState (srcPll 3) < 2 ∧ (mPll 0 0 1).bit F.CLK_PLL_LOCKED 3 = false ∧ (mPll 0 2 1).Inv ∧ 2 ≤ (mPll 0 2 1).srcState (srcPll 3) := by
  decide +kernel
theorem test_pllLock : (after (.pllLock 0 3) (mPll 0 0 1)).bit F.CLK_PLL_LOCKED 3 = true ∧ (after (.pllLock 0 3) (mPll 0 2 1)).bit F.CLK_PLL_LOCKED 3 = false := by decide +kernel
theorem wit_pllLoss : (mPll 1 0 0).Inv ∧ (mPll 1 0 0).bit F.CLK_PLL_LOCKED 3 = true ∧ (mPll 1 0 0).bit F.CLK_STATUS_XTAL_OK = false ∧ (mPll 1 1 1).Inv ∧
    ((mPll 1 1 1).src (srcPll 3)).handling = .none ∧ (mPll 1 1 1).srcState (srcPll 3) < 2 ∧ (mPll 1 1 1).handlingCount < 16 ∧ (mPll 1 1 1).get F.CLK_DOM_STATUS_PLL 0 12 = 3 ∧
    (mPll 1 1 1).bit F.CLK_DOM_STATUS_RUNNING 0 12 = true := by decide +kernel
theorem test_pllLoss : (after (.pllLoss 0 3 true) (mPll 1 1 1)).get F.CLK_DOM_STATUS_PLL 0 12 = 4 ∧ (after (.pllLoss 0 3 true) (mPll 1 1 1)).srcState (srcPll 3) = 2 ∧
    (after (.pllLoss 0 3 true) (mPll 1 0 0)).get F.CLK_DOM_STATUS_PLL 0 12 = 3 := by decide +kernel
def mMoved : Mach := ((mPll 1 0 1).set F.CLK_DOM_STATUS_PLL 4 0 12).set F.CLK_DOM_STATUS_ON_ALT 1 0 12
theorem wit_pllDomainReturn : mMoved.Inv ∧ mMoved.srcState (srcPll 3) < 2 ∧ mMoved.bit F.CLK_PLL_LOCKED 3 = true ∧ mMoved.active = none ∧ domainPll 12 = some 3 ∧
    mMoved.bit F.CLK_DOM_STATUS_ON_ALT 0 12 = true := by decide +kernel
theorem test_pllDomainReturn : (after (.pllDomainReturn 0 3) mMoved).get F.CLK_DOM_STATUS_PLL 0 12 = 3 ∧
    (after (.pllDomainReturn 0 3) (mMoved.set F.CLK_PLL_LOCKED 0 3)).get F.CLK_DOM_STATUS_PLL 0 12 = 4 := by decide +kernel
/-- A domain that runs, without a plan and with one ACTIVE. -/
def mDom (d : Nat) : Mach := mQ.set F.CLK_DOM_STATUS_RUNNING 1 0 d
def mDomPlan (d : Nat) : Mach := (mBank pl0 5).set F.CLK_DOM_STATUS_RUNNING 1 0 d
theorem wit_domainIdleStop : (mDom 59).Inv ∧ domainIdles 59 = true ∧ max 1 ((mDom 59).get F.CLK_IDLE_US) * us ≤ 65536 * us ∧ ((mDom 59).advance 0).plannedGap 59 = none ∧
    (mDom 59).domainBusy 59 = false ∧ (mDom 59).bit F.CLK_DOM_STATUS_RUNNING 0 59 = true ∧ (mDomPlan 11).Inv ∧ domainIdles 11 = true ∧ domainPeat 11 = true ∧
    (mDomPlan 11).active.isSome = true ∧ (mDomPlan 11).domainBusy 11 = false ∧ ((mDomPlan 11).advance 0).plannedGap 11 = none ∧ (mDom 11).active = none ∧ domainIdles 57 = false := by decide +kernel
theorem test_domainIdleStop : (after (.domainIdleStop 0 59 (65536 * us)) (mDom 59)).bit F.CLK_DOM_STATUS_RUNNING 0 59 = false ∧
    (after (.domainIdleStop 0 11 (65536 * us)) (mDomPlan 11)).bit F.PEAT_C_STATUS_SELF_REFRESH 23 = true ∧
    (after (.domainIdleStop 0 11 (65536 * us)) (mDom 11)).bit F.CLK_DOM_STATUS_RUNNING 0 11 = true := by decide +kernel
def mStill (d : Nat) : Mach := mQ.set F.CLK_DOM_STATUS_RUNNING 0 0 d
def mStarting (d : Nat) : Mach := (mStill d).putClk { (mStill d).clk with starting := [(d, 5)] }
theorem wit_domainDemandStart : (mStill 59).Inv ∧ (domainPll 59).isSome = true ∧ (mStill 59).bit F.CLK_DOM_STATUS_RUNNING 0 59 = false ∧ alGet (mStill 59).clk.starting 59 = none ∧
    domainPll 0 = none ∧ (mStarting 59).Inv ∧ alGet (mStarting 59).clk.starting 59 = some 5 ∧ (mStarting 20).Inv ∧ (mStarting 35).Inv := by decide +kernel
theorem test_domainDemandStart : alGet (after (.domainDemandStart 7 59) (mStill 59)).clk.starting 59 = some ((mStill 59).now + 7) ∧
    alGet (after (.domainDemandStart 7 0) (mStill 0)).clk.starting 0 = none := by decide +kernel
theorem test_domainStartComplete : (after (.domainStartComplete 0 59) (mStarting 59)).bit F.CLK_DOM_STATUS_RUNNING 0 59 = true ∧
    (after (.domainStartComplete 0 20) ((mStarting 20).set F.FLT_SRC_STATUS_STATE 2 0 (srcPll 3))).get F.CLK_DOM_STATUS_PLL 0 20 = 4 ∧
    (after (.domainStartComplete 0 59) (mStill 59)).bit F.CLK_DOM_STATUS_RUNNING 0 59 = false := by decide +kernel
/-- Thresholds of 90, 100, 105 and 115 degrees with 3 of hysteresis. -/
def mHot (level : Nat) : Mach := (mQ.putCfg { mQ.cfg with thermal := (90, 100, 105, 115, 3) }).putClk { mQ.clk with tempLevel := level }
theorem wit_throttleEvaluate : (mHot 1).Inv ∧ (mHot 1).asleep = false ∧ (mHot 1).cfg.thermal = (90, 100, 105, 115, 3) ∧ (mHot 1).thermalLevel 88 = 1 ∧ (mHot 0).thermalLevel 88 = 0 ∧
    ((mHot 1).set F.CLK_STATUS_POWER_STATE 0).Inv ∧ ((mHot 1).set F.CLK_STATUS_POWER_STATE 0).asleep = true := by decide +kernel
theorem test_throttleEvaluate : (after (.throttleEvaluate 0 2 101 480 9000 []) (mHot 0)).get F.CLK_STATUS_THROTTLE = 3 ∧ (after (.throttleEvaluate 0 2 101 480 8500 []) (mHot 0)).get F.CLK_STATUS_THROTTLE = 2 ∧
    0x0B02 ∈ (after (.throttleEvaluate 0 2 101 480 8500 []) (mHot 0)).evq.map (·.code) := by decide +kernel
theorem test_throttleEvaluate_trip : (after (.throttleEvaluate 0 2 115 480 100 []) (mHot 0)).get F.CLK_STATUS_THROTTLE = 4 ∧ (after (.throttleEvaluate 0 2 115 480 100 []) (mHot 0)).asleep = true ∧
    (after (.throttleEvaluate 0 2 115 480 100 []) (mHot 0)).bit F.PEAT_C_STATUS_SELF_REFRESH 9 = true := by decide +kernel

/-! ## Resets and boot -/

/-- The state after reset with the boot at a step. -/
def mStep (n : Nat) : Mach := Mach.reset.set F.CLK_BOOT_STEP n
/-- In service, with a fault source locked, and with the crystal in use. -/
def mServ : Mach := ((mStep 11).set F.FLT_SRC_STATUS_STATE 3 0 300).set F.CLK_STATUS_XTAL_OK 1
theorem wit_resets : (mServ.putClk { mServ.clk with pwrGood := false }).Inv ∧ (mServ.putClk { mServ.clk with pwrGood := false }).clk.pwrGood = false ∧
    mServ.Inv ∧ mServ.Steward .mgmt F.CLK_RESET_CMD_OP.addr ∧ mServ.clk.input = true ∧ (0x2000A5C3 : Word).toNat % 65536 = 0xA5C3 ∧ getBits (0x2000A5C3 : Word).toNat 28 4 = 2 ∧
    getBits (0x1000A5C3 : Word).toNat 28 4 = 1 ∧ 10 * ms + 1600 < 11 * ms ∧ us + 1600 < 2 * us ∧ 2 * us + 1600 < 10 * ms ∧ mServ.asleep = false ∧ 4 ≤ mServ.get F.CLK_BOOT_STEP ∧
    (mServ.regs.map (·.1)).Nodup ∧ (mStep 3).Inv ∧ (mStep 3).get F.CLK_BOOT_STEP < 4 ∧ (0x2000A5C2 : Word).toNat % 65536 ≠ 0xA5C3 ∧ mServ.clk.pwrGood = true ∧
    mServ.cfg.piece = none ∧ mServ.cfg.copy = none := by decide +kernel
theorem test_powerOnReset : (after (.powerOnReset 0) (mServ.putClk { mServ.clk with pwrGood := false, trip := true })).reg F.CLK_RESET_CAUSE_INPUT.addr = 33 := by decide +kernel
theorem test_resetCmdPowerOn : (after (.resetCmdPowerOn .mgmt 0x2000A5C3) mServ).get F.CLK_BOOT_STEP = 1 := by decide +kernel
theorem test_resetCmdPowerOn_key : (after (.resetCmdPowerOn .mgmt 0x2000A5C2) mServ).get F.FLT_SRC_EVENTS 0 srcRegMgmt = 1 := by decide +kernel
theorem test_resetCmdWarm : (after (.resetCmdWarm .mgmt 0x1000A5C3) mServ).srcState 300 = 3 := by decide +kernel
theorem test_warmReset : (after (.warmReset 0) ((mStep 6).set F.PEAT_GRAN 0x50000001 0 8)).get F.PEAT_GRAN 0 8 = 0x50000001 := by decide +kernel
theorem test_sysResetPulse : (after (.sysResetPulse 0 (2 * us)) mServ).get F.CLK_BOOT_STEP = 3 := by decide +kernel
/-- A configuration image file with module id 5, a RESERVE section of its own length 0 in its directory, its CRC32C in bytes 0x20 to 0x23. -/
def cfgFile : List Byte :=
  leBytes 4 0x47464E43 ++ leBytes 2 1 ++ leBytes 2 256 ++ leBytes 4 272 ++ leBytes 4 5 ++ leBytes 4 1 ++ leBytes 4 256 ++ leBytes 8 0 ++ leBytes 4 3478075494 ++
    List.replicate 220 0 ++ leBytes 2 8 ++ leBytes 2 1 ++ leBytes 4 272 ++ leBytes 8 0
/-- CRC-32C with every byte's state compared with its width, so that the kernel evaluates it byte by byte. -/
def crcTight (c : Nat) : List Byte → Nat
  | [] => c
  | b :: r => if crcByte polyCastagnoli c b.toNat < 2 ^ 32 then crcTight (crcByte polyCastagnoli c b.toNat) r else 0
theorem crcTight_eq (d : List Byte) : ∀ c, crcTight c d ≠ 0 → d.foldl (fun c b => crcByte polyCastagnoli c b.toNat) c = crcTight c d := by
  induction d with
  | nil => intro c _; rfl
  | cons b r ih =>
    intro c h
    unfold crcTight at h ⊢
    split at h
    · next hlt => simp only [List.foldl_cons, hlt, if_true]; exact ih _ h
    · exact absurd rfl h
theorem crcOf_tight (d : List Byte) (c : Nat) (h : crcTight 0xFFFFFFFF d = c) (hc : c ≠ 0) : crcOf polyCastagnoli d = c ^^^ 0xFFFFFFFF := by
  unfold crcOf
  rw [crcTight_eq d _ (by rw [h]; exact hc), h]
theorem crcOf_cfg : crcOf polyCastagnoli (cfgFile.take 0x20 ++ List.replicate 4 0 ++ cfgFile.drop 0x24) = 3478075494 :=
  crcOf_tight _ 816891801 (by decide +kernel) (by decide)
/-- A flash that holds the file, and what it reads as. -/
def cfgFlash : Memory := cfgFile.zipIdx.map (fun x => (flConfig + x.2, ~~~x.1))
theorem cfgFlash_bytes : (List.range 272).map (fun i => ~~~(memGet cfgFlash (flConfig + i))) = cfgFile := by decide +kernel
theorem flashBytes_file (m : Mach) (hf : m.flash = cfgFlash) (hw : m.wr = []) : m.flashBytes flConfig 272 = cfgFile := by
  have h : m.flashBytes flConfig 272 = (List.range 272).map (fun i => ~~~(memGet cfgFlash (flConfig + i))) := by
    simp [Mach.flashBytes, Mach.rdBytes, Mach.rd, Mach.base, hf, hw, List.map_map, Function.comp_def]
  rw [h, cfgFlash_bytes]
theorem flashBytes_take (m : Mach) (a i k n : Nat) (h : i + k ≤ n) : m.flashBytes (a + i) k = ((m.flashBytes a n).drop i).take k := by
  apply List.ext_getElem
  · simp [Mach.flashBytes, Mach.rdBytes]; omega
  · intro j _ _
    simp [Mach.flashBytes, Mach.rdBytes, Nat.add_assoc]
/-- What its section says: the window table in granules 0 to 15, the table's copy in granule 16. -/
def ci : ConfigImage :=
  { ports := [], training := [], time := { role := 0, hasBackup := false, primaryPort := 0, primaryModule := 0, backupPort := 0, depth := 0, backupModule := 0, backupDepth := 0 }
    asym := [], classes := [], curves := [], thermal := (0, 0, 0, 0, 0), ip6 := [], ip4 := 0, reserve := [(1, 0, 16), (2, 16, 1)], pools := [], origin := 0, routes := [], peers := []
    keys := [], regs := [] }
def bw (failed : List Nat) : BootWork := { image := ci, failed := failed, keepOk := false, sfdpOk := true, sizeLog2 := 26 }
def flashed (m : Mach) (a : Nat) (d : List Byte) : Mach := { m with flash := memWrite m.flash a (d.map (fun b => ~~~b)) }
theorem wit_bootStepAdvance : (mStep 1).Inv ∧ (mStep 1).asleep = false ∧ (mStep 1).halted = false ∧ ((mStep 2).set F.CLK_STATUS_XTAL_OK 1).Inv ∧ (mStep 2).bit F.CLK_STATUS_XTAL_OK = false ∧
    (∀ p, p < 32 → (mStep 6).portOn p = true → (mStep 6).lkState p = 3) ∧ (∃ p, p < 32 ∧ ((mStep 6).cfgDefaults).portOn p = true ∧ ((mStep 6).cfgDefaults).lkState p ≠ 3) ∧
    ((mStep 8).set F.SLU_TIME_STATUS_STATE 5).tState = tRoot ∧ (mStep 8).tState ≠ tLocked ∧ (mStep 8).tState ≠ tRoot ∧
    (∃ k, k < 8 ∧ (mStep 3).bit F.CLK_PLL_LOCKED k = false ∧ (mStep 3).pllOut k = false) := by decide +kernel
def mPlls : Mach := (List.range 8).foldl (fun (m : Mach) k => m.set F.CLK_PLL_LOCKED 1 k) (mStep 3)
theorem wit_bootStepAdvance_3 : mPlls.Inv ∧ mPlls.get F.CLK_BOOT_STEP = 3 ∧ ∀ k, k < 8 → mPlls.bit F.CLK_PLL_LOCKED k = true := by decide +kernel
theorem test_bootStepAdvance : (after (.bootStepAdvance 0 (bw [])) (mStep 1)).get F.CLK_BOOT_STEP = 2 ∧
    (after (.bootStepAdvance 0 (bw [])) mPlls).bit F.CLK_DOM_STATUS_RUNNING 0 58 = true := by decide +kernel
/-- Blank flash holds no image, and the boot halts. -/
theorem wit_bootStepAdvance_4 : (mStep 4).Inv ∧ (mStep 4).cfg.copy = none ∧ (mStep 4).bootRec.stage ≠ 2 ∧ (mStep 4).fwVerify flActive ≠ 0 ∧ (mStep 4).stageComplete = false := by decide +kernel
theorem test_bootStepAdvance_halts : (after (.bootStepAdvance 0 (bw [])) (mStep 4)).halted = true := by decide +kernel
/-- The header of a firmware image of 4,096 bytes for any part of generation 1, SEC_VERSION 1. -/
def fwHead : List Byte := leBytes 4 0x57524946 ++ leBytes 2 1 ++ leBytes 2 256 ++ leBytes 4 4096 ++ leBytes 2 0xFFFF ++ leBytes 2 1 ++ leBytes 4 9 ++ leBytes 4 1
def recFile (stage : Nat) : List Byte := recBytes { seq := 1, floor := 0, revoke := 0xFF, stage := stage, pieces := 1 }
def mFw (base stage : Nat) : Mach := flashed (flashed (mStep 4) 0 (recFile stage)) base fwHead
def fwImg (base stage : Nat) : List Byte := (mFw base stage).flashBytes base 4096
theorem wit_bootRec : (mFw flActive 0).Inv ∧ (mFw flActive 0).bootRec.stage = 0 ∧ (mFw flStaging 2).Inv ∧ (mFw flStaging 2).bootRec.stage = 2 ∧ (mFw flActive 0).cfg.copy = none := by
  decide +kernel
/-- The image verifies for every digest and signature function under which its key is a ROM key, its digest is the header's and its signature holds: the functions are the
model's free ones. -/
theorem wit_fwVerify (h1 : Config.romKey 0 = Config.sha384 (((fwImg flActive 0).drop (4096 - 1024)).take 388))
    (h2 : Config.sha384 (digestInput (fwImg flActive 0) 0x80 (4096 - 1024)) = BitVec.ofNat 384 (leAt (fwImg flActive 0) 0x80 48))
    (h3 : Config.pssVerify ((fwImg flActive 0).drop (4096 - 1024)) (((fwImg flActive 0).drop 0x80).take 48) = true) : (mFw flActive 0).fwVerify flActive = 0 := by
  have hl : leAt ((mFw flActive 0).flashBytes flActive 256) 8 4 = 4096 := by decide +kernel
  have hr : getBits (mFw flActive 0).bootRec.revoke 0 1 = 1 := by decide +kernel
  have a1 : leAt ((mFw flActive 0).flashBytes flActive 256) 0 4 = 0x57524946 := by decide +kernel
  have a2 : leAt ((mFw flActive 0).flashBytes flActive 256) 4 2 = 1 := by decide +kernel
  have a3 : leAt ((mFw flActive 0).flashBytes flActive 256) 6 2 = 256 := by decide +kernel
  have a4 : leAt ((mFw flActive 0).flashBytes flActive 256) 0x0C 2 = 0xFFFF := by decide +kernel
  have a5 : leAt ((mFw flActive 0).flashBytes flActive 256) 0x0E 1 = (mFw flActive 0).get F.ID_GEN_GENERATION := by decide +kernel
  have a6 : ¬ leAt ((mFw flActive 0).flashBytes flActive 256) 0x14 4 < (mFw flActive 0).bootRec.floor := by decide +kernel
  unfold fwImg at h1 h2 h3
  unfold Mach.fwVerify
  simp [hl, a1, a2, a3, a4, a5, a6, h1, h2, h3, hr, List.range, List.range.loop]
/-- The loader accepts the file in every module whose flash holds it and whose firmware reads version 1. -/
theorem cfgAccept_file (m : Mach) (hf : m.flash = cfgFlash) (hw : m.wr = []) (h3 : m.get F.CFG_IMAGE_MIN ≤ 1) (h4 : 1 ≤ m.get F.CFG_IMAGE_MAX) (h5 : m.configPartial = false)
    (h6 : reserveOk m.peatGranules ci.reserve = true) : m.cfgAccept ci = true ∧ m.cfgHas 13 = false := by
  have h2 := flashBytes_file m hf hw
  have h1 : m.flashBytes flConfig 256 = cfgFile.take 256 := by
    have h := flashBytes_take m flConfig 0 256 272 (by decide)
    rw [h2] at h
    exact h
  have h7 : m.flashBytes (flConfig + 0x0C) 2 = (cfgFile.drop 0x0C).take 2 := by rw [flashBytes_take m flConfig 0x0C 2 272 (by decide), h2]
  have a0 : leAt (cfgFile.take 256) 0 4 = 0x47464E43 := by decide +kernel
  have a1 : leAt (cfgFile.take 256) 6 2 = 256 := by decide +kernel
  have a2 : leAt (cfgFile.take 256) 8 4 = 272 := by decide +kernel
  have a3 : leAt (cfgFile.take 256) 4 2 = 1 := by decide +kernel
  have a4 : leAt (cfgFile.take 256) 0x20 4 = 3478075494 := by decide +kernel
  have a5 : leAt (cfgFile.take 256) 0x14 4 = 256 := by decide +kernel
  have a6 : leAt (cfgFile.take 256) 0x10 4 = 1 := by decide +kernel
  have a7 : sectionsOf cfgFile 1 256 = [{ type := 8, sversion := 1, isOptional := false, offset := 272, length := 0, count := 0 }] := by decide +kernel
  have a8 : leNat ((cfgFile.drop 0x0C).take 2) = 5 := by decide +kernel
  have hs : m.cfgSections = [{ type := 8, sversion := 1, isOptional := false, offset := 272, length := 0, count := 0 }] := by
    unfold Mach.cfgSections
    simp only [h1, a2, h2, a5, a6, a7]
  have hform : m.cfgForm = true := by
    unfold Mach.cfgForm
    simp only [h1, a0, a1, a2, a3, a4, a5, a6, h2, hs, crcOf_cfg, h5]
    simp [h3, h4]
  have hh : ∀ k, m.cfgHas k = (8 == k) := by intro k; simp [Mach.cfgHas, hs]
  refine ⟨?_, by rw [hh]; rfl⟩
  simp [Mach.cfgAccept, Mach.cfgValues, hform, hh, h6, h7, a8]
def mCfg5 : Mach := { (mStep 5).set F.CFG_IMAGE_MAX 1 with flash := cfgFlash }
theorem wit_bootStepAdvance_5 : mCfg5.Inv ∧ mCfg5.get F.CLK_BOOT_STEP = 5 ∧ (mStep 5).cfgAccept ci = false := by decide +kernel
theorem wit_cfgAccept : mCfg5.cfgAccept ci = true ∧ mCfg5.cfgHas 13 = false :=
  cfgAccept_file _ (by decide +kernel) (by decide +kernel) (by decide +kernel) (by decide +kernel) (by decide +kernel) (by decide +kernel)
def mStore : Mach := (mStep 7).putCfg { (mStep 7).cfg with want := some ci.reserve }
theorem wit_bootStepAdvance_7 : mStore.Inv ∧ mStore.get F.CLK_BOOT_STEP = 7 ∧ mStore.bit F.PEAT_STATUS_ERASED = false ∧ mStore.cfg.want = some ci.reserve ∧
    reserveOk mStore.peatGranules ci.reserve = true ∧ mStore.peatGranules ≤ 2 ^ 19 ∧ mStore.clk.onDie = false ∧ mStore.clk.kept = none := by decide +kernel
theorem test_bootStepAdvance_store : ((after (.bootStepAdvance 0 (bw [])) mStore).gran 16).resv = true ∧ ((after (.bootStepAdvance 0 (bw [])) mStore).gran 17).state = 0 ∧
    (after (.bootStepAdvance 0 (bw [])) mStore).get F.CLK_BOOT_STEP = 8 ∧ (after (.bootStepAdvance 0 (bw [3, 4])) mStore).halted = true := by decide +kernel
def mCopy (n : Nat) : Mach := (flashed (flashed (mStep 4) 0 (recFile 2)) flStaging [1, 2, 3]).putCfg { (mStep 4).cfg with copy := some (n, 1), journal := some ([], 0) }
theorem wit_firmwareCopyBlock : (mCopy 1).Inv ∧ (mCopy 1).asleep = false ∧ (mCopy 1).cfg.copy = some (1, 1) ∧ (mCopy 1).cfg.journal = some ([], 0) ∧ (mCopy 1).bootRec.seq < 2 ^ 32 - 1 ∧
    (mCopy 2).Inv ∧ (mCopy 2).cfg.copy = some (2, 1) := by decide +kernel
theorem wit_bootStepOverrun : (mStep 6).Inv ∧ (mStep 6).get F.CLK_BOOT_STEP = 6 ∧ (6, 1721) ∈ (if (mStep 6).clk.warmBoot then [(3, 21), (4, 300), (5, 700), (6, 1700), (7, 1750), (8, 3100)]
      else [(3, 21), (4, 321), (5, 721), (6, 1721), (7, 2721), (8, 3721)]) ∧
    (mStep 6).clk.bootAt + 1721 * ms + (mStep 6).clk.extra < ((mStep 6).advance (1722 * ms)).now ∧ 6 ∉ (mStep 6).clk.overran ∧ (mStep 6).cfg.copy = none ∧
    ((mStep 6).advance 0).now ≤ (mStep 6).clk.bootAt + 1721 * ms + (mStep 6).clk.extra := by decide +kernel
theorem test_bootStepOverrun : (after (.bootStepOverrun (1722 * ms) (bw [])) (mStep 6)).get F.CLK_BOOT_STEP = 7 ∧
    (after (.bootStepOverrun (322 * ms) (bw [])) (mStep 4)).get F.FLT_SRC_EVENTS 0 srcFlash = 1 ∧ (after (.bootStepOverrun (1721 * ms) (bw [])) (mStep 6)).bit F.CLK_BOOT_FAILED = false := by
  decide +kernel
theorem wit_serviceLeave : (mStep 9).Inv ∧ (mStep 9).Steward .mgmt F.CLK_SERVICE_LEAVE.addr ∧ (mStep 9).get F.CLK_BOOT_STEP = 9 ∧ (mStep 9).bit F.CFG_STATUS_DEFAULTS = false ∧
    ((mStep 9).set F.CFG_STATUS_DEFAULTS 1).bit F.CFG_STATUS_DEFAULTS = true := by decide +kernel
theorem test_serviceLeave : (after (.serviceLeave .mgmt 1) (mStep 9)).get F.CLK_BOOT_STEP = 10 ∧ (after (.serviceLeave .mgmt 1) ((mStep 9).set F.CFG_STATUS_DEFAULTS 1)).get F.CLK_BOOT_STEP = 9 := by
  decide +kernel
def mDef : Mach := (mStep 11).set F.CFG_STATUS_DEFAULTS 1
def mDefNow : Mach := { mDef.set F.CFG_IMAGE_MAX 1 with flash := cfgFlash }
theorem wit_configDefaultsRepeat : mDef.Inv ∧ mDef.asleep = false ∧ mDef.bit F.CFG_STATUS_DEFAULTS = true ∧ 9 ≤ mDef.get F.CLK_BOOT_STEP ∧
    mDef.cfg.defaultsAt + 60000 * ms ≤ (mDef.advance (60000 * ms)).now ∧ mDef.cfgAccept ci = false := by decide +kernel
theorem wit_configDefaultsRepeat_accepted : mDefNow.cfgAccept ci = true :=
  (cfgAccept_file _ (by decide +kernel) (by decide +kernel) (by decide +kernel) (by decide +kernel) (by decide +kernel) (by decide +kernel)).1
theorem test_configDefaultsRepeat : (after (.configDefaultsRepeat (60000 * ms) ci) mDef).evq.map (·.code) = [0x0B00] ∧
    (after (.configDefaultsRepeat (60000 * ms - 1) ci) mDef).evq = [] := by decide +kernel
def mPower (keep stby : Bool) : Mach := (Mach.reset.set F.PEAT_CTL_KEEP_EN keep.toNat).putClk { Mach.reset.clk with onDie := true, stby := stby }
theorem wit_powerSupply : (mPower true true).Inv ∧ (mPower true true).clk.input = true ∧ (mPower true true).clk.onDie = true ∧ (mPower true true).bit F.PEAT_CTL_KEEP_EN = true ∧
    (mPower true true).bit F.ID_CAP0_PEAT_KEEP = true ∧ (mPower true true).clk.stby = true ∧ (mPower false true).Inv ∧ (mPower false true).bit F.PEAT_CTL_KEEP_EN = false ∧
    (mPower false true).clk.kept = none ∧ (mPower true true).asleep = false ∧ (mPower true true).clk.highAt = none := by decide +kernel
def mOut : Mach := after (.inputLoss 0) (mPower true true)
theorem wit_standbyRailLoss : mOut.Inv ∧ mOut.clk.input = false ∧ mOut.clk.off = false ∧ mOut.asleep = true := by decide +kernel
theorem test_inputLoss : mOut.clk.kept = some [] ∧ mOut.clk.off = false ∧ (after (.inputLoss 0) (mPower true false)).clk.off = true := by decide +kernel
theorem test_standbyRailLoss : (after (.standbyRailLoss 0) mOut).clk.off = true ∧ (after (.standbyRailLoss 0) mOut).clk.kept = none ∧ (after (.standbySenseLost 0) mOut).clk.stby = false ∧
    (after (.standbyRailLoss 0) (mPower true true)).clk.off = false := by decide +kernel
def mHigh : Mach := (mPower true true).putClk { (mPower true true).clk with highAt := some 5 }
theorem wit_highInputEvent : mHigh.Inv ∧ mHigh.clk.highAt = some 5 ∧ (mHigh.advance 6).now < 5 + 1000 * ms ∧ 5 + 1000 * ms ≤ (mHigh.advance (1001 * ms)).now := by decide +kernel
theorem test_highInputEvent : (after (.highInputEvent 6) mHigh).get F.FLT_SRC_EVENTS 0 srcPower = 0 ∧ (after (.highInputEvent (1001 * ms)) mHigh).get F.FLT_SRC_EVENTS 0 srcPower = 1 := by
  decide +kernel

/-! ## Configuration, firmware, quotes -/

/-- Staging at an address, with a set, PENDING or not. -/
def mStage (addr pend : Nat) (l : List StageEntry) : Mach :=
  ((mRoot.set F.CFG_STAGE_ADDR addr).set F.CFG_STATUS_PENDING pend).putCfg { mRoot.cfg with set := l }
def entry (a : Nat) : StageEntry := { addr := a, value := 7, path := .mgmt, key := none }
theorem wit_stageDataAppend : (mStage 0x300414 1 []).Inv ∧ (mStage 0x300414 1 []).Steward .mgmt F.CFG_STAGE_DATA.addr ∧ (mStage 0x300414 1 []).get F.CFG_STAGE_ADDR = 0x300414 ∧
    (mStage 0x300414 1 []).bit F.CFG_STATUS_PENDING = true ∧ (mStage 0x300414 0 []).bit F.CFG_STATUS_PENDING = false ∧ stageable 0x300414 = true ∧ stageable 0x30048 = true ∧
    stageable 0x40000 = false ∧ (mStage 0x40000 0 []).Inv := by decide +kernel
theorem wit_stageDataAppend_full : (mStage 0x300414 0 (List.replicate 1024 (entry 0x300414))).cfg.set.length = 1024 := by decide +kernel
theorem test_stageDataAppend : (after (.stageDataAppend .mgmt 9) (mStage 0x300414 0 [])).cfg.set.map (fun e => (e.addr, e.value)) = [(0x300414, 9)] ∧
    (after (.stageDataAppend .mgmt 9) (mStage 0x40000 0 [])).get F.CFG_STATUS_REASON = 4 ∧ (after (.stageDataAppend .mgmt 9) (mStage 0x300414 1 [])).get F.CFG_STATUS_REASON = 3 := by
  decide +kernel
theorem wit_stagedFieldWrite : (mStage 0 0 []).Steward .mgmt 0x300414 ∧ ((mStage 0 0 []).reg (pathOff .mgmt + keyOf F.FLT_SRC_SEL_SOURCE)).toNat = 0 ∧
    (((mStage 0 0 []).shadowMach.reg 0x300414).toNat ^^^ (9 : Word).toNat) &&& 0xFFFF ≠ 0 ∧
    (((mStage 0 0 []).shadowMach.reg 0x300414).toNat ^^^ ((mStage 0 0 []).shadowMach.reg 0x300414).toNat) &&& 0xFFFF = 0 ∧
    (((mStage 0 0 []).shadowMach.reg 0x3980004).toNat ^^^ ((mStage 0 0 []).shadowMach.reg 0x3980004).toNat ^^^ 2) &&& 2 ≠ 0 ∧ (mStage 0 0 []).Steward .mgmt 0x3980004 ∧
    (mStage 0 0 []).Steward .mgmt 0x30050 := by decide +kernel
theorem wit_stagedFieldWrite_pair : (mStage 0 0 []).Steward .mgmt 0x200038 ∧ ((mStage 0 0 []).reg (pathOff .mgmt + 0x200030)).toNat / 65536 % 4 = 0 ∧
    ((alGet (mStage 0 0 []).shadow (pathOff .mgmt + 0x200034)).getD ((mStage 0 0 []).reg (regKey 0x200034 0))).toNat = 0 ∧ (mStage 0 0 []).cfg.set = [] := by decide +kernel
theorem test_stagedFieldWrite : (after (.stagedFieldWrite .mgmt 0x300414 9) (mStage 0 0 [])).cfg.set.map (fun e => (e.addr, e.key)) = [(0x300414, some 0x300414)] ∧
    (after (.stagedFieldWrite .mgmt 0x300414 9) (mStage 0 0 [])).reg 0x300414 = (mStage 0 0 []).reg 0x300414 ∧
    (after (.stagedFieldWrite .mgmt 0x300414 9) (mStage 0 1 [])).bit F.CFG_STATUS_PENDING_WRITE = true := by decide +kernel
def mSet (l : List StageEntry) : Mach := (mStage 0 1 l).putCfg { mRoot.cfg with set := l, commitAt := some 0 }
theorem wit_discard : (mStage 0 0 [entry 0x300414]).Steward .mgmt F.CFG_COMMIT_OP.addr ∧ (mStage 0 0 [entry 0x300414]).active = none ∧
    (mStage 0 0 [entry 0x300414]).firstFrozen [entry 0x300414] = none ∧ (mStage 0 0 [entry 0x300414]).Inv := by decide +kernel
theorem test_discard : (after (.discard .mgmt) (mSet [entry 0x300414])).cfg.set = [] ∧ (after (.discard .mgmt) (mSet [entry 0x300414])).bit F.CFG_STATUS_PENDING = false := by decide +kernel
def mNoSlack : Mach := mBank { pl0 with slackPeriod := 0 } 5
theorem wit_commit : mNoSlack.Inv ∧ mNoSlack.Steward .mgmt F.CFG_COMMIT_OP.addr ∧ mNoSlack.bit F.CFG_STATUS_PENDING = false ∧
    (mNoSlack.active.map (fun b => b.2.slackPeriod)) = some 0 := by decide +kernel
theorem test_commit : (after (.commit .mgmt) mNoSlack).get F.CFG_STATUS_REASON = 1 ∧ (after (.commit .mgmt) (mStage 0 0 [entry 0x300414])).bit F.CFG_STATUS_PENDING = true ∧
    (after (.commit .mgmt) (mStage 0 1 [])).get F.CFG_STATUS_REASON = 3 := by decide +kernel
/-- A table base register of an enabled SQ is Frozen. -/
def mFrozen : Mach := (mQ.putCfg { mQ.cfg with set := [entry 0x1800000] })
theorem wit_stagedSetApply : (mSet [entry 0x300414]).Inv ∧ (mSet [entry 0x300414]).cfg.commitAt = some 0 ∧ ((mSet [entry 0x300414]).advance 0).active = none ∧
    ((((mSet [entry 0x300414]).advance 0).putCfg { (mSet [entry 0x300414]).cfg with commitAt := none }).set F.CFG_STATUS_PENDING 0).firstFrozen [entry 0x300414] = none ∧
    ([entry 0x300414].foldl Mach.applyEntry ((((mSet [entry 0x300414]).advance 0).putCfg { (mSet [entry 0x300414]).cfg with commitAt := none }).set F.CFG_STATUS_PENDING 0)).downs = [] ∧
    ([entry 0x300414].foldl Mach.applyEntry ((((mSet [entry 0x300414]).advance 0).putCfg { (mSet [entry 0x300414]).cfg with commitAt := none }).set F.CFG_STATUS_PENDING 0)).tileDowns = [] := by
  decide +kernel
theorem test_stagedSetApply : (after (.stagedSetApply 0) (mSet [entry 0x300414])).reg 0x300414 = 7 ∧ (after (.stagedSetApply 0) (mSet [entry 0x300414])).get F.CFG_COMMITS = 1 ∧
    (after (.stagedSetApply 0) (mSet [entry 0x300414])).cfg.set = [] := by decide +kernel
/-- A transfer of three pieces to staging, with an index. -/
def mFwu (index : Nat) (d : List Byte) : Mach :=
  ((flashed (Mach.reset.set F.FWU_INDEX index) 0 (recBytes { seq := 1, floor := 0, revoke := 0xFF, stage := 1, pieces := 3 })).set F.FWU_PIECES 3).set F.FWU_CRC (crcOf polyCastagnoli d)
theorem wit_fwu : (mFwu 0 []).Inv ∧ (mFwu 0 []).Steward .mgmt F.FWU_CMD_OP.addr ∧ (mFwu 2 []).get F.FWU_INDEX % 16384 = 2 ∧ (mFwu 2 []).bootRec.stage = 1 ∧ (mFwu 2 []).bootRec.pieces = 3 ∧
    (mFwu 2 []).bit F.FWU_STATUS_BUSY = false ∧ (mFwu 2 []).bootRec.seq < 2 ^ 32 - 1 ∧ (mFwu 2 []).targetCfg = false ∧ (mFwu 3 []).get F.FWU_INDEX % 16384 = 3 ∧
    Mach.reset.bootRec.stage ≠ 1 ∧ Mach.reset.get F.FWU_PIECES % 16384 = 0 ∧ (mFwu 0 []).get64 F.FWU_SRC_LO % 4096 = 0 ∧ (mFwu 0 []).herd0Peat ((mFwu 0 []).get64 F.FWU_SRC_LO) 4096 = false := by
  decide +kernel
/-- A piece of zeros in a herd-0 granule, with FWU_CRC set to its CRC32C or not. -/
def mPieceSrc (crc : Nat) : Mach := (((mFwu 2 []).set F.PEAT_GRAN 0x50000000 0 8).set64 F.FWU_SRC_LO (8 * 2 ^ 21)).set F.FWU_CRC crc
theorem crc_zeros : crcOf polyCastagnoli (List.replicate 4096 0) = 0x98F94189 := crcOf_tight _ (0x98F94189 ^^^ 0xFFFFFFFF) (by decide +kernel) (by decide)
theorem wit_fwuWrite : (mPieceSrc 0x98F94189).Inv ∧ (mPieceSrc 0x98F94189).get64 F.FWU_SRC_LO % 4096 = 0 ∧
    (mPieceSrc 0x98F94189).herd0Peat ((mPieceSrc 0x98F94189).get64 F.FWU_SRC_LO) 4096 = true ∧
    (mPieceSrc 0x98F94189).peat = [] ∧ (mPieceSrc 0x98F94189).wr = [] ∧ (mPieceSrc 0x98F94189).get F.FWU_CRC = 0x98F94189 ∧
    (mPieceSrc 5).get F.FWU_CRC = 5 := by decide +kernel
theorem rdBytes_empty (m : Mach) (hp : m.peat = []) (hw : m.wr = []) (a n : Nat) : m.rdBytes .peat a n = List.replicate n 0 := by
  simp [Mach.rdBytes, Mach.rd, Mach.base, hp, hw, memGet, alGet, List.map_const']
theorem wit_fwuWrite_crc : crcOf polyCastagnoli ((mPieceSrc 0x98F94189).rdBytes .peat ((mPieceSrc 0x98F94189).get64 F.FWU_SRC_LO) 4096) = (mPieceSrc 0x98F94189).get F.FWU_CRC := by
  rw [rdBytes_empty _ wit_fwuWrite.2.2.2.1 wit_fwuWrite.2.2.2.2.1, crc_zeros, wit_fwuWrite.2.2.2.2.2.1]
theorem test_fwuBegin : (after (.fwuBegin .mgmt false) (Mach.reset.set F.FWU_PIECES 8192)).bootRec.pieces = 8192 ∧
    (after (.fwuBegin .mgmt true) (Mach.reset.set F.FWU_PIECES 2049)).get F.FWU_STATUS_REASON = 2 := by decide +kernel
theorem test_fwuWrite : (after (.fwuWrite .mgmt false false) (mFwu 3 [])).get F.FWU_STATUS_REASON = 2 ∧ (after (.fwuWrite .mgmt true false) (mFwu 2 [])).get F.FWU_STATUS_REASON = 6 ∧
    (after (.fwuWrite .mgmt false true) (mFwu 2 [])).get F.FWU_STATUS_REASON = 7 := by decide +kernel
theorem test_fwuAbort : (after (.fwuAbort .mgmt) (mFwu 2 [])).bootRec.stage = 0 ∧ (after (.fwuAbort .mgmt) (mFwu 2 [])).bootRec.seq = 2 := by decide +kernel
def mPiece : Mach := (mFwu 2 []).putCfg { (mFwu 2 []).cfg with piece := some (2, 0xA5 :: List.replicate 4095 0xFF), fwTarget := some false }
theorem wit_fwuPieceWritten : mPiece.Inv ∧ mPiece.asleep = false ∧ mPiece.targetBase = flStaging ∧ mPiece.pieceIn 2 = false ∧ mPiece.pieceIn 0 = false ∧ mPiece.targetCfg = false := by
  decide +kernel
theorem wit_fwuPieceWritten_length : (0xA5 :: List.replicate 4095 0xFF : List Byte).length = 4096 := by rw [List.length_cons, List.length_replicate]
theorem test_fwuPieceWritten : (after (.fwuPieceWritten 0 false) ((mFwu 2 []).putCfg { (mFwu 2 []).cfg with piece := some (2, [1]) })).get F.FWU_STATUS_REASON = 5 := by decide +kernel
def mQuote (ready : Nat) (q : Option (Path × List Byte)) : Mach := ((mStep 6).set F.BOOT_STATUS_IDENTITY_READY ready).putCfg { (mStep 6).cfg with quote := q }
theorem wit_quotes : (mQuote 0 none).Inv ∧ (mQuote 0 none).asleep = false ∧ (mQuote 0 none).halted = false ∧ 5 ≤ (mQuote 0 none).get F.CLK_BOOT_STEP ∧
    (mQuote 0 none).bit F.BOOT_STATUS_IDENTITY_READY = false ∧ (mQuote 0 none).bit F.BOOT_STATUS_IDENTITY_FAIL = false ∧ (mQuote 0 none).Steward .mgmt F.BOOT_QUOTE_CMD_GO.addr ∧
    (mQuote 0 none).bit F.BOOT_QUOTE_STATUS_BUSY = false ∧ (mQuote 1 (some (.mgmt, List.replicate 384 5))).cfg.quote = some (.mgmt, List.replicate 384 5) ∧
    (mQuote 1 (some (.mgmt, List.replicate 384 5))).bit F.BOOT_STATUS_IDENTITY_READY = true ∧ ((mQuote 0 none).set F.BOOT_STATUS_IDENTITY_FAIL 1).bit F.BOOT_STATUS_IDENTITY_FAIL = true := by
  decide +kernel
theorem test_identityKeyReady : (after (.identityKeyReady 0 true) (mQuote 0 none)).bit F.BOOT_STATUS_IDENTITY_READY = true ∧
    (after (.identityKeyReady 0 false) (mQuote 0 (some (.mgmt, [])))).get F.BOOT_QUOTE_STATUS_REASON = 1 := by decide +kernel
theorem test_quoteGo : (after (.quoteGo .mgmt 1) (mQuote 0 none)).bit F.BOOT_QUOTE_STATUS_BUSY = true ∧
    (after (.quoteGo .mgmt 1) ((mQuote 0 none).set F.BOOT_STATUS_IDENTITY_FAIL 1)).get F.BOOT_QUOTE_STATUS_REASON = 1 := by decide +kernel
theorem test_quoteSigned : (after (.quoteSigned 0) (mQuote 1 (some (.mgmt, [1, 2, 3, 4])))).getP .mgmt F.BOOT_QUOTE 0 = 0x04030201 := by decide +kernel
theorem test_stagedFieldWrite_others : (after (.stagedFieldWrite .mgmt 0x3980004 0x500) (mStage 0 1 [])).get F.PEAT_CTL_SCRUB_HOURS = 5 ∧
    (after (.stagedFieldWrite .mgmt 0x3980004 0x500) (mStage 0 1 [])).bit F.CFG_STATUS_PENDING_WRITE = true ∧
    getBits ((after (.stagedFieldWrite .mgmt 0x300408 8) (mStage 0 0 [])).reg 0x300408).toNat 2 2 = 0 ∧
    getBits ((after (.stagedFieldWrite .mgmt 0x300408 8) ((mStage 0 0 []).set F.SLU_TIME_STATUS_STATE 0)).reg 0x300408).toNat 2 2 = 2 := by decide +kernel
theorem test_standbySenseValid : (after (.standbySenseValid 0) Mach.reset).clk.stby = true := by decide +kernel

/-! ## Packets, accelerator links, register accesses, test access -/

/-- Packet k for queue pair 12 waits here. -/
def here1 (k : QpPacket) (m : Mach) : Mach := m.putRte { m.rte with here := [(2, { beF with body := .packet { k with qpn := 0x1000C } })] }
theorem wit_qpPackets : (mQp 1).Inv ∧ (mQp 1).Running ∧ (mQp 1).rte.here = [] ∧
    Mach.qpOfQpn 0x1000C = some 12 ∧ Mach.qpOfQpn 12 = none ∧ (here1 (pk 5) (mQp 2)).qpState 12 ≠ 1 ∧ (here1 (pk 5) (mQp 2)).Inv ∧ Mach.isAck (pk 5) = false ∧
    (here1 (pk 5) (mQp 1)).Inv ∧ (here1 (pk 5) (mQp 1)).Running ∧ (here1 (pk 5) (mQp 1)).qpState 12 = 1 ∧ (here1 (pk 5) (mQp 1)).qpKey 12 = none ∧ (mQp 1).qpModulePeer 12 = true ∧
    (mQp 1).qpMirror 12 = none ∧ Mach.isCtl 12 = false := by decide +kernel
def mQpX (x : Qp) (k : QpPacket) : Mach := here1 k ((mQp 1).setQp 12 x)
def foreignQp (m : Mach) : Mach := (m.set F.BEQ_QP_CFG 1 3 12)
theorem wit_qpPackets_psn : 2 ^ 23 ≤ psnDist ({ freshQp with expect := 7 } : Qp).expect (pk 5).psn ∧ 0 < psnDist ({ freshQp with expect := 3 } : Qp).expect (pk 5).psn ∧
    psnDist ({ freshQp with expect := 3 } : Qp).expect (pk 5).psn < 2 ^ 23 ∧ (pk 5).psn ∉ ({ freshQp with expect := 3 } : Qp).above ∧
    ((mQpX { freshQp with expect := 7 } (pk 5)).qp 12).expect = 7 := by decide +kernel
def bufC : QpBuf := { sq := 0, uid := 4, va := 0x4000, asid := 0, len := 64, segs := some [{ target := 2, port := 0, addr := 0x80, va := 0x4000, len := 64 }] }
def pkData : QpPacket := { pk 5 with msgLen := 4, payload := [1, 2, 3, 4], txTime := 77 }
def mRecv (k : QpPacket) : Mach := mQpX { freshQp with expect := 5, bufs := [bufC] } k
theorem wit_qpPackets_buffer : (mRecv pkData).Inv ∧ (mRecv pkData).Running ∧ ((mRecv pkData).qp 12).rx = [] ∧ ((mRecv pkData).qp 12).above = [] ∧ ((mRecv pkData).qp 12).rxMsn = 0 ∧
    ((mRecv pkData).qp 12).unacked < 3 ∧ bufC.sq = getBits ((mRecv pkData).qpCfg 12 7) 0 12 ∧ (mRecv pkData).bit F.XLT_AS_CFG_DIRTY_EN 0 (Mach.asSel ((mRecv pkData).sqHerd 0) 0) = false ∧
    (mRecv (pk 5)).landed 2 12 0 = true := by decide +kernel
theorem test_qpPacketReceived : ((after (.qpPacketReceived 0) (mRecv pkData)).qp 12).expect = 6 ∧ memGet (after (.qpPacketReceived 0) (mRecv pkData)).cream 0x82 = 3 ∧
    (after (.qpPacketReceived 0) (mQpX { freshQp with expect := 7 } (pk 5))).get F.BEQ_DUP = 1 ∧ (after (.qpPacketReceived 0) (here1 (pk 5) (mQp 2))).get F.BEQ_DROP = 1 := by decide +kernel
def sentOne : QpSent := { packet := pk 5, msn := 0, port := 2, at' := 0, tries := 0 }
def msgOne : QpMsg := { blankMsg with msn := 0, kind := .send, cut := 8, len := 8, wholly := true, sq := some (3, 4) }
def mQpAck (rnr : Nat) (k : QpPacket) : Mach := mQpX { freshQp with sent := [sentOne], msgs := [{ msgOne with rnr := rnr }], psn := 6 } k
def ackOf (op : QpOp) (psn cum status syn : Nat) : QpPacket := { pk psn with op := op, cumPsn := cum, status := status, syndrome := syn }
theorem wit_qpAckReceived : (mQpAck 0 (ackOf .ack 0 6 0 0)).Inv ∧ (mQpAck 0 (ackOf .ack 0 6 0 0)).Running ∧ 2 ^ 23 ≤ psnDist 6 sentOne.packet.psn ∧ sentOne.packet.op = .send ∧ msgOne.kind = .send ∧
    msgOne.result = none ∧ (∀ y ∈ ((mQpAck 0 (ackOf .nak 5 0 0 nakSeq)).qp 12).sent, y.tries < (mQpAck 0 (ackOf .nak 5 0 0 nakSeq)).get F.BEQ_RTX_RETRY) ∧
    ((mQpAck 0 (ackOf .nak 5 0 0 nakSeq)).qp 12).resend = [] ∧ 6 < (mQpAck 0 (ackOf .rnrNak 5 0 0 0)).get F.BEQ_RTX_RNR_RETRY ∧ (mQpAck 0 (ackOf .rnrNak 5 0 0 0)).get F.BEQ_RTX_RNR_RETRY ≤ 7 := by
  decide +kernel
theorem test_qpAckReceived : ((after (.qpAckReceived 0) (mQpAck 0 (ackOf .ack 0 6 0 0))).qp 12).sent = [] ∧ ((after (.qpAckReceived 0) (mQpAck 0 (ackOf .nak 5 0 0 nakSeq))).qp 12).resend.length = 1 ∧
    (((after (.qpAckReceived 0) (mQpAck 0 (ackOf .rnrNak 5 0 0 0))).qp 12).msgs.map (·.rnr)) = [1] ∧ (after (.qpAckReceived 0) (mQpAck 7 (ackOf .rnrNak 5 0 0 0))).qpState 12 = 2 := by decide +kernel
/-- Context entry 3 of port 5 names herd 1, and an ACCESS frame waits there. -/
def mAcc (f : AccessFrame) : Mach :=
  let m := (mWinSt 1).setReg (F.PORT_CTX_VALID.addr + 5 * 0x4000 + 3 * 8) 0x80000100
  m.setPt 5 { freshPort with inq := [.access f] }
def af (op ctx window addr : Nat) : AccessFrame := { window := window, tag := 6, op := op, ctx := ctx, readLen := 16, addr := addr, payload := [9, 8] }
theorem wit_accessFrameReceived : (mAcc (af 1 3 9 0)).Inv ∧ (mAcc (af 1 3 9 0)).Running ∧ ((mAcc (af 1 3 9 0)).pt 5).inq = [.access (af 1 3 9 0)] ∧ (mAcc (af 1 3 9 0)).ctxEntry 5 3 = some 256 ∧
    (mAcc (af 1 4 9 0)).ctxEntry 5 4 = none ∧
    ((((mAcc (af 1 3 9 0)).advance 0).setPt 5 freshPort).windowCheck { herd := 1, src := some (mAcc (af 1 3 9 0)).self, kind := 0, number := 5 } 9 0xFFFF000000000010 2 accWrite false none).2.toOption.isSome
      = true ∧
    ((((mAcc (af 1 3 9 0)).advance 0).setPt 5 freshPort).windowCheck { herd := 1, src := some (mAcc (af 1 3 9 0)).self, kind := 0, number := 5 } 9 0xFFFF000000000010 2 accWrite false none).1.downs = [] ∧
    ((((mAcc (af 1 3 9 0)).advance 0).setPt 5 freshPort).windowCheck { herd := 1, src := some (mAcc (af 1 3 9 0)).self, kind := 0, number := 5 } 9 0x10 2 accWrite false none).2.toOption = none := by
  decide +kernel
theorem test_accessFrameReceived : memGet (after (.accessFrameReceived 0 5) (mAcc (af 1 3 9 0xFFFF000000000010))).peat 0x5011 = 8 ∧
    (after (.accessFrameReceived 0 5) (mAcc (af 2 3 9 0xFFFF000000000010))).sent = [.access 5 3 6 0 (List.replicate 16 0)] ∧
    (after (.accessFrameReceived 0 5) (mAcc (af 2 4 9 0))).sent = [.access 5 4 6 0x11 []] := by decide +kernel
/-- A write to accelerator memory behind port 5, tag 3, waits. -/
def mAccWr (kind : Nat) : Mach :=
  ((mQ.setPt 5 { freshPort with inq := [.landed 3], writes := [(3, 0, 8)] }).putMem { mQ.mem with writes := [{ id := 8, kind := kind, chan := 5 * 65536, msg := 0, target := 1, port := 5 }] })
theorem wit_landedReceived : (mAccWr 6).Inv ∧ (mAccWr 6).Running ∧ ((mAccWr 6).pt 5).inq = [.landed 3] ∧ (∀ r ∈ (mAccWr 6).mem.writes, r.kind ≠ 2) ∧
    0 + (mAccWr 3).leaseAt 0 ≤ ((mAccWr 3).advance (100 * ms)).now ∧ (mAccWr 3).mem.writes.find? (fun r => r.id == 8) = some { id := 8, kind := 3, chan := 5 * 65536, msg := 0, target := 1, port := 5 } ∧
    ((mAccWr 6).advance 0).now < 0 + (mAccWr 6).leaseAt 0 ∧ (mAccWr 3).Inv ∧ (mAccWr 4).Inv := by decide +kernel
theorem test_landedReceived : (after (.landedReceived 0 5) (mAccWr 6)).mem.writes = [] ∧ ((after (.landedReceived 0 5) (mAccWr 6)).pt 5).writes = [] := by decide +kernel
theorem test_accelAckTimeout : (after (.accelAckTimeout (100 * ms) 5) (mAccWr 3)).bit F.QE_CQ_STATUS_RING_FAULT 0 5 = true ∧ (after (.accelAckTimeout (100 * ms) 5) (mAccWr 6)).mem.writes = [] ∧
    (after (.accelAckTimeout 0 5) (mAccWr 6)).mem.writes.length = 1 := by decide +kernel
def mLaunchWait : Mach :=
  ((mCh (la 2)).setPt 5 { freshPort with writes := [(3, 0, 8)] }).putMem { (mCh (la 2)).mem with writes := [{ id := 8, kind := 5, chan := 4, msg := 0, target := 1, port := 5 }] }
theorem wit_accelAckTimeout : mLaunchWait.Inv ∧ mLaunchWait.Running ∧ mLaunchWait.launch? 4 = some (la 2) ∧ (la 2).fail = none ∧
    0 + mLaunchWait.leaseAt 0 ≤ (mLaunchWait.advance (100 * ms)).now := by decide +kernel
/-- SQ 3, enabled, selected on the management path. -/
def mSel : Mach := mQ.setP .mgmt F.QE_SQ_SEL_INDEX 3
/-- Where an address leads: an element, a key and a kind of pair (0 none, 1 LO, 2 HI), where a write of 9 commands nothing. -/
def leads (m : Mach) (p : Path) (a e k pair : Nat) : Bool :=
  match m.locate p a with
  | some l => l.elem == some e && l.key == some k && (if l.info.pair == .none then 0 else if l.info.pair == .lo then 1 else 2) == pair && m.pageOwns l && (m.writeCommand false l 9).isNone && !m.poolsOver l.addr 9
  | none => false
theorem wit_registerWrites : mSel.Inv ∧ mSel.served .mgmt F.CLK_IDLE_US.addr = true ∧ mSel.reaches .mgmt F.CLK_IDLE_US.addr = true ∧
    leads mSel .mgmt F.CLK_IDLE_US.addr 0 F.CLK_IDLE_US.addr 0 = true ∧
    leads mSel .mgmt 0x00400110 3 (regKey 0x00400110 3) 0 = true ∧ mSel.frozenBy 0x00400110 3 = true ∧
    leads mSel .mgmt 0x00400008 0 0x00400008 0 = true ∧ leads mSel .mgmt F.FWU_SRC_LO.addr 0 F.FWU_SRC_LO.addr 1 = true ∧
    leads mSel .mgmt (F.FWU_SRC_LO.addr + 4) 0 (F.FWU_SRC_LO.addr + 4) 2 = true ∧
    ((mSel.locate .mgmt (F.FWU_SRC_LO.addr + 4)).map (fun l => (l.info.fields ++ (Mach.loHalf l).info.fields).all (fun f => f.acc == .rw && f.chg == .live))) = some true ∧
    ((mSel.locate .mgmt F.FWU_SRC_LO.addr).map Mach.pairRw) = some true := by decide +kernel
theorem test_registerWrite : (after (.registerWrite .mgmt F.CLK_IDLE_US.addr 9) mSel).reg F.CLK_IDLE_US.addr = 9 ∧
    (after (.registerWrite .mgmt 0x00400110 9) mSel).reg (regKey 0x00400110 3) = mSel.reg (regKey 0x00400110 3) ∧
    (after (.registerWrite .mgmt 0x00400008 0x80000000) (mSel.setReg 0x00400008 0x80010203)).reg 0x00400008 = 0x00010203 := by decide +kernel
theorem test_pairLoWrite : (after (.pairLoWrite .mgmt F.FWU_SRC_LO.addr 9) mSel).reg F.FWU_SRC_LO.addr = 0 ∧
    (after (.pairHiWrite .mgmt (F.FWU_SRC_LO.addr + 4) 8) (after (.pairLoWrite .mgmt F.FWU_SRC_LO.addr 9) mSel)).get64 F.FWU_SRC_LO = 8 * 2 ^ 32 + 9 ∧
    (after (.pairHiWrite .mgmt (F.FWU_SRC_LO.addr + 4) 8) mSel).get64 F.FWU_SRC_LO = 8 * 2 ^ 32 := by decide +kernel
/-- SLU_PLAN_SWITCHES-like RC register 0x0030041C with a count, a pair of RO registers, and a latched HI. -/
def mRegRead : Mach := (mSel.setReg 0x0030041C 0x00050006).set64 F.SLU_CAPTURE_LO (3 * 2 ^ 32 + 4)
theorem wit_registerReads : (mRegRead.putAnswer 0).served .mgmt 0x0030041C = true ∧ (mRegRead.putAnswer 0).reaches .mgmt 0x0030041C = true ∧
    leads (mRegRead.putAnswer 0) .mgmt 0x0030041C 0 0x0030041C 0 = true ∧
    leads (mRegRead.putAnswer 0) .mgmt F.SLU_CAPTURE_LO.addr 0 F.SLU_CAPTURE_LO.addr 1 = true ∧
    leads (mRegRead.putAnswer 0) .mgmt (F.SLU_CAPTURE_LO.addr + 4) 0 (F.SLU_CAPTURE_LO.addr + 4) 2 = true ∧ mRegRead.Inv ∧
    (alGet mRegRead.latch (ownKey vBlock F.SLU_CAPTURE_LO.addr)) = none ∧
    (alGet (after (.pairLoRead .mgmt F.SLU_CAPTURE_LO.addr) mRegRead).latch (ownKey vBlock F.SLU_CAPTURE_LO.addr)) = some 3 := by decide +kernel
theorem test_readClearRegister : (after (.readClearRegister .mgmt 0x0030041C) mRegRead).answer = 0x00050006 ∧ (after (.readClearRegister .mgmt 0x0030041C) mRegRead).reg 0x0030041C = 0 := by decide +kernel
theorem test_pairLoRead : (after (.pairLoRead .mgmt F.SLU_CAPTURE_LO.addr) mRegRead).answer = 4 ∧
    (after (.pairLoRead .mgmt (F.SLU_CAPTURE_LO.addr + 4)) ((after (.pairLoRead .mgmt F.SLU_CAPTURE_LO.addr) mRegRead).set64 F.SLU_CAPTURE_LO 0)).answer = 3 := by decide +kernel
theorem wit_uncounted : (mRegRead.putAnswer 0).served .mgmt F.PORT_FEC_CORR.addr = true ∧ (mRegRead.putAnswer 0).reaches .mgmt F.PORT_FEC_CORR.addr = true ∧
    ((mRegRead.putAnswer 0).locate .mgmt F.PORT_FEC_CORR.addr).map (fun l => Mach.uncounted l.addr) = some true ∧
    (after (.readClearRegister .mgmt F.PORT_FEC_CORR.addr) mRegRead).freeCtr = mRegRead.freeCtr + 1 := by decide +kernel
theorem wit_unoccupied : regInfo (resolve .mgmt 0x00050000).2 = none ∧ mSel.served .mgmt 0x00050000 = true ∧ mSel.reaches (.fabric 1) F.CLK_IDLE_US.addr = false ∧
    mSel.served (.fabric 1) F.CLK_IDLE_US.addr = true ∧ mSel.flt.queue.length < 512 ∧ (mSel.set F.CLK_STATUS_POWER_STATE 0).served .mgmt 0x00050000 = false ∧
    (mHerd 4 0).served .mgmt (herdPage 2) = true := by decide +kernel
theorem test_unoccupied : (after (.unoccupiedRegisterAccess .mgmt 0x00050000 true 9) mSel).get F.FLT_SRC_EVENTS 0 srcRegMgmt = 1 ∧
    (after (.unoccupiedRegisterAccess .mgmt 0x00050000 false 9) (mSel.putAnswer 5)).answer = 0 ∧
    (after (.registerWrite (.fabric 1) F.CLK_IDLE_US.addr 9) mSel).get F.FLT_SRC_EVENTS 0 srcRegFabric = 1 := by decide +kernel
theorem test_misaligned : (after (.misalignedRegisterAccess .mgmt (F.CLK_IDLE_US.addr + 1) 4 true 9) mSel).reg F.CLK_IDLE_US.addr = mSel.reg F.CLK_IDLE_US.addr ∧
    (after (.misalignedRegisterAccess .mgmt F.CLK_IDLE_US.addr 2 false 0) (mSel.putAnswer 5)).answer = 0 := by decide +kernel
/-- Herd 2's page selects queue pair 12, which is herd 1's. -/
def mForeign : Mach := ((mQp 1).set F.QE_HERD_STATUS_STATE 1 0 2).setV { path := .fabric 2, page := some 2 } F.BEQ_QP_SEL_QP 12
theorem wit_foreign : mForeign.Inv ∧ mForeign.served (.fabric 2) (herdPage 2 + aliasOff F.BEQ_QP_CFG.addr) = true ∧ mForeign.reaches (.fabric 2) (herdPage 2 + aliasOff F.BEQ_QP_CFG.addr) = true ∧
    ((mForeign.locate (.fabric 2) (herdPage 2 + aliasOff F.BEQ_QP_CFG.addr)).map (fun l => (l.v.page, mForeign.pageOwns l))) = some (some 2, false) ∧ mForeign.herdState 2 ≠ 4 := by decide +kernel
theorem test_foreign : (after (.registerWrite (.fabric 2) (herdPage 2 + aliasOff F.BEQ_QP_CFG.addr) 9) mForeign).reg (herdPage 2 + 0x9004) = 1 ∧
    (after (.registerWrite (.fabric 2) (herdPage 2 + aliasOff F.BEQ_QP_CFG.addr) 9) mForeign).get F.BEQ_QP_CFG 0 12 = mForeign.get F.BEQ_QP_CFG 0 12 := by decide +kernel
def mJtag : Mach := Mach.reset.putClk { Mach.reset.clk with boundary := [true, false, true] }
theorem wit_testAccess : mJtag.Inv ∧ mJtag.asleep = false ∧ (mJtag.clk.off = false ∨ mJtag.clk.stby = true) ∧ 0x5A = 0x58 + 10 % 8 ∧ (mJtag.putClk { mJtag.clk with off := true }).Inv ∧
    (mJtag.set F.CLK_STATUS_POWER_STATE 0).asleep = true := by decide +kernel
theorem test_smbusBlockRead : (after (.smbusBlockRead 0 10 0x5A 1) mJtag).sent = [.smbus (some ([4, 0x60, 9, 0x41, 1] ++ [BitVec.ofNat 8 (pec [0xB4, 1, 0xB5, 4, 0x60, 9, 0x41, 1])]))] ∧
    (after (.smbusBlockRead 0 10 0x5A 9) mJtag).sent = [.smbus none] ∧ (after (.smbusBlockRead 0 10 0x58 1) mJtag).sent = [] := by decide +kernel
theorem test_bypass : (after (.bypass 0 [true, false, true]) mJtag).sent = [.tdo [false, true, false]] ∧ (after (.extest 0 false [true, true]) mJtag).sent = [.tdo [false, true]] := by decide +kernel
theorem test_samplePreload : (after (.samplePreload 0 [true, true, false] [false, true, true]) mJtag).sent = [.tdo [true, true, false]] ∧
    (after (.samplePreload 0 [true, true, false] [false, true, true]) mJtag).clk.boundary = [false, true, true] := by decide +kernel
theorem test_extest : ((after (.extestTrain 0 true [true]) mJtag).sent.head?) = some (.pins 2 [true, false, true]) ∧ (after (.extestPulse 0 true [true]) mJtag).clk.tap = 5 ∧
    (after (.idcode 0) mJtag).clk.tap = 3 := by decide +kernel

/-! ## The block as a whole -/

def sFront : State := { pending := [.timeCapture .mgmt, .ppsOutFall 0], m := mRoot }
theorem wit_stepRunsFront : sFront.pending = .timeCapture .mgmt :: [.ppsOutFall 0] ∧ State.reset.m.Inv ∧ State.reset.pending = [] := by decide +kernel
theorem test_stepRunsFront : (match step sFront with | .next t => t.pending | _ => []) = [.ppsOutFall 0] := by decide +kernel
theorem test_stepIdles : (match step State.reset with | .next t => (t.m.now, t.pending) | _ => (0, [])) = (1, []) := by decide +kernel
theorem test_resetValues : Mach.reset.get F.ID_PART_PART = 0x960 ∧ Mach.reset.get F.CLK_BOOT_STEP = 1 ∧ Mach.reset.asleep = false ∧ Mach.reset.bankState 1 = 0 ∧
    Mach.reset.keyState 1023 = 0 ∧ Mach.reset.qpState 1023 = 0 ∧ Mach.reset.lkState 31 = 0 ∧ Mach.reset.srcState 319 = 0 := by decide +kernel
theorem wit_stepKeepsInvariant : mQ.Inv ∧ exec (.timeCapture .mgmt) { pending := [], m := mRoot } = .next { pending := [], m := after (.timeCapture .mgmt) mRoot } := ⟨by decide +kernel, rfl⟩

/-! ## WellFormed refuses an operand out of range, one for each check -/

theorem test_wf_accepts : (Instr.registerWrite (.fabric 255) 0x03FFFFFC 0).wf = true ∧ (Instr.windowOpen { path := .mgmt, page := some 255 } 1048575).wf = true := by decide
theorem test_wf_path : (Instr.timeSet (.fabric 256)).wf = false := by decide
theorem test_wf_page : (Instr.seedWrite { path := .mgmt, page := some 256 } 0).wf = false := by decide
theorem test_wf_address : (Instr.registerWrite .mgmt 0x04000000 0).wf = false := by decide
theorem test_wf_port : (Instr.slotOpen 0 32).wf = false := by decide
theorem test_wf_queue : (Instr.sqDoorbell .mgmt 0 4096 0).wf = false := by decide
theorem test_wf_lode : (Instr.receiptSend 0 16384).wf = false := by decide
theorem test_wf_window : (Instr.windowCloseComplete 0 1048576).wf = false := by decide
theorem test_wf_qp : (Instr.transferTileChecked 0 0 66560).wf = false := by decide
theorem test_wf_tile : (Instr.tileSramClear 0 64).wf = false := by decide
theorem test_wf_bank : (Instr.planArm .mgmt 2).wf = false := by decide
theorem test_wf_domain : (Instr.plannedWake 0 60).wf = false := by decide
theorem test_wf_pll : (Instr.pllLock 0 8).wf = false := by decide
theorem test_wf_source : (Instr.fenceComplete 0 320).wf = false := by decide
theorem test_wf_region : (Instr.mirrorSealSend 0 64).wf = false := by decide
theorem test_wf_keyPage : (Instr.rekeyWalkDone 0 1024).wf = false := by decide
theorem test_wf_engine : (Instr.drbgReseed 0 4).wf = false := by decide
theorem test_wf_group : (Instr.groupTimeout 0 4096).wf = false := by decide
theorem test_wf_priority : (Instr.pauseWatchdog 0 0 8).wf = false := by decide
theorem test_wf_package : (Instr.throttleEvaluate 0 0 0 0 0 (List.replicate 25 0)).wf = false := by decide

end Sys2Proof.Tests
end

section
/-! SUPPORT and proof of O58: the state after reset. -/
namespace Sys2Proof.Machine

/-- Selected elements of a register share its reset value where no table of the spec tells them apart. -/
theorem regReset_element (v : Variant) {a s : Nat} (ha : a < regSpan) (hs : s < 2 ^ 44) (hsp : specialReset a s = specialReset a 0) :
    regReset v (regKey a s) = regReset v a := by
  have ha' : a < 0x04000000 := ha
  have e1 : regKey a s % fabricCopy % regSpan = a := by simp only [regKey, regSpan, fabricCopy]; omega
  have e2 : regKey a s % fabricCopy / regSpan = s := by simp only [regKey, regSpan, fabricCopy]; omega
  have e3 : a % fabricCopy % regSpan = a := by simp only [regSpan, fabricCopy]; omega
  have e4 : a % fabricCopy / regSpan = 0 := by simp only [regSpan, fabricCopy]; omega
  simp only [regReset, e1, e2, e3, e4, hsp]

/-- A field of an element after reset, read where the register's reset value stands in the table. -/
theorem reset_get_element {f : Fld} {s v : Nat} (ha : f.addr < regSpan) (hs : s < 2 ^ 44) (hsp : specialReset f.addr s = specialReset f.addr 0)
    (hv : getBits (regReset .zw960a f.addr).toNat f.lo f.wd = v) : Mach.reset.get f 0 s = v := by
  rw [← hv, ← regReset_element .zw960a ha hs hsp]
  rfl

/-- After reset every herd but herd 0 is FREE (14_herds.md R355). -/
theorem reset_herdState {h : Nat} (h0 : h ≠ 0) (hh : h < 256) : Mach.reset.herdState h = 0 := by
  rw [Mach.herdState, if_neg h0]
  exact reset_get_element (by decide) (by omega) (by simp [specialReset]) (by decide +kernel)

/-- After reset every fault source is NORMAL (16_faults.md R397). -/
theorem reset_srcState {x : Nat} (hx : x < 320) : Mach.reset.srcState x = 0 :=
  reset_get_element (by decide) (by omega) (by simp [specialReset]) (by decide +kernel)

/-- After reset every key page is FREE (15_cipher.md R379). -/
theorem reset_keyState {g : Nat} (hg : g < 1024) : Mach.reset.keyState g = 0 :=
  reset_get_element (by decide) (by omega) (by simp [specialReset]) (by decide +kernel)

/-- After reset every queue pair is FREE (11_best_effort_transport.md R292). -/
theorem reset_qpState {q : Nat} (hq : q < 1024) : Mach.reset.qpState q = 0 := by
  have hc : Mach.isCtl q = false := by simp [Mach.isCtl]; omega
  rw [Mach.qpState, hc, if_neg (by decide)]
  exact reset_get_element (by decide) (by omega) (by simp [specialReset]) (by decide +kernel)

/-- After reset every port is DISABLED (12_ports_mac.md R313). -/
theorem reset_lkState : ∀ p < 32, Mach.reset.lkState p = 0 ∧ Mach.reset.bit F.PORT_CTL_ENABLE p = false := by
  decide +kernel

/-- Settles O58: identity, boot and banks by evaluation, the families of elements by their common reset value. -/
theorem resetValues : Obligations.ResetValues := by
  unfold Obligations.ResetValues
  refine ⟨rfl, by decide +kernel, by decide +kernel, by decide +kernel, by decide +kernel, by decide +kernel, rfl, by decide +kernel,
    fun h h0 hh => reset_herdState h0 hh, reset_lkState, by decide +kernel, fun x hx => ⟨reset_srcState hx, rfl⟩,
    fun g hg => reset_keyState hg, fun q hq => reset_qpState hq, rfl, rfl, rfl, ?_, fun _ _ _ => rfl⟩
  intro st a
  cases st <;> rfl

end Sys2Proof.Machine
end

section
/-! SUPPORT. The rows of the register table, and where an access to the register space lands (00_scope.md R7 to R9, 20_register_index.md R480). -/
namespace Sys2Proof.Machine

/-! ## Rows of the register table -/

/-- Every row of the register table. -/
def regTable : List RegInfo :=
  regsId ++ regsClk ++ regsBoot ++ regsFlt ++ regsCfg ++ (regsPort ++ regsPort2) ++ (regsRte ++ regsRte2) ++ (regsSlu ++ regsSlu2) ++ (regsQe ++ regsQe2) ++ regsHerd ++
    regsXlt ++ regsWin ++ regsBeq ++ regsChu ++ regsCrm ++ regsPeat ++ regsCiph ++ regsColl ++ regsTel ++ regsFwu ++ regsDbg

/-- Addresses of the registers of a row. -/
def RegInfo.addrs (r : RegInfo) : List Nat :=
  (List.range r.count2).flatMap fun j => (List.range r.count).map fun i => r.base + r.step * i + r.step2 * j

/-- The field's bits of a register value. -/
abbrev RField.bits (f : RField) (n : Nat) : Nat := getBits n f.lo (f.hi - f.lo + 1)

/-- Two fields share no bit. -/
abbrev RField.Apart (f g : RField) : Prop := f.hi < g.lo ∨ g.hi < f.lo

/-- The fields of a row lie in its 32 bits and share none. -/
abbrev FieldsNeat (l : List RField) : Prop := (∀ f ∈ l, f.lo ≤ f.hi ∧ f.hi < 32) ∧ l.Pairwise RField.Apart

theorem ite_subset {c : Prop} [Decidable c] {α : Type} {s t u : List α} (hs : s ⊆ u) (ht : t ⊆ u) : (if c then s else t) ⊆ u := by
  split <;> assumption

theorem blockRegs_subset (a : Nat) : blockRegs a ⊆ regTable := by
  unfold blockRegs regTable
  iterate 21 refine ite_subset (fun r hr => by simp only [List.mem_append] at hr ⊢; tauto) ?_
  exact List.nil_subset _

theorem blockRegs_beyond {a : Nat} (h : regSpan ≤ a) : blockRegs a = [] := by
  have h' : 0x04000000 ≤ a := h
  unfold blockRegs
  iterate 21 rw [if_neg (by omega)]

/-- An occupied address lies in a row of the table. -/
theorem regInfo_row {a : Nat} {x : RegInfo × Nat × Nat} (h : regInfo a = some x) : x.1 ∈ regTable ∧ a ∈ x.1.addrs := by
  obtain ⟨r, hr, hx⟩ := List.exists_of_findSome?_eq_some h
  have key : ∀ d e i j : Nat, a = r.base + d → d = e + r.step2 * j → i = e / r.step → i < r.count → j < r.count2 → e % r.step = 0 →
      r ∈ regTable ∧ a ∈ r.addrs := by
    intro d e i j had hde hie hi hj he
    refine ⟨blockRegs_subset a hr, ?_⟩
    have hm : r.step * i = e := hie ▸ Nat.mul_div_cancel' (Nat.dvd_of_mod_eq_zero he)
    simp only [RegInfo.addrs, List.mem_flatMap, List.mem_map, List.mem_range]
    exact ⟨j, hj, i, hi, by omega⟩
  split at hx
  · cases hx
  · rename_i hb
    extract_lets d j e i at hx
    split at hx
    · rename_i hc
      obtain ⟨hj, hi, he⟩ := hc
      cases hx
      refine key d e i j (by omega) ?_ rfl hi hj he
      by_cases hc2 : r.count2 ≤ 1
      · simp [e, j, hc2]
      · simp only [e, j, hc2, if_false]
        exact (Nat.mod_add_div d r.step2).symm
    · cases hx

/-- What holds of every row: its fields lie apart within 32 bits, a counter that no row of the opcode table advances is no half of a pair (12_ports_mac.md R331,
13_routing_deadlock.md R350), and neither a register that a herd page shows nor the one below it holds a Staged field (14_herds.md R359). -/
def RegInfo.checked (r : RegInfo) : Bool :=
  decide (FieldsNeat r.fields) && (r.pair == .none || r.addrs.all (fun a => !Mach.uncounted a)) &&
    (r.fields.all (fun f => f.chg != .staged) || r.addrs.all (fun a => unalias (aliasOff a) != some a && unalias (aliasOff (a + 4)) != some (a + 4)))

theorem regTable_checked : regTable.all RegInfo.checked = true := by decide +kernel

theorem regInfo_checked {a : Nat} {x : RegInfo × Nat × Nat} (h : regInfo a = some x) :
    FieldsNeat x.1.fields ∧ (Mach.uncounted a = true → x.1.pair = .none) ∧
      (unalias (aliasOff a) = some a ∨ unalias (aliasOff (a + 4)) = some (a + 4) → ∀ f ∈ x.1.fields, f.chg ≠ .staged) := by
  obtain ⟨hr, ha⟩ := regInfo_row h
  have hc := List.all_eq_true.1 regTable_checked _ hr
  simp only [RegInfo.checked, Bool.and_eq_true, Bool.or_eq_true, decide_eq_true_eq, beq_iff_eq, List.all_eq_true, bne_iff_ne, Bool.not_eq_true'] at hc
  obtain ⟨⟨neat, pair⟩, staged⟩ := hc
  refine ⟨neat, fun hu => pair.resolve_right fun hp => ?_, fun hu => staged.resolve_right fun hs => hu.elim (hs a ha).1 (hs a ha).2⟩
  simp [hp a ha] at hu

theorem regInfo_neat {a : Nat} {x : RegInfo × Nat × Nat} (h : regInfo a = some x) : FieldsNeat x.1.fields := (regInfo_checked h).1

/-- The register space is 64 MiB (00_scope.md R7). -/
theorem regInfo_lt {a : Nat} {x : RegInfo × Nat × Nat} (h : regInfo a = some x) : a < regSpan := by
  by_contra hn
  simp [regInfo, blockRegs_beyond (Nat.le_of_not_lt hn)] at h

/-! ## Where an access lands -/

theorem resolve_path (p : Path) (addr : Nat) : (resolve p addr).1.path = p := by
  unfold resolve
  split
  · split <;> rfl
  · rfl

/-- An access with a page came through that herd's page. -/
theorem resolve_page {p : Path} {addr h : Nat} (hp : (resolve p addr).1.page = some h) :
    0x00800000 ≤ addr ∧ addr < 0x01800000 ∧ h = (addr - 0x00800000) / 0x10000 ∧ unalias (addr % 0x10000) = some (resolve p addr).2 := by
  unfold resolve at hp ⊢
  split at hp
  · rename_i ha
    simp only [if_pos ha]
    split at hp
    · rename_i a hu
      simp only [Option.some.injEq] at hp
      exact ⟨ha.1, ha.2, hp.symm, hu⟩
    · cases hp
  · cases hp

/-- A register stands on the herd page at the offset that leads to it. -/
theorem aliasOff_of_unalias {off a : Nat} (h : unalias off = some a) : aliasOff a = off := by
  unfold unalias at h
  unfold aliasOff
  split_ifs at h <;> simp only [Option.some.injEq] at h <;> split_ifs <;> omega

theorem locate_eq_none {m : Mach} {p : Path} {addr : Nat} (h : regInfo (resolve p addr).2 = none) : m.locate p addr = none := by
  simp [Mach.locate, h]

/-- A landed access names the resolved register, with its row and a key of its own kind. -/
theorem locate_some {m : Mach} {p : Path} {addr : Nat} {l : Loc} (h : m.locate p addr = some l) :
    (l.v, l.addr) = resolve p addr ∧ (∃ x, regInfo l.addr = some x ∧ x.1 = l.info) ∧
    ∀ k, l.key = some k →
      (∃ e, k = regKey l.addr e) ∨ k = ownKey l.v l.addr ∨ ∃ g, l.v.page = some g ∧ k = herdPage g + aliasOff l.addr := by
  unfold Mach.locate at h
  generalize hr : resolve p addr = va at h
  obtain ⟨v, a⟩ := va
  simp only at h
  split at h
  · cases h
  · rename_i r i j hi
    split at h
    · cases h
      refine ⟨rfl, ⟨_, hi, rfl⟩, fun k hk => .inl ?_⟩
      obtain ⟨e, -, rfl⟩ := Option.map_eq_some_iff.1 hk
      exact ⟨e, rfl⟩
    · cases h
      refine ⟨rfl, ⟨_, hi, rfl⟩, fun k hk => ?_⟩
      have plain : a = regKey a 0 := by simp [regKey]
      simp only [Option.some.injEq] at hk
      subst hk
      split
      · cases hv : v.page with
        | none => exact .inl ⟨0, plain⟩
        | some g => exact .inr (.inr ⟨g, rfl, rfl⟩)
      · split
        · exact .inr (.inl rfl)
        · exact .inl ⟨0, plain⟩

theorem locate_info {m : Mach} {p : Path} {addr : Nat} {l : Loc} (h : m.locate p addr = some l) : ∃ x, regInfo l.addr = some x ∧ x.1 = l.info :=
  (locate_some h).2.1

theorem locate_path {m : Mach} {p : Path} {addr : Nat} {l : Loc} (h : m.locate p addr = some l) : l.v.path = p := by
  rw [show l.v = (resolve p addr).1 from congrArg Prod.fst (locate_some h).1, resolve_path]

theorem locate_page {m : Mach} {p : Path} {addr g : Nat} {l : Loc} (h : m.locate p addr = some l) (hg : l.v.page = some g) :
    0x00800000 ≤ addr ∧ addr < 0x01800000 ∧ g = (addr - 0x00800000) / 0x10000 ∧ unalias (addr % 0x10000) = some l.addr := by
  have e := (locate_some h).1
  have ev : l.v = (resolve p addr).1 := congrArg Prod.fst e
  have ea : l.addr = (resolve p addr).2 := congrArg Prod.snd e
  rw [ea]
  exact resolve_page (ev ▸ hg)

theorem locate_neat {m : Mach} {p : Path} {addr : Nat} {l : Loc} (h : m.locate p addr = some l) : FieldsNeat l.info.fields := by
  obtain ⟨x, hx, hi⟩ := locate_info h
  exact hi ▸ regInfo_neat hx

/-- A neighbour's row, or the row of the register itself where the neighbour's address is empty, is neat. -/
theorem getD_neat {a : Nat} {r : RegInfo} (h : FieldsNeat r.fields) : FieldsNeat (((regInfo a).map (fun x => x.1)).getD r).fields := by
  cases hx : regInfo a with
  | none => exact h
  | some x => exact regInfo_neat hx

theorem pathOff_mod (p : Path) : pathOff p % regSpan = 0 := by
  cases p with
  | mgmt => rfl
  | fabric h => exact Nat.mul_mod_right regSpan (2 ^ 44)

/-- Key of a landed access: within the register's address, or on a herd page. -/
theorem locate_key_mod {m : Mach} {p : Path} {addr k : Nat} {l : Loc} (h : m.locate p addr = some l) (hk : l.key = some k) :
    k % regSpan = l.addr ∨ 0x00800000 ≤ k % regSpan ∧ k % regSpan < 0x01800000 := by
  obtain ⟨x, hx, -⟩ := locate_info h
  have ha : l.addr < 0x04000000 := regInfo_lt hx
  have page : ∀ g, l.v.page = some g → g < 256 ∧ aliasOff l.addr < 0x10000 := by
    intro g hg
    obtain ⟨h1, h2, h3, hu⟩ := locate_page h hg
    have := aliasOff_of_unalias hu
    omega
  have hpath := pathOff_mod l.v.path
  rcases (locate_some h).2.2 k hk with ⟨e, rfl⟩ | rfl | ⟨g, hg, rfl⟩
  · left
    simp only [regKey, regSpan]
    omega
  · unfold ownKey
    simp only [regSpan] at hpath ⊢
    split
    · left
      omega
    · rename_i g hg
      right
      have := page g hg
      simp only [herdPage]
      omega
  · right
    have := page g hg
    simp only [herdPage, regSpan]
    omega

end Sys2Proof.Machine
end

section
/-! SUPPORT. Updates that reach registers alone, and what a write or a read leaves in the fields of a register (00_scope.md R10 to R12). -/
namespace Sys2Proof.Machine

/-! ## Updates that reach registers alone -/

/-- `x` differs from `m` at most in registers that `K` names and in what is neither a register, a store nor a loss. -/
structure OnlyRegs (K : Nat → Prop) (m x : Mach) : Prop where
  variant : x.variant = m.variant
  wr : x.wr = m.wr
  downs : x.downs = m.downs
  tileDowns : x.tileDowns = m.tileDowns
  regs : RegsBut K m x

namespace OnlyRegs

variable {K : Nat → Prop} {m x y : Mach}

theorem refl (K : Nat → Prop) (m : Mach) : OnlyRegs K m m := ⟨rfl, rfl, rfl, rfl, .refl K m⟩

theorem trans (h : OnlyRegs K m x) (g : OnlyRegs K x y) : OnlyRegs K m y :=
  ⟨g.variant.trans h.variant, g.wr.trans h.wr, g.downs.trans h.downs, g.tileDowns.trans h.tileDowns, fun k hk => (g.regs k hk).trans (h.regs k hk)⟩

theorem mono {L : Nat → Prop} (h : OnlyRegs K m x) (hKL : ∀ k, K k → L k) : OnlyRegs L m x :=
  ⟨h.variant, h.wr, h.downs, h.tileDowns, fun k hk => h.regs k fun hK => hk (hKL k hK)⟩

theorem setReg (h : OnlyRegs K m x) {k : Nat} (w : Word) (hk : K k) : OnlyRegs K m (x.setReg k w) :=
  ⟨h.variant, h.wr, h.downs, h.tileDowns, h.regs.setReg w hk⟩

theorem set (h : OnlyRegs K m x) {f : Fld} {v i s : Nat} (hk : K (keyOf f i s)) : OnlyRegs K m (x.set f v i s) := h.setReg _ hk

theorem of_fltOnly (h : FltOnly m x) : OnlyRegs fltKey m x := ⟨h.touch.variant, h.touch.wr, h.downs, h.tileDowns, h.reg⟩

theorem frame (h : OnlyRegs K m x) (hm : m.wr = []) : Frame K m (settle m x) := frame_settle h.variant (h.wr.trans hm) h.regs

end OnlyRegs

/-- How to show what a command does that writes at most registers. -/
theorem runs_of_onlyRegs {c : Instr} {s : State} {P : Mach → Prop} {K : Nat → Prop} {f : Mach → Mach} {x : Mach} (hc : Sys2Proof.Machine.exec c s = commit s f)
    (hi : s.m.Inv) (hx : f s.m = x) (ho : OnlyRegs K s.m x) (h : Frame K s.m (settle s.m x) → (∀ k, (settle s.m x).reg k = x.reg k) → P (settle s.m x)) :
    Runs c s P := by
  subst hx
  exact runs_of_commit hc hi (ho.downs.trans hi.no_downs) (ho.tileDowns.trans hi.no_tileDowns) (h (ho.frame hi.no_wr) fun k => settle_reg _ _ k ho.variant)

/-! ## Bits of a field -/

theorem RField.bits_lt (f : RField) (n : Nat) : f.bits n < 2 ^ (f.hi - f.lo + 1) := getBits_lt _ _ _

/-- A field that was put in a register reads back. -/
theorem RField.bits_put_same {f : RField} (hf : f.lo ≤ f.hi ∧ f.hi < 32) (w : Word) {v : Nat} (hv : v < 2 ^ (f.hi - f.lo + 1)) :
    f.bits (BitVec.ofNat 32 (putBits w.toNat f.lo (f.hi - f.lo + 1) v)).toNat = v := by
  have hb : putBits w.toNat f.lo (f.hi - f.lo + 1) v < 2 ^ 32 := putBits_lt _ _ _ _ _ w.isLt (by omega)
  rw [RField.bits, BitVec.toNat_ofNat, Nat.mod_eq_of_lt hb, getBits_putBits_same, Nat.mod_eq_of_lt hv]

/-- A field apart from the one put stays. -/
theorem RField.bits_put_apart {f g : RField} (hf : f.lo ≤ f.hi ∧ f.hi < 32) (hg : g.lo ≤ g.hi) (ha : g.Apart f) (w : Word) (v : Nat) :
    g.bits (BitVec.ofNat 32 (putBits w.toNat f.lo (f.hi - f.lo + 1) v)).toNat = g.bits w.toNat := by
  have hb : putBits w.toNat f.lo (f.hi - f.lo + 1) v < 2 ^ 32 := putBits_lt _ _ _ _ _ w.isLt (by omega)
  rw [RField.bits, BitVec.toNat_ofNat, Nat.mod_eq_of_lt hb]
  exact getBits_putBits_apart _ _ _ _ _ _ (by rcases ha with h | h <;> omega)

/-! ## What a write leaves in a field (00_scope.md R10, R12) -/

/-- What a field holds after a write of `new` where it held `old`, with its block enabled or not. -/
def RField.takes (f : RField) (on : Bool) (old new : Nat) : Nat :=
  match f.acc with
  | .w1c => old &&& (old ^^^ new)
  | .rw => if f.chg = .staged ∨ f.chg = .frozen ∧ on = true then old else new
  | _ => old

theorem RField.takes_lt (f : RField) (on : Bool) (old new : Nat) : f.takes on (f.bits old) (f.bits new) < 2 ^ (f.hi - f.lo + 1) := by
  have ho := f.bits_lt old
  have hn := f.bits_lt new
  unfold RField.takes
  split
  · exact Nat.lt_of_le_of_lt Nat.and_le_left ho
  · split <;> assumption
  · exact ho

/-- What a write can do to one field: nothing, the drop of a Frozen one, or the field takes its value. -/
theorem Mach.putField_cases (m : Mach) (k a v : Nat) (on : Bool) (f : RField) :
    (m.putField k a v on f = m ∧ f.takes on (f.bits (m.reg k).toNat) (f.bits v) = f.bits (m.reg k).toNat ∧
      (f.acc = .rw → f.chg = .frozen → on = true → f.bits (m.reg k).toNat = f.bits v)) ∨
    (m.putField k a v on f = m.frozenDrop a ∧ f.takes on (f.bits (m.reg k).toNat) (f.bits v) = f.bits (m.reg k).toNat ∧ f.chg = .frozen ∧ on = true) ∨
    ∃ t r, m.putField k a v on f = Mach.setReg { m with tideOld := t, refillOld := r } k
        (BitVec.ofNat 32 (putBits (m.reg k).toNat f.lo (f.hi - f.lo + 1) (f.takes on (f.bits (m.reg k).toNat) (f.bits v)))) ∧
      (f.acc = .rw → f.chg = .frozen → on = false) := by
  obtain ⟨fhi, flo, acc, rst, chg⟩ := f
  cases acc with
  | ro => exact .inl ⟨rfl, rfl, by simp⟩
  | wo => exact .inl ⟨rfl, rfl, by simp⟩
  | rc => exact .inl ⟨rfl, rfl, by simp⟩
  | w1c => exact .inr (.inr ⟨m.tideOld, m.refillOld, rfl, by simp⟩)
  | rw =>
    cases chg with
    | none => exact .inr (.inr ⟨m.tideOld, m.refillOld, rfl, by simp⟩)
    | live => exact .inr (.inr ⟨m.tideOld, m.refillOld, rfl, by simp⟩)
    | staged => exact .inl ⟨rfl, rfl, by simp⟩
    | tide =>
      refine .inr (.inr ?_)
      simp only [Mach.putField, RField.takes]
      split
      · exact ⟨_, m.refillOld, rfl, by simp⟩
      · exact ⟨m.tideOld, m.refillOld, rfl, by simp⟩
    | refill =>
      refine .inr (.inr ?_)
      simp only [Mach.putField, RField.takes]
      split
      · exact ⟨m.tideOld, _, rfl, by simp⟩
      · exact ⟨m.tideOld, m.refillOld, rfl, by simp⟩
    | frozen =>
      cases on with
      | false => exact .inr (.inr ⟨m.tideOld, m.refillOld, rfl, by simp⟩)
      | true =>
        by_cases h : getBits (m.reg k).toNat flo (fhi - flo + 1) = getBits v flo (fhi - flo + 1)
        · exact .inl ⟨by simp [Mach.putField, h], by simp [RField.takes], fun _ _ _ => h⟩
        · exact .inr (.inl ⟨by simp [Mach.putField, h], by simp [RField.takes], rfl, rfl⟩)

/-- Whether a key is one of the two registers that tell of a dropped Frozen write (R12). -/
abbrev frozenKey (k : Nat) : Prop := k = keyOf F.CFG_STATUS_FROZEN_WRITE ∨ k = keyOf F.CFG_FROZEN_ADDR

theorem Mach.frozenDrop_onlyRegs (m : Mach) (a : Nat) : OnlyRegs frozenKey m (m.frozenDrop a) := by
  unfold Mach.frozenDrop
  split
  · exact .refl _ m
  · exact ((OnlyRegs.refl _ m).set (.inl rfl)).set (.inr rfl)

theorem Mach.frozenDrop_bit (m : Mach) (a : Nat) : (m.frozenDrop a).bit F.CFG_STATUS_FROZEN_WRITE = true := by
  unfold Mach.frozenDrop
  split
  · assumption
  · rw [Mach.bit, Mach.get_set_ne _ (by decide), Mach.get_set_same _ _ _ _ _ (by decide)]
    rfl

@[simp] theorem Mach.frozenDrop_shadow (m : Mach) (a : Nat) : (m.frozenDrop a).shadow = m.shadow := by
  unfold Mach.frozenDrop
  split <;> rfl

section
variable {K : Nat → Prop} {m : Mach} {k a v : Nat} {on : Bool} {f : RField}

theorem Mach.putField_shadow (m : Mach) (k a v : Nat) (on : Bool) (f : RField) : (m.putField k a v on f).shadow = m.shadow := by
  obtain ⟨h, -⟩ | ⟨h, -⟩ | ⟨t, r, h, -⟩ := m.putField_cases k a v on f <;> simp [h]

theorem Mach.putField_onlyRegs (hk : K k) (hz : f.chg = .frozen → on = true → ∀ j, frozenKey j → K j) : OnlyRegs K m (m.putField k a v on f) := by
  obtain ⟨h, -⟩ | ⟨h, -, hf, ho⟩ | ⟨t, r, h, -⟩ := m.putField_cases k a v on f
  · rw [h]
    exact .refl K m
  · rw [h]
    exact (m.frozenDrop_onlyRegs a).mono (hz hf ho)
  · rw [h]
    have hx : OnlyRegs K m { m with tideOld := t, refillOld := r } := ⟨rfl, rfl, rfl, rfl, fun _ _ => rfl⟩
    exact hx.setReg _ hk

/-- The field written holds what it takes. -/
theorem Mach.putField_bits_same (hf : f.lo ≤ f.hi ∧ f.hi < 32) (hz : f.chg = .frozen → on = true → ¬ frozenKey k) :
    f.bits ((m.putField k a v on f).reg k).toNat = f.takes on (f.bits (m.reg k).toNat) (f.bits v) := by
  obtain ⟨h, ht, -⟩ | ⟨h, ht, hc, ho⟩ | ⟨t, r, h, -⟩ := m.putField_cases k a v on f
  · rw [h, ht]
  · rw [h, ht, (m.frozenDrop_onlyRegs a).regs k (hz hc ho)]
  · rw [h, Mach.reg_setReg_same, RField.bits_put_same hf _ (f.takes_lt _ _ _)]

/-- A field apart from the one written stays. -/
theorem Mach.putField_bits_apart {g : RField} (hf : f.lo ≤ f.hi ∧ f.hi < 32) (hg : g.lo ≤ g.hi) (ha : g.Apart f) (hz : f.chg = .frozen → on = true → ¬ frozenKey k) :
    g.bits ((m.putField k a v on f).reg k).toNat = g.bits (m.reg k).toNat := by
  obtain ⟨h, -⟩ | ⟨h, -, hc, ho⟩ | ⟨t, r, h, -⟩ := m.putField_cases k a v on f
  · rw [h]
  · rw [h, (m.frozenDrop_onlyRegs a).regs k (hz hc ho)]
  · rw [h, Mach.reg_setReg_same, RField.bits_put_apart hf hg ha]

/-- FROZEN_WRITE, once set, stays through the write of a register other than its own. -/
theorem Mach.putField_keeps_frozenWrite (hk : ¬ frozenKey k) (h : m.bit F.CFG_STATUS_FROZEN_WRITE = true) : (m.putField k a v on f).bit F.CFG_STATUS_FROZEN_WRITE = true := by
  obtain ⟨e, -⟩ | ⟨e, -⟩ | ⟨t, r, e, -⟩ := m.putField_cases k a v on f
  · rw [e, h]
  · rw [e, m.frozenDrop_bit a]
  · rw [e, Mach.bit, Mach.get_setReg_ne _ _ fun he => hk (.inl he.symm)]
    exact h

/-- A Frozen field of an enabled block that a write would change sets FROZEN_WRITE. -/
theorem Mach.putField_frozenWrite (ha : f.acc = .rw) (hc : f.chg = .frozen) (hd : f.bits (m.reg k).toNat ≠ f.bits v) :
    (m.putField k a v true f).bit F.CFG_STATUS_FROZEN_WRITE = true := by
  obtain ⟨-, -, h⟩ | ⟨e, -⟩ | ⟨t, r, -, h⟩ := m.putField_cases k a v true f
  · exact absurd (h ha hc rfl) hd
  · rw [e, m.frozenDrop_bit a]
  · exact absurd (h ha hc) (by simp)

end

/-! ## A register takes a value, field by field -/

/-- The fields of a register take a written value in turn. -/
abbrev Mach.putList (m : Mach) (k a v : Nat) (on : Bool) (fs : List RField) : Mach := fs.foldl (fun m f => m.putField k a v on f) m

theorem Mach.putReg_eq {m : Mach} {l : Loc} {k e : Nat} (hk : l.key = some k) (he : l.elem = some e) (v : Nat) :
    m.putReg false l v = m.putList k l.addr v (m.frozenBy l.addr e) l.info.fields := by
  simp [Mach.putReg, hk, he]

section
variable {K : Nat → Prop} {k a v : Nat} {on : Bool}

theorem Mach.putList_shadow (m : Mach) (k a v : Nat) (on : Bool) (fs : List RField) : (m.putList k a v on fs).shadow = m.shadow := by
  induction fs generalizing m with
  | nil => rfl
  | cons f r ih => exact (ih _).trans (m.putField_shadow k a v on f)

theorem Mach.putList_onlyRegs (m : Mach) {fs : List RField} (hk : K k) (hz : ∀ f ∈ fs, f.chg = .frozen → on = true → ∀ j, frozenKey j → K j) :
    OnlyRegs K m (m.putList k a v on fs) := by
  induction fs generalizing m with
  | nil => exact .refl K m
  | cons f r ih => exact (Mach.putField_onlyRegs hk (hz f (by simp))).trans (ih _ fun g hg => hz g (by simp [hg]))

theorem Mach.putList_bits_apart (m : Mach) {fs : List RField} {g : RField} (hfs : ∀ f ∈ fs, f.lo ≤ f.hi ∧ f.hi < 32) (hg : g.lo ≤ g.hi) (ha : ∀ f ∈ fs, g.Apart f)
    (hz : ∀ f ∈ fs, f.chg = .frozen → on = true → ¬ frozenKey k) :
    g.bits ((m.putList k a v on fs).reg k).toNat = g.bits (m.reg k).toNat := by
  induction fs generalizing m with
  | nil => rfl
  | cons f r ih =>
    simp only [List.mem_cons, forall_eq_or_imp] at hfs ha hz
    exact (ih _ hfs.2 ha.2 hz.2).trans (Mach.putField_bits_apart hfs.1 hg ha.1 hz.1)

/-- Every field holds what it takes. -/
theorem Mach.putList_bits (m : Mach) {fs : List RField} (hn : FieldsNeat fs) (hz : ∀ f ∈ fs, f.chg = .frozen → on = true → ¬ frozenKey k) {g : RField} (hg : g ∈ fs) :
    g.bits ((m.putList k a v on fs).reg k).toNat = g.takes on (g.bits (m.reg k).toNat) (g.bits v) := by
  induction fs generalizing m with
  | nil => cases hg
  | cons f r ih =>
    obtain ⟨hfs, hp⟩ := hn
    simp only [List.mem_cons, forall_eq_or_imp, List.pairwise_cons] at hfs hp hz hg
    rcases hg with rfl | hg
    · exact (Mach.putList_bits_apart _ hfs.2 hfs.1.1 hp.1 hz.2).trans (Mach.putField_bits_same hfs.1 hz.1)
    · have hold : g.bits ((m.putField k a v on f).reg k).toNat = g.bits (m.reg k).toNat :=
        Mach.putField_bits_apart hfs.1 (hfs.2 g hg).1 (hp.1 g hg).symm hz.1
      rw [← hold]
      exact ih _ ⟨hfs.2, hp.2⟩ hz.2 hg

theorem Mach.putList_keeps_frozenWrite (m : Mach) {fs : List RField} (hk : ¬ frozenKey k) (h : m.bit F.CFG_STATUS_FROZEN_WRITE = true) :
    (m.putList k a v on fs).bit F.CFG_STATUS_FROZEN_WRITE = true := by
  induction fs generalizing m with
  | nil => exact h
  | cons f r ih => exact ih _ (Mach.putField_keeps_frozenWrite hk h)

/-- A write that would change a Frozen field of an enabled block sets FROZEN_WRITE. -/
theorem Mach.putList_frozenWrite (m : Mach) {fs : List RField} (hn : FieldsNeat fs) (hk : ¬ frozenKey k) {g : RField} (hg : g ∈ fs) (ha : g.acc = .rw) (hc : g.chg = .frozen)
    (hd : g.bits (m.reg k).toNat ≠ g.bits v) : (m.putList k a v true fs).bit F.CFG_STATUS_FROZEN_WRITE = true := by
  induction fs generalizing m with
  | nil => cases hg
  | cons f r ih =>
    obtain ⟨hfs, hp⟩ := hn
    simp only [List.mem_cons, forall_eq_or_imp, List.pairwise_cons] at hfs hp hg
    rcases hg with rfl | hg
    · exact Mach.putList_keeps_frozenWrite (fs := r) _ hk (Mach.putField_frozenWrite ha hc hd)
    · have hold : g.bits ((m.putField k a v true f).reg k).toNat = g.bits (m.reg k).toNat :=
        Mach.putField_bits_apart hfs.1 (hfs.2 g hg).1 (hp.1 g hg).symm fun _ _ => hk
      exact ih _ ⟨hfs.2, hp.2⟩ hg (hold ▸ hd)

end

/-! ## What a read clears (00_scope.md R10) -/

/-- A value with some fields set to 0. -/
abbrev zeroFields (n : Nat) (fs : List RField) : Nat := fs.foldl (fun n f => putBits n f.lo (f.hi - f.lo + 1) 0) n

theorem zeroFields_lt {fs : List RField} (hfs : ∀ f ∈ fs, f.lo ≤ f.hi ∧ f.hi < 32) {n : Nat} (hn : n < 2 ^ 32) : zeroFields n fs < 2 ^ 32 := by
  induction fs generalizing n with
  | nil => exact hn
  | cons f r ih =>
    simp only [List.mem_cons, forall_eq_or_imp] at hfs
    exact ih hfs.2 (putBits_lt _ _ _ _ _ hn (by omega))

theorem zeroFields_bits_apart {fs : List RField} {g : RField} (hfs : ∀ f ∈ fs, f.lo ≤ f.hi ∧ f.hi < 32) (hg : g.lo ≤ g.hi) (ha : ∀ f ∈ fs, g.Apart f) (n : Nat) :
    g.bits (zeroFields n fs) = g.bits n := by
  induction fs generalizing n with
  | nil => rfl
  | cons f r ih =>
    simp only [List.mem_cons, forall_eq_or_imp] at hfs ha
    exact (ih hfs.2 ha.2 _).trans (getBits_putBits_apart _ _ _ _ _ _ (by rcases ha.1 with h | h <;> omega))

theorem zeroFields_bits_mem {fs : List RField} (hn : FieldsNeat fs) {g : RField} (hg : g ∈ fs) (n : Nat) : g.bits (zeroFields n fs) = 0 := by
  induction fs generalizing n with
  | nil => cases hg
  | cons f r ih =>
    obtain ⟨hfs, hp⟩ := hn
    simp only [List.mem_cons, forall_eq_or_imp, List.pairwise_cons] at hfs hp hg
    rcases hg with rfl | hg
    · exact (zeroFields_bits_apart hfs.2 hfs.1.1 hp.1 _).trans ((getBits_putBits_same _ _ _ _).trans (Nat.zero_mod _))
    · exact ih ⟨hfs.2, hp.2⟩ hg _

/-- A field of the access type reads 0, another field as before. -/
theorem Mach.without_bits {acc : Acc} {info : RegInfo} (hn : FieldsNeat info.fields) {g : RField} (hg : g ∈ info.fields) (n : Nat) :
    g.bits (Mach.without acc info n) = if g.acc = acc then 0 else g.bits n := by
  obtain ⟨hfs, hp⟩ := hn
  have sub : ∀ f ∈ info.fields.filter (fun f => f.acc == acc), f ∈ info.fields ∧ f.acc = acc := fun f hf => by simpa using hf
  split
  · rename_i ha
    exact zeroFields_bits_mem ⟨fun f hf => hfs f (sub f hf).1, hp.filter _⟩ (by simp [hg, ha]) n
  · rename_i ha
    refine zeroFields_bits_apart (fun f hf => hfs f (sub f hf).1) (hfs g hg).1 (fun f hf => ?_) n
    have hne : g ≠ f := fun e => ha (e ▸ (sub f hf).2)
    have : Std.Symm RField.Apart := ⟨fun _ _ h => h.symm⟩
    exact hp.forall hg (sub f hf).1 hne

theorem Mach.without_lt {acc : Acc} {info : RegInfo} (hn : FieldsNeat info.fields) {n : Nat} (h : n < 2 ^ 32) : Mach.without acc info n < 2 ^ 32 :=
  zeroFields_lt (fun f hf => hn.1 f (List.mem_of_mem_filter hf)) h

@[simp] theorem Mach.clearRc_answer (m : Mach) (l : Loc) : (m.clearRc l).answer = m.answer := by
  unfold Mach.clearRc
  split
  · split <;> rfl
  · rfl

@[simp] theorem Mach.clearRc_latch (m : Mach) (l : Loc) : (m.clearRc l).latch = m.latch := by
  unfold Mach.clearRc
  split
  · split <;> rfl
  · rfl

section
variable {m : Mach} {l : Loc} {k : Nat}

theorem Mach.clearRc_onlyRegs (m : Mach) (hk : l.key = some k) : OnlyRegs (fun j => j = k ∧ ∃ f ∈ l.info.fields, f.acc = .rc) m (m.clearRc l) := by
  simp only [Mach.clearRc, hk]
  split
  · rename_i h
    exact (OnlyRegs.refl _ m).setReg _ ⟨rfl, by simpa using h⟩
  · exact .refl _ m

/-- After the read an RC field is 0 and another field as before. -/
theorem Mach.clearRc_bits (m : Mach) (hk : l.key = some k) (hn : FieldsNeat l.info.fields) {g : RField} (hg : g ∈ l.info.fields) :
    g.bits ((m.clearRc l).reg k).toNat = if g.acc = .rc then 0 else g.bits (m.reg k).toNat := by
  simp only [Mach.clearRc, hk]
  split
  · rw [Mach.reg_setReg_same, BitVec.toNat_ofNat, Nat.mod_eq_of_lt (Mach.without_lt hn (m.reg k).isLt), Mach.without_bits hn hg]
  · rename_i h
    have hno : g.acc ≠ .rc := fun e => h (List.any_eq_true.2 ⟨g, hg, by simp [e]⟩)
    rw [if_neg hno]

end

end Sys2Proof.Machine
end

section
/-! SUPPORT. What a register-access fault counts and records (16_faults.md R392, R394, R402). -/
namespace Sys2Proof.Machine

/-! ## The count and the record of a fault event (16_faults.md R392, R394) -/

/-- `y` comes after `x` with the event count of source `s` as it was and every queued record kept. -/
structure FltKept (s : Nat) (x y : Mach) : Prop where
  events : y.reg (keyOf F.FLT_SRC_EVENTS 0 s) = x.reg (keyOf F.FLT_SRC_EVENTS 0 s)
  queue : x.flt.queue <+: y.flt.queue

namespace FltKept

theorem refl (s : Nat) (x : Mach) : FltKept s x x := ⟨rfl, List.prefix_refl _⟩

theorem trans {s : Nat} {x y z : Mach} (h : FltKept s x y) (g : FltKept s y z) : FltKept s x z := ⟨g.events.trans h.events, h.queue.trans g.queue⟩

theorem ite {s : Nat} {c : Prop} [Decidable c] {x y z : Mach} (h : FltKept s x y) (g : FltKept s x z) : FltKept s x (if c then y else z) := by
  split <;> assumption

theorem foldl {α : Type} {s : Nat} (g : Mach → α → Mach) (l : List α) (h : ∀ m, ∀ a ∈ l, FltKept s m (g m a)) (x : Mach) : FltKept s x (l.foldl g x) := by
  induction l generalizing x with
  | nil => exact refl s x
  | cons a r ih => exact (h x a (by simp)).trans (ih (fun m b hb => h m b (by simp [hb])) (g x a))

/-- A field of another register of a source is no event count. -/
theorem set {s : Nat} (x : Mach) (f : Fld) (v i j : Nat) (ha : f.addr + f.step * i < regSpan) (hn : f.addr + f.step * i ≠ F.FLT_SRC_EVENTS.addr) :
    FltKept s x (x.set f v i j) := by
  have ha' : f.addr + f.step * i < 0x04000000 := ha
  have hk : keyOf F.FLT_SRC_EVENTS 0 s ≠ keyOf f i j := by
    simp only [keyOf, Mach.fkey, regKey, regSpan] at hn ⊢
    omega
  exact ⟨Mach.set_reg_ne x hk, List.prefix_refl _⟩

theorem inc {s : Nat} (x : Mach) (f : Fld) (v i j : Nat) (ha : f.addr + f.step * i < regSpan) (hn : f.addr + f.step * i ≠ F.FLT_SRC_EVENTS.addr) :
    FltKept s x (x.inc f v i j) := set x f _ i j ha hn

theorem raise {s : Nat} (x : Mach) (code source herd : Nat) (dest : List Nat) (a b : Nat) : FltKept s x (x.raise code source herd dest a b) :=
  ⟨rfl, List.prefix_refl _⟩

theorem setSrc {s : Nat} (x : Mach) (j : Nat) (y : FltSrc) : FltKept s x (x.setSrc j y) := ⟨rfl, List.prefix_refl _⟩

theorem fltQueue {s : Nat} (x : Mach) (j : Nat) (r : List Word) : FltKept s x (x.fltQueue j r) := by
  have h : FltKept s x ((x.inc F.FLT_SRC_OVF 1 0 j).set F.FLT_FLAGS_OVERFLOW 1) :=
    (inc x _ _ _ _ (by decide) (by decide)).trans (set _ _ _ _ _ (by decide) (by decide))
  exact ite ⟨rfl, List.prefix_append _ _⟩ (ite h (h.trans ⟨rfl, List.prefix_refl _⟩))

theorem srcMove {s : Nat} (x : Mach) (j v : Nat) : FltKept s x (x.srcMove j v) := (set x _ v 0 j (by decide) (by decide)).trans (fltQueue _ _ _)

theorem setHandling {s : Nat} (x : Mach) (j : Nat) (h : Handling) : FltKept s x (x.setHandling j h) :=
  (setSrc x _ _).trans (set _ _ _ _ _ (by decide) (by decide))

theorem degrade {s : Nat} (x : Mach) (j : Nat) : FltKept s x (x.degrade j) := ((srcMove x j 1).trans (raise _ _ _ _ _ _ _)).trans (setHandling _ _ _)

theorem fenceStart {s : Nat} (x : Mach) (j : Nat) (b : Bool) (h : 300 ≤ j) : FltKept s x (x.fenceStart j b) := by
  have e : ∀ v, FltKept s x ((x.srcMove j v).fenceUnit j) := fun v => by
    rw [FltOnly.fenceUnit _ _ h]
    exact srcMove x j v
  exact (e _).trans <| (raise _ _ _ _ _ _ _).trans <| (set _ _ _ _ _ (by decide) (by decide)).trans <| (setHandling _ _ _).trans (setSrc _ _ _)

theorem evalSource {s : Nat} (x : Mach) (j : Nat) (f : Bool) (h : 300 ≤ j) : FltKept s x (x.evalSource j f) :=
  ite (refl s _) <| ite (refl s _) <| ite ⟨rfl, List.prefix_refl _⟩ <| ite (fenceStart _ _ _ h) (degrade _ _)

end FltKept

/-- A fault event of a source that fences nothing: counted once, then its record is queued, and what follows keeps both. -/
theorem fault_kept (x : Mach) (s k : Nat) (i : FltInfo) (h : 300 ≤ s) :
    ∃ (y : Mach) (st c : Nat), y.flt.queue = x.flt.queue ∧ y.get F.FLT_SRC_EVENTS 0 s = min (x.get F.FLT_SRC_EVENTS 0 s + 1) (2 ^ 32 - 1) ∧
      FltKept s (y.fltQueue s (fltRecord y s k st c i)) (x.fault s k i) := by
  unfold Mach.fault
  extract_lets y isOpen count wend fatal m1 m2 st sev reacts fences limit after r m3 m4
  have hcount : (m1.set F.FLT_SRC_STATUS_COUNT count 0 s).get F.FLT_SRC_EVENTS 0 s = x.get F.FLT_SRC_EVENTS 0 s := by
    have hk := (FltKept.set (s := s) m1 F.FLT_SRC_STATUS_COUNT count 0 s (by decide) (by decide)).events
    simp only [Mach.get, hk]
    rfl
  have hevents : m2.get F.FLT_SRC_EVENTS 0 s = min (x.get F.FLT_SRC_EVENTS 0 s + 1) (2 ^ 32 - 1) := by
    have hlt : min (x.get F.FLT_SRC_EVENTS 0 s + 1) (2 ^ 32 - 1) < 2 ^ 32 := by omega
    simp only [m2, Mach.inc, hcount]
    rw [Mach.get_set_same _ _ _ _ _ (by decide), Nat.mod_eq_of_lt hlt]
  refine ⟨m2, after, count, rfl, hevents, ?_⟩
  have h4 : FltKept s m3 m4 := FltKept.ite (.refl s _) ((FltKept.set _ _ _ _ _ (by decide) (by decide)).trans
    (FltKept.foldl _ _ (fun _ a ha => FltKept.set _ _ _ _ _ (by
      have : a < 8 := List.mem_range.1 ha
      simp only [regSpan]
      omega) (by
      have : a < 8 := List.mem_range.1 ha
      simp only []
      omega)) _))
  refine h4.trans ?_
  exact FltKept.ite (FltKept.evalSource _ _ _ h) (FltKept.ite (FltKept.fenceStart _ _ _ h) (FltKept.ite (FltKept.setSrc _ _ _) (.refl s _)))

/-- A fault event is counted in FLT_SRC_EVENTS, which stops at its largest value. -/
theorem fault_events (x : Mach) (s k : Nat) (i : FltInfo) (h : 300 ≤ s) :
    (x.fault s k i).get F.FLT_SRC_EVENTS 0 s = min (x.get F.FLT_SRC_EVENTS 0 s + 1) (2 ^ 32 - 1) := by
  obtain ⟨y, st, c, -, he, hk⟩ := fault_kept x s k i h
  rw [← he, Mach.get, hk.events, (FltKept.fltQueue y s _).events, Mach.get]

/-- While the fault queue has room, the event's record is in it. -/
theorem fault_record (x : Mach) (s k : Nat) (i : FltInfo) (h : 300 ≤ s) (hq : x.flt.queue.length < 512) :
    ∃ (y : Mach) (st c : Nat), fltRecord y s k st c i ∈ (x.fault s k i).flt.queue := by
  obtain ⟨y, st, c, hyq, -, hk⟩ := fault_kept x s k i h
  refine ⟨y, st, c, hk.queue.subset ?_⟩
  simp [Mach.fltQueue, hyq, hq]

/-- Source, access type and address of a record (R394). -/
theorem fltRecord_fields (m : Mach) {s k st c : Nat} {i : FltInfo} (hs : s < 512) (hk : k < 15) (ha : i.access < 8) :
    ((fltRecord m s k st c i).getD 0 0).toNat / 2 ^ 8 % 2 ^ 9 = s ∧ ((fltRecord m s k st c i).getD 0 0).toNat / 2 ^ 17 % 8 = i.access ∧
      (fltRecord m s k st c i).getD 2 0 = BitVec.ofNat 32 i.addr := by
  refine ⟨?_, ?_, rfl⟩ <;> simp only [fltRecord, List.getD_cons_zero, BitVec.toNat_ofNat] <;> omega

/-- The fault source of the register accesses of a path (R9, R392). -/
abbrev regSrc (p : Path) : Nat := if p = .mgmt then srcRegMgmt else srcRegFabric

/-- A register-access fault is a FAILED event of the path's source, with access type and address. -/
theorem Mach.regFault_eq (m : Mach) (p : Path) (a : Nat) (w : Bool) :
    ∃ i : FltInfo, i.access = (if w then 6 else 5) ∧ i.addr = a ∧ m.regFault p a w = m.fault (regSrc p) kFailed i := by
  cases p with
  | mgmt => exact ⟨{ access := if w then 6 else 5, addr := a }, rfl, rfl, by simp [regFault, regSrc]⟩
  | fabric h => exact ⟨{ access := if w then 6 else 5, addr := a, herd := h }, rfl, rfl, by simp [regFault, regSrc]⟩

theorem regSrc_bounds (p : Path) : 300 ≤ regSrc p ∧ regSrc p < 512 := by
  cases p <;> simp [regSrc, srcRegMgmt, srcRegFabric]

/-- A register-access fault is counted. -/
theorem Mach.regFault_events (m : Mach) (p : Path) (a : Nat) (w : Bool) :
    (m.regFault p a w).get F.FLT_SRC_EVENTS 0 (regSrc p) = min (m.get F.FLT_SRC_EVENTS 0 (regSrc p) + 1) (2 ^ 32 - 1) := by
  obtain ⟨i, -, -, e⟩ := m.regFault_eq p a w
  rw [e, fault_events _ _ _ _ (regSrc_bounds p).1]

/-- A register-access fault is captured with its path, its type and its address, while the queue has room. -/
theorem Mach.regFault_record (m : Mach) (p : Path) (a : Nat) (w : Bool) (hq : m.flt.queue.length < 512) :
    ∃ r ∈ (m.regFault p a w).flt.queue, (r.getD 0 0).toNat / 2 ^ 8 % 2 ^ 9 = regSrc p ∧ (r.getD 0 0).toNat / 2 ^ 17 % 8 = (if w then 6 else 5) ∧
      r.getD 2 0 = BitVec.ofNat 32 a := by
  obtain ⟨i, ha, hadr, e⟩ := m.regFault_eq p a w
  obtain ⟨h300, h512⟩ := regSrc_bounds p
  obtain ⟨y, st, c, hr⟩ := fault_record m (regSrc p) kFailed i h300 hq
  have hacc : i.access < 8 := by rw [ha]; split <;> decide
  obtain ⟨hs, hac, had⟩ := fltRecord_fields y (c := c) h512 (by decide : kFailed < 15) hacc
  exact ⟨_, e ▸ hr, hs, hac.trans ha, had.trans (by rw [hadr])⟩

end Sys2Proof.Machine
end

section
/-! SUPPORT. Which accesses act, which are dropped, and what a write of a register comes to (00_scope.md R7 to R9). -/
namespace Sys2Proof.Machine

/-! ## Accesses to the register space (00_scope.md R7, R9; 14_herds.md R356, R358; 20_register_index.md R481) -/

/-- No page other than the steward's that holds the address belongs to a herd in DESTROYING. -/
abbrev Mach.PagesAlive (m : Mach) (addr : Nat) : Prop := ∀ h, 0 < h → h < 256 → herdPage h ≤ addr → addr < herdPage (h + 1) → m.herdState h ≠ 4

/-- An address above the first page lies on the page that its distance names. -/
theorem herdPage_of_addr {addr : Nat} (h : 0x00800000 ≤ addr) :
    herdPage ((addr - 0x00800000) / 0x10000) ≤ addr ∧ addr < herdPage ((addr - 0x00800000) / 0x10000 + 1) := by
  unfold herdPage
  omega

theorem addr_of_herdPage {addr g : Nat} (h : herdPage g ≤ addr) (h' : addr < herdPage (g + 1)) : 0x00800000 ≤ addr ∧ (addr - 0x00800000) / 0x10000 = g := by
  unfold herdPage at h h'
  omega

theorem Mach.accessAt_unserved {m : Mach} {p : Path} {addr : Nat} (h : m.served p addr = false) (w : Bool) (f : Mach → Loc → Mach) : m.accessAt p addr w f = m := by
  simp [Mach.accessAt, h]

/-- An access that is served, reaches its register and meets no page that is being destroyed acts on the register. -/
theorem Mach.accessAt_located {m : Mach} {p : Path} {addr : Nat} {l : Loc} {w : Bool} (hs : m.served p addr = true) (hr : m.reaches p addr = true)
    (hl : m.locate p addr = some l) (hd : w = false ∨ m.PagesAlive addr) (f : Mach → Loc → Mach) : m.accessAt p addr w f = f m l := by
  have dead : (w && decide (0x00800000 ≤ addr) && decide (addr < 0x01800000) && decide ((addr - 0x00800000) / 0x10000 ≠ 0) &&
      m.herdState ((addr - 0x00800000) / 0x10000) == 4) = false := by
    rcases hd with rfl | hd
    · simp
    · by_contra hc
      simp only [Bool.not_eq_false, Bool.and_eq_true, decide_eq_true_eq, beq_iff_eq] at hc
      obtain ⟨⟨⟨⟨-, h1⟩, h2⟩, h3⟩, h4⟩ := hc
      have hg : (addr - 0x00800000) / 0x10000 < 256 := by omega
      have hin := herdPage_of_addr h1
      exact hd _ (by omega) hg hin.1 hin.2 h4
  simp only [Mach.accessAt, hs, hl, hr, dead, Bool.true_eq_false, Bool.false_eq_true, if_false, or_false]

/-- An access where no register lies, that its path does not reach, or that writes the page of a herd in DESTROYING is dropped and captured. -/
theorem Mach.accessAt_refused {m : Mach} {p : Path} {addr : Nat} {w : Bool} (hs : m.served p addr = true)
    (h : m.locate p addr = none ∨ m.reaches p addr = false ∨ w = true ∧ ¬ m.PagesAlive addr) (f : Mach → Loc → Mach) :
    m.accessAt p addr w f = m.regFault p addr w := by
  cases hl : m.locate p addr with
  | none => simp [Mach.accessAt, hs, hl]
  | some l =>
    rcases h with h | h | ⟨rfl, h⟩
    · simp [hl] at h
    · simp [Mach.accessAt, hs, hl, h]
    · simp only [Mach.PagesAlive, not_forall, not_not] at h
      obtain ⟨g, h1, h2, h3, h4, h5⟩ := h
      obtain ⟨hlo, hg⟩ := addr_of_herdPage h3 h4
      have hhi : addr < 0x01800000 := by omega
      simp only [Mach.accessAt, hs, hl, hg, h5]
      simp [hlo, hhi, Nat.ne_of_gt h1]

/-- Addresses of the registers by which the whole module is commanded. -/
abbrev moduleCmds : List Nat := [0x1006C, 0x10080, 0x20100, 0x40004, 0x4000C, 0x3D00000]

/-- A command of the whole module stands behind the steward's gate (R481); a write elsewhere reaches a register of a block. -/
theorem Mach.writeAt_cases (m : Mach) (p : Path) (addr : Nat) (w : Word) :
    (addr ∈ moduleCmds ∧ ∃ f, m.writeAt p addr w = m.stewardGate p addr f) ∨
    (addr ∉ moduleCmds ∧ m.writeAt p addr w = m.accessAt p addr true (fun m l => m.directWrite l w.toNat)) := by
  by_cases h : addr ∈ moduleCmds
  · refine .inl ⟨h, ?_⟩
    simp only [List.mem_cons, List.not_mem_nil, or_false] at h
    rcases h with rfl | rfl | rfl | rfl | rfl | rfl
    · exact ⟨_, rfl⟩
    · exact ⟨_, (rfl : m.resetCmd p w.toNat = m.stewardGate p F.CLK_RESET_CMD_OP.addr _)⟩
    · exact ⟨_, (rfl : m.quoteGo p w.toNat = m.stewardGate p F.BOOT_QUOTE_CMD_GO.addr _)⟩
    · exact ⟨_, (rfl : m.writeCommit p w.toNat = m.stewardGate p F.CFG_COMMIT_OP.addr _)⟩
    · exact ⟨_, rfl⟩
    · exact ⟨_, rfl⟩
  · refine .inr ⟨h, ?_⟩
    simp only [List.mem_cons, List.not_mem_nil, or_false, not_or] at h
    obtain ⟨h1, h2, h3, h4, h5, h6⟩ := h
    unfold Mach.writeAt
    split
    · contradiction
    · contradiction
    · contradiction
    · contradiction
    · contradiction
    · contradiction
    · rfl

theorem Mach.writeAt_block {m : Mach} {p : Path} {addr : Nat} {w : Word} (h : addr ∉ moduleCmds) :
    m.writeAt p addr w = m.accessAt p addr true (fun m l => m.directWrite l w.toNat) :=
  ((m.writeAt_cases p addr w).resolve_left fun hc => h hc.1).2

/-- No module command stands on a herd page. -/
theorem not_moduleCmd_of_page {addr : Nat} (h : 0x00800000 ≤ addr) (h' : addr < 0x01800000) : addr ∉ moduleCmds := by
  simp only [List.mem_cons, List.not_mem_nil, or_false]
  omega

/-- Every module command is a register, and no herd page's. -/
theorem moduleCmd_occupied {addr : Nat} (h : addr ∈ moduleCmds) (p : Path) : regInfo (resolve p addr).2 ≠ none ∧ ¬ (0x00800000 ≤ addr ∧ addr < 0x01800000) := by
  have hp : ¬ (0x00800000 ≤ addr ∧ addr < 0x01800000) := fun ⟨h1, h2⟩ => not_moduleCmd_of_page h1 h2 h
  refine ⟨?_, hp⟩
  simp only [resolve, if_neg hp]
  revert addr
  decide +kernel

theorem Mach.writeAt_unserved {m : Mach} {p : Path} {addr : Nat} (h : m.served p addr = false) (w : Word) : m.writeAt p addr w = m := by
  obtain ⟨-, f, e⟩ | ⟨-, e⟩ := m.writeAt_cases p addr w
  · simp [e, Mach.stewardGate, Mach.gate, h]
  · rw [e, Mach.accessAt_unserved h]

/-- A write where no register lies, or beyond its path's reach, is dropped and captured. -/
theorem Mach.writeAt_unreached {m : Mach} {p : Path} {addr : Nat} (hs : m.served p addr = true) (h : regInfo (resolve p addr).2 = none ∨ m.reaches p addr = false)
    (w : Word) : m.writeAt p addr w = m.regFault p addr true := by
  obtain ⟨hc, f, e⟩ | ⟨-, e⟩ := m.writeAt_cases p addr w
  · obtain ⟨hocc, hpage⟩ := moduleCmd_occupied hc p
    have hr : m.reaches p addr = false := h.resolve_left hocc
    cases p with
    | mgmt => simp [Mach.reaches] at hr
    | fabric g =>
      simp only [Mach.reaches, if_neg hpage, Mach.failStop] at hr
      simp only [e, Mach.stewardGate, Mach.gate, hs]
      simp [hr]
  · rw [e, Mach.accessAt_refused hs]
    exact h.imp locate_eq_none .inl

/-- A read where no register lies, or beyond its path's reach, reads 0 and is captured. -/
theorem Mach.readAt_unreached {m : Mach} {p : Path} {addr : Nat} (hs : m.served p addr = true) (h : regInfo (resolve p addr).2 = none ∨ m.reaches p addr = false) :
    m.readAt p addr = (m.putAnswer 0).regFault p addr false :=
  Mach.accessAt_refused (m := m.putAnswer 0) hs (h.imp locate_eq_none .inl) _

theorem Mach.anyAccess_write (m : Mach) (p : Path) {addr : Nat} (h : addr % 4 = 0) (w : Word) : m.anyAccess p addr 4 true w = m.writeAt p addr w := by
  simp [Mach.anyAccess, h]

theorem Mach.anyAccess_read (m : Mach) (p : Path) {addr : Nat} (h : addr % 4 = 0) (w : Word) : m.anyAccess p addr 4 false w = m.readAt p addr := by
  simp [Mach.anyAccess, h]

/-! ## A write that reaches a register of a block -/

theorem Mach.stageHalf_of_unstaged {m : Mach} {l : Loc} (h : ∀ f ∈ l.info.fields, f.chg ≠ .staged) (v : Nat) : m.stageHalf l v = m := by
  unfold Mach.stageHalf
  split
  · rfl
  · have no : ∀ k, l.info.fields.any (fun f => f.chg == .staged && getBits (m.shadowMach.reg k).toNat f.lo (f.hi - f.lo + 1) != getBits v f.lo (f.hi - f.lo + 1)) = false :=
      fun k => List.any_eq_false.2 fun f hf => by simp [h f hf]
    simp [no]

/-- A write of a register without Staged fields adds nothing to the staged set (18_config_firmware.md R439). -/
theorem Mach.directWrite_of_unstaged {m : Mach} {l : Loc} (h : ∀ f ∈ l.info.fields, f.chg ≠ .staged)
    (hlo : l.info.pair = .hi → ∀ f ∈ (Mach.loHalf l).info.fields, f.chg ≠ .staged) (v : Nat) : m.directWrite l v = m.writeLoc false l v := by
  have hs : m.stageDirect l v = m := by
    unfold Mach.stageDirect
    split
    · rfl
    · split
      · rfl
      · split
        · rename_i hp
          rw [Mach.stageHalf_of_unstaged (hlo hp), Mach.stageHalf_of_unstaged h]
        · exact Mach.stageHalf_of_unstaged h _
  rw [Mach.directWrite, hs]

/-- A register without a field of a change class is none of those that a check finds to have one. -/
theorem not_mem_of_class {c : Chg} {as : List Nat} (hc : as.all (fun b => (regInfo b).any fun y => y.1.fields.any fun f => f.chg == c) = true) {a : Nat}
    {x : RegInfo × Nat × Nat} (h : regInfo a = some x) (hf : ∀ f ∈ x.1.fields, f.chg ≠ c) : a ∉ as := by
  intro ha
  have := List.all_eq_true.1 hc a ha
  rw [h] at this
  obtain ⟨f, hm, he⟩ := List.any_eq_true.1 this
  exact hf f hm (by simpa using he)

/-- The entries of the route table hold Staged fields (13_routing_deadlock.md R350). -/
theorem not_routeEntry_of_unstaged {a : Nat} {x : RegInfo × Nat × Nat} (h : regInfo a = some x) (hf : ∀ f ∈ x.1.fields, f.chg ≠ .staged) :
    a ≠ 0x00200034 ∧ a ≠ 0x00200038 := by
  have := not_mem_of_class (as := [0x00200034, 0x00200038]) (by decide +kernel) h hf
  simpa using this

/-- The bases of rings, the diagnostic rings' among them, are Frozen (05_queues_descriptors.md R128, 12_ports_mac.md R319). -/
theorem not_ringBase_of_unfrozen {a : Nat} {x : RegInfo × Nat × Nat} (h : regInfo a = some x) (hf : ∀ f ∈ x.1.fields, f.chg ≠ .frozen) :
    Mach.ringKind a = none ∧ ¬ (0x00100000 ≤ a ∧ a < 0x00180000 ∧ a % 0x4000 = 0x184) := by
  have hring := not_mem_of_class (as := [0x00400108, 0x00400208, 0x00400308]) (by decide +kernel) h hf
  have hdiag := not_mem_of_class (as := (List.range 32).map fun n => 0x00100184 + 0x4000 * n) (by decide +kernel) h hf
  simp only [List.mem_cons, List.not_mem_nil, or_false, not_or] at hring
  simp only [List.mem_map, List.mem_range, not_exists, not_and] at hdiag
  refine ⟨by simp [Mach.ringKind, hring], fun hd => ?_⟩
  exact hdiag ((a - 0x00100184) / 0x4000) (by omega) (by omega)

/-- What a write of a register by which nothing is commanded comes to: LO of a writable pair is held back, HI takes both halves, any other register takes its
fields (R8). -/
theorem Mach.writeLoc_plain {m : Mach} {l : Loc} {v w : Nat} (hv : v = Mach.forceHerd l.v l.addr w)
    (hc : m.get F.CIPH_STATUS_PRESENT ≠ 0 ∨ l.addr < 0x3A00000 ∨ 0x3B00000 ≤ l.addr) (ha : l.addr ≠ 0x00200034 ∧ l.addr ≠ 0x00200038)
    (hp : m.poolsOver l.addr v = false) (ho : m.pageOwns l = true) (hw : m.writeCommand false l v = none) :
    m.writeLoc false l w =
      if l.info.pair = .lo ∧ Mach.pairRw l then m.putShadow (alPut m.shadow (ownKey l.v l.addr) (BitVec.ofNat 32 v))
      else if l.info.pair = .hi ∧ Mach.pairRw l then m.writePair false l v
      else m.putReg false l v := by
  have hciph : ¬ (m.get F.CIPH_STATUS_PRESENT = 0 ∧ 0x03A00000 ≤ l.addr ∧ l.addr < 0x03B00000) := by omega
  subst hv
  simp only [Mach.writeLoc, if_neg hciph, ha.1, ha.2, hp, ho, hw, false_and, if_false, Bool.false_eq_true, Bool.true_eq_false]

end Sys2Proof.Machine
end

section
/-! SUPPORT and proof of O55: reads of registers, and accesses that reach none. -/
namespace Sys2Proof.Machine

/-! ## Reads of registers (00_scope.md R8, R10) -/

/-- What a read of a register that answers comes to, by what half of a pair the register is. -/
theorem Mach.readLoc_open {m : Mach} {l : Loc} {k : Nat} (hc : m.get F.CIPH_STATUS_PRESENT ≠ 0 ∨ l.addr < 0x3A00000 ∨ 0x3B00000 ≤ l.addr) (ho : m.pageOwns l = true)
    (hk : l.key = some k) :
    (l.info.pair = .none → Mach.uncounted l.addr = false → m.readLoc l = (m.answerWord (m.readWord l)).clearRc l) ∧
    (l.info.pair = .lo → l.addr ≠ F.CIPH_PAGE_REKEY_LO.addr → m.readLoc l =
      (({ m.answerWord (m.readWord l) with latch := alPut m.latch (ownKey l.v l.addr) (BitVec.ofNat 32 (m.readWord (Mach.hiHalf' l))) } : Mach).clearRc l).clearRc
        (Mach.hiHalf' l)) ∧
    (l.info.pair = .hi →
      (∀ w, alGet m.latch (ownKey l.v (l.addr - 4)) = some w → m.readLoc l = (m.putLatch (alDel m.latch (ownKey l.v (l.addr - 4)))).putAnswer w) ∧
      (alGet m.latch (ownKey l.v (l.addr - 4)) = none → m.readLoc l = m.answerWord (m.readWord l))) := by
  have hopen : ¬ ((m.get F.CIPH_STATUS_PRESENT = 0 ∧ 0x03A00000 ≤ l.addr ∧ l.addr < 0x03B00000) ∨ m.pageOwns l = false ∨ l.key.isNone) := by
    rintro (h | h | h)
    · omega
    · simp [ho] at h
    · simp [hk] at h
  unfold Mach.readLoc
  rw [if_neg hopen]
  refine ⟨fun hp hu => ?_, fun hp ha => ?_, fun hp => ⟨fun w hw => ?_, fun hw => ?_⟩⟩
  · simp [hp, hu]
  · simp only [hp, if_neg (fun h : _ ∧ _ => ha h.1)]
  · simp [hp, hw]
  · simp [hp, hw]

/-- A counter that no row advances reads a free value, or 0 where nothing answers (notes/assumptions/113.md). -/
theorem Mach.readLoc_uncounted (m : Mach) {l : Loc} (hp : l.info.pair = .none) (hu : Mach.uncounted l.addr = true) :
    m.readLoc l = m.answerWord 0 ∨ m.readLoc l = m.freeRead := by
  unfold Mach.readLoc
  split
  · exact .inl rfl
  · simp [hp]

/-- How to show what a read does that reaches its register. -/
theorem runs_read {s : State} {p : Path} {addr : Nat} {l : Loc} {c : Instr} {P : Mach → Prop} {K : Nat → Prop} {x : Mach} (hi : s.m.Inv) (ha : addr % 4 = 0)
    (hs : (s.m.putAnswer 0).served p addr = true) (hr : (s.m.putAnswer 0).reaches p addr = true) (hl : (s.m.putAnswer 0).locate p addr = some l)
    (hc : c ∈ [Instr.pairLoRead p addr, Instr.readClearRegister p addr]) (hx : (s.m.putAnswer 0).readLoc l = x) (ho : OnlyRegs K s.m x)
    (h : Frame K s.m (settle s.m x) → (∀ k, (settle s.m x).reg k = x.reg k) → P (settle s.m x)) : Runs c s P := by
  have he : Sys2Proof.Machine.exec c s = commit s (fun m => m.anyAccess p addr 4 false 0) := by
    simp only [List.mem_cons, List.not_mem_nil, or_false] at hc
    rcases hc with rfl | rfl <;> rfl
  refine runs_of_onlyRegs he hi ?_ ho h
  rw [Mach.anyAccess_read _ _ ha, Mach.readAt, Mach.accessAt_located hs hr hl (.inl rfl), hx]

/-! ## Accesses that reach no register (R9) -/

/-- How to show what a command does that comes to a register-access fault, after an update that leaves the collector alone. -/
theorem runs_of_regFault {c : Instr} {s : State} {P : Mach → Prop} {K : Nat → Prop} {f : Mach → Mach} {y : Mach} {p : Path} {a : Nat} {w : Bool}
    (hc : Sys2Proof.Machine.exec c s = commit s f) (hi : s.m.Inv) (hx : f s.m = y.regFault p a w) (hK : ∀ k, fltKey k → K k) (hy : OnlyRegs K s.m y)
    (hq : y.flt = s.m.flt) (he : y.reg (keyOf F.FLT_SRC_EVENTS 0 (regSrc p)) = s.m.reg (keyOf F.FLT_SRC_EVENTS 0 (regSrc p)))
    (h : FltOnly y (y.regFault p a w) → (∀ k, (settle s.m (y.regFault p a w)).reg k = (y.regFault p a w).reg k) →
      (settle s.m (y.regFault p a w)).get F.FLT_SRC_EVENTS 0 (regSrc p) = min (s.m.get F.FLT_SRC_EVENTS 0 (regSrc p) + 1) (2 ^ 32 - 1) →
      (s.m.flt.queue.length < 512 → ∃ r ∈ (settle s.m (y.regFault p a w)).flt.queue, (r.getD 0 0).toNat / 2 ^ 8 % 2 ^ 9 = regSrc p ∧
        (r.getD 0 0).toNat / 2 ^ 17 % 8 = (if w then 6 else 5) ∧ r.getD 2 0 = BitVec.ofNat 32 a) →
      Frame K s.m (settle s.m (y.regFault p a w)) → P (settle s.m (y.regFault p a w))) : Runs c s P := by
  have hflt := FltOnly.regFault y p a w
  have ho : OnlyRegs K s.m (y.regFault p a w) := hy.trans ((OnlyRegs.of_fltOnly hflt).mono hK)
  refine runs_of_onlyRegs hc hi hx ho fun hf hr => h hflt hr ?_ (fun hlen => y.regFault_record p a w (by rwa [hq])) hf
  rw [settle_get _ _ _ _ _ ho.variant, y.regFault_events p a w, Mach.get, Mach.get, he]

/-! ## A write through a herd page that names what the herd does not own (14_herds.md R358) -/

/-- No herd page shows a register of the router or of the cipher block (14_herds.md R359). -/
theorem unalias_bounds {off a : Nat} (h : unalias off = some a) : 0x00400000 ≤ a ∧ (a < 0x03A00000 ∨ 0x03B00000 ≤ a) := by
  unfold unalias at h
  split_ifs at h <;> simp only [Option.some.injEq] at h <;> omega

/-- A write of a block's register through a herd page adds nothing to the staged set. -/
theorem directWrite_of_page {m : Mach} {p : Path} {addr g : Nat} {l : Loc} (hl : m.locate p addr = some l) (hg : l.v.page = some g) (v : Nat) :
    m.directWrite l v = m.writeLoc false l v := by
  obtain ⟨h1, h2, h3, hu⟩ := locate_page hl hg
  obtain ⟨x, hx, hxi⟩ := locate_info hl
  have hu' : unalias (aliasOff l.addr) = some l.addr := by rw [aliasOff_of_unalias hu, hu]
  refine Mach.directWrite_of_unstaged (hxi ▸ (regInfo_checked hx).2.2 (.inl hu')) (fun _ f hf => ?_) v
  cases hy : regInfo (l.addr - 4) with
  | none =>
    simp only [Mach.loHalf, hy, Option.map_none, Option.getD_none] at hf
    exact (regInfo_checked hx).2.2 (.inl hu') f (hxi ▸ hf)
  | some y =>
    have hpos : l.addr - 4 + 4 = l.addr := Nat.sub_add_cancel (Nat.le_trans (by decide) (unalias_bounds hu).1)
    simp only [Mach.loHalf, hy, Option.map_some, Option.getD_some] at hf
    exact (regInfo_checked hy).2.2 (.inr (by rw [hpos, hu'])) f hf

/-- A write through a herd page that names what the page's herd does not own sets FOREIGN and is captured. -/
theorem writeAt_foreign {m : Mach} {p : Path} {addr g : Nat} {l : Loc} (hs : m.served p addr = true) (hr : m.reaches p addr = true) (hl : m.locate p addr = some l)
    (hg : l.v.page = some g) (hd : m.PagesAlive addr) (ho : m.pageOwns l = false) (w : Word) :
    m.writeAt p addr w = (m.setReg (herdPage g + 0x9004) 1).regFault p (herdPage g + aliasOff l.addr) true := by
  obtain ⟨h1, h2, -, hu⟩ := locate_page hl hg
  obtain ⟨hlo, hciph⟩ := unalias_bounds hu
  rw [Mach.writeAt_block (not_moduleCmd_of_page h1 h2), Mach.accessAt_located hs hr hl (.inr hd), directWrite_of_page hl hg]
  have c1 : ¬ (m.get F.CIPH_STATUS_PRESENT = 0 ∧ 0x03A00000 ≤ l.addr ∧ l.addr < 0x03B00000) := by omega
  have c2 : ¬ (l.addr = 0x00200034 ∧ 1024 ≤ l.elem.getD 0) := by omega
  have c3 : ¬ (l.addr = 0x00200038 ∧ 1024 ≤ l.elem.getD 0) := by omega
  have c4 : ∀ v, m.poolsOver l.addr v = false := fun v => by
    rw [Mach.poolsOver, if_neg (by omega), if_neg (by omega)]
  rw [Mach.writeLoc, if_neg c1, if_neg c2, if_neg c3, c4, if_neg Bool.false_ne_true, if_pos ho, Mach.pageForeign, hg, locate_path hl]
  rfl

/-- The page of an access, alive, is the only page that holds the address. -/
theorem pagesAlive_of_page {m : Mach} {p : Path} {addr g : Nat} {l : Loc} (hl : m.locate p addr = some l) (hg : l.v.page = some g) (h : g = 0 ∨ m.herdState g ≠ 4) :
    m.PagesAlive addr := by
  obtain ⟨-, -, hga, -⟩ := locate_page hl hg
  intro g' hpos _ hlo hhi
  have hsame : g' = g := (addr_of_herdPage hlo hhi).2.symm.trans hga.symm
  subst hsame
  exact h.resolve_left (Nat.ne_of_gt hpos)

/-! ## O55 -/

/-- A read of a register that is no half of a pair returns what it shows and clears its RC fields. -/
theorem runs_read_single {s : State} {p : Path} {addr k : Nat} {l : Loc} {c : Instr} (hi : s.m.Inv) (ha : addr % 4 = 0)
    (hs : (s.m.putAnswer 0).served p addr = true) (hr : (s.m.putAnswer 0).reaches p addr = true) (hl : (s.m.putAnswer 0).locate p addr = some l)
    (hc : c ∈ [Instr.pairLoRead p addr, Instr.readClearRegister p addr]) (hk : l.key = some k)
    (hx : (s.m.putAnswer 0).readLoc l = ((s.m.putAnswer 0).answerWord ((s.m.putAnswer 0).readWord l)).clearRc l) :
    Runs c s fun n =>
      n.answer = BitVec.ofNat 32 ((s.m.putAnswer 0).readWord l) ∧
      (∀ f ∈ l.info.fields, getBits (n.reg k).toNat f.lo (f.hi - f.lo + 1) = if f.acc = .rc then 0 else getBits (s.m.reg k).toNat f.lo (f.hi - f.lo + 1)) ∧
      Frame (fun x => x = k ∧ ∃ f ∈ l.info.fields, f.acc = .rc) s.m n := by
  have hy : OnlyRegs (fun x => x = k ∧ ∃ f ∈ l.info.fields, f.acc = .rc) s.m ((s.m.putAnswer 0).answerWord ((s.m.putAnswer 0).readWord l)) :=
    ⟨rfl, rfl, rfl, rfl, fun _ _ => rfl⟩
  refine runs_read hi ha hs hr hl hc hx (hy.trans (Mach.clearRc_onlyRegs _ hk)) fun hf hreg => ⟨?_, fun f hf' => ?_, hf⟩
  · simp [Mach.answerWord]
  · rw [hreg]
    exact Mach.clearRc_bits _ hk (locate_neat hl) hf'

/-- A read of LO returns what it shows, latches HI, and clears the RC fields of both. -/
theorem runs_read_lo {s : State} {p : Path} {addr k : Nat} {l : Loc} {c : Instr} (hi : s.m.Inv) (ha : addr % 4 = 0)
    (hs : (s.m.putAnswer 0).served p addr = true) (hr : (s.m.putAnswer 0).reaches p addr = true) (hl : (s.m.putAnswer 0).locate p addr = some l)
    (hc : c ∈ [Instr.pairLoRead p addr, Instr.readClearRegister p addr]) (hk : l.key = some k)
    (hx : (s.m.putAnswer 0).readLoc l = (({ (s.m.putAnswer 0).answerWord ((s.m.putAnswer 0).readWord l) with
        latch := alPut s.m.latch (ownKey l.v l.addr) (BitVec.ofNat 32 ((s.m.putAnswer 0).readWord (Mach.hiHalf' l))) } : Mach).clearRc l).clearRc (Mach.hiHalf' l)) :
    Runs c s fun n =>
      n.answer = BitVec.ofNat 32 ((s.m.putAnswer 0).readWord l) ∧
      alGet n.latch (ownKey l.v l.addr) = some (BitVec.ofNat 32 ((s.m.putAnswer 0).readWord (Mach.hiHalf' l))) ∧
      (∀ f ∈ l.info.fields, f.acc = .rc → getBits (n.reg k).toNat f.lo (f.hi - f.lo + 1) = 0) ∧
      (∀ f ∈ (Mach.hiHalf' l).info.fields, f.acc = .rc → getBits (n.reg (k + 4)).toNat f.lo (f.hi - f.lo + 1) = 0) ∧
      Frame (fun x => (x = k ∨ x = k + 4) ∧ ∃ f ∈ l.info.fields ++ (Mach.hiHalf' l).info.fields, f.acc = .rc) s.m n := by
  have hk' : (Mach.hiHalf' l).key = some (k + 4) := by simp [Mach.hiHalf', hk]
  have hneat' : FieldsNeat (Mach.hiHalf' l).info.fields := getD_neat (locate_neat hl)
  generalize hy : ({ (s.m.putAnswer 0).answerWord ((s.m.putAnswer 0).readWord l) with
    latch := alPut s.m.latch (ownKey l.v l.addr) (BitVec.ofNat 32 ((s.m.putAnswer 0).readWord (Mach.hiHalf' l))) } : Mach) = y at hx
  have hyo : OnlyRegs (fun x => (x = k ∨ x = k + 4) ∧ ∃ f ∈ l.info.fields ++ (Mach.hiHalf' l).info.fields, f.acc = .rc) s.m y := by
    subst hy
    exact ⟨rfl, rfl, rfl, rfl, fun _ _ => rfl⟩
  have h1 := Mach.clearRc_onlyRegs y hk
  have h2 := Mach.clearRc_onlyRegs (y.clearRc l) hk'
  have ho := (hyo.trans (h1.mono fun x hx => ⟨.inl hx.1, hx.2.imp fun f hf => ⟨by simp [hf.1], hf.2⟩⟩)).trans
    (h2.mono fun x hx => ⟨.inr hx.1, hx.2.imp fun f hf => ⟨by simp [hf.1], hf.2⟩⟩)
  refine runs_read hi ha hs hr hl hc hx ho fun hf hreg => ⟨?_, ?_, fun f hf' hrc => ?_, fun f hf' hrc => ?_, hf⟩
  · subst hy
    simp [Mach.answerWord]
  · subst hy
    simp [alGet_alPut_same]
  · rw [hreg, h2.regs k (by simp)]
    simpa [hrc] using Mach.clearRc_bits y hk (locate_neat hl) hf'
  · rw [hreg]
    simpa [hrc] using Mach.clearRc_bits (y.clearRc l) hk' hneat' hf'

/-- A read of HI returns the half that LO latched, once, or else what HI shows. -/
theorem runs_read_hi {s : State} {p : Path} {addr j : Nat} {l : Loc} {c : Instr} (hi : s.m.Inv) (ha : addr % 4 = 0)
    (hs : (s.m.putAnswer 0).served p addr = true) (hr : (s.m.putAnswer 0).reaches p addr = true) (hl : (s.m.putAnswer 0).locate p addr = some l)
    (hc : c ∈ [Instr.pairLoRead p addr, Instr.readClearRegister p addr])
    (hx : (∀ w, alGet s.m.latch j = some w → (s.m.putAnswer 0).readLoc l = ((s.m.putAnswer 0).putLatch (alDel s.m.latch j)).putAnswer w) ∧
      (alGet s.m.latch j = none → (s.m.putAnswer 0).readLoc l = (s.m.putAnswer 0).answerWord ((s.m.putAnswer 0).readWord l))) :
    (∀ x, alGet s.m.latch j = some x → Runs c s fun n => n.answer = x ∧ alGet n.latch j = none ∧ Frame (fun _ => False) s.m n) ∧
    (alGet s.m.latch j = none → Runs c s fun n => n.answer = BitVec.ofNat 32 ((s.m.putAnswer 0).readWord l) ∧ Frame (fun _ => False) s.m n) := by
  refine ⟨fun x hj => ?_, fun hj => ?_⟩
  · exact runs_read hi ha hs hr hl hc (hx.1 x hj) ⟨rfl, rfl, rfl, rfl, fun _ _ => rfl⟩ fun hf _ => ⟨by simp, by simp [alGet_alDel_same], hf⟩
  · exact runs_read hi ha hs hr hl hc (hx.2 hj) ⟨rfl, rfl, rfl, rfl, fun _ _ => rfl⟩ fun hf _ => ⟨by simp [Mach.answerWord], hf⟩

/-- Settles O55: a read by the half of a pair that it names, a refused access as a register-access fault. -/
theorem registerReads : Obligations.RegisterReads := by
  unfold Obligations.RegisterReads
  refine ⟨?_, fun s p addr src w hi ha hsrc => ?_⟩
  · rintro s p addr m l e k c hi rfl ha hs hr hl - hk hciph ho hu hc
    obtain ⟨single, lo, hi'⟩ := Mach.readLoc_open (m := s.m.putAnswer 0) hciph ho hk
    exact ⟨fun hp => runs_read_single hi ha hs hr hl hc hk (single hp hu), fun hp hne => runs_read_lo hi ha hs hr hl hc hk (lo hp hne),
      fun hp => runs_read_hi hi ha hs hr hl hc (hi' hp)⟩
  subst hsrc
  refine ⟨fun hs hun => ⟨fun c hc => ?_, ?_⟩, fun l g hs hr hl hg halive ho => ?_⟩
  · have he : Sys2Proof.Machine.exec c s = commit s (fun m => m.anyAccess p addr 4 true w) := by
      simp only [List.mem_cons, List.not_mem_nil, or_false] at hc
      rcases hc with rfl | rfl <;> rfl
    refine runs_of_regFault (y := s.m) he hi ((s.m.anyAccess_write p ha w).trans (Mach.writeAt_unreached hs hun w)) (fun _ h => h) (.refl _ _) rfl rfl
      fun hflt _ hev hrec hf => ⟨hev, hflt.touch.cfg, hflt.touch.shadow, hrec, hf⟩
  · refine runs_of_regFault (f := fun m => m.anyAccess p addr 4 false w) (y := s.m.putAnswer 0) (w := false) rfl hi ((s.m.anyAccess_read p ha w).trans (Mach.readAt_unreached hs hun)) (fun _ h => h)
      ⟨rfl, rfl, rfl, rfl, fun _ _ => rfl⟩ rfl rfl fun hflt _ hev hrec hf => ⟨hflt.touch.answer, hev, hflt.touch.latch, hrec, hf⟩
  · obtain ⟨h1, h2, hga, -⟩ := locate_page hl hg
    have hg256 : g < 256 := by omega
    have hx := (s.m.anyAccess_write p ha w).trans (writeAt_foreign hs hr hl hg (pagesAlive_of_page hl hg halive) ho w)
    refine runs_of_regFault (K := fun x => fltKey x ∨ x = herdPage g + 0x9004) (f := fun m => m.anyAccess p addr 4 true w) rfl hi hx (fun _ h => .inl h) ((OnlyRegs.refl _ _).setReg _ (.inr rfl)) rfl
      (Mach.reg_setReg_ne _ _ ?_) fun hflt hreg hev _ hf => ⟨?_, hev, hf⟩
    · have := (regSrc_bounds p).1
      simp only [keyOf, Mach.fkey, regKey, regSpan, herdPage]
      omega
    · have hno : ¬ fltKey (herdPage g + 0x9004) := by
        simp only [fltKey, herdPage, regSpan]
        omega
      rw [hreg, hflt.reg _ hno, Mach.reg_setReg_same]

end Sys2Proof.Machine
end

section
/-! SUPPORT and proof of O54: writes of registers. -/
namespace Sys2Proof.Machine

/-! ## Writes of registers (00_scope.md R8, R10, R12) -/

/-- No Frozen field of the register table belongs to the block of configuration. -/
theorem frozenBy_cfg {m : Mach} {a e : Nat} (h : 0x00040000 ≤ a) (h' : a < 0x00100000) : m.frozenBy a e = false := by
  unfold Mach.frozenBy
  iterate 13 rw [if_neg (by omega)]

/-- The registers that tell of a dropped Frozen write have no Frozen field themselves. -/
theorem not_frozenKey_of_frozenBy {m : Mach} {p : Path} {addr k e : Nat} {l : Loc} (hl : m.locate p addr = some l) (hk : l.key = some k) (h : m.frozenBy l.addr e = true) :
    ¬ frozenKey k := by
  intro hf
  have hmod : k % regSpan = 0x00040000 ∨ k % regSpan = 0x0004001C := hf.imp (fun e => by rw [e]; rfl) (fun e => by rw [e]; rfl)
  have hno : ¬ (0x00040000 ≤ l.addr ∧ l.addr < 0x00100000) := fun ⟨h1, h2⟩ => by simp [frozenBy_cfg h1 h2] at h
  have hkey := locate_key_mod hl hk
  omega

/-- A register's fields after a write: RW fields take the value unless they are Frozen and their block is enabled, W1C fields lose the bits written as 1, others
stay. -/
theorem RField.takes_cases (f : RField) (on : Bool) (old new : Nat) (hs : f.chg ≠ .staged) :
    (f.acc = .rw → f.chg ≠ .frozen ∨ on = false → f.takes on old new = new) ∧ (f.acc = .rw → f.chg = .frozen → on = true → f.takes on old new = old) ∧
    (f.acc = .w1c → f.takes on old new = old &&& (old ^^^ new)) ∧ (f.acc ≠ .rw → f.acc ≠ .w1c → f.takes on old new = old) := by
  refine ⟨fun ha hc => ?_, fun ha hc ho => ?_, fun ha => ?_, fun ha hb => ?_⟩
  · have : ¬ (f.chg = .staged ∨ f.chg = .frozen ∧ on = true) := by
      rintro (h | ⟨h, ho⟩)
      · exact hs h
      · exact hc.elim (fun hc => hc h) (fun hc => by simp [hc] at ho)
    simp [RField.takes, ha, this]
  · simp [RField.takes, ha, hc, ho]
  · simp [RField.takes, ha]
  · cases h : f.acc <;> simp_all [RField.takes]

/-- After the pair at LO took a value, neither path holds a LO half back. -/
theorem Mach.dropShadows_none (m : Mach) (v : Via) (a : Nat) :
    alGet (m.dropShadows v a).shadow (ownKey { v with path := .mgmt } a) = none ∧ alGet (m.dropShadows v a).shadow (ownKey { v with path := .fabric 0 } a) = none := by
  simp only [Mach.dropShadows, Mach.putShadow_shadow]
  refine ⟨?_, alGet_alDel_same _ _⟩
  by_cases h : ownKey { v with path := .mgmt } a = ownKey { v with path := .fabric 0 } a
  · rw [h]
    exact alGet_alDel_same _ _
  · rw [alGet_alDel_ne _ h]
    exact alGet_alDel_same _ _

/-- A write of HI of a pair that is no ring's base and no seed puts both halves in their registers. -/
theorem Mach.writePair_plain {m : Mach} {l : Loc} {k : Nat} (hk : l.key = some k) (hring : Mach.ringKind l.addr = none) (hseed : l.addr ≠ F.CHU_SEED_HI.addr)
    (hdiag : ¬ (0x00100000 ≤ l.addr ∧ l.addr < 0x00180000 ∧ l.addr % 0x4000 = 0x184)) (v : Nat) :
    m.writePair false l v =
      ((m.dropShadows l.v (l.addr - 4)).putReg false (Mach.loHalf l) ((alGet m.shadow (ownKey l.v (l.addr - 4))).getD (m.reg (k - 4))).toNat).putReg false l v := by
  simp only [Mach.writePair, hring, if_neg hseed, if_neg hdiag, Mach.pairLow, hk, Option.map_some, Option.getD_some]

/-- How to show what a write does that reaches a register by which nothing is commanded. -/
theorem runs_write {s : State} {p : Path} {addr v : Nat} {w : Word} {l : Loc} {c : Instr} {P : Mach → Prop} {K : Nat → Prop} {x : Mach}
    (he : Sys2Proof.Machine.exec c s = commit s (fun m => m.anyAccess p addr 4 true w)) (hi : s.m.Inv) (ha : addr % 4 = 0) (hcmd : addr ∉ moduleCmds)
    (hs : s.m.served p addr = true) (hr : s.m.reaches p addr = true) (hd : s.m.PagesAlive addr) (hl : s.m.locate p addr = some l)
    (hst : ∀ f ∈ l.info.fields, f.chg ≠ .staged) (hlo : l.info.pair = .hi → ∀ f ∈ (Mach.loHalf l).info.fields, f.chg ≠ .staged)
    (hv : v = Mach.forceHerd l.v l.addr w.toNat) (hc : s.m.get F.CIPH_STATUS_PRESENT ≠ 0 ∨ l.addr < 0x3A00000 ∨ 0x3B00000 ≤ l.addr)
    (hp : s.m.poolsOver l.addr v = false) (ho : s.m.pageOwns l = true) (hw : s.m.writeCommand false l v = none)
    (hx : (if l.info.pair = .lo ∧ Mach.pairRw l then s.m.putShadow (alPut s.m.shadow (ownKey l.v l.addr) (BitVec.ofNat 32 v))
      else if l.info.pair = .hi ∧ Mach.pairRw l then s.m.writePair false l v else s.m.putReg false l v) = x)
    (hxo : OnlyRegs K s.m x) (h : Frame K s.m (settle s.m x) → (∀ k, (settle s.m x).reg k = x.reg k) → P (settle s.m x)) : Runs c s P := by
  obtain ⟨y, hy, hyi⟩ := locate_info hl
  refine runs_of_onlyRegs he hi ?_ hxo h
  rw [Mach.anyAccess_write _ _ ha, Mach.writeAt_block hcmd, Mach.accessAt_located hs hr hl (.inr hd), Mach.directWrite_of_unstaged hst hlo,
    Mach.writeLoc_plain hv hc (not_routeEntry_of_unstaged hy (hyi ▸ hst)) hp ho hw, hx]

/-- What a register that is no half of a pair holds after its fields took a value. -/
theorem putReg_single {s : State} {p : Path} {addr k e : Nat} {l : Loc} (hl : s.m.locate p addr = some l) (hk : l.key = some k) (he : l.elem = some e)
    (hst : ∀ f ∈ l.info.fields, f.chg ≠ .staged) (v : Nat) :
    OnlyRegs (fun x => x = k ∨ x = keyOf F.CFG_STATUS_FROZEN_WRITE ∨ x = keyOf F.CFG_FROZEN_ADDR) s.m (s.m.putReg false l v) ∧
    ∀ f ∈ l.info.fields,
      (f.acc = .rw → f.chg ≠ .frozen ∨ s.m.frozenBy l.addr e = false → f.bits ((s.m.putReg false l v).reg k).toNat = f.bits v) ∧
      (f.acc = .rw → f.chg = .frozen → s.m.frozenBy l.addr e = true → f.bits ((s.m.putReg false l v).reg k).toNat = f.bits (s.m.reg k).toNat ∧
        (f.bits (s.m.reg k).toNat ≠ f.bits v → (s.m.putReg false l v).bit F.CFG_STATUS_FROZEN_WRITE = true)) ∧
      (f.acc = .w1c → f.bits ((s.m.putReg false l v).reg k).toNat = f.bits (s.m.reg k).toNat &&& (f.bits (s.m.reg k).toNat ^^^ f.bits v)) ∧
      (f.acc ≠ .rw → f.acc ≠ .w1c → f.bits ((s.m.putReg false l v).reg k).toNat = f.bits (s.m.reg k).toNat) := by
  have hz : s.m.frozenBy l.addr e = true → ¬ frozenKey k := not_frozenKey_of_frozenBy hl hk
  have hneat := locate_neat hl
  rw [Mach.putReg_eq hk he]
  refine ⟨Mach.putList_onlyRegs _ (.inl rfl) fun _ _ _ _ _ hj => .inr hj, fun f hf => ?_⟩
  obtain ⟨thawed, frozen, w1c, other⟩ := f.takes_cases (s.m.frozenBy l.addr e) (f.bits (s.m.reg k).toNat) (f.bits v) (hst f hf)
  rw [Mach.putList_bits s.m hneat (fun _ _ _ => hz) hf]
  refine ⟨thawed, fun ha hc ho => ⟨frozen ha hc ho, fun hd => ?_⟩, w1c, other⟩
  rw [ho]
  exact Mach.putList_frozenWrite s.m hneat (hz ho) hf ha hc hd

/-- What both registers of a live pair hold after LO took `lo` and HI took `v`. -/
theorem putReg_pair {m : Mach} {l : Loc} {k e lo v : Nat} (hk : l.key = some k) (he : l.elem = some e) (hn : FieldsNeat l.info.fields)
    (hlive : ∀ f ∈ l.info.fields ++ (Mach.loHalf l).info.fields, f.acc = .rw ∧ f.chg = .live) (h4 : 4 ≤ k) :
    OnlyRegs (fun x => x = k ∨ x = k - 4) m ((m.putReg false (Mach.loHalf l) lo).putReg false l v) ∧
    ((m.putReg false (Mach.loHalf l) lo).putReg false l v).shadow = m.shadow ∧
    (∀ f ∈ l.info.fields, f.bits (((m.putReg false (Mach.loHalf l) lo).putReg false l v).reg k).toNat = f.bits v) ∧
    (∀ f ∈ (Mach.loHalf l).info.fields, f.bits (((m.putReg false (Mach.loHalf l) lo).putReg false l v).reg (k - 4)).toNat = f.bits lo) := by
  have hk' : (Mach.loHalf l).key = some (k - 4) := by simp [Mach.loHalf, hk]
  have hn' : FieldsNeat (Mach.loHalf l).info.fields := getD_neat hn
  rw [Mach.putReg_eq hk he, Mach.putReg_eq hk' (show (Mach.loHalf l).elem = some e from he)]
  generalize (Mach.loHalf l).info.fields = fs, l.info.fields = gs, (Mach.loHalf l).addr = a, l.addr = a' at hn hn' hlive ⊢
  generalize m.frozenBy a e = on
  generalize (m.putList (k - 4) a lo on fs).frozenBy a' e = on'
  have livef : ∀ f ∈ fs, f.acc = .rw ∧ f.chg = .live := fun f hf => hlive f (by simp [hf])
  have liveg : ∀ f ∈ gs, f.acc = .rw ∧ f.chg = .live := fun f hf => hlive f (by simp [hf])
  have thaw : ∀ {f : RField} {b : Bool} {Q : Prop}, f.acc = .rw ∧ f.chg = .live → f.chg = .frozen → b = true → Q := fun h hc => by simp [h.2] at hc
  have takes : ∀ (f : RField) (b : Bool) (old new : Nat), f.acc = .rw ∧ f.chg = .live → f.takes b old new = new := fun f b old new h =>
    (f.takes_cases b old new (by simp [h.2])).1 h.1 (.inl (by simp [h.2]))
  have hlo : OnlyRegs (fun x => x = k - 4) m (m.putList (k - 4) a lo on fs) := Mach.putList_onlyRegs m rfl fun f hf => thaw (livef f hf)
  have hhi : OnlyRegs (fun x => x = k) (m.putList (k - 4) a lo on fs) ((m.putList (k - 4) a lo on fs).putList k a' v on' gs) :=
    Mach.putList_onlyRegs _ rfl fun f hf => thaw (liveg f hf)
  refine ⟨(hlo.mono fun _ => .inr).trans (hhi.mono fun _ => .inl), by rw [Mach.putList_shadow, Mach.putList_shadow], fun f hfm => ?_, fun f hfm => ?_⟩
  · rw [Mach.putList_bits _ hn (fun f hf => thaw (liveg f hf)) hfm, takes _ _ _ _ (liveg f hfm)]
  · rw [hhi.regs (k - 4) (by omega), Mach.putList_bits _ hn' (fun f hf => thaw (livef f hf)) hfm, takes _ _ _ _ (livef f hfm)]

/-! ## O54 -/

/-- An access that is misaligned or no word does nothing, and a read of it reads 0 (R7). -/
theorem runs_misaligned {s : State} {p : Path} {addr size : Nat} {isWrite : Bool} {w : Word} (hi : s.m.Inv) (h : size ≠ 4 ∨ addr % 4 ≠ 0) :
    Runs (.misalignedRegisterAccess p addr size isWrite w) s fun n =>
      (isWrite = false → n.answer = 0) ∧ (isWrite = true → n.answer = s.m.answer) ∧ n.flt = s.m.flt ∧ n.latch = s.m.latch ∧ n.shadow = s.m.shadow ∧
        Frame (fun _ => False) s.m n := by
  have hx : s.m.anyAccess p addr size isWrite w = if isWrite then s.m else s.m.answerWord 0 := by simp [Mach.anyAccess, h]
  cases isWrite with
  | true =>
    exact runs_of_onlyRegs (f := fun m => m.anyAccess p addr size true w) rfl hi hx (.refl _ _) fun hf _ => ⟨by simp, fun _ => rfl, rfl, rfl, rfl, hf⟩
  | false =>
    exact runs_of_onlyRegs (f := fun m => m.anyAccess p addr size false w) rfl hi hx ⟨rfl, rfl, rfl, rfl, fun _ _ => rfl⟩ fun hf _ =>
      ⟨fun _ => rfl, by simp, rfl, rfl, rfl, hf⟩

/-- Settles O54: a write by the half of a pair that it names, then the accesses that do nothing or are captured. -/
theorem registerWrites : Obligations.RegisterWrites := by
  unfold Obligations.RegisterWrites
  refine ⟨?_, fun s p addr size isWrite w hi h => runs_misaligned hi h, fun s p addr src w hi ha hsrc => ⟨fun hs => ⟨?_, ?_⟩, ?_⟩, ?_⟩
  · intro s p addr w l e k v hi ha hcmd hs hr hd hl he hk hst hv hc hp ho hw
    refine ⟨fun hpair => ?_, fun hpair hrw => ?_, fun hpair hlive hne hseed h4 => ?_⟩
    · obtain ⟨honly, hfields⟩ := putReg_single hl hk he hst v
      refine runs_write rfl hi ha hcmd hs hr hd hl hst (by simp [hpair]) hv hc hp ho hw (by simp [hpair]) honly fun hf hreg => ⟨fun f hfm => ?_, hf⟩
      simp only [Mach.bit, Mach.get, hreg]
      exact hfields f hfm
    · refine runs_write (x := s.m.putShadow (alPut s.m.shadow (ownKey l.v l.addr) (BitVec.ofNat 32 v))) rfl hi ha hcmd hs hr hd hl hst (by simp [hpair]) hv hc hp ho hw
        (by simp [hpair, hrw]) ⟨rfl, rfl, rfl, rfl, fun _ _ => rfl⟩ fun hf _ => ⟨alGet_alPut_same _ _ _, fun j hj => alGet_alPut_ne _ _ hj, hf⟩
    · have hneat := locate_neat hl
      obtain ⟨y, hy, hyi⟩ := locate_info hl
      have liveHi : ∀ f ∈ l.info.fields, f.acc = .rw ∧ f.chg = .live := fun f hf => hlive f (by simp [hf])
      have hlo : ∀ f ∈ (Mach.loHalf l).info.fields, f.chg ≠ .staged := fun f hf => by simp [(hlive f (by simp [hf])).2]
      obtain ⟨hring, hdiag⟩ := not_ringBase_of_unfrozen hy fun f hf => by simp [(liveHi f (hyi ▸ hf)).2]
      have hx := Mach.writePair_plain (m := s.m) hk hring hseed hdiag v
      have hrw : Mach.pairRw l = true := by
        obtain ⟨f, hf⟩ := List.exists_mem_of_ne_nil _ hne
        exact List.any_eq_true.2 ⟨f, hf, by simp [(liveHi f hf).1]⟩
      obtain ⟨honly, hshadow, hhi, hlow⟩ := putReg_pair (m := s.m.dropShadows l.v (l.addr - 4)) (v := v)
        (lo := ((alGet s.m.shadow (ownKey l.v (l.addr - 4))).getD (s.m.reg (k - 4))).toNat) hk he hneat hlive h4
      have hdrop : OnlyRegs (fun x => x = k ∨ x = k - 4) s.m (s.m.dropShadows l.v (l.addr - 4)) := ⟨rfl, rfl, rfl, rfl, fun _ _ => rfl⟩
      obtain ⟨hmgmt, hfab⟩ := s.m.dropShadows_none l.v (l.addr - 4)
      refine runs_write rfl hi ha hcmd hs hr hd hl hst (fun _ => hlo) hv hc hp ho hw (by rw [if_neg (by simp [hpair]), if_pos ⟨hpair, hrw⟩, hx]) (hdrop.trans honly)
        fun hf hreg => ⟨fun f hfm => ?_, fun f hfm => ?_, ?_, ?_, hf⟩
      · rw [hreg]
        exact hhi f hfm
      · rw [hreg]
        exact hlow f hfm
      · rw [settle_shadow, hshadow, hmgmt]
      · rw [settle_shadow, hshadow, hfab]
  · exact runs_of_onlyRegs (f := fun m => m.anyAccess p addr 4 true w) rfl hi ((s.m.anyAccess_write p ha w).trans (Mach.writeAt_unserved hs w)) (.refl _ _)
      fun hf _ => ⟨rfl, hf⟩
  · exact runs_of_onlyRegs (f := fun m => m.anyAccess p addr 4 false w) rfl hi
      ((s.m.anyAccess_read p ha w).trans (Mach.accessAt_unserved (m := s.m.putAnswer 0) hs _ _)) ⟨rfl, rfl, rfl, rfl, fun _ _ => rfl⟩ fun hf _ => ⟨rfl, rfl, hf⟩
  · intro h h0 h256 hlo hhi hst hs
    subst hsrc
    obtain ⟨hbelow, hg⟩ := addr_of_herdPage hlo hhi
    have habove : addr < 0x01800000 := by omega
    have hpage : addr ∉ moduleCmds := not_moduleCmd_of_page hbelow habove
    have hdying : ¬ s.m.PagesAlive addr := fun hd => hd h h0 h256 hlo hhi hst
    have hx : s.m.anyAccess p addr 4 true w = s.m.regFault p addr true := by
      rw [Mach.anyAccess_write _ _ ha, Mach.writeAt_block hpage, Mach.accessAt_refused hs (.inr (.inr ⟨rfl, hdying⟩))]
    exact runs_of_regFault (f := fun m => m.anyAccess p addr 4 true w) rfl hi hx (fun _ h => h) (.refl _ _) rfl rfl fun _ _ hev _ hf => ⟨hev, hf⟩
  · rintro s p addr m l c hi rfl ha hs hr hl hu hc
    obtain ⟨y, hy, hyi⟩ := locate_info hl
    have hpair : l.info.pair = .none := hyi ▸ (regInfo_checked hy).2.1 hu
    obtain hx | hx := (s.m.putAnswer 0).readLoc_uncounted hpair hu
    · exact runs_read hi ha hs hr hl hc hx ⟨rfl, rfl, rfl, rfl, fun _ _ => rfl⟩ fun hf _ => ⟨rfl, rfl, hf⟩
    · exact runs_read hi ha hs hr hl hc hx ⟨rfl, rfl, rfl, rfl, fun _ _ => rfl⟩ fun hf _ => ⟨rfl, rfl, hf⟩

end Sys2Proof.Machine
end

section
/-! SUPPORT. What sending a best-effort frame does and leaves alone (13_routing_deadlock.md R342, R347, R348; 11_best_effort_transport.md R299, R304). -/
namespace Sys2Proof.Machine

/-! ## Frames, and commands that let time pass -/

theorem RegsBut.mono {K L : Nat → Prop} {m x : Mach} (h : RegsBut K m x) (hKL : ∀ k, K k → L k) : RegsBut L m x := fun k hk => h k fun hK => hk (hKL k hK)

theorem OnlyRegs.advance {K : Nat → Prop} {m x : Mach} {t : Nat} (h : OnlyRegs K (m.advance t) x) : OnlyRegs K m x :=
  ⟨h.variant, h.wr, h.downs, h.tileDowns, h.regs⟩

/-- An update that leaves the register file alone, with what a command must not lose. -/
theorem OnlyRegs.of_regs {K : Nat → Prop} {m x y : Mach} (h : OnlyRegs K m x) (hv : y.variant = x.variant) (hr : y.regs = x.regs) (hw : y.wr = x.wr)
    (hd : y.downs = x.downs) (ht : y.tileDowns = x.tileDowns) : OnlyRegs K m y :=
  ⟨hv.trans h.variant, hw.trans h.wr, hd.trans h.downs, ht.trans h.tileDowns, h.regs.of_regs hv hr⟩

theorem OnlyRegs.putRte {K : Nat → Prop} {m x : Mach} (h : OnlyRegs K m x) (b : RteSt) : OnlyRegs K m (x.putRte b) := h.of_regs rfl rfl rfl rfl rfl

/-- How to show what a command does that lets time pass and gives the running engines something to do. -/
theorem runs_of_engines {c : Instr} {s : State} {P : Mach → Prop} {K : Nat → Prop} {f : Mach → Mach} {x : Mach} {t : Nat}
    (hc : Sys2Proof.Machine.exec c s = commit s (fun m => (m.advance t).engines f)) (hi : s.m.Inv) (hr : s.m.Running) (hx : f (s.m.advance t) = x)
    (ho : OnlyRegs K (s.m.advance t) x) (h : Frame K s.m (settle s.m x) → (∀ k, (settle s.m x).reg k = x.reg k) → P (settle s.m x)) : Runs c s P :=
  runs_of_onlyRegs hc hi ((Mach.engines_of_running (m := s.m.advance t) hr f).trans hx) ho.advance h

/-! ## A frame leaves -/

/-- The frame that leaves for `f`: `f` itself, or `f` with its packet marked CE (R348). -/
def CeMarked (f g : BeFrame) : Prop := g = f ∨ ∃ k, f.body = .packet k ∧ g = { f with body := .packet { k with ce := true } }

namespace CeMarked

variable {f g : BeFrame}

theorem bytes (h : CeMarked f g) : g.bytes = f.bytes := by obtain rfl | ⟨k, -, rfl⟩ := h <;> rfl
theorem dest (h : CeMarked f g) : g.dest = f.dest := by obtain rfl | ⟨k, -, rfl⟩ := h <;> rfl
theorem pcp (h : CeMarked f g) : g.pcp = f.pcp := by obtain rfl | ⟨k, -, rfl⟩ := h <;> rfl

theorem packet (h : CeMarked f g) {k : QpPacket} (hk : f.body = .packet k) : ∃ k', g.body = .packet k' ∧ k'.psn = k.psn ∧ k'.path = k.path := by
  obtain rfl | ⟨k', hk', rfl⟩ := h
  · exact ⟨k, hk, rfl, rfl⟩
  · cases hk.symm.trans hk'
    exact ⟨_, rfl, rfl, rfl⟩

end CeMarked

/-- Keys of the registers that count what a port sends: frames marked CE, frames and bytes. -/
abbrev sendKey (p k : Nat) : Prop :=
  k = keyOf F.RTE_P_CE p ∨ k = keyOf F.PORT_TX_FRAMES_LO p ∨ k = keyOf F.PORT_TX_FRAMES_LO p + 4 ∨ k = keyOf F.PORT_TX_BYTES_LO p ∨
    k = keyOf F.PORT_TX_BYTES_LO p + 4

namespace Mach

/-- A count after it has counted up: it stops at the field's largest value. -/
theorem get_inc_same (m : Mach) (f : Fld) (n i s : Nat) (h : f.lo + f.wd ≤ 32) : (m.inc f n i s).get f i s = min (m.get f i s + n) (2 ^ f.wd - 1) := by
  rw [inc, get_set_same m f _ i s h]
  exact Nat.mod_eq_of_lt ((Nat.min_le_right _ _).trans_lt (Nat.sub_lt (Nat.two_pow_pos _) Nat.one_pos))

@[simp] theorem emitOut_sent (m : Mach) (o : Out) : (m.emitOut o).sent = m.sent ++ [o] := rfl

/-- With no encrypted frame dropped by an engine, a frame that is sent leaves. -/
theorem sendOut_of_noDrops {m : Mach} (h : m.ciph.frames = []) (p bytes : Nat) (o : Out) : m.sendOut p bytes o = (m.countTx p bytes).emitOut o := by
  have : m.cipherDrops o = none := by simp [cipherDrops, h]
  simp [sendOut, this]

/-- What sending a frame does: the frame leaves, perhaps marked CE; the port counts it, and its line is occupied for the frame's length. -/
theorem sendBe_eq {m : Mach} (h : m.ciph.frames = []) (p : Nat) (f : BeFrame) :
    ∃ g r x, CeMarked f g ∧ RegsBut (sendKey p) m (m.putRegs r) ∧ x.busyUntil = m.now + m.lineUnits p f.bytes ∧
      m.sendBe p f = ((m.putRegs r).setPt p x).emitOut (.be p g) := by
  unfold sendBe
  extract_lets mark g y _ z
  have hg : CeMarked f g := by
    cases hb : f.body with
    | chunk c => exact .inl (by simp only [g, hb])
    | packet k =>
      cases hm : mark with
      | false => exact .inl (by simp [g, hb, hm])
      | true => exact .inr ⟨k, hb, by simp only [g, hb, hm, if_true]⟩
  obtain ⟨r, hy, hr⟩ : ∃ r, y = m.putRegs r ∧ RegsBut (fun k => k = keyOf F.RTE_P_CE p) m (m.putRegs r) := by
    cases hm : mark with
    | false => exact ⟨m.regs, by simp only [y, hm]; rfl, .refl _ _⟩
    | true => exact ⟨_, by simp only [y, hm, if_true]; rfl, (RegsBut.refl _ m).inc rfl⟩
  have hl : y.lineUnits p f.bytes = m.lineUnits p f.bytes := by
    have hk : fkey F.PORT_STATUS_RATE p 0 ≠ fkey F.RTE_P_CE p 0 := by
      simp only [fkey, regKey]
      omega
    simp only [lineUnits, get, hy, hr _ hk]
  obtain ⟨x, hz, hx⟩ : ∃ x, z = (m.putRegs r).setPt p x ∧ x.busyUntil = m.now + m.lineUnits p f.bytes := by
    refine ⟨{ y.pt p with busyUntil := y.now + y.lineUnits p g.bytes }, by rw [← hy], ?_⟩
    rw [hg.bytes, hl, hy]
    rfl
  have hs : RegsBut (sendKey p) m ((m.putRegs r).countTx p f.bytes) :=
    ((((RegsBut.mono hr fun _ => .inl).setReg _ (.inr (.inl rfl))).setReg _ (.inr (.inr (.inl rfl)))).setReg _ (.inr (.inr (.inr (.inl rfl))))).setReg _
      (.inr (.inr (.inr (.inr rfl))))
  have hc : ((m.putRegs r).setPt p x).ciph.frames = [] := h
  refine ⟨g, ((m.putRegs r).countTx p f.bytes).regs, x, hg, hs, hx, ?_⟩
  rw [hz, sendOut_of_noDrops hc, hg.bytes]
  rfl

theorem sendBe_onlyRegs {m : Mach} (h : m.ciph.frames = []) (p : Nat) (f : BeFrame) : OnlyRegs (sendKey p) m (m.sendBe p f) := by
  obtain ⟨g, r, x, -, hr, -, he⟩ := sendBe_eq h p f
  rw [he]
  exact ⟨rfl, rfl, rfl, rfl, hr⟩

/-! ## A forwarded frame leaves -/

/-- The occupancy registers are all that keeping them in step changes. -/
theorem depthSync_eq (m : Mach) (p : Nat) : ∃ r, m.depthSync p = m.putRegs r := by
  unfold depthSync
  extract_lets d x y lane
  have hy : ∃ r, y = m.putRegs r := by
    simp only [y]
    split <;> exact ⟨_, rfl⟩
  obtain ⟨r, hr⟩ := hy
  split
  · exact ⟨_, by rw [hr]; rfl⟩
  · refine List.foldlRecOn (motive := fun z => ∃ r, z = m.putRegs r) _ _ ⟨r, hr⟩ ?_
    rintro _ ⟨r', rfl⟩ w -
    exact ⟨_, rfl⟩

/-- Asserting or ending an XOFF sends at most one control frame. -/
theorem xoffSync_cases (m : Mach) (p prio : Nat) : m.xoffSync p prio = m ∨ ∃ x o, m.xoffSync p prio = (m.setPt p x).emitOut o := by
  unfold xoffSync
  extract_lets x occ
  split <;> split
  · exact .inr ⟨_, _, rfl⟩
  · exact .inl rfl
  · exact .inr ⟨_, _, rfl⟩
  · exact .inl rfl

/-- `x` comes after `m` with the lanes as they were, nothing that has left taken back, and no store, link or tile touched. -/
structure LanesKept (m x : Mach) : Prop where
  rte : x.rte = m.rte
  sent : m.sent <+: x.sent
  only : OnlyRegs (fun _ => True) m x

theorem depthSync_lanesKept (m : Mach) (p : Nat) : LanesKept m (m.depthSync p) := by
  obtain ⟨r, he⟩ := depthSync_eq m p
  rw [he]
  exact ⟨rfl, List.prefix_refl _, rfl, rfl, rfl, rfl, fun _ hk => absurd trivial hk⟩

theorem xoffSync_lanesKept (m : Mach) (p prio : Nat) : LanesKept m (m.xoffSync p prio) := by
  obtain he | ⟨x, o, he⟩ := xoffSync_cases m p prio <;> rw [he]
  · exact ⟨rfl, List.prefix_refl _, .refl _ m⟩
  · exact ⟨rfl, List.prefix_append _ _, rfl, rfl, rfl, rfl, fun _ _ => rfl⟩

theorem LanesKept.trans {x y z : Mach} (h : LanesKept x y) (g : LanesKept y z) : LanesKept x z :=
  ⟨g.rte.trans h.rte, h.sent.trans g.sent, h.only.trans g.only⟩

/-- What a frame of a forwarded lane does when it leaves (R347): it leaves its lane, and goes out on its port with the PCP of its class and channel. -/
theorem forwardHeld_spec {m : Mach} (h : m.ciph.frames = []) (x : Held) :
    (m.forwardHeld x).rte.held = m.rte.held.erase x ∧ (∃ g, CeMarked { x.frame with pcp := x.pcpOut } g ∧ .be x.out g ∈ (m.forwardHeld x).sent) ∧
      OnlyRegs (fun _ => True) m (m.forwardHeld x) := by
  unfold forwardHeld
  extract_lets _ y z _ w
  have hheld : z.rte.held = m.rte.held.erase x := by simp [z, y]
  have hz : OnlyRegs (fun _ => True) m z := ⟨by simp [z, y], by simp [z, y], by simp [z, y], by simp [z, y], fun _ hk => absurd trivial hk⟩
  have hc : z.ciph.frames = [] := by simp [z, y, h]
  obtain ⟨g, r, pt, hg, -, -, (hw : w = _)⟩ := sendBe_eq hc x.out { x.frame with pcp := x.pcpOut }
  have hs : .be x.out g ∈ w.sent := by simp [hw]
  have hr : w.rte = z.rte := by simp [hw]
  have ho : OnlyRegs (fun _ => True) m w := hz.trans ((sendBe_onlyRegs hc _ _).mono fun _ _ => trivial)
  have hk := ((depthSync_lanesKept w x.out).trans (depthSync_lanesKept _ x.inPort)).trans (xoffSync_lanesKept _ x.inPort x.frame.pcp)
  exact ⟨by rw [hk.rte, hr, hheld], ⟨g, hg, hk.sent.subset hs⟩, ho.trans hk.only⟩

/-! ## A packet of a queue pair leaves -/

theorem qp_setQp_same (m : Mach) (q : Nat) (x : Qp) : (m.setQp q x).qp q = x := by simp [qp, setQp, alGet_alPut_same]

theorem qpSeal_of_plain {m : Mach} {q : Nat} (h : m.qpKey q = none) (k : QpPacket) : m.qpSeal q k = (m, k) := by simp [qpSeal, h]

/-- A packet of the reply class leaves the queue pair's list and the module; the line is occupied for its length. -/
theorem replySend_spec {m : Mach} (hd : m.ciph.frames = []) {q : Nat} (h : m.qpKey q = none) (p dl : Nat) (k : QpPacket) :
    ((m.replySend p q dl k).qp q).replies = (m.qp q).replies.drop 1 ∧ (∃ f, (m.replySend p q dl k).sent = m.sent ++ [.be p f] ∧ f.bytes = packetBytes k) ∧
      ((m.replySend p q dl k).pt p).busyUntil = m.now + m.lineUnits p (packetBytes k) ∧ OnlyRegs (fun _ => True) m (m.replySend p q dl k) := by
  set y := m.setQp q { m.qp q with replies := (m.qp q).replies.drop 1 } with hy
  have he : m.replySend p q dl k = y.sendBe p (y.qpFrame q p dl k) := by simp only [replySend, ← hy, qpSeal_of_plain (m := y) h]
  obtain ⟨g, r, x, hg, -, hx, hs⟩ := sendBe_eq (m := y) hd p (y.qpFrame q p dl k)
  have hq : y.qp q = { m.qp q with replies := (m.qp q).replies.drop 1 } := qp_setQp_same m q _
  have ho : OnlyRegs (fun _ => True) m y := ⟨rfl, rfl, rfl, rfl, fun _ _ => rfl⟩
  have hp : ((y.sendBe p (y.qpFrame q p dl k)).pt p).busyUntil = x.busyUntil := by
    rw [hs]
    simp [pt, setPt, alGet_alPut_same]
  rw [he]
  refine ⟨?_, ⟨g, by rw [hs]; rfl, hg.bytes⟩, hp.trans hx, ho.trans ((sendBe_onlyRegs (m := y) hd _ _).mono fun _ _ => trivial)⟩
  rw [hs]
  exact congrArg Qp.replies hq

/-- The first packet that waits to go again is the queue pair's next (R299): it goes on the next path in rotation, and is counted. -/
theorem qpSendNext_of_resend {m : Mach} {q : Nat} {x : QpSent} {rest : List QpSent} (hr : (m.qp q).resend = x :: rest) (hk : m.qpKey q = none) (p dl : Nat) :
    ∃ y k, m.qpSendNext q p dl = ((m.setQp q y).inc F.BEQ_QP_RETX 1 0 q, some (((m.setQp q y).inc F.BEQ_QP_RETX 1 0 q).qpFrame q p dl k)) ∧
      y.resend = rest ∧ k.psn = x.packet.psn ∧ k.path = m.qpNextPath q := by
  unfold qpSendNext
  extract_lets z path turn
  have hz : z.resend = x :: rest := hr
  have hs : ∀ y, ((m.setQp q y).inc F.BEQ_QP_RETX 1 0 q).qpKey q = none := fun y => by
    have hn : ∀ i < 14, fkey F.BEQ_QP_CFG i q ≠ fkey F.BEQ_QP_RETX 0 q := fun i hi => by
      simp only [fkey, regKey]
      omega
    simp only [qpKey, inc, get_set_ne _ (hn 0 (by decide)), get_set_ne _ (hn 4 (by decide))]
    exact hk
  split
  · rename_i he
    cases hz.symm.trans he
    simp only [qpSeal_of_plain (hs _)]
    exact ⟨_, _, rfl, rfl, rfl, rfl⟩
  · rename_i he
    cases hz.symm.trans he

/-- `x` differs from `m` in the best-effort engine alone, and the packets of a queue pair that wait to go again are as they were. -/
structure ResendKept (q : Nat) (m x : Mach) : Prop where
  beq : ∃ b, x = m.putBeq b
  resend : (x.qp q).resend = (m.qp q).resend

namespace ResendKept

theorem refl (q : Nat) (m : Mach) : ResendKept q m m := ⟨⟨m.beq, rfl⟩, rfl⟩

theorem trans {q : Nat} {x y z : Mach} (h : ResendKept q x y) (g : ResendKept q y z) : ResendKept q x z := by
  obtain ⟨⟨b, rfl⟩, hr⟩ := h
  obtain ⟨⟨b', rfl⟩, hr'⟩ := g
  exact ⟨⟨b', rfl⟩, hr'.trans hr⟩

theorem ite {q : Nat} {c : Prop} [Decidable c] {x y z : Mach} (h : ResendKept q x y) (g : ResendKept q x z) : ResendKept q x (if c then y else z) := by
  split <;> assumption

theorem putBeq {q : Nat} (m : Mach) {b : BeqSt} (h : b.qps = m.beq.qps) : ResendKept q m (m.putBeq b) := ⟨⟨b, rfl⟩, by simp [qp, h]⟩

theorem setQp {q : Nat} (m : Mach) {x : Qp} (h : x.resend = (m.qp q).resend) : ResendKept q m (m.setQp q x) := ⟨⟨_, rfl⟩, by rw [qp_setQp_same, h]⟩

end ResendKept

/-- What the scheduler keeps after a frame (R304, R306) stands in the best-effort engine; no queue pair's retransmissions change with it. -/
theorem clientSent_resendKept (m : Mach) (p c bytes q : Nat) : ResendKept q m (m.clientSent p c bytes (some q)) := by
  unfold clientSent
  extract_lets len v s credit y z vh w
  have hz : ResendKept q m z := .putBeq m rfl
  have hw : ResendKept q z w := by
    refine ((ResendKept.setQp z ?_).trans (.ite (.refl q _) (.setQp _ ?_))).trans (.putBeq _ ?_) <;> rfl
  exact (hz.trans hw).trans (.putBeq w rfl)

/-! ## The port's choice (R347) -/

theorem out_of_mem_heldFor {m : Mach} {p : Nat} {cls : Nat → Bool} {h : Held} (hh : h ∈ m.heldFor p cls) : h.out = p := by
  simp only [heldFor, List.mem_filter, Bool.and_eq_true, beq_iff_eq] at hh
  obtain ⟨-, ⟨hout, -⟩, -⟩ := hh
  exact hout

section
variable {m : Mach} {p : Nat} (hp : m.portUp p = true)
include hp

/-- Forwarded control goes first. -/
theorem beSend_control {h : Held} {rest : List Held} (hc : m.heldFor p (fun c => c == 3) = h :: rest) (hf : m.freeTime p h.frame.bytes = true) :
    m.beSend p = m.forwardHeld h := by
  simp [beSend, hp, hc, hf]

variable (hc : m.heldFor p (fun c => c == 3) = []) (hrc : m.replyOn p true = none) (hcc : m.ctlOn p = none) (hr : m.heldFor p (fun c => c == 2) = [])
include hc hrc hcc hr

/-- Without control and forwarded replies, the module's own replies go. -/
theorem beSend_reply {q dl : Nat} {k : QpPacket} (ho : m.replyOn p false = some (q, dl, k)) (hh : m.heldBy p (m.qpFrame q p dl k).pcp = false)
    (hf : m.freeTime p (packetBytes k) = true) : m.beSend p = m.replySend p q dl k := by
  simp [beSend, hp, hc, hrc, hcc, hr, ho, hh, hf]

/-- Without control, replies and forwarded requests, the origin scheduler's choice goes. -/
theorem beSend_origin {c : Nat} (ho : m.replyOn p false = none) (hl : m.heldFor p (fun c => c == 0 || c == 1) = []) (hk : m.clientPick p = some c) (h256 : c ≠ 256)
    (hh : m.heldBy p 0 = false) (hf : m.freeTime p ((m.clientNext p c).getD 0) = true) :
    m.beSend p = (m.originSend p c).putRte { (m.originSend p c).rte with
      turn := alPut (m.originSend p c).rte.turn p (0, 0, ((alGet m.rte.turn p).getD (0, 0, 31)).2.2) } := by
  have hn : ∀ last, m.laneNext p last = none := fun last => by simp [laneNext, hl]
  have hd : c ≠ dynClient := h256
  simp [beSend, hp, hc, hrc, hcc, hr, ho, hn, hk, hd, hh, hf]

end

/-- A queue pair that the origin scheduler picks sends its first retransmission (R299). -/
theorem originSend_of_resend {m : Mach} (hd : m.ciph.frames = []) {p c q r dl : Nat} {x : QpSent} {rest : List QpSent} (h256 : c ≠ 256)
    (hq : m.qpPick p c = some q) (hp : m.qpPort q = some (r, dl)) (hr : (m.qp q).resend = x :: rest) (hk : m.qpKey q = none) :
    ((m.originSend p c).qp q).resend = rest ∧
      (∃ f k, (m.originSend p c).sent = m.sent ++ [.be p f] ∧ f.body = .packet k ∧ k.psn = x.packet.psn ∧ k.path = m.qpNextPath q) ∧
      (m.originSend p c).get F.BEQ_QP_RETX 0 q = min (m.get F.BEQ_QP_RETX 0 q + 1) (2 ^ 32 - 1) ∧ OnlyRegs (fun _ => True) m (m.originSend p c) := by
  obtain ⟨y, k, he, hy, hpsn, hpath⟩ := qpSendNext_of_resend hr hk p dl
  set w := (m.setQp q y).inc F.BEQ_QP_RETX 1 0 q with hw
  have hdyn : c ≠ dynClient := h256
  have ho : m.originSend p c = (w.sendBe p (w.qpFrame q p dl k)).clientSent p c (w.qpFrame q p dl k).bytes (some q) := by
    simp [originSend, hdyn, hq, hp, he]
  obtain ⟨g, regs, pt, hg, hregs, -, hv⟩ := sendBe_eq (m := w) hd p (w.qpFrame q p dl k)
  obtain ⟨k', hbody, hpsn', hpath'⟩ := hg.packet (k := k) rfl
  obtain ⟨⟨b, hb⟩, hres⟩ := clientSent_resendKept (w.sendBe p (w.qpFrame q p dl k)) p c (w.qpFrame q p dl k).bytes q
  have hwq : (w.qp q).resend = rest := by
    have : w.qp q = y := qp_setQp_same m q y
    rw [this, hy]
  have hwget : w.get F.BEQ_QP_RETX 0 q = min (m.get F.BEQ_QP_RETX 0 q + 1) (2 ^ 32 - 1) := by
    rw [hw, get_inc_same _ _ _ _ _ (by decide)]
    rfl
  have hkey : ¬ sendKey p (fkey F.BEQ_QP_RETX 0 q) := by
    simp only [sendKey, keyOf, fkey, regKey, regSpan]
    omega
  rw [ho]
  refine ⟨?_, ⟨g, k', ?_, hbody, hpsn'.trans hpsn, hpath'.trans hpath⟩, ?_, ?_⟩
  · rw [hres, hv]
    exact hwq
  · rw [hb, hv]
    rfl
  · rw [hb, hv, ← hwget]
    exact congrArg (fun v : Word => getBits v.toNat 0 32) (hregs _ hkey)
  · have hm : OnlyRegs (fun _ => True) m (m.setQp q y) := ⟨rfl, rfl, rfl, rfl, fun _ _ => rfl⟩
    have hs : OnlyRegs (fun _ => True) m (w.sendBe p (w.qpFrame q p dl k)) := (hm.setReg _ trivial).trans ((sendBe_onlyRegs (m := w) hd _ _).mono fun _ _ => trivial)
    rw [hb]
    exact hs.of_regs rfl rfl rfl rfl rfl

end Mach
end Sys2Proof.Machine
end

section
/-! SUPPORT and proof of O18 what leaves in free time, refills, reports and landed writes. -/
namespace Sys2Proof.Machine
namespace Mach

/-! ## Refills (11_best_effort_transport.md R306) -/

/-- When the next refill is due: 1,000 ns after reset for the first. -/
abbrev refillDue (m : Mach) : Nat := if m.beq.interval = 0 then 1000 * ns else m.beq.refillAt

/-- A refill that is due puts Refill-class values in force and starts the next interval. -/
theorem rateRefill_of_due {m : Mach} (h : m.refillDue ≤ m.now) :
    ∃ b, m.rateRefill = (m.putRefillOld []).putBeq b ∧ b.interval = m.refillUnits ∧ b.refillAt = m.refillDue + m.refillUnits := by
  unfold rateRefill
  extract_lets old due
  have hdue : due = m.refillDue := by by_cases h0 : m.beq.interval = 0 <;> simp [due, old, h0]
  rw [if_neg (by omega), ← hdue]
  exact ⟨_, rfl, rfl, rfl⟩

/-! ## Violation reports (14_herds.md R361, R362) -/

/-- What tells one report from another: the channel's number and the window. -/
abbrev reportKey (c : CtlMsg) : Nat × Nat := (leAt (c.bytes.drop 32) 0x18 8, leAt (c.bytes.drop 32) 8 4)

/-- The herd of the module that a report says has written (14_herds.md R485). -/
abbrev reportWriter (m : Mach) (c : CtlMsg) : Option Nat := m.reportHerd (leAt (c.bytes.drop 32) 0 4 / 256 % 16) (leAt (c.bytes.drop 32) 4 4)

/-- The module once it has taken a report that it has not seen before. -/
def reportTaken (m : Mach) (c : CtlMsg) : Mach := m.putBeq { m.beq with ctl := m.beq.ctl.erase c, reports := m.beq.reports ++ [reportKey c] }

theorem reportTaken_onlyRegs (K : Nat → Prop) (m : Mach) (c : CtlMsg) : OnlyRegs K m (m.reportTaken c) := ⟨rfl, rfl, rfl, rfl, fun _ _ => rfl⟩

/-- A new report reaches the writing herd where its notice is on, and is counted where it is off or the channel names no herd of the module. -/
theorem reportReceived_of_new {m : Mach} {c : CtlMsg} (hf : m.beq.ctl.find? (fun c => leAt c.bytes 0 1 / 16 == 8) = some c) (hn : reportKey c ∉ m.beq.reports) :
    m.reportReceived = (m.reportWriter c).elim ((m.reportTaken c).inc F.FLT_VIOL_COUNT)
      fun h => if h = 0 ∨ m.bit F.QE_HERD_STATUS_PRIV 0 h then (m.reportTaken c).raise 0x0502 0x1FF h [h] (leAt (c.bytes.drop 32) 8 4) c.src
        else (m.reportTaken c).inc F.FLT_VIOL_COUNT := by
  unfold reportReceived
  simp only [hf]
  refine (if_neg (by simpa using hn)).trans ?_
  split <;> rename_i hw
  · rw [show m.reportWriter c = none from hw]
    rfl
  · rw [show m.reportWriter c = some _ from hw]
    rfl

/-- An event raised to a herd waits to be written to its ring. -/
theorem mem_evq_raise (m : Mach) (code source herd : Nat) {dest : List Nat} (a b : Nat) {h : Nat} (hh : h ∈ dest) :
    { code := code, source := source, herd := herd, dest := h, info0 := BitVec.ofNat 64 a, info1 := BitVec.ofNat 64 b, time := m.polder } ∈
      (m.raise code source herd dest a b).evq :=
  List.mem_append_right _ (List.mem_map.2 ⟨h, List.mem_append_left _ (List.mem_eraseDups.2 hh), rfl⟩)

/-! ## Landed writes (04_lodes_ordering.md R112) -/

/-- Completing what a queue pair has wholly sent changes the best-effort and the queue engine alone. -/
theorem qpSettleTx_eq (m : Mach) (q : Nat) : ∃ b e, m.qpSettleTx q = (m.putBeq b).putQe e := by
  unfold qpSettleTx
  extract_lets x isDone done y
  refine ⟨y.beq, ?_⟩
  refine List.foldlRecOn (motive := fun z => ∃ e, z = (m.putBeq y.beq).putQe e) done _ ⟨m.qe, rfl⟩ ?_
  rintro _ ⟨e, rfl⟩ g -
  cases g.sq with
  | none => exact ⟨e, rfl⟩
  | some k => exact ⟨_, rfl⟩

/-- A landed write is no longer waited for; where no message of a receiver waits on it, nothing else but completions changes. -/
theorem memAck_eq {m : Mach} {id : Nat} {w : WriteRec} (hf : m.mem.writes.find? (fun w => w.id == id) = some w) (hk : w.kind ≠ 2 ∨ 2 ^ 20 ≤ w.chan) :
    ∃ b e, m.memAck id = ((m.putMem { m.mem with writes := m.mem.writes.filter (fun y => y.id != id) }).putBeq b).putQe e := by
  unfold memAck
  simp only [hf]
  split
  · exact ⟨m.beq, m.qe, rfl⟩
  · rename_i h2
    rw [if_pos (hk.resolve_left h2)]
    exact qpSettleTx_eq _ _

end Mach

/-- Settles O18: each branch of the port's choice, a refill, the two ends of a report, a landed write. -/
theorem bestEffortSending : Obligations.BestEffortSending := by
  unfold Obligations.BestEffortSending
  refine ⟨?_, fun s t hi hdue => ?_, fun s t c hi hrun hf hn => ⟨fun hh => ?_, fun h hh hp => ?_⟩, fun s t id w hi hf hk => ?_⟩
  · intro s t p m hm hi hrun hup hd
    have hup' : m.portUp p = true := hm ▸ hup
    have hd' : m.ciph.frames = [] := hm ▸ hd
    refine ⟨fun h rest hh hf => ?_, fun q dl k hc hrc hcc hr ho hk hb hf => ?_, fun c q r dl x rest hc hrc hcc hr ho hl hcl h256 hq hqp hx hk hb hf => ?_⟩
    · obtain ⟨hheld, ⟨g, hg, hsent⟩, honly⟩ := Mach.forwardHeld_spec hd' h
      have hout : h.out = p := Mach.out_of_mem_heldFor (hh ▸ List.mem_cons_self)
      subst hm
      exact runs_of_engines rfl hi hrun (Mach.beSend_control hup' hh hf) honly fun hframe _ =>
        ⟨hheld, ⟨g, hout ▸ hsent, hg.bytes, hg.dest, hg.pcp⟩, hframe.2⟩
    · have hk' : m.qpKey q = none := hm ▸ hk
      obtain ⟨hrep, hsent, hbusy, honly⟩ := Mach.replySend_spec hd' hk' p dl k
      subst hm
      exact runs_of_engines rfl hi hrun (Mach.beSend_reply hup' hc hrc hcc hr ho hb hf) honly fun hframe _ => ⟨hrep, hsent, hbusy, hframe.2⟩
    · have hk' : m.qpKey q = none := hm ▸ hk
      have hx' : (m.qp q).resend = x :: rest := hm ▸ hx
      obtain ⟨hres, hsent, hget, honly⟩ := Mach.originSend_of_resend hd' h256 hq hqp hx' hk'
      subst hm
      refine runs_of_engines rfl hi hrun (Mach.beSend_origin hup' hc hrc hcc hr ho hl hcl h256 hb hf) (honly.putRte _) fun hframe _ => ⟨hres, ?_, hsent, hframe.2⟩
      exact (settle_get _ _ _ _ _ honly.variant).trans hget
  · obtain ⟨b, hb, hint, hat⟩ := Mach.rateRefill_of_due (m := s.m.advance t) hdue
    refine runs_of_onlyRegs (f := fun m => (m.advance t).rateRefill) (K := fun _ => False) rfl hi hb ⟨rfl, rfl, rfl, rfl, fun _ _ => rfl⟩ fun hframe _ => ⟨rfl, hint, ?_, hframe⟩
    exact hat.trans (congrArg (s.m.refillDue + ·) hint.symm)
  · have hx := Mach.reportReceived_of_new (m := s.m.advance t) hf hn
    rw [show (s.m.advance t).reportWriter c = none from hh, Option.elim_none] at hx
    have honly : OnlyRegs (fun k => k = keyOf F.FLT_VIOL_COUNT) (s.m.advance t) (((s.m.advance t).reportTaken c).inc F.FLT_VIOL_COUNT) :=
      (Mach.reportTaken_onlyRegs _ _ c).setReg _ rfl
    refine runs_of_engines rfl hi hrun hx honly fun hframe _ => ⟨(settle_get _ _ _ _ _ honly.variant).trans ?_, rfl, rfl, hframe⟩
    exact Mach.get_inc_same _ _ _ _ _ (by decide)
  · have hx := Mach.reportReceived_of_new (m := s.m.advance t) hf hn
    rw [show (s.m.advance t).reportWriter c = some h from hh, Option.elim_some, if_pos (.inr hp)] at hx
    exact runs_of_engines rfl hi hrun hx ((Mach.reportTaken_onlyRegs _ _ c).of_regs rfl rfl rfl rfl rfl)
      fun hframe _ => ⟨⟨_, Mach.mem_evq_raise _ _ _ _ _ _ (List.mem_singleton_self h), rfl, rfl, rfl, rfl⟩, rfl, hframe⟩
  · obtain ⟨b, e, he⟩ := Mach.memAck_eq (m := s.m.advance t) hf hk
    exact runs_of_onlyRegs (f := fun m => (m.advance t).memAck id) (K := fun _ => False) rfl hi he ⟨rfl, rfl, rfl, rfl, fun _ _ => rfl⟩ fun hframe _ => ⟨rfl, hframe⟩

end Sys2Proof.Machine
end

section
/-! SUPPORT. Updates that reach the register file alone. -/
namespace Sys2Proof.Machine

/-- `x` is `m` with other values in registers that `K` names. -/
structure InRegs (K : Nat → Prop) (m x : Mach) : Prop where
  file : x = m.putRegs x.regs
  regs : RegsBut K m x

namespace InRegs

variable {K : Nat → Prop} {m x y : Mach}

theorem refl (K : Nat → Prop) (m : Mach) : InRegs K m m := ⟨rfl, .refl K m⟩

theorem trans (h : InRegs K m x) (g : InRegs K x y) : InRegs K m y :=
  ⟨g.file.trans (congrArg (fun z => z.putRegs y.regs) h.file :), fun k hk => (g.regs k hk).trans (h.regs k hk)⟩

theorem setReg (h : InRegs K m x) {k : Nat} (w : Word) (hk : K k) : InRegs K m (x.setReg k w) :=
  ⟨congrArg (Mach.setReg · k w) h.file, h.regs.setReg w hk⟩

theorem set (h : InRegs K m x) {f : Fld} {v i s : Nat} (hk : K (keyOf f i s)) : InRegs K m (x.set f v i s) := h.setReg _ hk

theorem foldl {α : Type} {g : Mach → α → Mach} {l : List α} (h : ∀ z, ∀ a ∈ l, InRegs K z (g z a)) (m : Mach) : InRegs K m (l.foldl g m) :=
  List.foldlRecOn (motive := InRegs K m) l g (.refl K m) fun _ hz a ha => hz.trans (h _ a ha)

theorem ite {c : Prop} [Decidable c] (h : InRegs K m x) (g : InRegs K m y) : InRegs K m (if c then x else y) := by
  split <;> assumption

theorem only (h : InRegs K m x) : OnlyRegs K m x := by
  refine ⟨?_, ?_, ?_, ?_, h.regs⟩ <;> rw [h.file] <;> rfl

end InRegs

namespace Mach

theorem get_congr {m x : Mach} {f : Fld} {i s : Nat} (h : x.reg (keyOf f i s) = m.reg (keyOf f i s)) : x.get f i s = m.get f i s := by
  rw [get, h, get]

theorem bit_congr {m x : Mach} {f : Fld} {i s : Nat} (h : x.reg (keyOf f i s) = m.reg (keyOf f i s)) : x.bit f i s = m.bit f i s := by
  rw [bit, get_congr h, bit]

theorem set64_inRegs (m : Mach) (f : Fld) (v i s : Nat) : InRegs (fun _ => True) m (m.set64 f v i s) := ((InRegs.refl _ m).setReg _ trivial).setReg _ trivial

theorem inc64_inRegs (m : Mach) (f : Fld) (n i s : Nat) : InRegs (fun _ => True) m (m.inc64 f n i s) := m.set64_inRegs _ _ _ _

end Mach

theorem RegsBut.get {K : Nat → Prop} {m x : Mach} (h : RegsBut K m x) {f : Fld} {i s : Nat} (hk : ¬ K (keyOf f i s)) : x.get f i s = m.get f i s := Mach.get_congr (h _ hk)

end Sys2Proof.Machine
end

section
/-! SUPPORT and proof of O3: what the commands of SLU_PLAN_CMD do to a bank (03_sluice_plans.md R66 to R68, R94). -/
namespace Sys2Proof.Machine
namespace Mach

/-! ## The state and the contents of a bank -/

theorem bank_cases {b : Nat} (hb : b < 2) : b = 0 ∨ b = 1 := by omega

theorem get_set_zero (m : Mach) (f : Fld) (h : f.lo + f.wd ≤ 32) : (m.set f 0).get f = 0 := (get_set_same m f 0 0 0 h).trans (Nat.zero_mod _)

/-- The states of both banks stand in one register. -/
theorem bankState_congr {m x : Mach} (h : x.reg (keyOf F.SLU_BANK_STATUS_BANK0) = m.reg (keyOf F.SLU_BANK_STATUS_BANK0)) (b : Nat) : x.bankState b = m.bankState b := by
  simp only [bankState, get]
  rw [show fkey F.SLU_BANK_STATUS_BANK1 0 0 = keyOf F.SLU_BANK_STATUS_BANK0 from rfl, h]

/-- A field of SLU_BANK_STATUS above the states of the banks leaves them as they were. -/
theorem bankState_set_apart (m : Mach) {f : Fld} (v b : Nat) (hk : keyOf f = keyOf F.SLU_BANK_STATUS_BANK0) (hl : 8 ≤ f.lo) (hf : f.lo + f.wd ≤ 32) :
    (m.set f v).bankState b = m.bankState b := by
  simp only [bankState]
  rw [get_set_apart m hk.symm hf (.inl (Nat.le_trans (by decide) hl)), get_set_apart m (show fkey F.SLU_BANK_STATUS_BANK1 0 0 = fkey f 0 0 from hk.symm) hf (.inl hl)]

theorem bankState_setBankState (m : Mach) {b st : Nat} (hb : b < 2) (hst : st < 16) : (m.setBankState b st).bankState b = st := by
  obtain rfl | rfl := bank_cases hb <;>
  exact (get_set_same m _ _ _ _ (by decide)).trans (Nat.mod_eq_of_lt hst)

/-- A field of SLU_BANK_STATUS above the states of the banks stays when a state changes. -/
theorem get_setBankState_apart (m : Mach) {f : Fld} (b st : Nat) (hk : keyOf f = keyOf F.SLU_BANK_STATUS_BANK0) (hl : 8 ≤ f.lo) : (m.setBankState b st).get f = m.get f := by
  unfold setBankState
  split
  · exact get_set_apart m hk (by decide) (.inr (Nat.le_trans (by decide) hl))
  · exact get_set_apart m hk (by decide) (.inr hl)

theorem setBankState_inRegs (m : Mach) (b st : Nat) : InRegs (fun k => k = keyOf F.SLU_BANK_STATUS_BANK0) m (m.setBankState b st) := by
  unfold setBankState
  exact .ite ((InRegs.refl _ m).set rfl) ((InRegs.refl _ m).set rfl)

/-- The contents of a bank belong to the schedule engine. -/
theorem setBank_eq (m : Mach) (b : Nat) (x : Bank) : m.setBank b x = m.putPlan (m.setBank b x).plan := by
  unfold setBank
  split <;> rfl

theorem bank_setBank (m : Mach) {b : Nat} (hb : b < 2) (x : Bank) : (m.setBank b x).bank b = x := by
  obtain rfl | rfl := bank_cases hb <;> rfl

theorem setBank_loadSeen (m : Mach) (b : Nat) (x : Bank) : (m.setBank b x).plan.loadSeen = m.plan.loadSeen := by
  unfold setBank
  split <;> rfl

/-! ## Which command a write gives (R98) -/

section
variable {m : Mach} {p : Path} {b : Nat} (hb : b < 2) (hs : m.Steward p 0x00300008)
include hb hs

/-- BANK is kept, then the command of the one bit that is set acts on the bank. -/
theorem planCmd_single :
    m.planCmd p (b % 2 * 256 + 1) = (m.set F.SLU_PLAN_CMD_BANK b).planLoad b ∧ m.planCmd p (b % 2 * 256 + 2) = (m.set F.SLU_PLAN_CMD_BANK b).planArm b ∧
    m.planCmd p (b % 2 * 256 + 4) = (m.set F.SLU_PLAN_CMD_BANK b).planClear b ∧ m.planCmd p (b % 2 * 256 + 8) = (m.set F.SLU_PLAN_CMD_BANK b).planUnload b := by
  simp only [planCmd, stewardGate_of_admits hs]
  obtain rfl | rfl := bank_cases hb <;> exact ⟨rfl, rfl, rfl, rfl⟩

end

/-- BANK is kept in a register of its own. -/
theorem bankState_set_bank (m : Mach) (v b : Nat) : (m.set F.SLU_PLAN_CMD_BANK v).bankState b = m.bankState b :=
  bankState_congr (set_reg_ne m (by decide)) b

/-! ## A command in a state that has no row for it (R67) -/

theorem planDropped_spec (m : Mach) (b : Nat) :
    m.planDropped.bit F.SLU_BANK_STATUS_CMD_DROPPED = true ∧ m.planDropped.bankState b = m.bankState b ∧
      InRegs (fun k => k = keyOf F.SLU_BANK_STATUS_BANK0) m m.planDropped := by
  refine ⟨?_, bankState_set_apart m _ _ rfl (by decide) (by decide), (InRegs.refl _ m).set rfl⟩
  rw [planDropped, bit, get_set_same _ _ _ _ _ (by decide)]
  rfl

theorem planLoad_dropped {m : Mach} {b : Nat} (h0 : m.bankState b ≠ 0) (h2 : m.bankState b ≠ 2) : m.planLoad b = m.planDropped := if_pos (.inl ⟨h0, h2⟩)

theorem planArm_dropped {m : Mach} {b : Nat} (h : m.bankState b ≠ 3) : m.planArm b = m.planDropped := by
  unfold planArm
  split
  · contradiction
  · rfl

theorem planClear_dropped {m : Mach} {b : Nat} (h : m.bankState b < 2 ∨ 4 < m.bankState b) : m.planClear b = m.planDropped := if_neg (by omega)

theorem planUnload_dropped {m : Mach} {b : Nat} (h : m.bankState b ≠ 5) : m.planUnload b = m.planDropped := by
  unfold planUnload
  split
  · contradiction
  · rfl

/-! ## LOAD (R63, R66, R67) -/

/-- The image that LOAD copies: LENGTH bytes of the bank's half of the plan region, at most all of it. -/
def loadImage (m : Mach) (b : Nat) : List Byte :=
  m.rdBytes .peat (m.get64 F.SLU_PLAN_REGION_LO + b * 2 ^ 28) (min (leNat (m.rdBytes .peat (m.get64 F.SLU_PLAN_REGION_LO + b * 2 ^ 28 + 8) 4)) (2 ^ 28))

/-- The module with the image in its bank. -/
def imageLoaded (m : Mach) (b : Nat) : Mach := (m.putPlan { m.plan with loadSeen := true }).setBank b { emptyBank with image := m.loadImage b }

theorem get64_set_bank (m : Mach) (v : Nat) : (m.set F.SLU_PLAN_CMD_BANK v).get64 F.SLU_PLAN_REGION_LO = m.get64 F.SLU_PLAN_REGION_LO := by
  simp only [get64]
  rw [set_reg_ne m (by decide), set_reg_ne m (by decide)]

theorem loadImage_set_bank (m : Mach) (v b : Nat) : (m.set F.SLU_PLAN_CMD_BANK v).loadImage b = m.loadImage b := by
  simp only [loadImage, get64_set_bank]
  rfl

/-- The image's bank keeps what LOAD copied; registers and stores are as they were. -/
theorem imageLoaded_spec (m : Mach) {b : Nat} (hb : b < 2) :
    ((m.imageLoaded b).bank b).image = m.loadImage b ∧ (m.imageLoaded b).plan.loadSeen = true ∧ m.imageLoaded b = m.putPlan (m.imageLoaded b).plan := by
  refine ⟨?_, setBank_loadSeen _ _ _, setBank_eq _ _ _⟩
  rw [imageLoaded, bank_setBank _ hb]

theorem planLoad_ready {m : Mach} {b : Nat} (h : m.bankState b = 0 ∨ m.bankState b = 2) (hr : m.get64 F.SLU_PLAN_REGION_LO ≠ 2 ^ 64 - 1) :
    m.planLoad b = ((m.imageLoaded b).setBankState b 1).bringUpEnd := if_neg (by omega)

theorem bringUpEnd_of_other {m : Mach} (h : m.get F.CLK_BOOT_STEP ≠ 9) : m.bringUpEnd = m := if_neg fun hc => h hc.1

/-- With no port UP and none waiting, no port is retrained (12_ports_mac.md R312). -/
theorem retrainStart_of_none {m : Mach} (hu : ∀ q, q < 32 → m.get F.PORT_STATUS_STATE q ≠ 3) (hr : ∀ q, q < 32 → (m.pt q).retrain = false) : m.retrainStart = m := by
  have marks : (List.range 32).foldl (fun m p => if m.get F.PORT_CTL_RATE p = 0 ∧ m.lkState p = lkUp then m.setPt p { m.pt p with retrain := true } else m) m = m :=
    List.foldlRecOn (motive := fun z => z = m) _ _ rfl fun z hz q hq => hz ▸ if_neg fun hc => hu q (List.mem_range.1 hq) (hz ▸ hc.2)
  have todo : (List.range 32).filter (fun p => m.retraining p) = [] := List.filter_eq_nil_iff.2 fun q hq => by simp [retraining, hr q (List.mem_range.1 hq)]
  simp only [retrainStart, marks, retrainNext, todo, List.any_nil, List.filter_nil, List.foldl_nil, Bool.false_eq_true, if_false]

/-- The first LOAD under a valid configuration ends the bring-up service at step 10 (17_clocks_power_reset.md R428). -/
theorem bringUpEnd_of_service {m : Mach} (hs : m.get F.CLK_BOOT_STEP = 9) (hd : m.bit F.CFG_STATUS_DEFAULTS = false)
    (hu : ∀ q, q < 32 → m.get F.PORT_STATUS_STATE q ≠ 3) (hr : ∀ q, q < 32 → (m.pt q).retrain = false) :
    m.bringUpEnd = (m.set F.CLK_BOOT_STEP 10).set F.CLK_STATUS_POWER_STATE 2 := by
  rw [bringUpEnd, if_pos ⟨hs, hd⟩]
  have port : ∀ q, q < 32 → ∀ f : Fld, f.addr < 0x00020000 → f.step = 0 → fkey F.PORT_STATUS_STATE q 0 ≠ fkey f 0 0 := fun q hq f ha hs => by
    simp only [fkey, regKey]
    omega
  refine retrainStart_of_none (fun q hq => ?_) hr
  rw [get_set_ne _ (port q hq _ (by decide) rfl), get_set_ne _ (port q hq _ (by decide) rfl)]
  exact hu q hq

/-! ## ARM (R68) -/

theorem tState_set_bank (m : Mach) (v : Nat) : (m.set F.SLU_PLAN_CMD_BANK v).tState = m.tState := get_set_ne m (by decide)

theorem active_set_bank (m : Mach) (v : Nat) : (m.set F.SLU_PLAN_CMD_BANK v).active = m.active := by
  simp only [active, bankIn, bankState_set_bank]
  rfl

/-- An ADMITTED plan is ARMED where time runs, no bank is RETIRING, and it starts late enough for what runs before it. -/
theorem planArm_armed {m : Mach} {b : Nat} {pl : Plan} (hb : b < 2) (h3 : m.bankState b = 3) (hp : (m.bank b).plan = some pl) (ht : m.tState = tLocked ∨ m.tState = tRoot)
    (ho : m.bankState (1 - b) ≠ 6)
    (hf : (m.active = none ∧ (100 * us : Nat) ≤ timeDiff (BitVec.ofNat 64 pl.tideBase) m.polder) ∨
      (∃ a o, m.active = some (a, o) ∧ (o.tideUnits : Nat) ≤ timeDiff (BitVec.ofNat 64 pl.tideBase) m.polder ∧
        timeDiff (BitVec.ofNat 64 pl.tideBase) (BitVec.ofNat 64 o.tideBase) % (o.tideUnits : Nat) = 0 ∧ pl.epoch ≠ o.epoch)) :
    m.planArm b = m.setBankState b 4 := by
  have hr : m.bankState 0 ≠ 6 ∧ m.bankState 1 ≠ 6 := by
    obtain rfl | rfl := bank_cases hb
    · exact ⟨by rw [h3]; decide, ho⟩
    · exact ⟨ho, by rw [h3]; decide⟩
  simp only [planArm, h3, hp]
  refine if_pos ?_
  obtain ⟨ha, hlate⟩ | ⟨a, o, ha, hlate, htides, hepoch⟩ := hf
  · simp only [ha, ht, hlate, hr, beq_iff_eq, Bool.or_eq_true, bne_iff_ne, ne_eq, decide_true, Bool.and_true, Bool.and_eq_true, not_false_eq_true, and_self]
  · simp [ha, ht, hlate, htides, hepoch, hr]

/-- Without a running time ARM is refused. -/
theorem planArm_refused {m : Mach} {b : Nat} {pl : Plan} (h3 : m.bankState b = 3) (hp : (m.bank b).plan = some pl) (ht : ¬ (m.tState = tLocked ∨ m.tState = tRoot)) :
    m.planArm b = m.set F.SLU_BANK_STATUS_ARM_REFUSED 1 := by
  simp only [planArm, h3, hp]
  refine if_neg ?_
  simp [ht]

/-! ## CLEAR (R67) -/

/-- Keys of the registers of the current use of herds (14_herds.md R352). -/
abbrev useKey (k : Nat) : Prop := F.QE_HERD_USE.addr ≤ k % regSpan ∧ k % regSpan < F.QE_HERD_USE.addr + 32

theorem setUsed_inRegs (m : Mach) (h : Nat) {r : Res} (n : Nat) (hr : r.word < 8) : InRegs useKey m (m.setUsed h r n) :=
  (InRegs.refl _ m).setReg _ (by simp only [useKey, regSpan]; omega)

/-- Claims are counted in the registers of the current use alone. -/
theorem syncClaims_inRegs (m0 m : Mach) : InRegs useKey m (syncClaims m0 m) := by
  refine InRegs.foldl (fun y h _ => InRegs.foldl (fun z r hr => ?_) y) m
  have hw : r.word < 8 := by
    simp only [List.mem_cons, List.not_mem_nil, or_false] at hr
    obtain rfl | rfl | rfl | rfl | rfl | rfl := hr <;> decide
  exact .ite (.refl _ z) (setUsed_inRegs z h _ hw)

/-- The pair that holds the PLAN_ID of a bank. -/
abbrev planIdLo (b : Nat) : Fld := if b = 0 then F.SLU_PLAN_ID0_LO else F.SLU_PLAN_ID1_LO

theorem setPlanId_eq (m : Mach) (b n : Nat) : m.setPlanId b n = m.set64 (planIdLo b) n := by
  unfold setPlanId planIdLo
  split <;> rfl

/-- CLEAR empties a bank that is REFUSED, ADMITTED or ARMED: its state, what it holds, its PLAN_ID. -/
theorem planClear_spec {m : Mach} {b : Nat} (hb : b < 2) (h : m.bankState b = 2 ∨ m.bankState b = 3 ∨ m.bankState b = 4) :
    (m.planClear b).bankState b = 0 ∧ (m.planClear b).bank b = emptyBank ∧ (m.planClear b).get64 (planIdLo b) = 0 ∧ OnlyRegs (fun _ => True) m (m.planClear b) := by
  have he : m.planClear b = syncClaims m (((m.setBank b emptyBank).setBankState b 0).setPlanId b 0) := if_pos h
  have hid : planIdLo b = F.SLU_PLAN_ID0_LO ∨ planIdLo b = F.SLU_PLAN_ID1_LO := by
    obtain rfl | rfl := bank_cases hb
    · exact .inl rfl
    · exact .inr rfl
  set y := (m.setBank b emptyBank).setBankState b 0 with hy
  have hyb : y.bankState b = 0 := bankState_setBankState _ hb (by decide)
  have hyo : InRegs (fun _ => True) (m.setBank b emptyBank) y := ⟨(setBankState_inRegs _ b 0).file, fun _ hk => absurd trivial hk⟩
  have hz : InRegs (fun _ => True) y (y.setPlanId b 0) := by
    rw [setPlanId_eq]
    exact ((InRegs.refl _ y).setReg _ trivial).setReg _ trivial
  have hs := syncClaims_inRegs m (y.setPlanId b 0)
  have hkeep : ∀ f : Fld, planIdLo b = f ∨ f = F.SLU_BANK_STATUS_BANK0 → ¬ useKey (keyOf f) ∧ ¬ useKey (keyOf f + 4) := by
    rintro f (rfl | rfl)
    · obtain e | e := hid <;> rw [e] <;> decide
    · decide
  have hstate : keyOf F.SLU_BANK_STATUS_BANK0 ≠ keyOf (planIdLo b) ∧ keyOf F.SLU_BANK_STATUS_BANK0 ≠ keyOf (planIdLo b) + 4 := by
    obtain e | e := hid <;> rw [e] <;> decide
  rw [he]
  refine ⟨?_, ?_, ?_, ?_⟩
  · rw [bankState_congr (hs.regs _ (hkeep _ (.inr rfl)).1), setPlanId_eq, bankState_congr (set64_reg_ne y hstate.1 hstate.2), hyb]
  · rw [hs.file, hz.file, hyo.file]
    exact bank_setBank m hb emptyBank
  · rw [get64, hs.regs _ (hkeep _ (.inl rfl)).1, hs.regs _ (hkeep _ (.inl rfl)).2, setPlanId_eq]
    exact get64_set64_same y _ 0 0 0
  · have hm : OnlyRegs (fun _ => True) m (m.setBank b emptyBank) := by
      rw [setBank_eq]
      exact ⟨rfl, rfl, rfl, rfl, fun _ _ => rfl⟩
    exact ((hm.trans hyo.only).trans hz.only).trans (hs.only.mono fun _ _ => trivial)

/-! ## UNLOAD (R67) -/

/-- Keys of the registers that tell of the ACTIVE plan. -/
abbrev activeKey (k : Nat) : Prop := k = keyOf F.SLU_BANK_STATUS_BANK0 ∨ k = keyOf F.SLU_MAX_FLIGHT ∨ k = keyOf F.RTE_STATUS_TABLE

/-- UNLOAD retires the ACTIVE bank: its slots open until the next tide, and the registers name no ACTIVE plan any more. -/
theorem planUnload_spec {m : Mach} {b : Nat} {pl : Plan} (hb : b < 2) (h5 : m.bankState b = 5) (hp : (m.bank b).plan = some pl) :
    (m.planUnload b).bankState b = 6 ∧ (m.planUnload b).bank b = { m.bank b with stopAt := some (m.nextTide pl), unload := true } ∧
      (m.planUnload b).get F.SLU_BANK_STATUS_EPOCH = 0 ∧ (m.planUnload b).get F.SLU_MAX_FLIGHT = 0 ∧ (m.planUnload b).get F.RTE_STATUS_TABLE = 0 ∧
      OnlyRegs activeKey m (m.planUnload b) := by
  set y := m.setBank b { m.bank b with stopAt := some (m.nextTide pl), unload := true } with hy
  set z := (y.setBankState b 6).set F.SLU_BANK_STATUS_EPOCH 0 with hz
  have he : m.planUnload b = (z.set F.SLU_MAX_FLIGHT 0).set F.RTE_STATUS_TABLE 0 := by simp only [planUnload, h5, hp, hz, hy]
  have hzs : z.bankState b = 6 := by
    rw [hz, bankState_set_apart (f := F.SLU_BANK_STATUS_EPOCH) _ _ _ rfl (by decide) (by decide), bankState_setBankState _ hb (by decide)]
  have hzo : InRegs (fun k => k = keyOf F.SLU_BANK_STATUS_BANK0) y z := (setBankState_inRegs y b 6).set rfl
  rw [he]
  refine ⟨?_, ?_, ?_, ?_, get_set_zero _ _ (by decide), ?_⟩
  · rw [bankState_congr (set_reg_ne _ (by decide)), bankState_congr (set_reg_ne _ (by decide)), hzs]
  · rw [hzo.file]
    exact bank_setBank m hb _
  · rw [get_set_ne _ (by decide), get_set_ne _ (by decide), hz]
    exact get_set_zero _ _ (by decide)
  · rw [get_set_ne _ (by decide)]
    exact get_set_zero _ _ (by decide)
  · have hm : OnlyRegs activeKey m y := by
      rw [hy, setBank_eq]
      exact ⟨rfl, rfl, rfl, rfl, fun _ _ => rfl⟩
    exact ((hm.trans (hzo.only.mono fun _ => .inl)).set (.inr (.inl rfl))).set (.inr (.inr rfl))

end Mach

/-- Keys of the two registers that a command of SLU_PLAN_CMD changes in any case. -/
abbrev planCmdKey (k : Nat) : Prop := k = keyOf F.SLU_BANK_STATUS_BANK0 ∨ k = keyOf F.SLU_PLAN_CMD_BANK

/-- BANK is kept whatever the command. -/
theorem set_bank_onlyRegs (m : Mach) (b : Nat) : OnlyRegs planCmdKey m (m.set F.SLU_PLAN_CMD_BANK b) := (OnlyRegs.refl _ m).set (.inr rfl)

namespace Mach

/-- The module after LOAD has kept BANK, copied the image and set the bank CHECKING. -/
def checking (m : Mach) (b : Nat) : Mach := ((m.set F.SLU_PLAN_CMD_BANK b).imageLoaded b).setBankState b 1

theorem checking_onlyRegs (m : Mach) (b : Nat) : OnlyRegs planCmdKey m (m.checking b) := by
  have hy : OnlyRegs planCmdKey m ((m.set F.SLU_PLAN_CMD_BANK b).imageLoaded b) := by
    rw [imageLoaded, setBank_eq]
    exact (set_bank_onlyRegs m b).of_regs rfl rfl rfl rfl rfl
  exact hy.trans ((setBankState_inRegs _ b 1).only.mono fun _ => .inl)

theorem checking_spec (m : Mach) {b : Nat} (hb : b < 2) :
    (m.checking b).bankState b = 1 ∧ (m.checking b).get F.SLU_PLAN_CMD_BANK = b ∧ (m.checking b).plan.loadSeen = true ∧
      ((m.checking b).bank b).image = m.loadImage b ∧ (m.checking b).ports = m.ports := by
  obtain ⟨himage, hseen, heq⟩ := (m.set F.SLU_PLAN_CMD_BANK b).imageLoaded_spec hb
  have hy := ((m.set F.SLU_PLAN_CMD_BANK b).imageLoaded b).setBankState_inRegs b 1
  refine ⟨bankState_setBankState _ hb (by decide), ?_, ?_, ?_, ?_⟩
  · rw [checking, hy.regs.get (by decide), heq]
    exact (get_set_same m _ b 0 0 (by decide)).trans (Nat.mod_eq_of_lt hb)
  · rw [checking, hy.file]
    exact hseen
  · rw [checking, hy.file]
    exact himage.trans (m.loadImage_set_bank b b)
  · rw [checking, hy.file, heq]
    rfl

/-- A LOAD of a bank that is EMPTY or REFUSED. -/
theorem planCmd_load {m : Mach} {p : Path} {b : Nat} (hb : b < 2) (hs : m.Steward p 0x00300008) (h : m.bankState b = 0 ∨ m.bankState b = 2)
    (hr : m.get64 F.SLU_PLAN_REGION_LO ≠ 2 ^ 64 - 1) : m.planCmd p (b % 2 * 256 + 1) = (m.checking b).bringUpEnd := by
  rw [(planCmd_single hb hs).1, checking, planLoad_ready]
  · rwa [bankState_set_bank]
  · rwa [get64_set_bank]

end Mach

/-- How to show what a write of SLU_PLAN_CMD does. -/
theorem runs_of_planCmd {c : Instr} {s : State} {P : Mach → Prop} {K : Nat → Prop} {p : Path} {v : Nat} {x : Mach}
    (hc : Sys2Proof.Machine.exec c s = commit s (fun m => m.planCmd p v)) (hi : s.m.Inv) (hx : s.m.planCmd p v = x) (ho : OnlyRegs K s.m x)
    (h : Frame K s.m (settle s.m x) → (∀ k, (settle s.m x).reg k = x.reg k) → P (settle s.m x)) : Runs c s P :=
  runs_of_onlyRegs hc hi hx ho h

/-- How to show that a command is dropped. -/
theorem runs_of_planDropped {c : Instr} {s : State} {p : Path} {v b : Nat} (hc : Sys2Proof.Machine.exec c s = commit s (fun m => m.planCmd p v)) (hi : s.m.Inv)
    (hx : s.m.planCmd p v = (s.m.set F.SLU_PLAN_CMD_BANK b).planDropped) :
    Runs c s fun n => n.bit F.SLU_BANK_STATUS_CMD_DROPPED = true ∧ n.bankState b = s.m.bankState b := by
  obtain ⟨hbit, hstate, hregs⟩ := (s.m.set F.SLU_PLAN_CMD_BANK b).planDropped_spec b
  have honly := (set_bank_onlyRegs s.m b).trans (hregs.only.mono fun _ => .inl)
  refine runs_of_planCmd hc hi hx honly fun _ hreg => ⟨?_, ?_⟩
  · rw [Mach.bit_congr (hreg _), hbit]
  · rw [Mach.bankState_congr (hreg _), hstate, Mach.bankState_set_bank]

/-- Settles O3: LOAD without and with the end of the bring-up service, ARM taken and refused, CLEAR, UNLOAD, and each command in a state without a row for it. -/
theorem planCommands : Obligations.PlanCommands := by
  unfold Obligations.PlanCommands
  refine ⟨?_, ?_, ?_, ?_, ?_, ?_, ?_⟩
  · intro s p b hb hi hs hst hr hboot
    obtain ⟨hstate, hbank, hseen, himage, -⟩ := s.m.checking_spec hb
    have honly := s.m.checking_onlyRegs b
    have hx : s.m.planCmd p (b % 2 * 256 + 1) = s.m.checking b :=
      (Mach.planCmd_load hb hs hst hr).trans (Mach.bringUpEnd_of_other ((honly.regs.get (by decide)).trans_ne hboot))
    exact runs_of_planCmd rfl hi hx honly fun hframe hreg =>
      ⟨(Mach.bankState_congr (hreg _) b).trans hstate, (Mach.get_congr (hreg _)).trans hbank, hseen, himage, hframe⟩
  · intro s p b hb hi hs hst hr hboot hdef hup hre
    obtain ⟨hstate, -, -, -, hports⟩ := s.m.checking_spec hb
    have hregs := (s.m.checking_onlyRegs b).regs
    have hport : ∀ q, q < 32 → (s.m.checking b).get F.PORT_STATUS_STATE q ≠ 3 := fun q hq =>
      (hregs.get (by simp only [planCmdKey, keyOf, Mach.fkey, regKey]; omega)).trans_ne (hup q hq)
    have hx := (Mach.planCmd_load hb hs hst hr).trans (Mach.bringUpEnd_of_service ((hregs.get (by decide)).trans hboot)
      ((Mach.bit_congr (hregs _ (by decide))).trans hdef) hport fun q hq => by simpa only [Mach.pt, hports] using hre q hq)
    have honly : OnlyRegs (fun _ => True) s.m (((s.m.checking b).set F.CLK_BOOT_STEP 10).set F.CLK_STATUS_POWER_STATE 2) :=
      (((s.m.checking_onlyRegs b).mono fun _ _ => trivial).set trivial).set trivial
    refine runs_of_planCmd rfl hi hx honly fun hframe hreg => ⟨?_, ?_, ?_⟩
    · rw [Mach.bankState_congr (hreg _), Mach.bankState_congr (Mach.set_reg_ne _ (by decide)), Mach.bankState_congr (Mach.set_reg_ne _ (by decide)), hstate]
    · rw [Mach.get_congr (hreg _), Mach.get_set_ne _ (by decide), Mach.get_set_same _ _ _ _ _ (by decide)]
      rfl
    · rw [Mach.get_congr (hreg _), Mach.get_set_same _ _ _ _ _ (by decide)]
      rfl
  · intro s p b pl hb hi hs h3 hp ht ho hf
    have hx : s.m.planCmd p (b % 2 * 256 + 2) = (s.m.set F.SLU_PLAN_CMD_BANK b).setBankState b 4 := by
      rw [(Mach.planCmd_single hb hs).2.1]
      refine Mach.planArm_armed hb ?_ hp ?_ ?_ ?_
      · rwa [Mach.bankState_set_bank]
      · rwa [Mach.tState_set_bank]
      · rwa [Mach.bankState_set_bank]
      · rwa [Mach.active_set_bank]
    have hregs := (s.m.set F.SLU_PLAN_CMD_BANK b).setBankState_inRegs b 4
    have honly := (set_bank_onlyRegs s.m b).trans (hregs.only.mono fun _ => .inl)
    refine runs_of_planCmd rfl hi hx honly fun hframe hreg => ⟨?_, ?_, ?_, hframe⟩
    · rw [Mach.bankState_congr (hreg _), Mach.bankState_setBankState _ hb (by decide)]
    · rw [Mach.get_congr (hreg _), Mach.get_setBankState_apart (f := F.SLU_BANK_STATUS_ARM_REFUSED) _ _ _ rfl (by decide), Mach.get_set_ne _ (by decide)]
    · rw [hregs.file]
      exact hp
  · intro s p b pl hb hi hs h3 hp ht
    have hx : s.m.planCmd p (b % 2 * 256 + 2) = (s.m.set F.SLU_PLAN_CMD_BANK b).set F.SLU_BANK_STATUS_ARM_REFUSED 1 := by
      rw [(Mach.planCmd_single hb hs).2.1]
      refine Mach.planArm_refused ?_ hp ?_
      · rwa [Mach.bankState_set_bank]
      · rwa [Mach.tState_set_bank]
    have honly : OnlyRegs planCmdKey s.m ((s.m.set F.SLU_PLAN_CMD_BANK b).set F.SLU_BANK_STATUS_ARM_REFUSED 1) := (set_bank_onlyRegs s.m b).set (.inl rfl)
    refine runs_of_planCmd rfl hi hx honly fun _ hreg => ⟨?_, ?_⟩
    · rw [Mach.bankState_congr (hreg _), Mach.bankState_set_apart (f := F.SLU_BANK_STATUS_ARM_REFUSED) _ _ _ rfl (by decide) (by decide), Mach.bankState_set_bank, h3]
    · rw [Mach.bit_congr (hreg _), Mach.bit, Mach.get_set_same _ _ _ _ _ (by decide)]
      rfl
  · intro s p b hb hi hs hst
    obtain ⟨hstate, hbank, hid, hregs⟩ := Mach.planClear_spec (m := s.m.set F.SLU_PLAN_CMD_BANK b) hb (by rwa [Mach.bankState_set_bank])
    refine runs_of_planCmd rfl hi (Mach.planCmd_single hb hs).2.2.1 (((set_bank_onlyRegs s.m b).mono fun _ _ => trivial).trans hregs)
      fun hframe hreg => ⟨(Mach.bankState_congr (hreg _) b).trans hstate, congrArg Bank.plan hbank, congrArg Bank.image hbank, ?_, hframe.2⟩
    rw [Mach.get64, hreg, hreg]
    exact hid
  · intro s p b pl hb hi hs h5 hp
    obtain ⟨hstate, hbank, hepoch, hflight, htable, hregs⟩ :=
      Mach.planUnload_spec (m := s.m.set F.SLU_PLAN_CMD_BANK b) (pl := pl) hb (by rwa [Mach.bankState_set_bank]) hp
    have honly : OnlyRegs (· ∈ [keyOf F.SLU_BANK_STATUS_BANK0, keyOf F.SLU_PLAN_CMD_BANK, keyOf F.SLU_MAX_FLIGHT, keyOf F.RTE_STATUS_TABLE]) s.m
        ((s.m.set F.SLU_PLAN_CMD_BANK b).planUnload b) := by
      refine ((set_bank_onlyRegs s.m b).mono ?_).trans (hregs.mono ?_)
      · rintro k (rfl | rfl) <;> simp
      · rintro k (rfl | rfl | rfl) <;> simp
    refine runs_of_planCmd rfl hi (Mach.planCmd_single hb hs).2.2.2 honly fun hframe hreg => ⟨(Mach.bankState_congr (hreg _) b).trans hstate, ?_, ?_, ?_, ?_, ?_, hframe⟩
    · exact congrArg Bank.stopAt hbank
    · exact (congrArg Bank.plan hbank).trans hp
    all_goals rw [Mach.get_congr (hreg _)]; assumption
  · intro s p b hb hi hs
    obtain ⟨hload, harm, hclear, hunload⟩ := Mach.planCmd_single hb hs
    have hst := s.m.bankState_set_bank b b
    refine ⟨fun h0 h2 => ?_, fun h3 => ?_, fun h => ?_, fun h5 => ?_⟩
    · exact runs_of_planDropped rfl hi (hload.trans (Mach.planLoad_dropped (hst ▸ h0) (hst ▸ h2)))
    · exact runs_of_planDropped rfl hi (harm.trans (Mach.planArm_dropped (hst ▸ h3)))
    · exact runs_of_planDropped rfl hi (hclear.trans (Mach.planClear_dropped (hst ▸ h)))
    · exact runs_of_planDropped rfl hi (hunload.trans (Mach.planUnload_dropped (hst ▸ h5)))

end Sys2Proof.Machine
end

section
/-! SUPPORT and proof of O5: what a port sends in a slot, and the planned wake of clock domains (03_sluice_plans.md R71, R82, R96; 02_polder_time.md R45). -/
namespace Sys2Proof.Machine
namespace Mach

/-! ## A slot opens (R71) -/

/-- The module once it has marked a slot of a port as opened. -/
def slotMarked (m : Mach) (q : Nat) (o : DWord) : Mach := m.putPlan { m.plan with opened := (m.plan.opened.filter (fun x => x.1 != q)) ++ [(q, o)] }

theorem slotMarked_opened (m : Mach) (q : Nat) (o : DWord) : (m.slotMarked q o).plan.opened.contains (q, o) = true := by
  simp [slotMarked]

theorem slotMarked_onlyRegs (K : Nat → Prop) (m : Mach) (q : Nat) (o : DWord) : OnlyRegs K m (m.slotMarked q o) := ⟨rfl, rfl, rfl, rfl, fun _ _ => rfl⟩

section
variable {m : Mach} {q n : Nat} {p : Plan} (hs : m.slotNow q = some (p, n)) (ho : m.plan.opened.contains (q, p.opening q n) = false)
include hs ho

/-- A LODE slot of a lode that carries no group. -/
theorem slotOpen_lode {l : Nat} {r : LodeOut} (hk : p.kindIn q n = (1, l)) (hr : p.out l = some r) (hc : r.coll = false) :
    m.slotOpen q = (m.slotMarked q (p.opening q n)).lodeSlot p q n (p.opening q n) r false := by
  simp only [slotOpen, hs, ho, hk, hr, hc, Bool.false_eq_true, if_false]
  rfl

/-- A TIME slot of a port that is UP, at a module that follows a time or gives it (02_polder_time.md R45). -/
theorem slotOpen_time {j : Nat} (hk : p.kindIn q n = (4, j)) (ht : m.tState ≠ tFree) (hu : m.get F.PORT_STATUS_STATE q = 3) :
    ∃ x, m.slotOpen q = ((m.slotMarked q (p.opening q n)).setPt q x).sendTime q false := by
  simp only [slotOpen, hs, ho, hk, Bool.false_eq_true, if_false]
  exact ⟨_, if_neg (by rintro (h | h); exacts [ht h, h hu])⟩

end

/-! ## What leaves in a slot (R82) -/

theorem countTx_inRegs (m : Mach) (p bytes : Nat) : InRegs (fun _ => True) m (m.countTx p bytes) := (m.inc64_inRegs _ _ _ _).trans (inc64_inRegs _ _ _ _ _)

/-- The module once its lode has marked an accepted frame as sent in its primary slot. -/
def frameSent (m : Mach) (l : Nat) (a : AccFrame) : Mach :=
  m.setLtx l { m.ltx l with frames := ((m.ltx l).frames.map (fun y => if y == a then { a with sent := true } else y)).filter (fun y => !(y.sent && y.shadowSent)) }

/-- With no frame dropped by a cipher engine, a scheduled frame leaves, and the slot counts as used. -/
theorem slotSend_spec {m : Mach} (hd : m.ciph.frames = []) (q : Nat) (o : DWord) (f : SchedFrame) :
    (m.slotSend q o f).sent = m.sent ++ [.sched q f] ∧ (m.slotSend q o f).plan.opened = m.plan.opened ∧ OnlyRegs (fun _ => True) m (m.slotSend q o f) := by
  rw [slotSend, sendSched, sendOut_of_noDrops hd]
  exact ⟨rfl, rfl, (m.countTx_inRegs q (schedBytes f)).only.of_regs rfl rfl rfl rfl rfl⟩

/-- The accepted frame whose slot it is leaves, on a port in scheduled use whose engine can encrypt it. -/
theorem lodeSlot_sends {m : Mach} {p : Plan} {q n : Nat} {o : DWord} {r : LodeOut} {a : AccFrame}
    (hf : (m.ltx r.lode).frames.find? (fun x => x.epoch == p.epoch && (x.slot == n && !x.sent)) = some a) (hu : m.schedUp q = true)
    (hc : m.portCiphers q r.encrypted = true) :
    m.lodeSlot p q n o r false =
      (m.frameSent r.lode a).slotSend q o { epoch := p.epoch, dstModule := r.dstModule, tailOk := true, shadow := false, body := .lode a.frame } := by
  have hlive : ((m.frameSent r.lode a).schedUp q && (m.frameSent r.lode a).portCiphers q r.encrypted) = true := (Bool.and_eq_true _ _).mpr ⟨hu, hc⟩
  simp only [lodeSlot, Bool.false_eq_true, if_false, hf]
  exact if_pos hlive

/-- A time frame leaves on its port (02_polder_time.md R45). -/
theorem sendTime_spec (m : Mach) (q : Nat) (b : Bool) :
    (∃ f, (m.sendTime q b).sent = m.sent ++ [.time q f] ∧ f.twoWay = b) ∧ OnlyRegs (fun _ => True) m (m.sendTime q b) := by
  unfold sendTime
  extract_lets x st f y _ z w
  have hz : z.sent = m.sent ∧ OnlyRegs (fun _ => True) m z := by
    simp only [z]
    split <;> exact ⟨rfl, rfl, rfl, rfl, rfl, fun _ _ => rfl⟩
  have hw : InRegs (fun _ => True) z w := z.countTx_inRegs q 82
  have hsent : w.sent = m.sent := (congrArg Mach.sent hw.file).trans hz.1
  exact ⟨⟨f, congrArg (· ++ [Out.time q f]) hsent, rfl⟩, (hz.2.trans hw.only).of_regs rfl rfl rfl rfl rfl⟩

/-! ## Planned wake of clock domains (R96) -/

/-- RUNNING and PLANNED stand apart in one register. -/
theorem running_set_planned (m : Mach) (v d : Nat) : (m.set F.CLK_DOM_STATUS_PLANNED v 0 d).bit F.CLK_DOM_STATUS_RUNNING 0 d = m.bit F.CLK_DOM_STATUS_RUNNING 0 d := by
  rw [bit, get_set_apart m (f := F.CLK_DOM_STATUS_PLANNED) (g := F.CLK_DOM_STATUS_RUNNING) rfl (by decide) (.inr (by decide)), bit]

theorem planned_set (m : Mach) (d : Nat) : (m.set F.CLK_DOM_STATUS_PLANNED 1 0 d).bit F.CLK_DOM_STATUS_PLANNED 0 d = true := by
  rw [bit, get_set_same _ _ _ _ _ (by decide)]
  rfl

/-- A stopped domain whose planned use is near begins to start. -/
theorem plannedWake_near {m : Mach} {d g : Nat} (hd : d < 60) (hg : m.plannedGap d = some g) (hn : g ≤ 2 * us) (hr : m.bit F.CLK_DOM_STATUS_RUNNING 0 d = false)
    (hs : alGet m.clk.starting d = none) :
    m.plannedWake d = (m.set F.CLK_DOM_STATUS_PLANNED 1 0 d).putClk { m.clk with starting := alPut m.clk.starting d m.now } := by
  simp only [plannedWake, hg]
  rw [if_pos ⟨hn, hr, hd⟩, domainStart, if_neg]
  · rfl
  · rintro (h | h)
    · simp [hs] at h
    · simp [running_set_planned, hr] at h

/-- A running domain without work whose next planned use is far stops. -/
theorem plannedStop_far {m : Mach} {d g : Nat} (hg : m.plannedGap d = some g) (h0 : 0 < g) (hf : m.inForce F.SLU_WAKE_CTL_MIN_IDLE * us ≤ g) (ha : m.active.isSome = true)
    (hw : m.inForce F.SLU_WAKE_CTL_PLAN_WAKE = 1) (hr : m.bit F.CLK_DOM_STATUS_RUNNING 0 d = true) (hs : alGet m.clk.starting d = none) (hb : m.domainBusy d = false) :
    m.plannedStop d = (m.set F.CLK_DOM_STATUS_RUNNING 0 0 d).set F.CLK_DOM_STATUS_PLANNED 1 0 d := by
  simp only [plannedStop, hg]
  exact if_pos ⟨ha, hw, decide_eq_true ⟨hf, h0⟩, hr, by simp [hs], hb⟩

end Mach

/-- Settles O5: a LODE slot, a TIME slot, the start of a domain and its stop. -/
theorem slotsAndPlannedWake : Obligations.SlotsAndPlannedWake := by
  unfold Obligations.SlotsAndPlannedWake
  refine ⟨?_, ?_, ?_, ?_⟩
  · intro s t q i l p r a hi hrun hs ho hk hr hc hf hu hciph hd
    set y := (s.m.advance t).slotMarked q (p.opening q i) with hy
    have hx := (Mach.slotOpen_lode (m := s.m.advance t) hs ho hk hr hc).trans (Mach.lodeSlot_sends (m := y) hf hu hciph)
    obtain ⟨hsent, hopened, honly⟩ := Mach.slotSend_spec (m := y.frameSent r.lode a) hd q (p.opening q i)
      { epoch := p.epoch, dstModule := r.dstModule, tailOk := true, shadow := false, body := .lode a.frame }
    have hm : OnlyRegs (fun _ => True) (s.m.advance t) (y.frameSent r.lode a) := (Mach.slotMarked_onlyRegs _ _ q (p.opening q i)).of_regs rfl rfl rfl rfl rfl
    refine runs_of_engines rfl hi hrun hx (hm.trans honly) fun hframe _ => ⟨hsent, ?_, hframe.2⟩
    exact (congrArg (List.contains · _) hopened).trans (Mach.slotMarked_opened _ _ _)
  · intro s t q i j p hi hrun hs ho hk ht hu
    obtain ⟨x, hx⟩ := Mach.slotOpen_time (m := s.m.advance t) hs ho hk ht hu
    obtain ⟨⟨f, hsent, hway⟩, honly⟩ := (((s.m.advance t).slotMarked q (p.opening q i)).setPt q x).sendTime_spec q false
    have hm : OnlyRegs (fun _ => True) (s.m.advance t) (((s.m.advance t).slotMarked q (p.opening q i)).setPt q x) := ⟨rfl, rfl, rfl, rfl, fun _ _ => rfl⟩
    exact runs_of_engines rfl hi hrun hx (hm.trans honly) fun hframe _ => ⟨⟨f, hsent, hway⟩, hframe.2⟩
  · intro s t d g hi hrun hd hg hn hr hst
    have honly : OnlyRegs (fun k => k = keyOf F.CLK_DOM_STATUS_PLANNED 0 d) (s.m.advance t) ((s.m.advance t).set F.CLK_DOM_STATUS_PLANNED 1 0 d) :=
      (OnlyRegs.refl _ _).set rfl
    exact runs_of_engines rfl hi hrun (Mach.plannedWake_near (m := s.m.advance t) hd hg hn hr hst) (honly.of_regs rfl rfl rfl rfl rfl)
      fun hframe hreg => ⟨alGet_alPut_same _ _ _, (Mach.bit_congr (hreg _)).trans ((s.m.advance t).planned_set d), hframe⟩
  · intro s t d g hi hrun hg h0 hf ha hw hr hst hb
    have hstop : OnlyRegs (fun k => k = keyOf F.CLK_DOM_STATUS_RUNNING 0 d) (s.m.advance t) ((s.m.advance t).set F.CLK_DOM_STATUS_RUNNING 0 0 d) :=
      (OnlyRegs.refl _ _).set rfl
    refine runs_of_engines rfl hi hrun (Mach.plannedStop_far (m := s.m.advance t) hg h0 hf ha hw hr hst hb) (hstop.set rfl) fun hframe hreg => ⟨?_, ?_, hframe⟩
    · rw [Mach.bit_congr (hreg _), Mach.running_set_planned, Mach.bit, Mach.get_set_same _ _ _ _ _ (by decide)]
      rfl
    · rw [Mach.bit_congr (hreg _)]
      exact Mach.planned_set _ d

end Sys2Proof.Machine
end

section
/-! SUPPORT and proof of O10: scheduled frames between their arrival and their place here, or their drop (03_sluice_plans.md R73, R95; 13_routing_deadlock.md R334, R335). -/
namespace Sys2Proof.Machine
namespace Mach

/-! ## Frames received (12_ports_mac.md R319) -/

/-- A 64-bit count after it has counted up: it stops at its largest value. -/
theorem get64_inc64_same (m : Mach) (f : Fld) (n i s : Nat) : (m.inc64 f n i s).get64 f i s = min (m.get64 f i s + n) (2 ^ 64 - 1) := by
  rw [inc64, get64_set64_same]
  omega

/-- A pair apart from the one counted stays. -/
theorem get64_inc64_ne (m : Mach) {f g : Fld} {n i s j u : Nat} (h : fkey g j u ≠ fkey f i s) (h1 : fkey g j u ≠ fkey f i s + 4) (h2 : fkey g j u + 4 ≠ fkey f i s) :
    (m.inc64 f n i s).get64 g j u = m.get64 g j u := by
  rw [get64, inc64, set64_reg_ne m h h1, set64_reg_ne m h2 (by omega), get64]

theorem countRx_spec (m : Mach) (p bytes : Nat) :
    (m.countRx p bytes).get64 F.PORT_RX_FRAMES_LO p = min (m.get64 F.PORT_RX_FRAMES_LO p + 1) (2 ^ 64 - 1) ∧ InRegs (fun _ => True) m (m.countRx p bytes) := by
  refine ⟨?_, (inc64_inRegs m _ _ _ _).trans (inc64_inRegs _ _ _ _ _)⟩
  rw [countRx, get64_inc64_ne, get64_inc64_same] <;>
  · simp only [fkey, regKey]
    omega

/-! ## The head is held for PAD (R73) -/

/-- How long a frame's head is held: PAD of its port's link in the plan of its epoch. -/
abbrev padOf (m : Mach) (p : Nat) (f : SchedFrame) : Nat := (((m.livePlans.find? (fun x => x.epoch == f.epoch)).bind (fun x => x.link p)).map (·.pad)).getD 0

/-- A frame that arrives on a port that is UP is counted, by its tail as accepted or as bad, and its head is held. -/
theorem schedReceived_up {m : Mach} {p : Nat} (h : m.get F.PORT_STATUS_STATE p = 3) (f : SchedFrame) :
    ∃ y, m.schedReceived p f = y.putLode { m.lode with pads := m.lode.pads ++ [{ port := p, at' := m.now + m.padOf p f, frame := f }] } ∧ OnlyRegs (fun _ => True) m y ∧
      (f.tailOk = true → y.get64 F.PORT_RX_FRAMES_LO p = min (m.get64 F.PORT_RX_FRAMES_LO p + 1) (2 ^ 64 - 1)) := by
  rw [schedReceived, if_neg (not_not.2 h)]
  cases f.tailOk with
  | true =>
    obtain ⟨hcount, hregs⟩ := m.countRx_spec p (schedBytes f)
    exact ⟨_, rfl, hregs.only, fun _ => hcount⟩
  | false => exact ⟨m.badFrame p 1, rfl, (OnlyRegs.refl _ m).setReg _ trivial, nofun⟩

/-! ## Where a padded frame goes (R95, R334, R335) -/

/-- The module without a padded frame that it handles now. -/
abbrev padTaken (m : Mach) (x : Padded) : Mach := m.putLode { m.lode with pads := m.lode.pads.erase x }

theorem padTaken_onlyRegs (K : Nat → Prop) (m : Mach) (x : Padded) : OnlyRegs K m (m.padTaken x) := ⟨rfl, rfl, rfl, rfl, fun _ _ => rfl⟩

section
variable {m : Mach} {p : Nat} {x : Padded} (hx : m.lode.pads.find? (fun x => x.port == p && decide (x.at' ≤ m.now)) = some x)
include hx

/-- A frame for this module whose tail is sound is placed here. -/
theorem schedRoute_here {pl : Plan} (hp : m.livePlans.find? (fun pl => pl.epoch == x.frame.epoch) = some pl) (hd : x.frame.dstModule = m.self) (ht : x.frame.tailOk = true) :
    m.schedRoute p = (m.padTaken x).putLode { (m.padTaken x).lode with here := m.lode.here ++ [x] } := by
  have hp' : (m.padTaken x).livePlans.find? (fun pl => pl.epoch == x.frame.epoch) = some pl := hp
  have hd' : x.frame.dstModule = (m.padTaken x).self := hd
  simp only [schedRoute, hx, hp']
  rw [if_pos hd', if_pos ht]
  rfl

/-- A frame for another module that no slot takes in transit from its port is dropped. -/
theorem schedRoute_noSlot {pl : Plan} (hp : m.livePlans.find? (fun pl => pl.epoch == x.frame.epoch) = some pl) (hd : x.frame.dstModule ≠ m.self)
    (hk : ∀ q r, pl.kindIn q r ≠ (3, p)) : m.schedRoute p = (m.padTaken x).inc F.RTE_SCHED_DROP := by
  have hp' : (m.padTaken x).livePlans.find? (fun pl => pl.epoch == x.frame.epoch) = some pl := hp
  have hd' : x.frame.dstModule ≠ (m.padTaken x).self := hd
  simp only [schedRoute, hx, hp', hk, and_false, if_false]
  rw [if_neg hd']
  split
  · rename_i hit
    obtain ⟨q, -, hq⟩ := List.exists_of_findSome?_eq_some hit
    split at hq <;> cases hq
  · rfl

/-- A frame of an epoch that no bank has is dropped. -/
theorem schedRoute_noEpoch (hp : m.livePlans.find? (fun pl => pl.epoch == x.frame.epoch) = none) : m.schedRoute p = (m.padTaken x).epochDrop p := by
  have hp' : (m.padTaken x).livePlans.find? (fun pl => pl.epoch == x.frame.epoch) = none := hp
  simp only [schedRoute, hx, hp']

end

/-- Below the sixteenth in a tide a drop for its epoch is counted, and nothing else. -/
theorem epochDrop_below {m : Mach} {p : Nat} (h : (alGet m.plan.drops p).getD 0 < 15) :
    m.epochDrop p = (m.inc F.SLU_EPOCH_DROP).putPlan { m.plan with drops := alPut m.plan.drops p ((alGet m.plan.drops p).getD 0 + 1) } := by
  have : (alGet m.plan.drops p).getD 0 + 1 ≠ 16 := by omega
  simp only [epochDrop, if_neg this]
  rfl

end Mach

/-- Settles O10: the arrival, then what becomes of a padded frame that is for this module, that has no slot, or whose epoch no bank has. -/
theorem scheduledFrames : Obligations.ScheduledFrames := by
  unfold Obligations.ScheduledFrames
  refine ⟨fun s t p f hi hrun hp hup => ?_, fun s t p x hi hrun hx => ⟨fun pl hpl hd ht => ?_, fun pl hpl hd hk => ?_, fun hpl hdrops => ?_⟩⟩
  · obtain ⟨y, hx, honly, hcount⟩ := Mach.schedReceived_up (m := s.m.advance t) hup f
    refine runs_of_engines rfl hi hrun hx (honly.of_regs rfl rfl rfl rfl rfl) fun hframe hreg => ⟨rfl, fun ht => ?_, hframe.2⟩
    rw [Mach.get64, hreg, hreg]
    exact hcount ht
  · exact runs_of_engines rfl hi hrun (Mach.schedRoute_here (m := s.m.advance t) hx hpl hd ht) ⟨rfl, rfl, rfl, rfl, fun _ _ => rfl⟩ fun hframe _ => ⟨rfl, rfl, hframe⟩
  · have honly : OnlyRegs (fun k => k = keyOf F.RTE_SCHED_DROP) (s.m.advance t) (((s.m.advance t).padTaken x).inc F.RTE_SCHED_DROP) :=
      (Mach.padTaken_onlyRegs _ _ x).setReg _ rfl
    refine runs_of_engines rfl hi hrun (Mach.schedRoute_noSlot (m := s.m.advance t) hx hpl hd hk) honly fun hframe _ => ⟨rfl, ?_, hframe⟩
    exact (settle_get _ _ _ _ _ honly.variant).trans (Mach.get_inc_same _ _ _ _ _ (by decide))
  · have hx' := (Mach.schedRoute_noEpoch (m := s.m.advance t) hx hpl).trans (Mach.epochDrop_below hdrops)
    have honly : OnlyRegs (fun k => k = keyOf F.SLU_EPOCH_DROP) (s.m.advance t) (((s.m.advance t).padTaken x).inc F.SLU_EPOCH_DROP) :=
      (Mach.padTaken_onlyRegs _ _ x).setReg _ rfl
    refine runs_of_engines rfl hi hrun hx' (honly.of_regs rfl rfl rfl rfl rfl) fun hframe _ => ⟨rfl, ?_, alGet_alPut_same _ _ _, hframe⟩
    exact (settle_get _ _ _ _ _ honly.variant).trans (Mach.get_inc_same _ _ _ _ _ (by decide))

end Sys2Proof.Machine
end

section
/-! SUPPORT and proof of O7: the source of a lode, from the acceptance of a frame to the outcome of its descriptor (03_sluice_plans.md R79, R82; 04_lodes_ordering.md R101,
R116; 01_architecture.md R28). -/
namespace Sys2Proof.Machine
namespace Mach

/-! ## Endpoints and submission queues -/

@[simp] theorem ltx_setLtx_same (m : Mach) (l : Nat) (x : LodeTx) : (m.setLtx l x).ltx l = x := by simp [ltx, setLtx, alGet_alPut_same]

@[simp] theorem sq_setSq_same (m : Mach) (k : Nat) (x : Sq) : (m.setSq k x).sq k = x := by simp [sq, setSq, alGet_alPut_same]

theorem sq_setSq_ne (m : Mach) {j k : Nat} (x : Sq) (h : j ≠ k) : (m.setSq k x).sq j = m.sq j := by simp [sq, setSq, alGet_alPut_ne _ _ h]

/-- An outcome that becomes known belongs to the open descriptor of its number alone (05_queues_descriptors.md R145). -/
theorem finish_finished (m : Mach) (k uid : Nat) (c : Comp) : m.Finished (m.finish k uid c) k uid c := by
  refine ⟨?_, fun j hj => by rw [finish, sq_setSq_ne _ _ hj]⟩
  simp only [finish, sq_setSq_same, Bool.and_eq_true, beq_iff_eq, Option.isNone_iff_eq_none]

/-! ## The next frame of a message (R79, R81, R101) -/

/-- The slot of plan `p` that was assigned last, if one of that plan was. -/
def lastSlotIn (x : LodeTx) (p : Plan) : Option Nat := match x.lastSlot with | some (e, n) => if e = p.epoch then some n else none | none => none

/-- Reading a message's bytes takes free values alone: those of accelerator memory. -/
theorem readSegs_eq (m : Mach) (segs : List Seg) : ∃ c, (m.readSegs segs).1 = m.putFreeCtr c := by
  induction segs generalizing m with
  | nil => exact ⟨m.freeCtr, rfl⟩
  | cons s r ih =>
    have hseg : ∃ c, (m.readSeg s).1 = m.putFreeCtr c := by
      unfold readSeg
      split
      · exact ⟨m.freeCtr, rfl⟩
      · split
        · exact ⟨m.freeCtr, rfl⟩
        · exact ⟨_, rfl⟩
    obtain ⟨c, hc⟩ := hseg
    obtain ⟨d, hd⟩ := ih (m.readSeg s).1
    exact ⟨d, hd.trans (by rw [hc]; rfl)⟩

/-- `x` comes after `m` with every endpoint as it was but for its counter of encrypted frames, and no store, link or tile touched. -/
structure TxKept (m x : Mach) : Prop where
  tx : ∀ l, ∃ c, x.ltx l = { m.ltx l with counter := c }
  only : OnlyRegs (fun _ => True) m x

namespace TxKept

theorem trans {x y z : Mach} (h : TxKept x y) (g : TxKept y z) : TxKept x z :=
  ⟨fun l => by
    obtain ⟨c, hc⟩ := h.tx l
    obtain ⟨d, hd⟩ := g.tx l
    exact ⟨d, by rw [hd, hc]⟩, h.only.trans g.only⟩

theorem of_lode {m x : Mach} (hl : x.lode = m.lode) (ho : OnlyRegs (fun _ => True) m x) : TxKept m x := ⟨fun l => ⟨(m.ltx l).counter, by simp only [ltx, hl]⟩, ho⟩

theorem of_regs {m x : Mach} (h : InRegs (fun _ => True) m x) : TxKept m x := .of_lode (by rw [h.file]; rfl) h.only

theorem ite {c : Prop} [Decidable c] {m x y : Mach} (h : TxKept m x) (g : TxKept m y) : TxKept m (if c then x else y) := by
  split <;> assumption

end TxKept

theorem zeroCounters_txKept (m : Mach) (p : Nat) : TxKept m (m.zeroCounters p) := by
  refine ⟨fun l => ?_, rfl, rfl, rfl, rfl, fun _ _ => rfl⟩
  have hmap : ∀ tx : List (Nat × LodeTx), ∃ c, (alGet (tx.map (fun x => if m.lodeKey x.1 = some p then (x.1, { x.2 with counter := 0 }) else x)) l).getD freshTx =
      { (alGet tx l).getD freshTx with counter := c } := by
    intro tx
    induction tx with
    | nil => exact ⟨freshTx.counter, rfl⟩
    | cons x r ih =>
      obtain ⟨k, y⟩ := x
      by_cases hl : l = k
      · by_cases hk : m.lodeKey k = some p
        · exact ⟨0, by simp [alGet, hl, hk]⟩
        · exact ⟨y.counter, by simp [alGet, hl, hk]⟩
      · obtain ⟨c, hc⟩ := ih
        refine ⟨c, ?_⟩
        rw [List.map_cons]
        split <;> simpa only [alGet, if_neg hl] using hc
  exact hmap m.lode.tx

theorem keyRecord_txKept (m : Mach) (p : Nat) : TxKept m (m.keyRecord p) := .of_lode rfl ⟨rfl, rfl, rfl, rfl, fun _ _ => rfl⟩

theorem keySwitch_txKept (m : Mach) (p : Nat) : TxKept m (m.keySwitch p) := by
  unfold keySwitch
  extract_lets x e c o own y z w v
  have hy : TxKept m y := .of_lode rfl ⟨rfl, rfl, rfl, rfl, fun _ _ => rfl⟩
  have hz : InRegs (fun _ => True) y z := (((((InRegs.refl _ y).setReg _ trivial).setReg _ trivial).setReg _ trivial).setReg _ trivial).setReg _ trivial
  have hw : TxKept z w := (TxKept.of_regs (z.set64_inRegs _ _ _ _)).trans (zeroCounters_txKept _ p)
  have hv : TxKept w v := .ite ((TxKept.of_regs (w.set64_inRegs _ 0 0 p)).trans (keyRecord_txKept _ p)) (.of_lode rfl (.refl _ w))
  exact (((hy.trans (.of_regs hz)).trans hw).trans hv).trans (.of_lode rfl ⟨rfl, rfl, rfl, rfl, fun _ _ => rfl⟩)

/-- Counting a frame under its key may switch the key, and changes no endpoint but for its counter (15_cipher.md R382, R384). -/
theorem wireCount_txKept (m : Mach) (p : Nat) : TxKept m (m.wireCount p) := by
  unfold wireCount
  extract_lets y u own
  have hy : TxKept m y := .of_regs (m.set64_inRegs _ _ _ _)
  have hheld : TxKept y (y.set F.CIPH_PAGE_STATUS_HELD 1 0 p) := .of_regs ((InRegs.refl _ y).setReg _ trivial)
  exact .ite hy <| .ite (hy.trans (keySwitch_txKept y p)) <| .ite ((hy.trans hheld).trans (.of_lode rfl ⟨rfl, rfl, rfl, rfl, fun _ _ => rfl⟩)) hy

section
variable {m : Mach} {l : Nat} {p : Plan} {r : LodeOut} {g : LodeMsg} {rest : List LodeMsg} {slot : Nat} {sh : Option Nat}

/-- What the acceptance of a frame makes of its endpoint. -/
structure Accepted (m : Mach) (l : Nat) (p : Plan) (r : LodeOut) (g : LodeMsg) (rest : List LodeMsg) (slot : Nat) (sh : Option Nat) (x : LodeTx) : Prop where
  seq : x.seq = seqNext (m.ltx l).seq
  lastSlot : x.lastSlot = some (p.epoch, slot)
  frames : ∃ a : AccFrame, x.frames = (m.ltx l).frames ++ [a] ∧ a.epoch = p.epoch ∧ a.slot = slot ∧ a.shadowSlot = sh ∧ a.sent = false ∧ a.shadowSent = sh.isNone ∧
    a.frame.seq = (m.ltx l).seq ∧ a.frame.dstLode = r.dstLode ∧ a.frame.frameIdx = g.done ∧ a.frame.first = (g.done == 0) ∧
    a.frame.last = (g.done + 1 == lodeFrames g.len g.flag.isSome g.atomic.isSome) ∧ a.frame.window = g.window ∧ a.frame.woffset = g.woffset + g.done * frameMax
  whole : g.done + 1 = lodeFrames g.len g.flag.isSome g.atomic.isSome → x.queue = rest ∧
    ∃ w : Awaited, x.awaited = (m.ltx l).awaited ++ [w] ∧ w.uid = g.uid ∧ w.sq = g.sq ∧ w.bytes = g.len ∧ w.lastSeq = (m.ltx l).seq ∧ w.lease = m.lease ∧
      w.deadline = p.opening r.port slot + BitVec.ofNat 64 (slotUnits + r.latency)

/-- Where the key of an encrypted lode serves and a slot is left, the oldest message's next frame is accepted; an encrypted one counts under its key. -/
theorem frameAccept_next (hp : m.plan? = some p) (hr : m.outRec l = some r) (hq : (m.ltx l).queue = g :: rest) (hk : r.encrypted = true → m.keyOpen r.keyPage = true)
    (hs : m.nextSlot p r (lastSlotIn (m.ltx l) p) = some (slot, sh)) :
    ∃ c x, Accepted m l p r g rest slot sh x ∧
      m.frameAccept l = if r.encrypted then ((m.putFreeCtr c).setLtx l x).wireCount r.keyPage else (m.putFreeCtr c).setLtx l x := by
  have hheld : (r.encrypted && !m.keyOpen r.keyPage) = false := by
    cases he : r.encrypted with
    | false => rfl
    | true => simp [hk he]
  obtain ⟨c, hc⟩ := m.readSegs_eq (subSegs g.segs (g.done * frameMax) (min frameMax (g.len - g.done * frameMax)))
  simp only [frameAccept, hp, hr, hq, hheld, hc, Bool.false_eq_true, if_false]
  split
  · rename_i hn
    exact absurd (hn.symm.trans hs) nofun
  · rename_i hn
    cases hn.symm.trans hs
    refine ⟨c, _, ?_, rfl⟩
    by_cases hl : g.done + 1 = lodeFrames g.len g.flag.isSome g.atomic.isSome
    · simp only [hl, beq_self_eq_true, if_true]
      exact ⟨rfl, rfl, ⟨_, rfl, rfl, rfl, rfl, rfl, rfl, rfl, rfl, rfl, rfl, by simp [hl], rfl, rfl⟩, fun _ => ⟨rfl, _, rfl, rfl, rfl, rfl, rfl, rfl, rfl⟩⟩
    · simp only [beq_iff_eq, hl, if_false]
      exact ⟨rfl, rfl, ⟨_, rfl, rfl, rfl, rfl, rfl, rfl, rfl, rfl, rfl, rfl, rfl, rfl, rfl⟩, fun h => absurd h hl⟩

end

/-! ## The outcome of a descriptor whose frames were accepted (R116; 05_queues_descriptors.md R145) -/

/-- The outcome at the deadline of an awaited message. -/
abbrev atDeadline (w : Awaited) (status : Nat) : Comp := { status := status, bytes := w.bytes, deadline := true, time := w.deadline.toNat, detail := 0 }

/-- The message is awaited no more, its descriptor has its outcome, and the rest stays. -/
theorem lodeComplete_spec (m : Mach) (l : Nat) (w : Awaited) (status : Nat) :
    ((m.lodeComplete l w status 0).ltx l).awaited = (m.ltx l).awaited.filter (fun y => y.uid != w.uid) ∧
      m.Finished (m.lodeComplete l w status 0) w.sq w.uid (atDeadline w status) ∧ OnlyRegs (fun _ => False) m (m.lodeComplete l w status 0) := by
  unfold lodeComplete
  exact ⟨congrArg LodeTx.awaited (ltx_setLtx_same m l _), finish_finished _ _ _ _, rfl, rfl, rfl, rfl, fun _ _ => rfl⟩

/-- A lode without a path gives up at the deadline (01_architecture.md R28). -/
theorem deadlineTimeout_due {m : Mach} {l : Nat} {r : LodeOut} {w : Awaited} {rest : List Awaited} (hr : m.outRec l = some r) (hw : (m.ltx l).awaited = w :: rest)
    (hp : m.lodeHasPath r = false) (hd : reached m.polder w.deadline = true) : m.deadlineTimeout l = m.lodeComplete l w stRemoteTimeout 0 := by
  simp only [deadlineTimeout, hr, hw]
  exact if_pos ⟨hp, hd⟩

/-- Without a receipt the message times out a lease period after the deadline. -/
theorem receiptTimeout_due {m : Mach} {l : Nat} {w : Awaited} {rest : List Awaited} (hw : (m.ltx l).awaited = w :: rest)
    (hd : reached m.polder (w.deadline + BitVec.ofNat 64 w.lease) = true) : m.receiptTimeout l = m.lodeComplete l w stRemoteTimeout 0 := by
  simp only [receiptTimeout, hw]
  exact if_pos hd

/-- A receipt of outcome DONE that spans one awaited message completes it. -/
theorem receiptReceived_done {m : Mach} {c : CtlMsg} {l : Nat} {w : Awaited} (hf : m.beq.ctl.find? (fun c => leAt c.bytes 0 1 / 16 == 3) = some c)
    (hst : leAt (c.bytes.drop 32) 1 1 = stDone) (hl : leAt (c.bytes.drop 32) 4 4 = l)
    (hw : (m.ltx l).awaited.filter (fun w => seqLe (leAt (c.bytes.drop 32) 8 4) w.firstSeq && seqLe w.lastSeq (leAt (c.bytes.drop 32) 12 4)) = [w]) :
    m.receiptReceived = ((m.putBeq { m.beq with ctl := m.beq.ctl.erase c }).putFreeCtr (m.freeCtr + 1)).lodeComplete l w stDone 0 := by
  have hw' : ((m.putBeq { m.beq with ctl := m.beq.ctl.erase c }).ltx l).awaited.filter
      (fun w => seqLe (leAt (c.bytes.drop 32) 8 4) w.firstSeq && seqLe w.lastSeq (leAt (c.bytes.drop 32) 12 4)) = [w] := hw
  simp only [receiptReceived, hf, receiptTake, hst, hl, if_true, hw']
  rfl

end Mach

/-- Settles O7: the next frame, then the three ends of a message that awaits its receipt. -/
theorem lodeSource : Obligations.LodeSource := by
  unfold Obligations.LodeSource
  refine ⟨?_, ?_, ?_, ?_⟩
  · intro s t l p r g rest slot sh hi hrun hp hr hq hk hs
    obtain ⟨c, x, hacc, hx⟩ := Mach.frameAccept_next (m := s.m.advance t) hp hr hq hk hs
    set y := ((s.m.advance t).putFreeCtr c).setLtx l x with hy
    have hkept : Mach.TxKept y ((s.m.advance t).frameAccept l) := hx ▸ .ite (Mach.wireCount_txKept y r.keyPage) (.of_lode rfl (.refl _ y))
    have hm : OnlyRegs (fun _ => True) (s.m.advance t) y := ⟨rfl, rfl, rfl, rfl, fun _ _ => rfl⟩
    obtain ⟨d, hd⟩ := hkept.tx l
    rw [hy, Mach.ltx_setLtx_same] at hd
    obtain ⟨a, hframes, ha⟩ := hacc.frames
    refine runs_of_engines rfl hi hrun rfl (hm.trans hkept.only) fun hframe _ =>
      ⟨(congrArg LodeTx.seq hd).trans hacc.seq, (congrArg LodeTx.lastSlot hd).trans hacc.lastSlot,
        fun _ => ⟨a, (congrArg LodeTx.frames hd).trans hframes, ha⟩, fun hl => ?_, hframe.2⟩
    obtain ⟨hqueue, w, hawaited, hw⟩ := hacc.whole hl
    exact ⟨(congrArg LodeTx.queue hd).trans hqueue, w, (congrArg LodeTx.awaited hd).trans hawaited, hw⟩
  · intro s t l r w rest hi hrun hr hw hp hd
    obtain ⟨hawaited, hfin, honly⟩ := (s.m.advance t).lodeComplete_spec l w stRemoteTimeout
    exact runs_of_engines rfl hi hrun (Mach.deadlineTimeout_due (m := s.m.advance t) hr hw hp hd) honly fun hframe _ =>
      ⟨hawaited.trans (congrArg _ hw), hfin, hframe⟩
  · intro s t l w rest hi hrun hw hd
    obtain ⟨hawaited, hfin, honly⟩ := (s.m.advance t).lodeComplete_spec l w stRemoteTimeout
    exact runs_of_engines rfl hi hrun (Mach.receiptTimeout_due (m := s.m.advance t) hw hd) honly fun hframe _ => ⟨hawaited.trans (congrArg _ hw), hfin, hframe⟩
  · intro s t l c w hi hrun hf hst hl hw
    obtain ⟨hawaited, hfin, honly⟩ :=
      (((s.m.advance t).putBeq { s.m.beq with ctl := s.m.beq.ctl.erase c }).putFreeCtr (s.m.freeCtr + 1)).lodeComplete_spec l w stDone
    have hm : OnlyRegs (fun _ => False) (s.m.advance t) (((s.m.advance t).putBeq { s.m.beq with ctl := s.m.beq.ctl.erase c }).putFreeCtr (s.m.freeCtr + 1)) :=
      ⟨rfl, rfl, rfl, rfl, fun _ _ => rfl⟩
    exact runs_of_engines rfl hi hrun (Mach.receiptReceived_done (m := s.m.advance t) hf hst hl hw) (hm.trans honly) fun hframe _ => ⟨hawaited, hfin, rfl, hframe⟩

end Sys2Proof.Machine
end

section
/-! SUPPORT. What a translation changes and leaves alone (06_translation_windows.md R156 to R163). -/
namespace Sys2Proof.Machine

/-- `y` comes after `x` with queues, lodes and polder time as they were, and only the registers changed that a translation may write. -/
structure XltTouch (x y : Mach) : Prop where
  qe : y.qe = x.qe
  lode : y.lode = x.lode
  polder : y.polder = x.polder
  only : OnlyRegs xltKey x y

namespace XltTouch

theorem refl (x : Mach) : XltTouch x x := ⟨rfl, rfl, rfl, .refl _ x⟩

theorem trans {x y z : Mach} (h : XltTouch x y) (g : XltTouch y z) : XltTouch x z :=
  ⟨g.qe.trans h.qe, g.lode.trans h.lode, g.polder.trans h.polder, h.only.trans g.only⟩

theorem ite {c : Prop} [Decidable c] {x y z : Mach} (h : XltTouch x y) (g : XltTouch x z) : XltTouch x (if c then y else z) := by
  split <;> assumption

theorem of_fltOnly {x y : Mach} (h : FltOnly x y) : XltTouch x y :=
  ⟨h.touch.qe, h.touch.lode, h.touch.polder, (OnlyRegs.of_fltOnly h).mono fun _ => .inl⟩

theorem setReg (x : Mach) {k : Nat} (w : Word) (hk : xltKey k) : XltTouch x (x.setReg k w) := ⟨rfl, rfl, rfl, (OnlyRegs.refl _ x).setReg w hk⟩

theorem set (x : Mach) {f : Fld} {v i s : Nat} (hk : xltKey (keyOf f i s)) : XltTouch x (x.set f v i s) := setReg x _ hk

theorem inc (x : Mach) {f : Fld} {n i s : Nat} (hk : xltKey (keyOf f i s)) : XltTouch x (x.inc f n i s) := setReg x _ hk

theorem freshBit (x : Mach) : XltTouch x x.freshBit.2 := ⟨rfl, rfl, rfl, rfl, rfl, rfl, rfl, fun _ _ => rfl⟩

theorem putXlt (x : Mach) (y : XltSt) : XltTouch x (x.putXlt y) := ⟨rfl, rfl, rfl, rfl, rfl, rfl, rfl, fun _ _ => rfl⟩

theorem cipherFailed (x : Mach) (n : Nat) : XltTouch x (x.cipherFailed n) := ⟨rfl, rfl, rfl, rfl, rfl, rfl, rfl, fun _ _ => rfl⟩

end XltTouch

namespace Mach

theorem freshBit_to {m n : Mach} {b : Bool} (h : m.freshBit = (b, n)) : XltTouch m n := by
  have := XltTouch.freshBit m
  rwa [h] at this

theorem cacheGet_xltTouch (m : Mach) (h a lvl tag : Nat) : XltTouch m (m.cacheGet h a lvl tag).1 := by
  unfold cacheGet
  split
  · exact .refl m
  · split
    rename_i hb
    split
    · exact freshBit_to hb
    · exact (freshBit_to hb).trans (.putXlt _ _)

theorem cacheGet_to {m n : Mach} {h a lvl tag : Nat} {o : Option Nat} (hc : m.cacheGet h a lvl tag = (n, o)) : XltTouch m n := by
  have := m.cacheGet_xltTouch h a lvl tag
  rwa [hc] at this

/-- An entry that is looked up is counted as hit or miss. -/
theorem walkEntry_to {m n : Mach} {h a va lvl table : Nat} {x : Bool × Except (Nat × Nat) Nat} (hw : m.walkEntry h a va lvl table = (n, x)) : XltTouch m n := by
  unfold walkEntry at hw
  split at hw <;> rename_i hc <;> cases hw
  · exact (cacheGet_to hc).trans (.inc _ (by decide))
  · exact (cacheGet_to hc).trans (.inc _ (by decide))

/-- A walk fills the cache level by level, and counts. -/
theorem walkFrom_xltTouch (m : Mach) (h a va acc lvl table : Nat) : XltTouch m (m.walkFrom h a va acc lvl table).1 := by
  have cached : ∀ (n : Mach) (hit : Bool) (e : XltEntry), XltTouch n (if hit = true then n else n.cachePut e) := fun n _ _ => .ite (.refl n) (.putXlt _ _)
  fun_induction walkFrom m h a va acc lvl table with
  | case1 m lvl table n hit st r hw => exact walkEntry_to hw
  | case2 m lvl table n hit e hw st r hf => exact walkEntry_to hw
  | case3 m lvl table n hit e hw hf y hl => exact (walkEntry_to hw).trans (cached _ _ _)
  | case4 m table n hit e hl hw hf y => exact (walkEntry_to hw).trans (cached _ _ _)
  | case5 m table n hit e hl lvl hw hf y ih => exact ((walkEntry_to hw).trans (cached _ _ _)).trans ih

theorem walk_to {m n : Mach} {h a va acc : Nat} {r : WalkRes} (hw : m.walk h a va acc = (n, r)) : XltTouch m n := by
  unfold walk at hw
  extract_lets s k root res at hw
  have hres : XltTouch m res.1 := by
    simp only [res]
    split
    · exact .inc m (by decide)
    · exact m.walkFrom_xltTouch h a va acc 3 root
  clear_value res
  obtain ⟨y, o⟩ := res
  split at hw
  · cases hw
    exact .refl m
  · split at hw
    · split at hw
      rename_i hb
      cases hw
      exact freshBit_to hb
    · split at hw
      · cases hw
        exact .refl m
      · cases o with
        | leaf e lvl =>
          have hy := congrArg Prod.fst hw
          simp only [apply_ite Prod.fst, ite_self] at hy
          exact hy ▸ hres
        | fail => cases hw; exact hres

/-- A failed walk is captured and reported to the fault collector (R158, R392). -/
theorem walkFail_xltTouch (m : Mach) (h a va unit status reason lvl acc : Nat) : XltTouch m (m.walkFail h a va unit status reason lvl acc) := by
  unfold walkFail
  extract_lets y
  have hy : XltTouch m y := by
    have info : ∀ (z : Mach) (f : Fld) (v : Nat), keyOf f = keyOf F.XLT_FAULT_INFO_VALID → XltTouch z (z.set f v) := fun z f v hf =>
      .set z (by rw [hf]; decide)
    have captured := (((((info m _ 1 rfl).trans (info _ F.XLT_FAULT_INFO_REASON reason rfl)).trans (info _ F.XLT_FAULT_INFO_LEVEL lvl rfl)).trans
      (info _ F.XLT_FAULT_INFO_ACCESS acc rfl)).trans (info _ F.XLT_FAULT_INFO_HERD h rfl)).trans (info _ F.XLT_FAULT_INFO_ASID a rfl)
    exact .ite (.refl m) ((captured.trans (.setReg _ _ (by decide))).trans (.setReg _ _ (by decide)))
  exact hy.trans (.of_fltOnly (.fault y srcXlt kFailed _ (by decide) (by decide)))

/-- The check of a piece at its serving memory counts and captures a failure (R160). -/
theorem leafCheck_to {m n : Mach} {h a acc unit lvl : Nat} {s : Seg} {o : Option (Nat × Nat)} (hc : m.leafCheck h a acc unit lvl s = (n, o)) : XltTouch m n := by
  unfold leafCheck at hc
  split at hc
  · extract_lets y at hc
    cases hc
    exact (XltTouch.ite (m.walkFail_xltTouch _ _ _ _ _ _ _ _) (.refl m)).trans (.ite (.inc _ (by decide)) (.refl _))
  · split at hc <;> cases hc
    · exact .cipherFailed m _
    · exact .refl m

/-- A transfer tile walks and checks page by page (R161). -/
theorem tilePages_xltTouch (m : Mach) (h a acc unit fuel va len : Nat) : XltTouch m (m.tilePages h a acc unit fuel va len).1 := by
  fun_induction tilePages m h a acc unit fuel va len with
  | case1 | case2 => exact .refl _
  | case3 m fuel va len hl n st r lvl acc' hw => exact (walk_to hw).trans (walkFail_xltTouch n _ _ _ _ _ _ _ _)
  | case4 m fuel va len hl n e lvl hw s z err hc => exact (walk_to hw).trans (leafCheck_to hc)
  | case5 m fuel va len hl n e lvl hw s z hc w r ht ih => exact ((walk_to hw).trans (leafCheck_to hc)).trans (by rwa [ht] at ih)
  | case6 m fuel va len hl n e lvl hw s z hc ht ih => exact ((walk_to hw).trans (leafCheck_to hc)).trans ih

theorem tile_to {m n : Mach} {h a acc unit va len : Nat} {r : Except (Nat × Nat) (List Seg)} (ht : m.tile h a acc unit va len = (n, r)) : XltTouch m n := by
  have := m.tilePages_xltTouch h a acc unit (len / 4096 + 2) va len
  rw [tile] at ht
  rwa [ht] at this

end Mach
end Sys2Proof.Machine
end

section
/-! SUPPORT and proof of O6: the dispatch of a lode descriptor and what becomes of it (05_queues_descriptors.md R139, R140, R143; 06_translation_windows.md R156 to R161;
03_sluice_plans.md R78, R94). -/
namespace Sys2Proof.Machine
namespace Mach

/-! ## Submission queues -/

theorem putQe_putQe (m : Mach) (e f : QeSt) : (m.putQe e).putQe f = m.putQe f := rfl

theorem setSq_putQe (m : Mach) (e : QeSt) (k : Nat) (x : Sq) : (m.putQe e).setSq k x = m.putQe { e with sqs := alPut e.sqs k x } := rfl

/-- The arbiter's choice moves its own state alone (05_queues_descriptors.md R143). -/
theorem arbPick_eq {m n : Mach} {k : Nat} (h : m.arbPick = some (k, n)) : ∃ q, n = m.putQe q ∧ q.sqs = m.qe.sqs ∧ q.nextUid = m.qe.nextUid := by
  simp only [arbPick] at h
  split at h
  · cases h
    exact ⟨_, rfl, rfl, rfl⟩
  · split at h
    · cases h
      exact ⟨_, rfl, rfl, rfl⟩
    · cases h
      exact ⟨_, rfl, rfl, rfl⟩
    · cases h

/-- `x` is `m` but for the state of the queue engine; queue `k` holds the descriptors that it held. -/
structure DescsKept (k : Nat) (m x : Mach) : Prop where
  engine : x = m.putQe x.qe
  fetched : (x.sq k).fetched = (m.sq k).fetched
  out : (x.sq k).out = (m.sq k).out
  nextUid : x.qe.nextUid = m.qe.nextUid
  lastDispatch : x.qe.lastDispatch = m.qe.lastDispatch

theorem DescsKept.refl (k : Nat) (m : Mach) : DescsKept k m m := ⟨rfl, rfl, rfl, rfl, rfl⟩

/-- A read that starts leaves the descriptors of its queue as they are (R135). -/
theorem startRead_descsKept (m : Mach) (k : Nat) (timed : Bool) : DescsKept k m (m.startRead k timed) := by
  unfold startRead
  extract_lets x n pre head count
  have hset : ∀ y : Sq, y.fetched = (m.sq k).fetched → y.out = (m.sq k).out → DescsKept k m (m.setSq k y) := fun y hf ho =>
    ⟨rfl, by rw [sq_setSq_same, hf], by rw [sq_setSq_same, ho], rfl, rfl⟩
  split
  · exact .refl k m
  · split
    · exact hset _ rfl rfl
    · split
      · exact .refl k m
      · exact hset _ rfl rfl

/-! ## Dispatch (R139, R143) -/

/-- Whether a key is that of the status register of queue `k`. -/
abbrev idleKey (k x : Nat) : Prop := x = keyOf F.QE_SQ_STATUS_IDLE 0 k

theorem sqIdle_inRegs (m : Mach) (k : Nat) : InRegs (idleKey k) m (m.sqIdle k) := (InRegs.refl _ m).set rfl

/-- Descriptor `d` has its place in submission order, and nothing but the queue engine and the queue's status register has changed. -/
structure Dispatched (m : Mach) (k : Nat) (d : Desc) (y : Mach) : Prop where
  placed : m.Placed y k d none
  engine : ∃ q, InRegs (idleKey k) (m.putQe q) y

namespace Dispatched

variable {m y : Mach} {k : Nat} {d : Desc} (h : Dispatched m k d y)
include h

theorem regs : RegsBut (idleKey k) m y := by
  obtain ⟨q, hq⟩ := h.engine
  exact hq.regs

theorem file : ∃ q r, y = (m.putQe q).putRegs r := by
  obtain ⟨q, hq⟩ := h.engine
  exact ⟨q, _, hq.file⟩

theorem only : OnlyRegs (idleKey k) m y := by
  obtain ⟨q, hq⟩ := h.engine
  exact ⟨hq.only.variant, hq.only.wr, hq.only.downs, hq.only.tileDowns, hq.regs⟩

/-- A field of a register other than the queue's status is as before. -/
theorem get {f : Fld} {i s : Nat} (hf : (f.addr + f.step * i) % regSpan ≠ F.QE_SQ_STATUS_IDLE.addr) : y.get f i s = m.get f i s := by
  refine h.regs.get fun hk => hf ?_
  have := congrArg (· % regSpan) hk
  simpa [keyOf, fkey, regKey, Nat.add_mul_mod_self_left, regSpan] using this

theorem outRec (l : Nat) : y.outRec l = m.outRec l := by
  have hs : ∀ b, y.bankState b = m.bankState b := bankState_congr (h.regs _ (by simp only [idleKey, keyOf, fkey, regKey, regSpan]; omega))
  obtain ⟨q, r, hy⟩ := h.file
  have hp : y.plan = m.plan := by rw [hy]; rfl
  simp only [Mach.outRec, plan?, active, unloading, retiring, bankIn, bank, hs, hp]

end Dispatched

/-- Checks 1 to 5 of a descriptor come out the same once it has its place. -/
theorem formatChecks_dispatched {m y : Mach} {k : Nat} {d : Desc} (h : Dispatched m k d y) : y.formatChecks d = m.formatChecks d := by
  have hu : y.unitsPresent d = m.unitsPresent d := by
    have hb : ∀ f : Fld, f.addr + f.step * 0 < regSpan → f.addr + f.step * 0 ≠ F.QE_SQ_STATUS_IDLE.addr → y.bit f = m.bit f := fun f hr hf => by
      rw [bit, h.get (by rwa [Nat.mod_eq_of_lt hr]), bit]
    simp only [unitsPresent, hb F.ID_CAP3_LODES (by decide) (by decide), hb F.ID_CAP3_ATOMIC64 (by decide) (by decide), hb F.ID_CAP3_ROCEV2_RC (by decide) (by decide),
      hb F.ID_CAP3_COLL (by decide) (by decide), hb F.ID_CAP0_CHURN_VECTOR (by decide) (by decide)]
  simp only [formatChecks, hu]

theorem sqHerd_dispatched {m y : Mach} {k : Nat} {d : Desc} (h : Dispatched m k d y) (j : Nat) : y.sqHerd j = m.sqHerd j := h.get (by decide)

theorem malformedReason_dispatched {m y : Mach} {k : Nat} {d : Desc} (h : Dispatched m k d y) (j : Nat) (b : Bool) : y.malformedReason j d b = m.malformedReason j d b := by
  have ha : ∀ g a, y.asEnabled g a = m.asEnabled g a := fun g a => by simp only [asEnabled, bit, h.get (f := F.XLT_AS_CFG_ENABLE) (i := 0) (by decide)]
  simp only [malformedReason, sqHerd_dispatched h, ha]

theorem lodeForeign_dispatched {m y : Mach} {k : Nat} {d : Desc} (h : Dispatched m k d y) (j : Nat) : y.lodeForeign j d = m.lodeForeign j d := by
  simp only [lodeForeign, h.outRec, sqHerd_dispatched h]

/-- What giving a descriptor its place does to its queue. -/
theorem place_spec (m : Mach) (k : Nat) (d : Desc) :
    (m.place k d.index d.tag d.opcode).2 = m.qe.nextUid ∧ (m.place k d.index d.tag d.opcode).1.qe.nextUid = m.qe.nextUid + 1 ∧
      (m.place k d.index d.tag d.opcode).1.qe.lastDispatch = m.qe.lastDispatch ∧ ((m.place k d.index d.tag d.opcode).1.sq k).fetched = (m.sq k).fetched ∧
      ((m.place k d.index d.tag d.opcode).1.sq k).out = (m.sq k).out ++ [{ uid := m.qe.nextUid, index := d.index, tag := d.tag, opcode := d.opcode, comp := none }] ∧
      ∃ q, InRegs (idleKey k) (m.putQe q) (m.place k d.index d.tag d.opcode).1 := by
  have hq : ∀ y : Mach, (y.sqIdle k).qe = y.qe := fun y => by rw [(y.sqIdle_inRegs k).file]; rfl
  have hs : ∀ y : Mach, (y.sqIdle k).sq k = y.sq k := fun y => by simp only [sq, hq]
  refine ⟨rfl, ?_, ?_, ?_, ?_, _, sqIdle_inRegs _ k⟩
  · simp only [place, hq]
    rfl
  · simp only [place, hq]
    rfl
  · simp only [place, hs, sq_setSq_same]
    rfl
  · simp only [place, hs, sq_setSq_same]
    rfl

/-- The module once the arbiter's choice, made in `n`, has taken its oldest descriptor off queue `k`; a read that stood paused goes on. -/
def headTaken (m n : Mach) (k : Nat) (rest : List Desc) : Mach :=
  let y := n.putQe { n.qe with lastDispatch := m.now }
  let z := y.setSq k { y.sq k with fetched := rest, paused := false }
  if (y.sq k).paused then z.startRead k false else z

theorem headTaken_spec {m n : Mach} {k : Nat} (h : m.arbPick = some (k, n)) (rest : List Desc) :
    m.headTaken n k rest = m.putQe (m.headTaken n k rest).qe ∧ ((m.headTaken n k rest).sq k).fetched = rest ∧ ((m.headTaken n k rest).sq k).out = (m.sq k).out ∧
      (m.headTaken n k rest).qe.nextUid = m.qe.nextUid ∧ (m.headTaken n k rest).qe.lastDispatch = m.now := by
  obtain ⟨q, rfl, hsqs, huid⟩ := arbPick_eq h
  have hsq : ∀ x, ((m.putQe q).putQe { q with lastDispatch := x }).sq k = m.sq k := fun x => by simp only [sq, putQe_qe, hsqs]
  unfold headTaken
  extract_lets _ y _ z
  have hz : DescsKept k z (if (y.sq k).paused then z.startRead k false else z) := by
    split
    · exact z.startRead_descsKept k false
    · exact .refl k z
  have hzm : ∀ e, z.putQe e = m.putQe e := fun e => by simp only [z, y, setSq_putQe, putQe_putQe]
  refine ⟨hz.engine.trans (hzm _), ?_, ?_, hz.nextUid.trans huid, hz.lastDispatch⟩
  · rw [hz.fetched, sq_setSq_same]
  · rw [hz.out, sq_setSq_same]
    exact (congrArg Sq.out (hsq m.now) :)

/-- The descriptor that the arbiter's choice dispatches gets its place, and its row runs it. -/
theorem dispatch_runs {m : Mach} {k : Nat} {d : Desc} {b : Bool} {row : Desc → Bool} {foreign : Mach → Desc → Bool} (run : Mach → Desc → Nat → Mach)
    (h : m.Dispatches k d b) (hrow : row d = true) (hf : ∀ y, Dispatched m k d y → foreign y d = b) :
    ∃ y, Dispatched m k d y ∧ m.dispatch k row foreign run = run y d m.qe.nextUid := by
  obtain ⟨⟨hstop, hhalt, hsleep⟩, hlast, hpick, hhead, hformat, hmal, -⟩ := h
  obtain ⟨⟨j, n⟩, hn, rfl⟩ := Option.map_eq_some_iff.1 hpick
  obtain ⟨q, hq, hsqs, huid⟩ := arbPick_eq hn
  obtain ⟨rest, hrest⟩ : ∃ rest, (m.sq j).fetched = d :: rest := by
    cases hc : (m.sq j).fetched with
    | nil => simp [hc] at hhead
    | cons e r => exact ⟨r, by simpa [hc] using hhead⟩
  have hlate : ¬ (m.failStop ∨ m.halted ∨ m.asleep ∨ m.now < m.qe.lastDispatch + 2 * ns) := by
    simp [hstop, hhalt, hsleep, hlast]
  have hgo : ¬ (j ≠ j ∨ (row d = false ∧ d.bits 0 0 4 = 1 ∧ opcodes.contains d.opcode ∧ operandListed d)) := by simp [hrow]
  obtain ⟨hengine, hfetched, hout, hnext, hdisp⟩ := headTaken_spec hn rest
  obtain ⟨hu, hpnext, hpdisp, hpfetched, hpout, q, hpregs⟩ := (m.headTaken n j rest).place_spec j d
  have hy : Dispatched m j d ((m.headTaken n j rest).place j d.index d.tag d.opcode).1 := by
    refine ⟨⟨hpdisp.trans hdisp, hpnext.trans (congrArg (· + 1) hnext), ?_, ?_⟩, q, ?_⟩
    · rw [hpfetched, hfetched, hrest, List.tail_cons]
    · rw [hpout, hout, hnext]
    · rw [hengine] at hpregs ⊢
      exact hpregs
  have hchecks := (formatChecks_dispatched hy).trans hformat
  have hsound := (malformedReason_dispatched hy j b).trans hmal
  rw [← hf _ hy] at hsound
  refine ⟨_, hy, ?_⟩
  simp only [dispatch, if_neg hlate, hn, hrest, if_neg hgo]
  refine (if_neg fun hc => Bool.noConfusion (hchecks.symm.trans hc)).trans ?_
  split
  · rename_i hr
    exact absurd (hsound.symm.trans hr) nofun
  · exact congrArg (run _ d) (hu.trans hnext)

/-! ## The outcome of a lode descriptor (R78, R94) -/

theorem ltx_of_lode {m x : Mach} (h : x.lode = m.lode) (l : Nat) : x.ltx l = m.ltx l := by simp only [ltx, h]

theorem Placed.of_qe {m y z : Mach} {k : Nat} {d : Desc} {c : Option Comp} (h : m.Placed y k d c) (hq : z.qe = y.qe) : m.Placed z k d c := by
  simpa only [Placed, sq, hq] using h

/-- An outcome goes to the descriptor dispatched last: those before it have smaller numbers. -/
theorem Placed.finish {m y : Mach} {k : Nat} {d : Desc} (h : m.Placed y k d none) (hlt : ∀ o ∈ (m.sq k).out, o.uid < m.qe.nextUid) (c : Comp) :
    m.Placed (y.finish k m.qe.nextUid c) k d (some c) := by
  obtain ⟨hlast, hnext, hfetched, hout⟩ := h
  have hsq : (y.finish k m.qe.nextUid c).sq k =
      { y.sq k with out := (y.sq k).out.map (fun o => if o.uid == m.qe.nextUid && o.comp.isNone then { o with comp := some c } else o) } := sq_setSq_same _ _ _
  refine ⟨hlast, hnext, by rw [hsq, hfetched], ?_⟩
  have hold : (m.sq k).out.map (fun o => if o.uid == m.qe.nextUid && o.comp.isNone then { o with comp := some c } else o) = (m.sq k).out := by
    refine (List.map_congr_left fun o ho => if_neg ?_).trans (List.map_id _)
    simp [(hlt o ho).ne]
  simp only [hsq, hout, List.map_append, hold]
  simp

/-- The message that descriptor `d`, the one of number `u` of queue `k`, makes of the source pieces `segs`. -/
def lodeMsg (k : Nat) (d : Desc) (u : Nat) (atomic : Bool) (segs : List Seg) : LodeMsg where
  sq := k
  uid := u
  segs := segs
  len := if atomic then 0 else d.length
  window := d.bits 3 0 32
  woffset := d.bits 4 0 64
  flag := if d.flag then some (d.bits 5 0 32, d.bits 6 0 64, d.bits 7 0 64) else none
  atomic := if atomic then some (d.bits 2 0 8, d.bits 5 0 64) else none
  resync := d.resync
  done := 0
  firstSeq := 0

/-- The module once that message stands last in the queue of its lode. -/
def lodeJoined (m : Mach) (k : Nat) (d : Desc) (u : Nat) (atomic : Bool) (segs : List Seg) : Mach :=
  m.setLtx d.target { m.ltx d.target with queue := (m.ltx d.target).queue ++ [lodeMsg k d u atomic segs] }

section
variable {m : Mach} {k u : Nat} {d : Desc} {r : LodeOut} {atomic : Bool}

theorem lodePost_absent (h : m.outRec d.target = none) : m.lodePost k d u atomic = m.complete k u stPlanAbsent 0 0 := by
  simp only [lodePost, h]

/-- A message without a payload joins at once. -/
theorem lodePost_bare (hr : m.outRec d.target = some r) (hcap : lodeBytes (if atomic then 0 else d.length) d.flag atomic ≤ r.slots * frameMax)
    (h : atomic = true ∨ d.length = 0) : m.lodePost k d u atomic = m.lodeJoined k d u atomic [] := by
  have hb : (atomic = true ∨ (if atomic then 0 else d.length) = 0) := h.imp_right fun hl => by simp [hl]
  simp only [lodePost, hr, if_neg (Nat.not_lt.2 hcap), if_pos hb]
  rfl

/-- A LODE_WRITE within its lode's capacity joins with the pieces of its source range, or, where it has a payload, ends with the status of the range's check. -/
theorem lodePost_write (hr : m.outRec d.target = some r) (hcap : lodeBytes d.length d.flag false ≤ r.slots * frameMax) :
    ∃ z, XltTouch m z ∧
      ((∃ segs, m.lodePost k d u false = z.lodeJoined k d u false segs) ∨ d.length ≠ 0 ∧ ∃ st a, m.lodePost k d u false = z.complete k u st 0 a) := by
  by_cases hl : d.length = 0
  · exact ⟨m, .refl m, .inl ⟨[], lodePost_bare hr hcap (.inr hl)⟩⟩
  · obtain ⟨z, res, ht⟩ : ∃ z res, m.tile (m.sqHerd k) d.asid accRead srcQe (d.bits 2 0 64) d.length = (z, res) := ⟨_, _, rfl⟩
    have hpost : m.lodePost k d u false = match res with | .ok segs => z.lodeJoined k d u false segs | .error e => z.complete k u e.1 0 e.2 := by
      simp only [lodePost, hr, Bool.false_eq_true, if_false, if_neg (Nat.not_lt.2 hcap), false_or, if_neg hl, ht]
      cases res <;> rfl
    refine ⟨z, tile_to ht, ?_⟩
    cases res with
    | ok segs => exact .inl ⟨segs, hpost⟩
    | error e => exact .inr ⟨hl, e.1, e.2, hpost⟩

end

/-- Descriptor `d` has its place, the lodes and polder time are as they were, and only registers that `K` names have changed. -/
structure Checked (K : Nat → Prop) (m : Mach) (k : Nat) (d : Desc) (y : Mach) : Prop where
  placed : m.Placed y k d none
  lode : y.lode = m.lode
  polder : y.polder = m.polder
  only : OnlyRegs K m y

theorem Dispatched.checked {m y : Mach} {k : Nat} {d : Desc} (h : Dispatched m k d y) : Checked (idleKey k) m k d y := by
  obtain ⟨q, r, hy⟩ := h.file
  exact ⟨h.placed, by rw [hy]; rfl, by rw [hy]; rfl, h.only⟩

/-- A source range is checked between the dispatch and the outcome. -/
theorem Dispatched.checked_xlt {m y z : Mach} {k : Nat} {d : Desc} (h : Dispatched m k d y) (g : XltTouch y z) : Checked (fun x => xltKey x ∨ idleKey k x) m k d z :=
  ⟨h.placed.of_qe g.qe, g.lode.trans h.checked.lode, g.polder.trans h.checked.polder, (h.only.mono fun _ => .inr).trans (g.only.mono fun _ => .inl)⟩

namespace Checked

variable {K : Nat → Prop} {m y : Mach} {k : Nat} {d : Desc} (h : Checked K m k d y)
include h

/-- The descriptor's message joins its lode's queue. -/
theorem joined (atomic : Bool) (segs : List Seg) :
    m.Placed (y.lodeJoined k d m.qe.nextUid atomic segs) k d none ∧
      ((y.lodeJoined k d m.qe.nextUid atomic segs).ltx d.target).queue = (m.ltx d.target).queue ++ [lodeMsg k d m.qe.nextUid atomic segs] ∧
      ((y.lodeJoined k d m.qe.nextUid atomic segs).ltx d.target).seq = (m.ltx d.target).seq ∧
      OnlyRegs K m (y.lodeJoined k d m.qe.nextUid atomic segs) := by
  refine ⟨h.placed.of_qe rfl, ?_, ?_, h.only.trans ⟨rfl, rfl, rfl, rfl, fun _ _ => rfl⟩⟩
  · rw [lodeJoined, ltx_setLtx_same, ltx_of_lode h.lode]
  · rw [lodeJoined, ltx_setLtx_same, ltx_of_lode h.lode]

/-- The descriptor ends with a status and no bytes moved. -/
theorem ended (hlt : ∀ o ∈ (m.sq k).out, o.uid < m.qe.nextUid) (st a : Nat) :
    m.Placed (y.complete k m.qe.nextUid st 0 a) k d (some { status := st, bytes := 0, deadline := false, time := m.polder.toNat, detail := a }) ∧
      (y.complete k m.qe.nextUid st 0 a).lode = m.lode ∧ OnlyRegs K m (y.complete k m.qe.nextUid st 0 a) :=
  ⟨h.polder ▸ h.placed.finish hlt _, h.lode, h.only.trans ⟨rfl, rfl, rfl, rfl, fun _ _ => rfl⟩⟩

end Checked

/-- A lode that the active plan carries is foreign to a queue of another herd; one it does not carry is foreign to none. -/
theorem lodeForeign_of_outRec {m : Mach} {d : Desc} {r : LodeOut} (h : m.outRec d.target = some r) (k : Nat) : m.lodeForeign k d = (r.herd != m.sqHerd k) := by
  simp only [lodeForeign, h]

theorem lodeForeign_of_absent {m : Mach} {d : Desc} (h : m.outRec d.target = none) (k : Nat) : m.lodeForeign k d = false := by
  simp only [lodeForeign, h]

/-- A lode descriptor whose lode is absent ends with PLAN_ABSENT. -/
theorem lode_absent {m : Mach} {k : Nat} {d : Desc} {row : Desc → Bool} (h : m.Dispatches k d false) (hrow : row d = true) (hr : m.outRec d.target = none)
    (atomic : Bool) :
    ∃ y, Dispatched m k d y ∧
      m.dispatch k row (fun m d => m.lodeForeign k d) (fun m d u => m.lodePost k d u atomic) = y.complete k m.qe.nextUid stPlanAbsent 0 0 := by
  obtain ⟨y, hy, hd⟩ := dispatch_runs (fun m d u => m.lodePost k d u atomic) h hrow
    fun y hy => (lodeForeign_dispatched hy k).trans (lodeForeign_of_absent hr k)
  exact ⟨y, hy, hd.trans (lodePost_absent ((hy.outRec _).trans hr))⟩

/-- One whose lode the plan carries goes on to its capacity and its source range. -/
theorem lode_carried {m : Mach} {k : Nat} {d : Desc} {r : LodeOut} {row : Desc → Bool} (h : m.Dispatches k d (r.herd != m.sqHerd k)) (hrow : row d = true)
    (hr : m.outRec d.target = some r) (atomic : Bool) :
    ∃ y, Dispatched m k d y ∧ y.outRec d.target = some r ∧
      m.dispatch k row (fun m d => m.lodeForeign k d) (fun m d u => m.lodePost k d u atomic) = y.lodePost k d m.qe.nextUid atomic := by
  obtain ⟨y, hy, hd⟩ := dispatch_runs (fun m d u => m.lodePost k d u atomic) h hrow
    fun y hy => (lodeForeign_dispatched hy k).trans (lodeForeign_of_outRec hr k)
  exact ⟨y, hy, (hy.outRec _).trans hr, hd⟩

end Mach

/-- A lode descriptor whose lode the plan does not carry, from its dispatch to its end. -/
theorem lodeAbsent_runs {c : Instr} {s : State} {t k : Nat} {d : Desc} {row : Desc → Bool} {atomic : Bool}
    (hc : Sys2Proof.Machine.exec c s =
      commit s fun m => (m.advance t).dispatch k row (fun m d => m.lodeForeign k d) fun m d u => m.lodePost k d u atomic)
    (hi : s.m.Inv) (hd : (s.m.advance t).Dispatches k d false) (hrow : row d = true) (hr : s.m.outRec d.target = none) :
    Runs c s fun n =>
      (s.m.advance t).Placed n k d (some { status := stPlanAbsent, bytes := 0, deadline := false, time := (s.m.advance t).polder.toNat, detail := 0 }) ∧
        n.lode = s.m.lode ∧ Frame (Mach.idleKey k) s.m n := by
  obtain ⟨-, -, -, -, -, -, hlt⟩ := id hd
  obtain ⟨y, hy, hrun⟩ := Mach.lode_absent (m := s.m.advance t) hd hrow hr atomic
  obtain ⟨hplaced, hlode, honly⟩ := hy.checked.ended hlt stPlanAbsent 0
  exact runs_of_onlyRegs hc hi hrun honly.advance fun hframe _ => ⟨hplaced, hlode, hframe⟩

/-- Settles O6: an absent lode, then LODE_WRITE and LODE_ATOMIC on one that the plan carries. -/
theorem lodeDescriptors : Obligations.LodeDescriptors := by
  unfold Obligations.LodeDescriptors
  refine ⟨?_, ?_, ?_⟩
  · intro s t k d hi hd hr
    exact ⟨fun hop => lodeAbsent_runs rfl hi hd (beq_iff_eq.2 hop) hr, fun hop => lodeAbsent_runs rfl hi hd (beq_iff_eq.2 hop) hr⟩
  · intro s t k d r hi hd hop hr hcap
    obtain ⟨-, -, -, -, -, -, hlt⟩ := id hd
    obtain ⟨y, hy, hyr, hrun⟩ := Mach.lode_carried (m := s.m.advance t) hd (row := fun d => d.opcode == 0x01) (beq_iff_eq.2 hop) hr false
    obtain ⟨z, hz, ⟨segs, hpost⟩ | ⟨hl, st, a, hpost⟩⟩ := Mach.lodePost_write (k := k) (u := s.m.qe.nextUid) hyr hcap
    · obtain ⟨hplaced, hqueue, hseq, honly⟩ := (hy.checked_xlt hz).joined false segs
      exact runs_of_onlyRegs (f := fun m => (m.advance t).dispatch k _ _ _) rfl hi (hrun.trans hpost) honly.advance fun hframe _ =>
        ⟨⟨none, hplaced, fun _ => rfl, nofun, fun _ => ⟨_, hqueue, rfl, rfl, rfl, rfl, rfl, rfl, rfl, rfl, rfl⟩⟩, hseq, hframe⟩
    · obtain ⟨hplaced, hlode, honly⟩ := (hy.checked_xlt hz).ended hlt st a
      have hseq := congrArg LodeTx.seq (Mach.ltx_of_lode hlode d.target)
      exact runs_of_onlyRegs (f := fun m => (m.advance t).dispatch k _ _ _) rfl hi (hrun.trans hpost) honly.advance fun hframe _ =>
        ⟨⟨_, hplaced, fun h0 => absurd h0 hl, fun c hc => Option.some.inj hc ▸ ⟨rfl, hlode⟩, nofun⟩, hseq, hframe⟩
  · intro s t k d r hi hd hop hr hcap
    obtain ⟨y, hy, hyr, hrun⟩ := Mach.lode_carried (m := s.m.advance t) hd (row := fun d => d.opcode == 0x02) (beq_iff_eq.2 hop) hr true
    obtain ⟨hplaced, hqueue, hseq, honly⟩ := hy.checked.joined true []
    exact runs_of_onlyRegs (f := fun m => (m.advance t).dispatch k _ _ _) rfl hi (hrun.trans (Mach.lodePost_bare hyr hcap (.inl rfl))) honly.advance fun hframe _ =>
      ⟨hplaced, ⟨_, hqueue, rfl, rfl, rfl, rfl, rfl, rfl, rfl, rfl⟩, hframe⟩

end Sys2Proof.Machine
end

section
/-! SUPPORT. Laws of the queue engine: updates that reach it and registers alone, its registers' addresses, and what each shared operation on a submission queue does
(05_queues_descriptors.md R134 to R136, R145, R150). -/
namespace Sys2Proof.Machine

/-- `x` is `m` with another state of the queue engine and other values in registers that `K` names. -/
structure InQe (K : Nat → Prop) (m x : Mach) : Prop where
  file : x = (m.putQe x.qe).putRegs x.regs
  regs : RegsBut K m x

namespace InQe

variable {K : Nat → Prop} {m x y : Mach}

theorem refl (K : Nat → Prop) (m : Mach) : InQe K m m := ⟨rfl, .refl K m⟩

theorem trans (h : InQe K m x) (g : InQe K x y) : InQe K m y :=
  ⟨g.file.trans (congrArg (fun z => (z.putQe y.qe).putRegs y.regs) h.file :), fun k hk => (g.regs k hk).trans (h.regs k hk)⟩

theorem mono {L : Nat → Prop} (h : InQe K m x) (hKL : ∀ k, K k → L k) : InQe L m x := ⟨h.file, h.regs.mono hKL⟩

theorem putQe (h : InQe K m x) (q : QeSt) : InQe K m (x.putQe q) := h.trans ⟨rfl, fun _ _ => rfl⟩

theorem setSq (h : InQe K m x) (k : Nat) (y : Sq) : InQe K m (x.setSq k y) := h.putQe _

theorem setCq (h : InQe K m x) (c : Nat) (y : Cq) : InQe K m (x.setCq c y) := h.putQe _

theorem set (h : InQe K m x) {f : Fld} {v i s : Nat} (hk : K (keyOf f i s)) : InQe K m (x.set f v i s) := h.trans ⟨rfl, (RegsBut.refl K x).set hk⟩

theorem ite {c : Prop} [Decidable c] (h : InQe K m x) (g : InQe K m y) : InQe K m (if c then x else y) := by
  split <;> assumption

theorem foldl {α : Type} {g : Mach → α → Mach} {l : List α} (h : ∀ z, ∀ a ∈ l, InQe K z (g z a)) (m : Mach) : InQe K m (l.foldl g m) :=
  List.foldlRecOn (motive := InQe K m) l g (.refl K m) fun _ hz a ha => hz.trans (h _ a ha)

theorem only (h : InQe K m x) : OnlyRegs K m x := by
  refine ⟨?_, ?_, ?_, ?_, h.regs⟩ <;> rw [h.file] <;> rfl

end InQe

namespace Mach

/-! ## Registers at different addresses -/

/-- Registers at different addresses have different keys, whatever elements are selected. -/
theorem fkey_ne_of_addr {f g : Fld} {i j : Nat} (s u : Nat) (h : (f.addr + f.step * i) % regSpan ≠ (g.addr + g.step * j) % regSpan) : fkey f i s ≠ fkey g j u := by
  simp only [fkey, regKey, regSpan] at h ⊢
  omega

theorem get_set_of_addr (m : Mach) {f g : Fld} {v i s j u : Nat} (h : (g.addr + g.step * j) % regSpan ≠ (f.addr + f.step * i) % regSpan) :
    (m.set f v i s).get g j u = m.get g j u := get_set_ne m (fkey_ne_of_addr u s h)

theorem bit_set_of_addr (m : Mach) {f g : Fld} {v i s j u : Nat} (h : (g.addr + g.step * j) % regSpan ≠ (f.addr + f.step * i) % regSpan) :
    (m.set f v i s).bit g j u = m.bit g j u := by
  rw [bit, get_set_of_addr m h, bit]

theorem get_set_of_lt (m : Mach) (f : Fld) {v : Nat} (i s : Nat) (h : f.lo + f.wd ≤ 32) (hv : v < 2 ^ f.wd) : (m.set f v i s).get f i s = v :=
  (get_set_same m f v i s h).trans (Nat.mod_eq_of_lt hv)

/-- A one-bit field that was set reads what was written. -/
theorem bit_set_same (m : Mach) (f : Fld) (b : Bool) (i s : Nat) (h : f.lo + f.wd ≤ 32) (hw : f.wd = 1) : (m.set f b.toNat i s).bit f i s = b := by
  rw [bit, get_set_same m f _ i s h, hw]
  cases b <;> rfl

@[simp] theorem sq_set (m : Mach) (f : Fld) (v i s k : Nat) : (m.set f v i s).sq k = m.sq k := rfl

@[simp] theorem cq_set (m : Mach) (f : Fld) (v i s c : Nat) : (m.set f v i s).cq c = m.cq c := rfl

theorem sq_congr {m x : Mach} (h : x.qe = m.qe) (k : Nat) : x.sq k = m.sq k := by rw [sq, h, sq]

/-! ## Rings -/

theorem ringSize_pos (n : Nat) : 0 < ringSize n := Nat.two_pow_pos _

theorem ringSize_le (n : Nat) : ringSize n ≤ 2 ^ 16 := Nat.pow_le_pow_right (by decide) (Nat.min_le_left _ _)

/-- An index of a ring fits its 16-bit field. -/
theorem mod_ringSize_lt (v n : Nat) : v % ringSize n < 2 ^ 16 := (Nat.mod_lt v (ringSize_pos n)).trans_le (ringSize_le n)

theorem sqHerd_lt (m : Mach) (k : Nat) : m.sqHerd k < 256 := getBits_lt _ _ _

/-- The word of QE_HALT that holds a herd of this module is none of the registers of a queue. -/
theorem haltWord_addr {h : Nat} (hh : h < 256) : (F.QE_HALT.addr + F.QE_HALT.step * (h / 32)) % regSpan < 0x00400040 ∧
    0x00400020 ≤ (F.QE_HALT.addr + F.QE_HALT.step * (h / 32)) % regSpan := by
  simp only [regSpan]
  omega

/-! ## Reads of a submission queue (R134, R135) -/

/-- Queue `k` may read, and its ring holds claimed entries that it has not accepted. -/
structure MayRead (m : Mach) (k : Nat) : Prop where
  enabled : m.bit F.QE_SQ_CFG_ENABLE 0 k = true
  running : m.herdHalted (m.sqHerd k) = false
  unreset : m.herdState (m.sqHerd k) ≠ 3
  served : m.failStop = false
  room : (m.sq k).fetched.length < 32
  idle : (m.sq k).reading = none
  unheld : (m.sq k).wait = none
  claimed : (m.sq k).claims ≠ []
  behind : 0 < ringDist (m.sqSize k) (m.sqHead k) (m.sqTail k)

/-- Entries that a read of queue `k` covers: those that doorbells claimed, and PREFETCH more. -/
abbrev readSpan (m : Mach) (k : Nat) : Nat := min (m.sqSize k) (ringDist (m.sqSize k) (m.sqHead k) (m.sqTail k) + min 16 (m.get F.QE_CTL_PREFETCH))

/-- A queue that may read starts at HEAD. -/
theorem startRead_of_mayRead {m : Mach} {k : Nat} (h : m.MayRead k) (timed : Bool) :
    m.startRead k timed = m.setSq k { m.sq k with reading := some (m.sqHead k, m.readSpan k, timed), refetchAt := none } := by
  obtain ⟨hen, hrun, hres, hstop, hroom, hidle, hwait, hclaims, hdist⟩ := h
  have hcount : m.readSpan k ≠ 0 := by
    have : 0 < m.sqSize k := ringSize_pos _
    simp only [readSpan]
    omega
  have hc : (m.sq k).claims.isEmpty = false := by simpa using hclaims
  unfold startRead
  simp only [hc, Bool.false_eq_true, if_false]
  rw [if_neg (by simp [hen, hrun, hres, hstop]), if_neg (by omega), if_neg (by simpa [hidle, hwait] using hcount)]

theorem startRead_inQe (m : Mach) (k : Nat) (timed : Bool) : InQe (fun _ => False) m (m.startRead k timed) := by
  rw [(m.startRead_descsKept k timed).engine]
  exact (InQe.refl _ m).putQe _

theorem startRead_regs (m : Mach) (k : Nat) (timed : Bool) (x : Nat) : (m.startRead k timed).reg x = m.reg x := (m.startRead_inQe k timed).regs x id

/-! ## Accepted entries (R135) -/

/-- Whether a key is that of the status or of the indices of queue `k`. -/
abbrev sqKey (k x : Nat) : Prop := x = keyOf F.QE_SQ_STATUS_IDLE 0 k ∨ x = keyOf F.QE_SQ_PTR_OWN 0 k

/-- A register that is no status and no index of a queue. -/
theorem not_sqKey {f : Fld} {i k s : Nat} (h : (f.addr + f.step * i) % regSpan ≠ F.QE_SQ_STATUS_IDLE.addr ∧ (f.addr + f.step * i) % regSpan ≠ F.QE_SQ_PTR_OWN.addr) :
    ¬ sqKey k (keyOf f i s) := by
  rintro (hk | hk)
  · exact fkey_ne_of_addr s k h.1 hk
  · exact fkey_ne_of_addr s k h.2 hk

/-- HEAD passes the entry at it. -/
theorem acceptEntry_spec (m : Mach) (k : Nat) (words : List Nat) :
    ((m.acceptEntry k words).sq k).fetched = (m.sq k).fetched ++ [{ index := m.sqHead k, words := words }] ∧
      ((m.acceptEntry k words).sq k).out = (m.sq k).out ∧ (m.acceptEntry k words).sqHead k = (m.sqHead k + 1) % m.sqSize k ∧
      (m.acceptEntry k words).qe.nextUid = m.qe.nextUid ∧ InQe (sqKey k) m (m.acceptEntry k words) := by
  unfold acceptEntry
  extract_lets x n i j y z
  have hy : InQe (sqKey k) m y := (InQe.refl _ m).setSq _ _
  have hz : InQe (sqKey k) m z := .ite (hy.set (.inl rfl)) hy
  have hq : z.qe = y.qe := by simp only [z]; split <;> rfl
  refine ⟨?_, ?_, get_set_of_lt z _ _ _ (by decide) (mod_ringSize_lt _ _), ?_, hz.set (.inr rfl)⟩
  · rw [sq_set, sq_congr hq, sq_setSq_same]
  · rw [sq_set, sq_congr hq, sq_setSq_same]
  · rw [set_qe, hq]
    rfl

/-! ## Dispatched descriptors (R145) -/

/-- A descriptor gets its place behind those dispatched. -/
theorem place_out (m : Mach) (k i tag op : Nat) :
    (m.place k i tag op).2 = m.qe.nextUid ∧
      ((m.place k i tag op).1.sq k).out = (m.sq k).out ++ [{ uid := m.qe.nextUid, index := i, tag := tag, opcode := op, comp := none }] ∧
      InQe (sqKey k) m (m.place k i tag op).1 := by
  refine ⟨rfl, congrArg Sq.out (sq_setSq_same _ k _), ?_⟩
  exact (((InQe.refl _ m).putQe _).setSq _ _).set (.inl rfl)

/-! ## Descriptors dropped before dispatch (R141, R150) -/

theorem dropFetched_inQe (m : Mach) (k : Nat) : InQe (sqKey k) m (m.dropFetched k) := by
  unfold dropFetched
  extract_lets x y
  have hy : InQe (sqKey k) m y := (InQe.refl _ m).setSq _ _
  split
  · exact hy
  · refine InQe.set ?_ (.inr rfl)
    split
    · exact hy.set (.inl rfl)
    · exact hy

theorem dropFetched_qe (m : Mach) (k : Nat) :
    (m.dropFetched k).qe = (m.setSq k { m.sq k with fetched := [], reading := none, refetchAt := none, paused := false }).qe := by
  unfold dropFetched
  extract_lets x y
  split
  · rfl
  · rw [set_qe]
    split <;> rfl

theorem dropFetched_fetched (m : Mach) (k : Nat) : ((m.dropFetched k).sq k).fetched = [] := by
  rw [sq_congr (m.dropFetched_qe k), sq_setSq_same]

/-- What was dispatched stays, in this queue and in every other. -/
theorem dropFetched_out (m : Mach) (k j : Nat) : ((m.dropFetched k).sq j).out = (m.sq j).out := by
  rw [sq_congr (m.dropFetched_qe k)]
  by_cases h : j = k
  · rw [h, sq_setSq_same]
  · rw [sq_setSq_ne _ _ h]

/-- HEAD goes back to the first descriptor dropped. -/
theorem dropFetched_head {m : Mach} {k : Nat} {d : Desc} {rest : List Desc} (h : (m.sq k).fetched = d :: rest) :
    (m.dropFetched k).sqHead k = d.index % 2 ^ F.QE_SQ_PTR_OWN.wd := by
  simp only [dropFetched, h]
  exact get_set_same _ _ _ _ _ (by decide)

/-- What clearing its enable does to a queue. -/
theorem sqDisable_spec (m : Mach) (k : Nat) :
    (m.sqDisable k).bit F.QE_SQ_CFG_ENABLE 0 k = false ∧ ((m.sqDisable k).sq k).fetched = [] ∧ ((m.sqDisable k).sq k).out = (m.sq k).out ∧
      (m.sqDisable k).bit F.QE_SQ_STATUS_IDLE 0 k = (m.sq k).out.isEmpty ∧
      (∀ d rest, (m.sq k).fetched = d :: rest → (m.sqDisable k).sqHead k = d.index % 2 ^ F.QE_SQ_PTR_OWN.wd) ∧ OnlyRegs (fun _ => True) m (m.sqDisable k) := by
  set x := m.set F.QE_SQ_CFG_ENABLE 0 0 k with hx
  have hdrop := x.dropFetched_inQe k
  have hen : (x.dropFetched k).bit F.QE_SQ_CFG_ENABLE 0 k = false :=
    (bit_congr (hdrop.regs _ (not_sqKey (by decide)))).trans (bit_set_same m _ false _ _ (by decide) rfl)
  have hout : ((x.dropFetched k).sq k).out = (m.sq k).out := x.dropFetched_out k k
  refine ⟨?_, ?_, hout, ?_, fun d rest h => ?_, ?_⟩
  · exact (bit_set_of_addr _ (by decide)).trans hen
  · exact x.dropFetched_fetched k
  · rw [← hout]
    refine (bit_set_same _ _ _ _ _ (by decide) rfl).trans ?_
    rw [hen]
    rfl
  · exact (get_set_of_addr _ (by decide)).trans (dropFetched_head h)
  · exact (((InQe.refl _ m).set trivial).trans (hdrop.mono fun _ _ => trivial)).only.set trivial

end Mach
end Sys2Proof.Machine
end


section
/-! SUPPORT and proof of O11: doorbells of submission queues, completion rings and event rings (05_queues_descriptors.md R133, R134, R136, R146, R149; 14_herds.md R356, R357). -/
namespace Sys2Proof.Machine
namespace Mach

/-! ## Which doorbells act (R133, R134; 14_herds.md R356) -/

/-- A doorbell by the management port or the herd's own window, of a herd that is not being destroyed, acts on a ring that the herd owns; on another it is dropped. -/
theorem doorbell_served {m : Mach} {p : Path} {h addr : Nat} (hs : m.served p addr = true) (hp : p = .mgmt ∨ (p = .fabric h ∧ m.failStop = false))
    (hd : m.herdState h ≠ 4) (owned : Bool) (f : Mach → Mach) :
    m.doorbell p h addr owned f = if owned = false then (m.set F.QE_STATUS_DB_FOREIGN 1).regFault p addr true else f m := by
  obtain rfl | ⟨rfl, hstop⟩ := hp
  · simp [doorbell, hs, hd]
  · simp [doorbell, hs, hd, hstop]

/-- What the drop of a doorbell on a foreign ring leaves: DB_FOREIGN and a register-access fault. -/
theorem foreignDoorbell_spec (m : Mach) (p : Path) (addr : Nat) :
    ((m.set F.QE_STATUS_DB_FOREIGN 1).regFault p addr true).bit F.QE_STATUS_DB_FOREIGN = true ∧
      ((m.set F.QE_STATUS_DB_FOREIGN 1).regFault p addr true).qe = m.qe ∧
      OnlyRegs (fun k => fltKey k ∨ k = keyOf F.QE_STATUS_DB_FOREIGN) m ((m.set F.QE_STATUS_DB_FOREIGN 1).regFault p addr true) := by
  have hf := FltOnly.regFault (m.set F.QE_STATUS_DB_FOREIGN 1) p addr true
  refine ⟨?_, hf.touch.qe, ((OnlyRegs.refl _ m).set (.inr rfl)).trans ((OnlyRegs.of_fltOnly hf).mono fun _ => .inl)⟩
  exact (bit_congr (hf.reg _ (by decide))).trans (bit_set_same m _ true _ _ (by decide) rfl)

/-! ## The doorbell of a submission queue (R134, R136) -/

/-- What a new TAIL leaves: the configuration of its queue, and the state and the halt of its herd. -/
theorem tailOnly_fields {m x : Mach} {k : Nat} (h : RegsBut (fun x => x = keyOf F.QE_SQ_PTR_OTHER 0 k) m x) :
    x.bit F.QE_SQ_CFG_ENABLE 0 k = m.bit F.QE_SQ_CFG_ENABLE 0 k ∧ x.sqHerd k = m.sqHerd k ∧ x.sqSize k = m.sqSize k ∧ x.failStop = m.failStop ∧
      x.herdHalted (m.sqHerd k) = m.herdHalted (m.sqHerd k) ∧ x.herdState (m.sqHerd k) = m.herdState (m.sqHerd k) ∧
      x.get F.QE_CTL_PREFETCH = m.get F.QE_CTL_PREFETCH := by
  have other : ∀ {f : Fld} {i s : Nat}, (f.addr + f.step * i) % regSpan ≠ F.QE_SQ_PTR_OTHER.addr → x.get f i s = m.get f i s := fun {f i s} hf =>
    h.get (fkey_ne_of_addr s k hf)
  have hhalt := haltWord_addr (m.sqHerd_lt k)
  refine ⟨?_, other (by decide), ?_, ?_, ?_, ?_, other (by decide)⟩
  · rw [bit, other (by decide), bit]
  · rw [sqSize, other (by decide), sqSize]
  · rw [failStop, bit, other (by decide), failStop, bit]
  · rw [herdHalted, other (fun he => by simp only [he] at hhalt; omega), herdHalted]
  · rw [herdState, other (by decide), herdState]

/-- Queue `k` once a doorbell has set TAIL and noted the entries that it claims first. -/
def claimed (m : Mach) (k tail : Nat) : Mach :=
  let x := m.sq k
  let t := tail % m.sqSize k
  let lead := if x.claims.isEmpty then ringDist (m.sqSize k) (m.sqTail k) (m.sqHead k) else 0
  let m' := m.set F.QE_SQ_PTR_OTHER t 0 k
  if ringDist (m.sqSize k) (m.sqTail k) t ≤ lead then m' else m'.setSq k { x with claims := x.claims ++ [(t, m.now)] }

theorem sqDoorbell_eq (m : Mach) (k tail : Nat) : m.sqDoorbell k tail = (m.claimed k tail).startRead k false := rfl

theorem claimed_spec (m : Mach) (k tail : Nat) :
    (m.claimed k tail).sqTail k = tail % m.sqSize k ∧ (m.claimed k tail).sqHead k = m.sqHead k ∧ ((m.claimed k tail).sq k).fetched = (m.sq k).fetched ∧
      InQe (fun x => x = keyOf F.QE_SQ_PTR_OTHER 0 k) m (m.claimed k tail) := by
  unfold claimed
  extract_lets x t lead m'
  have htail : m'.sqTail k = t := get_set_of_lt m _ _ _ (by decide) (mod_ringSize_lt _ _)
  have hhead : m'.sqHead k = m.sqHead k := get_set_apart m rfl (by decide) (.inl (by decide))
  have hm : InQe (fun x => x = keyOf F.QE_SQ_PTR_OTHER 0 k) m m' := (InQe.refl _ m).set rfl
  split
  · exact ⟨htail, hhead, rfl, hm⟩
  · exact ⟨htail, hhead, by rw [sq_setSq_same], hm.setSq _ _⟩

/-- Entries beyond those claimed before, and beyond those read ahead, are claimed now (R136). -/
theorem claimed_sq {m : Mach} {k tail : Nat} (hc : (m.sq k).claims = [])
    (hd : ringDist (m.sqSize k) (m.sqTail k) (m.sqHead k) < ringDist (m.sqSize k) (m.sqTail k) (tail % m.sqSize k)) :
    (m.claimed k tail).sq k = { m.sq k with claims := [(tail % m.sqSize k, m.now)] } := by
  simp only [claimed, hc, List.isEmpty_nil, if_true, List.nil_append]
  rw [if_neg (by omega), sq_setSq_same]

/-- TAIL follows the doorbell, and what the queue holds stays. -/
theorem sqDoorbell_spec (m : Mach) (k tail : Nat) :
    (m.sqDoorbell k tail).sqTail k = tail % m.sqSize k ∧ ((m.sqDoorbell k tail).sq k).fetched = (m.sq k).fetched ∧
      OnlyRegs (fun x => x = keyOf F.QE_SQ_PTR_OTHER 0 k) m (m.sqDoorbell k tail) := by
  obtain ⟨htail, -, hfetched, hq⟩ := m.claimed_spec k tail
  rw [sqDoorbell_eq]
  refine ⟨(get_congr (startRead_regs _ _ _ _)).trans htail, ?_, (hq.trans ((startRead_inQe _ k false).mono fun _ => False.elim)).only⟩
  exact (startRead_descsKept _ k false).fetched.trans hfetched

/-- A doorbell that claims new entries starts their read where nothing bars it (R135, R136). -/
theorem sqDoorbell_reads {m : Mach} {k tail : Nat} (hen : m.bit F.QE_SQ_CFG_ENABLE 0 k = true) (hrun : m.herdHalted (m.sqHerd k) = false)
    (hres : m.herdState (m.sqHerd k) ≠ 3) (hstop : m.failStop = false) (hroom : (m.sq k).fetched.length < 32) (hidle : (m.sq k).reading = none)
    (hwait : (m.sq k).wait = none) (hc : (m.sq k).claims = [])
    (hd : ringDist (m.sqSize k) (m.sqTail k) (m.sqHead k) < ringDist (m.sqSize k) (m.sqTail k) (tail % m.sqSize k))
    (hb : 0 < ringDist (m.sqSize k) (m.sqHead k) (tail % m.sqSize k)) :
    ((m.sqDoorbell k tail).sq k).claims = [(tail % m.sqSize k, m.now)] ∧ ((m.sqDoorbell k tail).sq k).reading = some (m.sqHead k, min (m.sqSize k)
      (ringDist (m.sqSize k) (m.sqHead k) (tail % m.sqSize k) + min 16 (m.get F.QE_CTL_PREFETCH)), false) := by
  obtain ⟨htail, hhead, -, hq⟩ := m.claimed_spec k tail
  obtain ⟨een, eherd, esize, estop, ehalt, estate, epre⟩ := tailOnly_fields hq.regs
  have hsq := claimed_sq hc hd
  have hmay : (m.claimed k tail).MayRead k :=
    { enabled := een.trans hen
      running := by rw [eherd, ehalt, hrun]
      unreset := by rw [eherd, estate]; exact hres
      served := estop.trans hstop
      room := by rw [hsq]; exact hroom
      idle := by rw [hsq]; exact hidle
      unheld := by rw [hsq]; exact hwait
      claimed := by rw [hsq]; exact List.cons_ne_nil _ _
      behind := by rw [esize, hhead, htail]; exact hb }
  rw [sqDoorbell_eq, startRead_of_mayRead hmay, sq_setSq_same, hsq, readSpan, esize, hhead, htail, epre]
  exact ⟨rfl, rfl⟩

/-! ## The doorbells of completion and event rings (R146, R149) -/

/-- FULL stands apart from the indices of a completion ring. -/
theorem cqFull_spec (m : Mach) (c : Nat) :
    (m.cqFull c).bit F.QE_CQ_STATUS_FULL 0 c = !decide ((m.cqFull c).cqUnconsumed c + 1 < (m.cqFull c).cqSize c) ∧
      InRegs (fun k => k = keyOf F.QE_CQ_STATUS_FULL 0 c) m (m.cqFull c) := by
  have other : ∀ {f : Fld}, (f.addr + f.step * 0) % regSpan ≠ F.QE_CQ_STATUS_FULL.addr → (m.cqFull c).get f 0 c = m.get f 0 c := fun hf => get_set_of_addr m hf
  have hsize : (m.cqFull c).cqSize c = m.cqSize c := congrArg ringSize (other (by decide))
  have hun : (m.cqFull c).cqUnconsumed c = m.cqUnconsumed c := by
    simp only [cqUnconsumed, hsize]
    rw [other (by decide), other (by decide)]
  refine ⟨?_, (InRegs.refl _ m).set rfl⟩
  rw [hsize, hun, cqFull, ← bit_set_same m F.QE_CQ_STATUS_FULL (!decide (m.cqUnconsumed c + 1 < m.cqSize c)) 0 c (by decide) rfl]
  split <;> simp [*]

/-- The index of a completion ring follows its doorbell. -/
theorem cqDoorbell_spec (m : Mach) (c v : Nat) :
    (m.cqDoorbell c v).get F.QE_CQ_PTR_OTHER 0 c = v % m.cqSize c ∧
      (m.cqDoorbell c v).bit F.QE_CQ_STATUS_FULL 0 c = !decide ((m.cqDoorbell c v).cqUnconsumed c + 1 < (m.cqDoorbell c v).cqSize c) ∧
      OnlyRegs (fun k => k = keyOf F.QE_CQ_PTR_OTHER 0 c ∨ k = keyOf F.QE_CQ_STATUS_FULL 0 c) m (m.cqDoorbell c v) := by
  obtain ⟨hfull, hregs⟩ := (m.set F.QE_CQ_PTR_OTHER (v % m.cqSize c) 0 c).cqFull_spec c
  refine ⟨?_, hfull, ((OnlyRegs.refl _ m).set (.inl rfl)).trans (hregs.only.mono fun _ => .inr)⟩
  exact (get_set_of_addr _ (by decide)).trans (get_set_of_lt m _ _ _ (by decide) (mod_ringSize_lt _ _))

/-- FULL stands apart from the indices of an event ring. -/
theorem eqFull_spec (m : Mach) (h : Nat) :
    (m.eqFull h).bit F.QE_EQ_STATUS_FULL 0 h = decide ((m.eqFull h).eqFree h < 2) ∧ InRegs (fun k => k = keyOf F.QE_EQ_STATUS_FULL 0 h) m (m.eqFull h) := by
  have other : ∀ {f : Fld}, (f.addr + f.step * 0) % regSpan ≠ F.QE_EQ_STATUS_FULL.addr → (m.eqFull h).get f 0 h = m.get f 0 h := fun hf => get_set_of_addr m hf
  have hfree : (m.eqFull h).eqFree h = m.eqFree h := by
    simp only [eqFree, eqSize]
    rw [other (by decide), other (by decide), other (by decide)]
  refine ⟨?_, (InRegs.refl _ m).set rfl⟩
  rw [hfree, eqFull, ← bit_set_same m F.QE_EQ_STATUS_FULL (decide (m.eqFree h < 2)) 0 h (by decide) rfl]
  split <;> simp [*]

/-- With no lost event to report nothing is written. -/
theorem eqLostEntry_of_none {m : Mach} {h : Nat} (hl : (alGet m.qe.lost h).getD 0 = 0) : m.eqLostEntry h = m := if_pos (.inl hl)

/-- The index of an event ring follows its doorbell. -/
theorem eqDoorbell_spec {m : Mach} {h : Nat} (hl : (alGet m.qe.lost h).getD 0 = 0) (v : Nat) :
    (m.eqDoorbell h v).get F.QE_EQ_PTR_OTHER 0 h = v % m.eqSize h ∧ (m.eqDoorbell h v).bit F.QE_EQ_STATUS_FULL 0 h = decide ((m.eqDoorbell h v).eqFree h < 2) ∧
      OnlyRegs (fun k => k = keyOf F.QE_EQ_PTR_OTHER 0 h ∨ k = keyOf F.QE_EQ_STATUS_FULL 0 h) m (m.eqDoorbell h v) := by
  obtain ⟨hfull, hregs⟩ := (m.set F.QE_EQ_PTR_OTHER (v % m.eqSize h) 0 h).eqFull_spec h
  have hx : m.eqDoorbell h v = (m.set F.QE_EQ_PTR_OTHER (v % m.eqSize h) 0 h).eqFull h := eqLostEntry_of_none hl
  rw [hx]
  refine ⟨?_, hfull, ((OnlyRegs.refl _ m).set (.inl rfl)).trans (hregs.only.mono fun _ => .inr)⟩
  exact (get_set_of_addr _ (by decide)).trans (get_set_of_lt m _ _ _ (by decide) (mod_ringSize_lt _ _))

/-! ## Rings, read from the registers -/

theorem cqUnconsumed_congr {m x : Mach} (h : ∀ k, x.reg k = m.reg k) (c : Nat) : x.cqUnconsumed c = m.cqUnconsumed c ∧ x.cqSize c = m.cqSize c := by
  simp only [cqUnconsumed, cqSize, get, h, and_self]

theorem eqFree_congr {m x : Mach} (h : ∀ k, x.reg k = m.reg k) (e : Nat) : x.eqFree e = m.eqFree e := by
  simp only [eqFree, eqSize, get, h]

end Mach

/-- How to show what a doorbell does that reaches its ring. -/
theorem runs_of_doorbell {c : Instr} {s : State} {P : Mach → Prop} {K : Nat → Prop} {p : Path} {h addr : Nat} {owned : Mach → Bool} {f : Mach → Mach} {x : Mach}
    (hc : Sys2Proof.Machine.exec c s = commit s (fun m => m.doorbell p h addr (owned m) f)) (hi : s.m.Inv) (hs : s.m.served p addr = true)
    (hp : p = .mgmt ∨ (p = .fabric h ∧ s.m.failStop = false)) (hd : s.m.herdState h ≠ 4)
    (hx : (if owned s.m = false then (s.m.set F.QE_STATUS_DB_FOREIGN 1).regFault p addr true else f s.m) = x) (ho : OnlyRegs K s.m x)
    (hP : Frame K s.m (settle s.m x) → (∀ k, (settle s.m x).reg k = x.reg k) → P (settle s.m x)) : Runs c s P :=
  runs_of_onlyRegs hc hi ((Mach.doorbell_served hs hp hd _ f).trans hx) ho hP

theorem exec_sqDoorbell (p : Path) (h q : Nat) (v : Word) (s : State) : Sys2Proof.Machine.exec (.sqDoorbell p h q v) s =
    commit s (fun m => m.doorbell p h (herdPage h + 4 * q) (m.sqHerd q == h) fun m => if m.herdState h = 3 then m else m.sqDoorbell q (v.toNat % 65536)) := rfl

theorem exec_cqDoorbell (p : Path) (h c : Nat) (v : Word) (s : State) : Sys2Proof.Machine.exec (.cqDoorbell p h c v) s =
    commit s (fun m => m.doorbell p h (herdPage h + 0x4000 + 4 * c) (m.cqHerd c == h) fun m => m.cqDoorbell c (v.toNat % 65536)) := rfl

theorem exec_eqDoorbell (p : Path) (h : Nat) (v : Word) (s : State) : Sys2Proof.Machine.exec (.eqDoorbell p h v) s =
    commit s (fun m => m.doorbell p h (herdPage h + 0x8000) true fun m => m.eqDoorbell h (v.toNat % 65536)) := rfl

/-- Settles O11: a submission queue's doorbell on an owned and on a foreign queue, then those of completion and event rings. -/
theorem doorbells : Obligations.Doorbells := by
  unfold Obligations.Doorbells
  refine ⟨fun s p h q v hi hs hp hd => ⟨fun hown hres => ?_, fun hforeign => ?_⟩, fun s p h c v hi hs hp hd hown => ?_, fun s p h v hi hs hp hd hl => ?_⟩
  · subst hown
    obtain ⟨htail, hfetched, honly⟩ := s.m.sqDoorbell_spec q (v.toNat % 65536)
    refine runs_of_doorbell (exec_sqDoorbell _ _ _ _ _) hi hs hp hd ((if_neg (by simp)).trans (if_neg hres)) honly fun hframe hreg =>
      ⟨(Mach.get_congr (hreg _)).trans htail, hfetched, fun hen hrun hstop hroom hidle hwait hc hdist hb => ?_, hframe⟩
    exact Mach.sqDoorbell_reads hen hrun hres hstop hroom hidle hwait hc hdist hb
  · obtain ⟨hbit, hqe, honly⟩ := s.m.foreignDoorbell_spec p (herdPage h + 4 * q)
    refine runs_of_doorbell (exec_sqDoorbell _ _ _ _ _) hi hs hp hd (if_pos (beq_false_of_ne hforeign)) honly fun hframe hreg => ⟨(Mach.bit_congr (hreg _)).trans hbit, ?_, hqe, hframe⟩
    refine hframe.1.get ?_
    simp only [fltKey, keyOf, Mach.fkey, regKey, regSpan]
    omega
  · obtain ⟨hptr, hfull, honly⟩ := s.m.cqDoorbell_spec c (v.toNat % 65536)
    refine runs_of_doorbell (exec_cqDoorbell _ _ _ _ _) hi hs hp hd (if_neg (by simp [hown])) honly fun hframe hreg => ⟨(Mach.get_congr (hreg _)).trans hptr, ?_, hframe⟩
    obtain ⟨hun, hsize⟩ := Mach.cqUnconsumed_congr hreg c
    rw [hun, hsize, Mach.bit_congr (hreg _), hfull]
  · obtain ⟨hptr, hfull, honly⟩ := Mach.eqDoorbell_spec (m := s.m) hl (v.toNat % 65536)
    refine runs_of_doorbell (exec_eqDoorbell _ _ _ _) (owned := fun _ => true) hi hs hp hd (if_neg (by simp)) honly fun hframe hreg => ⟨(Mach.get_congr (hreg _)).trans hptr, ?_, hframe⟩
    rw [Mach.eqFree_congr hreg, Mach.bit_congr (hreg _), hfull]

end Sys2Proof.Machine
end


section
/-! SUPPORT. A translation leaves local time and the stores as they were (06_translation_windows.md R156 to R163). -/
namespace Sys2Proof.Machine

/-- `y` comes after `x` at the same local time, with the stores as the command found them. -/
structure Steady (x y : Mach) : Prop where
  now : y.now = x.now
  base : y.base = x.base

namespace Steady

theorem refl (x : Mach) : Steady x x := ⟨rfl, rfl⟩

theorem trans {x y z : Mach} (h : Steady x y) (g : Steady y z) : Steady x z := ⟨g.now.trans h.now, g.base.trans h.base⟩

theorem ite {c : Prop} [Decidable c] {x y z : Mach} (h : Steady x y) (g : Steady x z) : Steady x (if c then y else z) := by
  split <;> assumption

/-- An update that names neither time nor a store. -/
theorem of_eq {x y : Mach} (hn : y.now = x.now) (hp : y.peat = x.peat) (hc : y.cream = x.cream) (ht : y.tsram = x.tsram) (hf : y.flash = x.flash) : Steady x y :=
  ⟨hn, funext fun st => by cases st <;> assumption⟩

theorem setReg {x y : Mach} (h : Steady x y) {k : Nat} {w : Word} : Steady x (y.setReg k w) := h.trans (.of_eq rfl rfl rfl rfl rfl)

theorem set {x y : Mach} (h : Steady x y) {f : Fld} {v i s : Nat} : Steady x (y.set f v i s) := h.setReg

theorem inc {x y : Mach} (h : Steady x y) {f : Fld} {n i s : Nat} : Steady x (y.inc f n i s) := h.setReg

theorem set64 {x y : Mach} (h : Steady x y) {f : Fld} {v i s : Nat} : Steady x (y.set64 f v i s) := h.setReg.setReg

theorem fault (x : Mach) (s k : Nat) (i : FltInfo) : Steady x (x.fault s k i) := by
  have h := FaultTouch.fault x s k i
  exact .of_eq h.now h.peat h.cream h.tsram h.flash

theorem freshBit (x : Mach) : Steady x x.freshBit.2 := .of_eq rfl rfl rfl rfl rfl

theorem putXlt (x : Mach) (y : XltSt) : Steady x (x.putXlt y) := .of_eq rfl rfl rfl rfl rfl

theorem putCiph (x : Mach) (y : CiphSt) : Steady x (x.putCiph y) := .of_eq rfl rfl rfl rfl rfl

theorem putMem (x : Mach) (y : MemSt) : Steady x (x.putMem y) := .of_eq rfl rfl rfl rfl rfl

end Steady

namespace Mach

theorem freshBit_steady {m n : Mach} {b : Bool} (h : m.freshBit = (b, n)) : Steady m n := by
  have := Steady.freshBit m
  rwa [h] at this

theorem cacheGet_steady {m n : Mach} {h a lvl tag : Nat} {o : Option Nat} (hc : m.cacheGet h a lvl tag = (n, o)) : Steady m n := by
  unfold cacheGet at hc
  split at hc
  · cases hc
    exact .refl m
  · split at hc
    rename_i hb
    split at hc <;> cases hc
    · exact freshBit_steady hb
    · exact (freshBit_steady hb).trans (.putXlt _ _)

theorem walkEntry_steady {m n : Mach} {h a va lvl table : Nat} {x : Bool × Except (Nat × Nat) Nat} (hw : m.walkEntry h a va lvl table = (n, x)) : Steady m n := by
  unfold walkEntry at hw
  split at hw <;> rename_i hc <;> cases hw
  · exact (cacheGet_steady hc).inc
  · exact (cacheGet_steady hc).inc

theorem walkFrom_steady (m : Mach) (h a va acc lvl table : Nat) : Steady m (m.walkFrom h a va acc lvl table).1 := by
  have cached : ∀ (n : Mach) (hit : Bool) (e : XltEntry), Steady n (if hit = true then n else n.cachePut e) := fun n _ _ => .ite (.refl n) (.putXlt _ _)
  fun_induction walkFrom m h a va acc lvl table with
  | case1 m lvl table n hit st r hw => exact walkEntry_steady hw
  | case2 m lvl table n hit e hw st r hf => exact walkEntry_steady hw
  | case3 m lvl table n hit e hw hf y hl => exact (walkEntry_steady hw).trans (cached _ _ _)
  | case4 m table n hit e hl hw hf y => exact (walkEntry_steady hw).trans (cached _ _ _)
  | case5 m table n hit e hl lvl hw hf y ih => exact ((walkEntry_steady hw).trans (cached _ _ _)).trans ih

theorem walk_steady {m n : Mach} {h a va acc : Nat} {r : WalkRes} (hw : m.walk h a va acc = (n, r)) : Steady m n := by
  unfold walk at hw
  extract_lets s k root res at hw
  have hres : Steady m res.1 := by
    simp only [res]
    split
    · exact (Steady.refl m).inc
    · exact m.walkFrom_steady h a va acc 3 root
  clear_value res
  obtain ⟨y, o⟩ := res
  split at hw
  · cases hw
    exact .refl m
  · split at hw
    · split at hw
      rename_i hb
      cases hw
      exact freshBit_steady hb
    · split at hw
      · cases hw
        exact .refl m
      · cases o with
        | leaf e lvl =>
          have hy := congrArg Prod.fst hw
          simp only [apply_ite Prod.fst, ite_self] at hy
          exact hy ▸ hres
        | fail => cases hw; exact hres

theorem walkFail_steady (m : Mach) (h a va unit status reason lvl acc : Nat) : Steady m (m.walkFail h a va unit status reason lvl acc) := by
  unfold walkFail
  extract_lets y
  exact (Steady.ite (.refl m) (Steady.refl m).set.set.set.set.set.set.set64).trans (.fault y _ _ _)

theorem leafCheck_steady {m n : Mach} {h a acc unit lvl : Nat} {s : Seg} {o : Option (Nat × Nat)} (hc : m.leafCheck h a acc unit lvl s = (n, o)) : Steady m n := by
  unfold leafCheck at hc
  split at hc
  · extract_lets y at hc
    cases hc
    exact (Steady.ite (m.walkFail_steady _ _ _ _ _ _ _ _) (.refl m)).trans (.ite (Steady.refl _).inc (.refl _))
  · split at hc <;> cases hc
    · exact .putCiph m _
    · exact .refl m

theorem tilePages_steady (m : Mach) (h a acc unit fuel va len : Nat) : Steady m (m.tilePages h a acc unit fuel va len).1 := by
  fun_induction tilePages m h a acc unit fuel va len with
  | case1 | case2 => exact .refl _
  | case3 m fuel va len hl n st r lvl acc' hw => exact (walk_steady hw).trans (walkFail_steady n _ _ _ _ _ _ _ _)
  | case4 m fuel va len hl n e lvl hw s z err hc => exact (walk_steady hw).trans (leafCheck_steady hc)
  | case5 m fuel va len hl n e lvl hw s z hc w r ht ih => exact ((walk_steady hw).trans (leafCheck_steady hc)).trans (by rwa [ht] at ih)
  | case6 m fuel va len hl n e lvl hw s z hc ht ih => exact ((walk_steady hw).trans (leafCheck_steady hc)).trans ih

theorem tile_steady {m n : Mach} {h a acc unit va len : Nat} {r : Except (Nat × Nat) (List Seg)} (ht : m.tile h a acc unit va len = (n, r)) : Steady m n := by
  have := m.tilePages_steady h a acc unit (len / 4096 + 2) va len
  rw [tile] at ht
  rwa [ht] at this

end Mach

/-! ## What stays out of the queue engine's way -/

/-- Whether a key is that of a register outside the queues of block QE (05_queues_descriptors.md R152). -/
abbrev offQe (k : Nat) : Prop := k % regSpan / 0x10000 ≠ 0x40

theorem keyOf_mod (f : Fld) (i s : Nat) : keyOf f i s % regSpan = (f.addr + f.step * i) % regSpan := Nat.add_mul_mod_self_left _ _ _

/-- Registers that a translation may write are no queue's. -/
theorem offQe_of_xltKey {k : Nat} (h : xltKey k) : offQe k := by
  obtain ⟨-, hf⟩ | hx := h
  · exact fun he => absurd (hf.symm.trans he) (by decide)
  · simp only [List.mem_cons, List.not_mem_nil, or_false] at hx
    rcases hx with rfl | rfl | rfl | rfl | rfl | rfl <;> decide

/-- Queue registers stay where only others change. -/
theorem RegsBut.queueReg {m x : Mach} (h : RegsBut offQe m x) {f : Fld} {i s : Nat} (hf : (f.addr + f.step * i) % regSpan / 0x10000 = 0x40) :
    x.reg (keyOf f i s) = m.reg (keyOf f i s) := h _ fun hk => hk (by rw [keyOf_mod, hf])

theorem RegsBut.queueGet {m x : Mach} (h : RegsBut offQe m x) {f : Fld} {i s : Nat} (hf : (f.addr + f.step * i) % regSpan / 0x10000 = 0x40) :
    x.get f i s = m.get f i s := Mach.get_congr (h.queueReg hf)

/-- `y` comes after `x` with the queue engine, its registers, local time, the stores and what a command must not lose as they were. -/
structure Aside (x y : Mach) : Prop where
  steady : Steady x y
  qe : y.qe = x.qe
  variant : y.variant = x.variant
  downs : y.downs = x.downs
  tileDowns : y.tileDowns = x.tileDowns
  regs : RegsBut offQe x y

namespace Aside

theorem refl (x : Mach) : Aside x x := ⟨.refl x, rfl, rfl, rfl, rfl, .refl _ x⟩

theorem trans {x y z : Mach} (h : Aside x y) (g : Aside y z) : Aside x z :=
  ⟨h.steady.trans g.steady, g.qe.trans h.qe, g.variant.trans h.variant, g.downs.trans h.downs, g.tileDowns.trans h.tileDowns,
    fun k hk => (g.regs k hk).trans (h.regs k hk)⟩

theorem ite {c : Prop} [Decidable c] {x y z : Mach} (h : Aside x y) (g : Aside x z) : Aside x (if c then y else z) := by
  split <;> assumption

/-- A translation stays out of the queue engine's way. -/
theorem tile {m n : Mach} {h a acc unit va len : Nat} {r : Except (Nat × Nat) (List Seg)} (ht : m.tile h a acc unit va len = (n, r)) : Aside m n := by
  have hx := Mach.tile_to ht
  exact ⟨Mach.tile_steady ht, hx.qe, hx.only.variant, hx.only.downs, hx.only.tileDowns, hx.only.regs.mono fun _ => offQe_of_xltKey⟩

end Aside
end Sys2Proof.Machine
end


section
/-! SUPPORT. A register takes a written value: the fields of a configuration register of the queue engine (00_scope.md R12; 05_queues_descriptors.md R151 to R153). -/
namespace Sys2Proof.Machine
namespace Mach

theorem putFields_eq (m : Mach) {a : Nat} {r : RegInfo} {i j : Nat} (h : regInfo a = some (r, i, j)) (k v : Nat) (on : Bool) :
    m.putFields k a v on = m.putList k a v on r.fields := by
  simp only [putFields, h]

/-- A write of a field reaches registers and the values that wait for a boundary alone. -/
theorem putField_file (m : Mach) (k a v : Nat) (on : Bool) (f : RField) :
    ∃ t r g, m.putField k a v on f = ((m.putTideOld t).putRefillOld r).putRegs g := by
  obtain ⟨h, -⟩ | ⟨h, -⟩ | ⟨t, r, h, -⟩ := m.putField_cases k a v on f
  · exact ⟨m.tideOld, m.refillOld, m.regs, h⟩
  · refine ⟨m.tideOld, m.refillOld, (m.frozenDrop a).regs, h.trans ?_⟩
    unfold frozenDrop
    split <;> rfl
  · exact ⟨t, r, _, h⟩

theorem putList_file (m : Mach) (k a v : Nat) (on : Bool) (fs : List RField) :
    ∃ t r g, m.putList k a v on fs = ((m.putTideOld t).putRefillOld r).putRegs g := by
  refine List.foldlRecOn (motive := fun z => ∃ t r g, z = ((m.putTideOld t).putRefillOld r).putRegs g) fs _ ⟨m.tideOld, m.refillOld, m.regs, rfl⟩ ?_
  rintro _ ⟨t, r, g, rfl⟩ f -
  obtain ⟨t', r', g', h⟩ := putField_file (((m.putTideOld t).putRefillOld r).putRegs g) k a v on f
  exact ⟨t', r', g', h⟩

theorem putFields_file (m : Mach) (k a v : Nat) (on : Bool) : ∃ t r g, m.putFields k a v on = ((m.putTideOld t).putRefillOld r).putRegs g := by
  unfold putFields
  split
  · exact m.putList_file k a v on _
  · exact ⟨m.tideOld, m.refillOld, m.regs, rfl⟩

theorem putFields_onlyRegs (m : Mach) (k a v : Nat) (on : Bool) : OnlyRegs (fun _ => True) m (m.putFields k a v on) := by
  obtain ⟨t, r, g, h⟩ := m.putFields_file k a v on
  rw [h]
  exact ⟨rfl, rfl, rfl, rfl, fun _ hk => absurd trivial hk⟩

theorem putFields_qe (m : Mach) (k a v : Nat) (on : Bool) : (m.putFields k a v on).qe = m.qe := by
  obtain ⟨t, r, g, h⟩ := m.putFields_file k a v on
  rw [h]
  rfl

end Mach
end Sys2Proof.Machine
end

section
/-! SUPPORT and proof of O12: reads of submission queues, entries whose phase goes stale, enabling and disabling (05_queues_descriptors.md R128, R130, R135, R136, R141,
R147, R150). -/
namespace Sys2Proof.Machine
namespace Mach

/-! ## A read of one entry (R130, R135) -/

/-- The eight words of the entry that a read brings. -/
abbrev entryWords (m : Mach) (segs : List Seg) (ext : List Byte) : List Nat := (List.range 8).map (fun i => leAt (m.readExt segs ext).1 (8 * i) 8)

/-- Where the queue goes on once a read has ended. -/
def afterRead (m : Mach) (k : Nat) : Mach := if (m.sq k).claims.isEmpty then m else m.startRead k false

section
variable {m n : Mach} {k i : Nat} {timed : Bool} {ext : List Byte} {segs : List Seg} (hr : (m.sq k).reading = some (i, 1, timed))
  (hroom : (m.sq k).fetched.length < 32)
  (ht : (m.setSq k { m.sq k with reading := none }).tile (m.sqHerd k) (m.get F.QE_SQ_CFG_ASID 0 k) accRead srcQe
    (m.ringBase F.QE_SQ_BASE_LO k + 64 * m.sqHead k) 64 = (n, .ok segs))
include hr hroom ht

/-- An entry whose phase is the expected one is accepted. -/
theorem sqReadComplete_valid (hp : getBits (nthD (n.entryWords segs ext) 0 0) 4 1 = n.get F.QE_SQ_STATUS_PHASE 0 k) :
    m.sqReadComplete k ext = (n.acceptEntry k (n.entryWords segs ext)).afterRead k := by
  have hloop : (m.setSq k { m.sq k with reading := none }).acceptLoop k true 1 ext = (n.acceptEntry k (n.entryWords segs ext), .done) := by
    rw [acceptLoop, if_neg (by rw [sq_setSq_same]; exact Nat.not_le.2 hroom)]
    dsimp only
    split
    · rename_i he
      exact absurd (ht.symm.trans he) nofun
    · rename_i he
      cases ht.symm.trans he
      exact if_pos hp
  simp only [sqReadComplete, hr, hloop]
  rfl

/-- Another entry is none yet: it is read again after REFETCH, unless a repeated read found nothing claimed. -/
theorem sqReadComplete_stale (hp : getBits (nthD (n.entryWords segs ext) 0 0) 4 1 ≠ n.get F.QE_SQ_STATUS_PHASE 0 k) :
    m.sqReadComplete k ext = if timed = true ∧ (n.sq k).claims = [] then n
      else n.setSq k { n.sq k with refetchAt := some (n.now + max 1 (n.get F.QE_CTL_REFETCH) * us) } := by
  have hloop : (m.setSq k { m.sq k with reading := none }).acceptLoop k true 1 ext = (n, .invalid true) := by
    rw [acceptLoop, if_neg (by rw [sq_setSq_same]; exact Nat.not_le.2 hroom)]
    dsimp only
    split
    · rename_i he
      exact absurd (ht.symm.trans he) nofun
    · rename_i he
      cases ht.symm.trans he
      exact if_neg hp
  simp only [sqReadComplete, hr, hloop, true_and, List.isEmpty_iff]

end

theorem afterRead_spec (m : Mach) (k : Nat) : ((m.afterRead k).sq k).fetched = (m.sq k).fetched ∧ InQe (fun _ => False) m (m.afterRead k) := by
  unfold afterRead
  split
  · exact ⟨rfl, .refl _ m⟩
  · exact ⟨(m.startRead_descsKept k false).fetched, m.startRead_inQe k false⟩

/-! ## A repeated read (R135) -/

theorem refetchTimer_due {m : Mach} {k r : Nat} (h : (m.sq k).refetchAt = some r) (hr : r ≤ m.now) : m.refetchTimer k = m.startRead k true := by
  simp only [refetchTimer, h]
  exact if_pos hr

/-! ## A halted herd (R141) -/

/-- The bit that is set is set. -/
theorem getBits_or_two_pow (n b : Nat) : getBits (n ||| 2 ^ b) b 1 = 1 := by
  have h : (n ||| 2 ^ b).testBit b = true := by simp [Nat.testBit_or]
  rw [Nat.testBit_eq_decide_div_mod_eq] at h
  simpa [getBits] using h

/-- Whether a key is another than that of the word of QE_HALT that holds a herd. -/
abbrev offHalt (h k : Nat) : Prop := k ≠ keyOf F.QE_HALT (h / 32)

theorem offHalt_of_addr {h : Nat} (hh : h < 256) {f : Fld} {i s : Nat}
    (hf : (f.addr + f.step * i) % regSpan < 0x00400020 ∨ 0x00400040 ≤ (f.addr + f.step * i) % regSpan) : offHalt h (keyOf f i s) := by
  have haddr := haltWord_addr hh
  exact fkey_ne_of_addr s 0 (by omega)

/-- Halting a herd sets its bit of QE_HALT and leaves what its queues have dispatched. -/
theorem haltHerd_spec (m : Mach) {h : Nat} (hh : h < 256) :
    (m.haltHerd h).herdHalted h = true ∧ (∀ k, ((m.haltHerd h).sq k).out = (m.sq k).out) ∧ OnlyRegs (fun _ => True) m (m.haltHerd h) := by
  unfold haltHerd
  extract_lets y z
  have hy : y.herdHalted h = true := by
    have hb : 2 ^ (h % 32) < 2 ^ 32 := Nat.pow_lt_pow_right (by decide) (Nat.mod_lt _ (by decide))
    have hv : m.get F.QE_HALT (h / 32) ||| 2 ^ (h % 32) < 2 ^ 32 := Nat.or_lt_two_pow (getBits_lt _ _ _) hb
    rw [herdHalted, get_set_of_lt m F.QE_HALT (h / 32) 0 (by decide) hv, getBits_or_two_pow]
    rfl
  have hz : InQe (offHalt h) y z := .ite ((InQe.refl _ y).set (offHalt_of_addr hh (by decide))) (.refl _ y)
  have hdrop : ∀ (x : Mach) (k : Nat), InQe (offHalt h) x ((x.set F.QE_SQ_STATUS_HALTED 1 0 k).dropFetched k) := fun x k => by
    refine ((InQe.refl _ x).set (offHalt_of_addr hh (by decide))).trans ((dropFetched_inQe _ k).mono ?_)
    rintro _ (rfl | rfl)
    · exact offHalt_of_addr hh (by decide)
    · exact offHalt_of_addr hh (by decide)
  have hfold := hz.trans (InQe.foldl (l := z.sqsOf h) (fun x k _ => hdrop x k) z)
  refine ⟨?_, fun k => ?_, ?_⟩
  · rw [herdHalted, get_congr (hfold.regs _ fun hk => hk rfl)]
    exact hy
  · refine List.foldlRecOn (motive := fun x : Mach => (x.sq k).out = (m.sq k).out) _ _ ?_ fun x hx j _ => ?_
    · simp only [z]
      split <;> rfl
    · exact (dropFetched_out _ j k).trans hx
  · exact ((OnlyRegs.refl _ m).set trivial).trans (hfold.only.mono fun _ _ => trivial)

/-- A malformed descriptor of a herd's queue completes, and halts the herd with an event to it. -/
theorem malformed_spec (m : Mach) {k : Nat} (h0 : m.sqHerd k ≠ 0) (index uid reason : Nat) :
    ((m.malformed k index uid reason).sq k).out = ((m.complete k uid stMalformed 0 reason).sq k).out ∧
      (m.malformed k index uid reason).herdHalted (m.sqHerd k) = true ∧
      (∃ e ∈ (m.malformed k index uid reason).evq, e.code = 0x0101 ∧ e.dest = m.sqHerd k) ∧ OnlyRegs (fun _ => True) m (m.malformed k index uid reason) := by
  unfold malformed
  extract_lets h y z w
  have hy : InQe (fun _ => True) m y := (InQe.refl _ m).setSq _ _
  have hz : InQe (fun _ => True) y z :=
    .ite (.refl _ y) ((((((InQe.refl _ y).set trivial).set trivial).set trivial).set trivial).set trivial)
  have hzq : z.qe = y.qe := by simp only [z]; split <;> rfl
  have hw : FltOnly z w := .fault z srcQe kFailed _ (by decide) (by decide)
  obtain ⟨hhalt, hout, honly⟩ := w.haltHerd_spec (m.sqHerd_lt k)
  rw [if_neg h0]
  refine ⟨?_, hhalt, ⟨_, mem_evq_raise (w.haltHerd h) 0x0101 srcQe h (dest := [h, 0]) k _ (List.mem_cons_self), rfl, rfl⟩, ?_⟩
  · rw [← sq_congr hzq k, ← sq_congr hw.touch.qe k]
    exact hout k
  · have hm := (hy.trans hz).only.trans (((OnlyRegs.of_fltOnly hw).mono fun _ _ => trivial).trans honly)
    exact hm.of_regs rfl rfl rfl rfl rfl

/-! ## An entry that stays invalid (R136) -/

/-- The outcome of a malformed descriptor with a stale phase. -/
abbrev staleComp (m : Mach) : Comp := { status := stMalformed, bytes := 0, deadline := false, time := m.polder.toNat, detail := 6 }

/-- A claimed entry that stayed invalid for a lease period is malformed, and halts its herd. -/
theorem stalePhase_due {m : Mach} {k c since : Nat} {rest : List (Nat × Nat)} (hc : (m.sq k).claims = (c, since) :: rest) (hl : since + m.leaseAt since ≤ m.now)
    (hr : (m.sq k).refetchAt.isSome = true) (hen : m.bit F.QE_SQ_CFG_ENABLE 0 k = true) (h0 : m.sqHerd k ≠ 0) :
    (∃ o ∈ ((m.stalePhase k).sq k).out, o.uid = m.qe.nextUid ∧ o.index = m.sqHead k ∧ o.comp = some m.staleComp) ∧
      (m.stalePhase k).herdHalted (m.sqHerd k) = true ∧ (∃ e ∈ (m.stalePhase k).evq, e.code = 0x0101 ∧ e.dest = m.sqHerd k) ∧
      OnlyRegs (fun _ => True) m (m.stalePhase k) := by
  simp only [stalePhase, hc]
  rw [if_pos ⟨hl, hr, hen⟩]
  have hfresh : InQe (sqKey k) m.fresh.2 (m.fresh.2.acceptEntry k []) := (acceptEntry_spec _ k []).2.2.2.2
  obtain ⟨-, -, -, huid, -⟩ := acceptEntry_spec m.fresh.2 k []
  set x := m.fresh.2.acceptEntry k [] with hx
  set y := x.setSq k { x.sq k with fetched := (x.sq k).fetched.dropLast } with hy
  obtain ⟨hu, hplaced, hplace⟩ := y.place_out k (m.sqHead k) (m.fresh.1.toNat % 65536) 0
  set p := y.place k (m.sqHead k) (m.fresh.1.toNat % 65536) 0 with hp
  have hq : InQe (sqKey k) m.fresh.2 p.1 := (hfresh.setSq _ _).trans hplace
  have hherd : p.1.sqHerd k = m.sqHerd k := hq.regs.get (not_sqKey (by decide))
  have hpolder : p.1.polder = m.polder := by rw [hq.file]; rfl
  have hnext : p.2 = m.qe.nextUid := hu.trans huid
  obtain ⟨hmout, hhalt, hev, honly⟩ := p.1.malformed_spec (hherd.symm ▸ h0) (m.sqHead k) p.2 6
  rw [hherd] at hhalt hev
  refine ⟨⟨{ uid := m.qe.nextUid, index := m.sqHead k, tag := m.fresh.1.toNat % 65536, opcode := 0, comp := some m.staleComp }, ?_, rfl, rfl, rfl⟩, hhalt, hev, ?_⟩
  · have hyuid : y.qe.nextUid = m.qe.nextUid := huid
    rw [hmout, complete, finish, sq_setSq_same, hplaced, hnext, hpolder, hyuid]
    simp
  · have hm : OnlyRegs (fun _ => True) m m.fresh.2 := ⟨rfl, rfl, rfl, rfl, fun _ _ => rfl⟩
    exact (hm.trans (hq.only.mono fun _ _ => trivial)).trans honly

/-! ## Enabling and disabling (R147, R150) -/

/-- A write of a queue's control register that is admitted, and by a page that owns the queue, acts on it. -/
theorem sqCtl_of_admits {m : Mach} {v : Via} (h : m.Admits v 0x0040010C) (hp : ∀ g, v.page = some g → m.sqHerd (m.selSq v) = g) (f : Mach → Nat → Mach) :
    m.sqCtl v f = f m (m.selSq v) := by
  rw [sqCtl, gate_of_admits h]
  obtain ⟨p, g⟩ := v
  cases g with
  | none => rfl
  | some g => exact if_pos (hp g rfl)

/-- The herd's use of its share stands in a register of its own. -/
theorem setUsed_spec (m : Mach) (h n k : Nat) :
    (m.setUsed h resSqs n).bit F.QE_SQ_CFG_ENABLE 0 k = m.bit F.QE_SQ_CFG_ENABLE 0 k ∧ OnlyRegs (fun _ => True) m (m.setUsed h resSqs n) := by
  refine ⟨bit_congr (reg_setReg_ne _ _ ?_), (OnlyRegs.refl _ m).setReg _ trivial⟩
  simp only [resSqs, keyOf, fkey, regKey, regSpan]
  omega

/-- Fields written beside ENABLE leave it as it stood, and the queue engine. -/
theorem sqCfgFields_spec (m : Mach) (v : Via) (k value : Nat) (on : Bool) :
    (m.sqCfgFields v k value on).qe = m.qe ∧ (m.sqCfgFields v k value on).bit F.QE_SQ_CFG_ENABLE 0 k = m.bit F.QE_SQ_CFG_ENABLE 0 k ∧
      OnlyRegs (fun _ => True) m (m.sqCfgFields v k value on) := by
  unfold sqCfgFields
  split
  · extract_lets old e y new
    have hq : y.qe = m.qe := m.putFields_qe _ _ _ _
    have he : y.bit F.QE_SQ_CFG_ENABLE 0 k = m.bit F.QE_SQ_CFG_ENABLE 0 k := congrArg (· != 0) (get_set_of_lt _ _ _ _ (by decide) (getBits_lt _ _ _))
    have hy : OnlyRegs (fun _ => True) m y := (m.putFields_onlyRegs _ _ _ _).set trivial
    split
    · exact ⟨hq, he, hy⟩
    · obtain ⟨hgive, hogive⟩ := y.setUsed_spec old (y.used old resSqs - 1) k
      obtain ⟨htake, hotake⟩ := (y.giveBack old resSqs 1).setUsed_spec new ((y.giveBack old resSqs 1).used new resSqs + 1) k
      exact ⟨hq, (htake.trans hgive).trans he, (hy.trans hogive).trans hotake⟩
  · exact ⟨rfl, rfl, .refl _ m⟩

/-- What SQ_ENABLE does to a disabled queue: the bind is refused, or the queue starts. -/
theorem sqEnable_spec {m m' : Mach} {v : Via} {value : Nat} (h : m.Admits v 0x0040010C) (hp : ∀ g, v.page = some g → m.sqHerd (m.selSq v) = g)
    (hen : m.bit F.QE_SQ_CFG_ENABLE 0 (m.selSq v) = false) (hm : m' = m.sqCfgFields v (m.selSq v) value false) :
    (m'.bindingsOn (m'.get F.QE_SQ_CQ_CQ 0 (m.selSq v)) = [] → m'.cqHerd (m'.get F.QE_SQ_CQ_CQ 0 (m.selSq v)) = m'.sqHerd (m.selSq v) →
        (m.sqEnable v value).bit F.QE_SQ_CFG_ENABLE 0 (m.selSq v) = true) ∧
      (m'.bindingsOn (m'.get F.QE_SQ_CQ_CQ 0 (m.selSq v)) ≠ [] ∨ m'.cqHerd (m'.get F.QE_SQ_CQ_CQ 0 (m.selSq v)) ≠ m'.sqHerd (m.selSq v) →
        (m.sqEnable v value).bit F.QE_STATUS_BIND_REFUSED = true ∧ (m.sqEnable v value).bit F.QE_SQ_CFG_ENABLE 0 (m.selSq v) = false) ∧
      OnlyRegs (fun _ => True) m (m.sqEnable v value) := by
  set k := m.selSq v with hk
  obtain ⟨-, henable, honly⟩ := m.sqCfgFields_spec v k value false
  rw [← hm] at henable honly
  have hx : m.sqEnable v value = if (m'.bindingsOn (m'.get F.QE_SQ_CQ_CQ 0 k)).isEmpty = false ∨ m'.cqHerd (m'.get F.QE_SQ_CQ_CQ 0 k) ≠ m'.sqHerd k then
      m'.set F.QE_STATUS_BIND_REFUSED 1 else ((m'.set F.QE_SQ_CFG_ENABLE 1 0 k).sqIdle k).startRead k false := by
    rw [sqEnable, sqCtl_of_admits h hp, ← hk, hen, ← hm]
    rfl
  rw [hx]
  refine ⟨fun hb hc => ?_, fun hr => ?_, ?_⟩
  · rw [if_neg (by simp [hb, hc]), bit_congr (startRead_regs _ _ _ _)]
    exact (bit_set_of_addr _ (by decide)).trans (bit_set_same m' _ true _ _ (by decide) rfl)
  · rw [if_pos (hr.imp_left fun hb => by simpa using hb)]
    exact ⟨bit_set_same m' _ true _ _ (by decide) rfl, (bit_set_of_addr m' (by decide)).trans (henable.trans hen)⟩
  · split
    · exact honly.set trivial
    · exact ((honly.set trivial).set trivial).trans ((startRead_inQe _ k false).mono fun _ _ => trivial).only

/-- What SQ_DISABLE does. -/
theorem sqDisableCmd_spec {m : Mach} {v : Via} {value : Nat} (h : m.Admits v 0x0040010C) (hp : ∀ g, v.page = some g → m.sqHerd (m.selSq v) = g) :
    (m.sqDisableCmd v value).bit F.QE_SQ_CFG_ENABLE 0 (m.selSq v) = false ∧ ((m.sqDisableCmd v value).sq (m.selSq v)).fetched = [] ∧
      ((m.sqDisableCmd v value).sq (m.selSq v)).out = (m.sq (m.selSq v)).out ∧
      (m.sqDisableCmd v value).bit F.QE_SQ_STATUS_IDLE 0 (m.selSq v) = (m.sq (m.selSq v)).out.isEmpty ∧
      (∀ d rest, (m.sq (m.selSq v)).fetched = d :: rest → (m.sqDisableCmd v value).sqHead (m.selSq v) = d.index % 2 ^ F.QE_SQ_PTR_OWN.wd) ∧
      OnlyRegs (fun _ => True) m (m.sqDisableCmd v value) := by
  rw [sqDisableCmd, sqCtl_of_admits h hp]
  set k := m.selSq v
  obtain ⟨hq, -, honly⟩ := m.sqCfgFields_spec v k value (m.bit F.QE_SQ_CFG_ENABLE 0 k)
  obtain ⟨hen, hfetched, hout, hidle, hhead, hdis⟩ := (m.sqCfgFields v k value (m.bit F.QE_SQ_CFG_ENABLE 0 k)).sqDisable_spec k
  rw [sq_congr hq] at hout hidle hhead
  exact ⟨hen, hfetched, hout, hidle, hhead, honly.trans hdis⟩

end Mach

/-- Settles O12: a read of one entry, a repeated read, an entry whose phase stays stale, and a queue enabled and disabled. -/
theorem submissionQueues : Obligations.SubmissionQueues := by
  unfold Obligations.SubmissionQueues
  refine ⟨?_, ?_, ?_, ?_⟩
  · intro s t k i timed ext mid m' segs words hi hrun hr hroom hmid ht hwords
    subst hmid hwords
    have haside := Aside.tile ht
    have hxlt := Mach.tile_to ht
    have hsq : m'.sq k = { s.m.sq k with reading := none } := (Mach.sq_congr haside.qe k).trans (Mach.sq_setSq_same (s.m.advance t) k _)
    have hphase : m'.get F.QE_SQ_STATUS_PHASE 0 k = s.m.get F.QE_SQ_STATUS_PHASE 0 k := haside.regs.queueGet (by decide)
    have hhead : m'.sqHead k = s.m.sqHead k := haside.regs.queueGet (by decide)
    have hsize : m'.sqSize k = s.m.sqSize k := congrArg ringSize (haside.regs.queueGet (by decide))
    have hrefetch : m'.get F.QE_CTL_REFETCH = s.m.get F.QE_CTL_REFETCH := haside.regs.queueGet (by decide)
    have honly : OnlyRegs (fun _ => True) (s.m.advance t) m' := ((InQe.refl _ (s.m.advance t)).setSq k _).only.trans (hxlt.only.mono fun _ _ => trivial)
    by_cases hp : getBits (nthD (m'.entryWords segs ext) 0 0) 4 1 = s.m.get F.QE_SQ_STATUS_PHASE 0 k
    · have hx := Mach.sqReadComplete_valid (m := s.m.advance t) hr hroom ht (hp.trans hphase.symm)
      obtain ⟨hfetched, -, hnewHead, -, haccept⟩ := m'.acceptEntry_spec k (m'.entryWords segs ext)
      obtain ⟨hafter, hqafter⟩ := (m'.acceptEntry k (m'.entryWords segs ext)).afterRead_spec k
      have ho := honly.trans ((haccept.mono fun _ _ => trivial).trans (hqafter.mono fun _ _ => trivial)).only
      refine runs_of_engines rfl hi hrun hx ho fun hframe hreg => ⟨fun _ => ⟨?_, ?_⟩, fun hn => absurd hp hn, hframe.2⟩
      · exact hafter.trans (hfetched.trans (by rw [hsq, hhead]))
      · exact ((Mach.get_congr (hreg _)).trans (Mach.get_congr (hqafter.regs _ id))).trans (hnewHead.trans (by rw [hhead, hsize]))
    · have hx := Mach.sqReadComplete_stale (m := s.m.advance t) hr hroom ht fun he => hp (he.trans hphase)
      rw [hsq, haside.steady.now, hrefetch] at hx
      by_cases hc : timed = true ∧ (s.m.sq k).claims = []
      · rw [if_pos hc] at hx
        refine runs_of_engines rfl hi hrun hx honly fun hframe hreg => ⟨fun he => absurd he hp, fun _ => ⟨?_, (Mach.get_congr (hreg _)).trans hhead, ?_⟩, hframe.2⟩
        · exact (congrArg Sq.fetched hsq :)
        · exact .inr ⟨hc.1, hc.2, (congrArg Sq.refetchAt hsq :)⟩
      · rw [if_neg hc] at hx
        refine runs_of_engines rfl hi hrun hx (honly.trans ((InQe.refl _ m').setSq k _).only) fun hframe hreg =>
          ⟨fun he => absurd he hp, fun _ => ⟨?_, (Mach.get_congr (hreg _)).trans hhead, .inl ?_⟩, hframe.2⟩
        · exact (congrArg Sq.fetched (Mach.sq_setSq_same m' k _) :)
        · exact (congrArg Sq.refetchAt (Mach.sq_setSq_same m' k _) :)
  · intro s t k r hi hrun hr hdue hen hhalt hreset hroom hidle hwait hclaims hbehind
    have hmay : (s.m.advance t).MayRead k := ⟨hen, hhalt, hreset, hrun.1, hroom, hidle, hwait, hclaims, hbehind⟩
    have hx := (Mach.refetchTimer_due (m := s.m.advance t) hr hdue).trans (Mach.startRead_of_mayRead hmay true)
    refine runs_of_engines rfl hi hrun hx ((InQe.refl _ _).setSq k _).only fun hframe _ => ⟨?_, ?_, hframe⟩
    · exact congrArg Sq.refetchAt (Mach.sq_setSq_same (s.m.advance t) k _)
    · exact congrArg Sq.reading (Mach.sq_setSq_same (s.m.advance t) k _)
  · intro s t k c since rest hi hrun hc hl hr hen h0 _
    obtain ⟨hout, hhalt, hev, honly⟩ := Mach.stalePhase_due (m := s.m.advance t) hc hl hr hen h0
    refine runs_of_engines rfl hi hrun rfl honly fun hframe hreg => ⟨hout, ?_, hev, hframe.2⟩
    rw [Mach.herdHalted, Mach.get_congr (hreg _)]
    exact hhalt
  · intro s v w k m' hi hadm hk hp
    subst hk
    refine ⟨fun hen hm => ?_, ?_⟩
    · obtain ⟨hstart, hrefuse, honly⟩ := Mach.sqEnable_spec hadm hp hen hm
      refine runs_of_onlyRegs (f := fun m => m.sqEnable v w.toNat) rfl hi rfl honly fun _ hreg => ⟨fun hb hc => ?_, fun hr => ?_⟩
      · exact (Mach.bit_congr (hreg _)).trans (hstart hb hc)
      · exact ⟨(Mach.bit_congr (hreg _)).trans (hrefuse hr).1, (Mach.bit_congr (hreg _)).trans (hrefuse hr).2⟩
    · obtain ⟨hen, hfetched, hout, hidle, hhead, honly⟩ := Mach.sqDisableCmd_spec (value := w.toNat) hadm hp
      refine runs_of_onlyRegs (f := fun m => m.sqDisableCmd v w.toNat) rfl hi rfl honly fun hframe hreg =>
        ⟨(Mach.bit_congr (hreg _)).trans hen, hfetched, hout, (Mach.bit_congr (hreg _)).trans hidle, fun d rest h => ?_, hframe.2⟩
      exact (Mach.get_congr (hreg _)).trans (hhead d rest h)

end Sys2Proof.Machine
end


section
/-! SUPPORT. What a command's list of store changes comes to once they are carried out. -/
namespace Sys2Proof.Machine

theorem memGet_filter (mem : Memory) (p : Nat → Bool) (x : Nat) : memGet (mem.filter fun c => p c.1) x = if p x then memGet mem x else 0 := by
  have h : alGet (mem.filter fun c => p c.1) x = if p x then alGet mem x else none := by
    induction mem with
    | nil => simp [alGet]
    | cons c r ih =>
      obtain ⟨k, w⟩ := c
      by_cases hk : p k
      · by_cases hx : x = k
        · subst hx
          simp [alGet, hk]
        · simpa [alGet, hk, hx] using ih
      · by_cases hx : x = k
        · subst hx
          simpa [alGet, hk] using ih
        · simpa [alGet, hk, hx] using ih
  rw [memGet, h]
  split <;> rfl

/-- A byte in a range set to zero reads 0, and every other byte as before. -/
theorem memGet_memZero (mem : Memory) (lo len x : Nat) : memGet (memZero mem lo len) x = if lo ≤ x ∧ x < lo + len then 0 else memGet mem x := by
  refine (memGet_filter mem (fun a => a < lo || lo + len ≤ a) x).trans ?_
  by_cases h : lo ≤ x ∧ x < lo + len
  · rw [if_pos h, if_neg (by simp; omega)]
  · rw [if_neg h, if_pos (by simp; omega)]

/-- A change puts its byte where it reaches, and leaves every other byte. -/
theorem MemOp.memGet_apply (op : MemOp) (st : Store) {mem : Memory} (h : Memory.wf mem = true) (x : Nat) :
    memGet (op.apply st mem) x = (op.at st x).getD (memGet mem x) := by
  cases op with
  | bytes s lo d =>
    by_cases hs : s = st
    · by_cases hlo : lo ≤ x
      · by_cases hin : x - lo < d.length
        · have hx := memGet_memWrite_in h lo d hin
          rw [Nat.add_sub_cancel' hlo] at hx
          simp [MemOp.apply, MemOp.at, hs, hlo, hin, hx]
        · have hx := memGet_memWrite_out mem lo d (x := x) (by omega)
          simp [MemOp.apply, MemOp.at, hs, hlo, hx, Nat.le_of_not_lt hin]
      · have hx := memGet_memWrite_out mem lo d (x := x) (by omega)
        simp [MemOp.apply, MemOp.at, hs, hlo, hx]
    · simp [MemOp.apply, MemOp.at, hs]
  | zero s lo len =>
    by_cases hs : s = st
    · simp only [MemOp.apply, MemOp.at, hs, true_and, if_true, memGet_memZero]
      split <;> rfl
    · simp [MemOp.apply, MemOp.at, hs]

/-- The youngest change that reaches a byte says what it reads. -/
theorem memGet_applyAll (st : Store) {mem : Memory} (h : Memory.wf mem = true) (ops : List MemOp) (x : Nat) :
    memGet (ops.foldr (fun op m => op.apply st m) mem) x = (ops.findSome? (fun op => op.at st x)).getD (memGet mem x) := by
  induction ops with
  | nil => rfl
  | cons op r ih =>
    rw [List.foldr_cons, op.memGet_apply st (applyAll_wf st h r), ih, List.findSome?_cons]
    cases op.at st x <;> rfl

theorem Mach.rd_congr {m x : Mach} (hw : x.wr = m.wr) (hb : x.base = m.base) (st : Store) (a : Nat) : x.rd st a = m.rd st a := by
  rw [Mach.rd, hw, hb, Mach.rd]

/-- Once a command has settled, its stores read as it saw them at its end. -/
theorem storesOf_settle {m x : Mach} (hi : m.Inv) (hb : x.base = m.base) : StoresOf x (settle m x) := by
  obtain ⟨hp, hc, ht, hf, -⟩ := hi
  intro st a
  rw [Mach.rd, hb]
  cases st with
  | peat => exact memGet_applyAll .peat hp x.wr a
  | cream => exact memGet_applyAll .cream hc x.wr a
  | tsram => exact memGet_applyAll .tsram ht x.wr a
  | flash => exact memGet_applyAll .flash hf x.wr a

end Sys2Proof.Machine
end

section
/-! SUPPORT. A write to a translated range stays out of the queue engine's way (06_translation_windows.md R173; 10_memory.md R282; 15_cipher.md R378, R382, R384). -/
namespace Sys2Proof.Machine

theorem offQe_of_addr {f : Fld} {i s : Nat} (h : (f.addr + f.step * i) % regSpan / 0x10000 ≠ 0x40) : offQe (keyOf f i s) := by
  rwa [offQe, keyOf_mod]

/-- The second half of a pair. -/
theorem offQe_of_addr_hi {f : Fld} {i s : Nat} (h : (f.addr + f.step * i + 4) % regSpan / 0x10000 ≠ 0x40) : offQe (keyOf f i s + 4) := by
  have e : keyOf f i s + 4 = f.addr + f.step * i + 4 + regSpan * s := by simp only [keyOf, Mach.fkey, regKey]; omega
  rwa [offQe, e, Nat.add_mul_mod_self_left]

namespace Aside

theorem setReg {x y : Mach} (h : Aside x y) {k : Nat} {w : Word} (hk : offQe k) : Aside x (y.setReg k w) :=
  ⟨h.steady.setReg, h.qe, h.variant, h.downs, h.tileDowns, h.regs.setReg w hk⟩

theorem set {x y : Mach} (h : Aside x y) {f : Fld} {v i s : Nat} (hf : (f.addr + f.step * i) % regSpan / 0x10000 ≠ 0x40) : Aside x (y.set f v i s) :=
  h.setReg (offQe_of_addr hf)

theorem set64 {x y : Mach} (h : Aside x y) {f : Fld} {v i s : Nat} (hf : (f.addr + f.step * i) % regSpan / 0x10000 ≠ 0x40)
    (hg : (f.addr + f.step * i + 4) % regSpan / 0x10000 ≠ 0x40) : Aside x (y.set64 f v i s) := (h.setReg (offQe_of_addr hf)).setReg (offQe_of_addr_hi hg)

/-- An update of a unit that is no queue engine, of no register and of nothing that a command must not lose. -/
theorem of_eq {x y : Mach} (hs : Steady x y) (hr : y.regs = x.regs) (hq : y.qe = x.qe) (hv : y.variant = x.variant) (hd : y.downs = x.downs)
    (ht : y.tileDowns = x.tileDowns) : Aside x y := ⟨hs, hq, hv, hd, ht, (RegsBut.refl _ x).of_regs hv hr⟩

theorem wrBytes (x : Mach) (st : Store) (a : Nat) (d : List Byte) : Aside x (x.wrBytes st a d) := .of_eq (.of_eq rfl rfl rfl rfl rfl) rfl rfl rfl rfl rfl

theorem putMem (x : Mach) (y : MemSt) : Aside x (x.putMem y) := .of_eq (.of_eq rfl rfl rfl rfl rfl) rfl rfl rfl rfl rfl

theorem raise (x : Mach) (code source herd : Nat) (dest : List Nat) (a b : Nat) : Aside x (x.raise code source herd dest a b) :=
  .of_eq (.of_eq rfl rfl rfl rfl rfl) rfl rfl rfl rfl rfl

theorem setKeyPage (x : Mach) (p : Nat) (y : KeyPage) : Aside x (x.setKeyPage p y) := .of_eq (.of_eq rfl rfl rfl rfl rfl) rfl rfl rfl rfl rfl

theorem zeroCounters (x : Mach) (p : Nat) : Aside x (x.zeroCounters p) := .of_eq (.of_eq rfl rfl rfl rfl rfl) rfl rfl rfl rfl rfl

theorem foldl {α : Type} {g : Mach → α → Mach} {l : List α} (h : ∀ z a, Aside z (g z a)) (x : Mach) : Aside x (l.foldl g x) :=
  List.foldlRecOn (motive := Aside x) l g (.refl x) fun z hz a _ => hz.trans (h z a)

/-- The switch of a key page's keys (15_cipher.md R382). -/
theorem keySwitch (x : Mach) (p : Nat) : Aside x (x.keySwitch p) := by
  unfold Mach.keySwitch
  extract_lets k e c o own y z w v
  have hy : Aside x y := setKeyPage x p _
  have hz : Aside y z := (((((refl y).set (by decide)).set (by decide)).set (by decide)).set (by decide)).set (by decide)
  have hw : Aside z w := ((refl z).set64 (by decide) (by decide)).trans (zeroCounters _ p)
  have hv : Aside w v := .ite (((refl w).set64 (by decide) (by decide)).trans (setKeyPage _ p _)) (refl w)
  exact (((hy.trans hz).trans hw).trans hv).trans (raise v _ _ _ _ _ _)

/-- A write is logged page by page (06_translation_windows.md R173). -/
theorem dirtyLog (x : Mach) (h a va len : Nat) : Aside x (x.dirtyLog h a va len) := by
  unfold Mach.dirtyLog
  extract_lets s base va0 pages first last
  exact .ite (refl x) (foldl (fun z i => .ite (wrBytes z _ _ _) ((refl z).set (by decide))) x)

/-- A write reaches the mirror region of its granule (10_memory.md R282, R283). -/
theorem mirrorLog (x : Mach) (addr len : Nat) (sched : Bool) : Aside x (x.mirrorLog addr len sched) := by
  unfold Mach.mirrorLog
  split
  · exact refl x
  · refine .ite (refl x) (foldl (fun z i => ?_) x)
    exact .ite (putMem z _) (.ite (putMem z _) (putMem z _))

/-- Sectors written under a store key count (15_cipher.md R378, R382, R384). -/
theorem storeKeyCount (x : Mach) (addr len : Nat) : Aside x (x.storeKeyCount addr len) := by
  unfold Mach.storeKeyCount
  extract_lets g p n y o
  have hy : Aside x y := (refl x).set64 (by decide) (by decide)
  exact .ite (refl x) (.ite (hy.trans (keySwitch y p)) (.ite ((hy.set (by decide)).trans (raise _ _ _ _ _ _ _)) hy))

/-- The bytes of one piece reach the memory that serves it. -/
theorem writeSeg (x : Mach) (s : Seg) (d : List Byte) (sched : Bool) : Aside x (x.writeSeg s d sched) := by
  refine .ite ?_ (.ite ?_ ?_)
  · exact (((mirrorLog x _ _ sched).trans (storeKeyCount _ _ _)).trans (wrBytes _ _ _ _)).trans (putMem _ _)
  · exact (wrBytes x _ _ _).trans (putMem _ _)
  · exact .of_eq (.of_eq rfl rfl rfl rfl rfl) rfl rfl rfl rfl rfl

theorem writeSegs (x : Mach) (h a kind chan msg : Nat) (sched : Bool) (segs : List Seg) (d : List Byte) : Aside x (x.writeSegs h a kind chan msg sched segs d) := by
  induction segs generalizing x d with
  | nil => exact refl x
  | cons s r ih => exact (((dirtyLog x h a s.va _).trans (writeSeg _ s _ sched)).trans (putMem _ _)).trans (ih _ _)

/-- A write to a virtual address: translated, then written. -/
theorem writeVa {m n : Mach} {h a unit kind chan msg va : Nat} {d : List Byte} {r : Option (Nat × Nat)} (hw : m.writeVa h a unit kind chan msg va d = (n, r)) :
    Aside m n := by
  unfold Mach.writeVa at hw
  split at hw <;> rename_i ht <;> cases hw
  · exact .tile ht
  · exact (Aside.tile ht).trans (writeSegs _ _ _ _ _ _ _ _ _)

end Aside
end Sys2Proof.Machine
end


section
/-! SUPPORT. Completions and events on their way into their rings (05_queues_descriptors.md R128, R132, R144 to R149). -/
namespace Sys2Proof.Machine

/-- How to show what a command does that lets time pass, hands bytes to the stores in `m'`, and then reaches the queue engine and registers alone. -/
theorem runs_of_written {c : Instr} {s : State} {P : Mach → Prop} {f : Mach → Mach} {m' x : Mach} {t : Nat}
    (hc : Sys2Proof.Machine.exec c s = commit s (fun m => (m.advance t).engines f)) (hi : s.m.Inv) (hr : s.m.Running) (hx : f (s.m.advance t) = x)
    (hm : Aside (s.m.advance t) m') (ho : InQe (fun _ => True) m' x)
    (h : StoresOf m' (settle s.m x) → (∀ k, (settle s.m x).reg k = x.reg k) → P (settle s.m x)) : Runs c s P := by
  have hf : (s.m.advance t).engines f = x := (Mach.engines_of_running (m := s.m.advance t) hr f).trans hx
  have hwr : x.wr = m'.wr := ho.only.wr
  have hbase : x.base = m'.base := by rw [ho.file]; rfl
  have hbase' : x.base = s.m.base := hbase.trans hm.steady.base
  have hvar : x.variant = s.m.variant := ho.only.variant.trans hm.variant
  refine runs_of_commit hc hi ?_ ?_ ?_
  · rw [hf, ho.only.downs, hm.downs]
    exact hi.no_downs
  · rw [hf, ho.only.tileDowns, hm.tileDowns]
    exact hi.no_tileDowns
  · rw [hf]
    exact h (fun st a => (storesOf_settle hi hbase' st a).trans (Mach.rd_congr hwr hbase st a)) fun k => settle_reg _ _ k hvar

namespace Mach

@[simp] theorem cq_setCq_same (m : Mach) (c : Nat) (x : Cq) : (m.setCq c x).cq c = x := by simp [cq, setCq, alGet_alPut_same]

@[simp] theorem cq_setSq (m : Mach) (k c : Nat) (x : Sq) : (m.setSq k x).cq c = m.cq c := rfl

@[simp] theorem sq_setCq (m : Mach) (k c : Nat) (x : Cq) : (m.setCq c x).sq k = m.sq k := rfl

theorem cq_congr {m x : Mach} (h : x.qe = m.qe) (c : Nat) : x.cq c = m.cq c := by rw [cq, h, cq]

/-! ## Bytes 8 to 31 of a completion (R132, R144) -/

/-- The header that waits for bytes 8 to 31 of a descriptor's completion to land. -/
abbrev compHeader (k i ph : Nat) (o : OutDesc) (x : Comp) : Header :=
  { index := i, bytes := (compBytes ph false k o.index o.tag x).take 8, sq := some k, status := x.status }

/-- The oldest completion that is not begun goes to the next entry of an enabled ring. -/
theorem completionWrite_due {m n : Mach} {k c i ph : Nat} {o : OutDesc} {x : Comp} (hc : c = m.get F.QE_SQ_CQ_CQ 0 k)
    (ho : (m.sq k).out[((m.cq c).headers.filter (fun h => h.sq == some k)).length]? = some o) (hx : o.comp = some x)
    (hf : m.bit F.QE_CQ_STATUS_RING_FAULT 0 c = false) (he : m.bit F.QE_CQ_CFG_ENABLE 0 c = true) (hn : m.cqNext c = (i, ph))
    (hw : m.writeVa (m.cqHerd c) (m.get F.QE_CQ_CFG_ASID 0 c) srcQe 3 (c * 65536 + i) 0 (m.ringBase F.QE_CQ_BASE_LO c + 32 * i + 8)
      ((compBytes ph false k o.index o.tag x).drop 8) = (n, none)) :
    m.completionWrite k = n.setCq c { n.cq c with headers := (n.cq c).headers ++ [compHeader k i ph o x] } := by
  have hbody : m.cqBody c (some k) false k o.index o.tag x = n.setCq c { n.cq c with headers := (n.cq c).headers ++ [compHeader k i ph o x] } := by
    simp only [cqBody, hn, hw]
  subst hc
  simp only [completionWrite, ho, hx, hf, he]
  exact hbody

/-! ## Bytes 0 to 7 (R132, R146) -/

/-- The ring once bytes 0 to 7 of the entry of `h` are written: its index has passed the entry. -/
def headerWritten (m : Mach) (c : Nat) (h : Header) (rest : List Header) : Mach :=
  let m := m.setCq c { m.cq c with headers := rest }
  let j := (h.index + 1) % m.cqSize c
  let m := if j = 0 then m.set F.QE_CQ_STATUS_PHASE (1 - m.get F.QE_CQ_STATUS_PHASE 0 c) 0 c else m
  (m.set F.QE_CQ_PTR_OWN j 0 c).cqFull c

/-- Queue `k` once its oldest completion, of a status, is in its ring. -/
def completionCounted (m : Mach) (k status : Nat) : Mach :=
  let m := m.setSq k { m.sq k with out := (m.sq k).out.drop 1 }
  let m := m.set F.QE_SQ_COUNT ((m.get F.QE_SQ_COUNT 0 k + 1) % 2 ^ 32) 0 k
  let m := if status = stDone ∨ status = stProvisional then m
    else (m.set F.QE_SQ_FAIL ((m.get F.QE_SQ_FAIL 0 k + 1) % 2 ^ 32) 0 k).set F.QE_SQ_STATUS_LAST_FAIL status 0 k
  m.sqIdle k

theorem completionHeader_landed {m n : Mach} {c k : Nat} {h : Header} {rest : List Header} (hh : (m.cq c).headers = h :: rest) (hk : h.sq = some k)
    (hl : m.landed 3 (c * 65536 + h.index) 0 = true)
    (hw : m.writeVa (m.cqHerd c) (m.get F.QE_CQ_CFG_ASID 0 c) srcQe 3 (c * 65536 + h.index) 1 (m.ringBase F.QE_CQ_BASE_LO c + 32 * h.index) h.bytes = (n, none)) :
    m.completionHeader c = (n.headerWritten c h rest).completionCounted k h.status := by
  simp only [completionHeader, hh, hl, hw, hk]
  rfl

/-- Whether a key is that of the indices or of the status of completion ring `c`. -/
abbrev cqKey (c x : Nat) : Prop := x = keyOf F.QE_CQ_PTR_OWN 0 c ∨ x = keyOf F.QE_CQ_STATUS_FULL 0 c

theorem headerWritten_spec (m : Mach) (c : Nat) (h : Header) (rest : List Header) :
    ((m.headerWritten c h rest).cq c).headers = rest ∧ (∀ k, (m.headerWritten c h rest).sq k = m.sq k) ∧
      (m.headerWritten c h rest).get F.QE_CQ_PTR_OWN 0 c = (h.index + 1) % m.cqSize c ∧ InQe (cqKey c) m (m.headerWritten c h rest) := by
  unfold headerWritten
  extract_lets _ x j y
  have hx : InQe (cqKey c) m x := (InQe.refl _ m).setCq _ _
  have hy : InQe (cqKey c) x y := .ite ((InQe.refl _ x).set (.inr rfl)) (.refl _ x)
  have hq : y.qe = x.qe := by simp only [y]; split <;> rfl
  have hqe : ((y.set F.QE_CQ_PTR_OWN j 0 c).cqFull c).qe = x.qe := by rw [cqFull, set_qe, set_qe, hq]
  refine ⟨?_, fun k => ?_, ?_, ((hx.trans hy).set (.inl rfl)).set (.inr rfl)⟩
  · rw [cq_congr hqe, cq_setCq_same]
  · rw [sq_congr hqe, sq_setCq]
  · exact (get_set_of_addr _ (by decide)).trans (get_set_of_lt y _ _ _ (by decide) (mod_ringSize_lt _ _))

/-- Whether a key is that of a count or of the status of queue `k`. -/
abbrev countKey (k x : Nat) : Prop := x = keyOf F.QE_SQ_COUNT 0 k ∨ x = keyOf F.QE_SQ_FAIL 0 k ∨ x = keyOf F.QE_SQ_STATUS_IDLE 0 k

theorem completionCounted_spec (m : Mach) (k status : Nat) :
    ((m.completionCounted k status).sq k).out = (m.sq k).out.drop 1 ∧ (∀ c, (m.completionCounted k status).cq c = m.cq c) ∧
      (m.completionCounted k status).get F.QE_SQ_COUNT 0 k = (m.get F.QE_SQ_COUNT 0 k + 1) % 2 ^ 32 ∧
      (m.completionCounted k status).get F.QE_SQ_FAIL 0 k =
        (if status = stDone ∨ status = stProvisional then m.get F.QE_SQ_FAIL 0 k else (m.get F.QE_SQ_FAIL 0 k + 1) % 2 ^ 32) ∧
      InQe (countKey k) m (m.completionCounted k status) := by
  unfold completionCounted
  extract_lets _ x y z
  have hx : InQe (countKey k) m x := (InQe.refl _ m).setSq _ _
  have hy : InQe (countKey k) x y := (InQe.refl _ x).set (.inl rfl)
  have hz : InQe (countKey k) y z := .ite (.refl _ y) (((InQe.refl _ y).set (.inr (.inl rfl))).set (.inr (.inr rfl)))
  have hq : z.qe = x.qe := by simp only [z]; split <;> rfl
  have hqe : (z.sqIdle k).qe = x.qe := by rw [sqIdle, set_qe, hq]
  have hcount : y.get F.QE_SQ_COUNT 0 k = (m.get F.QE_SQ_COUNT 0 k + 1) % 2 ^ 32 := get_set_of_lt x _ _ _ (by decide) (Nat.mod_lt _ (by decide))
  have hfail : y.get F.QE_SQ_FAIL 0 k = m.get F.QE_SQ_FAIL 0 k := get_set_of_addr x (by decide)
  refine ⟨?_, fun c => ?_, (get_set_of_addr z (by decide)).trans ?_, (get_set_of_addr z (by decide)).trans ?_, ((hx.trans hy).trans hz).set (.inr (.inr rfl))⟩
  · rw [sq_congr hqe, sq_setSq_same]
  · rw [cq_congr hqe, cq_setSq]
  · simp only [z]
    split
    · exact hcount
    · exact ((get_set_of_addr _ (by decide)).trans (get_set_of_addr _ (by decide))).trans hcount
  · simp only [z]
    split
    · exact hfail
    · rw [get_set_of_addr _ (by decide), get_set_of_lt _ _ _ _ (by decide) (Nat.mod_lt _ (by decide)), hfail]

/-- A completion in its ring and counted. -/
theorem headerCounted_spec (m : Mach) (c k : Nat) (h : Header) (rest : List Header) :
    let x := (m.headerWritten c h rest).completionCounted k h.status
    (x.cq c).headers = rest ∧ (x.sq k).out = (m.sq k).out.drop 1 ∧ x.get F.QE_CQ_PTR_OWN 0 c = (h.index + 1) % m.cqSize c ∧
      x.get F.QE_SQ_COUNT 0 k = (m.get F.QE_SQ_COUNT 0 k + 1) % 2 ^ 32 ∧
      x.get F.QE_SQ_FAIL 0 k = (if h.status = stDone ∨ h.status = stProvisional then m.get F.QE_SQ_FAIL 0 k else (m.get F.QE_SQ_FAIL 0 k + 1) % 2 ^ 32) ∧
      InQe (fun _ => True) m x := by
  intro x
  obtain ⟨hheaders, hsq, hptr, hwritten⟩ := m.headerWritten_spec c h rest
  set y := m.headerWritten c h rest
  obtain ⟨hout, hcq, hcount, hfail, hcounted⟩ := y.completionCounted_spec k h.status
  have hptr' : x.get F.QE_CQ_PTR_OWN 0 c = y.get F.QE_CQ_PTR_OWN 0 c := hcounted.regs.get (by
    rintro (he | he | he)
    · exact fkey_ne_of_addr c k (by decide) he
    · exact fkey_ne_of_addr c k (by decide) he
    · exact fkey_ne_of_addr c k (by decide) he)
  have hcount' : y.get F.QE_SQ_COUNT 0 k = m.get F.QE_SQ_COUNT 0 k := hwritten.regs.get (by
    rintro (he | he)
    · exact fkey_ne_of_addr k c (by decide) he
    · exact fkey_ne_of_addr k c (by decide) he)
  have hfail' : y.get F.QE_SQ_FAIL 0 k = m.get F.QE_SQ_FAIL 0 k := hwritten.regs.get (by
    rintro (he | he)
    · exact fkey_ne_of_addr k c (by decide) he
    · exact fkey_ne_of_addr k c (by decide) he)
  refine ⟨?_, ?_, hptr'.trans hptr, ?_, ?_, (hwritten.mono fun _ _ => trivial).trans (hcounted.mono fun _ _ => trivial)⟩
  · rw [hcq, hheaders]
  · rw [hout, hsq]
  · rw [hcount, hcount']
  · rw [hfail, hfail']

/-! ## Events (R148, R149) -/

/-- The 32 bytes of an event's entry in its ring. -/
abbrev eventBytes (m : Mach) (e : Event) : List Byte :=
  leBytes 8 (1 + m.get F.QE_EQ_STATUS_PHASE 0 e.dest * 16 + e.code * 2 ^ 16 + e.source * 2 ^ 32 + e.herd * 2 ^ 48) ++ leBytes 8 e.time.toNat ++
    leBytes 8 e.info0.toNat ++ leBytes 8 e.info1.toNat

/-- The ring once an event stands in entry `i`: its index has passed the entry. -/
def eventPassed (m : Mach) (h i ph : Nat) : Mach :=
  let j := (i + 1) % m.eqSize h
  let m := if j = 0 then m.set F.QE_EQ_STATUS_PHASE (1 - ph) 0 h else m
  (m.set F.QE_EQ_PTR_OWN j 0 h).eqFull h

theorem eventPassed_spec (m : Mach) (h i ph : Nat) :
    (m.eventPassed h i ph).get F.QE_EQ_PTR_OWN 0 h = (i + 1) % m.eqSize h ∧ InQe (fun _ => True) m (m.eventPassed h i ph) := by
  unfold eventPassed
  extract_lets j x
  have hx : InQe (fun _ => True) m x := .ite ((InQe.refl _ m).set trivial) (.refl _ m)
  refine ⟨?_, (hx.set trivial).set trivial⟩
  exact (get_set_of_addr _ (by decide)).trans (get_set_of_lt x _ _ _ (by decide) (mod_ringSize_lt _ _))

/-- The oldest event goes into an open ring with room, bytes 8 to 31 first. -/
theorem eventWrite_open {m x y z : Mach} {e : Event} {rest : List Event} {b : List Byte} (he : m.evq = e :: rest) (hl : (alGet m.qe.lost e.dest).getD 0 = 0)
    (ho : m.eqOpen e.dest = true) (hf : 2 ≤ m.eqFree e.dest) (hx : x = m.putEvq rest) (hb : b = m.eventBytes e)
    (hy : x.writeVa e.dest (m.get F.QE_EQ_CFG_ASID 0 e.dest) srcQe 4 e.dest (m.get F.QE_EQ_PTR_OWN 0 e.dest)
      (m.ringBase F.QE_EQ_BASE_LO e.dest + 32 * m.get F.QE_EQ_PTR_OWN 0 e.dest + 8) (b.drop 8) = (y, none))
    (hz : y.writeVa e.dest (m.get F.QE_EQ_CFG_ASID 0 e.dest) srcQe 4 e.dest (m.get F.QE_EQ_PTR_OWN 0 e.dest)
      (m.ringBase F.QE_EQ_BASE_LO e.dest + 32 * m.get F.QE_EQ_PTR_OWN 0 e.dest) (b.take 8) = (z, none)) :
    m.eventWrite = z.eventPassed e.dest (m.get F.QE_EQ_PTR_OWN 0 e.dest) (m.get F.QE_EQ_STATUS_PHASE 0 e.dest) := by
  subst hx hb
  have hlost : (m.putEvq rest).eqLostEntry e.dest = m.putEvq rest := eqLostEntry_of_none (m := m.putEvq rest) hl
  have hgo : ¬ ((m.putEvq rest).eqOpen e.dest = false ∨ (m.putEvq rest).eqFree e.dest < 2) := by
    have ho' : (m.putEvq rest).eqOpen e.dest = true := ho
    have hf' : 2 ≤ (m.putEvq rest).eqFree e.dest := hf
    exact not_or.2 ⟨by simp [ho'], Nat.not_lt.2 hf'⟩
  have hwrite : (m.putEvq rest).eqWrite e.dest e.code e.source e.herd e.time.toNat e.info0.toNat e.info1.toNat =
      z.eventPassed e.dest (m.get F.QE_EQ_PTR_OWN 0 e.dest) (m.get F.QE_EQ_STATUS_PHASE 0 e.dest) := by
    have hy' : (m.putEvq rest).writeVa e.dest ((m.putEvq rest).get F.QE_EQ_CFG_ASID 0 e.dest) srcQe 4 e.dest ((m.putEvq rest).get F.QE_EQ_PTR_OWN 0 e.dest)
      ((m.putEvq rest).ringBase F.QE_EQ_BASE_LO e.dest + 32 * (m.putEvq rest).get F.QE_EQ_PTR_OWN 0 e.dest + 8)
        (((m.putEvq rest).eventBytes e).drop 8) = (y, none) := hy
    have hz' : y.writeVa e.dest ((m.putEvq rest).get F.QE_EQ_CFG_ASID 0 e.dest) srcQe 4 e.dest ((m.putEvq rest).get F.QE_EQ_PTR_OWN 0 e.dest)
      ((m.putEvq rest).ringBase F.QE_EQ_BASE_LO e.dest + 32 * (m.putEvq rest).get F.QE_EQ_PTR_OWN 0 e.dest)
        (((m.putEvq rest).eventBytes e).take 8) = (z, none) := hz
    simp only [eqWrite, hy', hz']
    rfl
  simp only [eventWrite, he, hlost, if_neg hgo, hwrite]

/-- An event for a ring that is not open is lost, and counted. -/
theorem eventWrite_closed {m : Mach} {e : Event} {rest : List Event} (he : m.evq = e :: rest) (hl : (alGet m.qe.lost e.dest).getD 0 = 0)
    (ho : m.eqOpen e.dest = false) :
    m.eventWrite = (m.putEvq rest).eqLose e.dest := by
  have hlost : (m.putEvq rest).eqLostEntry e.dest = m.putEvq rest := eqLostEntry_of_none (m := m.putEvq rest) hl
  have ho' : (m.putEvq rest).eqOpen e.dest = false := ho
  simp only [eventWrite, he, hlost]
  exact if_pos (.inl ho')

theorem eqLose_spec {m : Mach} {h : Nat} (hl : (alGet m.qe.lost h).getD 0 = 0) :
    (m.eqLose h).get F.QE_EQ_LOST 0 h = min (m.get F.QE_EQ_LOST 0 h + 1) (2 ^ F.QE_EQ_LOST.wd - 1) ∧ alGet (m.eqLose h).qe.lost h = some 1 ∧
      (m.eqLose h).evq = m.evq ∧ OnlyRegs (fun k => k = keyOf F.QE_EQ_LOST 0 h) m (m.eqLose h) := by
  have hinc : OnlyRegs (fun k => k = keyOf F.QE_EQ_LOST 0 h) m (m.inc F.QE_EQ_LOST 1 0 h) := (OnlyRegs.refl _ m).setReg _ rfl
  refine ⟨get_inc_same m _ _ _ _ (by decide), ?_, rfl, hinc.of_regs rfl rfl rfl rfl rfl⟩
  have hn : (alGet (m.inc F.QE_EQ_LOST 1 0 h).qe.lost h).getD 0 = 0 := hl
  simp only [eqLose, putQe_qe, alGet_alPut_same, hn]

end Mach
end Sys2Proof.Machine
end


section
/-! SUPPORT and proof of O13: completions, events, rings in use, receive bindings and bases of rings (05_queues_descriptors.md R127, R128, R132, R144 to R151). -/
namespace Sys2Proof.Machine

/-! ## The elements that a register file lists -/

theorem filterMap_alPut {α β : Type} {f : Nat × α → Option β} {a : Nat} (hf : ∀ v, f (a, v) = none) (l : List (Nat × α)) (v : α) :
    (alPut l a v).filterMap f = l.filterMap f := by
  induction l with
  | nil => simp [alPut, hf]
  | cons p r ih =>
    obtain ⟨k, w⟩ := p
    simp only [alPut]
    split
    · rename_i h
      subst h
      simp [hf]
    · split
      · simp [hf]
      · simp [List.filterMap_cons, ih]

namespace Mach

/-- A register at another address adds no element to those listed at an address. -/
theorem listed_setReg_ne (m : Mach) {k a : Nat} (w : Word) (h : k % regSpan ≠ a) : (m.setReg k w).listed a = m.listed a :=
  filterMap_alPut (fun _ => if_neg fun hk => h hk.2) m.regs w

theorem listed_putFields_ne (m : Mach) {k a b : Nat} (v : Nat) (h : k % regSpan ≠ b) : (m.putFields k a v false).listed b = m.listed b := by
  have one : ∀ (x : Mach) (f : RField), (x.putField k a v false f).listed b = x.listed b := fun x f => by
    obtain ⟨e, -⟩ | ⟨-, -, -, e⟩ | ⟨t, r, e, -⟩ := x.putField_cases k a v false f
    · rw [e]
    · cases e
    · rw [e, listed_setReg_ne _ _ h]
      rfl
  unfold putFields
  split
  · exact List.foldlRecOn (motive := fun x : Mach => x.listed b = m.listed b) _ _ rfl fun x hx f _ => (one x f).trans hx
  · rfl

/-! ## Fields of a configuration register after a write (00_scope.md R12) -/

section
variable {a e i j : Nat} {r : RegInfo} (h : regInfo a = some (r, i, j)) (hk : ¬ frozenKey (regKey a e))
include h

theorem putFields_onlyKey (m : Mach) (v : Nat) (on : Bool) : OnlyRegs (fun k => k = regKey a e ∨ frozenKey k) m (m.putFields (regKey a e) a v on) := by
  rw [putFields_eq m h]
  exact m.putList_onlyRegs (.inl rfl) fun _ _ _ _ _ hj => .inr hj

include hk

/-- Each field of the register holds what it takes. -/
theorem putFields_bits (m : Mach) (v : Nat) (on : Bool) {g : RField} (hg : g ∈ r.fields) :
    g.bits ((m.putFields (regKey a e) a v on).reg (regKey a e)).toNat = g.takes on (g.bits (m.reg (regKey a e)).toNat) (g.bits v) := by
  rw [putFields_eq m h]
  exact m.putList_bits (regInfo_neat h) (fun _ _ _ _ => hk) hg

end

/-- ENABLE of QE_CQ_CFG takes effect at once. -/
theorem cqCfg_row : ∃ r, regInfo 0x0040020C = some (r, 0, 0) ∧ ⟨31, 31, .rw, 0x0, .live⟩ ∈ r.fields := ⟨_, rfl, by decide⟩

theorem rxBind_row : ∃ r, regInfo 0x00400404 = some (r, 0, 0) ∧ ⟨31, 31, .rw, 0x0, .live⟩ ∈ r.fields ∧ ⟨11, 0, .rw, 0x0, .frozen⟩ ∈ r.fields :=
  ⟨_, rfl, by decide, by decide⟩

/-- A register of the queue engine is none of those that tell of a dropped Frozen write. -/
theorem not_frozenKey {a : Nat} (e : Nat) (ha : a < regSpan) (h : a ≠ F.CFG_STATUS_FROZEN_WRITE.addr ∧ a ≠ F.CFG_FROZEN_ADDR.addr) : ¬ frozenKey (regKey a e) := by
  simp only [frozenKey, keyOf, fkey, regKey, regSpan] at h ha ⊢
  omega

/-! ## A completion ring in use keeps its ENABLE (R151) -/

/-- Whether a submission queue or a receive binding uses ring `c`. -/
abbrev cqBusy (m : Mach) (c : Nat) : Bool := !(m.sqsServed c).isEmpty || !(m.bindingsOn c).isEmpty

theorem cqBusy_eq_false {m : Mach} {c : Nat} : m.cqBusy c = false ↔ m.sqsServed c = [] ∧ m.bindingsOn c = [] := by simp

theorem cqDisable_spec {m : Mach} {p : Path} {value c : Nat} (h : m.Steward p 0x0040020C) (hc : c = m.getP p F.QE_CQ_SEL_INDEX % 4096)
    (he : m.bit F.QE_CQ_CFG_ENABLE 0 c = true) :
    (m.cqDisable p value).bit F.QE_CQ_CFG_ENABLE 0 c = m.cqBusy c ∧
      (m.cqBusy c = true → (m.cqDisable p value).bit F.CFG_STATUS_FROZEN_WRITE = true) ∧
      OnlyRegs (fun k => k = keyOf F.QE_CQ_CFG_ENABLE 0 c ∨ frozenKey k) m (m.cqDisable p value) := by
  obtain ⟨r, hrow, hfield⟩ := cqCfg_row
  have hkey : ¬ frozenKey (regKey 0x0040020C c) := not_frozenKey c (by decide) (by decide)
  set x := m.putFields (regKey 0x0040020C c) 0x0040020C (value % 2 ^ 31 + if m.cqBusy c then 2 ^ 31 else 0) true with hx
  have hd : m.cqDisable p value = if m.cqBusy c then x.frozenDrop 0x0040020C else x := by
    rw [cqDisable, stewardGate_of_admits h]
    dsimp only
    rw [← hc, he]
    rfl
  have hbit : x.bit F.QE_CQ_CFG_ENABLE 0 c = m.cqBusy c := by
    have hb : x.get F.QE_CQ_CFG_ENABLE 0 c = getBits (value % 2 ^ 31 + if m.cqBusy c then 2 ^ 31 else 0) 31 1 := putFields_bits hrow hkey m _ true hfield
    rw [bit, hb]
    cases m.cqBusy c <;> simp only [getBits, Bool.false_eq_true, if_true, if_false, bne_eq_false_iff_eq, bne_iff_ne] <;> omega
  have honly : OnlyRegs (fun k => k = keyOf F.QE_CQ_CFG_ENABLE 0 c ∨ frozenKey k) m x := putFields_onlyKey hrow m _ true
  have hdrop := x.frozenDrop_onlyRegs 0x0040020C
  rw [hd]
  refine ⟨?_, fun hb => ?_, ?_⟩
  · split
    · exact (bit_congr (f := F.QE_CQ_CFG_ENABLE) (i := 0) (s := c) (hdrop.regs _ hkey)).trans hbit
    · exact hbit
  · rw [if_pos hb, frozenDrop_bit]
  · split
    · exact honly.trans (hdrop.mono fun _ => .inr)
    · exact honly

/-! ## Receive bindings (R147) -/

/-- The active plan is read from SLU_BANK_STATUS and the schedule engine. -/
theorem plan?_congr {m x : Mach} (hr : x.reg (keyOf F.SLU_BANK_STATUS_BANK0) = m.reg (keyOf F.SLU_BANK_STATUS_BANK0)) (hp : x.plan = m.plan) : x.plan? = m.plan? := by
  simp only [plan?, active, unloading, retiring, bankIn, bank, bankState_congr hr, hp]

/-- Whether the active plan gives endpoint `e` to the herd of ring `c`. -/
abbrev bindFits (m : Mach) (e c : Nat) : Bool := ((m.plan?.bind (fun pl => pl.inc e)).map (fun l => l.herd == m.cqHerd c)).getD false

/-- Writing the fields of a binding leaves what the bind is judged by. -/
theorem rxBind_written (m : Mach) (e value : Nat) :
    let x := m.putFields (regKey 0x00400404 e) 0x00400404 (value % 2 ^ 31) false
    x.get F.QE_RX_BIND_CQ 0 e = value % 4096 ∧ x.bit F.QE_RX_BIND_ENABLE 0 e = false ∧ (∀ c, x.sqsServed c = m.sqsServed c) ∧
      (∀ c, x.bindFits e c = m.bindFits e c) ∧ OnlyRegs (fun _ => True) m x := by
  intro x
  obtain ⟨r, hrow, hon, hcq⟩ := rxBind_row
  have hkey : ¬ frozenKey (regKey 0x00400404 e) := not_frozenKey e (by decide) (by decide)
  have honly : OnlyRegs (fun k => k = regKey 0x00400404 e ∨ frozenKey k) m x := putFields_onlyKey hrow m _ false
  have other : ∀ {f : Fld} {s : Nat}, f.addr + f.step * 0 < regSpan →
      f.addr + f.step * 0 ≠ 0x00400404 ∧ f.addr + f.step * 0 ≠ F.CFG_STATUS_FROZEN_WRITE.addr ∧ f.addr + f.step * 0 ≠ F.CFG_FROZEN_ADDR.addr →
      x.reg (keyOf f 0 s) = m.reg (keyOf f 0 s) := fun {f s} hlt hne => honly.regs _ (by
    rintro (hk | hk)
    · simp only [keyOf, fkey, regKey, regSpan] at hk hlt
      omega
    · exact not_frozenKey s hlt hne.2 hk)
  have hlisted : x.listed 0x0040010C = m.listed 0x0040010C := m.listed_putFields_ne _ (by rw [regKey, Nat.add_mul_mod_self_left]; decide)
  have hplan : x.plan = m.plan := by
    obtain ⟨t, g, w, hf⟩ := m.putFields_file (regKey 0x00400404 e) 0x00400404 (value % 2 ^ 31) false
    exact (congrArg Mach.plan hf :)
  refine ⟨?_, ?_, fun c => ?_, fun c => ?_, honly.mono fun _ _ => trivial⟩
  · refine (putFields_bits hrow hkey m (value % 2 ^ 31) false hcq).trans ?_
    simp [RField.takes, RField.bits, getBits]
  · have hb : x.get F.QE_RX_BIND_ENABLE 0 e = getBits (value % 2 ^ 31) 31 1 := putFields_bits hrow hkey m (value % 2 ^ 31) false hon
    rw [bit, hb, getBits, Nat.div_eq_of_lt (Nat.mod_lt _ (by decide))]
    rfl
  · simp only [sqsServed, hlisted, bit, get_congr (other (f := F.QE_SQ_CQ_CQ) (by decide) (by decide)), get_congr (other (f := F.QE_SQ_CFG_ENABLE) (by decide) (by decide)),
      get_congr (other (f := F.QE_SQ_STATUS_IDLE) (by decide) (by decide))]
  · have hherd : x.cqHerd c = m.cqHerd c := get_congr (other (by decide) (by decide))
    simp only [bindFits, plan?_congr (other (f := F.SLU_BANK_STATUS_BANK0) (s := 0) (by decide) (by decide)) hplan, hherd]

/-- A binding is made where no submission queue uses the ring and the endpoint's herd owns it, and refused elsewhere. -/
theorem rxBindEnable_spec {m : Mach} {p : Path} {value e : Nat} (h : m.Steward p 0x00400404) (he : e = m.getP p F.QE_RX_SEL_INDEX % 16384)
    (hoff : m.bit F.QE_RX_BIND_ENABLE 0 e = false) :
    (m.rxBindEnable p value).get F.QE_RX_BIND_CQ 0 e = value % 4096 ∧
      (m.sqsServed (value % 4096) = [] → m.bindFits e (value % 4096) = true → (m.rxBindEnable p value).bit F.QE_RX_BIND_ENABLE 0 e = true) ∧
      (m.sqsServed (value % 4096) ≠ [] →
        (m.rxBindEnable p value).bit F.QE_RX_BIND_ENABLE 0 e = false ∧ (m.rxBindEnable p value).bit F.QE_STATUS_BIND_REFUSED = true) ∧
      OnlyRegs (fun _ => True) m (m.rxBindEnable p value) := by
  obtain ⟨hcq, hen, hserved, hfits, honly⟩ := m.rxBind_written e value
  set x := m.putFields (regKey 0x00400404 e) 0x00400404 (value % 2 ^ 31) false
  have hd : m.rxBindEnable p value = if (m.sqsServed (value % 4096)).isEmpty = false ∨ m.bindFits e (value % 4096) = false then x.set F.QE_STATUS_BIND_REFUSED 1
      else x.set F.QE_RX_BIND_ENABLE 1 0 e := by
    rw [← hserved, ← hfits, ← hcq, rxBindEnable, stewardGate_of_admits h]
    dsimp only
    rw [← he, hoff]
    rfl
  rw [hd]
  refine ⟨?_, fun hs hf => ?_, fun hs => ?_, ?_⟩
  · split
    · exact (get_set_of_addr x (by decide)).trans hcq
    · exact (get_set_apart x (f := F.QE_RX_BIND_ENABLE) (g := F.QE_RX_BIND_CQ) rfl (by decide) (.inl (by decide))).trans hcq
  · rw [if_neg (by simp [hs, hf])]
    exact bit_set_same x _ true _ _ (by decide) rfl
  · rw [if_pos (.inl (by simpa using hs))]
    exact ⟨(bit_set_of_addr x (by decide)).trans hen, bit_set_same x _ true _ _ (by decide) rfl⟩
  · split
    · exact honly.set trivial
    · exact honly.set trivial

/-! ## Bases of rings (R127, R150) -/

/-- The registers of a ring's base, indices, phase and FULL: the indices share a register, and phase and FULL another. -/
structure RingRegs (base own other phase full : Fld) : Prop where
  ptr : other.addr = own.addr
  status : full.addr = phase.addr
  base_ptr : base.addr ≠ own.addr ∧ base.addr + 4 ≠ own.addr
  base_status : base.addr ≠ phase.addr ∧ base.addr + 4 ≠ phase.addr
  ptr_status : own.addr ≠ phase.addr
  indices : own.lo + own.wd ≤ other.lo ∧ other.lo + other.wd ≤ 32
  bits : phase.lo + phase.wd ≤ full.lo ∧ full.lo + full.wd ≤ 32 ∧ phase.wd = 1

/-- The three kinds of ring have such registers. -/
theorem sqRingRegs : RingRegs F.QE_SQ_BASE_LO F.QE_SQ_PTR_OWN F.QE_SQ_PTR_OTHER F.QE_SQ_STATUS_PHASE F.QE_SQ_STATUS_IDLE :=
  ⟨rfl, rfl, by decide, by decide, by decide, by decide, by decide⟩

theorem cqRingRegs : RingRegs F.QE_CQ_BASE_LO F.QE_CQ_PTR_OWN F.QE_CQ_PTR_OTHER F.QE_CQ_STATUS_PHASE F.QE_CQ_STATUS_FULL :=
  ⟨rfl, rfl, by decide, by decide, by decide, by decide, by decide⟩

theorem eqRingRegs : RingRegs F.QE_EQ_BASE_LO F.QE_EQ_PTR_OWN F.QE_EQ_PTR_OTHER F.QE_EQ_STATUS_PHASE F.QE_EQ_STATUS_FULL :=
  ⟨rfl, rfl, by decide, by decide, by decide, by decide, by decide⟩

/-- Element `n` of a ring's registers shows base `new`, indices 0 and phase 1. -/
structure RingFresh (base own other phase : Fld) (n new : Nat) (x : Mach) : Prop where
  base : x.get64 base 0 n = new
  own : x.get own 0 n = 0
  other : x.get other 0 n = 0
  phase : x.get phase 0 n = 1

theorem RingFresh.of_reg {base own other phase : Fld} {n new : Nat} {x y : Mach} (h : RingFresh base own other phase n new x) (hr : ∀ k, y.reg k = x.reg k) :
    RingFresh base own other phase n new y := by
  obtain ⟨hb, how, hot, hp⟩ := h
  exact ⟨by rw [get64, hr, hr, ← get64, hb], (get_congr (hr _)).trans how, (get_congr (hr _)).trans hot, (get_congr (hr _)).trans hp⟩

/-- Element `n` of a ring once its base is `new`: the shadow is taken, the indices are 0 and the expected phase is 1. -/
def ringCleared (m : Mach) (base own other phase : Fld) (sk new n : Nat) : Mach :=
  ((((m.putShadow (alDel m.shadow sk)).set64 base new 0 n).set own 0 0 n).set other 0 0 n).set phase 1 0 n

section
variable {base own other phase full : Fld} (hf : RingRegs base own other phase full)
include hf

theorem ringCleared_fresh (m : Mach) {new : Nat} (hnew : new < 2 ^ 64) (sk n : Nat) : RingFresh base own other phase n new (m.ringCleared base own other phase sk new n) := by
  obtain ⟨hptr, hstatus, ⟨hbp, hbp'⟩, ⟨hbs, hbs'⟩, hps, ⟨hind, h32⟩, ⟨hbits, hfull, hwd⟩⟩ := hf
  have key : ∀ f : Fld, fkey f 0 n = f.addr + regSpan * n := fun f => by simp [fkey, regKey]
  refine ⟨?_, ?_, ?_, ?_⟩
  · have hb := get64_set64_same (m.putShadow (alDel m.shadow sk)) base new 0 n
    rw [Nat.mod_eq_of_lt hnew] at hb
    simp only [get64, key] at hb
    simp only [ringCleared, get64, key]
    rw [set_reg_ne _ (by rw [key]; omega), set_reg_ne _ (by rw [key]; omega), set_reg_ne _ (by rw [key]; omega), set_reg_ne _ (by rw [key]; omega),
      set_reg_ne _ (by rw [key]; omega), set_reg_ne _ (by rw [key]; omega), hb]
  · rw [ringCleared, get_set_ne _ (by simp only [key]; omega), get_set_apart _ (by simp only [key, hptr]) h32 (.inl hind), get_set_same _ _ _ _ _ (by omega), Nat.zero_mod]
  · rw [ringCleared, get_set_ne _ (by simp only [key]; omega), get_set_same _ _ _ _ _ h32, Nat.zero_mod]
  · rw [ringCleared, get_set_same _ _ _ _ _ (by omega), hwd]
    rfl

/-- FULL may follow. -/
theorem RingFresh.set_full {n new : Nat} {x : Mach} (h : RingFresh base own other phase n new x) (v : Nat) : RingFresh base own other phase n new (x.set full v 0 n) := by
  obtain ⟨hptr, hstatus, ⟨hbp, hbp'⟩, ⟨hbs, hbs'⟩, hps, -, ⟨hbits, hfull, -⟩⟩ := hf
  obtain ⟨hb, how, hot, hp⟩ := h
  have key : ∀ f : Fld, fkey f 0 n = f.addr + regSpan * n := fun f => by simp [fkey, regKey]
  refine ⟨?_, ?_, ?_, ?_⟩
  · rw [get64, set_reg_ne _ (by simp only [key]; omega), set_reg_ne _ (by simp only [key]; omega), ← get64, hb]
  · rw [get_set_ne _ (by simp only [key]; omega), how]
  · rw [get_set_ne _ (by simp only [key]; omega), hot]
  · rw [get_set_apart _ (by simp only [key, hstatus]) hfull (.inl hbits), hp]

end

/-- What RING_BASE_WRITE takes for the new base: LO from the path's shadow or as it stands, HI as written. -/
abbrev newBase (m : Mach) (v : Via) (base : Fld) (n value : Nat) : Nat :=
  ((alGet m.shadow (viaKey v base)).getD (m.reg (regKey base.addr n))).toNat / 4096 * 4096 + value * 2 ^ 32

theorem newBase_lt (m : Mach) (v : Via) (base : Fld) (n : Nat) (w : Word) : m.newBase v base n w.toNat < 2 ^ 64 := by
  have hlo := ((alGet m.shadow (viaKey v base)).getD (m.reg (regKey base.addr n))).isLt
  have hhi := w.isLt
  simp only [newBase]
  omega

section
variable (m : Mach) (i : Nat)

@[simp] theorem cqFull_shadow : (m.cqFull i).shadow = m.shadow := rfl

@[simp] theorem eqFull_shadow : (m.eqFull i).shadow = m.shadow := rfl

@[simp] theorem setSq_shadow (x : Sq) : (m.setSq i x).shadow = m.shadow := rfl

theorem setSq_reg (x : Sq) (k : Nat) : (m.setSq i x).reg k = m.reg k := rfl

theorem setSq_onlyRegs (x : Sq) : OnlyRegs (fun _ => True) m (m.setSq i x) := ⟨rfl, rfl, rfl, rfl, fun _ _ => rfl⟩

end

/-- The shadow is taken, and queues, stores and what a command must not lose stay. -/
theorem ringCleared_kept (m : Mach) (base own other phase : Fld) (sk new n : Nat) :
    alGet (m.ringCleared base own other phase sk new n).shadow sk = none ∧ (m.ringCleared base own other phase sk new n).qe = m.qe ∧
      OnlyRegs (fun _ => True) m (m.ringCleared base own other phase sk new n) := by
  have hm : OnlyRegs (fun _ => True) m (m.putShadow (alDel m.shadow sk)) := ⟨rfl, rfl, rfl, rfl, fun _ _ => rfl⟩
  refine ⟨?_, ?_, ((((hm.setReg _ trivial).setReg _ trivial).set trivial).set trivial).set trivial⟩
  · simp [ringCleared, alGet_alDel_same]
  · simp [ringCleared]

section
variable {m : Mach} {v : Via} {k : Nat} (value : Nat)

/-- A new base of a disabled submission queue. -/
theorem ringBaseWrite_sq {x : Mach} (h : m.Admits v (F.QE_SQ_BASE_LO.addr + 4)) (hk : k = v.page.getD (m.getP v.path F.QE_SQ_SEL_INDEX % 4096))
    (he : m.bit F.QE_SQ_CFG_ENABLE 0 k = false)
    (hx : x = m.ringCleared F.QE_SQ_BASE_LO F.QE_SQ_PTR_OWN F.QE_SQ_PTR_OTHER F.QE_SQ_STATUS_PHASE (viaKey v F.QE_SQ_BASE_LO) (m.newBase v F.QE_SQ_BASE_LO k value) k) :
    m.ringBaseWrite v 0 value = x.setSq k { x.sq k with fetched := [], reading := none, refetchAt := none, claims := [], paused := false } := by
  subst hx
  simp only [ringBaseWrite, reduceIte, gate_of_admits h]
  obtain ⟨p, g⟩ := v
  cases g <;> subst hk <;> exact if_neg (Bool.eq_false_iff.1 he)

/-- A new base of a disabled completion ring. -/
theorem ringBaseWrite_cq (h : m.Admits v (F.QE_CQ_BASE_LO.addr + 4)) (hk : k = v.page.getD (m.getP v.path F.QE_CQ_SEL_INDEX % 4096))
    (he : m.bit F.QE_CQ_CFG_ENABLE 0 k = false) :
    m.ringBaseWrite v 1 value =
      (m.ringCleared F.QE_CQ_BASE_LO F.QE_CQ_PTR_OWN F.QE_CQ_PTR_OTHER F.QE_CQ_STATUS_PHASE (viaKey v F.QE_CQ_BASE_LO) (m.newBase v F.QE_CQ_BASE_LO k value) k).cqFull k := by
  simp only [ringBaseWrite, reduceIte, gate_of_admits h, Nat.reduceEqDiff]
  obtain ⟨p, g⟩ := v
  cases g <;> subst hk <;> exact if_neg (Bool.eq_false_iff.1 he)

/-- A new base of a disabled event ring. -/
theorem ringBaseWrite_eq (h : m.Admits v (F.QE_EQ_BASE_LO.addr + 4)) (hk : k = v.page.getD (m.getP v.path F.QE_EQ_SEL_INDEX % 256))
    (he : m.bit F.QE_EQ_CFG_ENABLE 0 k = false) :
    m.ringBaseWrite v 2 value =
      (m.ringCleared F.QE_EQ_BASE_LO F.QE_EQ_PTR_OWN F.QE_EQ_PTR_OTHER F.QE_EQ_STATUS_PHASE (viaKey v F.QE_EQ_BASE_LO) (m.newBase v F.QE_EQ_BASE_LO k value) k).eqFull k := by
  simp only [ringBaseWrite, reduceIte, gate_of_admits h, Nat.reduceEqDiff]
  obtain ⟨p, g⟩ := v
  cases g <;> subst hk <;> exact if_neg (Bool.eq_false_iff.1 he)

end

/-- What a base write leaves in element `k` of a ring's registers stands once the instruction has run. -/
theorem runs_ringBase {s : State} {v : Via} {w : Word} {kind k new : Nat} {base own other phase : Fld} {y : Mach} (hi : s.m.Inv) (hy : s.m.ringBaseWrite v kind w.toNat = y)
    (hfresh : RingFresh base own other phase k new y) (hsh : alGet y.shadow (viaKey v base) = none)
    (hsq : kind = 0 → (y.sq k).fetched = [] ∧ (y.sq k).out = (s.m.sq k).out) (honly : OnlyRegs (fun _ => True) s.m y) :
    Runs (.ringBaseWrite v kind w) s fun n =>
      n.get64 base 0 k = new ∧ n.get own 0 k = 0 ∧ n.get other 0 k = 0 ∧ n.get phase 0 k = 1 ∧
      alGet n.shadow (viaKey v base) = none ∧ (kind = 0 → (n.sq k).fetched = [] ∧ (n.sq k).out = (s.m.sq k).out) ∧ SameStores s.m n :=
  runs_of_onlyRegs (f := fun m => m.ringBaseWrite v kind w.toNat) rfl hi hy honly fun hframe hreg => by
    obtain ⟨hbase, hown, hother, hphase⟩ := hfresh.of_reg hreg
    exact ⟨hbase, hown, hother, hphase, hsh, hsq, hframe.2⟩

end Mach
/-- Settles O13: the two writes of a completion, an event written and one lost, a ring kept or disabled, a binding, and a new base for each kind of ring. -/
theorem completionsAndEvents : Obligations.CompletionsAndEvents := by
  unfold Obligations.CompletionsAndEvents
  refine ⟨?_, ?_, ?_, ?_, ?_, ?_⟩
  · intro s t k c i ph o x m' hi hrun hc ho hx hf he hn hw
    have haside := Aside.writeVa hw
    have hcq : m'.cq c = s.m.cq c := Mach.cq_congr haside.qe c
    have hsq : m'.sq k = s.m.sq k := Mach.sq_congr haside.qe k
    refine runs_of_written rfl hi hrun (Mach.completionWrite_due (m := s.m.advance t) hc ho hx hf he hn hw) haside ((InQe.refl _ m').setCq c _)
      fun hstores _ => ⟨?_, congrArg Sq.out hsq, hstores⟩
    rw [← hcq]
    exact congrArg Cq.headers (Mach.cq_setCq_same m' c _)
  · intro s t c k h rest m' hi hrun hh hk hl hw
    have haside := Aside.writeVa hw
    obtain ⟨hheaders, hout, hptr, hcount, hfail, hcounted⟩ := m'.headerCounted_spec c k h rest
    have hsize : m'.cqSize c = s.m.cqSize c := congrArg ringSize (haside.regs.queueGet (by decide))
    refine runs_of_written rfl hi hrun (Mach.completionHeader_landed (m := s.m.advance t) hh hk hl hw) haside hcounted fun hstores hreg =>
      ⟨hheaders, ?_, ?_, ?_, ?_, hstores⟩
    · exact hout.trans (congrArg (fun q => q.out.drop 1) (Mach.sq_congr haside.qe k))
    · rw [Mach.get_congr (hreg _), hptr, hsize]
    · rw [Mach.get_congr (hreg _), hcount, haside.regs.queueGet (by decide)]
      rfl
    · rw [Mach.get_congr (hreg _), hfail, haside.regs.queueGet (by decide)]
      rfl
  · intro s t i e rest m1 m2 m3 b hi hrun he hl
    refine ⟨fun ho hf hi' h1 hb h2 h3 => ?_, fun ho => ?_⟩
    · subst hi'
      have haside1 : Aside (s.m.advance t) m1 := h1 ▸ .of_eq (.of_eq rfl rfl rfl rfl rfl) rfl rfl rfl rfl rfl
      have haside := (haside1.trans (Aside.writeVa h2)).trans (Aside.writeVa h3)
      obtain ⟨hptr, hpassed⟩ := m3.eventPassed_spec e.dest (s.m.get F.QE_EQ_PTR_OWN 0 e.dest) (s.m.get F.QE_EQ_STATUS_PHASE 0 e.dest)
      have hsize : m3.eqSize e.dest = s.m.eqSize e.dest := congrArg ringSize (haside.regs.queueGet (by decide))
      refine runs_of_written rfl hi hrun (Mach.eventWrite_open (m := s.m.advance t) he hl ho hf h1 hb h2 h3) haside hpassed fun hstores hreg => ⟨?_, hstores⟩
      rw [Mach.get_congr (hreg _), ← hsize]
      exact hptr
    · obtain ⟨hlost, hnote, hevq, honly⟩ := Mach.eqLose_spec (m := (s.m.advance t).putEvq rest) hl
      have hm : OnlyRegs (fun k => k = keyOf F.QE_EQ_LOST 0 e.dest) (s.m.advance t) ((s.m.advance t).putEvq rest) := ⟨rfl, rfl, rfl, rfl, fun _ _ => rfl⟩
      exact runs_of_engines rfl hi hrun (Mach.eventWrite_closed (m := s.m.advance t) he hl ho) (hm.trans honly) fun hframe hreg =>
        ⟨hevq, (Mach.get_congr (hreg _)).trans hlost, hnote, hframe⟩
  · intro s p w c hi hs hc he
    obtain ⟨hen, hfrozen, honly⟩ := Mach.cqDisable_spec (value := w.toNat) hs hc he
    refine runs_of_onlyRegs (f := fun m => m.cqDisable p w.toNat) rfl hi rfl (honly.mono fun k hk => ?_) fun hframe hreg =>
      ⟨fun h1 h2 => ?_, fun hbusy => ?_, hframe⟩
    · simpa using hk
    · exact (Mach.bit_congr (hreg _)).trans (hen.trans (Mach.cqBusy_eq_false.2 ⟨h1, h2⟩))
    · have hb : s.m.cqBusy c = true := by
        rw [← Bool.not_eq_false, Mach.cqBusy_eq_false]
        tauto
      exact ⟨(Mach.bit_congr (hreg _)).trans (hen.trans hb), (Mach.bit_congr (hreg _)).trans (hfrozen hb)⟩
  · intro s p w e hi hs he hoff
    obtain ⟨hcq, hmade, hrefused, honly⟩ := Mach.rxBindEnable_spec (value := w.toNat) hs he hoff
    refine runs_of_onlyRegs (f := fun m => m.rxBindEnable p w.toNat) rfl hi rfl honly fun hframe hreg =>
      ⟨(Mach.get_congr (hreg _)).trans hcq, fun hq hf => (Mach.bit_congr (hreg _)).trans (hmade hq hf), fun hq => ?_, hframe.2⟩
    exact ⟨(Mach.bit_congr (hreg _)).trans (hrefused hq).1, (Mach.bit_congr (hreg _)).trans (hrefused hq).2⟩
  · intro s v w kind k lo base en own other phase sel mod hring hi hadm hk hlo hoff
    simp only [List.mem_cons, Prod.mk.injEq, List.not_mem_nil, or_false] at hring
    rcases hring with ⟨rfl, rfl, rfl, rfl, rfl, rfl, rfl, rfl⟩ | ⟨rfl, rfl, rfl, rfl, rfl, rfl, rfl, rfl⟩ | ⟨rfl, rfl, rfl, rfl, rfl, rfl, rfl, rfl⟩ <;> subst hlo
    · obtain ⟨hsh, hqe, honly⟩ := s.m.ringCleared_kept F.QE_SQ_BASE_LO F.QE_SQ_PTR_OWN F.QE_SQ_PTR_OTHER F.QE_SQ_STATUS_PHASE (viaKey v F.QE_SQ_BASE_LO)
        (s.m.newBase v F.QE_SQ_BASE_LO k w.toNat) k
      have hfresh := Mach.ringCleared_fresh Mach.sqRingRegs s.m (s.m.newBase_lt v F.QE_SQ_BASE_LO k w) (viaKey v F.QE_SQ_BASE_LO) k
      refine Mach.runs_ringBase hi (Mach.ringBaseWrite_sq w.toNat hadm hk hoff rfl) (hfresh.of_reg (Mach.setSq_reg _ _ _)) ?_ (fun _ => ?_) ?_
      · rw [Mach.setSq_shadow, hsh]
      · rw [Mach.sq_setSq_same]
        exact ⟨rfl, by rw [Mach.sq_congr hqe]⟩
      · exact honly.trans (Mach.setSq_onlyRegs _ _ _)
    · obtain ⟨hsh, -, honly⟩ := s.m.ringCleared_kept F.QE_CQ_BASE_LO F.QE_CQ_PTR_OWN F.QE_CQ_PTR_OTHER F.QE_CQ_STATUS_PHASE (viaKey v F.QE_CQ_BASE_LO)
        (s.m.newBase v F.QE_CQ_BASE_LO k w.toNat) k
      have hfresh := Mach.ringCleared_fresh Mach.cqRingRegs s.m (s.m.newBase_lt v F.QE_CQ_BASE_LO k w) (viaKey v F.QE_CQ_BASE_LO) k
      exact Mach.runs_ringBase hi (Mach.ringBaseWrite_cq w.toNat hadm hk hoff) (hfresh.set_full Mach.cqRingRegs _)
        ((congrArg (alGet · _) (Mach.cqFull_shadow _ _)).trans hsh) nofun (honly.set trivial)
    · obtain ⟨hsh, -, honly⟩ := s.m.ringCleared_kept F.QE_EQ_BASE_LO F.QE_EQ_PTR_OWN F.QE_EQ_PTR_OTHER F.QE_EQ_STATUS_PHASE (viaKey v F.QE_EQ_BASE_LO)
        (s.m.newBase v F.QE_EQ_BASE_LO k w.toNat) k
      have hfresh := Mach.ringCleared_fresh Mach.eqRingRegs s.m (s.m.newBase_lt v F.QE_EQ_BASE_LO k w) (viaKey v F.QE_EQ_BASE_LO) k
      exact Mach.runs_ringBase hi (Mach.ringBaseWrite_eq w.toNat hadm hk hoff) (hfresh.set_full Mach.eqRingRegs _)
        ((congrArg (alGet · _) (Mach.eqFull_shadow _ _)).trans hsh) nofun (honly.set trivial)

end Sys2Proof.Machine
end


section
/-! SUPPORT. What walking to the leaves of a range leaves alone: pins, invalidations, windows and everything outside the translation unit (06_translation_windows.md
R156, R163, R170). -/
namespace Sys2Proof.Machine

/-- `y` comes after `x` with another cache, further free values taken and other values in registers that a translation may write. -/
structure Walked (x y : Mach) : Prop where
  file : ∃ c k, y = ((x.putXlt { x.xlt with cache := c }).putFreeCtr k).putRegs y.regs
  regs : RegsBut xltKey x y

namespace Walked

theorem refl (x : Mach) : Walked x x := ⟨⟨x.xlt.cache, x.freeCtr, rfl⟩, .refl _ x⟩

theorem trans {x y z : Mach} (h : Walked x y) (g : Walked y z) : Walked x z := by
  obtain ⟨c, k, hf⟩ := h.file
  obtain ⟨d, j, gf⟩ := g.file
  exact ⟨⟨d, j, gf.trans (congrArg (fun w : Mach => ((w.putXlt { w.xlt with cache := d }).putFreeCtr j).putRegs z.regs) hf :)⟩, fun n hn => (g.regs n hn).trans (h.regs n hn)⟩

theorem ite {c : Prop} [Decidable c] {x y z : Mach} (h : Walked x y) (g : Walked x z) : Walked x (if c then y else z) := by
  split <;> assumption

theorem inc (x : Mach) {f : Fld} {n i s : Nat} (hk : xltKey (keyOf f i s)) : Walked x (x.inc f n i s) := ⟨⟨x.xlt.cache, x.freeCtr, rfl⟩, (RegsBut.refl _ x).inc hk⟩

theorem putCache (x : Mach) (c : List XltEntry) : Walked x (x.putXlt { x.xlt with cache := c }) := ⟨⟨c, x.freeCtr, rfl⟩, fun _ _ => rfl⟩

theorem freshBit {m n : Mach} {b : Bool} (h : m.freshBit = (b, n)) : Walked m n := by
  cases h
  exact ⟨⟨m.xlt.cache, m.freeCtr + 1, rfl⟩, fun _ _ => rfl⟩

variable {x y : Mach}

theorem inv (h : Walked x y) : y.xlt.inv = x.xlt.inv := by
  obtain ⟨c, k, e⟩ := h.file
  rw [e]
  rfl

theorem pins (h : Walked x y) : y.xlt.pins = x.xlt.pins := by
  obtain ⟨c, k, e⟩ := h.file
  rw [e]
  rfl

theorem base (h : Walked x y) : y.base = x.base := by
  obtain ⟨c, k, e⟩ := h.file
  rw [e]
  rfl

theorem only (h : Walked x y) : OnlyRegs xltKey x y := by
  obtain ⟨c, k, e⟩ := h.file
  refine ⟨?_, ?_, ?_, ?_, h.regs⟩ <;> rw [e] <;> rfl

end Walked

namespace Mach

theorem cacheGet_walked {m n : Mach} {h a lvl tag : Nat} {o : Option Nat} (hc : m.cacheGet h a lvl tag = (n, o)) : Walked m n := by
  unfold cacheGet at hc
  split at hc
  · cases hc
    exact .refl m
  · split at hc
    rename_i hb
    split at hc <;> cases hc
    · exact .freshBit hb
    · exact (Walked.freshBit hb).trans (.putCache _ _)

theorem walkEntry_walked {m n : Mach} {h a va lvl table : Nat} {r : Bool × Except (Nat × Nat) Nat} (hw : m.walkEntry h a va lvl table = (n, r)) : Walked m n := by
  unfold walkEntry at hw
  split at hw <;> rename_i hc <;> cases hw
  · exact (cacheGet_walked hc).trans (.inc _ (by decide))
  · exact (cacheGet_walked hc).trans (.inc _ (by decide))

theorem walkFrom_walked (m : Mach) (h a va acc lvl table : Nat) : Walked m (m.walkFrom h a va acc lvl table).1 := by
  have cached : ∀ (n : Mach) (hit : Bool) (e : XltEntry), Walked n (if hit = true then n else n.cachePut e) := fun n _ _ => .ite (.refl n) (.putCache _ _)
  fun_induction walkFrom m h a va acc lvl table with
  | case1 m lvl table n hit st r hw => exact walkEntry_walked hw
  | case2 m lvl table n hit e hw st r hf => exact walkEntry_walked hw
  | case3 m lvl table n hit e hw hf y hl => exact (walkEntry_walked hw).trans (cached _ _ _)
  | case4 m table n hit e hl hw hf y => exact (walkEntry_walked hw).trans (cached _ _ _)
  | case5 m table n hit e hl lvl hw hf y ih => exact ((walkEntry_walked hw).trans (cached _ _ _)).trans ih

theorem walk_walked {m n : Mach} {h a va acc : Nat} {r : WalkRes} (hw : m.walk h a va acc = (n, r)) : Walked m n := by
  unfold walk at hw
  extract_lets s k root res at hw
  have hres : Walked m res.1 := by
    simp only [res]
    split
    · exact .inc m (by decide)
    · exact m.walkFrom_walked h a va acc 3 root
  clear_value res
  obtain ⟨y, o⟩ := res
  split at hw
  · cases hw
    exact .refl m
  · split at hw
    · split at hw
      rename_i hb
      cases hw
      exact .freshBit hb
    · split at hw
      · cases hw
        exact .refl m
      · cases o with
        | leaf e lvl =>
          have hy := congrArg Prod.fst hw
          simp only [apply_ite Prod.fst, ite_self] at hy
          exact hy ▸ hres
        | fail => cases hw; exact hres

/-- The leaves of a range are walked to page by page (R170). -/
theorem leavesOf_walked (m : Mach) (h a acc fuel va len : Nat) : Walked m (m.leavesOf h a acc fuel va len).1 := by
  fun_induction leavesOf m h a acc fuel va len with
  | case1 | case2 => exact .refl _
  | case3 m fuel va len hl n st r lvl acc' hw => exact walk_walked hw
  | case4 m fuel va len hl n e lvl hw span k y r ht ih => exact (walk_walked hw).trans (by rwa [ht] at ih)
  | case5 m fuel va len hl n e lvl hw span k y ht ih => exact (walk_walked hw).trans (by rwa [ht] at ih)

theorem leavesOf_to {m n : Mach} {h a acc fuel va len : Nat} {o : Option (List XltEntry)} (hl : m.leavesOf h a acc fuel va len = (n, o)) : Walked m n := by
  have := m.leavesOf_walked h a acc fuel va len
  rwa [hl] at this

end Mach
end Sys2Proof.Machine
end


section
/-! SUPPORT. Enabling of address spaces (06_translation_windows.md R154; 14_herds.md R352). -/
namespace Sys2Proof.Machine

/-- A value put at a key that held no counted one. -/
theorem countP_alPut {α : Type} {c : Nat × α → Bool} {a : Nat} (v : α) {l : List (Nat × α)} (h : ∀ w, alGet l a = some w → c (a, w) = false) :
    (alPut l a v).countP c = l.countP c + (c (a, v)).toNat := by
  induction l with
  | nil => cases hc : c (a, v) <;> simp [alPut, hc]
  | cons p r ih =>
    obtain ⟨k, w⟩ := p
    simp only [alPut]
    split
    · rename_i e
      subst e
      have hw : c (a, w) = false := h w (by simp [alGet])
      cases hc : c (a, v) <;> simp [hc, hw]
    · rename_i hne
      split
      · cases hc : c (a, v) <;> simp [List.countP_cons, hc]
      · have hr := ih fun u hu => h u (by rw [alGet, if_neg hne, hu])
        rw [List.countP_cons, hr, List.countP_cons]
        omega

namespace Mach

/-! ## Use of a share (14_herds.md R352) -/

/-- Current use of a resource other than the rings, once set. -/
theorem used_setUsed_same (m : Mach) (h : Nat) {r : Res} (n : Nat) (hr : r.word ≠ 0) (hw : r.lo + r.wd ≤ 32) : (m.setUsed h r n).used h r = n % 2 ^ r.wd := by
  have hb : putBits (m.reg (F.QE_HERD_USE.addr + 4 * r.word + regSpan * h)).toNat r.lo r.wd n < 2 ^ 32 := putBits_lt _ _ _ _ _ (BitVec.isLt _) hw
  rw [used, if_neg fun hc => hr hc.2, setUsed, reg_setReg_same, BitVec.toNat_ofNat, Nat.mod_eq_of_lt hb, getBits_putBits_same]

/-- The use of a resource other than the rings stands in one register of the herd. -/
theorem used_congr {m x : Mach} {h : Nat} {r : Res} (hr : r.word ≠ 0)
    (hx : x.reg (F.QE_HERD_USE.addr + 4 * r.word + regSpan * h) = m.reg (F.QE_HERD_USE.addr + 4 * r.word + regSpan * h)) : x.used h r = m.used h r := by
  rw [used, used, if_neg fun hc => hr hc.2, if_neg fun hc => hr hc.2, hx]

/-! ## Address spaces (R154) -/

/-- Whether an entry of the register file is the configuration of an enabled address space. -/
def asListed (p : Nat × Word) : Bool := decide (p.1 < fabricCopy ∧ p.1 % regSpan = F.XLT_AS_CFG_ENABLE.addr) && getBits p.2.toNat 31 1 == 1

theorem asCount_eq (m : Mach) : m.asCount = m.regs.countP asListed := by
  rw [asCount, listed, ← List.countP_eq_length_filter, List.countP_filterMap]
  congr 1
  funext p
  unfold asListed
  split <;> simp_all

/-- A new configuration of a disabled address space counts if it enables it. -/
theorem asCount_setReg (m : Mach) {e : Nat} (w : Word) (he : regKey F.XLT_AS_CFG_ENABLE.addr e < fabricCopy) (hoff : m.bit F.XLT_AS_CFG_ENABLE 0 e = false) :
    (m.setReg (regKey F.XLT_AS_CFG_ENABLE.addr e) w).asCount = m.asCount + getBits w.toNat 31 1 := by
  have hmod : regKey F.XLT_AS_CFG_ENABLE.addr e % regSpan = F.XLT_AS_CFG_ENABLE.addr := Nat.add_mul_mod_self_left _ _ _
  have hlt : getBits w.toNat 31 1 < 2 := getBits_lt _ _ _
  rw [asCount_eq, asCount_eq]
  refine (countP_alPut w fun u hu => ?_).trans (congrArg _ ?_)
  · have hbit : getBits u.toNat 31 1 = 0 := by simpa [bit, get, reg, fkey, hu] using hoff
    simp [asListed, hbit]
  · simp only [asListed, he, hmod, and_self, decide_true, Bool.true_and]
    interval_cases getBits w.toNat 31 1 <;> rfl

/-- The herd on whose page an entry of the register file holds a share. -/
def sharerOf (p : Nat × Word) : Option Nat :=
  if 0x00800000 ≤ p.1 ∧ p.1 < 0x01800000 ∧ 0x9010 ≤ p.1 % 0x10000 ∧ p.1 % 0x10000 < 0x9030 then some ((p.1 - 0x00800000) / 0x10000) else none

theorem sharers_eq (m : Mach) : m.sharers = ((m.regs.filterMap sharerOf).filter (fun h => h != 0)).eraseDups := rfl

/-- A register that stands on no herd page makes no sharer. -/
theorem sharers_setReg (m : Mach) {k : Nat} (w : Word) (h : 0x01800000 ≤ k) : (m.setReg k w).sharers = m.sharers := by
  have hk : ¬ k < 0x01800000 := Nat.not_lt.2 h
  have hnone : ∀ v, sharerOf (k, v) = none := fun v => by simp [sharerOf, hk]
  have hregs : (m.setReg k w).regs = alPut m.regs k w := rfl
  rw [sharers_eq, hregs, filterMap_alPut hnone, ← sharers_eq]

/-- Room in a share is judged by the list of sharers, their shares and the current use. -/
theorem roomFor_congr {m x : Mach} {h n : Nat} (hs : x.sharers = m.sharers) (hg : ∀ g, x.granted g resAsids = m.granted g resAsids)
    (hu : x.used h resAsids = m.used h resAsids) : x.roomFor h resAsids n = m.roomFor h resAsids n := by
  have hpool : ∀ z : Mach, z.pool resAsids = 1024 := fun _ => rfl
  unfold roomFor
  split
  · rename_i h0
    subst h0
    simp only [sharesOthers, hs, hg, hu, hpool]
  · rw [hg, hu]

/-- ENABLE of XLT_AS_CFG takes effect at once, beside two fields that a disabled address space takes. -/
theorem asCfg_row : ∃ r, regInfo F.XLT_AS_CFG_ENABLE.addr = some (r, 0, 0) ∧
    r.fields = [⟨31, 31, .rw, 0x0, .live⟩, ⟨20, 16, .rw, 0x9, .frozen⟩, ⟨0, 0, .rw, 0x0, .live⟩] := ⟨_, rfl, rfl⟩

/-- What the fields written beside ENABLE leave as it was. -/
structure AsFields (e : Nat) (m x : Mach) : Prop where
  off : x.bit F.XLT_AS_CFG_ENABLE 0 e = false
  count : x.asCount = m.asCount
  sharers : x.sharers = m.sharers

/-- One field of a disabled address space takes its value, and ENABLE stays 0. -/
theorem putField_asFields {m x : Mach} {e value : Nat} (h : AsFields e m x) (he : regKey F.XLT_AS_CFG_ENABLE.addr e < fabricCopy) {f : RField}
    (hf : f = ⟨31, 31, .rw, 0x0, .live⟩ ∨ f.lo ≤ f.hi ∧ f.hi < 31) :
    AsFields e m (x.putField (regKey F.XLT_AS_CFG_ENABLE.addr e) F.XLT_AS_CFG_ENABLE.addr (value % 2 ^ 31) false f) := by
  set k := regKey F.XLT_AS_CFG_ENABLE.addr e with hk
  set y := x.putField k F.XLT_AS_CFG_ENABLE.addr (value % 2 ^ 31) false f with hy
  have hlow : getBits (value % 2 ^ 31) 31 1 = 0 := by rw [getBits, Nat.div_eq_of_lt (Nat.mod_lt _ (by decide)), Nat.zero_mod]
  have hzero : x.get F.XLT_AS_CFG_ENABLE 0 e = 0 := by simpa [bit] using h.off
  have hget : y.get F.XLT_AS_CFG_ENABLE 0 e = 0 := by
    obtain rfl | ⟨hlo, hhi⟩ := hf
    · exact (putField_bits_same (f := ⟨31, 31, .rw, 0x0, .live⟩) (by decide) (by simp)).trans hlow
    · exact (putField_bits_apart (g := ⟨31, 31, .rw, 0x0, .live⟩) ⟨hlo, by omega⟩ (by decide) (.inr hhi) (by simp)).trans hzero
  have hoff : y.bit F.XLT_AS_CFG_ENABLE 0 e = false := by simp [bit, hget]
  obtain ⟨hsame, -⟩ | ⟨-, -, -, hon⟩ | ⟨t, r, hset, -⟩ := x.putField_cases k F.XLT_AS_CFG_ENABLE.addr (value % 2 ^ 31) false f
  · exact ⟨hoff, (congrArg asCount hsame).trans h.count, (congrArg Mach.sharers hsame).trans h.sharers⟩
  · cases hon
  · set z : Mach := { x with tideOld := t, refillOld := r }
    set w := BitVec.ofNat 32 (putBits (x.reg k).toNat f.lo (f.hi - f.lo + 1) (f.takes false (f.bits (x.reg k).toNat) (f.bits (value % 2 ^ 31))))
    have hyz : y = z.setReg k w := hset
    have hw : getBits w.toNat 31 1 = 0 := by rw [← hget, hyz, hk]; exact (get_setReg_same z F.XLT_AS_CFG_ENABLE 0 e w).symm
    refine ⟨hoff, ?_, ?_⟩
    · rw [hyz, hk, z.asCount_setReg w he h.off, hw]
      exact h.count
    · rw [hyz, sharers_setReg _ _ (by simp only [hk, regKey]; omega)]
      exact h.sharers

/-- The fields of XLT_AS_CFG beside ENABLE take a write at a disabled address space; what ENABLE is judged by stays. -/
theorem putFields_asFields (m : Mach) {e : Nat} (value : Nat) (he : regKey F.XLT_AS_CFG_ENABLE.addr e < fabricCopy) (hoff : m.bit F.XLT_AS_CFG_ENABLE 0 e = false) :
    let x := m.putFields (regKey F.XLT_AS_CFG_ENABLE.addr e) F.XLT_AS_CFG_ENABLE.addr (value % 2 ^ 31) false
    AsFields e m x ∧ OnlyRegs (fun k => k = regKey F.XLT_AS_CFG_ENABLE.addr e) m x := by
  obtain ⟨r, hrow, hfields⟩ := asCfg_row
  intro x
  have hx : x = m.putList (regKey F.XLT_AS_CFG_ENABLE.addr e) F.XLT_AS_CFG_ENABLE.addr (value % 2 ^ 31) false r.fields := putFields_eq m hrow _ _ _
  rw [hx]
  refine ⟨List.foldlRecOn (motive := AsFields e m) _ _ ⟨hoff, rfl, rfl⟩ fun z hz f hf => putField_asFields hz he ?_, m.putList_onlyRegs rfl fun _ _ _ hon => nomatch hon⟩
  rw [hfields] at hf
  simp only [List.mem_cons, List.not_mem_nil, or_false] at hf
  rcases hf with rfl | rfl | rfl
  · exact .inl rfl
  · exact .inr (by decide)
  · exact .inr (by decide)

/-- AS_ENABLE of a disabled address space: taken from the share and the pool, or refused (R154). -/
theorem asEnable_spec {m : Mach} {p : Path} {h a : Nat} (value : Nat) (hs : m.Steward p F.XLT_AS_CFG_ENABLE.addr) (hh : h = m.getP p F.XLT_AS_SEL_HERD)
    (ha : a = m.getP p F.XLT_AS_SEL_ASID) (h16 : a < 16) (hoff : m.asEnabled h a = false) :
    let x := m.asCfgWrite p (value % 2 ^ 31 + 2 ^ 31)
    (m.roomFor h resAsids 1 = true → m.asCount < 1024 →
        x.asEnabled h a = true ∧ x.used h resAsids = (m.used h resAsids + 1) % 32 ∧ x.asCount = m.asCount + 1) ∧
      (m.roomFor h resAsids 1 = false ∨ 1024 ≤ m.asCount →
        x.asEnabled h a = false ∧ x.bit F.XLT_STATUS_AS_REFUSED = true ∧ x.used h resAsids = m.used h resAsids) ∧
      OnlyRegs (fun _ => True) m x := by
  intro x
  have h256 : h < 256 := hh ▸ getBits_lt _ _ _
  have hoff' : m.bit F.XLT_AS_CFG_ENABLE 0 (asSel h a) = false := by simpa [asEnabled, h16] using hoff
  have he : regKey F.XLT_AS_CFG_ENABLE.addr (asSel h a) < fabricCopy := by
    simp only [regKey, regSpan, asSel, fabricCopy]
    omega
  obtain ⟨⟨hyoff, hycount, hyshare⟩, hyonly⟩ := m.putFields_asFields value he hoff'
  set y := m.putFields (regKey F.XLT_AS_CFG_ENABLE.addr (asSel h a)) F.XLT_AS_CFG_ENABLE.addr (value % 2 ^ 31) false
  have hyused : y.used h resAsids = m.used h resAsids := used_congr (by decide) (hyonly.regs _ (by simp only [resAsids, asSel, regKey, regSpan]; omega))
  have hygrant : ∀ g, y.granted g resAsids = m.granted g resAsids := fun g =>
    congrArg (fun w : Word => getBits w.toNat _ _) (hyonly.regs _ (by simp only [resAsids, asSel, herdPage, regKey, regSpan]; omega))
  have hyroom : y.roomFor h resAsids 1 = m.roomFor h resAsids 1 := roomFor_congr hyshare hygrant hyused
  have hx : x = if m.roomFor h resAsids 1 = false ∨ 1024 ≤ m.asCount then y.set F.XLT_STATUS_AS_REFUSED 1
      else (y.set F.XLT_AS_CFG_ENABLE 1 0 (asSel h a)).take h resAsids 1 := by
    have hlow : (value % 2 ^ 31 + 2 ^ 31) % 2 ^ 31 = value % 2 ^ 31 := by omega
    have hwant : getBits (value % 2 ^ 31 + 2 ^ 31) 31 1 = 1 := by simp only [getBits]; omega
    rw [← hyroom, ← hycount]
    simp only [x, asCfgWrite]
    rw [stewardGate_of_admits hs]
    simp only [← hh, ← ha, if_neg (Nat.not_le.2 h16), hoff', hlow, hwant, Bool.toNat_false, Nat.zero_mul, Nat.add_zero]
    rfl
  have honly : OnlyRegs (fun _ => True) m y := hyonly.mono fun _ _ => trivial
  refine ⟨fun hroom hcount => ?_, fun hfull => ?_, ?_⟩
  · rw [hx, if_neg (by simp [hroom, hcount])]
    set z := y.set F.XLT_AS_CFG_ENABLE 1 0 (asSel h a)
    have hbit : z.bit F.XLT_AS_CFG_ENABLE 0 (asSel h a) = true := bit_set_same y _ true _ _ (by decide) rfl
    have hapart : ∀ n, fkey F.XLT_AS_CFG_ENABLE 0 (asSel h a) ≠ F.QE_HERD_USE.addr + 4 * resAsids.word + regSpan * n := fun n => by
      simp only [resAsids, fkey, regKey, regSpan]
      omega
    have hzused : z.used h resAsids = m.used h resAsids := (used_congr (by decide) (set_reg_ne y (hapart h).symm)).trans hyused
    have hzcount : z.asCount = m.asCount + 1 := by
      have hone : getBits (z.reg (fkey F.XLT_AS_CFG_ENABLE 0 (asSel h a))).toNat 31 1 = 1 := get_set_of_lt y F.XLT_AS_CFG_ENABLE (v := 1) 0 _ (by decide) (by decide)
      rw [set_reg_same] at hone
      exact (y.asCount_setReg _ he hyoff).trans (by rw [hone, hycount])
    refine ⟨?_, ?_, ?_⟩
    · have hkept : (z.take h resAsids 1).bit F.XLT_AS_CFG_ENABLE 0 (asSel h a) = true := (bit_congr (reg_setReg_ne _ _ (hapart h))).trans hbit
      simp [asEnabled, hkept, h16]
    · exact (used_setUsed_same _ _ _ (by decide) (by decide)).trans (by rw [hzused]; rfl)
    · exact (congrArg (fun l => (List.filter _ l).length) (listed_setReg_ne z _ (by
        simp only [resAsids, regSpan]
        omega))).trans hzcount
  · rw [hx, if_pos hfull]
    refine ⟨?_, bit_set_same y _ true _ _ (by decide) rfl, ?_⟩
    · rw [asEnabled, bit_set_of_addr y (by decide), hyoff, Bool.and_false]
    · exact (used_congr (by decide) (set_reg_ne y (by simp only [resAsids, fkey, regKey, regSpan]; omega))).trans hyused
  · rw [hx]
    split
    · exact honly.set trivial
    · exact (honly.set trivial).setReg _ trivial

end Mach
end Sys2Proof.Machine
end


section
/-! SUPPORT. Invalidations from their GO to their end (06_translation_windows.md R164, R170). -/
namespace Sys2Proof.Machine
namespace Mach

/-! ## Invalidations (R164) -/

theorem getInv_setInv_same (m : Mach) (page : Option Nat) (f : Fld) (v : Nat) (h : f.lo + f.wd ≤ 32) : (m.setInv page f v).getInv page f = v % 2 ^ f.wd := by
  have hb : putBits (m.reg (invKey page f)).toNat f.lo f.wd v < 2 ^ 32 := putBits_lt _ _ _ _ _ (BitVec.isLt _) h
  rw [getInv, setInv, reg_setReg_same, BitVec.toNat_ofNat, Nat.mod_eq_of_lt hb, getBits_putBits_same]

/-- Fields of XLT_STATUS lie apart in one register of the block or page. -/
theorem getInv_setInv_apart (m : Mach) (page : Option Nat) {f g : Fld} (v : Nat) (hk : invKey page g = invKey page f) (h : f.lo + f.wd ≤ 32)
    (ha : g.lo + g.wd ≤ f.lo ∨ f.lo + f.wd ≤ g.lo) : (m.setInv page f v).getInv page g = m.getInv page g := by
  have hb : putBits (m.reg (invKey page f)).toNat f.lo f.wd v < 2 ^ 32 := putBits_lt _ _ _ _ _ (BitVec.isLt _) h
  rw [getInv, setInv, hk, reg_setReg_same, BitVec.toNat_ofNat, Nat.mod_eq_of_lt hb, getBits_putBits_apart _ _ _ _ _ _ ha, getInv, hk]

theorem getInv_congr {m x : Mach} {page : Option Nat} {f : Fld} (h : x.reg (invKey page f) = m.reg (invKey page f)) : x.getInv page f = m.getInv page f := by
  rw [getInv, h, getInv]

/-- The bits of XLT_STATUS stand in one register. -/
theorem invKey_status (page : Option Nat) {f : Fld} (h : f.addr = F.XLT_STATUS_INV_BUSY.addr) (hs : f.step = 0) : invKey page f = invKey page F.XLT_STATUS_INV_BUSY := by
  cases page with
  | none => simp [invKey, fkey, h, hs]
  | some g => simp [invKey, h]

/-- A request as it stands once it has begun: with the requests noted that were translated with what it drops. -/
def begun (m : Mach) (r : InvReq) : InvReq :=
  let hit := m.inFlight.filter (fun x => x.2.2.2.any (fun s =>
    if x.2.2.1 = 0x1FF then (List.range 16).any (fun a => invReaches r x.2.1 a s.va s.len) else invReaches r x.2.1 x.2.2.1 s.va s.len))
  { r with running := true, blockers := hit.map (·.1) }

theorem invBegin_eq (m : Mach) (r : InvReq) :
    m.invBegin r = m.putXlt { m.xlt with cache := m.xlt.cache.filter (fun x => !invEntry r x), inv := m.xlt.inv.map (fun y => if y = r then m.begun r else y) } := rfl

theorem begun_mem_invBegin {m : Mach} {r : InvReq} (h : r ∈ m.xlt.inv) : m.begun r ∈ (m.invBegin r).xlt.inv := by
  rw [invBegin_eq]
  exact List.mem_map.2 ⟨r, h, if_pos rfl⟩

/-- No entry that the request reaches is left in the cache. -/
theorem invEntry_of_invBegin {m : Mach} {r : InvReq} : ∀ x ∈ (m.invBegin r).xlt.cache, invEntry (m.begun r) x = false := by
  intro x hx
  have hr : invEntry r x = false := by simpa using (List.mem_filter.1 hx).2
  exact hr

theorem invBegin_onlyRegs (K : Nat → Prop) (m : Mach) (r : InvReq) : OnlyRegs K m (m.invBegin r) := (OnlyRegs.refl K m).of_regs rfl rfl rfl rfl rfl

/-- A GO as it stands in XLT_INV, with INV_BUSY set and its request last in the order. -/
def goJoined (m : Mach) (page : Option Nat) (w : Word) (r : InvReq) : Mach :=
  ((m.setReg (invKey page F.XLT_INV_GO) w).setInv page F.XLT_STATUS_INV_BUSY 1).putXlt { m.xlt with inv := m.xlt.inv ++ [r] }

/-- A GO of an idle page or block joins the order, and begins where none runs. -/
theorem invGo_idle {m : Mach} {v : Via} (ha : m.Admits v F.XLT_INV_GO.addr) (hb : m.getInv v.page F.XLT_STATUS_INV_BUSY = 0) (value scope : Nat) :
    ∃ (w : Word) (r : InvReq), r.page = v.page ∧ r.scope = scope ∧ r.asid = value % 256 ∧ r.herd = v.page.getD (getBits value 8 8) ∧ r.running = false ∧
      m.invGo v value scope = if m.xlt.inv.any (fun y => y.running) then m.goJoined v.page w r else (m.goJoined v.page w r).invBegin r := by
  rw [invGo, gate_of_admits ha]
  dsimp only
  rw [hb, if_neg (by decide)]
  obtain ⟨p, page⟩ := v
  cases page <;> exact ⟨_, _, rfl, rfl, rfl, rfl, rfl, rfl⟩

/-- XLT_INV and XLT_STATUS of a block or page. -/
abbrev goKey (page : Option Nat) (k : Nat) : Prop := k = invKey page F.XLT_INV_GO ∨ k = invKey page F.XLT_STATUS_INV_BUSY

theorem goJoined_spec (m : Mach) (page : Option Nat) (w : Word) (r : InvReq) :
    (m.goJoined page w r).getInv page F.XLT_STATUS_INV_BUSY = 1 ∧ OnlyRegs (goKey page) m (m.goJoined page w r) := by
  refine ⟨getInv_setInv_same _ _ _ _ (by decide), ?_⟩
  exact (((OnlyRegs.refl _ m).setReg w (.inl rfl)).setReg _ (.inr rfl)).of_regs rfl rfl rfl rfl rfl

/-- What a GO of an idle page or block does. -/
theorem invGo_spec {m : Mach} {v : Via} (ha : m.Admits v F.XLT_INV_GO.addr) (hb : m.getInv v.page F.XLT_STATUS_INV_BUSY = 0) (value scope : Nat) :
    let x := m.invGo v value scope
    x.getInv v.page F.XLT_STATUS_INV_BUSY = 1 ∧ x.xlt.inv.length = m.xlt.inv.length + 1 ∧
      (∃ r ∈ x.xlt.inv, r.page = v.page ∧ r.scope = scope ∧ r.asid = value % 256 ∧ r.herd = v.page.getD (getBits value 8 8) ∧
        r.running = !m.xlt.inv.any (fun y => y.running) ∧ (r.running = true → ∀ y ∈ x.xlt.cache, invEntry r y = false)) ∧
      (m.xlt.inv.any (fun y => y.running) = true → x.xlt.cache = m.xlt.cache) ∧ OnlyRegs (goKey v.page) m x := by
  intro x
  obtain ⟨w, r, hpage, hscope, hasid, hherd, hrun, hx⟩ := invGo_idle ha hb value scope
  obtain ⟨hbusy, honly⟩ := m.goJoined_spec v.page w r
  have hmem : r ∈ (m.goJoined v.page w r).xlt.inv := List.mem_append_right _ (List.mem_singleton_self r)
  have hx' : x = _ := hx
  rw [hx']
  cases hany : m.xlt.inv.any (fun y => y.running) with
  | true =>
    refine ⟨hbusy, List.length_append, ⟨r, hmem, hpage, hscope, hasid, hherd, hrun, fun hr => ?_⟩, fun _ => rfl, honly⟩
    rw [hrun] at hr
    cases hr
  | false =>
    refine ⟨hbusy, ?_, ⟨_, begun_mem_invBegin hmem, hpage, hscope, hasid, hherd, rfl, fun _ => invEntry_of_invBegin⟩, nofun, ?_⟩
    · rw [if_neg (by decide), invBegin_eq]
      exact (List.length_map _).trans List.length_append
    · exact honly.trans (invBegin_onlyRegs _ _ _)

/-- A GO while INV_BUSY is dropped. -/
theorem invGo_dropped {m : Mach} {v : Via} (ha : m.Admits v F.XLT_INV_GO.addr) (hb : m.getInv v.page F.XLT_STATUS_INV_BUSY = 1) (value scope : Nat) :
    m.invGo v value scope = m.setInv v.page F.XLT_STATUS_CMD_DROPPED 1 := by
  rw [invGo, gate_of_admits ha]
  exact if_pos hb

/-! ## An invalidation is done (R164, R170) -/

/-- `y` comes after `x` with other pins and another cache, and as it was in what an invalidation must not lose. -/
structure Rewalked (x y : Mach) : Prop where
  inv : y.xlt.inv = x.xlt.inv
  only : OnlyRegs (fun _ => True) x y

theorem Rewalked.trans {x y z : Mach} (h : Rewalked x y) (g : Rewalked y z) : Rewalked x z := ⟨g.inv.trans h.inv, h.only.trans g.only⟩

theorem Rewalked.of_regs {x y : Mach} (hi : y.xlt.inv = x.xlt.inv) (hv : y.variant = x.variant) (hr : y.regs = x.regs) (hw : y.wr = x.wr) (hd : y.downs = x.downs)
    (ht : y.tileDowns = x.tileDowns) : Rewalked x y := ⟨hi, (OnlyRegs.refl _ x).of_regs hv hr hw hd ht⟩

/-- Pinned entries of a window are walked again. -/
theorem rewalk_rewalked (m : Mach) (w : Nat) : Rewalked m (m.rewalk w) := by
  unfold rewalk
  extract_lets e acc z y
  have hy : Rewalked m y := .of_regs rfl rfl rfl rfl rfl rfl
  split <;> rename_i hl
  all_goals have hz := Rewalked.mk (leavesOf_to hl).inv ((leavesOf_to hl).only.mono fun _ _ => trivial)
  · exact (hy.trans hz).trans (.of_regs rfl rfl rfl rfl rfl rfl)
  · exact hy.trans hz

/-- The end of an invalidation whose requests are all out of flight. -/
theorem invDone_spec {m : Mach} {r : InvReq} (hr : m.xlt.inv.find? (fun y => y.running) = some r) (hb : ∀ b ∈ r.blockers, b ∉ m.inFlight.map (·.1)) :
    m.invDone.getInv r.page F.XLT_STATUS_INV_BUSY = 0 ∧ m.invDone.getInv r.page F.XLT_STATUS_INV_DONE = 1 ∧
      m.invDone.xlt.inv = m.xlt.inv.filter (fun y => y != r) ∧ OnlyRegs (fun _ => True) m m.invDone := by
  have hlive : r.blockers.any (fun b => (m.inFlight.map (·.1)).contains b) = false := by simpa using hb
  set y := m.putXlt { m.xlt with cache := m.xlt.cache.filter (fun x => !invEntry r x) } with hy
  set z := ((((m.xlt.pins.filter (fun p => p.2.any (invEntry r))).map (·.1)).foldl (fun m w => m.rewalk w) y).pinCounts) with hz
  have hx : m.invDone = ((z.putXlt { z.xlt with inv := z.xlt.inv.filter (fun y => y != r) }).setInv r.page F.XLT_STATUS_INV_BUSY 0).setInv r.page F.XLT_STATUS_INV_DONE 1 := by
    rw [invDone, hr]
    dsimp only
    rw [hlive]
    rfl
  have hfold : ∀ l : List Nat, Rewalked y (l.foldl (fun m w => m.rewalk w) y) := fun l =>
    List.foldlRecOn (motive := Rewalked y) l _ ⟨rfl, .refl _ y⟩ fun w hw n _ => hw.trans (w.rewalk_rewalked n)
  have hyz : Rewalked m z := by
    have hmy : Rewalked m y := .of_regs rfl rfl rfl rfl rfl rfl
    have hcounts : ∀ w : Mach, Rewalked w w.pinCounts := fun w => ⟨rfl, ((OnlyRegs.refl _ w).set trivial).set trivial⟩
    exact (hmy.trans (hfold _)).trans (hcounts _)
  rw [hx]
  refine ⟨?_, getInv_setInv_same _ _ _ _ (by decide), ?_, ?_⟩
  · have hkey : invKey r.page F.XLT_STATUS_INV_BUSY = invKey r.page F.XLT_STATUS_INV_DONE := (invKey_status r.page rfl rfl).symm
    rw [getInv_setInv_apart _ _ _ hkey (by decide) (.inl (by decide)), getInv_setInv_same _ _ _ _ (by decide), Nat.zero_mod]
  · exact congrArg (List.filter _) hyz.inv
  · have hput : OnlyRegs (fun _ => True) m (z.putXlt { z.xlt with inv := z.xlt.inv.filter (fun y => y != r) }) := hyz.only.of_regs rfl rfl rfl rfl rfl
    exact (hput.setReg _ trivial).setReg _ trivial

/-- An invalidation waits while a request translated with a dropped entry is in flight. -/
theorem invDone_blocked {m : Mach} {r : InvReq} (hr : m.xlt.inv.find? (fun y => y.running) = some r) (hb : ∃ b ∈ r.blockers, b ∈ m.inFlight.map (·.1)) : m.invDone = m := by
  have hlive : r.blockers.any (fun b => (m.inFlight.map (·.1)).contains b) = true := by simpa using hb
  rw [invDone, hr]
  exact if_pos hlive

end Mach
end Sys2Proof.Machine
end


section
/-! SUPPORT. What a harvest of a bitmap moves and what it leaves as it was (06_translation_windows.md R174). -/
namespace Sys2Proof.Machine
/-! ## Changes of the stores that a write to Peat makes (10_memory.md R282; 15_cipher.md R378) -/

/-- No change of the stores is handed on from `x` to `y`. -/
structure SameWr (x y : Mach) : Prop where
  wr : y.wr = x.wr

namespace SameWr

variable {x y z : Mach}

theorem refl (x : Mach) : SameWr x x := ⟨rfl⟩

theorem trans (h : SameWr x y) (g : SameWr y z) : SameWr x z := ⟨g.wr.trans h.wr⟩

theorem ite {c : Prop} [Decidable c] (h : SameWr x y) (g : SameWr x z) : SameWr x (if c then y else z) := by
  split <;> assumption

theorem foldl {α : Type} {g : Mach → α → Mach} {l : List α} (h : ∀ z a, SameWr z (g z a)) (x : Mach) : SameWr x (l.foldl g x) :=
  List.foldlRecOn (motive := SameWr x) l g (.refl x) fun z hz a _ => hz.trans (h z a)

theorem set (h : SameWr x y) (f : Fld) (v i e : Nat) : SameWr x (y.set f v i e) := ⟨h.wr⟩

theorem set64 (h : SameWr x y) (f : Fld) (v i e : Nat) : SameWr x (y.set64 f v i e) := ⟨h.wr⟩

theorem inc64 (h : SameWr x y) (f : Fld) (n i e : Nat) : SameWr x (y.inc64 f n i e) := ⟨h.wr⟩

theorem raise (h : SameWr x y) (code source herd : Nat) (dest : List Nat) (a b : Nat) : SameWr x (y.raise code source herd dest a b) := ⟨h.wr⟩

theorem setKeyPage (h : SameWr x y) (p : Nat) (k : KeyPage) : SameWr x (y.setKeyPage p k) := ⟨h.wr⟩

theorem zeroCounters (h : SameWr x y) (p : Nat) : SameWr x (y.zeroCounters p) := ⟨h.wr⟩

theorem keyRecord (h : SameWr x y) (p : Nat) : SameWr x (y.keyRecord p) := ⟨h.wr⟩

theorem setMirror (x : Mach) (r : Nat) (m : Mirror) : SameWr x (x.setMirror r m) := ⟨rfl⟩

/-- The switch of a key page's keys (15_cipher.md R382). -/
theorem keySwitch (x : Mach) (p : Nat) : SameWr x (x.keySwitch p) := by
  unfold Mach.keySwitch
  extract_lets k e c o own y z w v
  have hz : SameWr x z := (((((setKeyPage (.refl x) p _).set _ _ _ _).set _ _ _ _).set _ _ _ _).set _ _ _ _).set _ _ _ _
  have hw : SameWr x w := (hz.set64 _ _ _ _).zeroCounters p
  have hv : SameWr x v := .ite ((hw.set64 _ _ _ _).keyRecord p) hw
  exact hv.raise _ _ _ _ _ _

theorem mirrorLog (x : Mach) (addr len : Nat) (sched : Bool) : SameWr x (x.mirrorLog addr len sched) := by
  unfold Mach.mirrorLog
  split
  · exact refl x
  · refine .ite (refl x) (foldl (fun z i => ?_) x)
    exact .ite (setMirror z _ _) (.ite (setMirror z _ _) (setMirror z _ _))

theorem storeKeyCount (x : Mach) (addr len : Nat) : SameWr x (x.storeKeyCount addr len) := by
  unfold Mach.storeKeyCount
  extract_lets g p n y o
  have hy : SameWr x y := inc64 (.refl x) _ _ _ _
  exact .ite (refl x) (.ite (hy.trans (keySwitch y p)) (.ite ((hy.set _ _ _ _).raise _ _ _ _ _ _) hy))

end SameWr

namespace Mach

theorem peatWrite_wr (m : Mach) (addr : Nat) (d : List Byte) (sched : Bool) : (m.peatWrite addr d sched).wr = .bytes .peat addr d :: m.wr :=
  congrArg (List.cons _) ((SameWr.mirrorLog m addr _ sched).trans (.storeKeyCount _ _ _)).wr

theorem peatWrite_aside (m : Mach) (addr : Nat) (d : List Byte) (sched : Bool) : Aside m (m.peatWrite addr d sched) :=
  (((Aside.mirrorLog m _ _ sched).trans (.storeKeyCount _ _ _)).trans (.wrBytes _ _ _ _)).trans (.putMem _ _)

/-! ## Words of a bitmap (R174) -/

/-- A word as one operation reads and zeroes it, and writes it to its destination. -/
def wordMoved (m : Mach) (src dst : Nat) : Mach := (m.wrBytes .peat src (List.replicate 8 0)).peatWrite dst (m.rdBytes .peat src 8) false

theorem harvestWords_succ (m : Mach) (src dst n : Nat) : m.harvestWords src dst (n + 1) = (m.wordMoved src dst).harvestWords (src + 8) (dst + 8) n := rfl

theorem wordMoved_wr (m : Mach) (src dst : Nat) :
    (m.wordMoved src dst).wr = .bytes .peat dst (m.rdBytes .peat src 8) :: .bytes .peat src (List.replicate 8 0) :: m.wr := peatWrite_wr _ _ _ _

theorem wordMoved_aside (m : Mach) (src dst : Nat) : Aside m (m.wordMoved src dst) := (Aside.wrBytes m _ _ _).trans (peatWrite_aside _ _ _ _)

theorem harvestWords_aside (m : Mach) (src dst n : Nat) : Aside m (m.harvestWords src dst n) := by
  induction n generalizing m src dst with
  | zero => exact .refl m
  | succ n ih => exact (m.wordMoved_aside src dst).trans (ih _ _ _)

theorem rdBytes_congr {m x : Mach} (hw : x.wr = m.wr) (hb : x.base = m.base) (st : Store) (a n : Nat) : x.rdBytes st a n = m.rdBytes st a n := by
  simp only [rdBytes, rd_congr hw hb]

/-- What a harvest changes depends on the stores alone. -/
theorem harvestWords_wr_congr {m x : Mach} (hw : x.wr = m.wr) (hb : x.base = m.base) (src dst n : Nat) :
    (x.harvestWords src dst n).wr = (m.harvestWords src dst n).wr := by
  induction n generalizing m x src dst with
  | zero => exact hw
  | succ n ih =>
    refine ih ?_ ?_ (src + 8) (dst + 8)
    · exact (x.wordMoved_wr src dst).trans (by rw [rdBytes_congr hw hb, hw]; exact (m.wordMoved_wr src dst).symm)
    · exact (x.wordMoved_aside src dst).steady.base.trans (hb.trans (m.wordMoved_aside src dst).steady.base.symm)

/-- A harvest changes Peat alone. -/
theorem harvestWords_wr_peat (m : Mach) (src dst n : Nat) : ∀ op ∈ (m.harvestWords src dst n).wr, op ∈ m.wr ∨ ∃ a d, op = .bytes .peat a d := by
  induction n generalizing m src dst with
  | zero => exact fun op => .inl
  | succ n ih =>
    intro op hop
    obtain hop | hop := ih (m.wordMoved src dst) (src + 8) (dst + 8) op hop
    · rw [wordMoved_wr] at hop
      simp only [List.mem_cons] at hop
      rcases hop with rfl | rfl | hop
      · exact .inr ⟨_, _, rfl⟩
      · exact .inr ⟨_, _, rfl⟩
      · exact .inl hop
    · exact .inr hop

/-- A byte after a word was moved. -/
theorem wordMoved_rd (m : Mach) (src dst a : Nat) :
    (m.wordMoved src dst).rd .peat a =
      if dst ≤ a ∧ a < dst + 8 then m.rd .peat (src + (a - dst)) else if src ≤ a ∧ a < src + 8 then 0 else m.rd .peat a := by
  have hbase : (m.wordMoved src dst).base = m.base := (m.wordMoved_aside src dst).steady.base
  have hbytes : ∀ (lo : Nat) (d : List Byte), (MemOp.bytes .peat lo d).at .peat a = if lo ≤ a then d[a - lo]? else none := fun lo d => by simp [MemOp.at]
  have hread : ∀ i, (m.rdBytes .peat src 8)[i]? = if i < 8 then some (m.rd .peat (src + i)) else none := fun i => by
    simp only [rdBytes, List.getElem?_map]
    split <;> rename_i hi
    · simp [List.getElem?_range hi]
    · simp [hi]
  rw [rd, wordMoved_wr, hbase, List.findSome?_cons, List.findSome?_cons, hbytes, hbytes, hread, List.getElem?_replicate]
  by_cases hd : dst ≤ a ∧ a < dst + 8
  · rw [if_pos hd, if_pos hd.1, if_pos (by omega)]
    rfl
  · have hnone : (if dst ≤ a then (if a - dst < 8 then some (m.rd .peat (src + (a - dst))) else none) else none) = none := by
      split
      · rw [if_neg (by omega)]
      · rfl
    rw [if_neg hd, hnone]
    by_cases hs : src ≤ a ∧ a < src + 8
    · rw [if_pos hs, if_pos hs.1, if_pos (by omega)]
      rfl
    · have hnone' : (if src ≤ a then (if a - src < 8 then some (0 : Byte) else none) else none) = none := by
        split
        · rw [if_neg (by omega)]
        · rfl
      rw [if_neg hs, hnone']
      rfl

/-- Bytes after a harvest between places that lie apart: moved, zeroed, or as they were. -/
theorem harvestWords_rd (m : Mach) {src dst n : Nat} (h : src + 8 * n ≤ dst ∨ dst + 8 * n ≤ src) (a : Nat) :
    (m.harvestWords src dst n).rd .peat a =
      if dst ≤ a ∧ a < dst + 8 * n then m.rd .peat (src + (a - dst)) else if src ≤ a ∧ a < src + 8 * n then 0 else m.rd .peat a := by
  induction n generalizing m src dst with
  | zero => rw [if_neg (by omega), if_neg (by omega)]; rfl
  | succ n ih =>
    rw [harvestWords_succ, ih _ (by omega)]
    by_cases hd : dst ≤ a ∧ a < dst + 8 * (n + 1)
    · rw [if_pos hd]
      by_cases hlate : dst + 8 ≤ a
      · have hat : src + 8 + (a - (dst + 8)) = src + (a - dst) := by omega
        rw [if_pos (show dst + 8 ≤ a ∧ a < dst + 8 + 8 * n by omega), wordMoved_rd, hat, if_neg (by omega), if_neg (by omega)]
      · rw [if_neg (show ¬ (dst + 8 ≤ a ∧ a < dst + 8 + 8 * n) by omega), if_neg (show ¬ (src + 8 ≤ a ∧ a < src + 8 + 8 * n) by omega), wordMoved_rd,
          if_pos (by omega)]
    · rw [if_neg hd, if_neg (show ¬ (dst + 8 ≤ a ∧ a < dst + 8 + 8 * n) by omega), wordMoved_rd, if_neg (show ¬ (dst ≤ a ∧ a < dst + 8) by omega)]
      by_cases hs : src ≤ a ∧ a < src + 8 * (n + 1)
      · rw [if_pos hs]
        by_cases hlate : src + 8 ≤ a
        · rw [if_pos (by omega)]
        · rw [if_neg (by omega), if_pos (by omega)]
      · rw [if_neg hs, if_neg (by omega), if_neg (by omega)]

end Mach
end Sys2Proof.Machine
end


section
/-! SUPPORT and proof of O19: address spaces, invalidations and harvests as commands (06_translation_windows.md R154, R164, R174). -/
namespace Sys2Proof.Machine
namespace Mach

/-! ## Beginning of the first invalidation of the order (R164) -/

theorem invStart_idle {m : Mach} {r : InvReq} {rest : List InvReq} (hr : m.xlt.inv = r :: rest) (hidle : m.xlt.inv.any (fun y => y.running) = false) :
    m.invStart = m.invBegin r := by
  rw [invStart, hidle, if_neg (by decide), hr]

/-- An invalidation that has begun runs. -/
theorem any_running_invBegin {m : Mach} {r : InvReq} (h : r ∈ m.xlt.inv) : (m.invBegin r).xlt.inv.any (fun y => y.running) = true :=
  List.any_eq_true.2 ⟨_, begun_mem_invBegin h, rfl⟩

/-! ## Beginning and end of a harvest (R174) -/

/-- A harvest as its GO leaves it: `n` words asked for, `j` of them moved. -/
def harvestBegun (m : Mach) (src dst n j : Nat) : Mach :=
  let y := (((m.set F.XLT_DIRTY_CMD_VALUE n).fresh.2).harvestWords src dst j).set F.XLT_STATUS_DIRTY_BUSY 1
  y.putXlt { y.xlt with harvest := some (src + 8 * j, n - j, dst + 8 * j) }

theorem harvestGo_idle {m : Mach} {p : Path} {value src dst : Nat} (hs : m.Steward p F.XLT_DIRTY_CMD_GO.addr) (hb : m.bit F.XLT_STATUS_DIRTY_BUSY = false)
    (hsrc : src = m.get64 F.XLT_DIRTY_BASE_LO 0 (asSel (m.getP p F.XLT_AS_SEL_HERD) (m.getP p F.XLT_AS_SEL_ASID)) + 8 * (m.reg 0x02000054).toNat)
    (hdst : dst = m.get64 F.XLT_DIRTY_DST_LO) : ∃ j, j ≤ value % 2 ^ 24 ∧ m.harvestGo p value = m.harvestBegun src dst (value % 2 ^ 24) j := by
  refine ⟨((m.set F.XLT_DIRTY_CMD_VALUE (value % 2 ^ 24)).fresh.1).toNat % (value % 2 ^ 24 + 1),
    Nat.lt_succ_iff.1 (Nat.mod_lt _ (Nat.succ_pos _)), ?_⟩
  rw [harvestGo, stewardGate_of_admits hs, hb, hsrc, hdst]
  rfl

theorem harvestBegun_wr (m : Mach) (src dst n j : Nat) : (m.harvestBegun src dst n j).wr = (m.harvestWords src dst j).wr :=
  harvestWords_wr_congr (m := m) (x := (m.set F.XLT_DIRTY_CMD_VALUE n).fresh.2) rfl rfl src dst j

theorem harvestBegun_aside (m : Mach) (src dst n j : Nat) : Aside m (m.harvestBegun src dst n j) := by
  set y := (m.set F.XLT_DIRTY_CMD_VALUE n).fresh.2
  set z := (y.harvestWords src dst j).set F.XLT_STATUS_DIRTY_BUSY 1 with hz
  have hy : Aside m y := ((Aside.refl m).set (by decide)).trans (.of_eq (.of_eq rfl rfl rfl rfl rfl) rfl rfl rfl rfl rfl)
  have hyz : Aside y z := (y.harvestWords_aside src dst j).set (by decide)
  exact (hy.trans hyz).trans (.of_eq (.of_eq rfl rfl rfl rfl rfl) rfl rfl rfl rfl rfl)

/-- A harvest at its end: the words left are moved. -/
def harvestEnded (m : Mach) (src dst n : Nat) : Mach :=
  let y := m.harvestWords src dst n
  ((y.putXlt { y.xlt with harvest := none }).set F.XLT_STATUS_DIRTY_BUSY 0).set F.XLT_STATUS_DIRTY_DONE 1

theorem harvestDone_eq {m : Mach} {src dst n : Nat} (h : m.xlt.harvest = some (src, n, dst)) : m.harvestDone = m.harvestEnded src dst n := by
  rw [harvestDone, h]
  rfl

theorem harvestEnded_wr (m : Mach) (src dst n : Nat) : (m.harvestEnded src dst n).wr = (m.harvestWords src dst n).wr := rfl

theorem harvestEnded_busy (m : Mach) (src dst n : Nat) : (m.harvestEnded src dst n).bit F.XLT_STATUS_DIRTY_BUSY = false := by
  have hset : ∀ y : Mach, ((y.set F.XLT_STATUS_DIRTY_BUSY 0).set F.XLT_STATUS_DIRTY_DONE 1).get F.XLT_STATUS_DIRTY_BUSY = 0 := fun y => by
    have hapart := get_set_apart (y.set F.XLT_STATUS_DIRTY_BUSY 0) (f := F.XLT_STATUS_DIRTY_DONE) (g := F.XLT_STATUS_DIRTY_BUSY) (v := 1) (i := 0) (s := 0) (j := 0) (u := 0)
      rfl (by decide) (by decide)
    rw [hapart, get_set_zero y _ (by decide)]
  rw [bit, harvestEnded, hset]
  rfl

theorem harvestEnded_done (m : Mach) (src dst n : Nat) : (m.harvestEnded src dst n).bit F.XLT_STATUS_DIRTY_DONE = true :=
  bit_set_same _ _ true _ _ (by decide) rfl

theorem harvestEnded_aside (m : Mach) (src dst n : Nat) : Aside m (m.harvestEnded src dst n) := by
  set y := m.harvestWords src dst n
  have hy : Aside m y := m.harvestWords_aside src dst n
  have hz : Aside y (y.putXlt { y.xlt with harvest := none }) := .of_eq (.of_eq rfl rfl rfl rfl rfl) rfl rfl rfl rfl rfl
  exact ((hy.trans hz).set (by decide)).set (by decide)

end Mach

/-- Changes of Peat alone leave another store as it was. -/
theorem foldr_apply_of_peat {st : Store} (hst : st ≠ .peat) (mem : Memory) {ops : List MemOp} (h : ∀ op ∈ ops, ∃ a d, op = .bytes .peat a d) :
    ops.foldr (fun op x => op.apply st x) mem = mem := by
  induction ops with
  | nil => rfl
  | cons op r ih =>
    obtain ⟨a, d, rfl⟩ := h op List.mem_cons_self
    rw [List.foldr_cons, ih fun o ho => h o (List.mem_cons_of_mem _ ho)]
    exact if_neg (Ne.symm hst)

/-- How to show what a command does that changes the stores beside the queue engine. -/
theorem runs_of_aside {c : Instr} {s : State} {P : Mach → Prop} {f : Mach → Mach} {x : Mach} (hc : Sys2Proof.Machine.exec c s = commit s f) (hi : s.m.Inv)
    (hx : f s.m = x) (hd : x.downs = s.m.downs) (ht : x.tileDowns = s.m.tileDowns) (hv : x.variant = s.m.variant) (hb : x.base = s.m.base)
    (h : StoresOf x (settle s.m x) → (∀ k, (settle s.m x).reg k = x.reg k) → P (settle s.m x)) : Runs c s P := by
  subst hx
  exact runs_of_commit hc hi (hd.trans hi.no_downs) (ht.trans hi.no_tileDowns) (h (storesOf_settle hi hb) fun k => settle_reg _ _ k hv)

/-! ## The commands -/

/-- ENABLE of an address space. -/
theorem runs_asEnable {s : State} {p : Path} {w : Word} {h a : Nat} (hi : s.m.Inv) (hs : s.m.Steward p F.XLT_AS_CFG_ENABLE.addr)
    (hh : h = s.m.getP p F.XLT_AS_SEL_HERD) (ha : a = s.m.getP p F.XLT_AS_SEL_ASID) (h16 : a < 16) (hoff : s.m.asEnabled h a = false) :
    (s.m.roomFor h resAsids 1 = true → s.m.asCount < 1024 →
      Runs (.asEnable p w) s fun n => n.asEnabled h a = true ∧ n.used h resAsids = (s.m.used h resAsids + 1) % 32 ∧ n.asCount = s.m.asCount + 1 ∧ SameStores s.m n) ∧
    (s.m.roomFor h resAsids 1 = false ∨ 1024 ≤ s.m.asCount →
      Runs (.asEnable p w) s fun n => n.asEnabled h a = false ∧ n.bit F.XLT_STATUS_AS_REFUSED = true ∧ n.used h resAsids = s.m.used h resAsids ∧ SameStores s.m n) := by
  obtain ⟨htaken, hrefused, honly⟩ := Mach.asEnable_spec w.toNat hs hh ha h16 hoff
  set x := s.m.asCfgWrite p (w.toNat % 2 ^ 31 + 2 ^ 31)
  have henabled : (∀ k, (settle s.m x).reg k = x.reg k) → (settle s.m x).asEnabled h a = x.asEnabled h a := fun hreg =>
    congrArg (fun b => decide (a < 16) && b) (Mach.bit_congr (hreg _))
  refine ⟨fun hroom hcount => ?_, fun hfull => ?_⟩
  · obtain ⟨hon, hused, hcounted⟩ := htaken hroom hcount
    exact runs_of_onlyRegs (f := fun m => m.asCfgWrite p (w.toNat % 2 ^ 31 + 2 ^ 31)) rfl hi rfl honly fun hframe hreg =>
      ⟨(henabled hreg).trans hon, (Mach.used_congr (by decide) (hreg _)).trans hused, hcounted, hframe.2⟩
  · obtain ⟨hstill, hbit, hused⟩ := hrefused hfull
    exact runs_of_onlyRegs (f := fun m => m.asCfgWrite p (w.toNat % 2 ^ 31 + 2 ^ 31)) rfl hi rfl honly fun hframe hreg =>
      ⟨(henabled hreg).trans hstill, (Mach.bit_congr (hreg _)).trans hbit, (Mach.used_congr (by decide) (hreg _)).trans hused, hframe.2⟩

/-- A GO of any scope. -/
theorem runs_invGo {c : Instr} {s : State} {v : Via} {w : Word} {scope : Nat} (hc : Sys2Proof.Machine.exec c s = commit s fun m => m.invGo v w.toNat scope) (hi : s.m.Inv)
    (ha : s.m.Admits v F.XLT_INV_GO.addr) :
    (s.m.getInv v.page F.XLT_STATUS_INV_BUSY = 0 →
      Runs c s fun n =>
        n.getInv v.page F.XLT_STATUS_INV_BUSY = 1 ∧ n.xlt.inv.length = s.m.xlt.inv.length + 1 ∧
        (∃ r ∈ n.xlt.inv, r.page = v.page ∧ r.scope = scope ∧ r.asid = w.toNat % 256 ∧ r.herd = v.page.getD (getBits w.toNat 8 8) ∧
          r.running = !s.m.xlt.inv.any (fun y => y.running) ∧ (r.running = true → ∀ x ∈ n.xlt.cache, Mach.invEntry r x = false)) ∧
        (s.m.xlt.inv.any (fun y => y.running) = true → n.xlt.cache = s.m.xlt.cache) ∧ Frame (Mach.goKey v.page) s.m n) ∧
    (s.m.getInv v.page F.XLT_STATUS_INV_BUSY = 1 →
      Runs c s fun n => n.getInv v.page F.XLT_STATUS_CMD_DROPPED = 1 ∧ n.xlt = s.m.xlt ∧ Frame (fun k => k = Mach.invKey v.page F.XLT_STATUS_INV_BUSY) s.m n) := by
  refine ⟨fun hb => ?_, fun hb => ?_⟩
  · obtain ⟨hbusy, hlen, hreq, hcache, honly⟩ := Mach.invGo_spec ha hb w.toNat scope
    exact runs_of_onlyRegs hc hi rfl honly fun hframe hreg => ⟨(Mach.getInv_congr (hreg _)).trans hbusy, hlen, hreq, hcache, hframe⟩
  · have hkey : Mach.invKey v.page F.XLT_STATUS_CMD_DROPPED = Mach.invKey v.page F.XLT_STATUS_INV_BUSY := Mach.invKey_status _ rfl rfl
    have honly : OnlyRegs (fun k => k = Mach.invKey v.page F.XLT_STATUS_INV_BUSY) s.m (s.m.setInv v.page F.XLT_STATUS_CMD_DROPPED 1) :=
      (OnlyRegs.refl _ _).setReg _ hkey
    refine runs_of_onlyRegs hc hi (Mach.invGo_dropped ha hb w.toNat scope) honly fun hframe hreg => ⟨?_, rfl, hframe⟩
    exact (Mach.getInv_congr (hreg _)).trans (Mach.getInv_setInv_same _ _ _ _ (by decide))

/-- The first invalidation of the order begins. -/
theorem runs_invalidateStart {s : State} {t : Nat} {r : InvReq} {rest : List InvReq} (hi : s.m.Inv) (hr : s.m.xlt.inv = r :: rest)
    (hidle : s.m.xlt.inv.any (fun y => y.running) = false) :
    Runs (.invalidateStart t) s fun n =>
      n.xlt.cache = s.m.xlt.cache.filter (fun x => !Mach.invEntry r x) ∧ n.xlt.inv.any (fun y => y.running) = true ∧ Frame (fun _ => False) s.m n := by
  have hx : (s.m.advance t).invStart = (s.m.advance t).invBegin r := Mach.invStart_idle (m := s.m.advance t) hr hidle
  have hmem : r ∈ (s.m.advance t).xlt.inv := by
    show r ∈ s.m.xlt.inv
    simp [hr]
  exact runs_of_onlyRegs (f := fun m => (m.advance t).invStart) rfl hi hx (Mach.invBegin_onlyRegs _ _ r).advance fun hframe _ =>
    ⟨rfl, Mach.any_running_invBegin hmem, hframe⟩

/-- The running invalidation, at an instant at which it may be done. -/
theorem runs_invalidateDone {s : State} {t : Nat} {r : InvReq} (hi : s.m.Inv) (hr : s.m.xlt.inv.find? (fun y => y.running) = some r) :
    ((∀ b ∈ r.blockers, b ∉ s.m.inFlight.map (·.1)) →
      Runs (.invalidateDone t) s fun n =>
        n.getInv r.page F.XLT_STATUS_INV_BUSY = 0 ∧ n.getInv r.page F.XLT_STATUS_INV_DONE = 1 ∧ n.xlt.inv = s.m.xlt.inv.filter (fun y => y != r) ∧ SameStores s.m n) ∧
    ((∃ b ∈ r.blockers, b ∈ s.m.inFlight.map (·.1)) → Runs (.invalidateDone t) s fun n => n.xlt = s.m.xlt ∧ Frame (fun _ => False) s.m n) := by
  refine ⟨fun hfree => ?_, fun hblocked => ?_⟩
  · obtain ⟨hbusy, hdone, hinv, honly⟩ := Mach.invDone_spec (m := s.m.advance t) hr hfree
    exact runs_of_onlyRegs (f := fun m => (m.advance t).invDone) rfl hi rfl honly.advance fun hframe hreg =>
      ⟨(Mach.getInv_congr (hreg _)).trans hbusy, (Mach.getInv_congr (hreg _)).trans hdone, hinv, hframe.2⟩
  · have hx : (s.m.advance t).invDone = s.m.advance t := Mach.invDone_blocked (m := s.m.advance t) hr hblocked
    exact runs_of_onlyRegs (f := fun m => (m.advance t).invDone) rfl hi hx (OnlyRegs.refl _ _).advance fun hframe _ => ⟨rfl, hframe⟩

/-- A harvest begins. -/
theorem runs_dirtyHarvest {s : State} {p : Path} {w : Word} {src dst : Nat} (hi : s.m.Inv) (hs : s.m.Steward p F.XLT_DIRTY_CMD_GO.addr)
    (hb : s.m.bit F.XLT_STATUS_DIRTY_BUSY = false)
    (hsrc : src = s.m.get64 F.XLT_DIRTY_BASE_LO 0 (Mach.asSel (s.m.getP p F.XLT_AS_SEL_HERD) (s.m.getP p F.XLT_AS_SEL_ASID)) + 8 * (s.m.reg 0x02000054).toNat)
    (hdst : dst = s.m.get64 F.XLT_DIRTY_DST_LO) :
    Runs (.dirtyHarvest p w) s fun n =>
      n.bit F.XLT_STATUS_DIRTY_BUSY = true ∧
      ∃ j, j ≤ w.toNat % 2 ^ 24 ∧ n.xlt.harvest = some (src + 8 * j, w.toNat % 2 ^ 24 - j, dst + 8 * j) ∧ StoresOf (s.m.harvestWords src dst j) n := by
  obtain ⟨j, hj, hx⟩ := Mach.harvestGo_idle (value := w.toNat) hs hb hsrc hdst
  have hwords := s.m.harvestWords_aside src dst j
  have haside := s.m.harvestBegun_aside src dst (w.toNat % 2 ^ 24) j
  refine runs_of_aside (f := fun m => m.harvestGo p w.toNat) rfl hi hx haside.downs haside.tileDowns haside.variant haside.steady.base fun hst hreg => ⟨?_, j, hj, rfl, ?_⟩
  · exact (Mach.bit_congr (hreg _)).trans (Mach.bit_set_same _ _ true _ _ (by decide) rfl)
  · exact fun st a => (hst st a).trans (Mach.rd_congr (Mach.harvestBegun_wr _ _ _ _ _) (haside.steady.base.trans hwords.steady.base.symm) st a)

/-- A harvest between places that lie apart ends. -/
theorem runs_dirtyHarvestDone {s : State} {t src dst c : Nat} (hi : s.m.Inv) (hh : s.m.xlt.harvest = some (src, c, dst)) (hapart : src + 8 * c ≤ dst ∨ dst + 8 * c ≤ src) :
    Runs (.dirtyHarvestDone t) s fun n =>
      n.xlt.harvest = none ∧ n.bit F.XLT_STATUS_DIRTY_BUSY = false ∧ n.bit F.XLT_STATUS_DIRTY_DONE = true ∧
      (∀ i, i < 8 * c → memGet n.peat (dst + i) = memGet s.m.peat (src + i) ∧ memGet n.peat (src + i) = 0) ∧
      (∀ a, (a < src ∨ src + 8 * c ≤ a) → (a < dst ∨ dst + 8 * c ≤ a) → memGet n.peat a = memGet s.m.peat a) ∧
      n.cream = s.m.cream ∧ n.tsram = s.m.tsram ∧ n.flash = s.m.flash := by
  set y := s.m.advance t
  set x := y.harvestEnded src dst c
  have hx : y.harvestDone = x := Mach.harvestDone_eq hh
  have haside : Aside y x := y.harvestEnded_aside src dst c
  refine runs_of_aside (f := fun m => (m.advance t).harvestDone) rfl hi hx haside.downs haside.tileDowns haside.variant haside.steady.base fun hst hreg => ?_
  have hold : ∀ a, y.rd .peat a = memGet s.m.peat a := fun a => by
    rw [Mach.rd, show y.wr = [] from hi.no_wr]
    rfl
  have hbyte : ∀ a, memGet (settle s.m x).peat a =
      if dst ≤ a ∧ a < dst + 8 * c then memGet s.m.peat (src + (a - dst)) else if src ≤ a ∧ a < src + 8 * c then 0 else memGet s.m.peat a := fun a => by
    have hbase : x.base = (y.harvestWords src dst c).base := haside.steady.base.trans (y.harvestWords_aside src dst c).steady.base.symm
    rw [← hold, ← hold, ← y.harvestWords_rd hapart, ← Mach.rd_congr (y.harvestEnded_wr src dst c) hbase]
    exact hst .peat a
  have hpeat : ∀ op ∈ x.wr, ∃ a d, op = .bytes .peat a d := fun op hop => by
    obtain hno | hop := y.harvestWords_wr_peat src dst c op hop
    · rw [show y.wr = [] from hi.no_wr] at hno
      exact absurd hno List.not_mem_nil
    · exact hop
  refine ⟨rfl, ?_, ?_, fun i hlt => ⟨?_, ?_⟩, fun a hsrc hdst => ?_, ?_, ?_, ?_⟩
  · exact (Mach.bit_congr (hreg _)).trans (y.harvestEnded_busy src dst c)
  · exact (Mach.bit_congr (hreg _)).trans (y.harvestEnded_done src dst c)
  · rw [hbyte, if_pos (by omega), Nat.add_sub_cancel_left]
  · rw [hbyte, if_neg (by omega), if_pos (by omega)]
  · rw [hbyte, if_neg (by omega), if_neg (by omega)]
  · exact foldr_apply_of_peat (by decide) _ hpeat
  · exact foldr_apply_of_peat (by decide) _ hpeat
  · exact foldr_apply_of_peat (by decide) _ hpeat

/-- Settles O19: ENABLE by the count of enabled address spaces and the share's room, an invalidation by the request it leaves in the order, a harvest word by word. -/
theorem addressSpaces : Obligations.AddressSpaces := by
  unfold Obligations.AddressSpaces
  refine ⟨fun s p w h a hi hs hh ha h16 hoff => runs_asEnable hi hs hh ha h16 hoff, fun s v w c scope hc hi ha => ?_,
    fun s t r rest hi hr hidle => runs_invalidateStart hi hr hidle, fun s t r hi hr => runs_invalidateDone hi hr,
    fun s p w src dst hi hs hb hsrc hdst => runs_dirtyHarvest hi hs hb hsrc hdst, fun s t src dst c hi hh hapart => runs_dirtyHarvestDone hi hh hapart⟩
  simp only [List.mem_cons, Prod.mk.injEq, List.not_mem_nil, or_false] at hc
  rcases hc with ⟨rfl, rfl⟩ | ⟨rfl, rfl⟩ | ⟨rfl, rfl⟩ <;> exact runs_invGo rfl hi ha

end Sys2Proof.Machine
end


section
/-! SUPPORT. Window entries and their bytes, and what leaves the window table as it was (06_translation_windows.md R165, R169, R176). -/
namespace Sys2Proof.Machine

/-! ## Numbers in bytes -/

theorem leNat_lt (l : List Byte) : leNat l < 256 ^ l.length := by
  induction l with
  | nil => exact Nat.one_pos
  | cons b r ih =>
    have hb : b.toNat < 256 := b.isLt
    simp only [leNat, List.length_cons, Nat.pow_succ]
    omega

theorem leAt_lt (l : List Byte) (o n : Nat) : leAt l o n < 256 ^ n :=
  (leNat_lt _).trans_le (Nat.pow_le_pow_right (by decide) (List.length_take_le _ _))

theorem leBytes_drop (k v o : Nat) : (leBytes k v).drop o = leBytes (k - o) (v / 256 ^ o) := by
  induction o generalizing k v with
  | zero => simp
  | succ o ih =>
    cases k with
    | zero => simp [leBytes]
    | succ k => rw [leBytes, List.drop_succ_cons, ih, Nat.add_sub_add_right, Nat.div_div_eq_div_mul, Nat.pow_succ']

theorem leBytes_take {k n : Nat} (v : Nat) (h : n ≤ k) : (leBytes k v).take n = leBytes n v := by
  induction n generalizing k v with
  | zero => simp [leBytes]
  | succ n ih =>
    obtain ⟨k, rfl⟩ : ∃ j, k = j + 1 := ⟨k - 1, by omega⟩
    rw [leBytes, List.take_succ_cons, ih _ (by omega), leBytes]

/-- A number inside the first of the numbers that stand one after the other. -/
theorem leAt_leBytes_append {k o n : Nat} (v : Nat) (r : List Byte) (h : o + n ≤ k) : leAt (leBytes k v ++ r) o n = v / 256 ^ o % 256 ^ n := by
  rw [leAt, List.drop_append_of_le_length (by rw [leBytes_length]; omega), leBytes_drop,
    List.take_append_of_le_length (by rw [leBytes_length]; omega), leBytes_take _ (by omega), leNat_leBytes]

/-- A number after the first of the numbers that stand one after the other. -/
theorem leAt_append_leBytes {k o : Nat} (v n : Nat) (r : List Byte) (h : k ≤ o) : leAt (leBytes k v ++ r) o n = leAt r (o - k) n := by
  rw [leAt, List.drop_append, List.drop_eq_nil_of_le (by rw [leBytes_length]; omega), leBytes_length, List.nil_append, leAt]

theorem leAt_leBytes (n v : Nat) : leAt (leBytes n v) 0 n = v % 256 ^ n := by
  simpa using leAt_leBytes_append v [] (Nat.le_of_eq (Nat.zero_add n))

/-! ## Entries (R165) -/

/-- Every field of an entry fits its place. -/
structure WinEntry.Fits (x : WinEntry) : Prop where
  version : x.version < 16
  state : x.state < 4
  gen : x.gen < 65536
  ownerHerd : x.ownerHerd < 256
  ownerAsid : x.ownerAsid < 256
  peer : x.peer < 65536
  base : x.base < 2 ^ 64
  limit : x.limit < 2 ^ 64
  rev : x.rev < 2 ^ 64

theorem winOf_fits (b : List Byte) : (winOf b).Fits :=
  ⟨getBits_lt _ _ _, getBits_lt _ _ _, getBits_lt _ _ _, leAt_lt b 4 1, leAt_lt b 5 1, leAt_lt b 6 2, leAt_lt b 8 8, leAt_lt b 16 8, leAt_lt b 24 8⟩

theorem winBytes_length (x : WinEntry) : (winBytes x).length = 32 := by simp [winBytes, leBytes_length]

theorem toNat_beq_one (b : Bool) : (b.toNat == 1) = b := by cases b <;> rfl

/-- The first word of an entry. -/
def winWord (x : WinEntry) : Nat :=
  x.version + x.state * 16 + x.sched.toNat * 64 + x.r.toNat * 128 + x.w.toNat * 256 + x.atomic.toNat * 512 + x.gen * 65536

theorem winBytes_eq (x : WinEntry) :
    winBytes x = leBytes 4 (winWord x) ++ (leBytes 4 (x.ownerHerd + x.ownerAsid * 256 + x.peer * 65536) ++ (leBytes 8 x.base ++ (leBytes 8 x.limit ++ leBytes 8 x.rev))) := by
  simp only [winBytes, winWord, List.append_assoc]

theorem leAt_winBytes_second (x : WinEntry) {o n : Nat} (h : o + n ≤ 4) :
    leAt (winBytes x) (4 + o) n = (x.ownerHerd + x.ownerAsid * 256 + x.peer * 65536) / 256 ^ o % 256 ^ n := by
  rw [winBytes_eq, leAt_append_leBytes _ _ _ (Nat.le_add_right 4 o), Nat.add_sub_cancel_left, leAt_leBytes_append _ _ h]

/-- An entry is what its bytes say. -/
theorem winOf_winBytes {x : WinEntry} (h : x.Fits) : winOf (winBytes x) = x := by
  obtain ⟨hversion, hstate, hgen, hherd, hasid, hpeer, hbase, hlimit, hrev⟩ := h
  have bits : ∀ b : Bool, b.toNat < 2 := fun b => b.toNat_lt
  have hs := bits x.sched
  have hr := bits x.r
  have hw := bits x.w
  have ha := bits x.atomic
  have hword : winWord x < 256 ^ 4 := by
    simp only [winWord]
    omega
  have h0 : leAt (winBytes x) 0 4 = winWord x := by rw [winBytes_eq, leAt_leBytes_append _ _ (by decide), Nat.pow_zero, Nat.div_one, Nat.mod_eq_of_lt hword]
  have hb : leAt (winBytes x) 8 8 = x.base := by
    rw [winBytes_eq, leAt_append_leBytes _ _ _ (by decide), leAt_append_leBytes _ _ _ (by decide), leAt_leBytes_append _ _ (by decide)]
    omega
  have hl : leAt (winBytes x) 16 8 = x.limit := by
    rw [winBytes_eq, leAt_append_leBytes _ _ _ (by decide), leAt_append_leBytes _ _ _ (by decide), leAt_append_leBytes _ _ _ (by decide),
      leAt_leBytes_append _ _ (by decide)]
    omega
  have hv : leAt (winBytes x) 24 8 = x.rev := by
    rw [winBytes_eq, leAt_append_leBytes _ _ _ (by decide), leAt_append_leBytes _ _ _ (by decide), leAt_append_leBytes _ _ _ (by decide),
      leAt_append_leBytes _ _ _ (by decide), leAt_leBytes]
    omega
  have flag : ∀ {lo : Nat} {b : Bool}, winWord x / 2 ^ lo % 2 = b.toNat → (getBits (winWord x) lo 1 == 1) = b := fun e => by
    rw [getBits, Nat.pow_one, e, toNat_beq_one]
  have hword_eq : winWord x = x.version + x.state * 16 + x.sched.toNat * 64 + x.r.toNat * 128 + x.w.toNat * 256 + x.atomic.toNat * 512 + x.gen * 65536 := rfl
  show winOf (winBytes x) = { x with }
  rw [winOf, h0, hb, hl, hv, WinEntry.mk.injEq]
  refine ⟨?_, ?_, flag (by omega), flag (by omega), flag (by omega), flag (by omega), ?_, ?_, ?_, ?_, rfl, rfl, rfl⟩
  · simp only [getBits]; omega
  · simp only [getBits]; omega
  · simp only [getBits]; omega
  · exact (leAt_winBytes_second x (o := 0) (n := 1) (by decide)).trans (by omega)
  · exact (leAt_winBytes_second x (o := 1) (n := 1) (by decide)).trans (by omega)
  · exact (leAt_winBytes_second x (o := 2) (n := 2) (by decide)).trans (by omega)

/-! ## The window table -/

/-- Whether a key is that of no register that holds the address of the window table. -/
abbrev offTable (k : Nat) : Prop := k ≠ keyOf F.WIN_TABLE_LO ∧ k ≠ keyOf F.WIN_TABLE_LO + 4

theorem offTable_of_mod {k : Nat} (h : k % 0x10000 ≠ 0) (g : k % 0x10000 ≠ 4) : offTable k := by
  constructor <;> rintro rfl
  · exact h (by decide)
  · exact g (by decide)

/-- `y` comes after `x` with the stores, the place of the window table and what a command must not lose as they were. -/
structure Beside (x y : Mach) : Prop where
  wr : y.wr = x.wr
  base : y.base = x.base
  variant : y.variant = x.variant
  downs : y.downs = x.downs
  tileDowns : y.tileDowns = x.tileDowns
  regs : RegsBut offTable x y

namespace Beside

variable {x y z : Mach}

theorem refl (x : Mach) : Beside x x := ⟨rfl, rfl, rfl, rfl, rfl, .refl _ x⟩

theorem trans (h : Beside x y) (g : Beside y z) : Beside x z :=
  ⟨g.wr.trans h.wr, g.base.trans h.base, g.variant.trans h.variant, g.downs.trans h.downs, g.tileDowns.trans h.tileDowns, fun k hk => (g.regs k hk).trans (h.regs k hk)⟩

theorem ite {c : Prop} [Decidable c] (h : Beside x y) (g : Beside x z) : Beside x (if c then y else z) := by
  split <;> assumption

theorem foldl {α : Type} {g : Mach → α → Mach} {l : List α} (h : ∀ z a, Beside z (g z a)) (x : Mach) : Beside x (l.foldl g x) :=
  List.foldlRecOn (motive := Beside x) l g (.refl x) fun z hz a _ => hz.trans (h z a)

theorem of_inRegs (h : InRegs offTable x y) : Beside x y := by
  refine ⟨h.only.wr, ?_, h.only.variant, h.only.downs, h.only.tileDowns, h.regs⟩
  rw [h.file]
  rfl

/-- An update that leaves the register file alone. -/
theorem of_regs (hw : y.wr = x.wr) (hb : y.base = x.base) (hv : y.variant = x.variant) (hd : y.downs = x.downs) (ht : y.tileDowns = x.tileDowns) (hr : y.regs = x.regs) :
    Beside x y := ⟨hw, hb, hv, hd, ht, (RegsBut.refl _ x).of_regs hv hr⟩

theorem setReg (h : Beside x y) {k : Nat} (w : Word) (hk : offTable k) : Beside x (y.setReg k w) := h.trans (of_inRegs ((InRegs.refl _ y).setReg w hk))

theorem set (h : Beside x y) {f : Fld} {v i s : Nat} (hk : offTable (keyOf f i s)) : Beside x (y.set f v i s) := h.setReg _ hk

theorem winAddr (h : Beside x y) (w : Nat) : y.winAddr w = x.winAddr w := by
  have hlo := h.regs (keyOf F.WIN_TABLE_LO) fun hk => hk.1 rfl
  have hhi := h.regs (keyOf F.WIN_TABLE_LO + 4) fun hk => hk.2 rfl
  rw [Mach.winAddr, Mach.get64, hlo, hhi, Mach.winAddr, Mach.get64]

theorem setWin (h : Beside x y) (w : Nat) (e : WinEntry) : Beside (x.setWin w e) (y.setWin w e) :=
  ⟨congrArg₂ List.cons (congrArg (fun a => MemOp.bytes .peat a (winBytes e)) (h.winAddr w)) h.wr, h.base, h.variant, h.downs, h.tileDowns, h.regs⟩

theorem win (h : Beside x y) (w : Nat) : y.win w = x.win w := by
  rw [Mach.win, h.winAddr, Mach.rdBytes_congr h.wr h.base, Mach.win]

end Beside

namespace Mach

theorem rdBytes_wrBytes_same (m : Mach) (st : Store) (a : Nat) (d : List Byte) : (m.wrBytes st a d).rdBytes st a d.length = d := by
  refine List.ext_getElem (by simp [rdBytes]) fun i hi hd => ?_
  have hat : (MemOp.bytes st a d).at st (a + i) = some d[i] := by simp [MemOp.at, hd]
  have hrd : (m.wrBytes st a d).rd st (a + i) = d[i] := by
    rw [rd, wrBytes, List.findSome?_cons, hat]
    rfl
  simpa [rdBytes] using hrd

theorem win_setWin_same (m : Mach) (w : Nat) {x : WinEntry} (h : x.Fits) : (m.setWin w x).win w = x := by
  have hread : (m.setWin w x).rdBytes .peat (m.winAddr w) 32 = winBytes x := by
    have := m.rdBytes_wrBytes_same .peat (m.winAddr w) (winBytes x)
    rwa [winBytes_length] at this
  have haddr : (m.setWin w x).winAddr w = m.winAddr w := rfl
  rw [win, haddr, hread, winOf_winBytes h]

theorem win_fits (m : Mach) (w : Nat) : (m.win w).Fits := winOf_fits _

theorem get64_lt (m : Mach) (f : Fld) (i s : Nat) : m.get64 f i s < 2 ^ 64 := by
  have hlo := (m.reg (fkey f i s)).isLt
  have hhi := (m.reg (fkey f i s + 4)).isLt
  rw [get64]
  omega

/-- Once a command has settled, a window reads as at its end. -/
theorem win_settle {m x : Mach} (hi : m.Inv) (hb : x.base = m.base) (hv : x.variant = m.variant) (w : Nat) : (settle m x).win w = x.win w := by
  have haddr : (settle m x).winAddr w = x.winAddr w := by
    rw [winAddr, get64, settle_reg _ _ _ hv, settle_reg _ _ _ hv, winAddr, get64]
  have hread : ∀ a, (settle m x).rd .peat a = x.rd .peat a := storesOf_settle hi hb .peat
  rw [win, haddr, win]
  simp only [rdBytes, hread]

end Mach

/-- One range of one store is written. -/
theorem storesBut_settle {m x : Mach} {st : Store} {a : Nat} {d : List Byte} (hi : m.Inv) (hb : x.base = m.base) (hw : x.wr = [.bytes st a d]) :
    StoresBut st a d.length m (settle m x) := by
  intro st' b hout
  have hnone : (MemOp.bytes st a d).at st' b = none := by
    rw [MemOp.at]
    split <;> rename_i h
    · obtain ⟨rfl, hle⟩ := h
      refine List.getElem?_eq_none ?_
      rcases hout with h | h | h
      · exact absurd rfl h
      · omega
      · omega
    · rfl
  rw [storesOf_settle hi hb st' b, Mach.rd, hw, hb, List.findSome?_cons, hnone]
  rfl

/-- How to show what a command does that writes the entry of one window, after and before changes beside the table. -/
theorem runs_of_entry {c : Instr} {s : State} {P : Mach → Prop} {f : Mach → Mach} {m' x : Mach} {w : Nat} {e : WinEntry}
    (hc : Sys2Proof.Machine.exec c s = commit s f) (hi : s.m.Inv) (hx : f s.m = x) (hm : Beside s.m m') (he : e.Fits) (hb : Beside (m'.setWin w e) x)
    (h : (settle s.m x).win w = e → StoresBut .peat (s.m.winAddr w) 32 s.m (settle s.m x) → (∀ k, (settle s.m x).reg k = x.reg k) → P (settle s.m x)) : Runs c s P := by
  have hy : Beside (s.m.setWin w e) x := (hm.setWin w e).trans hb
  have hwr : x.wr = [.bytes .peat (s.m.winAddr w) (winBytes e)] := hy.wr.trans (congrArg (List.cons _) hi.no_wr)
  subst hx
  refine runs_of_commit hc hi (hy.downs.trans hi.no_downs) (hy.tileDowns.trans hi.no_tileDowns) (h ?_ ?_ fun k => settle_reg _ _ k hy.variant)
  · rw [Mach.win_settle hi hy.base hy.variant, hy.win, Mach.win_setWin_same _ _ he]
  · exact winBytes_length e ▸ storesBut_settle hi hy.base hwr

/-- How to show what a command does that leaves the window table as it was. -/
theorem runs_of_beside {c : Instr} {s : State} {P : Mach → Prop} {K : Nat → Prop} {f : Mach → Mach} {x : Mach} (hc : Sys2Proof.Machine.exec c s = commit s f) (hi : s.m.Inv)
    (hx : f s.m = x) (hb : Beside s.m x) (hK : RegsBut K s.m x)
    (h : (∀ w, (settle s.m x).win w = s.m.win w) → Frame K s.m (settle s.m x) → (∀ k, (settle s.m x).reg k = x.reg k) → P (settle s.m x)) : Runs c s P := by
  refine runs_of_onlyRegs hc hi hx ⟨hb.variant, hb.wr, hb.downs, hb.tileDowns, hK⟩ fun hframe hreg => h (fun w => ?_) hframe hreg
  rw [Mach.win_settle hi hb.base hb.variant, hb.win]

end Sys2Proof.Machine
end


section
/-! SUPPORT. Commands on windows: staging registers, status, use of a share, OPEN, CLOSE and READ (06_translation_windows.md R169 to R171, R176). -/
namespace Sys2Proof.Machine

/-! ## Registers of window commands -/

/-- Where a register of a path and page stands in its block of 64 KiB. -/
theorem viaKey_mod (v : Via) (f : Fld) (i : Nat) :
    viaKey v f i % 0x10000 = (f.addr + f.step * i) % 0x10000 ∨ viaKey v f i % 0x10000 = aliasOff (f.addr + f.step * i) % 0x10000 := by
  obtain ⟨p, page⟩ := v
  have hp : pathOff p % 0x04000000 = 0 := pathOff_mod p
  cases page with
  | none =>
    have hk : viaKey ⟨p, none⟩ f i = pathOff p + (f.addr + f.step * i) := rfl
    omega
  | some h =>
    have hk : viaKey ⟨p, some h⟩ f i = pathOff p + (0x00800000 + 0x10000 * h + aliasOff (f.addr + f.step * i)) := rfl
    omega

/-- The staging registers stand one after the other. -/
theorem viaKey_entry (v : Via) {i : Nat} (h : i < 8) : viaKey v F.WIN_ENTRY i = viaKey v F.WIN_CMD_STATUS_DONE + 0x14 + 4 * i := by
  obtain ⟨p, page⟩ := v
  cases page with
  | none =>
    show pathOff p + (0x02100020 + 4 * i + regSpan * 0) = pathOff p + (0x0210000C + 0 * 0 + regSpan * 0) + 0x14 + 4 * i
    omega
  | some g =>
    have halias : aliasOff (0x02100020 + 4 * i) = aliasOff 0x0210000C + 0x14 + 4 * i := by
      interval_cases i <;> rfl
    show pathOff p + (herdPage g + aliasOff (0x02100020 + 4 * i)) = pathOff p + (herdPage g + aliasOff 0x0210000C) + 0x14 + 4 * i
    omega

/-- WIN_CMD_STATUS or WIN_ENTRY of a path and page. -/
abbrev winCmdKey (v : Via) (k : Nat) : Prop := k = viaKey v F.WIN_CMD_STATUS_DONE ∨ ∃ i < 8, k = viaKey v F.WIN_ENTRY i

/-- Registers of window commands and of the counts of pinned and closing windows, by their places in a block or page. -/
abbrev winKey (k : Nat) : Prop := 0x0C ≤ k % 0x10000 ∧ k % 0x10000 < 0x64 ∨ 0x920C ≤ k % 0x10000 ∧ k % 0x10000 < 0x9240

theorem winKey_status (v : Via) : winKey (viaKey v F.WIN_CMD_STATUS_DONE) := by
  obtain h | h := viaKey_mod v F.WIN_CMD_STATUS_DONE 0
  · rw [winKey, h]; decide
  · rw [winKey, h]; decide

theorem winKey_of_cmd {v : Via} {k : Nat} (h : winCmdKey v k) : winKey k := by
  have hs := viaKey_mod v F.WIN_CMD_STATUS_DONE 0
  have ha : (F.WIN_CMD_STATUS_DONE.addr + F.WIN_CMD_STATUS_DONE.step * 0) % 0x10000 = 0x0C := rfl
  have hb : aliasOff (F.WIN_CMD_STATUS_DONE.addr + F.WIN_CMD_STATUS_DONE.step * 0) % 0x10000 = 0x920C := rfl
  obtain rfl | ⟨i, hi, rfl⟩ := h
  · exact winKey_status v
  · rw [winKey, viaKey_entry v hi]
    omega

theorem offTable_of_winKey {k : Nat} (h : winKey k) : offTable k := offTable_of_mod (by omega) (by omega)

namespace InRegs

variable {K L : Nat → Prop} {m x : Mach}

theorem mono (h : InRegs K m x) (hKL : ∀ k, K k → L k) : InRegs L m x := ⟨h.file, h.regs.mono hKL⟩

theorem setV (h : InRegs K m x) {v : Via} {f : Fld} {n i : Nat} (hk : K (viaKey v f i)) : InRegs K m (x.setV v f n i) := h.setReg _ hk

theorem xlt (h : InRegs K m x) : x.xlt = m.xlt := by
  rw [h.file]
  rfl

theorem winCloses (h : InRegs K m x) : x.winCloses = m.winCloses := by
  rw [h.file]
  rfl

theorem evq (h : InRegs K m x) : x.evq = m.evq := by
  rw [h.file]
  rfl

end InRegs

namespace Mach

theorem getV_congr {m x : Mach} {v : Via} {f : Fld} {i : Nat} (h : x.reg (viaKey v f i) = m.reg (viaKey v f i)) : x.getV v f i = m.getV v f i := by
  rw [getV, h, getV]

theorem getV_setV_same (m : Mach) (v : Via) (f : Fld) (n i : Nat) (h : f.lo + f.wd ≤ 32) : (m.setV v f n i).getV v f i = n % 2 ^ f.wd := by
  have hb : putBits (m.reg (viaKey v f i)).toNat f.lo f.wd n < 2 ^ 32 := putBits_lt _ _ _ _ _ (BitVec.isLt _) h
  rw [getV, setV, reg_setReg_same, BitVec.toNat_ofNat, Nat.mod_eq_of_lt hb, getBits_putBits_same]

/-- Fields that lie apart in one register. -/
theorem getV_setV_apart (m : Mach) (v : Via) {f g : Fld} (n : Nat) {i j : Nat} (hk : viaKey v g j = viaKey v f i) (h : f.lo + f.wd ≤ 32)
    (ha : g.lo + g.wd ≤ f.lo ∨ f.lo + f.wd ≤ g.lo) : (m.setV v f n i).getV v g j = m.getV v g j := by
  have hb : putBits (m.reg (viaKey v f i)).toNat f.lo f.wd n < 2 ^ 32 := putBits_lt _ _ _ _ _ (BitVec.isLt _) h
  rw [getV, setV, hk, reg_setReg_same, BitVec.toNat_ofNat, Nat.mod_eq_of_lt hb, getBits_putBits_apart _ _ _ _ _ _ ha, getV, hk]

/-! ## Staging and status -/

/-- What the end of a window command shows. -/
theorem winDone_spec (m : Mach) (v : Via) :
    (m.winDone v).getV v F.WIN_CMD_STATUS_DONE = 1 ∧ (m.winDone v).getV v F.WIN_CMD_STATUS_REFUSED = 0 ∧
      InRegs (fun k => k = viaKey v F.WIN_CMD_STATUS_DONE) m (m.winDone v) := by
  refine ⟨?_, getV_setV_same _ _ _ _ _ (by decide), ((InRegs.refl (fun k => k = viaKey v F.WIN_CMD_STATUS_DONE) m).setV (f := F.WIN_CMD_STATUS_DONE) rfl).setV
    (f := F.WIN_CMD_STATUS_REFUSED) rfl⟩
  exact (getV_setV_apart _ v 0 (i := 0) (j := 0) (f := F.WIN_CMD_STATUS_REFUSED) (g := F.WIN_CMD_STATUS_DONE) rfl (by decide) (by decide)).trans
    (getV_setV_same _ _ _ _ _ (by decide))

/-- What the refusal of a window command shows. -/
theorem winRefused_spec (m : Mach) (v : Via) (r : Nat) :
    (m.winRefused v r).getV v F.WIN_CMD_STATUS_REFUSED = 1 ∧ (m.winRefused v r).getV v F.WIN_CMD_STATUS_REASON = r % 256 ∧
      InRegs (fun k => k = viaKey v F.WIN_CMD_STATUS_DONE) m (m.winRefused v r) := by
  refine ⟨?_, getV_setV_same _ _ _ _ _ (by decide), (((InRegs.refl (fun k => k = viaKey v F.WIN_CMD_STATUS_DONE) m).setV (f := F.WIN_CMD_STATUS_DONE) rfl).setV (f := F.WIN_CMD_STATUS_REFUSED) rfl).setV
    (f := F.WIN_CMD_STATUS_REASON) rfl⟩
  exact (getV_setV_apart _ v r (i := 0) (j := 0) (f := F.WIN_CMD_STATUS_REASON) (g := F.WIN_CMD_STATUS_REFUSED) rfl (by decide) (by decide)).trans
    (getV_setV_same _ _ _ _ _ (by decide))

/-- Words staged one after the other. -/
theorem getV_staged (m : Mach) (v : Via) (g : Nat → Nat) {n i : Nat} (hn : n ≤ 8) (hi : i < n) :
    ((List.range n).foldl (fun m i => m.setV v F.WIN_ENTRY (g i) i) m).getV v F.WIN_ENTRY i = g i % 2 ^ 32 := by
  induction n with
  | zero => exact absurd hi (Nat.not_lt_zero i)
  | succ n ih =>
    rw [List.range_succ, List.foldl_append]
    obtain rfl | hlt := Nat.eq_or_lt_of_le (Nat.lt_succ_iff.1 hi)
    · exact getV_setV_same _ _ _ _ _ (by decide)
    · have hne : viaKey v F.WIN_ENTRY i ≠ viaKey v F.WIN_ENTRY n := by
        rw [viaKey_entry v (by omega), viaKey_entry v (by omega)]
        omega
      exact (getV_congr (reg_setReg_ne _ _ hne)).trans (ih (by omega) hlt)

/-- The staging registers show the bytes of an entry. -/
theorem winStage_spec (m : Mach) (v : Via) (x : WinEntry) :
    (∀ i, i < 8 → (m.winStage v x).getV v F.WIN_ENTRY i = leAt (winBytes x) (4 * i) 4) ∧ InRegs (fun k => ∃ i < 8, k = viaKey v F.WIN_ENTRY i) m (m.winStage v x) := by
  refine ⟨fun i hi => ?_, InRegs.foldl (fun z i hi => (InRegs.refl _ z).setV ⟨i, List.mem_range.1 hi, rfl⟩) m⟩
  exact (m.getV_staged v (fun i => leAt (winBytes x) (4 * i) 4) (Nat.le_refl 8) hi).trans (Nat.mod_eq_of_lt (leAt_lt _ _ 4))

/-- An entry staged and the command ended. -/
theorem winStage_winDone_spec (m : Mach) (v : Via) (x : WinEntry) :
    let y := (m.winStage v x).winDone v
    (∀ i, i < 8 → y.getV v F.WIN_ENTRY i = leAt (winBytes x) (4 * i) 4) ∧ y.getV v F.WIN_CMD_STATUS_DONE = 1 ∧ y.getV v F.WIN_CMD_STATUS_REFUSED = 0 ∧
      InRegs (winCmdKey v) m y := by
  obtain ⟨hstage, hin⟩ := m.winStage_spec v x
  obtain ⟨hdone, hrefused, hin'⟩ := (m.winStage v x).winDone_spec v
  refine ⟨fun i hi => (getV_congr (hin'.regs _ ?_)).trans (hstage i hi), hdone, hrefused, (hin.mono fun _ => .inr).trans (hin'.mono fun _ => .inl)⟩
  rw [viaKey_entry v hi]
  omega

/-! ## Use of windows (14_herds.md R352) -/

/-- Room for one window more keeps the use within its field. -/
theorem used_lt_of_roomFor {m : Mach} {h : Nat} (hr : m.roomFor h resWindows 1 = true) : m.used h resWindows + 1 < 2 ^ 21 := by
  unfold roomFor at hr
  split at hr <;> rename_i h0
  · have hle := of_decide_eq_true hr
    have hpool : m.pool resWindows = 1048320 := rfl
    rw [hpool] at hle
    rw [h0]
    omega
  · have hle := of_decide_eq_true hr
    have hlt : m.granted h resWindows < 2 ^ 21 := getBits_lt _ _ _
    omega

theorem winUse_not_xltKey (h : Nat) : ¬ xltKey (F.QE_HERD_USE.addr + 4 * resWindows.word + regSpan * h) := by
  have hmod : (F.QE_HERD_USE.addr + 4 * resWindows.word + regSpan * h) % regSpan = 0x00401038 := Nat.add_mul_mod_self_left _ _ _
  rintro (⟨-, hflt⟩ | hmem)
  · rw [hmod] at hflt
    exact absurd hflt (by decide)
  · have hall : ∀ j ∈ [keyOf F.XLT_HIT, keyOf F.XLT_MISS, keyOf F.XLT_FAULT_INFO_VALID, keyOf F.XLT_FAULT_ADDR_LO, keyOf F.XLT_FAULT_ADDR_LO + 4, keyOf F.PEAT_UNCORR],
        j % regSpan ≠ 0x00401038 := by decide
    exact hall _ hmem hmod

theorem winUse_not_winKey (h : Nat) : ¬ winKey (F.QE_HERD_USE.addr + 4 * resWindows.word + regSpan * h) := by
  have hmod : (F.QE_HERD_USE.addr + 4 * resWindows.word + regSpan * h) % 0x10000 = 0x1038 := by
    simp only [resWindows, regSpan]
    omega
  rw [winKey, hmod]
  decide

theorem winUse_offTable (h : Nat) : offTable (F.QE_HERD_USE.addr + 4 * resWindows.word + regSpan * h) := by
  have hmod : (F.QE_HERD_USE.addr + 4 * resWindows.word + regSpan * h) % 0x10000 = 0x1038 := by
    simp only [resWindows, regSpan]
    omega
  exact offTable_of_mod (by omega) (by omega)

theorem pinCounts_inRegs (m : Mach) : InRegs winKey m m.pinCounts := ((InRegs.refl _ m).set (by decide)).set (by decide)

theorem closingCount_inRegs (m : Mach) : InRegs winKey m m.closingCount := (InRegs.refl _ m).set (by decide)

end Mach
end Sys2Proof.Machine
end


section
/-! SUPPORT. OPEN, CLOSE and READ of windows as commands (06_translation_windows.md R169 to R171, R176; 14_herds.md R358). -/
namespace Sys2Proof.Machine

/-! ## OPEN (R169, R170) -/

namespace Mach

theorem setWin_xlt (m : Mach) (w : Nat) (x : WinEntry) : (m.setWin w x).xlt = m.xlt := rfl

/-- Pins the leaves of a scheduled window. -/
def pinOpened (m : Mach) (w : Nat) (x : WinEntry) (l : List XltEntry) : Mach := if x.sched then m.putXlt { m.xlt with pins := alPut m.xlt.pins w l } else m

/-- A window opened: its entry written, counted against its owner and staged. -/
def opened (m : Mach) (v : Via) (w : Nat) (x y : WinEntry) : Mach := (((m.setWin w y).pinCounts.take x.ownerHerd resWindows 1).winStage v y).winDone v

/-- OPEN of a FREE window whose staged entry passes every check. -/
theorem winOpen_ok {m m' : Mach} {v : Via} {w : Nat} {x : WinEntry} {l : List XltEntry} (hw : w < doorbellBase) (hx : x = m.winStaged v)
    (hfree : (m.win w).state = 0) (hver : x.version = 1) (halign : x.base % 4096 = 0) (hpos : 0 < x.limit) (hlimit : x.limit ≤ 2 ^ 48) (hend : x.base + x.limit ≤ 2 ^ 57)
    (has : m.asEnabled x.ownerHerd x.ownerAsid = true) (hroom : m.roomFor x.ownerHerd resWindows 1 = true)
    (hl : (if x.sched then m.leavesOf x.ownerHerd x.ownerAsid (if x.w then accWrite else if x.atomic then accAtomic else accRead) (x.limit / 4096 + 2) x.base x.limit
      else (m, some [])) = (m', some l)) (hpins : x.sched = true → m'.pinned + l.length ≤ 16384 ∧ m'.xlt.pins.length < 4096) :
    m.winOpen v w = (m'.pinOpened w x l).opened v w x { x with state := 1, gen := (m.win w).gen, rev := 0 } := by
  have hrange : ¬ (x.base % 4096 ≠ 0 ∨ x.limit = 0 ∨ 2 ^ 48 < x.limit ∨ 2 ^ 57 < x.base + x.limit) := by omega
  subst hx
  unfold winOpen
  extract_lets old x acc pins
  have hp : pins = (m', some l) := hl
  have hfits : ¬ (x.sched = true ∧ (16384 < m'.pinned + l.length ∨ 4096 ≤ m'.xlt.pins.length)) := fun ⟨hs, hover⟩ => by
    obtain ⟨h1, h2⟩ := hpins hs
    omega
  rw [if_neg (Nat.not_le.2 hw), if_neg (not_not.2 hfree), if_neg (not_not.2 hver), if_neg hrange, if_neg (by simp [x, has]), if_neg (by simp [x, hroom]), hp]
  exact if_neg hfits

theorem pinOpened_regs (m : Mach) (w : Nat) (x : WinEntry) (l : List XltEntry) : Beside m (m.pinOpened w x l) ∧ (m.pinOpened w x l).regs = m.regs := by
  unfold pinOpened
  split
  · exact ⟨.of_regs rfl rfl rfl rfl rfl rfl, rfl⟩
  · exact ⟨.refl m, rfl⟩

theorem pinOpened_pins {m : Mach} {w : Nat} {x : WinEntry} {l : List XltEntry} (h : x.sched = true) : alGet (m.pinOpened w x l).xlt.pins w = some l := by
  rw [pinOpened, if_pos h]
  exact alGet_alPut_same _ _ _

/-- What an opened window shows. -/
theorem opened_spec (m : Mach) (v : Via) (w : Nat) (x y : WinEntry) (hu : m.used x.ownerHerd resWindows + 1 < 2 ^ 21) :
    let z := m.opened v w x y
    z.getV v F.WIN_CMD_STATUS_DONE = 1 ∧ z.getV v F.WIN_CMD_STATUS_REFUSED = 0 ∧ z.used x.ownerHerd resWindows = m.used x.ownerHerd resWindows + 1 ∧
      InRegs offTable (m.setWin w y) z := by
  set a := (m.setWin w y).pinCounts
  set b := a.take x.ownerHerd resWindows 1
  have ha : InRegs winKey (m.setWin w y) a := pinCounts_inRegs _
  have hb : InRegs offTable a b := (InRegs.refl _ a).setReg _ (winUse_offTable x.ownerHerd)
  obtain ⟨-, hdone, hrefused, hin⟩ := b.winStage_winDone_spec v y
  have hwin := hin.mono fun _ => winKey_of_cmd
  refine ⟨hdone, hrefused, ?_, ((ha.mono fun _ => offTable_of_winKey).trans hb).trans (hwin.mono fun _ => offTable_of_winKey)⟩
  have hold : a.used x.ownerHerd resWindows = m.used x.ownerHerd resWindows := used_congr (by decide) (ha.regs _ (winUse_not_winKey _))
  calc ((b.winStage v y).winDone v).used x.ownerHerd resWindows = b.used x.ownerHerd resWindows := used_congr (by decide) (hwin.regs _ (winUse_not_winKey _))
    _ = (a.used x.ownerHerd resWindows + 1) % 2 ^ 21 := used_setUsed_same _ _ _ (by decide) (by decide)
    _ = m.used x.ownerHerd resWindows + 1 := by rw [hold, Nat.mod_eq_of_lt hu]

theorem winStaged_fits {m : Mach} {v : Via} (h : ∀ g, v.page = some g → g < 256) : (m.winStaged v).Fits := by
  unfold winStaged
  extract_lets x
  have hx : x.Fits := winOf_fits _
  obtain ⟨p, page⟩ := v
  cases page with
  | none => exact hx
  | some g => exact { hx with ownerHerd := h g rfl }

end Mach

theorem Walked.beside {x y : Mach} (h : Walked x y) : Beside x y := by
  refine ⟨h.only.wr, h.base, h.only.variant, h.only.downs, h.only.tileDowns, fun k hk => h.regs k fun hx => hk ⟨?_, ?_⟩⟩
  · rintro rfl
    exact absurd hx (by decide)
  · rintro rfl
    exact absurd hx (by decide)

theorem winCmd_open {m : Mach} {v : Via} (h : m.Admits v F.WIN_CMD_OP.addr) {w : Nat} (hw : w < 2 ^ 20) : m.winCmd v 1 (w % 2 ^ 20) = m.winOpen v w := by
  rw [Mach.winCmd, Mach.gate_of_admits h, Nat.mod_eq_of_lt hw, if_neg (by simp), if_pos rfl]

theorem winCmd_close {m : Mach} {v : Via} {w : Nat} (h : m.Admits v F.WIN_CMD_OP.addr) (hw : w < 2 ^ 20) (hr : m.winReach v w = true) :
    m.winCmd v 2 (w % 2 ^ 20) = if (m.win w).state = 1 then m.closeWin w (some v) v.page.isNone else m.winRefused v 2 := by
  rw [Mach.winCmd, Mach.gate_of_admits h, Nat.mod_eq_of_lt hw, if_neg (by simp [hr]), if_neg (by decide), if_pos rfl]

theorem winCmd_read {m : Mach} {v : Via} {w : Nat} (h : m.Admits v F.WIN_CMD_OP.addr) (hw : w < 2 ^ 20) (hr : m.winReach v w = true) :
    m.winCmd v 3 (w % 2 ^ 20) = (m.winStage v (m.win w)).winDone v := by
  rw [Mach.winCmd, Mach.gate_of_admits h, Nat.mod_eq_of_lt hw, if_neg (by simp [hr]), if_neg (by decide), if_neg (by decide)]

theorem lt_of_lt_doorbellBase {w : Nat} (h : w < doorbellBase) : w < 2 ^ 20 := h.trans (by decide)

/-- OPEN of a FREE window. -/
theorem runs_windowOpen {s : State} {v : Via} {w : Nat} {x : WinEntry} {m' : Mach} {l : List XltEntry} (hi : s.m.Inv) (ha : s.m.Admits v F.WIN_CMD_OP.addr)
    (hw : w < doorbellBase) (hx : x = s.m.winStaged v) (hpage : ∀ h, v.page = some h → h < 256) (hfree : (s.m.win w).state = 0) (hver : x.version = 1)
    (halign : x.base % 4096 = 0) (hpos : 0 < x.limit) (hlimit : x.limit ≤ 2 ^ 48) (hend : x.base + x.limit ≤ 2 ^ 57)
    (has : s.m.asEnabled x.ownerHerd x.ownerAsid = true) (hroom : s.m.roomFor x.ownerHerd resWindows 1 = true)
    (hl : (if x.sched then s.m.leavesOf x.ownerHerd x.ownerAsid (if x.w then accWrite else if x.atomic then accAtomic else accRead) (x.limit / 4096 + 2) x.base x.limit
      else (s.m, some [])) = (m', some l)) (hpins : x.sched = true → s.m.pinned + l.length ≤ 16384 ∧ s.m.xlt.pins.length < 4096) :
    Runs (.windowOpen v w) s fun n =>
      n.win w = { x with state := 1, gen := (s.m.win w).gen, rev := 0 } ∧ n.getV v F.WIN_CMD_STATUS_DONE = 1 ∧ n.getV v F.WIN_CMD_STATUS_REFUSED = 0 ∧
      n.used x.ownerHerd resWindows = s.m.used x.ownerHerd resWindows + 1 ∧ (x.sched = true → alGet n.xlt.pins w = some l) ∧ StoresBut .peat (s.m.winAddr w) 32 s.m n := by
  have hwalk : Walked s.m m' := by
    split at hl
    · exact Mach.leavesOf_to hl
    · cases hl
      exact .refl _
  have hpinned : m'.pinned = s.m.pinned := by rw [Mach.pinned, hwalk.pins, Mach.pinned]
  have hxfits : x.Fits := hx ▸ Mach.winStaged_fits hpage
  set e : WinEntry := { x with state := 1, gen := (s.m.win w).gen, rev := 0 }
  have he : e.Fits := { hxfits with state := (by decide : 1 < 4), gen := (s.m.win_fits w).gen, rev := Nat.two_pow_pos 64 }
  set y := m'.pinOpened w x l
  obtain ⟨hpin, hregs⟩ := m'.pinOpened_regs w x l
  have hused : y.used x.ownerHerd resWindows = s.m.used x.ownerHerd resWindows := by
    refine Mach.used_congr (by decide) (Eq.trans ?_ (hwalk.regs _ (Mach.winUse_not_xltKey _)))
    rw [Mach.reg, Mach.reg, hregs, hpin.variant]
  obtain ⟨hdone, hrefused, hcount, hin⟩ := y.opened_spec v w x e (hused ▸ Mach.used_lt_of_roomFor hroom)
  have hopen : s.m.winCmd v 1 (w % 2 ^ 20) = y.opened v w x e := (winCmd_open ha (lt_of_lt_doorbellBase hw)).trans
    (Mach.winOpen_ok hw hx hfree hver halign hpos hlimit hend has hroom hl fun hs => by rw [hpinned, hwalk.pins]; exact hpins hs)
  refine runs_of_entry (f := fun m => m.winCmd v 1 (w % 2 ^ 20)) rfl hi hopen (hwalk.beside.trans hpin) he (.of_inRegs hin) fun hwin hst hreg => ⟨hwin, ?_, ?_, ?_, fun hs => ?_, hst⟩
  · exact (Mach.getV_congr (hreg _)).trans hdone
  · exact (Mach.getV_congr (hreg _)).trans hrefused
  · exact (Mach.used_congr (by decide) (hreg _)).trans (hcount.trans (by rw [hused]))
  · rw [settle_xlt, hin.xlt, Mach.setWin_xlt]
    exact Mach.pinOpened_pins hs

/-- A refused command on a window changes its status alone. -/
theorem runs_winRefused {c : Instr} {s : State} {v : Via} {r w : Nat} {f : Mach → Mach} (hc : Sys2Proof.Machine.exec c s = commit s f) (hi : s.m.Inv)
    (hx : f s.m = s.m.winRefused v r) :
    Runs c s fun n =>
      n.getV v F.WIN_CMD_STATUS_REFUSED = 1 ∧ n.getV v F.WIN_CMD_STATUS_REASON = r % 256 ∧ n.win w = s.m.win w ∧
      Frame (fun k => k = viaKey v F.WIN_CMD_STATUS_DONE) s.m n := by
  obtain ⟨hrefused, hreason, hin⟩ := s.m.winRefused_spec v r
  have hoff : InRegs offTable s.m (s.m.winRefused v r) := hin.mono fun k hk => offTable_of_winKey (winKey_of_cmd (.inl hk))
  exact runs_of_beside hc hi hx (.of_inRegs hoff) hin.regs fun hwin hframe hreg =>
    ⟨(Mach.getV_congr (hreg _)).trans hrefused, (Mach.getV_congr (hreg _)).trans hreason, hwin w, hframe⟩

/-- OPEN of a window that is not FREE. -/
theorem runs_windowOpen_taken {s : State} {v : Via} {w : Nat} (hi : s.m.Inv) (ha : s.m.Admits v F.WIN_CMD_OP.addr) (hw : w < doorbellBase) (hs : (s.m.win w).state ≠ 0) :
    Runs (.windowOpen v w) s fun n =>
      n.getV v F.WIN_CMD_STATUS_REFUSED = 1 ∧ n.getV v F.WIN_CMD_STATUS_REASON = 1 ∧ n.win w = s.m.win w ∧
      Frame (fun k => k = viaKey v F.WIN_CMD_STATUS_DONE) s.m n := by
  refine runs_winRefused (r := 1) (f := fun m => m.winCmd v 1 (w % 2 ^ 20)) rfl hi ((winCmd_open ha (lt_of_lt_doorbellBase hw)).trans ?_)
  rw [Mach.winOpen]
  exact (if_neg (Nat.not_le.2 hw)).trans (if_pos hs)

/-! ## CLOSE and READ (R171, R176) -/

/-- CLOSE of an OPEN window. -/
theorem runs_windowClose {s : State} {v : Via} {w : Nat} (hi : s.m.Inv) (ha : s.m.Admits v F.WIN_CMD_OP.addr) (hw : w < 2 ^ 20) (hr : s.m.winReach v w = true)
    (hs : (s.m.win w).state = 1) :
    Runs (.windowClose v w) s fun n =>
      n.win w = { s.m.win w with state := 2, rev := s.m.get64 F.WIN_ARRIVAL_LO } ∧
      n.winCloses = s.m.winCloses ++ [{ window := w, since := s.m.now, via := some v, steward := v.page.isNone }] ∧ StoresBut .peat (s.m.winAddr w) 32 s.m n ∧
      RegsBut (fun k => k = keyOf F.WIN_STATUS_CLOSING) s.m n := by
  set e : WinEntry := { s.m.win w with state := 2, rev := s.m.get64 F.WIN_ARRIVAL_LO }
  have he : e.Fits := { s.m.win_fits w with state := (by decide : 2 < 4), rev := s.m.get64_lt _ _ _ }
  have hx : s.m.winCmd v 2 (w % 2 ^ 20) = s.m.closeWin w (some v) v.page.isNone := (winCmd_close ha hw hr).trans (if_pos hs)
  have hb : Beside (s.m.setWin w e) (s.m.closeWin w (some v) v.page.isNone) := by
    set y := (s.m.setWin w e).putWinCloses (s.m.winCloses ++ [{ window := w, since := s.m.now, via := some v, steward := v.page.isNone }])
    have hy : Beside (s.m.setWin w e) y := .of_regs rfl rfl rfl rfl rfl rfl
    exact hy.trans (.of_inRegs (y.closingCount_inRegs.mono fun _ => offTable_of_winKey))
  have hregs : RegsBut (fun k => k = keyOf F.WIN_STATUS_CLOSING) s.m (s.m.closeWin w (some v) v.page.isNone) := (RegsBut.refl _ s.m).setReg _ rfl
  exact runs_of_entry (f := fun m => m.winCmd v 2 (w % 2 ^ 20)) rfl hi hx (.refl _) he hb fun hwin hst hreg => ⟨hwin, rfl, hst, fun k hk => (hreg k).trans (hregs k hk)⟩

/-- CLOSE of a window that is not OPEN. -/
theorem runs_windowClose_refused {s : State} {v : Via} {w : Nat} (hi : s.m.Inv) (ha : s.m.Admits v F.WIN_CMD_OP.addr) (hw : w < 2 ^ 20) (hr : s.m.winReach v w = true)
    (hs : (s.m.win w).state ≠ 1) :
    Runs (.windowClose v w) s fun n =>
      n.getV v F.WIN_CMD_STATUS_REFUSED = 1 ∧ n.getV v F.WIN_CMD_STATUS_REASON = 2 ∧ n.win w = s.m.win w ∧ Frame (fun k => k = viaKey v F.WIN_CMD_STATUS_DONE) s.m n :=
  runs_winRefused (r := 2) (f := fun m => m.winCmd v 2 (w % 2 ^ 20)) rfl hi ((winCmd_close ha hw hr).trans (if_neg hs))

/-- READ of a window. -/
theorem runs_windowRead {s : State} {v : Via} {w : Nat} (hi : s.m.Inv) (ha : s.m.Admits v F.WIN_CMD_OP.addr) (hw : w < 2 ^ 20) (hr : s.m.winReach v w = true) :
    Runs (.windowRead v w) s fun n =>
      (∀ i, i < 8 → n.getV v F.WIN_ENTRY i = leAt (winBytes (s.m.win w)) (4 * i) 4) ∧ n.getV v F.WIN_CMD_STATUS_DONE = 1 ∧ Frame (winCmdKey v) s.m n := by
  obtain ⟨hstaged, hdone, -, hin⟩ := s.m.winStage_winDone_spec v (s.m.win w)
  exact runs_of_onlyRegs (f := fun m => m.winCmd v 3 (w % 2 ^ 20)) rfl hi (winCmd_read ha hw hr) hin.only fun hframe hreg =>
    ⟨fun i hi => (Mach.getV_congr (hreg _)).trans (hstaged i hi), (Mach.getV_congr (hreg _)).trans hdone, hframe⟩

end Sys2Proof.Machine
end


section
/-! SUPPORT and proof of O20: how a close completes (06_translation_windows.md R172; 04_lodes_ordering.md R106; 11_best_effort_transport.md R297). -/
namespace Sys2Proof.Machine

/-! ## Messages that fail with their window (R172) -/

/-- `y` comes after `x` with every window and every close under way as they were. -/
structure WinKept (x y : Mach) : Prop where
  beside : Beside x y
  closes : y.winCloses = x.winCloses

namespace WinKept

variable {x y z : Mach}

theorem refl (x : Mach) : WinKept x x := ⟨.refl x, rfl⟩

theorem trans (h : WinKept x y) (g : WinKept y z) : WinKept x z := ⟨h.beside.trans g.beside, g.closes.trans h.closes⟩

theorem ite {c : Prop} [Decidable c] (h : WinKept x y) (g : WinKept x z) : WinKept x (if c then y else z) := by
  split <;> assumption

theorem foldl {α : Type} {g : Mach → α → Mach} {l : List α} (h : ∀ z a, WinKept z (g z a)) (x : Mach) : WinKept x (l.foldl g x) :=
  List.foldlRecOn (motive := WinKept x) l g (.refl x) fun z hz a _ => hz.trans (h z a)

theorem setLrx (x : Mach) (l : Nat) (r : LodeRx) : WinKept x (x.setLrx l r) := ⟨.of_regs rfl rfl rfl rfl rfl rfl, rfl⟩

theorem setQp (x : Mach) (q : Nat) (r : Qp) : WinKept x (x.setQp q r) := ⟨.of_regs rfl rfl rfl rfl rfl rfl, rfl⟩

theorem raise (x : Mach) (code source herd : Nat) (dest : List Nat) (a b : Nat) : WinKept x (x.raise code source herd dest a b) :=
  ⟨.of_regs rfl rfl rfl rfl rfl rfl, rfl⟩

theorem countRefused (x : Mach) : WinKept x (x.inc F.SLU_LODE_REFUSED) := ⟨(Beside.refl x).set (by decide), rfl⟩

/-- A message of a lode fails (04_lodes_ordering.md R106). -/
theorem rxFail (x : Mach) (l : Nat) (rec : LodeIn) (first status seq : Nat) : WinKept x (x.rxFail l rec first status seq) := by
  unfold Mach.rxFail
  extract_lets r g y g' r' r''
  have hy : WinKept x y := .ite (.refl x) (countRefused x)
  split
  · exact hy.trans (setLrx y l _)
  · exact (hy.trans (setLrx y l _)).trans (raise _ _ _ _ _ _ _)

/-- A lode moves past resolved messages. -/
theorem rxAdvance (x : Mach) (l fuel : Nat) : WinKept x (x.rxAdvance l fuel) := by
  induction fuel generalizing x with
  | zero => exact .refl x
  | succ n ih =>
    have hstep : ∀ r : LodeRx, WinKept x ((x.setLrx l r).rxAdvance l n) := fun r => (setLrx x l r).trans (ih _)
    rw [Mach.rxAdvance]
    dsimp only
    split
    · exact .refl x
    · split
      · split
        · exact hstep _
        · exact .ite (hstep _) (.refl x)
      · exact .ite (hstep _) (.refl x)

theorem qpReply (x : Mach) (q : Nat) (k : QpPacket) : WinKept x (x.qpReply q k) := setQp x q _

/-- A message of a queue pair is refused (11_best_effort_transport.md R297). -/
theorem rxDeny (x : Mach) (q : Nat) (g : QpIn) (psn status : Nat) : WinKept x (x.rxDeny q g psn status) := by
  have hack : ∀ (z : Mach) (msn : Nat), WinKept z (z.qpAck q msn status) := fun z msn => (setQp z q _).trans (qpReply _ q _)
  have hdeny : ∀ (z : Mach) (msn : Nat), WinKept z (z.qpDeny q msn psn status) := fun z msn => .ite (hack z msn) (qpReply z q _)
  exact (setQp x q _).trans (hdeny _ _)

end WinKept

/-! ## The window is FREE (R172) -/

/-- An entry as the end of its window's close leaves it. -/
def freedEntry (x : WinEntry) : WinEntry := { x with state := 0, gen := (x.gen + 1) % 65536 }

theorem freedEntry_fits {x : WinEntry} (h : x.Fits) : (freedEntry x).Fits := { h with state := (by decide : 0 < 4), gen := Nat.mod_lt _ (by decide) }

namespace Mach

theorem winUsed_lt (m : Mach) (h : Nat) : m.used h resWindows < 2 ^ 21 := by
  rw [used, if_neg fun hc => absurd hc.2 (by decide)]
  exact getBits_lt _ _ _

theorem offTable_of_addr {f : Fld} {i e : Nat} (h : (f.addr + f.step * i) % 0x10000 ≠ 0) (g : (f.addr + f.step * i) % 0x10000 ≠ 4) : offTable (keyOf f i e) := by
  have hmod : keyOf f i e % 0x10000 = (f.addr + f.step * i) % 0x10000 := by
    simp only [keyOf, fkey, regKey, regSpan]
    omega
  exact offTable_of_mod (hmod ▸ h) (hmod ▸ g)

theorem setGranted_inRegs (m : Mach) (h : Nat) {r : Res} (n : Nat) (hr : r.word < 8) : InRegs offTable m (m.setGranted h r n) := by
  have hmod : (herdPage h + 0x9010 + r.word * 4) % 0x10000 = 0x9010 + r.word * 4 := by
    simp only [herdPage]
    omega
  exact (InRegs.refl _ m).setReg _ (offTable_of_mod (by omega) (by omega))

/-- The doorbell window of a herd is FREE: its generation shows, and a herd under destruction becomes FREE (14_herds.md R355, R362). -/
def herdFreed (m : Mach) (gen h : Nat) : Mach :=
  let a := m.set F.QE_HERD_STATUS_DB_GEN gen 0 h
  let b := allRes.foldl (fun m r => m.setGranted h r 0) a
  let k := if b.bit F.QE_HERD_STATUS_PRIV 0 h then b.set F.QE_PRIV_COUNT (b.get F.QE_PRIV_COUNT - 1) else b
  let l := (k.set F.QE_HERD_STATUS_PRIV 0 0 h).set F.QE_HERD_STATUS_STATE 0 0 h
  if a.get F.QE_HERD_STATUS_STATE 0 h = 4 then (l.set F.QE_HERD_CMD_STATUS_BUSY 0).cmdDone F.QE_HERD_CMD_STATUS_DONE F.QE_HERD_CMD_STATUS_REFUSED else a

theorem herdFreed_inRegs (m : Mach) (gen h : Nat) : InRegs offTable m (m.herdFreed gen h) := by
  unfold herdFreed
  extract_lets a b k l
  have ha : InRegs offTable m a := (InRegs.refl _ m).set (offTable_of_addr (by decide) (by decide))
  have hwords : ∀ r ∈ allRes, r.word < 8 := by decide
  have hb : InRegs offTable a b := .foldl (fun z r hr => z.setGranted_inRegs h 0 (hwords r hr)) a
  have hk : InRegs offTable b k := .ite ((InRegs.refl _ b).set (offTable_of_addr (by decide) (by decide))) (.refl _ b)
  have hl : InRegs offTable k l := ((InRegs.refl _ k).set (offTable_of_addr (by decide) (by decide))).set (offTable_of_addr (by decide) (by decide))
  have hend : InRegs offTable l ((l.set F.QE_HERD_CMD_STATUS_BUSY 0).cmdDone F.QE_HERD_CMD_STATUS_DONE F.QE_HERD_CMD_STATUS_REFUSED) :=
    (((InRegs.refl _ l).set (offTable_of_addr (by decide) (by decide))).set (offTable_of_addr (by decide) (by decide))).set (offTable_of_addr (by decide) (by decide))
  exact .ite ((((ha.trans hb).trans hk).trans hl).trans hend) ha

/-- What the end of a close changes. -/
theorem winFreed_spec (m : Mach) (c : WinClose) :
    let x := m.winFreed c
    Beside (m.setWin c.window (freedEntry (m.win c.window))) x ∧ x.winCloses = m.winCloses.filter (fun y => y.window != c.window) ∧
      (c.window < doorbellBase → x.used (m.win c.window).ownerHerd resWindows = m.used (m.win c.window).ownerHerd resWindows - 1) ∧
      ∃ e ∈ x.evq, e.code = 0x0500 ∧ e.dest = (m.win c.window).ownerHerd ∧ e.info0 = BitVec.ofNat 64 c.window ∧
        e.info1 = BitVec.ofNat 64 (((m.win c.window).gen + 1) % 65536) := by
  unfold winFreed
  extract_lets w e gen y xl p d g r q h a b k l x
  have hp : Beside y p := .of_regs rfl rfl rfl rfl rfl rfl
  have hd : InRegs winKey p d := (pinCounts_inRegs p).trans (closingCount_inRegs _)
  have hg : InRegs winKey d g := by
    simp only [g]
    split
    · exact (InRegs.refl _ d).setV (winKey_status _)
    · exact .refl _ d
  have hr : InRegs offTable g r := .ite (.refl _ g) ((InRegs.refl _ g).setReg _ (winUse_offTable _))
  have hx : InRegs offTable q x := .ite (q.herdFreed_inRegs gen h) (.refl _ q)
  have hdg : InRegs winKey p g := hd.trans hg
  have hpr : InRegs offTable p r := (hdg.mono fun _ => offTable_of_winKey).trans hr
  refine ⟨((hp.trans (.of_inRegs hpr)).trans (WinKept.raise r _ _ _ _ _ _).beside).trans (.of_inRegs hx), ?_, fun hlt => ?_, ?_⟩
  · rw [hx.winCloses, raise_winCloses, hpr.winCloses]
    rfl
  · have hxq : x = q := if_neg (Nat.not_le.2 hlt)
    have hgive : r = g.giveBack e.ownerHerd resWindows 1 := if_neg (Nat.not_le.2 hlt)
    have hold : g.used e.ownerHerd resWindows = m.used e.ownerHerd resWindows := used_congr (by decide) (hdg.regs _ (winUse_not_winKey _))
    have hlow := m.winUsed_lt e.ownerHerd
    calc x.used e.ownerHerd resWindows = r.used e.ownerHerd resWindows := by rw [hxq]; exact used_congr (by decide) rfl
      _ = (g.used e.ownerHerd resWindows - 1) % 2 ^ 21 := by rw [hgive]; exact used_setUsed_same _ _ _ (by decide) (by decide)
      _ = m.used e.ownerHerd resWindows - 1 := by rw [hold, Nat.mod_eq_of_lt (by omega)]
  · rw [hx.evq]
    exact ⟨_, mem_evq_raise r _ _ _ _ _ (List.mem_append_left _ (List.mem_singleton_self _)), rfl, rfl, rfl, rfl⟩

end Mach

/-! ## The commands -/

/-- What the end of a close does, after messages of its window may have failed. -/
theorem runs_winFreed {i : Instr} {s : State} {m' : Mach} {c : WinClose} {f : Mach → Mach} (hc : Sys2Proof.Machine.exec i s = commit s f) (hi : s.m.Inv)
    (hx : f s.m = m'.winFreed c) (hm : WinKept s.m m') :
    Runs i s fun n =>
      n.win c.window = freedEntry (s.m.win c.window) ∧ n.winCloses = s.m.winCloses.filter (fun y => y.window != c.window) ∧
      (c.window < doorbellBase → n.used (s.m.win c.window).ownerHerd resWindows = m'.used (s.m.win c.window).ownerHerd resWindows - 1) ∧
      (∃ e ∈ n.evq, e.code = 0x0500 ∧ e.dest = (s.m.win c.window).ownerHerd ∧ e.info0 = BitVec.ofNat 64 c.window ∧
        e.info1 = BitVec.ofNat 64 (((s.m.win c.window).gen + 1) % 65536)) ∧
      StoresBut .peat (s.m.winAddr c.window) 32 s.m n := by
  obtain ⟨hb, hcloses, hused, hevent⟩ := m'.winFreed_spec c
  rw [hm.beside.win] at hb hused hevent
  rw [hm.closes] at hcloses
  exact runs_of_entry hc hi hx hm.beside (freedEntry_fits (s.m.win_fits _)) hb fun hwin hst hreg =>
    ⟨hwin, hcloses, fun hlt => (Mach.used_congr (by decide) (hreg _)).trans (hused hlt), hevent, hst⟩

theorem window_of_find {l : List WinClose} {w : Nat} {c : WinClose} (h : l.find? (fun c => c.window == w) = some c) : c.window = w :=
  beq_iff_eq.1 (List.find?_some (p := fun c : WinClose => c.window == w) h)

theorem runs_imp {i : Instr} {s : State} {P Q : Mach → Prop} (h : Runs i s P) (hPQ : ∀ n, P n → Q n) : Runs i s Q := by
  obtain ⟨t, ht, hpending, hP⟩ := h
  exact ⟨t, ht, hpending, hPQ _ hP⟩

theorem advance_winKept (m : Mach) (t : Nat) : WinKept m (m.advance t) := ⟨.of_regs rfl rfl rfl rfl rfl rfl, rfl⟩

/-- A close whose messages are all resolved completes. -/
theorem runs_windowCloseComplete {s : State} {t w : Nat} {c : WinClose} (hi : s.m.Inv) (hc : s.m.winCloses.find? (fun c => c.window == w) = some c)
    (hfree : s.m.winWaits w = false) :
    Runs (.windowCloseComplete t w) s fun n =>
      n.win w = { s.m.win w with state := 0, gen := ((s.m.win w).gen + 1) % 65536 } ∧ n.winCloses = s.m.winCloses.filter (fun y => y.window != w) ∧
      (w < doorbellBase → n.used (s.m.win w).ownerHerd resWindows = s.m.used (s.m.win w).ownerHerd resWindows - 1) ∧
      (∃ e ∈ n.evq, e.code = 0x0500 ∧ e.dest = (s.m.win w).ownerHerd ∧ e.info0 = BitVec.ofNat 64 w ∧ e.info1 = BitVec.ofNat 64 (((s.m.win w).gen + 1) % 65536)) ∧
      StoresBut .peat (s.m.winAddr w) 32 s.m n := by
  obtain rfl := window_of_find hc
  have hx : (s.m.advance t).winCloseComplete c.window = (s.m.advance t).winFreed c := by
    have hfree' : (s.m.advance t).winWaits c.window = false := hfree
    have hc' : (s.m.advance t).winCloses.find? (fun y => y.window == c.window) = some c := hc
    rw [Mach.winCloseComplete, hc']
    exact if_neg (by simp [hfree'])
  exact runs_winFreed (m' := s.m.advance t) (f := fun m => (m.advance t).winCloseComplete c.window) rfl hi hx (advance_winKept s.m t)

/-- A close waits while a message admitted before it is unresolved. -/
theorem runs_windowCloseComplete_waits {s : State} {t w : Nat} {c : WinClose} (hi : s.m.Inv) (hc : s.m.winCloses.find? (fun c => c.window == w) = some c)
    (hwait : s.m.winWaits w = true) :
    Runs (.windowCloseComplete t w) s fun n => n.win w = s.m.win w ∧ n.winCloses = s.m.winCloses ∧ Frame (fun _ => False) s.m n := by
  have hx : (s.m.advance t).winCloseComplete w = s.m.advance t := by
    have hc' : (s.m.advance t).winCloses.find? (fun y => y.window == w) = some c := hc
    rw [Mach.winCloseComplete, hc']
    exact if_pos hwait
  exact runs_of_beside (f := fun m => (m.advance t).winCloseComplete w) rfl hi hx (advance_winKept _ t).beside (fun _ _ => rfl) fun hwin hframe _ => ⟨hwin w, rfl, hframe⟩

/-- Once the lease period is over, what is left of the window's messages fails and the close completes. -/
theorem winCloseTimeout_due {m : Mach} {w : Nat} {c : WinClose} (hc : m.winCloses.find? (fun c => c.window == w) = some c) (hdue : c.since + m.leaseAt c.since ≤ m.now) :
    ∃ m', WinKept m m' ∧ m.winCloseTimeout w = m'.winFreed c := by
  rw [Mach.winCloseTimeout, hc]
  dsimp only
  rw [if_neg (Nat.not_lt.2 hdue)]
  refine ⟨_, WinKept.trans (.foldl (fun z x => ?_) m) (.foldl (fun z x => .foldl (fun y g => .rxDeny y _ g _ _) z) _), rfl⟩
  split
  · exact .refl z
  · exact .foldl (fun y g => (WinKept.rxFail y _ _ _ _ _).trans (.rxAdvance _ _ _)) z

/-- A close completes a lease period after its CLOSE at the latest. -/
theorem runs_windowCloseTimeout {s : State} {t w : Nat} {c : WinClose} (hi : s.m.Inv) (hc : s.m.winCloses.find? (fun c => c.window == w) = some c)
    (hdue : c.since + s.m.leaseAt c.since ≤ (s.m.advance t).now) :
    Runs (.windowCloseTimeout t w) s fun n =>
      n.win w = { s.m.win w with state := 0, gen := ((s.m.win w).gen + 1) % 65536 } ∧ n.winCloses = s.m.winCloses.filter (fun y => y.window != w) ∧
      (∃ e ∈ n.evq, e.code = 0x0500 ∧ e.dest = (s.m.win w).ownerHerd ∧ e.info0 = BitVec.ofNat 64 w) ∧ StoresBut .peat (s.m.winAddr w) 32 s.m n := by
  obtain rfl := window_of_find hc
  obtain ⟨m', hm, hx⟩ := winCloseTimeout_due (m := s.m.advance t) hc hdue
  refine runs_imp (runs_winFreed (f := fun m => (m.advance t).winCloseTimeout c.window) rfl hi hx ((advance_winKept s.m t).trans hm)) fun n hn => ?_
  obtain ⟨hwin, hcloses, -, ⟨e, he, hcode, hdest, hinfo, -⟩, hst⟩ := hn
  exact ⟨hwin, hcloses, ⟨e, he, hcode, hdest, hinfo⟩, hst⟩

/-- Settles O20: every command by the entry that it leaves in the window table, beside changes that miss the table. -/
theorem windows : Obligations.Windows := by
  unfold Obligations.Windows
  refine ⟨fun s v w x m' l hi ha hw hx hpage hfree hver halign hpos hlimit hend has hroom hl hpins => ?_, fun s v w hi ha hw hs => runs_windowOpen_taken hi ha hw hs,
    fun s v w hi ha hw hr => ⟨fun hs => runs_windowClose hi ha hw hr hs, fun hs => ?_, runs_windowRead hi ha hw hr⟩,
    fun s t w c hi hc => ⟨fun hfree => runs_windowCloseComplete hi hc hfree, fun hwait => runs_windowCloseComplete_waits hi hc hwait,
      fun hdue => runs_windowCloseTimeout hi hc hdue⟩⟩
  · exact runs_windowOpen hi ha hw hx hpage hfree hver halign hpos hlimit hend has hroom hl hpins
  · exact runs_imp (runs_windowClose_refused hi ha hw hr hs) fun n ⟨hrefused, hreason, hwin, _⟩ => ⟨hrefused, hreason, hwin⟩

end Sys2Proof.Machine
end


section
/-! SUPPORT. What a fault event of a tile or of its SRAM does: it is counted, and at most the tile is fenced (16_faults.md R392, R397, R398; 07_churn_arithmetic.md R200). -/
namespace Sys2Proof.Machine

/-! ## Any source: counted, then at most a fence begins (R392, R397) -/

/-- The collector alone changes from `x` to `y`, and no event of source `s` is counted. -/
structure Uncounted (s : Nat) (x y : Mach) : Prop where
  only : FltOnly x y
  kept : FltKept s x y

namespace Uncounted

variable {s : Nat} {x y z : Mach}

theorem refl (s : Nat) (x : Mach) : Uncounted s x x := ⟨.refl x, .refl s x⟩

theorem trans (h : Uncounted s x y) (g : Uncounted s y z) : Uncounted s x z := ⟨h.only.trans g.only, h.kept.trans g.kept⟩

theorem ite {c : Prop} [Decidable c] (h : Uncounted s x y) (g : Uncounted s x z) : Uncounted s x (if c then y else z) := by
  split <;> assumption

/-- A register of the source other than its event count. -/
theorem set (hs : s < 512) (x : Mach) (f : Fld) (v i : Nat)
    (ha : 0x00030000 ≤ f.addr + f.step * i ∧ f.addr + f.step * i < 0x00040000 ∧ f.addr + f.step * i ≠ F.FLT_SRC_EVENTS.addr) : Uncounted s x (x.set f v i s) :=
  ⟨.set _ _ _ _ _ (FltOnly.key _ _ _ ha.1 ha.2.1 hs), .set _ _ _ _ _ (Nat.lt_trans ha.2.1 (by decide)) ha.2.2⟩

theorem raise (x : Mach) (code source herd : Nat) (dest : List Nat) (a b : Nat) : Uncounted s x (x.raise code source herd dest a b) :=
  ⟨.raise _ _ _ _ _ _ _, .raise _ _ _ _ _ _ _⟩

theorem setSrc (x : Mach) (y : FltSrc) : Uncounted s x (x.setSrc s y) := ⟨.setSrc _ _ _, .setSrc _ _ _⟩

theorem srcMove (hs : s < 512) (x : Mach) (v : Nat) : Uncounted s x (x.srcMove s v) := ⟨.srcMove _ _ _ hs, .srcMove _ _ _⟩

theorem setHandling (hs : s < 512) (x : Mach) (h : Handling) : Uncounted s x (x.setHandling s h) := ⟨.setHandling _ _ _ hs, .setHandling _ _ _⟩

/-- The first event after a capture was armed is captured (R402). -/
theorem capture (hs : s < 512) (x : Mach) (r : List Word) :
    Uncounted s x (if x.bit F.FLT_CAP_VALID_VALID 0 s then x
      else (List.range 8).foldl (fun m i => m.set F.FLT_CAP (nthD r i 0).toNat i s) (x.set F.FLT_CAP_VALID_VALID 1 0 s)) := by
  refine ite (refl s x) ((set hs x F.FLT_CAP_VALID_VALID 1 0 (by decide)).trans ?_)
  refine List.foldlRecOn (motive := Uncounted s _) _ _ (refl s _) fun z hz i hi => hz.trans (set hs _ _ _ _ ?_)
  have h8 : i < 8 := List.mem_range.1 hi
  simp only
  omega

end Uncounted

/-- An evaluation begins a fence, or changes the collector alone. -/
theorem evalSource_cases (x : Mach) {s : Nat} (f : Bool) (hs : s < 512) :
    Uncounted s x (x.evalSource s f) ∨ x.evalSource s f = x.fenceStart s false := by
  unfold Mach.evalSource
  extract_lets st sev y
  split
  · exact .inl (.refl s x)
  · split
    · exact .inl (.refl s x)
    · split
      · exact .inl ((Uncounted.setSrc x _).trans ⟨.setFlt _ _, rfl, List.prefix_refl _⟩)
      · split
        · exact .inr rfl
        · exact .inl ⟨.degrade _ _ hs, .degrade _ _⟩

/-- A fault event is counted; then the collector alone changes, or a fence of the source begins. -/
theorem fault_cases (x : Mach) {s : Nat} (k : Nat) (i : FltInfo) (hs : s < 512) :
    ∃ z, FltOnly x z ∧ z.get F.FLT_SRC_EVENTS 0 s = min (x.get F.FLT_SRC_EVENTS 0 s + 1) (2 ^ 32 - 1) ∧
      (x.fault s k i = z ∨ x.fault s k i = z.fenceStart s false) := by
  unfold Mach.fault
  extract_lets y isOpen count wend fatal m1 m2 st sev reacts fences limit after r m3 m4
  set m0 := m1.set F.FLT_SRC_STATUS_COUNT count 0 s
  have h0 : Uncounted s x m0 := (Uncounted.setSrc x _).trans (.set hs m1 _ _ _ (by decide))
  have h2 : FltOnly m0 m2 := .inc _ _ _ _ _ (FltOnly.key _ _ _ (by decide) (by decide) hs)
  have h4 : Uncounted s m2 m4 := Uncounted.trans ⟨.fltQueue m2 s hs r, .fltQueue m2 s r⟩ (.capture hs m3 r)
  have hcount : m2.get F.FLT_SRC_EVENTS 0 s = min (x.get F.FLT_SRC_EVENTS 0 s + 1) (2 ^ 32 - 1) :=
    (Mach.get_inc_same _ _ _ _ _ (by decide)).trans (by rw [Mach.get_congr h0.kept.events])
  have counted : ∀ {w}, (∃ z, Uncounted s m4 z ∧ (w = z ∨ w = z.fenceStart s false)) →
      ∃ z, FltOnly x z ∧ z.get F.FLT_SRC_EVENTS 0 s = min (x.get F.FLT_SRC_EVENTS 0 s + 1) (2 ^ 32 - 1) ∧ (w = z ∨ w = z.fenceStart s false) := by
    rintro w ⟨z, hz, hw⟩
    have hmz := h4.trans hz
    exact ⟨z, (h0.only.trans h2).trans hmz.only, (Mach.get_congr hmz.kept.events).trans hcount, hw⟩
  refine counted ?_
  split
  · obtain he | he := evalSource_cases m4 fatal hs
    · exact ⟨_, he, .inl rfl⟩
    · exact ⟨m4, .refl s m4, .inr he⟩
  · split
    · exact ⟨m4, .refl s m4, .inr rfl⟩
    · split
      · exact ⟨_, .setSrc m4 _, .inl rfl⟩
      · exact ⟨m4, .refl s m4, .inl rfl⟩

/-! ## The sources of a tile: a fence takes the tile out of service (R398) -/

/-- The sources of tile `t` are the tile and its SRAM. -/
theorem fenceUnit_tile (m : Mach) {s : Nat} (h : 64 ≤ s) (hs : s < 192) : m.fenceUnit s = m.fenceTile (s % 64) := by
  rw [Mach.fenceUnit, if_neg (Nat.not_lt.2 h), if_pos hs]

/-- Fields of FLT_SRC_STATUS below STATE leave the state as it was. -/
theorem srcState_set_below (m : Mach) {f : Fld} (v s : Nat) (hk : keyOf F.FLT_SRC_STATUS_STATE 0 s = keyOf f 0 s) (hf : f.lo + f.wd ≤ 28) :
    (m.set f v 0 s).srcState s = m.srcState s := Mach.get_set_apart m hk (by omega) (.inr hf)

/-- A record that is queued leaves the state of its source as it was. -/
theorem srcState_fltQueue (m : Mach) (s : Nat) (r : List Word) : (m.fltQueue s r).srcState s = m.srcState s := by
  have hovf : ((m.inc F.FLT_SRC_OVF 1 0 s).set F.FLT_FLAGS_OVERFLOW 1).srcState s = m.srcState s :=
    (Mach.get_set_of_addr _ (by decide)).trans (Mach.get_set_of_addr m (by decide))
  unfold Mach.fltQueue
  extract_lets y
  split
  · rfl
  · split <;> exact hovf

/-- A fence of a source of a tile: the tile is fenced, and the source is FENCED or LOCKED. -/
theorem fenceStart_tile (x : Mach) {s : Nat} (h : 64 ≤ s) (hs : s < 192) :
    ∃ z, FltOnly x z ∧ FltOnly (z.fenceTile (s % 64)) (x.fenceStart s false) ∧ 2 ≤ (x.fenceStart s false).srcState s ∧
      (x.fenceStart s false).get F.FLT_SRC_EVENTS 0 s = x.get F.FLT_SRC_EVENTS 0 s := by
  have h512 : s < 512 := by omega
  unfold Mach.fenceStart
  extract_lets rec' isPeat new a b c d
  have hz : Uncounted s x (x.srcMove s new) := .srcMove h512 x new
  have ha : a = (x.srcMove s new).fenceTile (s % 64) := fenceUnit_tile _ h hs
  have hd : Uncounted s a (d.setSrc s { d.src s with fenceDone := none, fatalMeanwhile := false }) :=
    (Uncounted.raise a _ _ _ _ _ _).trans <| (Uncounted.set h512 b _ _ _ (by decide)).trans <| (Uncounted.setHandling h512 c _).trans (.setSrc d _)
  have hnew : 2 ≤ new ∧ new < 16 := by
    simp only [new]
    split <;> decide
  have hstate : d.srcState s = new := by
    calc d.srcState s = c.srcState s := srcState_set_below _ _ s rfl (by decide)
      _ = b.srcState s := srcState_set_below b 0 s rfl (by decide)
      _ = (x.srcMove s new).srcState s := by
        show a.srcState s = _
        rw [ha]
        exact Mach.get_set_of_addr _ (by decide)
      _ = new := (srcState_fltQueue _ s _).trans (Mach.get_set_of_lt x _ 0 s (by decide) hnew.2)
  have hevents : a.get F.FLT_SRC_EVENTS 0 s = x.get F.FLT_SRC_EVENTS 0 s := by
    rw [ha]
    exact (Mach.get_set_of_addr (x.srcMove s new) (by decide)).trans (Mach.get_congr hz.kept.events)
  exact ⟨x.srcMove s new, hz.only, ha ▸ hd.only, hnew.1.trans hstate.ge, (Mach.get_congr hd.kept.events).trans hevents⟩

/-- A fault event of a source of a tile is counted; the collector alone changes, or the tile is fenced and its source is FENCED or LOCKED. -/
theorem fault_tile (x : Mach) {s : Nat} (k : Nat) (i : FltInfo) (h : 64 ≤ s) (hs : s < 192) :
    (x.fault s k i).get F.FLT_SRC_EVENTS 0 s = min (x.get F.FLT_SRC_EVENTS 0 s + 1) (2 ^ 32 - 1) ∧
      (FltOnly x (x.fault s k i) ∨
        2 ≤ (x.fault s k i).srcState s ∧ ∃ z, FltOnly x z ∧ FltOnly (z.fenceTile (s % 64)) (x.fault s k i)) := by
  obtain ⟨z, hz, hevents, he | he⟩ := fault_cases x k i (s := s) (by omega)
  · exact ⟨he ▸ hevents, .inl (he ▸ hz)⟩
  · obtain ⟨w, hw, hfence, hstate, hkept⟩ := fenceStart_tile z h hs
    rw [he]
    exact ⟨hkept.trans hevents, .inr ⟨hstate, w, hz.trans hw, hfence⟩⟩

end Sys2Proof.Machine
end


section
/-! SUPPORT. Launches by their numbers, and how a launch ends on its tiles (07_churn_arithmetic.md R198, R200, R202, R203; 08_churn_programs.md R220). -/
namespace Sys2Proof.Machine
namespace Mach

/-! ## Launches by their numbers -/

/-- `x` is listed, and every launch of its number is `x`. -/
def HasLaunch (m : Mach) (x : Launch) : Prop := x ∈ m.chu.launches ∧ ∀ y ∈ m.chu.launches, y.uid = x.uid → y = x

theorem HasLaunch.launch? {m : Mach} {x : Launch} (h : m.HasLaunch x) : m.launch? x.uid = some x := by
  obtain ⟨y, hy⟩ := Option.isSome_iff_exists.1 (List.find?_isSome.2 ⟨x, h.1, beq_self_eq_true x.uid⟩ : (m.launch? x.uid).isSome)
  have hu : y.uid = x.uid := beq_iff_eq.1 (List.find?_some (p := fun l : Launch => l.uid == x.uid) hy)
  exact hy.trans (congrArg some (h.2 y (List.mem_of_find?_eq_some hy) hu))

/-- A launch that is set stands in the place of all of its number. -/
theorem hasLaunch_setLaunch_same {m : Mach} {l x : Launch} (hl : l ∈ m.chu.launches) (hu : l.uid = x.uid) : (m.setLaunch x).HasLaunch x := by
  refine ⟨List.mem_map.2 ⟨l, hl, if_pos (by simp [hu])⟩, fun y hy hyx => ?_⟩
  obtain ⟨z, -, rfl⟩ := List.mem_map.1 hy
  split at hyx <;> rename_i hz
  · rw [if_pos hz]
  · exact absurd (beq_iff_eq.2 hyx) hz

/-- Setting another launch leaves it. -/
theorem HasLaunch.setLaunch_ne {m : Mach} {x y : Launch} (h : m.HasLaunch x) (hu : y.uid ≠ x.uid) : (m.setLaunch y).HasLaunch x := by
  refine ⟨List.mem_map.2 ⟨x, h.1, if_neg (by simpa using hu.symm)⟩, fun z hz hzx => ?_⟩
  obtain ⟨w, hw, rfl⟩ := List.mem_map.1 hz
  split at hzx <;> rename_i hwy
  · exact absurd hzx hu
  · rw [if_neg hwy]
    exact h.2 w hw hzx

theorem HasLaunch.of_launches {m n : Mach} {x : Launch} (h : m.HasLaunch x) (hn : n.chu.launches = m.chu.launches) : n.HasLaunch x := by
  rwa [HasLaunch, hn]

/-- The launch that runs on a tile is listed, and runs. -/
theorem launchOn_some {m : Mach} {t : Nat} {l : Launch} (h : m.launchOn t = some l) : l ∈ m.chu.launches ∧ l.state = 2 := by
  have hl := List.find?_some (p := fun l : Launch => l.state == 2 && getBits l.mask t 1 == 1) h
  rw [Bool.and_eq_true, beq_iff_eq] at hl
  exact ⟨List.mem_of_find?_eq_some h, hl.1⟩

/-! ## The status words of tiles -/

/-- The flags of CHU_TILE_STATUS beside BUSY. -/
abbrev tileFlags : List Fld := [F.CHU_TILE_STATUS_FENCED, F.CHU_TILE_STATUS_RECOMPUTING, F.CHU_TILE_STATUS_CLEARING]

theorem tileFlag_spec {f : Fld} (hf : f ∈ tileFlags) :
    (∀ t, fkey f 0 t = fkey F.CHU_TILE_STATUS_BUSY 0 t) ∧ f.lo + f.wd ≤ 32 ∧ (31 ≤ f.lo ∨ f.lo + f.wd ≤ 30) := by
  simp only [tileFlags, List.mem_cons, List.not_mem_nil, or_false] at hf
  rcases hf with rfl | rfl | rfl <;> exact ⟨fun _ => rfl, by decide, by decide⟩

/-- Status words of different tiles are different registers. -/
theorem busyKey_ne {i t : Nat} (h : i ≠ t) : keyOf F.CHU_TILE_STATUS_BUSY 0 i ≠ keyOf F.CHU_TILE_STATUS_BUSY 0 t := by
  simp only [keyOf, fkey, regKey, regSpan]
  omega

/-- Another flag leaves BUSY of every tile as it was. -/
theorem busy_set_flag (m : Mach) {f : Fld} (v t i : Nat) (hf : f ∈ tileFlags) :
    (m.set f v 0 t).bit F.CHU_TILE_STATUS_BUSY 0 i = m.bit F.CHU_TILE_STATUS_BUSY 0 i := by
  obtain ⟨hkey, hword, hapart⟩ := tileFlag_spec hf
  by_cases hi : i = t
  · subst hi
    rw [bit, get_set_apart m (hkey i).symm hword hapart, bit]
  · exact bit_congr (set_reg_ne m (hkey t ▸ busyKey_ne hi))

/-- A tile that is not BUSY stays so when a tile ceases to be. -/
theorem busy_set_false {m : Mach} {i : Nat} (t : Nat) (h : i = t ∨ m.bit F.CHU_TILE_STATUS_BUSY 0 i = false) :
    (m.set F.CHU_TILE_STATUS_BUSY 0 0 t).bit F.CHU_TILE_STATUS_BUSY 0 i = false := by
  by_cases hi : i = t
  · subst hi
    exact bit_set_same m F.CHU_TILE_STATUS_BUSY false 0 i (by decide) rfl
  · exact (bit_congr (set_reg_ne m (busyKey_ne hi))).trans (h.resolve_left hi)

/-- A tile whose launch ends (R220). -/
def tileDone (m : Mach) (t : Nat) : Mach := (m.set F.CHU_TILE_STATUS_BUSY 0 0 t).set F.CHU_TILE_STATUS_RECOMPUTING 0 0 t

end Mach

/-- From `x` to `y` tiles may cease to be BUSY and clears begin; launches and words to scrub stay. -/
structure TilesEnded (x y : Mach) : Prop where
  only : OnlyRegs churnKey x y
  launches : y.chu.launches = x.chu.launches
  scrub : y.chu.scrub = x.chu.scrub
  idle : ∀ i, x.bit F.CHU_TILE_STATUS_BUSY 0 i = false → y.bit F.CHU_TILE_STATUS_BUSY 0 i = false

namespace TilesEnded

variable {x y z : Mach}

theorem refl (x : Mach) : TilesEnded x x := ⟨.refl _ x, rfl, rfl, fun _ h => h⟩

theorem trans (h : TilesEnded x y) (g : TilesEnded y z) : TilesEnded x z :=
  ⟨h.only.trans g.only, g.launches.trans h.launches, g.scrub.trans h.scrub, fun i hi => g.idle i (h.idle i hi)⟩

theorem foldl {α : Type} {g : Mach → α → Mach} {l : List α} (h : ∀ z a, TilesEnded z (g z a)) (x : Mach) : TilesEnded x (l.foldl g x) :=
  List.foldlRecOn (motive := TilesEnded x) l g (.refl x) fun z hz a _ => hz.trans (h z a)

theorem setFlag (x : Mach) {f : Fld} (v t : Nat) (hf : f ∈ Mach.tileFlags) : TilesEnded x (x.set f v 0 t) :=
  ⟨(OnlyRegs.refl _ x).set (.inr ⟨t, (Mach.tileFlag_spec hf).1 t⟩), rfl, rfl, fun i hi => (x.busy_set_flag v t i hf).trans hi⟩

theorem tileDone (x : Mach) (t : Nat) : TilesEnded x (x.tileDone t) :=
  have hbusy : TilesEnded x (x.set F.CHU_TILE_STATUS_BUSY 0 0 t) :=
    ⟨(OnlyRegs.refl _ x).set (.inr ⟨t, rfl⟩), rfl, rfl, fun _ hi => Mach.busy_set_false t (.inr hi)⟩
  hbusy.trans (setFlag _ 0 t (by decide))

theorem sramClear (x : Mach) (t lo len : Nat) : TilesEnded x (x.sramClear t lo len) := by
  unfold Mach.sramClear
  split
  · exact refl x
  · have hput : TilesEnded x (x.putChu { x.chu with clears := x.chu.clears ++ [(t, lo, len)] }) := ⟨⟨rfl, rfl, rfl, rfl, fun _ _ => rfl⟩, rfl, rfl, fun _ hi => hi⟩
    exact hput.trans (setFlag _ 1 t (by decide))

/-- CHU_STATUS counts the tiles. -/
theorem chuSync (x : Mach) : TilesEnded x x.chuSync :=
  ⟨((OnlyRegs.refl _ x).set (.inl rfl)).set (.inl rfl), rfl, rfl, fun _ hi =>
    (Mach.bit_set_of_addr _ (by decide)).trans ((Mach.bit_set_of_addr x (by decide)).trans hi)⟩

end TilesEnded

/-! ## The end of a launch (R220) -/

/-- A launch as its end leaves it: it waits for its writes, and keeps its first failure. -/
abbrev endedLaunch (l : Launch) (fail : Option (Nat × Nat)) : Launch := { l with state := 3, fail := if l.fail.isSome then l.fail else fail }

namespace Mach

/-- The tiles of a launch that ends cease to be BUSY. -/
theorem tilesDone_busy (m : Mach) (ts : List Nat) {i : Nat} (hi : i ∈ ts) : (ts.foldl tileDone m).bit F.CHU_TILE_STATUS_BUSY 0 i = false := by
  induction ts generalizing m with
  | nil => simp at hi
  | cons t r ih =>
    rw [List.foldl_cons]
    obtain rfl | hr := List.mem_cons.1 hi
    · have hone : (m.tileDone i).bit F.CHU_TILE_STATUS_BUSY 0 i = false := (busy_set_flag _ 0 i i (by decide)).trans (busy_set_false i (.inl rfl))
      exact (TilesEnded.foldl TilesEnded.tileDone (m.tileDone i)).idle i hone
    · exact ih _ hr

theorem launchEnd_spec (m : Mach) (l : Launch) (fail : Option (Nat × Nat)) :
    TilesEnded (m.setLaunch (endedLaunch l fail)) (m.launchEnd l fail) ∧ ∀ i ∈ tilesOf l.mask, (m.launchEnd l fail).bit F.CHU_TILE_STATUS_BUSY 0 i = false := by
  unfold launchEnd
  extract_lets y ts z w
  have hz : TilesEnded y z := .foldl TilesEnded.tileDone y
  have hw : TilesEnded z w := by
    simp only [w]
    split
    · exact .refl z
    · refine .foldl (fun v t => ?_) z
      split
      · exact .sramClear v _ _ _
      · exact .refl v
  have hend : TilesEnded z w.chuSync := hw.trans (.chuSync w)
  exact ⟨hz.trans hend, fun i hi => hend.idle i (tilesDone_busy y ts hi)⟩

/-- Setting a launch writes no register. -/
theorem setLaunch_onlyRegs (K : Nat → Prop) (m : Mach) (x : Launch) : OnlyRegs K m (m.setLaunch x) := ⟨rfl, rfl, rfl, rfl, fun _ _ => rfl⟩

theorem launchEnd_hasLaunch {m : Mach} {l : Launch} (hl : l ∈ m.chu.launches) (fail : Option (Nat × Nat)) : (m.launchEnd l fail).HasLaunch (endedLaunch l fail) :=
  (hasLaunch_setLaunch_same (x := endedLaunch l fail) hl rfl).of_launches (m.launchEnd_spec l fail).1.launches

/-! ## A tile goes out of service (R200) -/

/-- What the loss of a tile does to Churn: the launch that runs on it ends. -/
theorem tileLost_spec (m : Mach) (t : Nat) :
    OnlyRegs churnKey m (m.tileLost t) ∧ (m.tileLost t).chu.scrub = m.chu.scrub ∧
      (∀ i, m.bit F.CHU_TILE_STATUS_BUSY 0 i = false → (m.tileLost t).bit F.CHU_TILE_STATUS_BUSY 0 i = false) ∧
      ∀ x, m.HasLaunch x → x.state ≠ 2 → (m.tileLost t).HasLaunch x := by
  have hsync := TilesEnded.chuSync m
  unfold tileLost
  extract_lets y
  split
  · rename_i l hl
    obtain ⟨hend, -⟩ := y.launchEnd_spec l (some (stIntegrity, 0))
    obtain ⟨-, hrun⟩ := launchOn_some hl
    refine ⟨hsync.only.trans ((y.setLaunch_onlyRegs _ _).trans hend.only), hend.scrub.trans hsync.scrub, fun i hi => hend.idle i (hsync.idle i hi), fun x hx hstate => ?_⟩
    have hy : y.HasLaunch x := hx.of_launches hsync.launches
    have hne : l.uid ≠ x.uid := fun he => hstate (hy.2 l (launchOn_some hl).1 he ▸ hrun)
    exact (hy.setLaunch_ne (y := endedLaunch l (some (stIntegrity, 0))) hne).of_launches hend.launches
  · exact ⟨hsync.only, hsync.scrub, hsync.idle, fun x hx _ => hx.of_launches hsync.launches⟩

end Mach
end Sys2Proof.Machine
end


section
/-! SUPPORT. The outputs of a launch that ends with INTEGRITY are spoilt, and nothing else of Churn or of the stores (07_churn_arithmetic.md R198; 10_memory.md R282;
15_cipher.md R378). -/
namespace Sys2Proof.Machine

/-! ## A write to Peat stays out of Churn's way (10_memory.md R282; 15_cipher.md R378, R382) -/

/-- Whether a key is that of a register outside the tiles and programs of block CHU (07_churn_arithmetic.md R204; 08_churn_programs.md R213). -/
abbrev offChurn (k : Nat) : Prop := k % regSpan / 0x1000 ≠ 0x3000

theorem offChurn_of_addr {f : Fld} {i s : Nat} (h : (f.addr + f.step * i) % regSpan / 0x1000 ≠ 0x3000) : offChurn (keyOf f i s) := by
  rwa [offChurn, keyOf_mod]

/-- The second half of a pair. -/
theorem offChurn_of_addr_hi {f : Fld} {i s : Nat} (h : (f.addr + f.step * i + 4) % regSpan / 0x1000 ≠ 0x3000) : offChurn (keyOf f i s + 4) := by
  have e : keyOf f i s + 4 = f.addr + f.step * i + 4 + regSpan * s := by simp only [keyOf, Mach.fkey, regKey]; omega
  rwa [offChurn, e, Nat.add_mul_mod_self_left]

/-- `y` comes after `x` with Churn and its registers as they were. -/
structure ChurnKept (x y : Mach) : Prop where
  chu : y.chu = x.chu
  regs : RegsBut offChurn x y

namespace ChurnKept

variable {x y z : Mach}

theorem refl (x : Mach) : ChurnKept x x := ⟨rfl, .refl _ x⟩

theorem trans (h : ChurnKept x y) (g : ChurnKept y z) : ChurnKept x z := ⟨g.chu.trans h.chu, fun k hk => (g.regs k hk).trans (h.regs k hk)⟩

theorem ite {c : Prop} [Decidable c] (h : ChurnKept x y) (g : ChurnKept x z) : ChurnKept x (if c then y else z) := by
  split <;> assumption

theorem of_regs (hc : y.chu = x.chu) (hr : y.regs = x.regs) (hv : y.variant = x.variant) : ChurnKept x y := ⟨hc, (RegsBut.refl _ x).of_regs hv hr⟩

theorem set (h : ChurnKept x y) {f : Fld} {v i s : Nat} (hf : (f.addr + f.step * i) % regSpan / 0x1000 ≠ 0x3000) : ChurnKept x (y.set f v i s) :=
  ⟨h.chu, h.regs.set (offChurn_of_addr hf)⟩

theorem set64 (h : ChurnKept x y) {f : Fld} {v i s : Nat} (hf : (f.addr + f.step * i) % regSpan / 0x1000 ≠ 0x3000)
    (hg : (f.addr + f.step * i + 4) % regSpan / 0x1000 ≠ 0x3000) : ChurnKept x (y.set64 f v i s) :=
  ⟨h.chu, h.regs.set64 (offChurn_of_addr hf) (offChurn_of_addr_hi hg)⟩

theorem raise (x : Mach) (code source herd : Nat) (dest : List Nat) (a b : Nat) : ChurnKept x (x.raise code source herd dest a b) := .of_regs rfl rfl rfl

theorem zeroCounters (x : Mach) (p : Nat) : ChurnKept x (x.zeroCounters p) := .of_regs rfl rfl rfl

theorem keyRecord (x : Mach) (p : Nat) : ChurnKept x (x.keyRecord p) := .of_regs rfl rfl rfl

theorem keySwitch (x : Mach) (p : Nat) : ChurnKept x (x.keySwitch p) := by
  unfold Mach.keySwitch
  extract_lets k e c o own y z w v
  have hy : ChurnKept x y := .of_regs rfl rfl rfl
  have hz : ChurnKept y z := (((((refl y).set (by decide)).set (by decide)).set (by decide)).set (by decide)).set (by decide)
  have hw : ChurnKept z w := ((refl z).set64 (by decide) (by decide)).trans (zeroCounters _ p)
  have hv : ChurnKept w v := .ite (((refl w).set64 (by decide) (by decide)).trans (keyRecord _ p)) (refl w)
  exact (((hy.trans hz).trans hw).trans hv).trans (raise v _ _ _ _ _ _)

theorem setMirror (x : Mach) (r : Nat) (m : Mirror) : ChurnKept x (x.setMirror r m) := .of_regs rfl rfl rfl

theorem mirrorLog (x : Mach) (addr len : Nat) (sched : Bool) : ChurnKept x (x.mirrorLog addr len sched) := by
  unfold Mach.mirrorLog
  split
  · exact refl x
  · refine .ite (refl x) (List.foldlRecOn (motive := ChurnKept x) _ _ (refl x) fun z hz i _ => hz.trans ?_)
    exact .ite (setMirror z _ _) (.ite (setMirror z _ _) (setMirror z _ _))

theorem storeKeyCount (x : Mach) (addr len : Nat) : ChurnKept x (x.storeKeyCount addr len) := by
  unfold Mach.storeKeyCount
  extract_lets g p n y o
  have hy : ChurnKept x y := (refl x).set64 (by decide) (by decide)
  exact .ite (refl x) (.ite (hy.trans (keySwitch y p)) (.ite ((hy.set (by decide)).trans (raise _ _ _ _ _ _ _)) hy))

theorem peatWrite (x : Mach) (addr : Nat) (d : List Byte) (sched : Bool) : ChurnKept x (x.peatWrite addr d sched) :=
  ((mirrorLog x addr _ sched).trans (storeKeyCount _ _ _)).trans (.of_regs rfl rfl rfl)

end ChurnKept

/-! ## Pieces of a range become undefined (R198) -/

/-- The change of the stores fills a whole piece of `segs`. -/
def FillsPiece (segs : List Seg) (op : MemOp) : Prop := ∃ g ∈ segs, ∃ st d, segStore g.target = some st ∧ d.length = g.len ∧ op = .bytes st g.addr d

/-- From `x` to `y` pieces of `segs` are filled; Churn, its registers and what a command must not lose stay. -/
structure Filled (segs : List Seg) (x y : Mach) : Prop where
  kept : ChurnKept x y
  variant : y.variant = x.variant
  downs : y.downs = x.downs
  tileDowns : y.tileDowns = x.tileDowns
  writes : ∀ op ∈ y.wr, op ∈ x.wr ∨ FillsPiece segs op

namespace Filled

variable {segs : List Seg} {x y z : Mach}

theorem refl (segs : List Seg) (x : Mach) : Filled segs x x := ⟨.refl x, rfl, rfl, rfl, fun _ => .inl⟩

theorem trans (h : Filled segs x y) (g : Filled segs y z) : Filled segs x z :=
  ⟨h.kept.trans g.kept, g.variant.trans h.variant, g.downs.trans h.downs, g.tileDowns.trans h.tileDowns, fun op hop => (g.writes op hop).elim (h.writes op) .inr⟩

theorem ite {c : Prop} [Decidable c] (h : c → Filled segs x y) (g : ¬ c → Filled segs x z) : Filled segs x (if c then y else z) := by
  split
  · exact h ‹_›
  · exact g ‹_›

theorem foldl {α : Type} {g : Mach → α → Mach} {l : List α} (h : ∀ z, ∀ a ∈ l, Filled segs z (g z a)) (x : Mach) : Filled segs x (l.foldl g x) :=
  List.foldlRecOn (motive := Filled segs x) l g (.refl segs x) fun z hz a ha => hz.trans (h z a ha)

theorem freshBytes (x : Mach) (n : Nat) : Filled segs x (x.freshBytes n).1 := ⟨.of_regs rfl rfl rfl, rfl, rfl, rfl, fun _ => .inl⟩

/-- A piece of Peat. -/
theorem peatWrite (x : Mach) {g : Seg} (hg : g ∈ segs) (ht : g.target = 0) {d : List Byte} (hd : d.length = g.len) (sched : Bool) :
    Filled segs x (x.peatWrite g.addr d sched) := by
  have haside := x.peatWrite_aside g.addr d sched
  refine ⟨.peatWrite x _ d sched, haside.variant, haside.downs, haside.tileDowns, fun op hop => ?_⟩
  rw [Mach.peatWrite_wr] at hop
  obtain rfl | hop := List.mem_cons.1 hop
  · exact .inr ⟨g, hg, .peat, d, by simp [segStore, ht], hd, rfl⟩
  · exact .inl hop

/-- A piece of Cream. -/
theorem creamWrite (x : Mach) {g : Seg} (hg : g ∈ segs) (ht : g.target = 2) {d : List Byte} (hd : d.length = g.len) : Filled segs x (x.wrBytes .cream g.addr d) := by
  refine ⟨.of_regs rfl rfl rfl, rfl, rfl, rfl, fun op hop => ?_⟩
  obtain rfl | hop := List.mem_cons.1 hop
  · exact .inr ⟨g, hg, .cream, d, by simp [segStore, ht], hd, rfl⟩
  · exact .inl hop

end Filled

/-- The pieces of a launch's results, as its streams were translated (08_churn_programs.md R224). -/
abbrev resultPieces (m : Mach) (l : Launch) : List Seg :=
  ((m.launchStreams l.entry l.args).zip l.streams).flatMap (fun x => if x.1.2.2.1 then x.2.1 else [])

theorem spoil_filled (m : Mach) (l : Launch) : Filled (resultPieces m l) m (m.spoil l) := by
  unfold Mach.spoil
  extract_lets ss
  refine .foldl (fun z s hs => .ite (fun hres => ?_) fun _ => .refl _ z) m
  have hpieces : ∀ g ∈ s.2.1, g ∈ resultPieces m l := fun g hg => List.mem_flatMap.2 ⟨s, hs, by rwa [if_pos hres]⟩
  refine .foldl (fun w g hg => (Filled.freshBytes w g.len).trans ?_) z
  have hlen : (w.freshBytes g.len).2.length = g.len := by simp [Mach.freshBytes]
  exact .ite (fun ht => .peatWrite _ (hpieces g hg) ht hlen _) fun _ => .ite (fun ht => .creamWrite _ (hpieces g hg) ht hlen) fun _ => .refl _ _

/-- Where every change of the stores fills a piece, the bytes outside the pieces read as before. -/
theorem segsBut_settle {segs : List Seg} {m x : Mach} (hi : m.Inv) (h : ∀ op ∈ x.wr, FillsPiece segs op) : SegsBut segs m (settle m x) := by
  obtain ⟨hp, hc, ht, hf, -⟩ := hi
  intro st a hout
  have hnone : x.wr.findSome? (fun op => op.at st a) = none := List.findSome?_eq_none_iff.2 fun op hop => by
    obtain ⟨g, hg, st', d, hst, hd, rfl⟩ := h op hop
    simp only [MemOp.at]
    split
    · rename_i hin
      have := hout g hg (hin.1 ▸ hst)
      exact List.getElem?_eq_none (by omega)
    · rfl
  have hread : ∀ {mem : Memory}, Memory.wf mem = true → memGet (x.wr.foldr (fun op mem => op.apply st mem) mem) a = memGet mem a := fun hw => by
    rw [memGet_applyAll st hw, hnone, Option.getD_none]
  cases st with
  | peat => exact hread hp
  | cream => exact hread hc
  | tsram => exact hread ht
  | flash => exact hread hf

end Sys2Proof.Machine
end


section
/-! SUPPORT and proof of O21: seeds, tile checks, SRAM errors, scrubs and clears (07_churn_arithmetic.md R194, R197, R198, R202 to R204; 14_herds.md R359). -/
namespace Sys2Proof.Machine

/-! ## A fault event of a tile, with the loss of the tile that it may bring (R200) -/

/-- Keys of the registers that a fault event of a tile may write: the collector's, and the status words of tiles. -/
abbrev tileFaultKey (k : Nat) : Prop := fltKey k ∨ churnKey k

theorem not_tileFaultKey {f : Fld} {i s : Nat} (h : (f.addr + f.step * i) % regSpan / 0x10000 ≠ 3)
    (hc : (f.addr + f.step * i) % regSpan ≠ F.CHU_STATUS_BUSY.addr) (ht : (f.addr + f.step * i) % regSpan ≠ F.CHU_TILE_STATUS_BUSY.addr) :
    ¬ tileFaultKey (keyOf f i s) := by
  rintro (⟨-, hflt⟩ | hk | ⟨j, hk⟩)
  · exact h (keyOf_mod f i s ▸ hflt)
  · exact Mach.fkey_ne_of_addr s 0 hc hk
  · exact Mach.fkey_ne_of_addr s j ht hk

/-- `n` is what an event of source `s` leaves of `x`: counted, and where its tile was fenced, the launch that ran on it has ended. -/
structure TileFaulted (s : Nat) (x n : Mach) : Prop where
  variant : n.variant = x.variant
  wr : n.wr = x.wr
  regs : RegsBut tileFaultKey x n
  scrub : n.chu.scrub = x.chu.scrub
  events : n.get F.FLT_SRC_EVENTS 0 s = min (x.get F.FLT_SRC_EVENTS 0 s + 1) (2 ^ 32 - 1)
  idle : ∀ i, x.bit F.CHU_TILE_STATUS_BUSY 0 i = false → n.bit F.CHU_TILE_STATUS_BUSY 0 i = false
  launches : ∀ l, x.HasLaunch l → l.state ≠ 2 → n.HasLaunch l
  calm : n.srcState s < 2 → FltOnly x n

/-- Registers of other blocks are none of the collector's. -/
theorem FltOnly.bit {x y : Mach} (h : FltOnly x y) {f : Fld} {i s : Nat} (hf : (f.addr + f.step * i) % regSpan / 0x10000 ≠ 3) : y.bit f i s = x.bit f i s :=
  Mach.bit_congr (h.reg _ fun hk => hf (keyOf_mod f i s ▸ hk.2))

/-- What a fault event of a tile leaves once the loss that it may bring is absorbed. -/
theorem absorb_tileFault {x : Mach} {s : Nat} (k : Nat) (i : FltInfo) (h : 64 ≤ s) (hs : s < 192) (hd : x.downs = []) (ht : x.tileDowns = []) :
    TileFaulted s x (x.fault s k i).absorb := by
  obtain ⟨hevents, hcases⟩ := fault_tile x k i h hs
  set y := x.fault s k i
  have htouch : FaultTouch x y := .fault x s k i
  obtain hy | ⟨hstate, z, hz, hzy⟩ := hcases
  · rw [Mach.absorb_of_nil (hy.downs.trans hd) (hy.tileDowns.trans ht)]
    exact ⟨htouch.variant, htouch.wr, hy.reg.mono fun _ => .inl, congrArg ChuSt.scrub htouch.chu, hevents, fun _ hj => (hy.bit (by decide)).trans hj,
      fun l hl _ => hl.of_launches (congrArg ChuSt.launches htouch.chu), fun _ => hy⟩
  · have hdowns : y.downs = [] := hzy.downs.trans (hz.downs.trans hd)
    have htiles : y.tileDowns = [s % 64] := hzy.tileDowns.trans (congrArg (· ++ [s % 64]) (hz.tileDowns.trans ht))
    have habsorb : y.absorb = y.tileLost (s % 64) := by simp [Mach.absorb, hdowns, htiles]
    have hfence : RegsBut tileFaultKey z (z.fenceTile (s % 64)) := (RegsBut.refl _ z).set (f := F.CHU_TILE_STATUS_FENCED) (.inr (.inr ⟨s % 64, rfl⟩))
    have hxy : RegsBut tileFaultKey x y := fun j hj =>
      (hzy.reg j fun hf => hj (.inl hf)).trans ((hfence j hj).trans (hz.reg j fun hf => hj (.inl hf)))
    have hbusy : ∀ j, y.bit F.CHU_TILE_STATUS_BUSY 0 j = x.bit F.CHU_TILE_STATUS_BUSY 0 j := fun j =>
      (hzy.bit (by decide)).trans ((z.busy_set_flag 1 (s % 64) j (by decide)).trans (hz.bit (by decide)))
    obtain ⟨honly, hscrub, hidle, hkeep⟩ := y.tileLost_spec (s % 64)
    have hkept : ∀ {f : Fld} (_ : (f.addr + f.step * 0) % regSpan ≠ F.CHU_STATUS_BUSY.addr ∧ (f.addr + f.step * 0) % regSpan ≠ F.CHU_TILE_STATUS_BUSY.addr),
        (y.tileLost (s % 64)).get f 0 s = y.get f 0 s := fun hf => honly.regs.get fun hk =>
      hk.elim (Mach.fkey_ne_of_addr s 0 hf.1) fun ⟨j, hj⟩ => Mach.fkey_ne_of_addr s j hf.2 hj
    rw [habsorb]
    refine ⟨honly.variant.trans htouch.variant, honly.wr.trans htouch.wr, fun j hj => (honly.regs j fun hc => hj (.inr hc)).trans (hxy j hj),
      hscrub.trans (congrArg ChuSt.scrub htouch.chu), (hkept (by decide)).trans hevents, fun j hj => hidle j ((hbusy j).trans hj),
      fun l hl hne => hkeep l (hl.of_launches (congrArg ChuSt.launches htouch.chu)) hne, fun hcalm => ?_⟩
    have hsame : (y.tileLost (s % 64)).srcState s = y.srcState s := hkept (f := F.FLT_SRC_STATUS_STATE) (by decide)
    omega

/-- How to show what a command does that ends in a fault event of a tile. -/
theorem runs_of_tileFault {c : Instr} {s : State} {P : Mach → Prop} {f : Mach → Mach} {x : Mach} {t src k : Nat} {i : FltInfo}
    (hc : Sys2Proof.Machine.exec c s = commit s (fun m => (m.advance t).engines f)) (hi : s.m.Inv) (hr : s.m.Running) (hx : f (s.m.advance t) = x.fault src k i)
    (h64 : 64 ≤ src) (h192 : src < 192) (hv : x.variant = s.m.variant) (hd : x.downs = s.m.downs) (ht : x.tileDowns = s.m.tileDowns)
    (h : ∀ n, TileFaulted src x n → (∀ key, (settle s.m n).reg key = n.reg key) → P (settle s.m n)) : Runs c s P := by
  have hf := absorb_tileFault k i h64 h192 (hd.trans hi.no_downs) (ht.trans hi.no_tileDowns)
  refine ⟨_, hc, rfl, ?_⟩
  show P (settle s.m (((clean s.m).advance t).engines f).absorb)
  rw [clean_of_inv hi, Mach.engines_of_running (m := s.m.advance t) hr, hx]
  exact h _ hf fun key => settle_reg _ _ key (hf.variant.trans hv)

namespace TileFaulted

variable {src : Nat} {m x n : Mach} {K : Nat → Prop}

/-- A field outside what the event writes. -/
theorem get (h : TileFaulted src x n) {f : Fld} {i s : Nat} (hf : (f.addr + f.step * i) % regSpan / 0x10000 ≠ 3)
    (hc : (f.addr + f.step * i) % regSpan ≠ F.CHU_STATUS_BUSY.addr) (ht : (f.addr + f.step * i) % regSpan ≠ F.CHU_TILE_STATUS_BUSY.addr) :
    n.get f i s = x.get f i s := h.regs.get (not_tileFaultKey hf hc ht)

/-- The frame of the whole command, from that of what came before the event. -/
theorem frame (h : TileFaulted src x n) (hv : x.variant = m.variant) (hw : x.wr = []) (hx : RegsBut K m x) (hK : ∀ k, tileFaultKey k → K k) :
    Frame K m (settle m n) :=
  frame_settle (h.variant.trans hv) (h.wr.trans hw) fun k hk => (h.regs k fun ht => hk (hK k ht)).trans (hx k hk)

end TileFaulted

/-! ## Detections (R197, R198) -/

namespace Mach

/-- The first detection of a launch: the pass is executed again. -/
def recomputing (m : Mach) (u : Nat) (l : Launch) : Mach :=
  ((m.inc F.CHU_RESIDUE_RECOMPUTED 1 0 u).set F.CHU_TILE_STATUS_RECOMPUTING 1 0 u).setLaunch { l with again := true }

/-- The second detection of a launch: it ends with INTEGRITY. -/
def integrityLost (m : Mach) (u : Nat) (l : Launch) : Mach := ((m.inc F.CHU_RESIDUE_FAILED 1 0 u).spoil l).launchEnd l (some (stIntegrity, 0))

theorem detect_of_launchOn {m : Mach} {u : Nat} {l : Launch} (hl : m.launchOn u = some l) :
    (if (m.launchOn u).isSome then m.churnDetect u else m.collDetect u) = m.churnDetect u := if_pos (by rw [hl]; rfl)

theorem churnDetect_first {m : Mach} {u : Nat} {l : Launch} (hl : m.launchOn u = some l) (ha : l.again = false) :
    ∃ i, m.churnDetect u = (m.recomputing u l).fault (srcTile u) kCorrected i := ⟨_, by rw [churnDetect, hl]; exact if_pos ha⟩

theorem churnDetect_second {m : Mach} {u : Nat} {l : Launch} (hl : m.launchOn u = some l) (ha : l.again = true) :
    ∃ i, m.churnDetect u = (m.integrityLost u l).fault (srcTile u) kFailed i := ⟨_, by rw [churnDetect, hl]; exact if_neg (by simp [ha])⟩

/-- The count goes up, the launch ends with INTEGRITY, and the stores change in its results alone. -/
theorem integrityLost_spec {m : Mach} {u : Nat} {l : Launch} (hl : m.launchOn u = some l) :
    let x := m.integrityLost u l
    x.get F.CHU_RESIDUE_FAILED 0 u = min (m.get F.CHU_RESIDUE_FAILED 0 u + 1) (2 ^ F.CHU_RESIDUE_FAILED.wd - 1) ∧
      x.HasLaunch (endedLaunch l (some (stIntegrity, 0))) ∧ (∀ i ∈ tilesOf l.mask, x.bit F.CHU_TILE_STATUS_BUSY 0 i = false) ∧
      (∀ op ∈ x.wr, op ∈ m.wr ∨ FillsPiece (resultPieces m l) op) ∧ x.variant = m.variant ∧ x.downs = m.downs ∧ x.tileDowns = m.tileDowns := by
  intro x
  set y := m.inc F.CHU_RESIDUE_FAILED 1 0 u
  have hfill : Filled (resultPieces m l) y (y.spoil l) := spoil_filled y l
  obtain ⟨hend, hidle⟩ := (y.spoil l).launchEnd_spec l (some (stIntegrity, 0))
  have honly : OnlyRegs churnKey (y.spoil l) x := ((y.spoil l).setLaunch_onlyRegs _ _).trans hend.only
  have hmem : l ∈ (y.spoil l).chu.launches := hfill.kept.chu ▸ (launchOn_some hl).1
  refine ⟨?_, launchEnd_hasLaunch hmem _, hidle, fun op hop => hfill.writes op (honly.wr ▸ hop), honly.variant.trans hfill.variant, honly.downs.trans hfill.downs,
    honly.tileDowns.trans hfill.tileDowns⟩
  calc x.get F.CHU_RESIDUE_FAILED 0 u = (y.spoil l).get F.CHU_RESIDUE_FAILED 0 u :=
        honly.regs.get fun hk => not_tileFaultKey (f := F.CHU_RESIDUE_FAILED) (by decide) (by decide) (by decide) (.inr hk)
    _ = y.get F.CHU_RESIDUE_FAILED 0 u := hfill.kept.regs.get fun hk => hk (by rw [keyOf_mod]; rfl)
    _ = _ := get_inc_same m _ _ _ _ (by decide)

end Mach

theorem srcTile_bounds {u : Nat} (hu : u < 64) : 64 ≤ srcTile u ∧ srcTile u < 192 := by
  simp only [srcTile]
  omega

theorem srcTsram_bounds {u : Nat} (hu : u < 64) : 64 ≤ srcTsram u ∧ srcTsram u < 192 := by
  simp only [srcTsram]
  omega

/-- The first detection of a launch. -/
theorem runs_detect_first {s : State} {t u : Nat} {l : Launch} (hi : s.m.Inv) (hr : s.m.Running) (hu : u < 64) (hl : s.m.launchOn u = some l) (ha : l.again = false) :
    Runs (.churnCheckDetect t u) s fun n =>
      n.get F.CHU_RESIDUE_RECOMPUTED 0 u = min (s.m.get F.CHU_RESIDUE_RECOMPUTED 0 u + 1) (2 ^ F.CHU_RESIDUE_RECOMPUTED.wd - 1) ∧
      (n.srcState (srcTile u) < 2 → n.launch? l.uid = some { l with again := true } ∧ n.bit F.CHU_TILE_STATUS_RECOMPUTING 0 u = true) ∧
      Frame (fun k => fltKey k ∨ churnKey k ∨ k = keyOf F.CHU_RESIDUE_RECOMPUTED 0 u) s.m n := by
  obtain ⟨i, hdetect⟩ := Mach.churnDetect_first (m := s.m.advance t) hl ha
  obtain ⟨h64, h192⟩ := srcTile_bounds hu
  set m := s.m.advance t
  set x := m.recomputing u l
  have hregs : RegsBut (fun k => fltKey k ∨ churnKey k ∨ k = keyOf F.CHU_RESIDUE_RECOMPUTED 0 u) s.m x :=
    ((RegsBut.refl _ m).inc (.inr (.inr rfl))).set (f := F.CHU_TILE_STATUS_RECOMPUTING) (.inr (.inl (.inr ⟨u, rfl⟩)))
  have hcount : x.get F.CHU_RESIDUE_RECOMPUTED 0 u = min (s.m.get F.CHU_RESIDUE_RECOMPUTED 0 u + 1) (2 ^ F.CHU_RESIDUE_RECOMPUTED.wd - 1) :=
    (Mach.get_set_of_addr _ (by decide)).trans (Mach.get_inc_same m _ _ _ _ (by decide))
  refine runs_of_tileFault (f := fun m => if (m.launchOn u).isSome then m.churnDetect u else m.collDetect u) rfl hi hr
    ((Mach.detect_of_launchOn (m := m) hl).trans hdetect) h64 h192 rfl rfl rfl fun n hn hreg =>
    ⟨?_, fun hstate => ?_, ?_⟩
  · exact (Mach.get_congr (hreg _)).trans ((hn.get (by decide) (by decide) (by decide)).trans hcount)
  · have hcalm : FltOnly x n := hn.calm (by rwa [Mach.srcState, Mach.get_congr (hreg _)] at hstate)
    have hlaunch : x.HasLaunch { l with again := true } := Mach.hasLaunch_setLaunch_same (l := l) (Mach.launchOn_some hl).1 rfl
    have hflag : x.bit F.CHU_TILE_STATUS_RECOMPUTING 0 u = true := Mach.bit_set_same _ _ true _ _ (by decide) rfl
    exact ⟨(hlaunch.of_launches (congrArg ChuSt.launches hcalm.touch.chu)).launch?, (Mach.bit_congr (hreg _)).trans ((hcalm.bit (by decide)).trans hflag)⟩
  · exact hn.frame rfl hi.no_wr hregs fun k hk => hk.elim .inl fun hc => .inr (.inl hc)

/-- The second detection of a launch. -/
theorem runs_detect_second {s : State} {t u : Nat} {l : Launch} (hi : s.m.Inv) (hr : s.m.Running) (hu : u < 64) (hl : s.m.launchOn u = some l) (ha : l.again = true) :
    Runs (.churnCheckDetect t u) s fun n =>
      n.get F.CHU_RESIDUE_FAILED 0 u = min (s.m.get F.CHU_RESIDUE_FAILED 0 u + 1) (2 ^ F.CHU_RESIDUE_FAILED.wd - 1) ∧
      n.launch? l.uid = some (endedLaunch l (some (stIntegrity, 0))) ∧ (∀ i ∈ Mach.tilesOf l.mask, n.bit F.CHU_TILE_STATUS_BUSY 0 i = false) ∧
      SegsBut (resultPieces s.m l) s.m n := by
  obtain ⟨i, hdetect⟩ := Mach.churnDetect_second (m := s.m.advance t) hl ha
  obtain ⟨h64, h192⟩ := srcTile_bounds hu
  obtain ⟨hcount, hlaunch, hidle, hwrites, hv, hd, ht⟩ := Mach.integrityLost_spec (m := s.m.advance t) hl
  set m := s.m.advance t
  set x := m.integrityLost u l
  refine runs_of_tileFault (f := fun m => if (m.launchOn u).isSome then m.churnDetect u else m.collDetect u) rfl hi hr
    ((Mach.detect_of_launchOn (m := m) hl).trans hdetect) h64 h192 hv hd ht fun n hn hreg =>
    ⟨?_, (hn.launches _ hlaunch (by simp)).launch?, fun j hj => (Mach.bit_congr (hreg _)).trans (hn.idle j (hidle j hj)), segsBut_settle hi fun op hop => ?_⟩
  · exact (Mach.get_congr (hreg _)).trans ((hn.get (by decide) (by decide) (by decide)).trans hcount)
  · have hnew := hwrites op (hn.wr ▸ hop)
    rw [show m.wr = [] from hi.no_wr] at hnew
    exact hnew.resolve_left List.not_mem_nil

/-! ## Errors of tile SRAM (R202) -/

namespace Mach

/-- A double-bit error ends the launch of the tile with UNCORRECTABLE. -/
def uncorrectable (m : Mach) (u : Nat) : Mach :=
  match m.launchOn u with
  | some l => m.launchEnd l (some (stUncorrectable, 0))
  | none => m

theorem tileSramError_single (m : Mach) (u word : Nat) : ∃ i, m.tileSramError u word false = (m.inc F.CHU_ECC_CORRECTED 1 0 u).fault (srcTsram u) kCorrected i :=
  ⟨_, rfl⟩

theorem tileSramError_double (m : Mach) (u word : Nat) :
    ∃ i, m.tileSramError u word true = ((m.inc F.CHU_ECC_UNCORRECTED 1 0 u).uncorrectable u).fault (srcTsram u) kFailed i := ⟨_, rfl⟩

/-- The launch that runs on the tile, if there is one, has ended. -/
theorem uncorrectable_spec (m : Mach) (u : Nat) :
    OnlyRegs churnKey m (m.uncorrectable u) ∧ (m.uncorrectable u).chu.scrub = m.chu.scrub ∧
      ∀ l, m.launchOn u = some l → (m.uncorrectable u).HasLaunch (endedLaunch l (some (stUncorrectable, 0))) ∧
        ∀ i ∈ tilesOf l.mask, (m.uncorrectable u).bit F.CHU_TILE_STATUS_BUSY 0 i = false := by
  unfold uncorrectable
  cases hl : m.launchOn u with
  | none => exact ⟨.refl _ m, rfl, nofun⟩
  | some l =>
    obtain ⟨hend, hidle⟩ := m.launchEnd_spec l (some (stUncorrectable, 0))
    refine ⟨(m.setLaunch_onlyRegs _ _).trans hend.only, hend.scrub, ?_⟩
    rintro _ ⟨⟩
    exact ⟨launchEnd_hasLaunch (launchOn_some hl).1 _, hidle⟩

end Mach

/-- Keys of the registers that an error of a tile's SRAM may write. -/
abbrev sramErrorKey (u k : Nat) : Prop := fltKey k ∨ churnKey k ∨ k = keyOf F.CHU_ECC_CORRECTED 0 u

theorem sramErrorKey_of_tileFaultKey {u k : Nat} (h : tileFaultKey k) : sramErrorKey u k := h.elim .inl fun hc => .inr (.inl hc)

section
variable {c : Instr} {s : State} {f : Mach → Mach} {m : Mach} {t u word : Nat} (hc : Sys2Proof.Machine.exec c s = commit s (fun m => (m.advance t).engines f))
  (hi : s.m.Inv) (hr : s.m.Running) (hu : u < 64) (hm : OnlyRegs (fun _ => False) s.m m)
include hc hi hr hu hm

/-- A command that brings a single-bit error, after changes of no register and of no store. -/
theorem runs_sramSingle (hx : f (s.m.advance t) = m.tileSramError u word false) :
    Runs c s fun n =>
      n.get F.CHU_ECC_CORRECTED 0 u = min (s.m.get F.CHU_ECC_CORRECTED 0 u + 1) (2 ^ F.CHU_ECC_CORRECTED.wd - 1) ∧
      n.get F.FLT_SRC_EVENTS 0 (srcTsram u) = min (s.m.get F.FLT_SRC_EVENTS 0 (srcTsram u) + 1) (2 ^ F.FLT_SRC_EVENTS.wd - 1) ∧
      n.chu.scrub = m.chu.scrub ∧ Frame (sramErrorKey u) s.m n := by
  obtain ⟨i, herror⟩ := m.tileSramError_single u word
  obtain ⟨h64, h192⟩ := srcTsram_bounds hu
  have hold : ∀ (g : Fld) (e : Nat), m.get g 0 e = s.m.get g 0 e := fun g e => hm.regs.get id
  set x := m.inc F.CHU_ECC_CORRECTED 1 0 u
  have hcount : x.get F.CHU_ECC_CORRECTED 0 u = min (s.m.get F.CHU_ECC_CORRECTED 0 u + 1) (2 ^ F.CHU_ECC_CORRECTED.wd - 1) :=
    (Mach.get_inc_same m _ _ _ _ (by decide)).trans (by rw [hold])
  have hevents : x.get F.FLT_SRC_EVENTS 0 (srcTsram u) = s.m.get F.FLT_SRC_EVENTS 0 (srcTsram u) := (Mach.get_set_of_addr m (by decide)).trans (hold _ _)
  have hregs : RegsBut (sramErrorKey u) s.m x := (hm.regs.mono fun _ => False.elim).inc (.inr (.inr rfl))
  refine runs_of_tileFault hc hi hr (hx.trans herror) h64 h192 hm.variant hm.downs hm.tileDowns fun n hn hreg => ⟨?_, ?_, hn.scrub, ?_⟩
  · exact (Mach.get_congr (hreg _)).trans ((hn.get (by decide) (by decide) (by decide)).trans hcount)
  · exact (Mach.get_congr (hreg _)).trans (hn.events.trans (by rw [hevents]))
  · exact hn.frame hm.variant (hm.wr.trans hi.no_wr) hregs fun _ => sramErrorKey_of_tileFaultKey

/-- A command that brings a double-bit error, after changes of no register and of no store. -/
theorem runs_sramDouble (hx : f (s.m.advance t) = m.tileSramError u word true) :
    Runs c s fun n =>
      n.get F.CHU_ECC_UNCORRECTED 0 u = min (s.m.get F.CHU_ECC_UNCORRECTED 0 u + 1) (2 ^ F.CHU_ECC_UNCORRECTED.wd - 1) ∧
      (∀ l, m.launchOn u = some l →
        n.launch? l.uid = some (endedLaunch l (some (stUncorrectable, 0))) ∧ ∀ i ∈ Mach.tilesOf l.mask, n.bit F.CHU_TILE_STATUS_BUSY 0 i = false) ∧
      n.chu.scrub = m.chu.scrub ∧ Frame (sramErrorKey u) s.m n := by
  obtain ⟨i, herror⟩ := m.tileSramError_double u word
  obtain ⟨h64, h192⟩ := srcTsram_bounds hu
  set y := m.inc F.CHU_ECC_UNCORRECTED 1 0 u
  set x := y.uncorrectable u
  obtain ⟨honly, hscrub, hends⟩ := y.uncorrectable_spec u
  have hcount : x.get F.CHU_ECC_UNCORRECTED 0 u = min (s.m.get F.CHU_ECC_UNCORRECTED 0 u + 1) (2 ^ F.CHU_ECC_UNCORRECTED.wd - 1) :=
    calc x.get F.CHU_ECC_UNCORRECTED 0 u = y.get F.CHU_ECC_UNCORRECTED 0 u :=
          honly.regs.get fun hk => not_tileFaultKey (f := F.CHU_ECC_UNCORRECTED) (by decide) (by decide) (by decide) (.inr hk)
      _ = min (m.get F.CHU_ECC_UNCORRECTED 0 u + 1) (2 ^ F.CHU_ECC_UNCORRECTED.wd - 1) := Mach.get_inc_same m _ _ _ _ (by decide)
      _ = _ := by rw [hm.regs.get id]
  have hy : RegsBut (sramErrorKey u) s.m y := (hm.regs.mono fun _ => False.elim).inc (.inr (.inr rfl))
  have hregs : RegsBut (sramErrorKey u) s.m x := fun k hk => (honly.regs k fun hc => hk (.inr (.inl hc))).trans (hy k hk)
  refine runs_of_tileFault hc hi hr (hx.trans herror) h64 h192 (honly.variant.trans hm.variant) (honly.downs.trans hm.downs) (honly.tileDowns.trans hm.tileDowns)
    fun n hn hreg => ⟨?_, fun l hl => ?_, hn.scrub.trans hscrub, ?_⟩
  · exact (Mach.get_congr (hreg _)).trans ((hn.get (by decide) (by decide) (by decide)).trans hcount)
  · obtain ⟨hlaunch, hidle⟩ := hends l hl
    exact ⟨(hn.launches _ hlaunch (by simp)).launch?, fun j hj => (Mach.bit_congr (hreg _)).trans (hn.idle j (hidle j hj))⟩
  · exact hn.frame (honly.variant.trans hm.variant) (honly.wr.trans (hm.wr.trans hi.no_wr)) hregs fun _ => sramErrorKey_of_tileFaultKey

end

/-! ## The scrubber (R204) -/

/-- The scrubber of a tile goes to its next word. -/
def Mach.scrubbed (m : Mach) (u : Nat) : Mach := m.putChu { m.chu with scrub := alPut m.chu.scrub u (((alGet m.chu.scrub u).getD 0 + 1) % 131072) }

theorem tileScrub_idle {m : Mach} {u : Nat} (bits : Nat) (hu : u < 64) (he : m.bit F.CHU_CTL_SCRUB_EN = true) (hb : m.bit F.CHU_TILE_STATUS_BUSY 0 u = false) :
    m.tileScrub u bits = if bits = 0 then m.scrubbed u else (m.scrubbed u).tileSramError u ((alGet m.chu.scrub u).getD 0) (decide (2 ≤ bits)) := by
  rw [Mach.tileScrub, if_neg (by simp [he, hb, Nat.not_le.2 hu])]
  rfl

/-- An idle tile is scrubbed: a sound word, one with a single-bit error, one with more. -/
theorem runs_tileSramScrub {s : State} {t u bits w : Nat} (hi : s.m.Inv) (hr : s.m.Running) (hu : u < 64) (he : s.m.bit F.CHU_CTL_SCRUB_EN = true)
    (hb : s.m.bit F.CHU_TILE_STATUS_BUSY 0 u = false) (hw : w = (alGet s.m.chu.scrub u).getD 0) :
    Runs (.tileSramScrub t u bits) s fun n =>
      alGet n.chu.scrub u = some ((w + 1) % 131072) ∧
      (bits = 0 → n.chu.launches = s.m.chu.launches ∧ Frame (fun _ => False) s.m n) ∧
      (bits = 1 → n.get F.CHU_ECC_CORRECTED 0 u = min (s.m.get F.CHU_ECC_CORRECTED 0 u + 1) (2 ^ F.CHU_ECC_CORRECTED.wd - 1)) ∧
      (2 ≤ bits → n.get F.CHU_ECC_UNCORRECTED 0 u = min (s.m.get F.CHU_ECC_UNCORRECTED 0 u + 1) (2 ^ F.CHU_ECC_UNCORRECTED.wd - 1)) ∧
      Frame (sramErrorKey u) s.m n := by
  subst hw
  have hx := tileScrub_idle (m := s.m.advance t) bits hu he hb
  set m := (s.m.advance t).scrubbed u
  have hm : OnlyRegs (fun _ => False) s.m m := ⟨rfl, rfl, rfl, rfl, fun _ _ => rfl⟩
  have hword : ∀ {n : Mach}, n.chu.scrub = m.chu.scrub → alGet n.chu.scrub u = some (((alGet s.m.chu.scrub u).getD 0 + 1) % 131072) := fun hn => by
    rw [hn]
    exact alGet_alPut_same _ _ _
  obtain rfl | rfl | hbits : bits = 0 ∨ bits = 1 ∨ 2 ≤ bits := by omega
  · refine runs_of_engines (f := fun m => m.tileScrub u 0) rfl hi hr hx (x := m) ⟨rfl, rfl, rfl, rfl, fun _ _ => rfl⟩ fun hframe _ =>
      ⟨hword rfl, fun _ => ⟨rfl, hframe⟩, nofun, by omega, hframe.1.mono fun _ => False.elim, hframe.2⟩
  · refine runs_imp (runs_sramSingle (f := fun m => m.tileScrub u 1) rfl hi hr hu hm hx) fun n ⟨hcount, _, hscrub, hframe⟩ =>
      ⟨hword hscrub, nofun, fun _ => hcount, by omega, hframe⟩
  · rw [if_neg (by omega), decide_eq_true hbits] at hx
    exact runs_imp (runs_sramDouble (f := fun m => m.tileScrub u bits) rfl hi hr hu hm hx) fun n ⟨hcount, _, hscrub, hframe⟩ =>
      ⟨hword hscrub, by omega, by omega, fun _ => hcount, hframe⟩

/-! ## Clears (R203) -/

namespace Mach

/-- The clear `c` of tile SRAM as it ends. -/
def clearEnded (m : Mach) (c : Nat × Nat × Nat) : Mach :=
  let y := m.wrZero .tsram (c.1 * 2 ^ 20 + c.2.1) c.2.2
  let left := y.chu.sram.flatMap fun r =>
    if r.1 = c.1 ∧ overlaps r.2.1 r.2.2.1 c.2.1 c.2.2 then (rangeMinus r.2.1 r.2.2.1 c.2.1 c.2.2).map (fun q => (c.1, q.1, q.2, r.2.2.2)) else [r]
  y.putChu { y.chu with clears := y.chu.clears.erase c, sram := left }

theorem sramCleared_eq {m : Mach} {u lo len : Nat} (h : m.chu.clears.find? (fun c => c.1 == u) = some (u, lo, len)) :
    m.sramCleared u = if (m.clearEnded (u, lo, len)).sramClearing u then m.clearEnded (u, lo, len) else (m.clearEnded (u, lo, len)).set F.CHU_TILE_STATUS_CLEARING 0 0 u := by
  rw [sramCleared, h]
  rfl

/-- The range is zero, its clear is no longer listed, and CLEARING goes with the last clear of the tile. -/
theorem sramCleared_spec {m : Mach} {u lo len : Nat} (h : m.chu.clears.find? (fun c => c.1 == u) = some (u, lo, len)) :
    let x := m.sramCleared u
    x.chu.clears = m.chu.clears.erase (u, lo, len) ∧ x.wr = .zero .tsram (u * 2 ^ 20 + lo) len :: m.wr ∧
      (x.sramClearing u = false → x.bit F.CHU_TILE_STATUS_CLEARING 0 u = false) ∧ RegsBut (fun k => k = keyOf F.CHU_TILE_STATUS_CLEARING 0 u) m x ∧
      x.variant = m.variant ∧ x.downs = m.downs ∧ x.tileDowns = m.tileDowns := by
  intro x
  have hx : x = _ := sramCleared_eq h
  have hregs : RegsBut (fun k => k = keyOf F.CHU_TILE_STATUS_CLEARING 0 u) m (m.clearEnded (u, lo, len)) := fun _ _ => rfl
  rw [hx]
  split <;> rename_i hc
  · exact ⟨rfl, rfl, fun hn => absurd (hc.symm.trans hn) nofun, hregs, rfl, rfl, rfl⟩
  · exact ⟨rfl, rfl, fun _ => bit_set_same _ F.CHU_TILE_STATUS_CLEARING false 0 u (by decide) rfl, hregs.set rfl, rfl, rfl, rfl⟩

end Mach

/-- The oldest clear of a tile ends. -/
theorem runs_tileSramClear {s : State} {t u lo len : Nat} (hi : s.m.Inv) (hr : s.m.Running) (h : s.m.chu.clears.find? (fun c => c.1 == u) = some (u, lo, len)) :
    Runs (.tileSramClear t u) s fun n =>
      n.chu.clears = s.m.chu.clears.erase (u, lo, len) ∧ (∀ a, u * 2 ^ 20 + lo ≤ a → a < u * 2 ^ 20 + lo + len → memGet n.tsram a = 0) ∧
      (n.sramClearing u = false → n.bit F.CHU_TILE_STATUS_CLEARING 0 u = false) ∧
      StoresBut .tsram (u * 2 ^ 20 + lo) len s.m n ∧ RegsBut (fun k => k = keyOf F.CHU_TILE_STATUS_CLEARING 0 u) s.m n := by
  obtain ⟨hclears, hwr, hflag, hregs, hv, hd, ht⟩ := Mach.sramCleared_spec (m := s.m.advance t) h
  set x := (s.m.advance t).sramCleared u
  have hx : (s.m.advance t).engines (fun m => m.sramCleared u) = x := Mach.engines_of_running (m := s.m.advance t) hr _
  have hzero : x.wr = [.zero .tsram (u * 2 ^ 20 + lo) len] := hwr.trans (congrArg _ hi.no_wr)
  have hreg : ∀ k, (settle s.m x).reg k = x.reg k := fun k => settle_reg s.m x k hv
  have hread : ∀ a, memGet (settle s.m x).tsram a = if u * 2 ^ 20 + lo ≤ a ∧ a < u * 2 ^ 20 + lo + len then 0 else memGet s.m.tsram a := fun a => by
    rw [settle_tsram, hzero]
    exact memGet_memZero _ _ _ _
  refine runs_of_commit (f := fun m => (m.advance t).engines (fun m => m.sramCleared u)) rfl hi ?_ ?_ ?_ <;> rw [hx]
  · exact hd.trans hi.no_downs
  · exact ht.trans hi.no_tileDowns
  · refine ⟨hclears, fun a hlo hhi => (hread a).trans (if_pos ⟨hlo, hhi⟩), fun hn => (Mach.bit_congr (hreg _)).trans (hflag hn), fun st a ha => ?_,
      fun k hk => (hreg k).trans (hregs k hk)⟩
    cases st with
    | tsram => exact (hread a).trans (if_neg (by simp at ha; omega))
    | peat => simp [Mach.base, hzero, MemOp.apply]
    | cream => simp [Mach.base, hzero, MemOp.apply]
    | flash => simp [Mach.base, hzero, MemOp.apply]

/-! ## Seeds (R194) -/

theorem seedWrite_spec (m : Mach) (u : Nat) (lo w : Word) :
    let x := m.seedWrite u lo.toNat w.toNat
    x.get64 F.CHU_SEED_LO 0 u = lo.toNat + w.toNat * 2 ^ 32 ∧ x.get F.CHU_LAUNCH_CTR_L 0 u = 0 ∧
      OnlyRegs (fun k => k = keyOf F.CHU_SEED_LO 0 u ∨ k = keyOf F.CHU_SEED_LO 0 u + 4 ∨ k = keyOf F.CHU_LAUNCH_CTR_L 0 u) m x := by
  intro x
  have hlo := lo.isLt
  have hhi := w.isLt
  have hne : keyOf F.CHU_SEED_LO 0 u ≠ keyOf F.CHU_LAUNCH_CTR_L 0 u ∧ keyOf F.CHU_SEED_LO 0 u + 4 ≠ keyOf F.CHU_LAUNCH_CTR_L 0 u := by
    simp only [keyOf, Mach.fkey, regKey]
    omega
  refine ⟨?_, (Mach.get_set_same _ _ _ _ _ (by decide)).trans (Nat.zero_mod _), ⟨rfl, rfl, rfl, rfl, ?_⟩⟩
  · calc x.get64 F.CHU_SEED_LO 0 u = (m.set64 F.CHU_SEED_LO (lo.toNat + w.toNat * 2 ^ 32) 0 u).get64 F.CHU_SEED_LO 0 u := by
          simp only [x, Mach.seedWrite, Mach.get64, Mach.set_reg_ne _ hne.1, Mach.set_reg_ne _ hne.2]
      _ = (lo.toNat + w.toNat * 2 ^ 32) % 2 ^ 64 := Mach.get64_set64_same _ _ _ _ _
      _ = _ := Nat.mod_eq_of_lt (by omega)
  · exact ((RegsBut.refl _ m).set64 (.inl rfl) (.inr (.inl rfl))).set (.inr (.inr rfl))

/-- A write of CHU_SEED_HI by the steward, or by a herd that owns the tile. -/
theorem runs_seedWrite {s : State} {v : Via} {w lo : Word} {u : Nat} (hi : s.m.Inv) (ha : s.m.Admits v F.CHU_SEED_HI.addr) (hu : u = s.m.getV v F.CHU_TILE_SEL_TILE)
    (hown : ∀ h, v.page = some h → s.m.tileOwned h u = true)
    (hlo : lo = (alGet s.m.shadow (viaKey v F.CHU_SEED_LO)).getD (s.m.reg (keyOf F.CHU_SEED_LO 0 u))) :
    Runs (.seedWrite v w) s fun n =>
      n.get64 F.CHU_SEED_LO 0 u = lo.toNat + w.toNat * 2 ^ 32 ∧ n.get F.CHU_LAUNCH_CTR_L 0 u = 0 ∧
      Frame (fun k => k = keyOf F.CHU_SEED_LO 0 u ∨ k = keyOf F.CHU_SEED_LO 0 u + 4 ∨ k = keyOf F.CHU_LAUNCH_CTR_L 0 u) s.m n := by
  subst hu hlo
  set u := s.m.getV v F.CHU_TILE_SEL_TILE
  set m := s.m.putShadow (alDel s.m.shadow (viaKey v F.CHU_SEED_LO))
  obtain ⟨hseed, hctr, honly⟩ := seedWrite_spec m u ((alGet s.m.shadow (viaKey v F.CHU_SEED_LO)).getD (s.m.reg (keyOf F.CHU_SEED_LO 0 u))) w
  refine runs_of_onlyRegs (rfl : execSeedWrite v w s = commit s _) hi ?_
    (⟨honly.variant, honly.wr, honly.downs, honly.tileDowns, honly.regs⟩ : OnlyRegs _ s.m _) fun hframe hreg => ⟨?_, (Mach.get_congr (hreg _)).trans hctr, hframe⟩
  · refine (Mach.gate_of_admits ha _).trans ?_
    cases hp : v.page with
    | none => rfl
    | some h => exact if_pos (hown h hp)
  · rw [← hseed]
    simp only [Mach.get64, hreg]

/-- Settles O21: the write of a seed, the two detections of a launch, an error of a tile's SRAM as the tile and as the scrubber find it, and the end of a clear. -/
theorem tileCommands : Obligations.TileCommands := by
  unfold Obligations.TileCommands
  refine ⟨fun s v w lo u hi ha hu hown hlo => runs_seedWrite hi ha hu hown hlo, fun s t u l hi hr hu hl => ?_, fun s t u word hi hr hu => ⟨?_, ?_⟩,
    fun s t u bits w hi hr hu he hb hw => runs_tileSramScrub hi hr hu he hb hw, fun s t u lo len hi hr h => runs_tileSramClear hi hr h⟩
  · obtain ha | ha := Bool.eq_false_or_eq_true l.again
    · exact runs_imp (runs_detect_second hi hr hu hl ha) fun n hn => ⟨fun hf => (nomatch ha.symm.trans hf), fun _ => hn⟩
    · exact runs_imp (runs_detect_first hi hr hu hl ha) fun n hn => ⟨fun _ => hn, fun hf => (nomatch ha.symm.trans hf)⟩
  · have hm : OnlyRegs (fun _ => False) s.m (s.m.advance t) := ⟨rfl, rfl, rfl, rfl, fun _ _ => rfl⟩
    exact runs_imp (runs_sramSingle (f := fun m => if u < 64 then m.tileSramError u word false else m) rfl hi hr hu hm (if_pos hu))
      fun n ⟨hcount, hevents, _, hframe⟩ => ⟨hcount, hevents, hframe⟩
  · have hm : OnlyRegs (fun _ => False) s.m (s.m.advance t) := ⟨rfl, rfl, rfl, rfl, fun _ _ => rfl⟩
    exact runs_imp (runs_sramDouble (f := fun m => if u < 64 then m.tileSramError u word true else m) rfl hi hr hu hm (if_pos hu))
      fun n ⟨hcount, hends, _, hframe⟩ => ⟨hcount, hends, hframe⟩

end Sys2Proof.Machine
end


section
/-! SUPPORT. What the commands of Churn use of other units and leave of its own: updates of Churn and of registers alone, translations, reads and outcomes of descriptors
(08_churn_programs.md R213, R223, R224; 06_translation_windows.md R156 to R163; 05_queues_descriptors.md R145). -/
namespace Sys2Proof.Machine

/-! ## Updates of Churn and of registers alone -/

/-- `x` is `m` with another state of Churn and other values in registers that `K` names. -/
structure InChurn (K : Nat → Prop) (m x : Mach) : Prop where
  file : x = (m.putChu x.chu).putRegs x.regs
  regs : RegsBut K m x

namespace InChurn

variable {K L : Nat → Prop} {m x y : Mach}

theorem refl (K : Nat → Prop) (m : Mach) : InChurn K m m := ⟨rfl, .refl K m⟩

theorem trans (h : InChurn K m x) (g : InChurn K x y) : InChurn K m y :=
  ⟨g.file.trans (congrArg (fun z => (z.putChu y.chu).putRegs y.regs) h.file :), fun k hk => (g.regs k hk).trans (h.regs k hk)⟩

theorem mono (h : InChurn K m x) (hKL : ∀ k, K k → L k) : InChurn L m x := ⟨h.file, h.regs.mono hKL⟩

theorem putChu (h : InChurn K m x) (c : ChuSt) : InChurn K m (x.putChu c) := h.trans ⟨rfl, fun _ _ => rfl⟩

theorem setReg (h : InChurn K m x) {k : Nat} (w : Word) (hk : K k) : InChurn K m (x.setReg k w) := h.trans ⟨rfl, (RegsBut.refl K x).setReg w hk⟩

theorem set (h : InChurn K m x) {f : Fld} {v i s : Nat} (hk : K (keyOf f i s)) : InChurn K m (x.set f v i s) := h.setReg _ hk

theorem ite {c : Prop} [Decidable c] (h : InChurn K m x) (g : InChurn K m y) : InChurn K m (if c then x else y) := by
  split <;> assumption

theorem foldl {α : Type} {g : Mach → α → Mach} {l : List α} (h : ∀ z, ∀ a ∈ l, InChurn K z (g z a)) (m : Mach) : InChurn K m (l.foldl g m) :=
  List.foldlRecOn (motive := InChurn K m) l g (.refl K m) fun _ hz a ha => hz.trans (h _ a ha)

theorem only (h : InChurn K m x) : OnlyRegs K m x := by
  refine ⟨?_, ?_, ?_, ?_, h.regs⟩ <;> rw [h.file] <;> rfl

theorem qe (h : InChurn K m x) : x.qe = m.qe := by
  rw [h.file]
  rfl

theorem evq (h : InChurn K m x) : x.evq = m.evq := by
  rw [h.file]
  rfl

theorem base (h : InChurn K m x) : x.base = m.base := by
  rw [h.file]
  rfl

end InChurn

/-! ## Translations and reads leave Churn as it was (R224) -/

/-- From `x` to `y` ranges were translated or read: what a translation leaves, Churn among it. -/
structure Translated (x y : Mach) : Prop where
  touch : XltTouch x y
  chu : y.chu = x.chu

namespace Translated

variable {x y z : Mach}

theorem refl (x : Mach) : Translated x x := ⟨.refl x, rfl⟩

theorem trans (h : Translated x y) (g : Translated y z) : Translated x z := ⟨h.touch.trans g.touch, g.chu.trans h.chu⟩

theorem putFreeCtr (x : Mach) (c : Nat) : Translated x (x.putFreeCtr c) := ⟨⟨rfl, rfl, rfl, rfl, rfl, rfl, rfl, fun _ _ => rfl⟩, rfl⟩

theorem readSegs {d : List Byte} {segs : List Seg} (h : x.readSegs segs = (y, d)) : Translated x y := by
  obtain ⟨c, hc⟩ := x.readSegs_eq segs
  rw [h] at hc
  rw [show y = x.putFreeCtr c from hc]
  exact putFreeCtr x c

end Translated

theorem Walked.chu {x y : Mach} (h : Walked x y) : y.chu = x.chu := by
  obtain ⟨c, k, e⟩ := h.file
  rw [e]
  rfl

namespace Mach

theorem walkFail_chu (m : Mach) (h a va unit status reason lvl acc : Nat) : (m.walkFail h a va unit status reason lvl acc).chu = m.chu := by
  unfold walkFail
  extract_lets y
  have hy : y.chu = m.chu := by
    simp only [y]
    split
    · rfl
    · simp only [set64_chu, set_chu]
  exact (FaultTouch.fault y _ _ _).chu.trans hy

theorem leafCheck_chu {m n : Mach} {h a acc unit lvl : Nat} {s : Seg} {o : Option (Nat × Nat)} (hc : m.leafCheck h a acc unit lvl s = (n, o)) : n.chu = m.chu := by
  unfold leafCheck at hc
  split at hc
  · extract_lets y at hc
    cases hc
    have hy : y.chu = m.chu := by
      simp only [y]
      split
      · exact walkFail_chu m _ _ _ _ _ _ _ _
      · rfl
    split
    · exact hy
    · exact hy
  · split at hc <;> cases hc <;> rfl

theorem tilePages_chu (m : Mach) (h a acc unit fuel va len : Nat) : (m.tilePages h a acc unit fuel va len).1.chu = m.chu := by
  fun_induction tilePages m h a acc unit fuel va len with
  | case1 | case2 => rfl
  | case3 m fuel va len hl n st r lvl acc' hw => exact (walkFail_chu n _ _ _ _ _ _ _ _).trans (walk_walked hw).chu
  | case4 m fuel va len hl n e lvl hw s z err hc => exact (leafCheck_chu hc).trans (walk_walked hw).chu
  | case5 m fuel va len hl n e lvl hw s z hc w r ht ih => exact Eq.trans (by rwa [ht] at ih) ((leafCheck_chu hc).trans (walk_walked hw).chu)
  | case6 m fuel va len hl n e lvl hw s z hc ht ih => exact ih.trans ((leafCheck_chu hc).trans (walk_walked hw).chu)

/-- The check of one stream of a launch (R224): in memory or in Cream, read, written or both. -/
def streamTile (m : Mach) (h a unit : Nat) (mem inp out : Bool) (va len : Nat) : Mach × Except (Nat × Nat) (List Seg) :=
  if mem then
    match m.tile h a (if inp then accRead else accWrite) unit va len with
    | (m, .error e) => (m, .error e)
    | (m, .ok segs) =>
      if inp ∧ out then
        match m.tile h a accWrite unit va len with
        | (m, .error e) => (m, .error e)
        | (m, .ok _) => (m, .ok segs)
      else (m, .ok segs)
  else (m, m.creamTile h va len)

end Mach

namespace Translated

variable {x y : Mach}

theorem tile {h a acc unit va len : Nat} {r : Except (Nat × Nat) (List Seg)} (ht : x.tile h a acc unit va len = (y, r)) : Translated x y := by
  refine ⟨Mach.tile_to ht, ?_⟩
  have hc := x.tilePages_chu h a acc unit (len / 4096 + 2) va len
  rw [Mach.tile] at ht
  rwa [ht] at hc

theorem readVa {h a unit va n : Nat} {r : Except (Nat × Nat) (List Byte)} (hr : x.readVa h a unit va n = (y, r)) : Translated x y := by
  unfold Mach.readVa at hr
  split at hr <;> rename_i ht
  · cases hr
    exact tile ht
  · split at hr
    rename_i hs
    cases hr
    exact (tile ht).trans (readSegs hs)

/-- A memory stream is translated for reading or writing, and one both read and written for writing too; a Cream stream is checked alone. -/
theorem stream {h a unit va len : Nat} {mem inp out : Bool} {r : Except (Nat × Nat) (List Seg)} (hs : x.streamTile h a unit mem inp out va len = (y, r)) :
    Translated x y := by
  unfold Mach.streamTile at hs
  split at hs
  · split at hs <;> rename_i ht
    · cases hs
      exact tile ht
    · split at hs
      · split at hs <;> rename_i hw <;> cases hs
        · exact (tile ht).trans (tile hw)
        · exact (tile ht).trans (tile hw)
      · cases hs
        exact tile ht
  · cases hs
    exact refl x

/-- The streams of a launch are checked in order. -/
theorem streamChecks {h a unit : Nat} {ss : List (Bool × Bool × Bool × Nat × Nat × Nat)} {r : Except (Nat × Nat) (List (List Seg × Nat))}
    (hs : x.streamChecks h a unit ss = (y, r)) : Translated x y := by
  induction ss generalizing x y r with
  | nil =>
    cases hs
    exact refl x
  | cons s ss ih =>
    obtain ⟨mem, inp, out, va, len, maxLen⟩ := s
    unfold Mach.streamChecks at hs
    dsimp only at hs
    split at hs
    · cases hs
      exact refl x
    · split at hs <;> rename_i hone
      · cases hs
        exact stream (hone : x.streamTile h a unit mem inp out va len = _)
      · have hx := stream (hone : x.streamTile h a unit mem inp out va len = _)
        split at hs <;> rename_i hrest <;> cases hs
        · exact hx.trans (ih hrest)
        · exact hx.trans (ih hrest)

end Translated

/-! ## Outcomes of descriptors (05_queues_descriptors.md R145) -/

theorem Mach.Finished.of_qe {m y z : Mach} {k uid : Nat} {c : Comp} (h : m.Finished y k uid c) (hq : z.qe = y.qe) : m.Finished z k uid c := by
  simpa only [Mach.Finished, Mach.sq, hq] using h

theorem Mach.Finished.from_qe {m m' y : Mach} {k uid : Nat} {c : Comp} (h : m'.Finished y k uid c) (hq : m'.qe = m.qe) : m.Finished y k uid c := by
  simpa only [Mach.Finished, Mach.sq, hq] using h

end Sys2Proof.Machine
end


section
/-! SUPPORT and proof of O22: LOAD, the load checks and UNLOAD of user programs (08_churn_programs.md R213 to R215, R218; 14_herds.md R358). -/
namespace Sys2Proof.Machine

theorem mem_of_alGet {α : Type} {l : List (Nat × α)} {a : Nat} {v : α} (h : alGet l a = some v) : (a, v) ∈ l := by
  induction l with
  | nil => cases h
  | cons p r ih =>
    obtain ⟨k, w⟩ := p
    rw [alGet] at h
    split at h <;> rename_i hk
    · cases h
      exact hk ▸ List.mem_cons_self
    · exact List.mem_cons_of_mem _ (ih h)

namespace Mach

/-! ## The program table (R213) -/

theorem prog_setProg_same (m : Mach) (e : Nat) (x : ProgEnt) : (m.setProg e x).prog e = some x := alGet_alPut_same _ _ _

theorem prog_setProg_ne (m : Mach) {i e : Nat} (x : ProgEnt) (h : i ≠ e) : (m.setProg e x).prog i = m.prog i := alGet_alPut_ne _ _ h

theorem prog_congr {m x : Mach} (h : x.chu = m.chu) (e : Nat) : x.prog e = m.prog e := by rw [prog, h, prog]

/-- An entry that is CHECKING makes the table BUSY. -/
theorem progBusy_of_checking {m : Mach} {e : Nat} {x : ProgEnt} (h : m.prog e = some x) (hx : x.state = 1) : m.progBusy = true :=
  List.any_eq_true.2 ⟨(e, x), mem_of_alGet h, beq_iff_eq.2 hx⟩

theorem progState_user (m : Mach) {e : Nat} (h : 64 ≤ e) : m.progState e = ((m.prog e).map (fun x => x.state)).getD 0 := if_neg (by omega)

theorem bit_set_apart (m : Mach) {f g : Fld} {v i s j u : Nat} (hk : fkey g j u = fkey f i s) (h : f.lo + f.wd ≤ 32)
    (ha : g.lo + g.wd ≤ f.lo ∨ f.lo + f.wd ≤ g.lo) : (m.set f v i s).bit g j u = m.bit g j u := by
  rw [bit, get_set_apart m hk h ha, bit]

/-- Whether a key is that of the status of entry `e`. -/
abbrev progStatusKey (e k : Nat) : Prop := k = keyOf F.CHU_PROG_STATUS_STATE 0 e

/-- A refused command shows its reason and status, and nothing else changes (R214). -/
theorem progRefuse_spec (m : Mach) (e r st : Nat) :
    let x := m.progRefuse e r st
    x.bit F.CHU_PROG_STATUS_REFUSED 0 e = true ∧ x.get F.CHU_PROG_STATUS_REASON 0 e = r % 2 ^ 8 ∧ x.get F.CHU_PROG_STATUS_STATUS 0 e = st % 2 ^ 8 ∧
      x.get F.CHU_PROG_STATUS_STATE 0 e = m.get F.CHU_PROG_STATUS_STATE 0 e ∧ InChurn (progStatusKey e) m x := by
  set a := (m.set F.CHU_PROG_STATUS_DONE 0 0 e).set F.CHU_PROG_STATUS_REFUSED 1 0 e with ha
  set b := a.set F.CHU_PROG_STATUS_REASON r 0 e with hb
  have hin : InChurn (progStatusKey e) m ((a.set F.CHU_PROG_STATUS_REASON r 0 e).set F.CHU_PROG_STATUS_STATUS st 0 e) :=
    ((((InChurn.refl _ m).set (by rfl)).set (by rfl)).set (by rfl)).set (by rfl)
  refine ⟨?_, ?_, get_set_same b _ _ _ _ (by decide), ?_, hin⟩
  · calc (b.set F.CHU_PROG_STATUS_STATUS st 0 e).bit F.CHU_PROG_STATUS_REFUSED 0 e = b.bit F.CHU_PROG_STATUS_REFUSED 0 e := bit_set_apart b rfl (by decide) (by decide)
      _ = a.bit F.CHU_PROG_STATUS_REFUSED 0 e := bit_set_apart a rfl (by decide) (by decide)
      _ = true := bit_set_same _ _ true _ _ (by decide) rfl
  · calc (b.set F.CHU_PROG_STATUS_STATUS st 0 e).get F.CHU_PROG_STATUS_REASON 0 e = b.get F.CHU_PROG_STATUS_REASON 0 e := get_set_apart b rfl (by decide) (by decide)
      _ = r % 2 ^ 8 := get_set_same a _ _ _ _ (by decide)
  · calc (b.set F.CHU_PROG_STATUS_STATUS st 0 e).get F.CHU_PROG_STATUS_STATE 0 e = b.get F.CHU_PROG_STATUS_STATE 0 e := get_set_apart b rfl (by decide) (by decide)
      _ = a.get F.CHU_PROG_STATUS_STATE 0 e := get_set_apart a rfl (by decide) (by decide)
      _ = (m.set F.CHU_PROG_STATUS_DONE 0 0 e).get F.CHU_PROG_STATUS_STATE 0 e := get_set_apart _ rfl (by decide) (by decide)
      _ = m.get F.CHU_PROG_STATUS_STATE 0 e := get_set_apart m rfl (by decide) (by decide)

theorem progRefuse_chu (m : Mach) (e r st : Nat) : (m.progRefuse e r st).chu = m.chu := rfl

/-- What an entry shows of itself: its state, its herd and the tiles that it may take. -/
def progShown (m : Mach) (e st h tiles : Nat) : Mach :=
  ((m.set F.CHU_PROG_STATUS_STATE st 0 e).set F.CHU_PROG_INFO_HERD h 0 e).set F.CHU_PROG_INFO_TILES_MAX tiles 0 e

theorem progShown_chu (m : Mach) (e st h tiles : Nat) : (m.progShown e st h tiles).chu = m.chu := rfl

/-- Keys of the status and the description of entry `e`. -/
abbrev progShownKey (e k : Nat) : Prop := k = keyOf F.CHU_PROG_STATUS_STATE 0 e ∨ k = keyOf F.CHU_PROG_INFO_HERD 0 e

theorem progShown_spec (m : Mach) (e st h tiles : Nat) :
    let x := m.progShown e st h tiles
    x.get F.CHU_PROG_STATUS_STATE 0 e = st % 8 ∧ x.get F.CHU_PROG_INFO_HERD 0 e = h % 256 ∧
      x.bit F.CHU_PROG_STATUS_DONE 0 e = m.bit F.CHU_PROG_STATUS_DONE 0 e ∧ InChurn (progShownKey e) m x := by
  set a := m.set F.CHU_PROG_STATUS_STATE st 0 e with ha
  set b := a.set F.CHU_PROG_INFO_HERD h 0 e with hb
  have hin : InChurn (progShownKey e) m (b.set F.CHU_PROG_INFO_TILES_MAX tiles 0 e) :=
    (((InChurn.refl _ m).set (by exact .inl rfl)).set (by exact .inr rfl)).set (by exact .inr rfl)
  refine ⟨?_, ?_, ?_, hin⟩
  · calc (b.set F.CHU_PROG_INFO_TILES_MAX tiles 0 e).get F.CHU_PROG_STATUS_STATE 0 e = b.get F.CHU_PROG_STATUS_STATE 0 e := get_set_of_addr b (by decide)
      _ = a.get F.CHU_PROG_STATUS_STATE 0 e := get_set_of_addr a (by decide)
      _ = st % 8 := get_set_same m _ _ _ _ (by decide)
  · calc (b.set F.CHU_PROG_INFO_TILES_MAX tiles 0 e).get F.CHU_PROG_INFO_HERD 0 e = b.get F.CHU_PROG_INFO_HERD 0 e := get_set_apart b rfl (by decide) (by decide)
      _ = h % 256 := get_set_same a _ _ _ _ (by decide)
  · calc (b.set F.CHU_PROG_INFO_TILES_MAX tiles 0 e).bit F.CHU_PROG_STATUS_DONE 0 e = b.bit F.CHU_PROG_STATUS_DONE 0 e := bit_set_of_addr b (by decide)
      _ = a.bit F.CHU_PROG_STATUS_DONE 0 e := bit_set_of_addr a (by decide)
      _ = m.bit F.CHU_PROG_STATUS_DONE 0 e := bit_set_apart m rfl (by decide) (by decide)

/-- CHU_STORE counts what the table holds. -/
theorem storeSync_inChurn (m : Mach) : InChurn (fun k => k = keyOf F.CHU_STORE_FREE_KIB) m m.storeSync :=
  ((InChurn.refl _ m).set (by rfl)).set (by rfl)

theorem storeSync_chu (m : Mach) : m.storeSync.chu = m.chu := rfl

theorem storeSync_get (m : Mach) {f : Fld} {e : Nat} (h : (f.addr + f.step * 0) % regSpan ≠ F.CHU_STORE_FREE_KIB.addr) : m.storeSync.get f 0 e = m.get f 0 e :=
  m.storeSync_inChurn.regs.get (fkey_ne_of_addr e 0 h)

/-- The key of a herd's use of programs (14_herds.md R352). -/
theorem keyOf_progUse (h : Nat) : keyOf F.QE_HERD_USE 5 h = F.QE_HERD_USE.addr + 4 * resProgs.word + regSpan * h := rfl

theorem setUsed_progs_inChurn (m : Mach) (h n : Nat) : InChurn (fun k => k = keyOf F.QE_HERD_USE 5 h) m (m.setUsed h resProgs n) := (InChurn.refl _ m).setReg _ (keyOf_progUse h).symm

/-- The entry leaves the table, and its use goes back to its herd unless it was still CHECKING (R213). -/
def progGone (m : Mach) (e : Nat) (p : ProgEnt) : Mach :=
  let y := if p.state = 1 then m else m.giveBack p.herd resProgs 1
  y.putChu { y.chu with progs := alDel y.chu.progs e }

theorem progEmpty_eq {m : Mach} {e : Nat} {p : ProgEnt} (hp : m.prog e = some p) : m.progEmpty e = ((m.progGone e p).progShown e 0 0 0).storeSync := by
  rw [progEmpty, hp]
  rfl

theorem progGone_spec (m : Mach) (e : Nat) (p : ProgEnt) :
    (m.progGone e p).prog e = none ∧ (m.progGone e p).chu.launches = m.chu.launches ∧
      InChurn (fun k => p.state ≠ 1 ∧ k = keyOf F.QE_HERD_USE 5 p.herd) m (m.progGone e p) := by
  refine ⟨alGet_alDel_same _ _, ?_, ?_⟩
  · unfold progGone
    split <;> rfl
  · unfold progGone
    refine InChurn.putChu ?_ _
    split <;> rename_i h
    · exact .refl _ m
    · exact (setUsed_progs_inChurn m p.herd _).mono fun _ hk => ⟨h, hk⟩

/-- An entry is emptied (R213). -/
theorem progEmpty_spec {m : Mach} {e : Nat} {p : ProgEnt} (hp : m.prog e = some p) :
    let x := m.progEmpty e
    x.prog e = none ∧ x.get F.CHU_PROG_STATUS_STATE 0 e = 0 ∧ x.bit F.CHU_PROG_STATUS_DONE 0 e = m.bit F.CHU_PROG_STATUS_DONE 0 e ∧
      x.chu.launches = m.chu.launches ∧ InChurn (progKey e p.herd) m x := by
  obtain ⟨hgone, hlaunches, hin⟩ := m.progGone_spec e p
  set y := m.progGone e p
  obtain ⟨hstate, -, hdone, hshown⟩ := y.progShown_spec e 0 0 0
  have hbit : y.bit F.CHU_PROG_STATUS_DONE 0 e = m.bit F.CHU_PROG_STATUS_DONE 0 e := bit_congr (hin.regs _ fun hk => fkey_ne_of_addr e p.herd (by decide) hk.2)
  have hchu : (m.progEmpty e).chu = y.chu := by rw [progEmpty_eq hp, storeSync_chu, progShown_chu]
  refine ⟨(prog_congr hchu e).trans hgone, ?_, ?_, (congrArg ChuSt.launches hchu).trans hlaunches, ?_⟩ <;> rw [progEmpty_eq hp]
  · exact (storeSync_get _ (by decide)).trans hstate
  · rw [bit, storeSync_get _ (by decide), ← bit]
    exact hdone.trans hbit
  · refine ((hin.mono fun _ hk => ?_).trans (hshown.mono fun _ hk => ?_)).trans ((storeSync_inChurn _).mono fun _ hk => ?_)
    · exact .inr (.inr (.inr hk.2))
    · exact hk.elim .inl fun h => .inr (.inl h)
    · exact .inr (.inr (.inl hk))

/-- A DRAINING entry without launches is emptied; else nothing changes (R213). -/
theorem progDrained_spec (m : Mach) (e : Nat) :
    ∃ h, InChurn (progKey e h) m (m.progDrained e) ∧ (m.progDrained e).chu.launches = m.chu.launches := by
  unfold progDrained
  split
  · rename_i hdrain
    cases hp : m.prog e with
    | none => exact absurd hdrain.1 (by simp only [progState, hp]; split <;> decide)
    | some p =>
      obtain ⟨-, -, -, hlaunches, hin⟩ := progEmpty_spec hp
      exact ⟨p.herd, hin, hlaunches⟩
  · exact ⟨0, .refl _ m, rfl⟩

/-- The last command on an entry completed. -/
theorem progDone_spec (m : Mach) (e : Nat) :
    let x := m.cmdDone F.CHU_PROG_STATUS_DONE F.CHU_PROG_STATUS_REFUSED e
    x.bit F.CHU_PROG_STATUS_DONE 0 e = true ∧ x.bit F.CHU_PROG_STATUS_REFUSED 0 e = false ∧
      x.get F.CHU_PROG_STATUS_STATE 0 e = m.get F.CHU_PROG_STATUS_STATE 0 e ∧ InChurn (progStatusKey e) m x := by
  set a := m.set F.CHU_PROG_STATUS_DONE 1 0 e with ha
  have hin : InChurn (progStatusKey e) m (a.set F.CHU_PROG_STATUS_REFUSED 0 0 e) := ((InChurn.refl _ m).set (by rfl)).set (by rfl)
  refine ⟨?_, bit_set_same a _ false _ _ (by decide) rfl, ?_, hin⟩
  · calc (a.set F.CHU_PROG_STATUS_REFUSED 0 0 e).bit F.CHU_PROG_STATUS_DONE 0 e = a.bit F.CHU_PROG_STATUS_DONE 0 e := bit_set_apart a rfl (by decide) (by decide)
      _ = true := bit_set_same m _ true _ _ (by decide) rfl
  · calc (a.set F.CHU_PROG_STATUS_REFUSED 0 0 e).get F.CHU_PROG_STATUS_STATE 0 e = a.get F.CHU_PROG_STATUS_STATE 0 e := get_set_apart a rfl (by decide) (by decide)
      _ = m.get F.CHU_PROG_STATUS_STATE 0 e := get_set_apart m rfl (by decide) (by decide)

/-! ## LOAD and its checks (R213, R215) -/

/-- LOAD of an empty entry begins its checks. -/
theorem progLoad_empty {m : Mach} {e : Nat} (he : 64 ≤ e) (hp : m.prog e = none) (hb : m.progBusy = false) (h ctx asid va : Nat) :
    ∃ y img bad, Translated m y ∧
      m.progLoad e h ctx asid va = (y.setProg e { herd := h, state := 1, image := img, bad := bad }).set F.CHU_PROG_STATUS_STATE 1 0 e := by
  have hidle : ¬ (m.progBusy = true ∨ m.progState e ≠ 0) := by simp [hb, m.progState_user he, hp]
  unfold progLoad
  rw [if_neg (Nat.not_lt.2 he), if_neg hidle]
  obtain ⟨y, r, hhead⟩ : ∃ y r, m.readVa ctx asid srcQe va 256 = (y, r) := ⟨_, _, rfl⟩
  have hy := Translated.readVa hhead
  rw [hhead]
  cases r with
  | error f => exact ⟨y, _, _, hy, rfl⟩
  | ok hd =>
    dsimp only
    split
    · exact ⟨y, _, _, hy, rfl⟩
    · obtain ⟨z, q, hbody⟩ : ∃ z q, y.readVa ctx asid srcQe va (leAt hd 8 4) = (z, q) := ⟨_, _, rfl⟩
      have hz := hy.trans (Translated.readVa hbody)
      rw [hbody]
      cases q with
      | error f => exact ⟨z, _, _, hz, rfl⟩
      | ok d => exact ⟨z, _, _, hz, rfl⟩

/-- Every reason that checks give lies below `b`. -/
def ReasonsBelow (b : Nat) (o : Option (Nat × Nat)) : Prop := ∀ p ∈ o, p.1 < b

theorem ReasonsBelow.ite {b r st : Nat} {c : Prop} [Decidable c] {o : Option (Nat × Nat)} (hr : r < b) (h : ReasonsBelow b o) :
    ReasonsBelow b (if c then some (r, st) else o) := by
  split
  · rintro p ⟨⟩
    exact hr
  · exact h

/-- The load checks have ten reasons (R215). -/
theorem loadCheck_reasons (m : Mach) (e : Nat) (x : ProgEnt) : ReasonsBelow 11 (m.loadCheck e x) := by
  unfold loadCheck
  extract_lets img len secs inside has streams costs shapes args
  split
  · rintro p ⟨⟩
    exact (by decide : 1 < 11)
  · refine .ite (by decide) <| .ite (by decide) <| .ite (by decide) <| .ite (by decide) <| .ite (by decide) <| .ite (by decide) <| .ite (by decide) <|
      .ite (by decide) <| .ite (by decide) <| .ite (by decide) nofun

/-- A check fails: the entry is emptied and the command refused. -/
theorem progChecked_failed {m : Mach} {e r st : Nat} {x : ProgEnt} (hp : m.prog e = some x) (hx : x.state = 1) (hc : m.loadCheck e x = some (r, st)) :
    ∃ y, InChurn (fun k => k = keyOf F.CHU_PROG_INFO_HERD 0 e) m y ∧ y.chu = m.chu ∧ m.progChecked e = (y.progEmpty e).progRefuse e r st := by
  have hchecked : ∃ d, m.progChecked e = ((if r = 9 then m.set F.CHU_PROG_INFO_MATCH d 0 e else m).progEmpty e).progRefuse e r st :=
    ⟨_, by simp only [progChecked, hp, hx, hc]; rfl⟩
  obtain ⟨d, hd⟩ := hchecked
  refine ⟨_, .ite ((InChurn.refl _ m).set (by rfl)) (.refl _ m), ?_, hd⟩
  split <;> rfl

/-- The entry is LOADED and counts against its herd. -/
def progLoaded (m : Mach) (e : Nat) (x : ProgEnt) : Mach :=
  ((((m.setProg e { x with state := 2 }).take x.herd resProgs 1).progShown e 2 x.herd (progTilesMax x.image)).cmdDone F.CHU_PROG_STATUS_DONE F.CHU_PROG_STATUS_REFUSED e).storeSync

theorem progChecked_passed {m : Mach} {e : Nat} {x : ProgEnt} (hp : m.prog e = some x) (hx : x.state = 1) (hc : m.loadCheck e x = none) :
    m.progChecked e = m.progLoaded e x := by
  simp only [progChecked, hp, hx, hc]
  rfl

theorem progLoaded_spec (m : Mach) (e : Nat) {x : ProgEnt} (hh : x.herd < 256) :
    let y := m.progLoaded e x
    y.prog e = some { x with state := 2 } ∧ y.get F.CHU_PROG_STATUS_STATE 0 e = 2 ∧ y.bit F.CHU_PROG_STATUS_DONE 0 e = true ∧
      y.bit F.CHU_PROG_STATUS_REFUSED 0 e = false ∧ y.get F.CHU_PROG_INFO_HERD 0 e = x.herd ∧ y.used x.herd resProgs = (m.used x.herd resProgs + 1) % 1024 ∧
      InChurn (progKey e x.herd) m y := by
  set a := m.setProg e { x with state := 2 } with ha
  set b := a.take x.herd resProgs 1 with hb
  set c := b.progShown e 2 x.herd (progTilesMax x.image) with hc
  set d := c.cmdDone F.CHU_PROG_STATUS_DONE F.CHU_PROG_STATUS_REFUSED e with hd
  obtain ⟨hstate, hherd, -, hshown⟩ := b.progShown_spec e 2 x.herd (progTilesMax x.image)
  obtain ⟨hdone, hrefused, hkeep, hstatus⟩ := c.progDone_spec e
  have htake : InChurn (fun k => k = keyOf F.QE_HERD_USE 5 x.herd) a b := setUsed_progs_inChurn _ _ _
  have hsync := d.storeSync_inChurn
  have huse : ∀ {K : Nat → Prop} {p q : Mach}, InChurn K p q → ¬ K (keyOf F.QE_HERD_USE 5 x.herd) → q.used x.herd resProgs = p.used x.herd resProgs :=
    fun h hk => used_congr (by decide) (h.regs _ hk)
  refine ⟨?_, ?_, ?_, ?_, ?_, ?_, ?_⟩
  · have hchu : d.storeSync.chu = a.chu := d.storeSync_chu.trans rfl
    exact (prog_congr hchu e).trans (m.prog_setProg_same e _)
  · exact (storeSync_get d (by decide)).trans (hkeep.trans hstate)
  · exact (bit_congr (hsync.regs _ (fkey_ne_of_addr e 0 (by decide)))).trans hdone
  · exact (bit_congr (hsync.regs _ (fkey_ne_of_addr e 0 (by decide)))).trans hrefused
  · refine (storeSync_get d (by decide)).trans ((hstatus.regs.get (fkey_ne_of_addr e e (by decide))).trans (hherd.trans (Nat.mod_eq_of_lt hh)))
  · calc d.storeSync.used x.herd resProgs = d.used x.herd resProgs := huse hsync (fkey_ne_of_addr x.herd 0 (by decide))
      _ = c.used x.herd resProgs := huse hstatus (fkey_ne_of_addr x.herd e (by decide))
      _ = b.used x.herd resProgs := huse hshown fun hk => hk.elim (fkey_ne_of_addr x.herd e (by decide)) (fkey_ne_of_addr x.herd e (by decide))
      _ = (a.used x.herd resProgs + 1) % 2 ^ resProgs.wd := used_setUsed_same a _ _ (by decide) (by decide)
      _ = (m.used x.herd resProgs + 1) % 1024 := rfl
  · have hprog : InChurn (progKey e x.herd) m a := (InChurn.refl _ m).putChu _
    exact (((hprog.trans (htake.mono fun _ hk => .inr (.inr (.inr hk)))).trans (hshown.mono fun _ hk => hk.elim .inl fun h => .inr (.inl h))).trans
      (hstatus.mono fun _ hk => .inl hk)).trans (hsync.mono fun _ hk => .inr (.inr (.inl hk)))

/-! ## UNLOAD (R213, R214) -/

/-- The entry is DRAINING, and its UNLOAD done. -/
def progDraining (m : Mach) (e : Nat) (x : ProgEnt) : Mach :=
  (((m.setProg e { x with state := 3 }).set F.CHU_PROG_STATUS_STATE 3 0 e).cmdDone F.CHU_PROG_STATUS_DONE F.CHU_PROG_STATUS_REFUSED e).storeSync

theorem progUnload_loaded {m : Mach} {e : Nat} {x : ProgEnt} (he : 64 ≤ e) (hp : m.prog e = some x) (hx : x.state = 2) (hb : m.progBusy = false)
    (hn : m.progNamed e = false) : m.progUnload e = (m.progDraining e x).progDrained e := by
  have hgo : ¬ (m.progBusy = true ∨ m.progState e ≠ 2) := by simp [hb, m.progState_user he, hp, hx]
  rw [progUnload, if_neg (Nat.not_lt.2 he), if_neg hgo, if_neg (by simp [hn]), hp]
  rfl

theorem progUnload_named {m : Mach} {e : Nat} {x : ProgEnt} (he : 64 ≤ e) (hp : m.prog e = some x) (hx : x.state = 2) (hb : m.progBusy = false)
    (hn : m.progNamed e = true) : m.progUnload e = m.progRefuse e 0x0C stUnsupported := by
  have hgo : ¬ (m.progBusy = true ∨ m.progState e ≠ 2) := by simp [hb, m.progState_user he, hp, hx]
  rw [progUnload, if_neg (Nat.not_lt.2 he), if_neg hgo, if_pos hn]

theorem progDraining_spec (m : Mach) (e : Nat) (x : ProgEnt) :
    let y := m.progDraining e x
    y.prog e = some { x with state := 3 } ∧ y.get F.CHU_PROG_STATUS_STATE 0 e = 3 ∧ y.bit F.CHU_PROG_STATUS_DONE 0 e = true ∧
      y.progRuns e = m.progRuns e ∧ InChurn (progKey e x.herd) m y := by
  set a := (m.setProg e { x with state := 3 }).set F.CHU_PROG_STATUS_STATE 3 0 e with ha
  set b := a.cmdDone F.CHU_PROG_STATUS_DONE F.CHU_PROG_STATUS_REFUSED e with hb
  obtain ⟨hdone, -, hkeep, hstatus⟩ := a.progDone_spec e
  have hsync := b.storeSync_inChurn
  have hchu : b.storeSync.chu = (m.setProg e { x with state := 3 }).chu := b.storeSync_chu.trans rfl
  have hin : InChurn (progKey e x.herd) m a := ((InChurn.refl _ m).putChu _).set (by exact .inl rfl)
  refine ⟨?_, ?_, ?_, ?_, ?_⟩
  · exact (prog_congr hchu e).trans (m.prog_setProg_same e _)
  · exact (storeSync_get b (by decide)).trans (hkeep.trans (get_set_same _ _ _ _ _ (by decide)))
  · exact (bit_congr (hsync.regs _ (fkey_ne_of_addr e 0 (by decide)))).trans hdone
  · rw [progRuns, show (m.progDraining e x).chu = _ from hchu]
    rfl
  · exact (hin.trans (hstatus.mono fun _ hk => .inl hk)).trans (hsync.mono fun _ hk => .inr (.inr (.inl hk)))

/-- The entry drains while its launches run, and is emptied where none does. -/
theorem progUnloaded_spec (m : Mach) {e : Nat} (he : 64 ≤ e) (x : ProgEnt) :
    let y := (m.progDraining e x).progDrained e
    y.bit F.CHU_PROG_STATUS_DONE 0 e = true ∧
      (m.progRuns e = true → y.prog e = some { x with state := 3 } ∧ y.get F.CHU_PROG_STATUS_STATE 0 e = 3) ∧
      (m.progRuns e = false → y.prog e = none ∧ y.get F.CHU_PROG_STATUS_STATE 0 e = 0) ∧ InChurn (progKey e x.herd) m y := by
  obtain ⟨hprog, hstate, hdone, hruns, hin⟩ := m.progDraining_spec e x
  set y := m.progDraining e x
  have hdrain : y.progState e = 3 := by rw [progState_user y he, hprog]; rfl
  unfold progDrained
  by_cases hr : m.progRuns e = true
  · rw [if_neg (by simp [hruns, hr])]
    exact ⟨hdone, fun _ => ⟨hprog, hstate⟩, fun hf => absurd (hr.symm.trans hf) nofun, hin⟩
  · have hr' : m.progRuns e = false := Bool.eq_false_of_not_eq_true hr
    obtain ⟨hgone, hzero, hkept, -, hempty⟩ := progEmpty_spec hprog
    rw [if_pos ⟨hdrain, hruns.trans hr'⟩]
    exact ⟨hkept.trans hdone, fun ht => absurd ht hr, fun _ => ⟨hgone, hzero⟩, hin.trans hempty⟩

end Mach

/-! ## The commands -/

/-- A refused command on an entry. -/
theorem runs_progRefused {c : Instr} {s : State} {f : Mach → Mach} {e r st : Nat} (hc : Sys2Proof.Machine.exec c s = commit s f) (hi : s.m.Inv)
    (hx : f s.m = s.m.progRefuse e r st) (hr : r < 256) :
    Runs c s fun n =>
      n.bit F.CHU_PROG_STATUS_REFUSED 0 e = true ∧ n.get F.CHU_PROG_STATUS_REASON 0 e = r ∧ n.chu = s.m.chu ∧
      Frame (fun k => k = keyOf F.CHU_PROG_STATUS_STATE 0 e) s.m n := by
  obtain ⟨hrefused, hreason, -, -, hin⟩ := s.m.progRefuse_spec e r st
  exact runs_of_onlyRegs hc hi hx hin.only fun hframe hreg =>
    ⟨(Mach.bit_congr (hreg _)).trans hrefused, (Mach.get_congr (hreg _)).trans (hreason.trans (Nat.mod_eq_of_lt hr)), rfl, hframe⟩

/-- A command of CHU_PROG_CMD acts on the entry selected, where the page's herd, if there is one, may name it. -/
theorem Mach.progCmd_admitted {m : Mach} {v : Via} {e : Nat} (ha : m.Admits v F.CHU_PROG_CMD_OP.addr) (he : e = m.getV v F.CHU_PROG_SEL_PROGRAM)
    (hown : ∀ h, v.page = some h → 64 ≤ e ∧ ((m.prog e).map (fun x => x.herd != h)).getD false = false) (f : Mach → Nat → Mach) : m.progCmd v f = f m e := by
  subst he
  rw [Mach.progCmd, Mach.gate_of_admits ha]
  cases hp : v.page with
  | none => rfl
  | some h =>
    obtain ⟨h64, hherd⟩ := hown h hp
    exact if_neg (by simp [hherd, h64])

/-- LOAD goes to the entry selected, for the herd named or for the page's own. -/
theorem Mach.progLoadCmd_admitted {m : Mach} {v : Via} {e : Nat} (ha : m.Admits v F.CHU_PROG_CMD_OP.addr) (he : e = m.getV v F.CHU_PROG_SEL_PROGRAM)
    (hown : ∀ h, v.page = some h → 64 ≤ e ∧ ((m.prog e).map (fun x => x.herd != h)).getD false = false) (value : Nat) :
    ∃ ctx asid va, m.progLoadCmd v value = m.progLoad e (v.page.getD (getBits value 8 8)) ctx asid va := by
  have hgo := fun f => Mach.progCmd_admitted ha he hown f
  unfold Mach.progLoadCmd
  rw [hgo]
  cases v.page with
  | none => exact ⟨_, _, _, rfl⟩
  | some h => exact ⟨_, _, _, rfl⟩

/-- LOAD of an empty entry. -/
theorem runs_programLoad {s : State} {v : Via} {w : Word} {e : Nat} (hi : s.m.Inv) (ha : s.m.Admits v F.CHU_PROG_CMD_OP.addr)
    (he : e = s.m.getV v F.CHU_PROG_SEL_PROGRAM) (h64 : 64 ≤ e) (hp : s.m.prog e = none) (hb : s.m.progBusy = false) :
    Runs (.programLoad v w) s fun n =>
      (∃ x, n.prog e = some x ∧ x.state = 1 ∧ x.herd = v.page.getD (getBits w.toNat 8 8)) ∧ n.get F.CHU_PROG_STATUS_STATE 0 e = 1 ∧ n.progBusy = true ∧
      (∀ i, i ≠ e → n.prog i = s.m.prog i) ∧ SameStores s.m n := by
  obtain ⟨ctx, asid, va, hcmd⟩ := Mach.progLoadCmd_admitted ha he (fun _ _ => ⟨h64, by rw [hp]; rfl⟩) w.toNat
  obtain ⟨y, img, bad, hy, hload⟩ := Mach.progLoad_empty h64 hp hb (v.page.getD (getBits w.toNat 8 8)) ctx asid va
  set p : ProgEnt := { herd := v.page.getD (getBits w.toNat 8 8), state := 1, image := img, bad := bad } with hpdef
  set x := (y.setProg e p).set F.CHU_PROG_STATUS_STATE 1 0 e with hx
  have hset : InChurn (fun _ => True) y x := ((InChurn.refl _ y).putChu _).set trivial
  have honly : OnlyRegs (fun _ => True) s.m x := (hy.touch.only.mono fun _ _ => trivial).trans hset.only
  have hprog : x.prog e = some p := y.prog_setProg_same e p
  refine runs_of_onlyRegs (f := fun m => m.progLoadCmd v w.toNat) rfl hi (hcmd.trans hload) honly fun hframe hreg =>
    ⟨⟨p, hprog, rfl, rfl⟩, ?_, ?_, fun i hne => ?_, hframe.2⟩
  · exact (Mach.get_congr (hreg _)).trans (Mach.get_set_same _ _ _ _ _ (by decide))
  · exact Mach.progBusy_of_checking (x := p) (m := x) hprog rfl
  · exact (y.prog_setProg_ne p hne).trans (Mach.prog_congr hy.chu i)

/-- LOAD of a library entry, and LOAD while BUSY. -/
theorem runs_programLoad_refused {s : State} {v : Via} {w : Word} {e r : Nat} (hi : s.m.Inv) (ha : s.m.Admits v F.CHU_PROG_CMD_OP.addr)
    (he : e = s.m.getV v F.CHU_PROG_SEL_PROGRAM) (hv : v.page = none) (hr : e < 64 ∧ r = 0x0C ∨ 64 ≤ e ∧ s.m.progBusy = true ∧ r = 0x0B) :
    Runs (.programLoad v w) s fun n =>
      n.bit F.CHU_PROG_STATUS_REFUSED 0 e = true ∧ n.get F.CHU_PROG_STATUS_REASON 0 e = r ∧ n.chu = s.m.chu ∧
      Frame (fun k => k = keyOf F.CHU_PROG_STATUS_STATE 0 e) s.m n := by
  obtain ⟨ctx, asid, va, hcmd⟩ := Mach.progLoadCmd_admitted ha he (fun h hh => nomatch hv.symm.trans hh) w.toNat
  have hload : s.m.progLoad e (v.page.getD (getBits w.toNat 8 8)) ctx asid va = s.m.progRefuse e r stUnsupported := by
    rw [Mach.progLoad]
    rcases hr with ⟨h, rfl⟩ | ⟨h, hb, rfl⟩
    · rw [if_pos h]
    · rw [if_neg (Nat.not_lt.2 h), if_pos (.inl hb)]
  exact runs_progRefused (f := fun m => m.progLoadCmd v w.toNat) rfl hi (hcmd.trans hload) (by rcases hr with ⟨-, rfl⟩ | ⟨-, -, rfl⟩ <;> decide)

/-- The first check that fails. -/
theorem runs_programCheck_failed {s : State} {t e r st : Nat} {x : ProgEnt} (hi : s.m.Inv) (hr : s.m.Running) (hp : s.m.prog e = some x) (hx : x.state = 1)
    (hc : s.m.loadCheck e x = some (r, st)) :
    Runs (.programCheckComplete t e) s fun n =>
      n.prog e = none ∧ n.get F.CHU_PROG_STATUS_STATE 0 e = 0 ∧
      n.bit F.CHU_PROG_STATUS_REFUSED 0 e = true ∧ n.get F.CHU_PROG_STATUS_REASON 0 e = r ∧ n.get F.CHU_PROG_STATUS_STATUS 0 e = st % 2 ^ F.CHU_PROG_STATUS_STATUS.wd ∧
      Frame (fun k => progKey e x.herd k) s.m n := by
  obtain ⟨y, hy, hchu, hchecked⟩ := Mach.progChecked_failed (m := s.m.advance t) hp hx hc
  obtain ⟨hgone, hzero, -, -, hempty⟩ := Mach.progEmpty_spec ((Mach.prog_congr hchu e).trans hp)
  obtain ⟨hrefused, hreason, hstatus, hkeep, hin⟩ := (y.progEmpty e).progRefuse_spec e r st
  have hr11 : r < 11 := s.m.loadCheck_reasons e x _ hc
  have hall : InChurn (progKey e x.herd) (s.m.advance t) ((y.progEmpty e).progRefuse e r st) :=
    ((hy.mono fun _ hk => .inr (.inl hk)).trans hempty).trans (hin.mono fun _ hk => .inl hk)
  exact runs_of_engines rfl hi hr hchecked hall.only fun hframe hreg =>
    ⟨(Mach.prog_congr ((settle_chu _ _).trans (Mach.progRefuse_chu _ _ _ _)) e).trans hgone, (Mach.get_congr (hreg _)).trans (hkeep.trans hzero), (Mach.bit_congr (hreg _)).trans hrefused,
      (Mach.get_congr (hreg _)).trans (hreason.trans (Nat.mod_eq_of_lt (by omega))), (Mach.get_congr (hreg _)).trans hstatus, hframe⟩

/-- Every check passes. -/
theorem runs_programCheck_passed {s : State} {t e : Nat} {x : ProgEnt} (hi : s.m.Inv) (hr : s.m.Running) (hp : s.m.prog e = some x) (hx : x.state = 1)
    (hc : s.m.loadCheck e x = none) (hh : x.herd < 256) :
    Runs (.programCheckComplete t e) s fun n =>
      n.prog e = some { x with state := 2 } ∧ n.get F.CHU_PROG_STATUS_STATE 0 e = 2 ∧ n.bit F.CHU_PROG_STATUS_DONE 0 e = true ∧ n.bit F.CHU_PROG_STATUS_REFUSED 0 e = false ∧
      n.get F.CHU_PROG_INFO_HERD 0 e = x.herd ∧ n.used x.herd resProgs = (s.m.used x.herd resProgs + 1) % 1024 ∧
      Frame (fun k => progKey e x.herd k) s.m n := by
  obtain ⟨hprog, hstate, hdone, hrefused, hherd, hused, hin⟩ := (s.m.advance t).progLoaded_spec e hh
  exact runs_of_engines rfl hi hr (Mach.progChecked_passed (m := s.m.advance t) hp hx hc) hin.only fun hframe hreg =>
    ⟨(Mach.prog_congr (settle_chu _ _) e).trans hprog, (Mach.get_congr (hreg _)).trans hstate, (Mach.bit_congr (hreg _)).trans hdone, (Mach.bit_congr (hreg _)).trans hrefused,
      (Mach.get_congr (hreg _)).trans hherd, (Mach.used_congr (by decide) (hreg _)).trans hused, hframe⟩

/-- UNLOAD of an entry that no plan bank names. -/
theorem runs_programUnload {s : State} {v : Via} {e : Nat} {x : ProgEnt} (hi : s.m.Inv) (h64 : 64 ≤ e) (hgo : s.m.progCmd v (fun m e => m.progUnload e) = s.m.progUnload e)
    (hp : s.m.prog e = some x) (hx : x.state = 2) (hb : s.m.progBusy = false) (hn : s.m.progNamed e = false) :
    Runs (.programUnload v) s fun n =>
      n.bit F.CHU_PROG_STATUS_DONE 0 e = true ∧ (s.m.progRuns e = true → n.prog e = some { x with state := 3 } ∧ n.get F.CHU_PROG_STATUS_STATE 0 e = 3) ∧
      (s.m.progRuns e = false → n.prog e = none ∧ n.get F.CHU_PROG_STATUS_STATE 0 e = 0) ∧ Frame (fun k => progKey e x.herd k) s.m n := by
  obtain ⟨hdone, hruns, hidle, hin⟩ := s.m.progUnloaded_spec h64 x
  exact runs_of_onlyRegs (f := fun m => m.progCmd v (fun m e => m.progUnload e)) rfl hi (hgo.trans (Mach.progUnload_loaded h64 hp hx hb hn)) hin.only fun hframe hreg =>
    have hprog := Mach.prog_congr (settle_chu s.m ((s.m.progDraining e x).progDrained e)) e
    ⟨(Mach.bit_congr (hreg _)).trans hdone, fun ht => (hruns ht).imp (hprog.trans ·) ((Mach.get_congr (hreg _)).trans ·),
      fun hf => (hidle hf).imp (hprog.trans ·) ((Mach.get_congr (hreg _)).trans ·), hframe⟩

/-- Settles O22: LOAD of an empty entry and where it is refused, the two ends of the load checks, and UNLOAD of an entry that no plan bank names and of one that a bank names. -/
theorem programTable : Obligations.ProgramTable := by
  unfold Obligations.ProgramTable
  refine ⟨fun s v w e hi ha he => ⟨fun h64 hp hb => runs_programLoad hi ha he h64 hp hb, fun h64 hv => ?_, fun h64 hv hb => ?_⟩,
    fun s t e x hi hr _ hp hx => ⟨fun r st hc => runs_programCheck_failed hi hr hp hx hc, fun hc hh => runs_programCheck_passed hi hr hp hx hc hh⟩,
    fun s v e x hi ha he h64 hp hown => ?_⟩
  · exact runs_programLoad_refused hi ha he hv (.inl ⟨h64, rfl⟩)
  · exact runs_programLoad_refused hi ha he hv (.inr ⟨h64, hb, rfl⟩)
  · have hgo := fun f => Mach.progCmd_admitted ha he (fun h hv => ⟨h64, by simp [hp, hown h hv]⟩) f
    refine ⟨fun hx hb hn => runs_programUnload hi h64 (hgo _) hp hx hb hn, fun hx hb hn => ?_⟩
    exact runs_progRefused (f := fun m => m.progCmd v (fun m e => m.progUnload e)) rfl hi ((hgo _).trans (Mach.progUnload_named h64 hp hx hb hn)) (by decide)

end Sys2Proof.Machine
end


section
/-! SUPPORT. How launches are refused, checked and started (08_churn_programs.md R216, R217, R220, R221, R223, R224). -/
namespace Sys2Proof.Machine

theorem InChurn.polder {K : Nat → Prop} {m x : Mach} (h : InChurn K m x) : x.polder = m.polder := by
  rw [h.file]
  rfl

/-- Registers outside the program table and the use of herds. -/
theorem not_progKey {f : Fld} {i s e h : Nat}
    (hf : (f.addr + f.step * i) % regSpan ∉ [F.CHU_PROG_STATUS_STATE.addr, F.CHU_PROG_INFO_HERD.addr, F.CHU_STORE_FREE_KIB.addr, F.QE_HERD_USE.addr + 20]) :
    ¬ progKey e h (keyOf f i s) := by
  simp only [List.mem_cons, List.not_mem_nil, or_false, not_or] at hf
  obtain ⟨h1, h2, h3, h4⟩ := hf
  rintro (hk | hk | hk | hk)
  · exact Mach.fkey_ne_of_addr s e h1 hk
  · exact Mach.fkey_ne_of_addr s e h2 hk
  · exact Mach.fkey_ne_of_addr s 0 h3 hk
  · exact Mach.fkey_ne_of_addr s h h4 hk

namespace Mach

/-! ## Launches by their numbers -/

theorem launch?_some {m : Mach} {u : Nat} {l : Launch} (h : m.launch? u = some l) : l ∈ m.chu.launches ∧ l.uid = u :=
  ⟨List.mem_of_find?_eq_some h, beq_iff_eq.1 (List.find?_some (p := fun l : Launch => l.uid == u) h)⟩

theorem launch?_congr {m x : Mach} (h : x.chu.launches = m.chu.launches) (u : Nat) : x.launch? u = m.launch? u := by rw [launch?, h, launch?]

theorem onLaunch_of_some {m : Mach} {u : Nat} {l : Launch} (h : m.launch? u = some l) (f : Mach → Launch → Mach) : m.onLaunch u f = f m l := by
  rw [onLaunch, h]

/-- A launch that was dropped is found no more. -/
theorem launch?_filter {m : Mach} {l : List Launch} {u : Nat} (h : m.chu.launches = l.filter (fun x => x.uid != u)) : m.launch? u = none := by
  rw [launch?, h, List.find?_eq_none]
  intro x hx
  simpa using (List.mem_filter.1 hx).2

/-! ## Refusals (R223) -/

/-- An outcome is judged by the queue engine and polder time. -/
theorem complete_qe_congr {m x : Mach} (hq : x.qe = m.qe) (hp : x.polder = m.polder) (k u st b d : Nat) : (x.complete k u st b d).qe = (m.complete k u st b d).qe := by
  simp only [complete, finish, setSq, sq, putQe_qe, hq, hp]

/-- The first refusal of a launch stands captured. -/
def refusalCaptured (m : Mach) (l : Launch) (reason : Nat) : Mach :=
  if m.bit F.CHU_LAUNCH_REFUSE_VALID then m
  else (((m.set F.CHU_LAUNCH_REFUSE_VALID 1).set F.CHU_LAUNCH_REFUSE_PROGRAM l.entry).set F.CHU_LAUNCH_REFUSE_REASON reason).set F.CHU_LAUNCH_REFUSE_HERD l.herd

/-- What CHU_LAUNCH_REFUSE shows in `x` once the refusal of a launch for a reason was captured in `m`. -/
structure Captured (m x : Mach) (l : Launch) (reason : Nat) : Prop where
  valid : x.bit F.CHU_LAUNCH_REFUSE_VALID = true
  first : m.bit F.CHU_LAUNCH_REFUSE_VALID = false →
    x.get F.CHU_LAUNCH_REFUSE_REASON = reason % 2 ^ 8 ∧ x.get F.CHU_LAUNCH_REFUSE_PROGRAM = l.entry % 2 ^ F.CHU_LAUNCH_REFUSE_PROGRAM.wd ∧
      x.get F.CHU_LAUNCH_REFUSE_HERD = l.herd % 2 ^ F.CHU_LAUNCH_REFUSE_HERD.wd
  kept : m.bit F.CHU_LAUNCH_REFUSE_VALID = true → x.reg (keyOf F.CHU_LAUNCH_REFUSE_VALID) = m.reg (keyOf F.CHU_LAUNCH_REFUSE_VALID)

theorem Captured.of_reg {m x y : Mach} {l : Launch} {r : Nat} (h : Captured m x l r) (hy : y.reg (keyOf F.CHU_LAUNCH_REFUSE_VALID) = x.reg (keyOf F.CHU_LAUNCH_REFUSE_VALID)) :
    Captured m y l r := by
  refine ⟨(bit_congr hy).trans h.valid, fun hf => ?_, fun ht => hy.trans (h.kept ht)⟩
  obtain ⟨hr, hp, hh⟩ := h.first hf
  exact ⟨(get_congr (f := F.CHU_LAUNCH_REFUSE_REASON) hy).trans hr, (get_congr (f := F.CHU_LAUNCH_REFUSE_PROGRAM) hy).trans hp,
    (get_congr (f := F.CHU_LAUNCH_REFUSE_HERD) hy).trans hh⟩

theorem refusalCaptured_spec (m : Mach) (l : Launch) (r : Nat) :
    Captured m (m.refusalCaptured l r) l r ∧ InChurn (fun k => k = keyOf F.CHU_LAUNCH_REFUSE_VALID) m (m.refusalCaptured l r) ∧ (m.refusalCaptured l r).chu = m.chu := by
  unfold refusalCaptured
  split <;> rename_i hv
  · exact ⟨⟨hv, fun hf => absurd (hv.symm.trans hf) nofun, fun _ => rfl⟩, .refl _ m, rfl⟩
  · set a := m.set F.CHU_LAUNCH_REFUSE_VALID 1 with ha
    set b := a.set F.CHU_LAUNCH_REFUSE_PROGRAM l.entry with hb
    set c := b.set F.CHU_LAUNCH_REFUSE_REASON r with hc
    have hin : InChurn (fun k => k = keyOf F.CHU_LAUNCH_REFUSE_VALID) m (c.set F.CHU_LAUNCH_REFUSE_HERD l.herd) :=
      ((((InChurn.refl _ m).set (by rfl)).set (by rfl)).set (by rfl)).set (by rfl)
    refine ⟨⟨?_, fun _ => ⟨?_, ?_, get_set_same c _ _ _ _ (by decide)⟩, fun ht => absurd ht hv⟩, hin, rfl⟩
    · calc (c.set F.CHU_LAUNCH_REFUSE_HERD l.herd).bit F.CHU_LAUNCH_REFUSE_VALID = c.bit F.CHU_LAUNCH_REFUSE_VALID := bit_set_apart c rfl (by decide) (by decide)
        _ = b.bit F.CHU_LAUNCH_REFUSE_VALID := bit_set_apart b rfl (by decide) (by decide)
        _ = a.bit F.CHU_LAUNCH_REFUSE_VALID := bit_set_apart a rfl (by decide) (by decide)
        _ = true := bit_set_same m _ true _ _ (by decide) rfl
    · calc (c.set F.CHU_LAUNCH_REFUSE_HERD l.herd).get F.CHU_LAUNCH_REFUSE_REASON = c.get F.CHU_LAUNCH_REFUSE_REASON := get_set_apart c rfl (by decide) (by decide)
        _ = r % 2 ^ 8 := get_set_same b _ _ _ _ (by decide)
    · calc (c.set F.CHU_LAUNCH_REFUSE_HERD l.herd).get F.CHU_LAUNCH_REFUSE_PROGRAM = c.get F.CHU_LAUNCH_REFUSE_PROGRAM := get_set_apart c rfl (by decide) (by decide)
        _ = b.get F.CHU_LAUNCH_REFUSE_PROGRAM := get_set_apart b rfl (by decide) (by decide)
        _ = l.entry % 2 ^ F.CHU_LAUNCH_REFUSE_PROGRAM.wd := get_set_same a _ _ _ _ (by decide)

/-- A launch leaves with the outcome of its descriptor, and its entry drains. -/
def launchGone (m : Mach) (l : Launch) (st detail : Nat) : Mach := ((m.dropLaunch l.uid).complete l.sq l.uid st 0 detail).progDrained l.entry

theorem launchGone_spec (m : Mach) (l : Launch) (st detail : Nat) :
    let x := m.launchGone l st detail
    x.chu.launches = m.chu.launches.filter (fun y => y.uid != l.uid) ∧ x.qe = (m.complete l.sq l.uid st 0 detail).qe ∧
      ∃ h, OnlyRegs (progKey l.entry h) m x := by
  set y := (m.dropLaunch l.uid).complete l.sq l.uid st 0 detail with hy
  obtain ⟨h, hin, hlaunches⟩ := y.progDrained_spec l.entry
  have honly : OnlyRegs (progKey l.entry h) m y := ⟨rfl, rfl, rfl, rfl, fun _ _ => rfl⟩
  exact ⟨hlaunches, hin.qe, h, honly.trans hin.only⟩

theorem launchRefuse_eq (m : Mach) (l : Launch) (r st : Nat) : m.launchRefuse l r st = (m.refusalCaptured l r).launchGone l st 0 := rfl

/-- What a refused launch leaves. -/
theorem launchRefuse_spec (m : Mach) (l : Launch) (r st : Nat) :
    let x := m.launchRefuse l r st
    x.chu.launches = m.chu.launches.filter (fun y => y.uid != l.uid) ∧ x.qe = (m.complete l.sq l.uid st 0 0).qe ∧ Captured m x l r ∧ OnlyRegs (fun _ => True) m x := by
  obtain ⟨hcap, hin, hchu⟩ := m.refusalCaptured_spec l r
  rw [launchRefuse_eq]
  set y := m.refusalCaptured l r with hy
  obtain ⟨hlaunches, hqe, h, honly⟩ := y.launchGone_spec l st 0
  exact ⟨hlaunches.trans (by rw [hchu]), hqe.trans (complete_qe_congr hin.qe hin.polder _ _ _ _ _), hcap.of_reg (honly.regs _ (not_progKey (by decide))),
    (hin.only.mono fun _ _ => trivial).trans (honly.mono fun _ _ => trivial)⟩

end Mach
end Sys2Proof.Machine
end


section
/-! SUPPORT. CHURN_LAUNCH keeps the place of its argument block, for an entry that is LOADED (08_churn_programs.md R216, R223; 05_queues_descriptors.md R139). -/
namespace Sys2Proof.Machine
namespace Mach

theorem progState_congr {m x : Mach} (h : x.chu = m.chu) (e : Nat) : x.progState e = m.progState e := by rw [progState, prog_congr h, progState]

/-- The launch that descriptor `d`, the one of number `u` of a queue of herd `h`, makes of the pieces of its argument block. -/
def launchOf (k : Nat) (d : Desc) (u h : Nat) (segs : List Seg) : Launch where
  uid := u
  sq := k
  herd := h
  asid := d.asid
  entry := d.target
  sched := d.bits 3 0 64 == 0
  argSegs := segs
  args := []
  state := 0
  mask := d.bits 3 0 64
  owner := 0
  streams := []
  cost := 0
  seeds := []
  readyAt := 0
  since := 0
  staged := []
  done := 0
  flags := 0
  kres := 0
  again := false
  fail := none

/-- A launch joins the launches in dispatch order. -/
def launchJoined (m : Mach) (l : Launch) : Mach := m.putChu { m.chu with launches := m.chu.launches ++ [l] }

/-- CHURN_LAUNCH ends with the check of its argument block, is refused for an entry that is not LOADED, or joins the launches. -/
theorem launchBegin_cases (y : Mach) (k : Nat) (d : Desc) (u : Nat) :
    ∃ z, Translated y z ∧ ((∃ st a, y.launchBegin k d u = z.complete k u st 0 a) ∨
      ∃ segs, (z.progState d.target ≠ 2 ∧ y.launchBegin k d u = z.launchRefuse (launchOf k d u (y.sqHerd k) segs) 1 stUnsupported) ∨
        (z.progState d.target = 2 ∧ y.launchBegin k d u = z.launchJoined (launchOf k d u (y.sqHerd k) segs))) := by
  obtain ⟨z, res, ht⟩ : ∃ z res, y.tile (y.sqHerd k) d.asid accRead srcQe (d.bits 2 0 64) d.length = (z, res) := ⟨_, _, rfl⟩
  refine ⟨z, .tile ht, ?_⟩
  unfold launchBegin
  dsimp only
  rw [ht]
  cases res with
  | error e => exact .inl ⟨e.1, e.2, rfl⟩
  | ok segs =>
    refine .inr ⟨segs, ?_⟩
    by_cases hs : z.progState d.target = 2
    · exact .inr ⟨hs, if_neg (not_not_intro hs)⟩
    · exact .inl ⟨hs, if_pos hs⟩

/-- A user program is another herd's before the descriptor has its place and after. -/
theorem progForeign_dispatched {m y : Mach} {k : Nat} {d : Desc} (h : Dispatched m k d y) (j : Nat) : y.progForeign j d = m.progForeign j d := by
  obtain ⟨q, r, hy⟩ := h.file
  have hchu : y.chu = m.chu := by rw [hy]; rfl
  rw [progForeign, prog_congr hchu, sqHerd_dispatched h, progForeign]

/-- What CHURN_LAUNCH leaves once its descriptor has its place. -/
theorem launchBegin_spec {m y : Mach} {k : Nat} {d : Desc} (h : Dispatched m k d y) (hlt : ∀ o ∈ (m.sq k).out, o.uid < m.qe.nextUid) :
    let x := y.launchBegin k d m.qe.nextUid
    OnlyRegs (fun _ => True) m x ∧
      ∃ c, m.Placed x k d c ∧ (m.progState d.target ≠ 2 → c.isSome = true) ∧ (∀ a, c = some a → ∀ l ∈ x.chu.launches, l ∈ m.chu.launches) ∧
        (c = none → ∃ segs, x.chu.launches = m.chu.launches ++ [launchOf k d m.qe.nextUid (m.sqHerd k) segs]) := by
  obtain ⟨q, r, hfile⟩ := h.file
  obtain ⟨z, hz, hcases⟩ := y.launchBegin_cases k d m.qe.nextUid
  have hchu : z.chu = m.chu := hz.chu.trans (by rw [hfile]; rfl)
  have honly : OnlyRegs (fun _ => True) m z := (h.only.mono fun _ _ => trivial).trans (hz.touch.only.mono fun _ _ => trivial)
  have hplaced : m.Placed z k d none := h.placed.of_qe hz.touch.qe
  obtain ⟨st, a, he⟩ | ⟨segs, ⟨hs, he⟩ | ⟨hs, he⟩⟩ := hcases
  · rw [he]
    exact ⟨honly.trans ⟨rfl, rfl, rfl, rfl, fun _ _ => rfl⟩, _, hplaced.finish hlt _, fun _ => rfl, fun _ _ l hl => hchu ▸ hl, nofun⟩
  · rw [he]
    obtain ⟨hlaunches, hqe, -, hrefused⟩ := z.launchRefuse_spec (launchOf k d m.qe.nextUid (y.sqHerd k) segs) 1 stUnsupported
    refine ⟨honly.trans hrefused, _, (hplaced.finish hlt _).of_qe hqe, fun _ => rfl, fun _ _ l hl => ?_, nofun⟩
    rw [hlaunches] at hl
    exact hchu ▸ List.mem_of_mem_filter hl
  · rw [he]
    refine ⟨honly.trans ⟨rfl, rfl, rfl, rfl, fun _ _ => rfl⟩, none, hplaced.of_qe rfl, fun hne => absurd ((progState_congr hchu _).symm.trans hs) hne, nofun,
      fun _ => ⟨segs, ?_⟩⟩
    rw [← sqHerd_dispatched h, ← hchu]
    rfl

end Mach

/-- CHURN_LAUNCH, from its dispatch on. -/
theorem runs_churnLaunch {s : State} {t k : Nat} {d : Desc} (hi : s.m.Inv) (hd : (s.m.advance t).Dispatches k d (s.m.progForeign k d)) (hop : d.opcode = 0x28) :
    Runs (.churnLaunch t k) s fun n =>
      ∃ c, (s.m.advance t).Placed n k d c ∧ (s.m.progState d.target ≠ 2 → c.isSome = true) ∧ (∀ x, c = some x → ∀ l ∈ n.chu.launches, l ∈ s.m.chu.launches) ∧
        (c = none → ∃ l, n.chu.launches = s.m.chu.launches ++ [l] ∧ l.uid = s.m.qe.nextUid ∧ l.sq = k ∧ l.herd = s.m.sqHerd k ∧ l.asid = d.asid ∧ l.entry = d.target ∧
          l.state = 0 ∧ l.mask = d.bits 3 0 64 ∧ l.sched = (d.bits 3 0 64 == 0)) ∧ SameStores s.m n := by
  obtain ⟨y, hy, hrun⟩ := Mach.dispatch_runs (foreign := fun m d => m.progForeign k d) (row := fun d => d.opcode == 0x28) (fun m d u => m.launchBegin k d u) hd
    (beq_iff_eq.2 hop) fun y hy => Mach.progForeign_dispatched hy k
  obtain ⟨-, -, -, -, -, -, hlt⟩ := hd
  obtain ⟨honly, c, hplaced, hbound, hsub, hjoin⟩ := Mach.launchBegin_spec hy hlt
  refine runs_of_onlyRegs (f := fun m => (m.advance t).dispatch k (fun d => d.opcode == 0x28) (fun m d => m.progForeign k d) (fun m d u => m.launchBegin k d u)) rfl hi hrun
    honly.advance fun hframe _ => ?_
  have hlaunches := congrArg ChuSt.launches (settle_chu s.m (y.launchBegin k d (s.m.advance t).qe.nextUid))
  refine ⟨c, hplaced.of_qe rfl, hbound, fun x hx l hl => hsub x hx l (hlaunches ▸ hl), fun hc => ?_, hframe.2⟩
  obtain ⟨segs, hsegs⟩ := hjoin hc
  exact ⟨_, hlaunches.trans hsegs, rfl, rfl, rfl, rfl, rfl, rfl, rfl, rfl⟩

end Sys2Proof.Machine
end

section
/-! SUPPORT. The argument block of a launch is read, and its checks are made (08_churn_programs.md R216, R223, R224). -/
namespace Sys2Proof.Machine
namespace Mach

/-- A result of the checks of R223: a failure's reason lies below 8, and a launch that passes is bound to the tiles of `mask`. -/
def CheckEnds (mask : Nat) : Except (Nat × Nat) (Nat × Option ProgRec) → Prop
  | .error e => e.1 < 8
  | .ok b => b.1 = mask

theorem CheckEnds.ite {mask r st : Nat} {c : Prop} [Decidable c] {o : Except (Nat × Nat) (Nat × Option ProgRec)} (hr : r < 8) (h : CheckEnds mask o) :
    CheckEnds mask (if c then .error (r, st) else o) := by
  split
  · exact hr
  · exact h

/-- The checks of R223 have seven reasons before those of the streams; an unscheduled launch names its own tiles. -/
theorem launchCheck_ends (m : Mach) {l : Launch} (n : Nat) (args : List Byte) :
    ∃ mask, (l.sched = false → mask = l.mask) ∧ CheckEnds mask (m.launchCheck l n args) := by
  unfold launchCheck
  extract_lets e lib img rec' need usesMode mask t
  refine ⟨mask, fun hs => by simp [mask, hs], ?_⟩
  split
  exact .ite (by decide) <| .ite (by decide) <| .ite (by decide) <| .ite (by decide) <| .ite (by decide) <| .ite (by decide) <| .ite (by decide) rfl

theorem launchCheck_error {m : Mach} {l : Launch} {n r st : Nat} {args : List Byte} (h : m.launchCheck l n args = .error (r, st)) : r < 8 := by
  obtain ⟨mask, -, hends⟩ := m.launchCheck_ends (l := l) n args
  rwa [h] at hends

theorem launchCheck_ok {m : Mach} {l : Launch} {n mask : Nat} {rec' : Option ProgRec} {args : List Byte} (hs : l.sched = false)
    (h : m.launchCheck l n args = .ok (mask, rec')) : mask = l.mask := by
  obtain ⟨mask', hmask, hends⟩ := m.launchCheck_ends (l := l) n args
  rw [h] at hends
  exact Eq.trans hends (hmask hs)

theorem launchArgs_refused {m m' : Mach} {l : Launch} {r st : Nat} {args : List Byte} (hread : m.readSegs l.argSegs = (m', args))
    (hc : m'.launchCheck l args.length args = .error (r, st)) : m.launchArgs l = m'.launchRefuse l r st := by
  simp only [launchArgs, hread, hc]

/-- The launch once its argument block is checked and its streams are translated. -/
def launchReady (l : Launch) (args : List Byte) (mask owner : Nat) (streams : List (List Seg × Nat)) (cost : Nat) (at' : DWord) : Launch :=
  { l with args := args, state := 1, mask := mask, owner := owner, streams := streams, cost := cost, readyAt := at' }

/-- An unscheduled launch whose streams pass is READY. -/
theorem launchArgs_ready {m m' m'' : Mach} {l : Launch} {mask : Nat} {rec' : Option ProgRec} {streams : List (List Seg × Nat)} {args : List Byte} (hs : l.sched = false)
    (hread : m.readSegs l.argSegs = (m', args)) (hc : m'.launchCheck l args.length args = .ok (mask, rec'))
    (hstreams : m'.streamChecks l.herd l.asid (srcTile ((tilesOf mask).headD 0)) (m'.launchStreams l.entry args) = (m'', .ok streams)) :
    ∃ owner cost, m.launchArgs l = m''.setLaunch (launchReady l args mask owner streams cost m''.polder) := by
  simp only [launchArgs, launchReady, hread, hc, hstreams, hs, Bool.false_and, Bool.false_eq_true, false_and, if_false]
  exact ⟨_, _, rfl⟩

end Mach

/-- A launch whose checks fail: the first refusal is captured, and the descriptor completes. -/
theorem runs_launchArgs_refused {s : State} {t u r st : Nat} {l : Launch} {m' : Mach} {args : List Byte} (hi : s.m.Inv) (hr : s.m.Running) (hl : s.m.launch? u = some l)
    (hl0 : l.state = 0) (hread : (s.m.advance t).readSegs l.argSegs = (m', args)) (hc : m'.launchCheck l args.length args = .error (r, st)) :
    Runs (.launchArgsRead t u) s fun n =>
      n.launch? u = none ∧ s.m.Finished n l.sq l.uid { status := st, bytes := 0, deadline := false, time := (s.m.advance t).polder.toNat, detail := 0 } ∧
      n.bit F.CHU_LAUNCH_REFUSE_VALID = true ∧
      (s.m.bit F.CHU_LAUNCH_REFUSE_VALID = false → n.get F.CHU_LAUNCH_REFUSE_REASON = r ∧ n.get F.CHU_LAUNCH_REFUSE_PROGRAM = l.entry % 2 ^ F.CHU_LAUNCH_REFUSE_PROGRAM.wd ∧
        n.get F.CHU_LAUNCH_REFUSE_HERD = l.herd % 2 ^ F.CHU_LAUNCH_REFUSE_HERD.wd) ∧
      (s.m.bit F.CHU_LAUNCH_REFUSE_VALID = true → n.reg (keyOf F.CHU_LAUNCH_REFUSE_VALID) = s.m.reg (keyOf F.CHU_LAUNCH_REFUSE_VALID)) ∧ SameStores s.m n := by
  have hto : Translated (s.m.advance t) m' := .readSegs hread
  obtain ⟨hlaunches, hqe, hcap, honly⟩ := m'.launchRefuse_spec l r st
  have hx : (s.m.advance t).onLaunch u (fun m l => if l.state = 0 then m.launchArgs l else m) = m'.launchRefuse l r st :=
    (Mach.onLaunch_of_some (m := s.m.advance t) hl _).trans ((if_pos hl0).trans (Mach.launchArgs_refused hread hc))
  have hvalid : m'.reg (keyOf F.CHU_LAUNCH_REFUSE_VALID) = s.m.reg (keyOf F.CHU_LAUNCH_REFUSE_VALID) := hto.touch.only.regs _ (by decide)
  set x := m'.launchRefuse l r st
  refine runs_of_engines rfl hi hr hx ((hto.touch.only.mono fun _ _ => trivial).trans honly) fun hframe hreg => ?_
  have hcap' := hcap.of_reg (y := settle s.m x) (hreg _)
  have hnone : (settle s.m x).launch? u = none := by
    rw [Mach.launch?_congr (congrArg ChuSt.launches (settle_chu s.m x))]
    exact (Mach.launch?_some hl).2 ▸ Mach.launch?_filter hlaunches
  have hfin : (s.m.advance t).Finished x l.sq l.uid { status := st, bytes := 0, deadline := false, time := (s.m.advance t).polder.toNat, detail := 0 } :=
    hto.touch.polder ▸ ((Mach.finish_finished m' l.sq l.uid _).of_qe hqe).from_qe hto.touch.qe
  refine ⟨hnone, (hfin.of_qe rfl).from_qe rfl, hcap'.valid, fun hf => ?_, fun ht => (hcap'.kept ((Mach.bit_congr hvalid).trans ht)).trans hvalid, hframe.2⟩
  obtain ⟨hreason, hprogram, hherd⟩ := hcap'.first ((Mach.bit_congr hvalid).trans hf)
  have hr8 : r < 8 := Mach.launchCheck_error hc
  exact ⟨hreason.trans (Nat.mod_eq_of_lt (by omega)), hprogram, hherd⟩

/-- An unscheduled launch whose checks and streams pass is READY. -/
theorem runs_launchArgs_ready {s : State} {t u mask : Nat} {l : Launch} {m' m'' : Mach} {args : List Byte} {rec' : Option ProgRec} {streams : List (List Seg × Nat)}
    (hi : s.m.Inv) (hr : s.m.Running) (hl : s.m.launch? u = some l) (hl0 : l.state = 0) (hread : (s.m.advance t).readSegs l.argSegs = (m', args)) (hs : l.sched = false)
    (hc : m'.launchCheck l args.length args = .ok (mask, rec'))
    (hstreams : m'.streamChecks l.herd l.asid (srcTile ((Mach.tilesOf mask).headD 0)) (m'.launchStreams l.entry args) = (m'', .ok streams)) :
    Runs (.launchArgsRead t u) s fun n =>
      (∃ x, n.launch? u = some x ∧ x.state = 1 ∧ x.mask = l.mask ∧ x.args = args ∧ x.streams = streams ∧ x.readyAt = (s.m.advance t).polder ∧ x.sq = l.sq ∧ x.fail = l.fail) ∧
      n.qe.sqs = s.m.qe.sqs ∧ Frame xltKey s.m n := by
  have hto : Translated (s.m.advance t) m'' := (Translated.readSegs hread).trans (.streamChecks hstreams)
  obtain ⟨owner, cost, hready⟩ := Mach.launchArgs_ready hs hread hc hstreams
  obtain ⟨hmem, rfl⟩ := Mach.launch?_some hl
  have hx : (s.m.advance t).onLaunch l.uid (fun m l => if l.state = 0 then m.launchArgs l else m) = m''.setLaunch (Mach.launchReady l args mask owner streams cost m''.polder) :=
    (Mach.onLaunch_of_some (m := s.m.advance t) hl _).trans ((if_pos hl0).trans hready)
  have hhas := Mach.hasLaunch_setLaunch_same (m := m'') (l := l) (x := Mach.launchReady l args mask owner streams cost m''.polder) (hto.chu ▸ hmem) rfl
  refine runs_of_engines rfl hi hr hx (hto.touch.only.trans (m''.setLaunch_onlyRegs _ _)) fun hframe _ =>
    ⟨⟨_, (Mach.launch?_congr (congrArg ChuSt.launches (settle_chu ..)) _).trans hhas.launch?, rfl, Mach.launchCheck_ok hs hc, rfl, rfl, hto.touch.polder, rfl, rfl⟩,
      congrArg QeSt.sqs hto.touch.qe, hframe⟩

end Sys2Proof.Machine
end

section
/-! SUPPORT and proof of O23: a launch starts on all its tiles together (08_churn_programs.md R219, R220, R221; 07_churn_arithmetic.md R194). -/
namespace Sys2Proof.Machine
namespace Mach

/-! ## The tiles of a launch -/

theorem tilesOf_nodup (mask : Nat) : (tilesOf mask).Nodup := List.nodup_range.filter _

/-- A tile that a launch of herd `h` takes: its launch counter goes up, and it is BUSY for the herd. -/
def tileTaken (h : Nat) (m : Mach) (t : Nat) : Mach :=
  ((m.set F.CHU_LAUNCH_CTR_L ((m.get F.CHU_LAUNCH_CTR_L 0 t + 1) % 2 ^ 24) 0 t).set F.CHU_TILE_STATUS_BUSY 1 0 t).set F.CHU_TILE_STATUS_HERD h 0 t

/-- Keys of the status word and the launch counter of a tile. -/
abbrev tileKey (t k : Nat) : Prop := k = keyOf F.CHU_TILE_STATUS_BUSY 0 t ∨ k = keyOf F.CHU_LAUNCH_CTR_L 0 t

/-- What a tile that was taken shows, if its counter stood at `ctr` before. -/
structure Taken (m : Mach) (h ctr t : Nat) : Prop where
  busy : m.bit F.CHU_TILE_STATUS_BUSY 0 t = true
  herd : m.get F.CHU_TILE_STATUS_HERD 0 t = h % 2 ^ F.CHU_TILE_STATUS_HERD.wd
  ctr : m.get F.CHU_LAUNCH_CTR_L 0 t = (ctr + 1) % 2 ^ 24

/-- A tile shows the same while its registers stand. -/
theorem Taken.of_regs {m x : Mach} {h ctr t : Nat} (ht : Taken m h ctr t) (hx : ∀ k, tileKey t k → x.reg k = m.reg k) : Taken x h ctr t :=
  ⟨(bit_congr (hx _ (.inl rfl))).trans ht.busy, (get_congr (f := F.CHU_TILE_STATUS_HERD) (hx _ (.inl rfl))).trans ht.herd, (get_congr (hx _ (.inr rfl))).trans ht.ctr⟩

theorem tileTaken_spec (m : Mach) (h t : Nat) : Taken (m.tileTaken h t) h (m.get F.CHU_LAUNCH_CTR_L 0 t) t ∧ InRegs (tileKey t) m (m.tileTaken h t) := by
  unfold tileTaken
  set a := m.set F.CHU_LAUNCH_CTR_L ((m.get F.CHU_LAUNCH_CTR_L 0 t + 1) % 2 ^ 24) 0 t with ha
  set b := a.set F.CHU_TILE_STATUS_BUSY 1 0 t with hb
  refine ⟨⟨?_, get_set_same b _ _ _ _ (by decide), ?_⟩, (((InRegs.refl _ m).set (by exact .inr rfl)).set (by exact .inl rfl)).set (by exact .inl rfl)⟩
  · calc (b.set F.CHU_TILE_STATUS_HERD h 0 t).bit F.CHU_TILE_STATUS_BUSY 0 t = b.bit F.CHU_TILE_STATUS_BUSY 0 t := bit_set_apart b rfl (by decide) (by decide)
      _ = true := bit_set_same a _ true _ _ (by decide) rfl
  · calc (b.set F.CHU_TILE_STATUS_HERD h 0 t).get F.CHU_LAUNCH_CTR_L 0 t = b.get F.CHU_LAUNCH_CTR_L 0 t := get_set_of_addr b (by decide)
      _ = a.get F.CHU_LAUNCH_CTR_L 0 t := get_set_of_addr a (by decide)
      _ = (m.get F.CHU_LAUNCH_CTR_L 0 t + 1) % 2 ^ 24 % 2 ^ F.CHU_LAUNCH_CTR_L.wd := get_set_same m _ _ _ _ (by decide)
      _ = (m.get F.CHU_LAUNCH_CTR_L 0 t + 1) % 2 ^ 24 := Nat.mod_mod _ (2 ^ 24)

/-- Registers of one tile are none of another's. -/
theorem not_tileKey {i t k : Nat} (h : i ≠ t) (hk : tileKey i k) : ¬ tileKey t k := by
  simp only [tileKey, keyOf, fkey, regKey, regSpan] at hk ⊢
  omega

/-- Each of the tiles is taken once. -/
theorem tilesTaken_spec {ts : List Nat} (hts : ts.Nodup) (h : Nat) (m : Mach) :
    (∀ i ∈ ts, Taken (ts.foldl (tileTaken h) m) h (m.get F.CHU_LAUNCH_CTR_L 0 i) i) ∧ InRegs (fun k => ∃ i ∈ ts, tileKey i k) m (ts.foldl (tileTaken h) m) := by
  induction ts generalizing m with
  | nil => exact ⟨nofun, .refl _ m⟩
  | cons t r ih =>
    obtain ⟨hfresh, hr⟩ := List.nodup_cons.1 hts
    obtain ⟨hone, hin⟩ := m.tileTaken_spec h t
    obtain ⟨hrest, hins⟩ := ih hr (m.tileTaken h t)
    rw [List.foldl_cons]
    refine ⟨fun i hi => ?_, (hin.mono fun k hk => ⟨t, List.mem_cons_self, hk⟩).trans (hins.mono fun k ⟨i, hi, hk⟩ => ⟨i, List.mem_cons_of_mem _ hi, hk⟩)⟩
    obtain rfl | hi := List.mem_cons.1 hi
    · exact hone.of_regs fun k hk => hins.regs k fun ⟨j, hj, hjk⟩ => not_tileKey (fun e : i = j => hfresh (e ▸ hj)) hk hjk
    · have hne : i ≠ t := fun e => hfresh (e ▸ hi)
      have hctr : (m.tileTaken h t).get F.CHU_LAUNCH_CTR_L 0 i = m.get F.CHU_LAUNCH_CTR_L 0 i := hin.regs.get (not_tileKey hne (.inr rfl))
      exact hctr ▸ hrest i hi

/-! ## Staging (R219) -/

/-- The pieces of one stream are read, if a pass reads the stream. -/
def streamStaged (acc : Mach × List (List Byte)) (s : (Bool × Bool × Bool × Nat × Nat × Nat) × (List Seg × Nat)) : Mach × List (List Byte) :=
  if s.1.2.1 then ((acc.1.readSegs s.2.1).1, acc.2 ++ [(acc.1.readSegs s.2.1).2]) else (acc.1, acc.2 ++ [[]])

theorem streamsStaged_eq (ss : List ((Bool × Bool × Bool × Nat × Nat × Nat) × (List Seg × Nat))) (acc : Mach × List (List Byte)) :
    ∃ c st, ss.foldl streamStaged acc = (acc.1.putFreeCtr c, st) := by
  induction ss generalizing acc with
  | nil => exact ⟨acc.1.freeCtr, acc.2, rfl⟩
  | cons s r ih =>
    obtain ⟨c, st, h⟩ := ih (streamStaged acc s)
    obtain ⟨c', hc⟩ := acc.1.readSegs_eq s.2.1
    have hone : ∃ d, (streamStaged acc s).1 = acc.1.putFreeCtr d := by
      unfold streamStaged
      split
      · exact ⟨c', hc⟩
      · exact ⟨acc.1.freeCtr, rfl⟩
    obtain ⟨d, hd⟩ := hone
    exact ⟨c, st, h.trans (by rw [hd]; rfl)⟩

/-- Staging takes free values alone beside the launch. -/
theorem stage_eq (m : Mach) (l : Launch) : ∃ c st, m.stage l = (m.putFreeCtr c).setLaunch { (m.launch? l.uid).getD l with staged := st } := by
  obtain ⟨c, st, h⟩ := streamsStaged_eq ((m.launchStreams l.entry l.args).zip l.streams) (m, [])
  have hstage : m.stage l = (((m.launchStreams l.entry l.args).zip l.streams).foldl streamStaged (m, [])).1.setLaunch
      { ((((m.launchStreams l.entry l.args).zip l.streams).foldl streamStaged (m, [])).1.launch? l.uid).getD l with
        staged := (((m.launchStreams l.entry l.args).zip l.streams).foldl streamStaged (m, [])).2 } := rfl
  rw [h] at hstage
  exact ⟨c, st, hstage⟩

theorem stage_hasLaunch {m : Mach} {l x : Launch} (h : m.HasLaunch x) (hu : x.uid = l.uid) : ∃ st, (m.stage l).HasLaunch { x with staged := st } := by
  obtain ⟨c, st, hs⟩ := m.stage_eq l
  rw [hs, ← hu, h.launch?]
  exact ⟨st, hasLaunch_setLaunch_same (m := m.putFreeCtr c) (l := x) h.1 rfl⟩

theorem stage_onlyRegs (K : Nat → Prop) (m : Mach) (l : Launch) : OnlyRegs K m (m.stage l) := by
  obtain ⟨c, st, hs⟩ := m.stage_eq l
  rw [hs]
  exact ⟨rfl, rfl, rfl, rfl, fun _ _ => rfl⟩

/-! ## The start (R220, R221) -/

/-- Seed and launch counter of each tile of a launch. -/
abbrev tileSeeds (m : Mach) (mask : Nat) : List (Nat × Nat) := (tilesOf mask).map (fun t => (m.get64 F.CHU_SEED_LO 0 t, m.get F.CHU_LAUNCH_CTR_L 0 t))

/-- A launch as its start leaves it, before its streams are staged. -/
abbrev launchRunning (l : Launch) (seeds : List (Nat × Nat)) (since : Nat) : Launch := { l with state := 2, seeds := seeds, since := since }

/-- The launch holds its tiles and its places in their SRAM. -/
def launchTaken (m : Mach) (l : Launch) (sram : List (Nat × Nat × Nat × Nat)) : Mach :=
  let y := (tilesOf l.mask).foldl (tileTaken l.herd) m
  let z := ((y.putChu { y.chu with sram := sram }).inc F.CHU_LAUNCHES).chuSync
  z.setLaunch (launchRunning l (m.tileSeeds l.mask) z.now)

/-- A launch can start on its tiles: their domains run, no clear of one runs, and each has a place in its SRAM that no other herd wrote last. -/
abbrev TilesReady (m : Mach) (l : Launch) : Prop :=
  ∀ i ∈ tilesOf l.mask, m.bit F.CLK_DOM_STATUS_RUNNING 0 (3 + i / 8) = true ∧ m.sramClearing i = false ∧
    ∃ a b, m.sramPlace l i (m.sramNeed l) = some (a, b) ∧ m.sramForeign i a b l.herd = false

theorem launchStart_eq {m : Mach} {l : Launch} (h : TilesReady m l) : ∃ sram, m.launchStart l = (m.launchTaken l sram).stage l := by
  unfold launchStart
  extract_lets ts need places asleep foreign seeds y held z w x
  have hasleep : asleep = [] := List.filter_eq_nil_iff.2 fun d hd => by
    obtain ⟨i, hi, rfl⟩ := List.mem_map.1 (List.mem_eraseDups.1 hd)
    obtain ⟨hrun, -⟩ := h i hi
    simp [hrun]
  have hplaces : ∀ p ∈ places, ∃ a b, p.2 = some (a, b) ∧ m.sramForeign p.1 a b l.herd = false := fun p hp => by
    obtain ⟨i, hi, rfl⟩ := List.mem_map.1 hp
    obtain ⟨-, -, a, b, hab, hf⟩ := h i hi
    exact ⟨a, b, hab, hf⟩
  have hplaced : ¬ (places.any (fun p => p.2.isNone) = true ∨ ts.any (fun t => m.sramClearing t) = true) := by
    rintro (hn | hc)
    · obtain ⟨p, hp, hpn⟩ := List.any_eq_true.1 hn
      obtain ⟨a, b, hab, -⟩ := hplaces p hp
      simp [hab] at hpn
    · obtain ⟨i, hi, hic⟩ := List.any_eq_true.1 hc
      obtain ⟨-, hcl, -⟩ := h i hi
      exact Bool.false_ne_true (hcl.symm.trans hic)
  have hforeign : foreign = [] := List.filter_eq_nil_iff.2 fun p hp => by
    obtain ⟨a, b, hab, hf⟩ := hplaces p hp
    simp [hab, hf]
  refine ⟨held ++ y.chu.sram.filter (fun r => !held.contains r), ?_⟩
  rw [if_neg (not_not_intro hasleep), if_neg hplaced, if_neg (not_not_intro hforeign)]
  rfl

/-- CHU_STATUS counts the tiles, and no other register changes. -/
theorem chuSync_inRegs (m : Mach) : InRegs (fun k => k = keyOf F.CHU_STATUS_BUSY) m m.chuSync := ((InRegs.refl _ m).set (by rfl)).set (by rfl)

/-- The tiles are taken, the launch is counted, and it runs. -/
theorem launchTaken_spec {m : Mach} {l : Launch} (hl : l ∈ m.chu.launches) (sram : List (Nat × Nat × Nat × Nat)) :
    let x := m.launchTaken l sram
    x.HasLaunch (launchRunning l (m.tileSeeds l.mask) m.now) ∧ (∀ i ∈ tilesOf l.mask, Taken x l.herd (m.get F.CHU_LAUNCH_CTR_L 0 i) i) ∧
      x.get F.CHU_LAUNCHES = min (m.get F.CHU_LAUNCHES + 1) (2 ^ F.CHU_LAUNCHES.wd - 1) ∧ OnlyRegs (fun _ => True) m x := by
  obtain ⟨htaken, hin⟩ := tilesTaken_spec (tilesOf_nodup l.mask) l.herd m
  unfold launchTaken
  extract_lets y _ z
  set c := (y.putChu { y.chu with sram := sram }).inc F.CHU_LAUNCHES with hc
  have hsync : InRegs (fun k => k = keyOf F.CHU_STATUS_BUSY) c z := c.chuSync_inRegs
  have hchu : y.chu = m.chu := by rw [show y = m.putRegs y.regs from hin.file]; rfl
  have hlaunches : z.chu.launches = m.chu.launches := by rw [hsync.file, ← hchu]; rfl
  have hnow : z.now = m.now := by
    rw [hsync.file]
    show y.now = m.now
    rw [show y = m.putRegs y.regs from hin.file]
    rfl
  have hkept : ∀ {i k : Nat}, tileKey i k → z.reg k = y.reg k := fun {i k} hk => by
    have hcount : c.reg k = y.reg k := reg_setReg_ne _ _ fun he => hk.elim (fun h => fkey_ne_of_addr i 0 (by decide) (h.symm.trans he))
      fun h => fkey_ne_of_addr i 0 (by decide) (h.symm.trans he)
    refine (hsync.regs k fun he => ?_).trans hcount
    exact hk.elim (fun h => fkey_ne_of_addr i 0 (by decide) (h.symm.trans he)) fun h => fkey_ne_of_addr i 0 (by decide) (h.symm.trans he)
  have hold : y.get F.CHU_LAUNCHES = m.get F.CHU_LAUNCHES := hin.regs.get fun ⟨i, _, hk⟩ =>
    hk.elim (fkey_ne_of_addr 0 i (by decide)) (fkey_ne_of_addr 0 i (by decide))
  refine ⟨?_, fun i hi => (htaken i hi).of_regs fun k hk => hkept hk, ?_, ?_⟩
  · exact hnow ▸ hasLaunch_setLaunch_same (m := z) (l := l) (x := launchRunning l (m.tileSeeds l.mask) z.now) (hlaunches ▸ hl) rfl
  · calc z.get F.CHU_LAUNCHES = c.get F.CHU_LAUNCHES := hsync.regs.get (by decide)
      _ = min (y.get F.CHU_LAUNCHES + 1) (2 ^ F.CHU_LAUNCHES.wd - 1) := get_inc_same _ _ _ _ _ (by decide)
      _ = _ := by rw [hold]
  · have hcount : OnlyRegs (fun _ => True) y c := ⟨rfl, rfl, rfl, rfl, (RegsBut.refl _ y).inc trivial⟩
    exact (((hin.only.mono fun _ _ => trivial).trans hcount).trans (hsync.only.mono fun _ _ => trivial)).trans (setLaunch_onlyRegs _ z _)

/-- What a start leaves. -/
theorem launchStart_spec {m : Mach} {l : Launch} (hl : l ∈ m.chu.launches) (h : TilesReady m l) :
    let x := m.launchStart l
    (∃ st, x.HasLaunch { launchRunning l (m.tileSeeds l.mask) m.now with staged := st }) ∧
      (∀ i ∈ tilesOf l.mask, Taken x l.herd (m.get F.CHU_LAUNCH_CTR_L 0 i) i) ∧
      x.get F.CHU_LAUNCHES = min (m.get F.CHU_LAUNCHES + 1) (2 ^ F.CHU_LAUNCHES.wd - 1) ∧ OnlyRegs (fun _ => True) m x := by
  obtain ⟨sram, hx⟩ := launchStart_eq h
  obtain ⟨hhas, htaken, hcount, honly⟩ := launchTaken_spec hl sram
  have hstage : RegsBut (fun _ => False) (m.launchTaken l sram) ((m.launchTaken l sram).stage l) := (stage_onlyRegs _ _ l).regs
  rw [hx]
  exact ⟨stage_hasLaunch hhas rfl, fun i hi => (htaken i hi).of_regs fun k _ => hstage k id, (hstage.get id).trans hcount, honly.trans (stage_onlyRegs _ _ l)⟩

/-- The conditions of a scheduled start. -/
theorem startScheduled_opens {m : Mach} {l : Launch} (hl1 : l.state = 1) (hs : l.sched = true) (hfree : m.tilesFree l.mask = true) (ho : m.occurrenceOpens l = true)
    (hfirst : (m.chu.launches.find? (fun x => x.sched && x.state == 1 && x.owner == l.owner && x.entry == l.entry)).map (fun x => x.uid) = some l.uid) :
    m.startScheduled l = m.launchStart l := if_pos ⟨hl1, hs, hfirst, hfree, ho⟩

/-- The conditions of an unscheduled start. -/
theorem startUnscheduled_fits {m : Mach} {l : Launch} (hl1 : l.state = 1) (hs : l.sched = false) (hfree : m.tilesFree l.mask = true)
    (ht : m.get F.CLK_STATUS_THROTTLE < 3)
    (hb : ∀ x ∈ m.chu.launches.takeWhile (fun x => x.uid != l.uid), x.sched = false → x.state = 1 → x.mask &&& l.mask = 0)
    (hres : ∀ i ∈ tilesOf l.mask, m.tileUnreserved i (cycleUnits (l.cost + recomputeCycles)) = true) : m.startUnscheduled l = m.launchStart l := by
  refine if_pos ⟨ht, hl1, hs, List.any_eq_false.2 fun x hx hbehind => ?_, hfree, List.all_eq_true.2 hres⟩
  simp only [Bool.and_eq_true, Bool.not_eq_true', beq_iff_eq, bne_iff_ne] at hbehind
  obtain ⟨⟨hxs, hx1⟩, hmask⟩ := hbehind
  exact hmask (hb x hx hxs hx1)

end Mach

/-- A launch that starts. -/
theorem runs_launchStart {s : State} {t u : Nat} {l : Launch} {c : Instr} {g : Mach → Launch → Mach}
    (hc : Sys2Proof.Machine.exec c s = commit s fun m => (m.advance t).engines fun m => m.onLaunch u g) (hi : s.m.Inv) (hr : s.m.Running)
    (hl : s.m.launch? u = some l) (hg : g (s.m.advance t) l = (s.m.advance t).launchStart l) (hready : Mach.TilesReady (s.m.advance t) l) :
    Runs c s fun n =>
      (∃ x, n.launch? u = some x ∧ x.state = 2 ∧ x.since = (s.m.advance t).now ∧ x.mask = l.mask ∧
        x.seeds = (Mach.tilesOf l.mask).map (fun i => (s.m.get64 F.CHU_SEED_LO 0 i, s.m.get F.CHU_LAUNCH_CTR_L 0 i))) ∧
      (∀ i ∈ Mach.tilesOf l.mask, n.bit F.CHU_TILE_STATUS_BUSY 0 i = true ∧ n.get F.CHU_TILE_STATUS_HERD 0 i = l.herd % 2 ^ F.CHU_TILE_STATUS_HERD.wd ∧
        n.get F.CHU_LAUNCH_CTR_L 0 i = (s.m.get F.CHU_LAUNCH_CTR_L 0 i + 1) % 2 ^ 24) ∧
      n.get F.CHU_LAUNCHES = min (s.m.get F.CHU_LAUNCHES + 1) (2 ^ F.CHU_LAUNCHES.wd - 1) ∧ SameStores s.m n := by
  obtain ⟨hmem, rfl⟩ := Mach.launch?_some hl
  obtain ⟨⟨st, hhas⟩, htaken, hcount, honly⟩ := Mach.launchStart_spec (m := s.m.advance t) hmem hready
  refine runs_of_engines hc hi hr ((Mach.onLaunch_of_some (m := s.m.advance t) hl _).trans hg) honly fun hframe hreg => ⟨?_, fun i hi => ?_, ?_, hframe.2⟩
  · exact ⟨_, (Mach.launch?_congr (congrArg ChuSt.launches (settle_chu ..)) _).trans hhas.launch?, rfl, rfl, rfl, rfl⟩
  · obtain ⟨hbusy, hherd, hctr⟩ := (htaken i hi).of_regs fun k _ => hreg k
    exact ⟨hbusy, hherd, hctr⟩
  · exact (Mach.get_congr (hreg _)).trans hcount

/-- Settles O23: what CHURN_LAUNCH makes of its descriptor, the checks of the argument block, and the start of a launch, at an opening of its owner's reservation or
without a plan's. -/
theorem launchBeginnings : Obligations.LaunchBeginnings := by
  unfold Obligations.LaunchBeginnings
  refine ⟨fun s t k d hi hd hop => runs_churnLaunch hi hd hop, fun s t u l m' args hi hr hl hl0 hread => ⟨fun r st hc => runs_launchArgs_refused hi hr hl hl0 hread hc,
    fun mask rec' m'' streams hs hc hstreams => runs_launchArgs_ready hi hr hl hl0 hread hs hc hstreams⟩, fun s t u l c hi hr hl hl1 hfree hcmd hready => ?_⟩
  obtain ⟨rfl, hs, hopen, hfirst⟩ | ⟨rfl, hs, hthrottle, hbehind, hres⟩ := hcmd
  · exact runs_launchStart (g := fun m l => m.startScheduled l) rfl hi hr hl (Mach.startScheduled_opens (m := s.m.advance t) hl1 hs hfree hopen hfirst) hready
  · exact runs_launchStart (g := fun m l => m.startUnscheduled l) rfl hi hr hl (Mach.startUnscheduled_fits (m := s.m.advance t) hl1 hs hfree hthrottle hbehind hres) hready

end Sys2Proof.Machine
end

section
/-! SUPPORT. What the writes of a pass leave of Churn and of the plans, and on what the changes that they hand to the stores depend (08_churn_programs.md R219, R220;
06_translation_windows.md R173; 10_memory.md R282; 15_cipher.md R378, R382, R384). -/
namespace Sys2Proof.Machine

/-! ## Churn, the plans and most registers stay -/

namespace Mach

/-- A page that a write touches, the one of number `first + i`, is logged in the map of address space `s`, or counted as missed (R173). -/
def dirtyPage (s base va0 pages first : Nat) (m : Mach) (i : Nat) : Mach :=
  if va0 / 4096 ≤ first + i ∧ first + i - va0 / 4096 < pages then
    m.wrBytes .peat (base + (first + i - va0 / 4096) / 8)
      [m.rd .peat (base + (first + i - va0 / 4096) / 8) ||| BitVec.ofNat 8 (2 ^ ((first + i - va0 / 4096) % 8))]
  else m.inc F.XLT_DIRTY_MISS 1 0 s

theorem dirtyLog_eq (m : Mach) (h a va len : Nat) :
    m.dirtyLog h a va len = if m.bit F.XLT_AS_CFG_DIRTY_EN 0 (asSel h a) = false ∨ len = 0 then m
      else (List.range ((va + len - 1) / 4096 + 1 - va / 4096)).foldl
        (dirtyPage (asSel h a) (m.get64 F.XLT_DIRTY_BASE_LO 0 (asSel h a)) (m.get64 F.XLT_DIRTY_VA_LO 0 (asSel h a)) (m.get F.XLT_DIRTY_PAGES 0 (asSel h a)) (va / 4096)) m := rfl

end Mach

/-- Whether a key is that of a register that a write to a translated range may set: XLT_DIRTY_MISS, or one of block CIPH. -/
abbrev wroteKey (k : Nat) : Prop := k % regSpan = F.XLT_DIRTY_MISS.addr ∨ k % regSpan / 0x10000 = 0x3A0

theorem wroteKey_of_ciph {f : Fld} {i s : Nat} (h : (f.addr + f.step * i) % regSpan / 0x10000 = 0x3A0) : wroteKey (keyOf f i s) := .inr ((keyOf_mod f i s).symm ▸ h)

/-- The second half of a pair. -/
theorem wroteKey_of_ciph_hi {f : Fld} {i s : Nat} (h : (f.addr + f.step * i + 4) % regSpan / 0x10000 = 0x3A0) : wroteKey (keyOf f i s + 4) := by
  have e : keyOf f i s + 4 = f.addr + f.step * i + 4 + regSpan * s := by simp only [keyOf, Mach.fkey, regKey]; omega
  rw [wroteKey, e, Nat.add_mul_mod_self_left]
  exact .inr h

theorem not_wroteKey {f : Fld} {i s : Nat} (hm : (f.addr + f.step * i) % regSpan ≠ F.XLT_DIRTY_MISS.addr) (hc : (f.addr + f.step * i) % regSpan / 0x10000 ≠ 0x3A0) :
    ¬ wroteKey (keyOf f i s) := by
  rw [wroteKey, keyOf_mod]
  exact fun h => h.elim hm hc

/-- `y` comes after `x` with Churn and the plans as they were, and every register that no write to a translated range sets. -/
structure ByWriting (x y : Mach) : Prop where
  chu : y.chu = x.chu
  plan : y.plan = x.plan
  regs : RegsBut wroteKey x y

namespace ByWriting

variable {x y z : Mach}

theorem refl (x : Mach) : ByWriting x x := ⟨rfl, rfl, .refl _ x⟩

theorem trans (h : ByWriting x y) (g : ByWriting y z) : ByWriting x z :=
  ⟨g.chu.trans h.chu, g.plan.trans h.plan, fun k hk => (g.regs k hk).trans (h.regs k hk)⟩

theorem ite {c : Prop} [Decidable c] (h : ByWriting x y) (g : ByWriting x z) : ByWriting x (if c then y else z) := by
  split <;> assumption

theorem foldl {α : Type} {g : Mach → α → Mach} {l : List α} (h : ∀ z a, ByWriting z (g z a)) (x : Mach) : ByWriting x (l.foldl g x) :=
  List.foldlRecOn (motive := ByWriting x) l g (.refl x) fun z hz a _ => hz.trans (h z a)

/-- An update of another unit, and of no register. -/
theorem beside (hc : y.chu = x.chu) (hp : y.plan = x.plan) (hr : y.regs = x.regs) (hv : y.variant = x.variant) : ByWriting x y := ⟨hc, hp, (RegsBut.refl _ x).of_regs hv hr⟩

theorem set (h : ByWriting x y) {f : Fld} {v i s : Nat} (hf : (f.addr + f.step * i) % regSpan / 0x10000 = 0x3A0) : ByWriting x (y.set f v i s) :=
  ⟨h.chu, h.plan, h.regs.set (wroteKey_of_ciph hf)⟩

theorem set64 (h : ByWriting x y) {f : Fld} {v i s : Nat} (hf : (f.addr + f.step * i) % regSpan / 0x10000 = 0x3A0)
    (hg : (f.addr + f.step * i + 4) % regSpan / 0x10000 = 0x3A0) : ByWriting x (y.set64 f v i s) :=
  ⟨h.chu, h.plan, h.regs.set64 (wroteKey_of_ciph hf) (wroteKey_of_ciph_hi hg)⟩

theorem raise (x : Mach) (code source herd : Nat) (dest : List Nat) (a b : Nat) : ByWriting x (x.raise code source herd dest a b) := .beside rfl rfl rfl rfl

theorem wrBytes (x : Mach) (st : Store) (a : Nat) (d : List Byte) : ByWriting x (x.wrBytes st a d) := .beside rfl rfl rfl rfl

theorem putMem (x : Mach) (y : MemSt) : ByWriting x (x.putMem y) := .beside rfl rfl rfl rfl

theorem setKeyPage (x : Mach) (p : Nat) (y : KeyPage) : ByWriting x (x.setKeyPage p y) := .beside rfl rfl rfl rfl

theorem zeroCounters (x : Mach) (p : Nat) : ByWriting x (x.zeroCounters p) := .beside rfl rfl rfl rfl

theorem setMirror (x : Mach) (r : Nat) (m : Mirror) : ByWriting x (x.setMirror r m) := .beside rfl rfl rfl rfl

theorem accelWrite (x : Mach) (port addr : Nat) (d : List Byte) : ByWriting x (x.accelWrite port addr d) := .beside rfl rfl rfl rfl

/-- The switch of a key page's keys (15_cipher.md R382). -/
theorem keySwitch (x : Mach) (p : Nat) : ByWriting x (x.keySwitch p) := by
  unfold Mach.keySwitch
  extract_lets k e c o own y z w v
  have hy : ByWriting x y := setKeyPage x p _
  have hz : ByWriting y z := (((((refl y).set (by decide)).set (by decide)).set (by decide)).set (by decide)).set (by decide)
  have hw : ByWriting z w := ((refl z).set64 (by decide) (by decide)).trans (zeroCounters _ p)
  have hv : ByWriting w v := .ite (((refl w).set64 (by decide) (by decide)).trans (setKeyPage _ p _)) (refl w)
  exact (((hy.trans hz).trans hw).trans hv).trans (raise v _ _ _ _ _ _)

theorem mirrorLog (x : Mach) (addr len : Nat) (sched : Bool) : ByWriting x (x.mirrorLog addr len sched) := by
  unfold Mach.mirrorLog
  split
  · exact refl x
  · exact .ite (refl x) (foldl (fun z i => .ite (setMirror z _ _) (.ite (setMirror z _ _) (setMirror z _ _))) x)

theorem storeKeyCount (x : Mach) (addr len : Nat) : ByWriting x (x.storeKeyCount addr len) := by
  unfold Mach.storeKeyCount
  extract_lets g p n y o
  have hy : ByWriting x y := (refl x).set64 (by decide) (by decide)
  exact .ite (refl x) (.ite (hy.trans (keySwitch y p)) (.ite ((hy.set (by decide)).trans (raise _ _ _ _ _ _ _)) hy))

theorem dirtyPage (x : Mach) (s base va0 pages first i : Nat) : ByWriting x (x.dirtyPage s base va0 pages first i) := by
  have hkey : wroteKey (keyOf F.XLT_DIRTY_MISS 0 s) := .inl (keyOf_mod _ 0 s)
  exact .ite (wrBytes x _ _ _) ⟨rfl, rfl, (RegsBut.refl _ x).inc hkey⟩

theorem dirtyLog (x : Mach) (h a va len : Nat) : ByWriting x (x.dirtyLog h a va len) := .ite (refl x) (foldl (fun z i => dirtyPage z _ _ _ _ _ i) x)

theorem writeSeg (x : Mach) (s : Seg) (d : List Byte) (sched : Bool) : ByWriting x (x.writeSeg s d sched) :=
  .ite ((((mirrorLog x _ _ sched).trans (storeKeyCount _ _ _)).trans (wrBytes _ _ _ _)).trans (putMem _ _))
    (.ite ((wrBytes x _ _ _).trans (putMem _ _)) (accelWrite x _ _ _))

theorem writeSegs (x : Mach) (h a kind chan msg : Nat) (sched : Bool) (segs : List Seg) (d : List Byte) :
    ByWriting x (x.writeSegs h a kind chan msg sched segs d) := by
  induction segs generalizing x d with
  | nil => exact refl x
  | cons s r ih => exact (((dirtyLog x h a s.va _).trans (writeSeg _ s _ sched)).trans (putMem _ _)).trans (ih _ _)

/-- The writes of a pass. -/
theorem launchWrites (x : Mach) (l : Launch) (ws : List (Nat × Nat × List Byte)) : ByWriting x (x.launchWrites l ws) := foldl (fun z _ => writeSegs z _ _ _ _ _ _ _ _) x

end ByWriting

theorem Aside.launchWrites (x : Mach) (l : Launch) (ws : List (Nat × Nat × List Byte)) : Aside x (x.launchWrites l ws) :=
  foldl (fun z _ => writeSegs z _ _ _ _ _ _ _ _) x

/-! ## On what the changes of the stores depend -/

/-- Whether a key is that of a register of a dirty log. -/
abbrev dirtyKey (k : Nat) : Prop := k % regSpan / 0x10000 = 0x200 ∧ k % regSpan ≠ F.XLT_DIRTY_MISS.addr

/-- `y` reads of the stores and of the dirty logs what `x` reads, and has handed on the same changes. -/
structure SameLogs (x y : Mach) : Prop where
  wr : y.wr = x.wr
  base : y.base = x.base
  regs : ∀ k, dirtyKey k → y.reg k = x.reg k

namespace SameLogs

variable {x y : Mach}

theorem reg (h : SameLogs x y) {f : Fld} (s : Nat) (hf : (f.addr + f.step * 0) % regSpan / 0x10000 = 0x200 ∧ (f.addr + f.step * 0) % regSpan ≠ F.XLT_DIRTY_MISS.addr) :
    y.reg (keyOf f 0 s) = x.reg (keyOf f 0 s) := h.regs _ (by rwa [dirtyKey, keyOf_mod])

/-- A pair of registers of a dirty log. -/
theorem get64 (h : SameLogs x y) {f : Fld} (s : Nat) (hf : (f.addr + f.step * 0) % regSpan / 0x10000 = 0x200 ∧ (f.addr + f.step * 0) % regSpan ≠ F.XLT_DIRTY_MISS.addr)
    (hg : (f.addr + f.step * 0 + 4) % regSpan / 0x10000 = 0x200 ∧ (f.addr + f.step * 0 + 4) % regSpan ≠ F.XLT_DIRTY_MISS.addr) : y.get64 f 0 s = x.get64 f 0 s := by
  have e : keyOf f 0 s + 4 = f.addr + f.step * 0 + 4 + regSpan * s := by simp only [keyOf, Mach.fkey, regKey]; omega
  have hhi : y.reg (keyOf f 0 s + 4) = x.reg (keyOf f 0 s + 4) := h.regs _ (by rwa [dirtyKey, e, Nat.add_mul_mod_self_left])
  rw [Mach.get64, h.reg s hf, hhi, Mach.get64]

/-- Both take a step that sets no register of a dirty log, and hand the same changes on. -/
theorem step (h : SameLogs x y) {x' y' : Mach} (hw : y'.wr = x'.wr) (hx : ByWriting x x') (hy : ByWriting y y') (hbx : x'.base = x.base) (hby : y'.base = y.base) :
    SameLogs x' y' := by
  refine ⟨hw, hby.trans (h.base.trans hbx.symm), fun k hk => ?_⟩
  have hout : ¬ wroteKey k := fun hwrote => hwrote.elim hk.2 fun hc => by omega
  exact (hy.regs k hout).trans ((h.regs k hk).trans (hx.regs k hout).symm)

theorem foldl {α : Type} {g : Mach → α → Mach} (hg : ∀ u v a, SameLogs u v → SameLogs (g u a) (g v a)) (h : SameLogs x y) (l : List α) :
    SameLogs (l.foldl g x) (l.foldl g y) := by
  induction l generalizing x y with
  | nil => exact h
  | cons a r ih => exact ih (hg x y a h)

theorem dirtyPage (h : SameLogs x y) (s base va0 pages first i : Nat) : SameLogs (x.dirtyPage s base va0 pages first i) (y.dirtyPage s base va0 pages first i) := by
  refine h.step ?_ (.dirtyPage x _ _ _ _ _ i) (.dirtyPage y _ _ _ _ _ i) ?_ ?_
  · unfold Mach.dirtyPage
    split
    · exact congrArg₂ (fun b w => MemOp.bytes .peat _ [b ||| _] :: w) (Mach.rd_congr h.wr h.base _ _) h.wr
    · exact h.wr
  · unfold Mach.dirtyPage
    split <;> rfl
  · unfold Mach.dirtyPage
    split <;> rfl

theorem dirtyLog (h : SameLogs x y) (hd a va len : Nat) : SameLogs (x.dirtyLog hd a va len) (y.dirtyLog hd a va len) := by
  rw [Mach.dirtyLog_eq, Mach.dirtyLog_eq, Mach.bit_congr (h.reg (f := F.XLT_AS_CFG_DIRTY_EN) _ (by decide)), h.get64 (f := F.XLT_DIRTY_BASE_LO) _ (by decide) (by decide),
    h.get64 (f := F.XLT_DIRTY_VA_LO) _ (by decide) (by decide), Mach.get_congr (h.reg (f := F.XLT_DIRTY_PAGES) _ (by decide))]
  split
  · exact h
  · exact foldl (fun u v i huv => huv.dirtyPage _ _ _ _ _ i) h _

/-- The bytes of one piece reach the store that serves it, if one does. -/
theorem writeSeg (h : SameLogs x y) (s : Seg) (d : List Byte) (sched : Bool) : SameLogs (x.writeSeg s d sched) (y.writeSeg s d sched) := by
  refine h.step ?_ (.writeSeg x s d sched) (.writeSeg y s d sched) (Aside.writeSeg x s d sched).steady.base (Aside.writeSeg y s d sched).steady.base
  unfold Mach.writeSeg
  split
  · rw [Mach.peatWrite_wr, Mach.peatWrite_wr, h.wr]
  · split
    · exact congrArg (List.cons _) h.wr
    · exact h.wr

theorem writeSegs (h : SameLogs x y) (hd a kind chan msg : Nat) (sched : Bool) (segs : List Seg) (d : List Byte) :
    SameLogs (x.writeSegs hd a kind chan msg sched segs d) (y.writeSegs hd a kind chan msg sched segs d) := by
  induction segs generalizing x y d with
  | nil => exact h
  | cons s r ih =>
    have hone := (h.dirtyLog hd a s.va (d.take s.len).length).writeSeg s (d.take s.len) sched
    exact ih (hone.step (x' := Mach.handOver _ kind chan msg s.target s.port) (y' := Mach.handOver _ kind chan msg s.target s.port) hone.wr (.putMem _ _) (.putMem _ _) rfl rfl) _

/-- The writes of a pass hand on the same changes. -/
theorem launchWrites (h : SameLogs x y) (l : Launch) (ws : List (Nat × Nat × List Byte)) : SameLogs (x.launchWrites l ws) (y.launchWrites l ws) := by
  unfold Mach.launchWrites
  refine foldl (fun u v w huv => ?_) h ws
  exact huv.writeSegs _ _ _ _ _ _ _ _

end SameLogs
end Sys2Proof.Machine
end

section
/-! SUPPORT. The end of a launch begins the clear of its scratch; the end of a pass writes its outputs and keeps its flags (07_churn_arithmetic.md R201, R203, R204;
08_churn_programs.md R219, R220). -/
namespace Sys2Proof.Machine

theorem keyOf_exc_ne {i t : Nat} (h : i ≠ t) : keyOf F.CHU_EXC_INVALID 0 i ≠ keyOf F.CHU_EXC_INVALID 0 t := by
  simp only [keyOf, Mach.fkey, regKey, regSpan]
  omega

theorem not_churnKey {f : Fld} {i s : Nat} (hb : (f.addr + f.step * i) % regSpan ≠ F.CHU_STATUS_BUSY.addr) (ht : (f.addr + f.step * i) % regSpan ≠ F.CHU_TILE_STATUS_BUSY.addr) :
    ¬ churnKey (keyOf f i s) := by
  rintro (hk | ⟨j, hk⟩)
  · exact Mach.fkey_ne_of_addr s 0 hb hk
  · exact Mach.fkey_ne_of_addr s j ht hk

/-! ## Places in tile SRAM (R201, R203) -/

/-- `y` places the scratch of a launch where `x` does, and every clear that ran in `x` runs in it. -/
structure PlacesKept (x y : Mach) : Prop where
  plan : y.plan = x.plan
  banks : y.reg (keyOf F.SLU_BANK_STATUS_BANK0) = x.reg (keyOf F.SLU_BANK_STATUS_BANK0)
  progs : y.chu.progs = x.chu.progs
  clears : ∀ c ∈ x.chu.clears, c ∈ y.chu.clears

namespace PlacesKept

variable {x y z : Mach}

theorem refl (x : Mach) : PlacesKept x x := ⟨rfl, rfl, rfl, fun _ => id⟩

theorem trans (h : PlacesKept x y) (g : PlacesKept y z) : PlacesKept x z :=
  ⟨g.plan.trans h.plan, g.banks.trans h.banks, g.progs.trans h.progs, fun c hc => g.clears c (h.clears c hc)⟩

theorem of_byWriting (h : ByWriting x y) : PlacesKept x y :=
  ⟨h.plan, h.regs _ (not_wroteKey (by decide) (by decide)), congrArg ChuSt.progs h.chu, fun _ hc => h.chu ▸ hc⟩

/-- A field of another register than SLU_BANK_STATUS. -/
theorem set (x : Mach) {f : Fld} {v i s : Nat} (hf : (f.addr + f.step * i) % regSpan ≠ F.SLU_BANK_STATUS_BANK0.addr) : PlacesKept x (x.set f v i s) :=
  ⟨rfl, Mach.set_reg_ne x (Mach.fkey_ne_of_addr 0 s (Ne.symm hf)), rfl, fun _ => id⟩

theorem foldl {α : Type} {g : Mach → α → Mach} {l : List α} (h : ∀ z a, PlacesKept z (g z a)) (x : Mach) : PlacesKept x (l.foldl g x) :=
  List.foldlRecOn (motive := PlacesKept x) l g (.refl x) fun z hz a _ => hz.trans (h z a)

theorem sramClear (x : Mach) (t lo len : Nat) : PlacesKept x (x.sramClear t lo len) := by
  unfold Mach.sramClear
  split
  · exact refl x
  · have hput : PlacesKept x (x.putChu { x.chu with clears := x.chu.clears ++ [(t, lo, len)] }) := ⟨rfl, rfl, rfl, fun _ => List.mem_append_left _⟩
    exact hput.trans (set _ (by decide))

theorem tileDone (x : Mach) (t : Nat) : PlacesKept x (x.tileDone t) := (set x (by decide)).trans (set _ (by decide))

/-- The place of a launch's scratch depends on the plans and on its program alone. -/
theorem sramPlace (h : PlacesKept x y) (l : Launch) (t : Nat) : y.sramPlace l t (y.sramNeed l) = x.sramPlace l t (x.sramNeed l) := by
  have hplans : y.livePlans = x.livePlans := by
    simp only [Mach.livePlans, Mach.active, Mach.retiring, Mach.bankIn, Mach.bankState_congr h.banks, h.plan]
  have hneed : y.sramNeed l = x.sramNeed l := by
    simp only [Mach.sramNeed, Mach.prog, h.progs]
  rw [hneed, Mach.sramPlace, Mach.plan?_congr h.banks h.plan, hplans, Mach.sramPlace]

end PlacesKept

namespace Mach

/-- The scratch of an unscheduled launch on a tile begins to be cleared. -/
def scratchCleared (l : Launch) (m : Mach) (t : Nat) : Mach :=
  match m.sramPlace l t (m.sramNeed l) with
  | some (a, n) => m.sramClear t a n
  | none => m

theorem scratchCleared_kept (l : Launch) (m : Mach) (t : Nat) : PlacesKept m (m.scratchCleared l t) := by
  unfold scratchCleared
  split
  · exact .sramClear m _ _ _
  · exact .refl m

theorem scratchCleared_mem {l : Launch} {m : Mach} {t a b : Nat} (h : m.sramPlace l t (m.sramNeed l) = some (a, b)) (hb : 0 < b) :
    (t, a, b) ∈ (m.scratchCleared l t).chu.clears := by
  rw [scratchCleared, h]
  show _ ∈ (m.sramClear t a b).chu.clears
  rw [sramClear, if_neg hb.ne']
  exact List.mem_append_right _ List.mem_cons_self

/-- Each tile of the launch has its clear. -/
theorem scratchesCleared_mem {l : Launch} {x : Mach} {i a b : Nat} (h : x.sramPlace l i (x.sramNeed l) = some (a, b)) (hb : 0 < b) {ts : List Nat} (hi : i ∈ ts)
    {y : Mach} (hy : PlacesKept x y) : (i, a, b) ∈ (ts.foldl (scratchCleared l) y).chu.clears := by
  induction ts generalizing y with
  | nil => simp at hi
  | cons t r ih =>
    rw [List.foldl_cons]
    obtain rfl | hr := List.mem_cons.1 hi
    · exact (PlacesKept.foldl (scratchCleared_kept l) _).clears _ (scratchCleared_mem ((hy.sramPlace l i).trans h) hb)
    · exact ih hr (hy.trans (scratchCleared_kept l y t))

theorem launchEnd_eq (m : Mach) (l : Launch) (fail : Option (Nat × Nat)) :
    m.launchEnd l fail =
      (if l.sched then (tilesOf l.mask).foldl tileDone (m.setLaunch (endedLaunch l fail))
        else (tilesOf l.mask).foldl (scratchCleared l) ((tilesOf l.mask).foldl tileDone (m.setLaunch (endedLaunch l fail)))).chuSync := rfl

/-- The end of a launch reaches Churn alone, and the status words of tiles. -/
theorem launchEnd_inChurn (m : Mach) (l : Launch) (fail : Option (Nat × Nat)) : InChurn churnKey m (m.launchEnd l fail) := by
  have hdone : ∀ z t, InChurn churnKey z (tileDone z t) := fun z t => ((InChurn.refl _ z).set (.inr ⟨t, rfl⟩)).set (f := F.CHU_TILE_STATUS_RECOMPUTING) (.inr ⟨t, rfl⟩)
  have hclear : ∀ z t, InChurn churnKey z (scratchCleared l z t) := fun z t => by
    unfold scratchCleared sramClear
    split
    · exact .ite (.refl _ z) (((InChurn.refl _ z).putChu _).set (f := F.CHU_TILE_STATUS_CLEARING) (.inr ⟨t, rfl⟩))
    · exact .refl _ z
  have htiles : InChurn churnKey m ((tilesOf l.mask).foldl tileDone (m.setLaunch (endedLaunch l fail))) :=
    ((InChurn.refl _ m).putChu _).trans (.foldl (fun z t _ => hdone z t) _)
  rw [launchEnd_eq]
  exact ((InChurn.ite htiles (htiles.trans (.foldl (fun z t _ => hclear z t) _))).set (.inl rfl)).set (f := F.CHU_STATUS_FENCED) (.inl rfl)

/-- The end of an unscheduled launch begins the clear of its scratch. -/
theorem launchEnd_clears {m : Mach} {l : Launch} {i a b : Nat} (fail : Option (Nat × Nat)) (hs : l.sched = false) (hi : i ∈ tilesOf l.mask)
    (h : m.sramPlace l i (m.sramNeed l) = some (a, b)) (hb : 0 < b) : (i, a, b) ∈ (m.launchEnd l fail).chu.clears := by
  rw [launchEnd_eq, hs]
  have hset : PlacesKept m (m.setLaunch (endedLaunch l fail)) := ⟨rfl, rfl, rfl, fun _ => id⟩
  exact scratchesCleared_mem h hb hi (hset.trans (.foldl PlacesKept.tileDone _))

/-! ## The end of a pass (R204, R219) -/

/-- Flags stick in CHU_EXC of a tile. -/
def excRaised (w : Word) (m : Mach) (t : Nat) : Mach := m.setReg (fkey F.CHU_EXC_INVALID 0 t) (m.reg (fkey F.CHU_EXC_INVALID 0 t) ||| w)

/-- Keys of CHU_EXC of the tiles. -/
abbrev excKey (k : Nat) : Prop := ∃ i, k = keyOf F.CHU_EXC_INVALID 0 i

theorem excRaised_inRegs (w : Word) (m : Mach) (t : Nat) : InRegs excKey m (m.excRaised w t) := (InRegs.refl _ m).setReg _ ⟨t, rfl⟩

theorem excRaised_fold {ts : List Nat} (hts : ts.Nodup) (w : Word) (m : Mach) (i : Nat) :
    (ts.foldl (excRaised w) m).reg (keyOf F.CHU_EXC_INVALID 0 i) = if i ∈ ts then m.reg (keyOf F.CHU_EXC_INVALID 0 i) ||| w else m.reg (keyOf F.CHU_EXC_INVALID 0 i) := by
  induction ts generalizing m with
  | nil => rfl
  | cons t r ih =>
    obtain ⟨hfresh, hr⟩ := List.nodup_cons.1 hts
    rw [List.foldl_cons, ih hr]
    by_cases hi : i = t
    · subst hi
      rw [if_neg hfresh, if_pos List.mem_cons_self]
      exact reg_setReg_same _ _ _
    · have hkept : (m.excRaised w t).reg (keyOf F.CHU_EXC_INVALID 0 i) = m.reg (keyOf F.CHU_EXC_INVALID 0 i) := reg_setReg_ne _ _ (keyOf_exc_ne hi)
      simp only [hkept, List.mem_cons, hi, false_or]

theorem excSet_eq (m : Mach) (l : Launch) (flags : Nat) : m.excSet l flags = (tilesOf l.mask).foldl (excRaised (BitVec.ofNat 32 (flags % 64))) m := rfl

/-- No tile of a launch whose pass ends executes it again. -/
def passCleared (m : Mach) (mask : Nat) : Mach := (tilesOf mask).foldl (fun m t => m.set F.CHU_TILE_STATUS_RECOMPUTING 0 0 t) m

theorem passCleared_inRegs (m : Mach) (mask : Nat) : InRegs churnKey m (m.passCleared mask) :=
  .foldl (fun z t _ => (InRegs.refl _ z).set (f := F.CHU_TILE_STATUS_RECOMPUTING) (.inr ⟨t, rfl⟩)) m

/-- The module once a pass has written its outputs, and its flags stick. -/
def passWritten (m : Mach) (l : Launch) (ws : List (Nat × Nat × List Byte)) (flags : Nat) : Mach := ((m.passCleared l.mask).launchWrites l ws).excSet l flags

/-- What the outputs of a pass leave. -/
structure PassWritten (m : Mach) (l : Launch) (ws : List (Nat × Nat × List Byte)) (flags : Nat) (x : Mach) : Prop where
  chu : x.chu = m.chu
  base : x.base = m.base
  variant : x.variant = m.variant
  downs : x.downs = m.downs
  tileDowns : x.tileDowns = m.tileDowns
  wr : x.wr = (m.launchWrites l ws).wr
  places : PlacesKept m x
  exc : ∀ i ∈ tilesOf l.mask, x.reg (keyOf F.CHU_EXC_INVALID 0 i) = m.reg (keyOf F.CHU_EXC_INVALID 0 i) ||| BitVec.ofNat 32 (flags % 64)

theorem passWritten_spec (m : Mach) (l : Launch) (ws : List (Nat × Nat × List Byte)) (flags : Nat) : PassWritten m l ws flags (m.passWritten l ws flags) := by
  unfold passWritten
  set y := m.passCleared l.mask with hy
  set z := y.launchWrites l ws with hz
  have hclear : InRegs churnKey m y := m.passCleared_inRegs l.mask
  have hby : ByWriting y z := .launchWrites y l ws
  have haside : Aside y z := .launchWrites y l ws
  have hexc : InRegs excKey z (z.excSet l flags) := .foldl (fun z t _ => z.excRaised_inRegs _ t) z
  have hlogs : SameLogs m y := by
    refine ⟨hclear.only.wr, by rw [hclear.file]; rfl, fun k hk => hclear.regs k ?_⟩
    rintro (rfl | ⟨i, rfl⟩)
    · exact absurd hk (by rw [dirtyKey, keyOf_mod]; decide)
    · exact absurd hk (by rw [dirtyKey, keyOf_mod]; decide)
  have hychu : y.chu = m.chu := by rw [hclear.file]; rfl
  have hybase : y.base = m.base := by rw [hclear.file]; rfl
  have hyplan : y.plan = m.plan := by rw [hclear.file]; rfl
  have hzchu : (z.excSet l flags).chu = z.chu := by rw [hexc.file]; rfl
  have hzplan : (z.excSet l flags).plan = z.plan := by rw [hexc.file]; rfl
  have hbanks : ¬ excKey (keyOf F.SLU_BANK_STATUS_BANK0) := fun ⟨i, hk⟩ => fkey_ne_of_addr 0 i (by decide) hk
  refine ⟨hzchu.trans (hby.chu.trans hychu), ?_, hexc.only.variant.trans (haside.variant.trans hclear.only.variant), hexc.only.downs.trans (haside.downs.trans hclear.only.downs),
    hexc.only.tileDowns.trans (haside.tileDowns.trans hclear.only.tileDowns), ?_, ?_, fun i hi => ?_⟩
  · rw [hexc.file]
    exact haside.steady.base.trans hybase
  · exact hexc.only.wr.trans (hlogs.launchWrites l ws).wr
  · have hstart : PlacesKept m y := ⟨hyplan, hclear.regs _ (not_churnKey (by decide) (by decide)), congrArg ChuSt.progs hychu, fun _ hc => hychu ▸ hc⟩
    exact (hstart.trans (.of_byWriting hby)).trans ⟨hzplan, hexc.regs _ hbanks, congrArg ChuSt.progs hzchu, fun _ hc => hzchu ▸ hc⟩
  · have hold : z.reg (keyOf F.CHU_EXC_INVALID 0 i) = m.reg (keyOf F.CHU_EXC_INVALID 0 i) :=
      (hby.regs _ (not_wroteKey (by decide) (by decide))).trans (hclear.regs _ (not_churnKey (by decide) (by decide)))
    rw [excSet_eq, excRaised_fold (tilesOf_nodup _), if_pos hi, hold]

/-- The launch once the outputs of its last pass are written: units carried out, flags and KRESULT. -/
abbrev passedLaunch (l : Launch) (done flags kres : Nat) : Launch := { l with done := done, flags := flags, kres := kres }

theorem passEnd_library {m : Mach} {l : Launch} {units : Nat} {user : ProgPass} {o : KOut} (h : l.entry < 64)
    (ho : (kernelIn l).run l.done ((kernelIn l).units - l.done) = (o, none)) :
    m.passEnd l units true user =
      (m.passWritten l o.writes o.flags).launchEnd (passedLaunch l (l.done + ((kernelIn l).units - l.done)) (l.flags ||| o.flags) (l.kres + o.k)) none := by
  unfold passEnd
  simp only [if_pos h, if_true, ho]
  rfl

theorem launchStreams_congr {m x : Mach} (h : x.chu = m.chu) (e : Nat) (args : List Byte) : x.launchStreams e args = m.launchStreams e args := by
  rw [launchStreams, prog_congr h, launchStreams]

/-- Whether a write of a user program is to a result stream, and within it. -/
abbrev WriteFits (m : Mach) (l : Launch) (w : Nat × Nat × List Byte) : Prop :=
  (nthD (m.launchStreams l.entry l.args) w.1 (false, false, false, 0, 0, 0)).2.2.1 = true ∧ w.2.1 + w.2.2.length ≤ (nthD l.streams w.1 ([], 0)).2

theorem passEnd_user {m : Mach} {l : Launch} {units : Nat} {user : ProgPass} (h : 64 ≤ l.entry) (hw : ∀ w ∈ user.writes, WriteFits m l w) :
    m.passEnd l units true user =
      (m.passWritten l user.writes user.flags).launchEnd (passedLaunch l l.done (l.flags ||| user.flags % 64) user.kresult) none := by
  have hchu : (m.passCleared l.mask).chu = m.chu := by rw [(m.passCleared_inRegs l.mask).file]; rfl
  have hss := launchStreams_congr hchu l.entry l.args
  unfold passEnd
  rw [if_neg (Nat.not_lt.2 h)]
  extract_lets ss ok z l'
  have hok : ∀ w ∈ user.writes, ok w = true := fun w hmem => by
    obtain ⟨hres, hin⟩ := hw w hmem
    simp only [ok, ss, Bool.and_eq_true, decide_eq_true_eq]
    exact ⟨hss ▸ hres, hin⟩
  have hfind : user.writes.find? (fun w => !ok w) = none := List.find?_eq_none.2 fun w hmem => by simp [hok w hmem]
  have hz : z = m.passWritten l user.writes user.flags := by
    simp only [z, List.filter_eq_self.2 hok]
    rfl
  rw [hfind, hz]
  rfl

end Mach

/-- The last pass of a launch. -/
theorem runs_lastPass {c : Instr} {s : State} {t u flags : Nat} {l l' : Launch} {ws : List (Nat × Nat × List Byte)} {g : Mach → Launch → Mach}
    (hc : Sys2Proof.Machine.exec c s = commit s fun m => (m.advance t).engines fun m => m.onLaunch u g) (hi : s.m.Inv) (hr : s.m.Running)
    (hl : s.m.launch? u = some l) (hl' : l'.uid = l.uid ∧ l'.mask = l.mask ∧ l'.sched = l.sched ∧ l'.entry = l.entry ∧ l'.owner = l.owner)
    (hg : g (s.m.advance t) l = ((s.m.advance t).passWritten l ws flags).launchEnd l' none) :
    Runs c s fun n =>
      n.launch? u = some (endedLaunch l' none) ∧
      (∀ i ∈ Mach.tilesOf l.mask, n.bit F.CHU_TILE_STATUS_BUSY 0 i = false ∧
        n.reg (keyOf F.CHU_EXC_INVALID 0 i) = s.m.reg (keyOf F.CHU_EXC_INVALID 0 i) ||| BitVec.ofNat 32 (flags % 64)) ∧
      (l.sched = false → ∀ i a b, i ∈ Mach.tilesOf l.mask → (s.m.advance t).sramPlace l i (s.m.sramNeed l) = some (a, b) → 0 < b → (i, a, b) ∈ n.chu.clears) ∧
      StoresOf ((s.m.advance t).launchWrites l ws) n := by
  obtain ⟨huid, hmask, hsched, hentry, howner⟩ := hl'
  obtain ⟨hmem, rfl⟩ := Mach.launch?_some hl
  have hpass := (s.m.advance t).passWritten_spec l ws flags
  set y := (s.m.advance t).passWritten l ws flags with hy
  obtain ⟨hend, hidle⟩ := y.launchEnd_spec l' none
  have hhas : (y.launchEnd l' none).HasLaunch (endedLaunch l' none) :=
    (Mach.hasLaunch_setLaunch_same (m := y) (l := l) (x := endedLaunch l' none) (hpass.chu ▸ hmem) huid.symm).of_launches hend.launches
  have honly : OnlyRegs churnKey y (y.launchEnd l' none) := (y.launchEnd_inChurn l' none).only
  have hbase : (y.launchEnd l' none).base = y.base := (y.launchEnd_inChurn l' none).base
  have hx : (s.m.advance t).engines (fun m => m.onLaunch l.uid g) = y.launchEnd l' none :=
    (Mach.engines_of_running (m := s.m.advance t) hr _).trans ((Mach.onLaunch_of_some (m := s.m.advance t) hl g).trans hg)
  refine runs_of_aside hc hi hx (honly.downs.trans hpass.downs) (honly.tileDowns.trans hpass.tileDowns) (honly.variant.trans hpass.variant) (hbase.trans hpass.base)
    fun hstores hreg => ⟨?_, fun i hi => ⟨?_, ?_⟩, fun hs i a b hi hp hb => ?_, fun st a => ?_⟩
  · exact (Mach.launch?_congr (congrArg ChuSt.launches (settle_chu ..)) _).trans (huid ▸ hhas.launch?)
  · exact (Mach.bit_congr (hreg _)).trans (hidle i (hmask ▸ hi))
  · exact (hreg _).trans ((honly.regs _ (not_churnKey (by decide) (by decide))).trans (hpass.exc i hi))
  · have hplace : y.sramPlace l' i (y.sramNeed l') = some (a, b) := by
      have hneed : y.sramNeed l' = y.sramNeed l := by rw [Mach.sramNeed, hentry, Mach.sramNeed]
      have hsame : ∀ n, y.sramPlace l' i n = y.sramPlace l i n := fun n => by rw [Mach.sramPlace, hsched, howner, Mach.sramPlace]
      rw [hneed, hsame]
      exact (hpass.places.sramPlace l i).trans hp
    exact congrArg ChuSt.clears (settle_chu s.m (y.launchEnd l' none)) ▸ Mach.launchEnd_clears none (hsched.trans hs) (hmask ▸ hi) hplace hb
  · exact (hstores st a).trans (Mach.rd_congr (honly.wr.trans hpass.wr) (hbase.trans (hpass.base.trans (Aside.launchWrites _ l ws).steady.base.symm)) st a)

end Sys2Proof.Machine
end

section
/-! SUPPORT and proof of O24: the last pass of a launch, its budget, accesses beyond a stream, and its completion (08_churn_programs.md R208, R219, R220, R222, R227;
07_churn_arithmetic.md R203, R204). -/
namespace Sys2Proof.Machine
namespace Mach

/-! ## Budgets (R222) -/

theorem firstTile_lt (mask : Nat) : (tilesOf mask).headD 0 < 64 := by
  cases h : tilesOf mask with
  | nil => decide
  | cons t r =>
    have hmem : t ∈ tilesOf mask := h ▸ List.mem_cons_self
    exact List.mem_range.1 (List.mem_of_mem_filter hmem)

theorem budgetExceeded_over {m : Mach} {l : Launch} (hl2 : l.state = 2) (h : l.since + cycleUnits (l.cost + recomputeCycles) ≤ m.now) :
    ∃ i, m.budgetExceeded l = ((m.inc F.CHU_BUDGET_OVER).launchEnd l (some (stIntegrity, 0))).fault (srcTile ((tilesOf l.mask).headD 0)) kFailed i :=
  ⟨_, if_pos ⟨hl2, h⟩⟩

/-! ## Accesses beyond a stream (R208) -/

/-- The first access beyond a stream is captured. -/
def overrunCaptured (m : Mach) (l : Launch) (a : Nat) : Mach :=
  if m.bit F.XLT_FAULT_INFO_VALID then m
  else (((m.set F.XLT_FAULT_INFO_VALID 1).set F.XLT_FAULT_INFO_HERD l.herd).set F.XLT_FAULT_INFO_ASID l.asid).set64 F.XLT_FAULT_ADDR_LO a

/-- What XLT_FAULT shows in `x` once an access of a launch at `a` was captured in `m`. -/
structure Overran (m x : Mach) (l : Launch) (a : Nat) : Prop where
  valid : x.bit F.XLT_FAULT_INFO_VALID = true
  first : m.bit F.XLT_FAULT_INFO_VALID = false →
    x.get64 F.XLT_FAULT_ADDR_LO = a % 2 ^ 64 ∧ x.get F.XLT_FAULT_INFO_ASID = l.asid % 2 ^ F.XLT_FAULT_INFO_ASID.wd
  kept : m.bit F.XLT_FAULT_INFO_VALID = true → x.reg (keyOf F.XLT_FAULT_INFO_VALID) = m.reg (keyOf F.XLT_FAULT_INFO_VALID)

/-- Keys of the registers that show a failed translation. -/
abbrev overrunKey (k : Nat) : Prop := k = keyOf F.XLT_FAULT_INFO_VALID ∨ k = keyOf F.XLT_FAULT_ADDR_LO ∨ k = keyOf F.XLT_FAULT_ADDR_LO + 4

theorem Overran.of_regs {m x y : Mach} {l : Launch} {a : Nat} (h : Overran m x l a) (hy : ∀ k, overrunKey k → y.reg k = x.reg k) : Overran m y l a := by
  have hinfo : y.reg (keyOf F.XLT_FAULT_INFO_VALID) = x.reg (keyOf F.XLT_FAULT_INFO_VALID) := hy _ (.inl rfl)
  refine ⟨(bit_congr hinfo).trans h.valid, fun hf => ?_, fun ht => hinfo.trans (h.kept ht)⟩
  obtain ⟨haddr, hasid⟩ := h.first hf
  refine ⟨Eq.trans ?_ haddr, (get_congr (f := F.XLT_FAULT_INFO_ASID) hinfo).trans hasid⟩
  rw [get64, hy _ (.inr (.inl rfl)), hy _ (.inr (.inr rfl)), get64]

theorem overrunCaptured_spec (m : Mach) (l : Launch) (a : Nat) : Overran m (m.overrunCaptured l a) l a ∧ InRegs overrunKey m (m.overrunCaptured l a) := by
  unfold overrunCaptured
  split <;> rename_i hv
  · exact ⟨⟨hv, fun hf => absurd (hv.symm.trans hf) nofun, fun _ => rfl⟩, .refl _ m⟩
  · set b := m.set F.XLT_FAULT_INFO_VALID 1 with hb
    set c := b.set F.XLT_FAULT_INFO_HERD l.herd with hc
    set d := c.set F.XLT_FAULT_INFO_ASID l.asid with hd
    have hin : InRegs overrunKey m d := (((InRegs.refl _ m).set (by exact .inl rfl)).set (by exact .inl rfl)).set (by exact .inl rfl)
    have hinfo : (d.set64 F.XLT_FAULT_ADDR_LO a).reg (keyOf F.XLT_FAULT_INFO_VALID) = d.reg (keyOf F.XLT_FAULT_INFO_VALID) := set64_reg_ne d (by decide) (by decide)
    refine ⟨⟨?_, fun _ => ⟨get64_set64_same d _ _ _ _, ?_⟩, fun ht => absurd ht hv⟩, (hin.setReg _ (.inr (.inl rfl))).setReg _ (.inr (.inr rfl))⟩
    · calc (d.set64 F.XLT_FAULT_ADDR_LO a).bit F.XLT_FAULT_INFO_VALID = d.bit F.XLT_FAULT_INFO_VALID := bit_congr hinfo
        _ = c.bit F.XLT_FAULT_INFO_VALID := bit_set_apart c rfl (by decide) (by decide)
        _ = b.bit F.XLT_FAULT_INFO_VALID := bit_set_apart b rfl (by decide) (by decide)
        _ = true := bit_set_same m _ true _ _ (by decide) rfl
    · calc (d.set64 F.XLT_FAULT_ADDR_LO a).get F.XLT_FAULT_INFO_ASID = d.get F.XLT_FAULT_INFO_ASID := get_congr (f := F.XLT_FAULT_INFO_ASID) hinfo
        _ = l.asid % 2 ^ F.XLT_FAULT_INFO_ASID.wd := get_set_same c _ _ _ _ (by decide)

/-- The first address beyond stream `i` of a launch that an access at offset `off` reaches. -/
abbrev overrunAddr (m : Mach) (l : Launch) (i off : Nat) : Nat := (nthD (m.launchStreams l.entry l.args) i (false, false, false, 0, 0, 0)).2.2.2.1 + off

theorem launchOverrun_eq (m : Mach) (l : Launch) (i off : Nat) :
    ∃ inf, m.launchOverrun l i off =
      ((m.overrunCaptured l (m.overrunAddr l i off)).fault srcXlt kFailed inf).launchEnd l (some (stXlate, m.overrunAddr l i off)) := ⟨_, rfl⟩

/-- What an access beyond a stream leaves. -/
theorem launchOverrun_spec {m : Mach} {l : Launch} (hl : l ∈ m.chu.launches) (i off : Nat) :
    let x := m.launchOverrun l i off
    x.HasLaunch (endedLaunch l (some (stXlate, m.overrunAddr l i off))) ∧ Overran m x l (m.overrunAddr l i off) ∧ OnlyRegs (fun k => xltKey k ∨ churnKey k) m x := by
  obtain ⟨inf, he⟩ := m.launchOverrun_eq l i off
  obtain ⟨hover, hin⟩ := m.overrunCaptured_spec l (m.overrunAddr l i off)
  set a := m.overrunAddr l i off with ha
  set y := m.overrunCaptured l a with hy
  set z := y.fault srcXlt kFailed inf with hz
  have hflt : FltOnly y z := .fault y srcXlt kFailed inf (by decide) (by decide)
  have hchu : z.chu = m.chu := hflt.touch.chu.trans (by rw [hin.file]; rfl)
  have hend := z.launchEnd_inChurn l (some (stXlate, a))
  have hkept : ∀ k, overrunKey k → (z.launchEnd l (some (stXlate, a))).reg k = y.reg k := fun k hk => by
    have hnone : ¬ fltKey k ∧ ¬ churnKey k := by
      obtain rfl | rfl | rfl := hk
      · exact ⟨by decide, not_churnKey (by decide) (by decide)⟩
      · exact ⟨by decide, not_churnKey (by decide) (by decide)⟩
      · refine ⟨by decide, ?_⟩
        simp only [churnKey, keyOf, fkey, regKey, regSpan]
        omega
    exact (hend.regs k hnone.2).trans (hflt.reg k hnone.1)
  have hxlt : ∀ k, overrunKey k → xltKey k := by
    rintro k (rfl | rfl | rfl) <;> decide
  rw [he]
  exact ⟨launchEnd_hasLaunch (hchu ▸ hl) _, hover.of_regs hkept,
    ((hin.only.mono fun k hk => .inl (hxlt k hk)).trans ((OnlyRegs.of_fltOnly hflt).mono fun _ hk => .inl (.inl hk))).trans (hend.only.mono fun _ hk => .inr hk)⟩

/-! ## Completions (R227) -/

/-- DETAIL of a launch that completes: of its failure, or its flags, whether a pass was repeated, and KRESULT. -/
def completionDetail (l : Launch) : Nat :=
  match l.fail with
  | some (_, d) => d
  | none => l.flags + (if l.again then 256 else 0) + l.kres % 2 ^ 32 * 2 ^ 32

/-- The launch is gone, and its outcome is known. -/
def launchLeft (m : Mach) (l : Launch) : Mach := (m.dropLaunch l.uid).complete l.sq l.uid ((l.fail.map (·.1)).getD stDone) 0 (completionDetail l)

/-- Flags of an exception are reported to the launch's herd where that is asked for. -/
def flagsReported (m : Mach) (l : Launch) : Mach :=
  if m.bit F.CHU_CTL_EXC_EVENT ∧ l.flags &&& 33 ≠ 0 then m.raise 0x0600 0x1FF l.herd [l.herd] l.entry l.flags else m

theorem launchComplete_landed {m : Mach} {l : Launch} (hl3 : l.state = 3) (h : m.landed 5 l.uid 0 = true) :
    m.launchComplete l = ((m.launchLeft l).flagsReported l).progDrained l.entry := by
  rw [launchComplete, if_neg (by simp [hl3, h]), launchLeft, completionDetail]
  cases l.fail <;> rfl

theorem launchComplete_waits {m : Mach} {l : Launch} (h : m.landed 5 l.uid 0 = false) : m.launchComplete l = m := if_pos (.inr h)

theorem flagsReported_spec (m : Mach) (l : Launch) :
    (m.flagsReported l).chu = m.chu ∧ (m.flagsReported l).qe = m.qe ∧ OnlyRegs (fun _ => False) m (m.flagsReported l) ∧
      (m.bit F.CHU_CTL_EXC_EVENT = true → l.flags &&& 33 ≠ 0 → ∃ e ∈ (m.flagsReported l).evq, e.code = 0x0600 ∧ e.dest = l.herd) := by
  unfold flagsReported
  split <;> rename_i hc
  · exact ⟨rfl, rfl, ⟨rfl, rfl, rfl, rfl, fun _ _ => rfl⟩, fun _ _ => ⟨_, mem_evq_raise m _ _ _ _ _ (List.mem_singleton_self l.herd), rfl, rfl⟩⟩
  · exact ⟨rfl, rfl, .refl _ m, fun he hf => absurd ⟨he, hf⟩ hc⟩

/-- What the completion of a launch leaves. -/
theorem launchComplete_spec {m : Mach} {l : Launch} (hl3 : l.state = 3) (h : m.landed 5 l.uid 0 = true) :
    let x := m.launchComplete l
    x.chu.launches = m.chu.launches.filter (fun y => y.uid != l.uid) ∧
      m.Finished x l.sq l.uid { status := (l.fail.map (·.1)).getD stDone, bytes := 0, deadline := false, time := m.polder.toNat, detail := completionDetail l } ∧
      (m.bit F.CHU_CTL_EXC_EVENT = true → l.flags &&& 33 ≠ 0 → ∃ e ∈ x.evq, e.code = 0x0600 ∧ e.dest = l.herd) ∧ OnlyRegs (fun _ => True) m x := by
  rw [launchComplete_landed hl3 h]
  have hleft : OnlyRegs (fun _ => True) m (m.launchLeft l) := ⟨rfl, rfl, rfl, rfl, fun _ _ => rfl⟩
  obtain ⟨hchu, hqe, honly, hevent⟩ := (m.launchLeft l).flagsReported_spec l
  set y := (m.launchLeft l).flagsReported l with hy
  obtain ⟨e, hin, hlaunches⟩ := y.progDrained_spec l.entry
  have hfin : m.Finished (m.launchLeft l) l.sq l.uid
      { status := (l.fail.map (·.1)).getD stDone, bytes := 0, deadline := false, time := m.polder.toNat, detail := completionDetail l } :=
    (finish_finished (m.dropLaunch l.uid) _ _ _).from_qe rfl
  refine ⟨hlaunches.trans (congrArg ChuSt.launches hchu :), (hfin.of_qe hqe).of_qe hin.qe, fun he hf => ?_,
    (hleft.trans (honly.mono fun _ _ => trivial)).trans (hin.only.mono fun _ _ => trivial)⟩
  rw [hin.evq]
  exact hevent he hf

end Mach

theorem endedLaunch_fail (l : Launch) : (endedLaunch l none).fail = l.fail := by
  show (if l.fail.isSome then l.fail else none) = l.fail
  cases l.fail <;> rfl

/-! ## The commands -/

/-- The last pass of a library kernel. -/
theorem runs_passEnd_library {s : State} {t u units : Nat} {user : ProgPass} {l : Launch} {o : KOut} (hi : s.m.Inv) (hr : s.m.Running) (hl : s.m.launch? u = some l)
    (hl2 : l.state = 2) (he : l.entry < 64) (ho : (Mach.kernelIn l).run l.done ((Mach.kernelIn l).units - l.done) = (o, none)) :
    Runs (.launchPassEnd t u units true user) s fun n =>
      (∃ x, n.launch? u = some x ∧ x.state = 3 ∧ x.fail = l.fail ∧ x.kres = l.kres + o.k ∧ x.flags = l.flags ||| o.flags) ∧
      (∀ i ∈ Mach.tilesOf l.mask, n.bit F.CHU_TILE_STATUS_BUSY 0 i = false) ∧ StoresOf ((s.m.advance t).launchWrites l o.writes) n := by
  have hpass := Mach.passEnd_library (m := s.m.advance t) (units := units) (user := user) he ho
  obtain ⟨n, hn, hp, hlaunch, htiles, -, hstores⟩ :=
    runs_lastPass (g := fun m l => if l.state = 2 then m.passEnd l units true user else m) (c := .launchPassEnd t u units true user) rfl hi hr hl
      (l' := Mach.passedLaunch l (l.done + ((Mach.kernelIn l).units - l.done)) (l.flags ||| o.flags) (l.kres + o.k)) ⟨rfl, rfl, rfl, rfl, rfl⟩ ((if_pos hl2).trans hpass)
  exact ⟨n, hn, hp, ⟨_, hlaunch, rfl, endedLaunch_fail _, rfl, rfl⟩, fun i hi => (htiles i hi).1, hstores⟩

/-- The last pass of a user program whose writes fit its result streams. -/
theorem runs_passEnd_user {s : State} {t u units : Nat} {user : ProgPass} {l : Launch} (hi : s.m.Inv) (hr : s.m.Running) (hl : s.m.launch? u = some l)
    (hl2 : l.state = 2) (he : 64 ≤ l.entry) (hw : ∀ w ∈ user.writes, Mach.WriteFits s.m l w) :
    Runs (.launchPassEnd t u units true user) s fun n =>
      (∃ x, n.launch? u = some x ∧ x.state = 3 ∧ x.fail = l.fail ∧ x.kres = user.kresult ∧ x.flags = l.flags ||| user.flags % 64) ∧
      (∀ i ∈ Mach.tilesOf l.mask, n.bit F.CHU_TILE_STATUS_BUSY 0 i = false ∧
        n.reg (keyOf F.CHU_EXC_INVALID 0 i) = s.m.reg (keyOf F.CHU_EXC_INVALID 0 i) ||| BitVec.ofNat 32 (user.flags % 64)) ∧
      (l.sched = false → ∀ i a b, i ∈ Mach.tilesOf l.mask → (s.m.advance t).sramPlace l i (s.m.sramNeed l) = some (a, b) → 0 < b → (i, a, b) ∈ n.chu.clears) ∧
      StoresOf ((s.m.advance t).launchWrites l user.writes) n := by
  have hpass := Mach.passEnd_user (m := s.m.advance t) (units := units) he hw
  obtain ⟨n, hn, hp, hlaunch, hrest⟩ :=
    runs_lastPass (g := fun m l => if l.state = 2 then m.passEnd l units true user else m) (c := .launchPassEnd t u units true user) rfl hi hr hl
      (l' := Mach.passedLaunch l l.done (l.flags ||| user.flags % 64) user.kresult) ⟨rfl, rfl, rfl, rfl, rfl⟩ ((if_pos hl2).trans hpass)
  exact ⟨n, hn, hp, ⟨_, hlaunch, rfl, endedLaunch_fail _, rfl, rfl⟩, hrest⟩

/-- A launch that takes more than its cost and a recompute. -/
theorem runs_budgetExceeded {s : State} {t u : Nat} {l : Launch} (hi : s.m.Inv) (hr : s.m.Running) (hl : s.m.launch? u = some l) (hl2 : l.state = 2)
    (hover : l.since + cycleUnits (l.cost + recomputeCycles) ≤ (s.m.advance t).now) :
    Runs (.launchBudgetExceeded t u) s fun n =>
      n.launch? u = some (endedLaunch l (some (stIntegrity, 0))) ∧
      n.get F.CHU_BUDGET_OVER = min (s.m.get F.CHU_BUDGET_OVER + 1) (2 ^ F.CHU_BUDGET_OVER.wd - 1) ∧ SameStores s.m n := by
  obtain ⟨i, hbudget⟩ := Mach.budgetExceeded_over (m := s.m.advance t) hl2 hover
  obtain ⟨h64, h192⟩ := srcTile_bounds (Mach.firstTile_lt l.mask)
  obtain ⟨hmem, rfl⟩ := Mach.launch?_some hl
  set m := s.m.advance t with hm
  set y := m.inc F.CHU_BUDGET_OVER with hy
  set x := y.launchEnd l (some (stIntegrity, 0)) with hx
  have hhas : x.HasLaunch (endedLaunch l (some (stIntegrity, 0))) := Mach.launchEnd_hasLaunch (m := y) hmem _
  have honly : OnlyRegs churnKey y x := (y.launchEnd_inChurn l _).only
  have hcount : x.get F.CHU_BUDGET_OVER = min (s.m.get F.CHU_BUDGET_OVER + 1) (2 ^ F.CHU_BUDGET_OVER.wd - 1) :=
    (honly.regs.get (not_churnKey (by decide) (by decide))).trans (Mach.get_inc_same m _ _ _ _ (by decide))
  refine runs_of_tileFault (f := fun m => m.onLaunch l.uid fun m l => m.budgetExceeded l) rfl hi hr ((Mach.onLaunch_of_some (m := m) hl _).trans hbudget) h64 h192
    honly.variant honly.downs honly.tileDowns fun n hn hreg => ⟨?_, ?_, ?_⟩
  · exact (hn.launches _ hhas (by simp)).launch?
  · exact (Mach.get_congr (hreg _)).trans ((hn.get (by decide) (by decide) (by decide)).trans hcount)
  · exact sameStores_settle (hn.wr.trans (honly.wr.trans hi.no_wr))

/-- A launch that goes beyond a stream. -/
theorem runs_streamOverrun {s : State} {t u i off a : Nat} {l : Launch} (hi : s.m.Inv) (hr : s.m.Running) (hl : s.m.launch? u = some l) (hl2 : l.state = 2)
    (hlen : i < l.streams.length) (hoff : (nthD l.streams i ([], 0)).2 ≤ off) (ha : a = s.m.overrunAddr l i off) :
    Runs (.streamOverrun t u i off) s fun n =>
      n.launch? u = some (endedLaunch l (some (stXlate, a))) ∧ n.bit F.XLT_FAULT_INFO_VALID = true ∧
      (s.m.bit F.XLT_FAULT_INFO_VALID = false → n.get64 F.XLT_FAULT_ADDR_LO = a % 2 ^ 64 ∧ n.get F.XLT_FAULT_INFO_ASID = l.asid % 2 ^ F.XLT_FAULT_INFO_ASID.wd) ∧
      (s.m.bit F.XLT_FAULT_INFO_VALID = true → n.reg (keyOf F.XLT_FAULT_INFO_VALID) = s.m.reg (keyOf F.XLT_FAULT_INFO_VALID)) ∧
      Frame (fun k => xltKey k ∨ churnKey k) s.m n := by
  subst ha
  obtain ⟨hmem, rfl⟩ := Mach.launch?_some hl
  obtain ⟨hhas, hover, honly⟩ := Mach.launchOverrun_spec (m := s.m.advance t) hmem i off
  have hx := (Mach.onLaunch_of_some (m := s.m.advance t) hl fun m l =>
    if l.state = 2 ∧ i < l.streams.length ∧ (nthD l.streams i ([], 0)).2 ≤ off then m.launchOverrun l i off else m).trans (if_pos ⟨hl2, hlen, hoff⟩)
  refine runs_of_engines rfl hi hr hx honly fun hframe hreg => ?_
  obtain ⟨hvalid, hfirst, hkept⟩ := hover.of_regs (y := settle s.m ((s.m.advance t).launchOverrun l i off)) fun k _ => hreg k
  exact ⟨(Mach.launch?_congr (congrArg ChuSt.launches (settle_chu ..)) _).trans hhas.launch?, hvalid, hfirst, hkept, hframe⟩

/-- A launch whose writes have landed completes. -/
theorem runs_launchComplete {s : State} {t u : Nat} {l : Launch} (hi : s.m.Inv) (hr : s.m.Running) (hl : s.m.launch? u = some l) (hl3 : l.state = 3)
    (hland : s.m.landed 5 l.uid 0 = true) :
    Runs (.launchComplete t u) s fun n =>
      n.chu.launches = s.m.chu.launches.filter (fun x => x.uid != u) ∧
      s.m.Finished n l.sq l.uid { status := (l.fail.map (·.1)).getD stDone, bytes := 0, deadline := false, time := (s.m.advance t).polder.toNat,
                                  detail := Mach.completionDetail l } ∧
      (s.m.bit F.CHU_CTL_EXC_EVENT = true → l.flags &&& 33 ≠ 0 → ∃ e ∈ n.evq, e.code = 0x0600 ∧ e.dest = l.herd) ∧ SameStores s.m n := by
  obtain ⟨-, rfl⟩ := Mach.launch?_some hl
  obtain ⟨hlaunches, hfin, hevent, honly⟩ := Mach.launchComplete_spec (m := s.m.advance t) hl3 hland
  exact runs_of_engines rfl hi hr (Mach.onLaunch_of_some (m := s.m.advance t) hl fun m l => m.launchComplete l) honly fun hframe _ =>
    ⟨(congrArg ChuSt.launches (settle_chu ..)).trans hlaunches, (hfin.of_qe rfl).from_qe rfl, hevent, hframe.2⟩

/-- One whose writes have not landed waits. -/
theorem runs_launchComplete_waits {s : State} {t u : Nat} {l : Launch} (hi : s.m.Inv) (hr : s.m.Running) (hl : s.m.launch? u = some l)
    (hland : s.m.landed 5 l.uid 0 = false) : Runs (.launchComplete t u) s fun n => n.chu = s.m.chu ∧ Frame (fun _ => False) s.m n :=
  runs_of_engines rfl hi hr ((Mach.onLaunch_of_some (m := s.m.advance t) hl fun m l => m.launchComplete l).trans (Mach.launchComplete_waits (m := s.m.advance t) hland))
    (.refl _ _) fun hframe _ => ⟨rfl, hframe⟩

/-- Settles O24: the last pass of a library kernel and of a user program, a launch over its budget, one that goes beyond a stream, and the completion. -/
theorem launchEnds : Obligations.LaunchEnds := by
  unfold Obligations.LaunchEnds
  refine ⟨fun s t u units user l hi hr hl hl2 => ⟨fun o he ho => runs_passEnd_library hi hr hl hl2 he ho, fun he hw => runs_passEnd_user hi hr hl hl2 he hw⟩,
    fun s t u l hi hr hl hl2 hover => runs_budgetExceeded hi hr hl hl2 hover,
    fun s t u i off a l hi hr hl hl2 hlen hoff ha => runs_streamOverrun hi hr hl hl2 hlen hoff ha,
    fun s t u l hi hr hl hl3 => ⟨fun hland => runs_launchComplete hi hr hl hl3 hland, fun hland => runs_launchComplete_waits hi hr hl hland⟩⟩

end Sys2Proof.Machine
end
